-- ==== Sys2Proof/Word.lean ====
section
/-! DEFINITION. The word types of the device's bus and memories, and the raster stamp. -/

namespace Sys2Proof

/-- A register, or a double word of a request: 32 bits. -/
abbrev Word := BitVec 32

/-- A byte of memory, flash or a frame. -/
abbrev Byte := BitVec 8

namespace Machine

/-- A Treadle stamp (R27, Table 1.1): frame, line, pick and CCLK within the pick. -/
structure Stamp where
  frame : Nat
  line  : Nat
  pick  : Nat
  cyc   : Nat
  deriving DecidableEq, Repr

end Machine

end Sys2Proof
end

