-- ==== Sys2Proof/Syntax.lean ====
section
/-! DEFINITION. The commands of the block: one constructor per row of the opcode table, with the operands the
row's event carries, in the table's order. -/

namespace Sys2Proof

/-- The two register masters, each with its own TRD_NOW_HI latch (R64). -/
inductive Master where
  | pcie | sideband
  deriving DecidableEq, Repr

/-- How a loom's error was detected (R273, R293). -/
inductive LoomFault where
  | corrected | mxParity | arrayUncorrectable | cacheUncorrectable
  deriving DecidableEq, Repr

/-- What a register access names: an offset of PF BAR0, or an offset of a tenant's window (R129, R130). -/
inductive RegAddr where
  | bar0 (off : Nat)
  | window (tenant : Fin 256) (off : Nat)
  deriving DecidableEq, Repr

/-- What a configuration request does: it reads, or it writes one of the fields the block acts on (R119 to R126). -/
inductive ConfigOp where
  | read (off : Nat)
  | busMaster (on : Bool)
  | memorySpace (on : Bool)
  | msix (enable mask : Bool)
  | numVfs (n : Nat)
  | pageSize (v : Nat)
  | ariHierarchy (on : Bool)
  | vfMemorySpace (on : Bool)
  | ptmEnable (on : Bool)
  | maxPayload (bytes : Nat)
  | maxReadRequest (bytes : Nat)
  | bar (off : Nat) (value : BitVec 32)
  | ecrc (generate check : Bool)
  | clearPoisoned
  deriving DecidableEq, Repr

/-- The classes of memory traffic (chapters 6 and 7). -/
inductive MemClass where
  | raster | live | bulk
  deriving DecidableEq, Repr

/-- What the code over a DRAM line finds (R329). -/
inductive Ecc where
  | clean | corrected | uncorrectable
  deriving DecidableEq, Repr

/-- What a Spool lookup meets in the line it reads (R326 to R328). -/
inductive SpoolError where
  | none | corrected | uncorrectable | tagParity
  deriving DecidableEq, Repr

/-- The raster timing in use (R29, R626): horizontal and vertical lengths, and the refresh in mHz. -/
structure Timing where
  hActive : Nat
  hFp     : Nat
  hSync   : Nat
  hBp     : Nat
  vActive : Nat
  vFp     : Nat
  vSync   : Nat
  vBp     : Nat
  refresh : Nat
  hsPol   : Bool
  vsPol   : Bool
  deriving DecidableEq, Repr

/-- The boot timing of R29. -/
def Timing.boot : Timing :=
  { hActive := 3840, hFp := 176, hSync := 88, hBp := 296, vActive := 2160, vFp := 8, vSync := 10,
    vBp := 72, refresh := 60000, hsPol := false, vsPol := false }

def Timing.hTotal (t : Timing) : Nat := t.hActive + t.hFp + t.hSync + t.hBp
def Timing.vTotal (t : Timing) : Nat := t.vActive + t.vFp + t.vSync + t.vBp

/-- A sink's reply to an AUX request (R643): it accepts some bytes, and returns data for a read; it refuses; or it defers. -/
inductive AuxReply where
  | ack (count : Nat) (data : List Byte)
  | nack
  | defer
  deriving DecidableEq, Repr

/-- What a PMBus poll group reads (R680): whether STATUS_WORD and READ_TEMPERATURE_1 are answered; READ_VOUT in
mV, READ_IOUT in 0.1 A, the phase-fault command's bits, and READ_IOUT of the four phases in turn. A transaction that fails gives none (R681). -/
structure PollGroup where
  status : Bool
  vout   : Option Nat
  iout   : Option Nat
  temp   : Bool
  fault  : Option Nat
  phases : List (Option Nat)
  deriving DecidableEq, Repr

/-- What the lane layer of a training Selvage port finds (Table 13.5, steps 1 and 2): block lock on both lanes, or not within 1 ms; lane order and
polarity, or too much skew. -/
inductive LaneResult where
  | locked
  | lockTimeout
  | deskewed (swap : Bool) (pol : Fin 4)
  | skewed
  deriving DecidableEq, Repr

/-- Why an UP Selvage port goes down (R738): block lock lost, a flit resent 8 times, or no flit for 1 µs. -/
inductive DownCause where
  | lockLost | resends | silence
  deriving DecidableEq, Repr

/-- What the flash part answers the probe: its SFDP table, and the first 48 bytes of pointer block 0 as it gives them in octal DTR (R76). -/
structure FlashAnswer where
  sfdp  : List Byte
  octal : List Byte
  deriving DecidableEq, Repr

/-- A register read: its master and what it reads (R11, R64). -/
structure RegRead where
  master : Master
  target : RegAddr
  deriving DecidableEq, Repr

/-- The rail in mV at one of `n` places: the injectors (R683), or the droop sensors (R685). -/
structure RailReading (n : Nat) where
  place : Fin n
  mv    : Nat
  deriving DecidableEq, Repr

/-- The rail at a fired injector, and whether its reservoir is spent (R684). -/
structure InjectorState where
  rail  : RailReading 64
  spent : Bool
  deriving DecidableEq, Repr

/-- The commands. Each docstring names the row and the rule of the table. -/
inductive Instr where
  /-- RESET_N_ASSERT (R227): RESET_N is asserted; whether for less than 100 ns. -/
  | resetAssert (short : Bool)
  /-- RESET_N_RELEASE (R28): RESET_N is released; the straps, and the looms that fail boot BIST. -/
  | resetRelease (bootMode : BitVec 3) (chipId : BitVec 4) (bistFailed : List Nat)
  /-- POWER_DETECT (R800): the on-die detector asserts or releases; the straps and the looms that fail boot BIST at its release. -/
  | powerDetect (low : Bool) (bootMode : BitVec 3) (chipId : BitVec 4) (bistFailed : List Nat)
  /-- THERMAL_TRIP (R705): a reference diode reaches 115 °C. -/
  | thermalTrip
  /-- FUSE_READ_DONE (R65): the boot ROM has read the fuses. -/
  | fuseReadDone
  /-- SRAM_ZEROED (R319): the boot SRAM zeroing step completes. -/
  | sramZeroed
  /-- FLASH_PROBE (R76): the probe ends, with what the flash answers, and whether it answers. -/
  | flashProbe (answer : FlashAnswer) (readOk : Bool)
  /-- SLOT_VERIFY (R97): the next candidate's verification ends; whether the flash could be read. -/
  | slotVerify (readOk : Bool)
  /-- DRAM_TRAINED (R341): DRAM training completes; dies of 32 Gb, or of both densities. -/
  | dramTrained (wide : Bool) (mixed : Bool)
  /-- CONFIG_COMMIT (R106): the commit CCLK; the preferred timing a sink on port 0 offers. -/
  | configCommit (edid : Option Timing)
  /-- BOOT_TIMING_SWITCH (R70): the loaded timing takes effect. -/
  | bootTimingSwitch
  /-- NETWORK_SECTION_LOADED (R102): the next NETWORK section has streamed into DRAM. -/
  | networkSectionLoaded (readOk : Bool)
  /-- ENHANCED_SWITCH (R69): the picture path changes to enhanced output. -/
  | enhancedSwitch
  /-- DEV_RESET (R168): a DEV_RESET write lands. -/
  | devReset (data : Word)
  /-- LOADER_RESTART (R111): the loader starts again after a flash command. -/
  | loaderRestart
  /-- FLASH_READ (R116): an IMG_FL_CMD write with OP 1 lands. -/
  | flashRead
  /-- FLASH_PROGRAM (R116): an IMG_FL_CMD write with OP 2 lands. -/
  | flashProgram
  /-- FLASH_ERASE_4K (R116): an IMG_FL_CMD write with OP 3 lands. -/
  | flashErase4k
  /-- FLASH_ERASE_64K (R116): an IMG_FL_CMD write with OP 4 lands. -/
  | flashErase64k
  /-- FLASH_COMMAND_DONE (R111): the flash reports completion of a command. -/
  | flashCommandDone (failed : Bool)
  /-- PICK_BOUNDARY (R33): a pick boundary emerges in the CCLK domain. -/
  | pickBoundary
  /-- CYC_SATURATION (R31): the pick runs on until CYC saturates. -/
  | cycSaturation
  /-- HSYNC_IN_EDGE (R831): the next transition of HSYNC_IN emerges, and whether the line's phase error is below one pick. -/
  | hsyncInEdge (belowPick : Bool)
  /-- VSYNC_IN_EDGE (R832): the next transition of VSYNC_IN emerges. -/
  | vsyncInEdge
  /-- HOLDOVER_ENTRY (R24): the reference has been absent for the time of R24. -/
  | holdoverEntry
  /-- REFERENCE_CHANGE (R833): the written REF_SEL takes effect. -/
  | referenceChange
  /-- FRAME_ABORT (R57): a frame-abort takes effect in the present CCLK. -/
  | frameAbort
  /-- CATCHUP_FIRE (R59): the catch-up queue fires its head. -/
  | catchupFire
  /-- GPIO_EDGE (R836): an edge of a GPIO pin emerges. -/
  | gpioEdge (pin : Fin 16) (rising : Bool)
  /-- SLOT_ARM (R45): a SLOT_CTL write with ARM 1 lands. -/
  | slotArm (slot : Fin 256) (data : Word)
  /-- SLOT_DISARM (R49): a SLOT_CTL write with ARM 0 lands. -/
  | slotDisarm (slot : Fin 256) (data : Word)
  /-- NONE (R53): the slot fires with action NONE or an unknown code. -/
  | fireNone (slot : Fin 256)
  /-- FSYNC_SET (R53): the slot fires FSYNC_SET. -/
  | fireFsyncSet (slot : Fin 256)
  /-- FSYNC_CLR (R53): the slot fires FSYNC_CLR. -/
  | fireFsyncClr (slot : Fin 256)
  /-- FSYNC_PULSE (R54): the slot fires FSYNC_PULSE. -/
  | fireFsyncPulse (slot : Fin 256)
  /-- FSYNC_PULSE_END (R53): the pulse width count expires. -/
  | fsyncPulseEnd
  /-- GPIO_SET (R55): the slot fires GPIO_SET. -/
  | fireGpioSet (slot : Fin 256)
  /-- GPIO_CLR (R55): the slot fires GPIO_CLR. -/
  | fireGpioClr (slot : Fin 256)
  /-- GPIO_TOGGLE (R55): the slot fires GPIO_TOGGLE. -/
  | fireGpioToggle (slot : Fin 256)
  /-- SNAPSHOT (R719): the slot fires SNAPSHOT. -/
  | fireSnapshot (slot : Fin 256)
  /-- CAPTURE (R52): the slot fires CAPTURE. -/
  | fireCapture (slot : Fin 256)
  /-- PF_MSIX (R53): the slot fires PF_MSIX. -/
  | firePfMsix (slot : Fin 256)
  /-- TRD_NOW_LO_READ (R64, R137, R138): a master reads TRD_NOW_LO, or another word that it reaches. -/
  | trdNowLoRead (read : RegRead)
  /-- PICK_STAT_CLEAR (R63): a write of 1 to TRD_PICK_STAT.CLR lands. -/
  | pickStatClear
  /-- GPIO_OWN_CHANGE (R56): a write of TRD_GPIO_OWN lands. -/
  | gpioOwnChange (own : BitVec 16)
  /-- FSYNC_IDLE_WRITE (R837): a write of TRD_FSYNC_CTL lands. -/
  | fsyncIdleWrite (data : Word)
  /-- REGISTER_WRITE (R136): a register write lands. -/
  | registerWrite (master : Master) (target : RegAddr) (data : Word)
  /-- ODD_SIZE_ACCESS (R18): a register access of another size or alignment. -/
  | oddSizeAccess (write : Bool) (target : RegAddr) (len : Nat)
  /-- COUNTER_CLEAR (R139): a write of any value to a statistics counter lands. -/
  | counterClear (off : Nat)
  /-- CONFIGURATION_REQUEST (R143): a configuration request arrives. -/
  | configurationRequest (fn : Nat) (what : ConfigOp)
  /-- UNSUPPORTED_REQUEST (R145): a memory request hits no enabled BAR or is refused in D3hot. -/
  | unsupportedRequest (posted : Bool)
  /-- POISONED_WRITE (R144): a poisoned write request arrives at a function's BAR. -/
  | poisonedWrite (fn : Nat)
  /-- BAR2_READ (R842): a BAR2 read emerges. -/
  | bar2Read (off : Nat) (len : Nat)
  /-- BAR2_COMPLETION (R842): the oldest BAR2 read sends its next completion. -/
  | bar2Completion
  /-- BAR2_WRITE (R131): a BAR2 write emerges. -/
  | bar2Write (off : Nat) (data : List Byte)
  /-- RESIZABLE_BAR_WRITE (R135): a write to the Resizable BAR control register selects 2^size MiB. -/
  | resizableBarWrite (size : Nat)
  /-- VF_ENABLE_SET (R126): software sets VF Enable. -/
  | vfEnableSet
  /-- VF_ENABLE_CLEAR (R841): software clears VF Enable. -/
  | vfEnableClear
  /-- PERST_N_ASSERT (R164): PERST_N is asserted. -/
  | perstAssert
  /-- PERST_N_RELEASE (R165): PERST_N is released. -/
  | perstRelease
  /-- D3HOT_ENTRY (R843): the PF enters D3hot. -/
  | d3hotEntry
  /-- D0_RETURN (R843): the PF returns to D0. -/
  | d0Return
  /-- PF_FLR (R227): the PF receives a function level reset. -/
  | pfFlr
  /-- VF_FLR (R227): a VF receives a function level reset. -/
  | vfFlr (vf : Fin 256)
  /-- PTM_DIALOGUE (R146): a scheduled PTM dialogue starts. -/
  | ptmDialogue
  /-- PTM_REQ (R147): a write of 1 to HIF_PTM_CTL.REQ lands. -/
  | ptmReq
  /-- PTM_RESPONSE (R149): a PTM ResponseD arrives. -/
  | ptmResponse (masterTime : Nat) (delay : Nat)
  /-- PTM_TIMEOUT (R150): no PTM ResponseD has come for 100 µs. -/
  | ptmTimeout
  /-- WRITE (R153): a sideband WRITE frame's last CRC bit is sampled. -/
  | sbWrite (addr : Nat) (data : Word) (crc : Nat)
  /-- READ (R157): a sideband READ frame's request CRC is sampled. -/
  | sbRead (addr : Nat) (crc : Nat)
  /-- STATUS (R151): a sideband STATUS frame. -/
  | sbStatus
  /-- UNKNOWN_COMMAND (R844): a sideband command byte that is not known. -/
  | sbUnknown (cmd : Nat)
  /-- EARLY_END (R155): SB_CS_N rises before a frame's last bit. -/
  | sbEarlyEnd (cmd : Option Nat) (readDone : Option (Nat × Bool))
  /-- RING_ENABLE (R178): a QRG_CFG write that sets EN lands. -/
  | ringEnable (ring : Fin 1024) (data : Word)
  /-- RING_DISABLE (R180): a QRG_CFG write that clears EN lands. -/
  | ringDisable (ring : Fin 1024) (data : Word)
  /-- DOORBELL (R182): a doorbell write of a tenant's window emerges. -/
  | doorbell (tenant : Fin 256) (ring : Fin 1024) (data : Word)
  /-- DESCRIPTOR_READ_ISSUE (R184): the Heddle issues a descriptor read of the ring. -/
  | descriptorReadIssue (ring : Fin 1024)
  /-- DESCRIPTOR_FETCH (R185): a descriptor read completes, with the slot's bytes or an error. -/
  | descriptorFetch (ring : Fin 1024) (ok : Bool) (bytes : List Byte)
  /-- DISPATCH (R196): the Heddle dispatches the descriptor its rules choose. -/
  | dispatch
  /-- DEADLINE_MISS (R197): an undispatched descriptor reaches its DEADLINE. -/
  | deadlineMiss (ring : Fin 1024) (seq : Nat)
  /-- EXECUTION_START (R268): a loom of the descriptor begins execution. -/
  | executionStart (ring : Fin 1024) (seq : Nat) (loom : Fin 32)
  /-- EXECUTION_CAP (R215): the descriptor's execution cap expires. -/
  | executionCap (ring : Fin 1024) (seq : Nat)
  /-- DESCRIPTOR_COMPLETE (R270): the descriptor's last loom has finished. -/
  | descriptorComplete (ring : Fin 1024) (seq : Nat)
  /-- COMPLETION_RECORD (R202): the oldest completion is issued and its record begins transmission. -/
  | completionRecord
  /-- MODERATION_TIMER_EXPIRY (R220): the vector's moderation timer has reached its last pick boundary. -/
  | moderationTimerExpiry (vec : Fin 2072)
  /-- MSIX_MESSAGE (R221): the vector's message falls due. -/
  | msixMessage (vec : Fin 2072)
  /-- MSIX_UNMASK (R224): the stop on the vector is removed. -/
  | msixUnmask (vec : Fin 2072)
  /-- HELD_MESSAGE_RELEASE (R226): the tenant's held messages are released in the new frame. -/
  | heldMessageRelease (tenant : Fin 256)
  /-- TEN_STOP (R231): a write of 1 to TEN_CTL.STOP lands. -/
  | tenStop (tenant : Fin 256)
  /-- TEN_START (R231): a write of 1 to TEN_CTL.START lands. -/
  | tenStart (tenant : Fin 256)
  /-- DRAIN_COMPLETE (R228): the tenant's drain reaches step D6. -/
  | drainComplete (tenant : Fin 256)
  /-- MATMUL (R254): the looms of the descriptor carry out MATMUL. -/
  | matmul (ring : Fin 1024) (seq : Nat)
  /-- ELTWISE (R240): the looms of the descriptor carry out ELTWISE. -/
  | eltwise (ring : Fin 1024) (seq : Nat)
  /-- ACTIVATE (R240): the looms of the descriptor carry out ACTIVATE. -/
  | activate (ring : Fin 1024) (seq : Nat)
  /-- REDUCE (R240): the looms of the descriptor carry out REDUCE. -/
  | reduce (ring : Fin 1024) (seq : Nat)
  /-- SOFTMAX (R240): the looms of the descriptor carry out SOFTMAX. -/
  | softmax (ring : Fin 1024) (seq : Nat)
  /-- NORM (R240): the looms of the descriptor carry out NORM. -/
  | norm (ring : Fin 1024) (seq : Nat)
  /-- CONVERT (R240): the looms of the descriptor carry out CONVERT. -/
  | convert (ring : Fin 1024) (seq : Nat)
  /-- COPY (R240): the looms of the descriptor carry out COPY. -/
  | copy (ring : Fin 1024) (seq : Nat)
  /-- FILL (R240): the looms of the descriptor carry out FILL. -/
  | fill (ring : Fin 1024) (seq : Nat)
  /-- GATHER (R240): the looms of the descriptor carry out GATHER. -/
  | gather (ring : Fin 1024) (seq : Nat)
  /-- SCATTER (R240): the looms of the descriptor carry out SCATTER. -/
  | scatter (ring : Fin 1024) (seq : Nat)
  /-- NOP (R260): the control operator completes. -/
  | nop (ring : Fin 1024) (seq : Nat)
  /-- FENCE (R260): the control operator completes. -/
  | fence (ring : Fin 1024) (seq : Nat)
  /-- WAIT_STAMP (R260): the control operator completes. -/
  | waitStamp (ring : Fin 1024) (seq : Nat)
  /-- LOOM_CFG (R263): the control operator completes. -/
  | loomCfg (ring : Fin 1024) (seq : Nat)
  /-- LOOM_BIST (R285): the test ends on every loom tested. -/
  | loomBist (ring : Fin 1024) (seq : Nat) (failed : List (Fin 34))
  /-- LOOM_FAILURE (R273): an error of the loom is detected. -/
  | loomFailure (phys : Fin 34) (cause : LoomFault)
  /-- REEXECUTION (R276): the stopped descriptor re-executes. -/
  | reexecution (ring : Fin 1024) (seq : Nat)
  /-- LOOM_RETIRE (R280): a shed launch stamp retires the failing and denied looms. -/
  | loomRetire
  /-- LOM_DENY_WRITE (R284): a write of LOM_DENY_LO or LOM_DENY_HI lands. -/
  | lomDenyWrite (high : Bool) (data : Word)
  /-- SPOOL_REQUEST (R306): a read request reaches its Spool slice. -/
  | spoolRequest (req : Fin 38) (tag : Nat) (pa : Nat) (cls : MemClass) (err : SpoolError)
  /-- SPOOL_WRITE (R299): a write reaches its Spool slice. -/
  | spoolWrite (req : Fin 38) (tag : Nat) (pa : Nat) (data : List Byte) (cls : MemClass) (darned : Bool)
  /-- SPOOL_FILL (R303): a fill returns; what the victim's holder gives back if it has modified the victim. -/
  | spoolFill (pa : Nat) (recalled : Option (List Byte))
  /-- GRANULE_ZERO_FILL (R323): the zero writes of the granule are all granted. -/
  | granuleZeroFill (granule : Nat)
  /-- DIRECTORY_READ (R314): a coherent read reaches the directory. -/
  | directoryRead (loom : Fin 32) (tag : Nat) (pa : Nat)
  /-- DIRECTORY_READ_FOR_WRITE (R314): a coherent read-for-write reaches the directory. -/
  | directoryReadForWrite (loom : Fin 32) (tag : Nat) (pa : Nat)
  /-- DIRECTORY_UPGRADE (R314): an upgrade reaches the directory. -/
  | directoryUpgrade (loom : Fin 32) (pa : Nat)
  /-- DIRECTORY_EVICTION (R317): an eviction reaches the directory. -/
  | directoryEviction (loom : Fin 32) (pa : Nat) (modified : Option (List Byte))
  /-- SNOOP (R316): a snooped loom answers, with data when it has modified the line. -/
  | snoop (loom : Fin 32) (pa : Nat) (modified : Option (List Byte))
  /-- EVICTION_ACK (R318): an acknowledgement reaches the loom. -/
  | evictionAck (loom : Fin 32) (pa : Nat)
  /-- SLOT_GRANT (R343): the channel's next slot begins; what a scrub read in it finds. -/
  | slotGrant (chan : Fin 12) (ecc : Ecc)
  /-- DRAM_RETURN (R342): the channel's oldest read returns. -/
  | dramReturn (chan : Fin 12) (ecc : Ecc)
  /-- REFRESH_WINDOW (R350): the channel's scheduled window starts; what MR4 reports. -/
  | refreshWindow (chan : Fin 12) (above85 : Bool)
  /-- FORCED_REFRESH (R353): the channel's refresh interval expires before its next window; what MR4 reports. -/
  | forcedRefresh (chan : Fin 12) (above85 : Bool)
  /-- SCRUB_STARVE (R333): the channel's scrub pass exceeds its target. -/
  | scrubStarve (chan : Fin 12)
  /-- TRANSLATION (R360): a channel's translation completes; the CCLK in which its walk began. -/
  | translation (loom : Fin 32) (chan : Fin 16) (began : Nat)
  /-- MMU_INV (R362): a write of MMU_INV with GO 1 lands. -/
  | mmuInv (data : Word)
  /-- MMU_INV_DONE (R362): the invalidation and every earlier walk end. -/
  | mmuInvDone
  /-- LINE_ISSUE (R374): the loom's Shuttle issues the next line of the channel whose turn it is. -/
  | lineIssue (loom : Fin 32)
  /-- BUCKET_REFILL (R373): the refill of the present pick boundary. -/
  | bucketRefill
  /-- CHANNEL_HALT (R380): a tenant channel halts on the fault it has met. -/
  | channelHalt (loom : Fin 32) (chan : Fin 16)
  /-- CHANNEL_HELD (R381): the other channels of the halted descriptor enter HELD. -/
  | channelHeld (ring : Fin 1024) (seq : Nat)
  /-- FAULT_RECORD_WRITE (R382): the halted channel's fault record and log entry are written. -/
  | faultRecordWrite (loom : Fin 32) (chan : Fin 16)
  /-- RESUME (R390): a RESUME lands. -/
  | resume (tenant : Fin 256) (slot : Fin 64)
  /-- ABORT (R393): an ABORT lands. -/
  | abortRecord (tenant : Fin 256) (slot : Fin 64)
  /-- CHAIN_FORWARD (R403): the loom forwards its oldest chained line to the next rank. -/
  | chainForward (loom : Fin 32) (chan : Fin 16)
  /-- FAR_TIER_READ (R407): a far-tier read is sent. -/
  | farTierRead (tenant : Fin 256) (loom : Fin 32) (offset : Nat) (len : Nat) (pa : Nat) (ring : Nat) (seq : Nat)
  /-- FAR_TIER_WRITE (R407): a far-tier write is sent. -/
  | farTierWrite (tenant : Fin 256) (loom : Fin 32) (offset : Nat) (len : Nat) (pa : Nat) (ring : Nat) (seq : Nat)
  /-- FAR_TIER_COMPLETION (R378): a far-tier read completion arrives. -/
  | farTierCompletion (tag : Fin 256) (ok : Bool) (data : List Byte)
  /-- FRAME_RECORD (R419): a read of the intake ring completes, with the slot's bytes or an error. -/
  | frameRecord (ring : Fin 1024) (ok : Bool) (bytes : List Byte)
  /-- SELECTION (R423): the selection stamp of the next frame. -/
  | selection
  /-- RECORD_RELEASE (R421): an overtaken record is released. -/
  | recordRelease (ring : Fin 1024) (seq : Nat)
  /-- SHED_LAUNCH (R440): the launch stamp of the present line's shed. -/
  | shedLaunch
  /-- SHED_END (R441): the running shed's lines are all in its slot; its darned groups of eight pixels, by line of the shed and group. -/
  | shedEnd (darned : List (Nat × Nat))
  /-- SHED_DEADLINE (R442): the deadline stamp of the running shed. -/
  | shedDeadline
  /-- TACK_SHED_COMPLETE (R463): the Tack scaler has computed its shed. -/
  | tackShedComplete
  /-- BOX_LIST_BUILD (R434): box decode and NMS have built the box list. -/
  | boxListBuild
  /-- READMIT (R451): a write of 1 to PIC_CFG.READMIT lands. -/
  | readmit
  /-- ADMISSION_COMPLETE (R452): the admission in progress completes. -/
  | admissionComplete
  /-- CONV (R488): the looms of the descriptor carry out CONV. -/
  | conv (ring : Fin 1024) (seq : Nat)
  /-- CONV_T (R497): the looms of the descriptor carry out CONV_T. -/
  | convT (ring : Fin 1024) (seq : Nat)
  /-- TO_PLANAR (R473): the looms of the descriptor carry out TO_PLANAR. -/
  | toPlanar (ring : Fin 1024) (seq : Nat)
  /-- TO_PACKED (R473): the looms of the descriptor carry out TO_PACKED. -/
  | toPacked (ring : Fin 1024) (seq : Nat)
  /-- POOL (R523): the looms of the descriptor carry out POOL. -/
  | pool (ring : Fin 1024) (seq : Nat)
  /-- CROP_RESIZE (R516): the looms of the descriptor carry out CROP_RESIZE. -/
  | cropResize (ring : Fin 1024) (seq : Nat)
  /-- PASTE (R520): the looms of the descriptor carry out PASTE. -/
  | paste (ring : Fin 1024) (seq : Nat)
  /-- BOX_DECODE (R507): the looms of the descriptor carry out BOX_DECODE. -/
  | boxDecode (ring : Fin 1024) (seq : Nat)
  /-- NMS (R512): the looms of the descriptor carry out NMS. -/
  | nms (ring : Fin 1024) (seq : Nat)
  /-- ATTN (R556): the ATTN operator of a descriptor does its work. -/
  | attn (ring : Fin 1024) (seq : Nat)
  /-- SPLIT_DECODE_MERGE (R566): rank 0 of a split decode merges. -/
  | splitDecodeMerge (ring : Fin 1024) (seq : Nat)
  /-- ATTN_BWD (R568): the ATTN_BWD operator of a descriptor does its work. -/
  | attnBwd (ring : Fin 1024) (seq : Nat)
  /-- KV_APPEND (R550): the KV_APPEND operator of a descriptor does its work. -/
  | kvAppend (ring : Fin 1024) (seq : Nat)
  /-- KV_SEQ_OPEN (R596): a KV_SEQ descriptor opens a sequence. -/
  | kvSeqOpen (ring : Fin 1024) (seq : Nat)
  /-- KV_SEQ_CLOSE (R597): a KV_SEQ descriptor closes a sequence. -/
  | kvSeqClose (ring : Fin 1024) (seq : Nat)
  /-- KV_SEQ_TRUNCATE (R597): a KV_SEQ descriptor truncates a sequence. -/
  | kvSeqTruncate (ring : Fin 1024) (seq : Nat)
  /-- KV_PFX_LOOKUP (R574): a prefix lookup does its work. -/
  | kvPfxLookup (ring : Fin 1024) (seq : Nat)
  /-- KV_PFX_INSERT (R575): a prefix insertion does its work. -/
  | kvPfxInsert (ring : Fin 1024) (seq : Nat)
  /-- KV_PREFETCH (R598): a prefetch walks its pages, or completes. -/
  | kvPrefetch (ring : Fin 1024) (seq : Nat)
  /-- KV_WALK (R543): a walk for a page completes. -/
  | kvWalk (handle : Fin 16384) (page : Nat)
  /-- SPILL (R584): a page's spill ends, well or with a far-tier error. -/
  | spill (handle : Fin 16384) (page : Nat) (ok : Bool)
  /-- BRING_BACK (R585): a page's bring-back ends. -/
  | bringBack (handle : Fin 16384) (page : Nat)
  /-- SEQ_ENABLE (R590): a SEQ_CFG write with EN 1 lands. -/
  | seqEnable (data : Word)
  /-- SEQ_DISABLE (R591): a SEQ_CFG write with EN 0 lands. -/
  | seqDisable (data : Word)
  /-- SEQ_INIT_DONE (R590): the initialisation or invalidation completes. -/
  | seqInitDone
  /-- SEQ_KVTLB_INV (R601): a SEQ_KVTLB_INV write lands. -/
  | seqKvtlbInv (data : Word)
  /-- LAYER_FETCH (R612): the row fetch of a layer starts. -/
  | layerFetch (layer : Fin 8)
  /-- LINE_COMPOSE (R644): the next line is composed; the groups, by layer, not delivered when they are needed. -/
  | lineCompose (late : List (Nat × Nat))
  /-- LAYER_OFF_CLEAR (R650): layers that were off are drawn again. -/
  | layerOffClear
  /-- LINE_SEND (R644): the present line is sent; the pixels the pads of a port decode where they are not those sent, and lanes with a symbol that
  does not decode. -/
  | lineSend (decoded : List (Fin 2 × List (Nat × Nat × Nat))) (lanes : List (Fin 2 × Fin 4))
  /-- CMP_COMMIT (R614): a write of CMP_COMMIT.GO lands. -/
  | cmpCommit
  /-- COMMIT_COPY (R614): the commit stamp's action copies the shadows. -/
  | commitCopy
  /-- APPLY (R628): a write of SCN_TIM_CTL.APPLY lands. -/
  | apply
  /-- TIMING_CHANGE (R629): an accepted timing takes effect. -/
  | timingChange
  /-- UNDERRUN_MODE_CHANGE (R641): written UNDERRUN modes take effect. -/
  | underrunModeChange
  /-- HPD_RISE (R635): HPD rises on a port. -/
  | hpdRise (port : Fin 2)
  /-- HPD_FALL (R639): HPD falls on a port. -/
  | hpdFall (port : Fin 2)
  /-- HPD_IRQ (R638): an HPD pulse; whether the sink has lost the link. -/
  | hpdIrq (port : Fin 2) (lost : Bool)
  /-- RETRAIN (R635): a write of SCN_PORT_CTL.RETRAIN lands. -/
  | retrain (port : Fin 2)
  /-- LINK_TRAINED (R637): training ends with a rate and lanes or fails; whether the sink declares Panel Replay. -/
  | linkTrained (port : Fin 2) (link : Option (Nat × Nat)) (panelReplay : Bool)
  /-- AUX_TRANSACTION (R642): a write of SCN_AUX_CTL.GO lands. -/
  | auxTransaction
  /-- AUX_REPLY (R643): an AUX reply arrives. -/
  | auxReply (reply : AuxReply)
  /-- AUX_TIMEOUT (R643): no AUX reply has come. -/
  | auxTimeout
  /-- ENTER (R655): a write of SCN_PR_CTL.ENTER lands. -/
  | enter
  /-- PR_ACTIVE (R656): the frame after the capture frame begins. -/
  | prActive
  /-- EXIT (R658): a cause to leave Panel Replay: a write of EXIT, or a record that becomes eligible. -/
  | exit (intake : Bool)
  /-- PR_EXIT_FRAME (R659): the first frame after an exit begins. -/
  | prExitFrame
  /-- FREEZE_CHECK (R665): the freeze detector looks at a sent frame. -/
  | freezeCheck
  /-- STEERING_TICK (R675): a 10 µs tick ends: the 256 droop readings, the current estimate in 0.1 A, the sense ADC's mean in mV, and whether the regulator accepts the write. -/
  | steeringTick (reports : List Nat) (iest : Nat) (vadc : Nat) (accepted : Bool)
  /-- OP_CHANGE_DOWN (R677): the chosen lower point comes into force. -/
  | opChangeDown
  /-- OP_CHANGE_UP (R678): the rail allows the chosen higher point. -/
  | opChangeUp
  /-- POLL_GROUP (R680): a poll group runs. -/
  | pollGroup (poll : PollGroup)
  /-- PMBUS_HOST_TRANSACTION (R682): the host's PMBus transaction runs and ends. -/
  | pmbusHostTransaction (err : Fin 4) (data : Word)
  /-- LIMIT_TICK (R700): a 1 ms tick: the 40 thermal readings in °C. -/
  | limitTick (temps : List Int)
  /-- PRESS_FIRE (R683): an injector's comparator, the rail there at some mV. -/
  | pressFire (rail : RailReading 64)
  /-- PRESS_RELEASE (R684): a fired injector, the rail there at some mV, or its reservoir spent. -/
  | pressRelease (injector : InjectorState)
  /-- STRETCHER_ENGAGE (R685): a droop sensor's instantaneous reading in mV. -/
  | stretcherEngage (reading : RailReading 256)
  /-- STRETCHER_DISENGAGE (R686): HOLD clear CCLK have passed. -/
  | stretcherDisengage
  /-- IDLE_GATE (R711): a free loom has been unused for IDLE_PICKS picks. -/
  | idleGate (phys : Fin 34)
  /-- WAKE_COMPLETE (R713): the wake's last step ends; the looms whose test fails. -/
  | wakeComplete (failed : List (Fin 34))
  /-- RINSE_SLOT (R714): the Rinse slot of the present line. -/
  | rinseSlot
  /-- CALIBRATION_UNIT (R716): the running unit ends: the sensor's reading, and V_adc in mV or the nearest diode's corrected temperature. -/
  | calibrationUnit (reading : Int) (reference : Int)
  /-- FLASH_PATROL_UNIT (R717): the running 256-byte read ends. -/
  | flashPatrolUnit
  /-- PASS_STARVE (R718): a pass has run for its target. -/
  | passStarve (flash : Bool)
  /-- FRAME_SNAPSHOT (R719): the snapshot stamp of the present frame. -/
  | frameSnapshot
  /-- PORT_TRAINING (R736): the lane layer of a training port reports. -/
  | portTraining (port : Fin 4) (found : LaneResult)
  /-- TRAINING_RETRY (R736): 10 ms have passed since a failure. -/
  | trainingRetry (port : Fin 4)
  /-- PORT_UP (R737): the eighth round trip has been measured. -/
  | portUp (port : Fin 4)
  /-- PORT_DOWN (R738): an UP port loses its link. -/
  | portDown (port : Fin 4) (cause : DownCause)
  /-- FLIT_SLOT (R731): a flit slot of a transmit port. -/
  | flitSlot (port : Fin 4)
  /-- FLIT_RECEIVE (R734): a flit is delivered, with whether its data is darned. -/
  | flitReceive (port : Fin 4) (flit : List Byte) (darn : Bool)
  /-- RESEND_TIMEOUT (R734): 512 CCLK have passed since a flit was sent. -/
  | resendTimeout (port : Fin 4)
  /-- TIME_SEND (R742): the start of a line whose number is a multiple of 16. -/
  | timeSend
  /-- TIME_MESSAGE (R744): a TIME message is delivered, with the count of R744. -/
  | timeMessage (port : Fin 4) (count : Nat)
  /-- INPUT_STRIP_SEND (R749): a frame record becomes eligible. -/
  | inputStripSend (ring : Fin 1024) (seq : Nat)
  /-- ISTRIP (R750): an ISTRIP message has arrived. -/
  | istrip (port : Fin 4)
  /-- MAP_STRIP_SEND (R754): a banded layer has computed its edge columns in a shed. -/
  | mapStripSend (shed : Nat) (layer : Nat) (west : List (Byte × Bool)) (east : List (Byte × Bool))
  /-- MSTRIP (R756): an MSTRIP message has arrived. -/
  | mstrip (port : Fin 4)
  /-- HELLO (R736): a HELLO message has arrived, with its fields. -/
  | hello (port : Fin 4) (chip : Fin 16) (x : Nat) (y : Nat) (wall : Bool) (meshW : Nat) (meshH : Nat)
  /-- ECHO (R737): an ECHO message has arrived. -/
  | echo (port : Fin 4)
  /-- ECHO_REPLY (R737): an ECHO_REPLY message has arrived. -/
  | echoReply (port : Fin 4)
  /-- PING (R766): a PING message has arrived. -/
  | ping (port : Fin 4)
  /-- PONG (R766): a PONG message has arrived. -/
  | pong (port : Fin 4)
  /-- PING_TICK (R766): a millisecond has passed since the last PINGs. -/
  | pingTick
  /-- ALL_GATHER (R762): the loom of an ALL_GATHER record goes on. -/
  | allGather (ring : Fin 1024) (seq : Nat)
  /-- REDUCE_SUM (R763): the loom of a REDUCE_SUM record goes on. -/
  | reduceSum (ring : Fin 1024) (seq : Nat)
  /-- READY (R761): a READY message has arrived, with its fields. -/
  | ready (port : Fin 4) (group : Fin 16) (collId : Nat) (op : Nat) (bytes : Nat)
  /-- READY_RESEND (R761): 100 µs have passed since the record's last READY. -/
  | readyResend (ring : Fin 1024) (seq : Nat)
  /-- COLL (R762): a COLL message has arrived. -/
  | collData (port : Fin 4)
  /-- DONE (R764): a DONE message has arrived, with its fields. -/
  | done (port : Fin 4) (group : Fin 16) (collId : Nat)
  /-- MASTER_CHANGE (R767): a written MASTER takes effect. -/
  | masterChange
  /-- HOST_INTERFACE_READY (R66): the host interface finishes its start. -/
  | hostInterfaceReady
  /-- PCIE_LINK_TRAINED (R165): link training or retraining completes. -/
  | pcieLinkTrained (speed : Nat) (width : Nat)
  /-- FLOW_CONTROL_CREDIT (R142): the link partner grants credit for a number of transactions. -/
  | flowControlCredit (tlps : Nat)
  /-- JTAG_TCK (R818): a TCK cycle with TMS and TDI, and the levels at the boundary-scan cells. -/
  | jtagTck (tms : Bool) (tdi : Bool) (balls : List Bool)
  deriving DecidableEq, Repr

end Sys2Proof
end

