-- ==== Sys2Proof/Config.lean ====
section
/-! DEFINITION. What the spec leaves open: values it states no result for, as constants without a body. Nothing can be
proved of such a value but what holds of every value. -/

namespace Sys2Proof.Config

/-- START in the record of a descriptor that was never dispatched, by the count of free values (Table 4.4 states it only
for a dispatch). -/
opaque undispatchedStart : Nat → Nat

/-- KIND and CAUSE of the log entry of a descriptor ended by uncorrectable data, by the count of free values (Tables 7.1 and
7.8 code translation, key-value and far-tier faults only). -/
opaque uncorrKind : Nat → Nat
opaque uncorrCause : Nat → Nat

/-- The code a NaN result takes in a floating-point format of some exponent and mantissa bits (Table 5.3 names the formats
only). -/
opaque nanCode : Nat → Nat → Nat

/-- The code of a value too large for a format without infinities, or of an infinity narrowed to it. -/
opaque overflowCode : Nat → Nat → Bool → Nat

/-- The integer an infinity (false) or a NaN (true) narrows to, by the width. -/
opaque nonFiniteInt : Nat → Bool → Nat

/-- The sum of an engine's 16 partial products in one cell step, an FP32 code: by the operand formats' codes, FTZ, and the codes of its K positions of A
and of B (R252 names a fixed tree and does not draw it). -/
opaque engineTree : Nat → Nat → Bool → List Nat → List Nat → Nat

/-- Whether C enters a floating-point accumulator before the products or after them (chapter 5 does not say; R255 makes it the same everywhere). -/
opaque cFirst : Bool

/-- GELU, SiLU, sigmoid and tanh, and the ReLU of a NaN or a negative zero: an FP32 code by the kind and the operand's FP32 code
(Table 5.4 names the functions only). -/
opaque activate : Nat → Nat → Nat

/-- The maximum (true) or minimum of two values of which one is a NaN, or of zeros of opposite sign, as an FP32 code. -/
opaque minMax : Bool → Nat → Nat → Nat

/-- The sum of a row in FP32 where its order shows, which the spec does not state, as an FP32 code. -/
opaque rowSum : List Nat → Nat

/-- Element `i` of a row's softmax. -/
opaque softmax : List Nat → Nat → Nat

/-- Element `i` of a row's layer norm (0) or RMS norm (1) with a gain and a bias. -/
opaque norm : Nat → List Nat → Nat → Nat → Nat → Nat

/-- What GATHER writes for an index outside X's rows, by the index's place and the element's. -/
opaque gatherOutside : Nat → Nat → Nat

/-- The scratchpad buffer an operator gives a channel, by the count of free values: its base, and its length in lines of 128
bytes (chapter 7 leaves both to the operators). -/
opaque bufBase : Nat → Nat
opaque bufLines : Nat → Nat

/-- A byte of flash after a program or erase that the flash reports as failed, by the count of free values and the address. -/
opaque flashFailed : Nat → Nat → BitVec 8

/-- A word of configuration space whose contents the spec leaves to the PCI Express base specification, by function and
offset. -/
opaque configWord : Nat → Nat → BitVec 32

/-- The mean or maximum POOL gives where the spec states no order or no value: by the FP32 codes of the taps inside X. -/
opaque poolMean : List Nat → Nat

/-- The Bobbin cores' exponential, an FP32 code by an FP32 code (chapter 9 names it and gives no table). -/
opaque exp32 : Nat → Nat

/-- The integer a box edge or score takes when its FP32 value is a NaN, by the value's top. -/
opaque boxNan : Nat → Nat

/-- What DRAM delivers to a picture network's stage, by the shed's count of free values, the stage's section, column and line (the spec gives a
stage's input in DRAM no place and no format). -/
opaque netInput : Nat → Nat → Nat → Nat → Nat

/-- The graph of a network, by section and layer: how many layers it has, and of each its kernel, its dilation and its PAD_MODE, 1 the
nearest edge (the spec gives the graph no layout). -/
opaque netLayers : Nat → Nat
opaque netKernel : Nat → Nat → Nat
opaque netDilation : Nat → Nat → Nat
opaque netPad : Nat → Nat → Nat

/-- What a layer of a network makes of its window of the layer below, row by row; of the last layer a pixel as 30 bits, Y in the lowest
ten, then Cb and Cr (the spec fixes no network's arithmetic). -/
opaque layerCell : Nat → Nat → List Nat → Nat

/-- A cell of a halo row that a shed did not write before it ended, by the count of free values, layer, column and row (R448 gives it its darn
bit alone). -/
opaque haloCell : Nat → Nat → Nat → Nat → Nat

/-- A cell beyond a tile edge that a facing chip's strips give, by the count of free values, section, layer and position, and the flit of a strip that
brings it (the spec gives a map's cells no format). -/
opaque beyondCell : Nat → Nat → Nat → Int → Int → Nat
opaque stripFlit : Nat → Nat → Int → Int → Nat

/-- The place in the reservation of the loom that makes a cell, by section, layer, column and row (the spec does not share a shed out among the
reserved looms). -/
opaque cellLoom : Nat → Nat → Nat → Nat → Nat

/-- A pixel the region network pastes, by the shed's count of free values, the box's place, column and row, and the pixel before. -/
opaque regionPixel : Nat → Nat → Nat → Nat → Nat → Nat

/-- The halo bytes a network's graph declares, by section index (the spec gives the graph no layout). -/
opaque haloBytes : Nat → Nat

/-- A box list the detector finds, by the count of free values: how many boxes, and each box's 16 bytes as a number. -/
opaque boxCount : Nat → Nat
opaque boxBytes : Nat → Nat → Nat

/-- The MATRIX code of a shed that no record was selected for. -/
opaque blackMatrix : Nat

/-- A sum of products in FP32 whose order the spec does not state, as an FP32 code, by the pairs of FP32 codes (chapter 10). -/
opaque fpSum : List (Nat × Nat) → Nat

/-- A byte an operator leaves in its score buffer, by the count of free values and the byte's place (the spec gives the buffer no
layout). -/
opaque scoreByte : Nat → Nat → BitVec 8

/-- Bytes 1 to 7 of a CTRL message's header, by its type, its fields and the byte's place (Table 13.4 gives "the type's fields" no layout). -/
opaque ctrlByte : Nat → List Nat → Nat → BitVec 8

/-- The length of the instruction register, the bits it captures above the two that IEEE 1149.1 fixes, and the instruction a value selects: 0 BYPASS, 1
IDCODE, 2 SAMPLE/PRELOAD, 3 EXTEST, 4 EXTEST_PULSE, 5 EXTEST_TRAIN, and others private ones (the spec gives none of these). -/
opaque irLength : Nat
opaque irCapture : Nat → Bool
opaque irOp : List Bool → Nat

/-- The number of boundary-scan cells (R819 names the balls, not the cells). -/
opaque bsrLength : Nat

/-- What a private instruction shifts out, by the count of free values. -/
opaque privateBit : Nat → Bool

/-- HIF_SB_LAST.CMD of a sideband frame that ends before the eighth bit of its command byte, by the count of free values (R844 gives the
frame a STATUS and no command). -/
opaque sbCmd : Nat → Nat

/-- What a read of a tenant window's doorbell page returns, by tenant and offset (R182 gives the page its writes alone). -/
opaque doorbellWord : Nat → Nat → BitVec 32

/-- The CCLK a loom takes to load its ring's constants, by the count of free values (R264 charges the load and gives it no time). -/
opaque constCclk : Nat → Nat

/-- The CCLK left of the innermost tile in progress on a loom, by the count of free values and the loom's number (the spec does not say
where an operator's tiles end). -/
opaque tileLeft : Nat → Nat → Nat

/-- A byte of a scratchpad that no clear has zeroed and no line has reached, by the count of free values and the byte's place (R239 leaves
it undefined). -/
opaque scratchByte : Nat → Nat → BitVec 8

/-- A byte of a line that a loom's L1 has modified and gives up, by the count of free values and the address (the loom's own writes are no
command). -/
opaque l1Byte : Nat → Nat → BitVec 8

/-- Whether a loom has written a line that its L1 holds in E, by the count of free values (Table 6.4: it tells nobody). -/
opaque l1Wrote : Nat → Bool

/-- Lines of a channel's buffer that the consumer has released, or the producer has written, by the count of free values and the channel (an
operator's pace is no command). -/
opaque linesMoved : Nat → Nat → Nat

/-- The CCLK a table walk's read waits for its slot grant, by the count of free values and the entry's address (R360 counts from the grant). -/
opaque walkGrant : Nat → Nat → Nat

/-- The baseline of a region in µV per ampere while PWR_BASE.G is 0 and it has not been learned (R683 uses it all the same). -/
opaque unlearnedBase : Nat → Int

/-- Whether the darned lines of a shed's input lie in B's planes too, by the count of free values (SHED_END does not tell whose they are). -/
opaque darnB : Nat → Bool

end Sys2Proof.Config
end

