-- ==== Sys2Proof/Machine/Regs.lean ====
section
/-! DEFINITION. The register map of PF BAR0: one number per register, one field per named bit
range, and one row per register with its access masks and its value at reset, as chapter 16 and the
field tables of the chapters give them (R14 to R18, R825 to R827). -/

namespace Sys2Proof.Machine

/-- A bit field of a 32-bit register: its lowest bit and its width. -/
structure Field where
  lo : Nat
  w  : Nat
  deriving DecidableEq, Repr

/-- One row of the register map: `count` registers from offset `first` at `stride`; the bits a write
sets (`rw`, of which `rwi` are the RWI ones the loader also writes), the bits a written 1 clears (`w1c`),
the value at reset, and whether a write of any value clears the whole register (a statistics counter, R139). -/
structure RegRow where
  first  : Nat
  stride : Nat
  count  : Nat
  rw     : Nat
  rwi    : Nat
  w1c    : Nat
  reset  : Nat
  cnt    : Bool
  deriving DecidableEq, Repr

namespace Reg

/-! Block HIF, Tables 3.11 and 3.12 (R169), base 0x0. -/

def HIF_ID : Nat := 0x0
def HIF_ID_DEVICE : Field := ⟨0, 16⟩
def HIF_ID_STEP : Field := ⟨16, 4⟩
def HIF_ID_VARIANT : Field := ⟨20, 1⟩
def HIF_STATUS : Nat := 0x4
def HIF_STATUS_READY : Field := ⟨0, 1⟩
def HIF_STATUS_PERST : Field := ⟨1, 1⟩
def HIF_STATUS_LINK_UP : Field := ⟨2, 1⟩
def HIF_STATUS_DSTATE : Field := ⟨3, 2⟩
def HIF_STATUS_SB_ERR : Field := ⟨5, 1⟩
def HIF_LINK : Nat := 0x8
def HIF_LINK_SPEED : Field := ⟨0, 3⟩
def HIF_LINK_WIDTH : Field := ⟨4, 4⟩
def DEV_RESET : Nat := 0xC
def DEV_RESET_GO : Field := ⟨0, 1⟩
def DEV_RESET_KEY : Field := ⟨16, 16⟩
def HIF_BAR2_WIN : Nat := 0x10
def HIF_BAR2_WIN_BASE : Field := ⟨0, 8⟩
def HIF_PTM_CTL : Nat := 0x20
def HIF_PTM_CTL_EN : Field := ⟨0, 1⟩
def HIF_PTM_CTL_PERIOD : Field := ⟨8, 8⟩
def HIF_PTM_CTL_REQ : Field := ⟨16, 1⟩
def HIF_PTM_STATUS : Nat := 0x24
def HIF_PTM_STATUS_VALID : Field := ⟨0, 1⟩
def HIF_PTM_STATUS_FAIL : Field := ⟨1, 1⟩
def HIF_PTM_STATUS_SEQ : Field := ⟨8, 8⟩
def HIF_PTM_STAMP_LO : Nat := 0x28
def HIF_PTM_STAMP_HI : Nat := 0x2C
def HIF_PTM_STAMP_HI_FRAME : Field := ⟨0, 16⟩
def HIF_PTM_MASTER_LO : Nat := 0x30
def HIF_PTM_MASTER_HI : Nat := 0x34
def HIF_SB_LAST : Nat := 0x40
def HIF_SB_LAST_STATUS : Field := ⟨0, 8⟩
def HIF_SB_LAST_CMD : Field := ⟨8, 8⟩
def HIF_SB_ERR_CNT : Nat := 0x44
def HIF_CRS_CNT : Nat := 0x48

/-! Block IMG, Tables 2.15 to 2.19 (R117, R118), base 0x10000. -/

def IMG_STATUS : Nat := 0x10000
def IMG_STATUS_STATE : Field := ⟨0, 3⟩
def IMG_STATUS_OCT : Field := ⟨3, 1⟩
def IMG_STATUS_SLOT : Field := ⟨4, 1⟩
def IMG_STATUS_PB_USED : Field := ⟨5, 2⟩
def IMG_STATUS_ORPHAN : Field := ⟨7, 1⟩
def IMG_STATUS_SIG_OK : Field := ⟨8, 1⟩
def IMG_STATUS_NET_BAD : Field := ⟨9, 1⟩
def IMG_FAIL : Nat := 0x10004
def IMG_FAIL_SLOT_A : Field := ⟨0, 4⟩
def IMG_FAIL_SLOT_B : Field := ⟨4, 4⟩
def IMG_FAIL_PB0 : Field := ⟨8, 4⟩
def IMG_FAIL_PB1 : Field := ⟨12, 4⟩
def IMG_SEQ : Nat := 0x10008
def IMG_VERSION : Nat := 0x1000C
def IMG_FUSE : Nat := 0x10010
def IMG_FUSE_SIG_ENF : Field := ⟨0, 1⟩
def IMG_FUSE_PKH_SET : Field := ⟨1, 1⟩
def IMG_FUSE_VARIANT : Field := ⟨2, 1⟩
def IMG_FUSE_STEP : Field := ⟨4, 4⟩
def IMG_PKH : Nat := 0x10014
def IMG_STRAP : Nat := 0x10018
def IMG_STRAP_BOOT_MODE : Field := ⟨0, 3⟩
def IMG_STRAP_CHIP_ID : Field := ⟨4, 4⟩
def IMG_REGION : Nat := 0x1001C
def IMG_REGION_SIZE : Field := ⟨0, 16⟩
def IMG_T_CFG : Nat := 0x10020
def IMG_T_NET : Nat := 0x10024
def IMG_REC_REJ_CNT : Nat := 0x10028
def IMG_NET_BAD_CNT : Nat := 0x1002C
def IMG_FL_ADDR : Nat := 0x10040
def IMG_FL_CMD : Nat := 0x10044
def IMG_FL_CMD_OP : Field := ⟨0, 3⟩
def IMG_FL_STATUS : Nat := 0x10048
def IMG_FL_STATUS_BUSY : Field := ⟨0, 1⟩
def IMG_FL_STATUS_REFUSED : Field := ⟨1, 1⟩
def IMG_FL_STATUS_ERROR : Field := ⟨2, 1⟩
def IMG_FL_DATA (k : Nat) : Nat := 0x10100 + 4 * k

/-! Block TRD, Tables 1.7 to 1.15 (R63), base 0x20000. -/

def TRD_CTL : Nat := 0x20000
def TRD_CTL_REF_SEL : Field := ⟨0, 2⟩
def TRD_CTL_REALIGN : Field := ⟨2, 1⟩
def TRD_CTL_HS_POL : Field := ⟨3, 1⟩
def TRD_CTL_VS_POL : Field := ⟨4, 1⟩
def TRD_STATUS : Nat := 0x20004
def TRD_STATUS_LOCK : Field := ⟨0, 2⟩
def TRD_STATUS_REF_LOST : Field := ⟨2, 1⟩
def TRD_STATUS_SLOT_LATE : Field := ⟨3, 1⟩
def TRD_STATUS_CYC_SAT : Field := ⟨4, 1⟩
def TRD_STATUS_CATCHUP : Field := ⟨5, 1⟩
def TRD_NOW_LO : Nat := 0x20008
def TRD_NOW_HI : Nat := 0x2000C
def TRD_NOW_HI_FRAME : Field := ⟨0, 16⟩
def TRD_GEOM : Nat := 0x20010
def TRD_GEOM_H_TOTAL : Field := ⟨0, 16⟩
def TRD_GEOM_V_TOTAL : Field := ⟨16, 16⟩
def TRD_PICK_STAT : Nat := 0x20014
def TRD_PICK_STAT_MIN : Field := ⟨0, 12⟩
def TRD_PICK_STAT_MAX : Field := ⟨16, 12⟩
def TRD_PICK_STAT_CLR : Field := ⟨31, 1⟩
def TRD_VS_LINE : Nat := 0x20018
def TRD_VS_LINE_LINE : Field := ⟨0, 14⟩
def TRD_FSYNC_CTL : Nat := 0x2001C
def TRD_FSYNC_CTL_IDLE : Field := ⟨0, 1⟩
def TRD_FSYNC_CTL_PULSE_W : Field := ⟨4, 12⟩
def TRD_HS_CAP_LO : Nat := 0x20020
def TRD_HS_CAP_HI : Nat := 0x20024
def TRD_HS_CAP_HI_FRAME : Field := ⟨0, 16⟩
def TRD_VS_CAP_LO : Nat := 0x20028
def TRD_VS_CAP_HI : Nat := 0x2002C
def TRD_VS_CAP_HI_FRAME : Field := ⟨0, 16⟩
def TRD_GPIO_OWN : Nat := 0x20030
def TRD_GPIO_OWN_OWN : Field := ⟨0, 16⟩
def TRD_GPIO_CAP_SEL : Nat := 0x20034
def TRD_GPIO_CAP_SEL_PIN : Field := ⟨0, 4⟩
def TRD_GPIO_CAP_SEL_EDGE : Field := ⟨4, 2⟩
def TRD_GPIO_CAP_LO : Nat := 0x20038
def TRD_GPIO_CAP_HI : Nat := 0x2003C
def TRD_GPIO_CAP_HI_FRAME : Field := ⟨0, 16⟩
def TRD_FIRE_CAP_LO : Nat := 0x20040
def TRD_FIRE_CAP_HI : Nat := 0x20044
def TRD_FIRE_CAP_HI_FRAME : Field := ⟨0, 16⟩
def TRD_FIRE_CAP_SLOT : Nat := 0x20048
def TRD_FIRE_CAP_SLOT_SLOT : Field := ⟨0, 8⟩
def TRD_LATE_CNT : Nat := 0x20050
def TRD_CATCHUP_CNT : Nat := 0x20054
def TRD_REF_LOSS_CNT : Nat := 0x20058
def TRD_SLOT_STAMP_LO (n : Nat) : Nat := 0x21000 + 16 * n
def TRD_SLOT_STAMP_HI (n : Nat) : Nat := 0x21004 + 16 * n
def TRD_SLOT_STAMP_HI_FRAME : Field := ⟨0, 16⟩
def TRD_SLOT_STAMP_HI_PERIOD : Field := ⟨16, 16⟩
def TRD_SLOT_CTL (n : Nat) : Nat := 0x21008 + 16 * n
def TRD_SLOT_CTL_ARM : Field := ⟨0, 1⟩
def TRD_SLOT_CTL_MODE : Field := ⟨1, 2⟩
def TRD_SLOT_CTL_LATE : Field := ⟨3, 1⟩
def TRD_SLOT_CTL_FIRED : Field := ⟨4, 1⟩
def TRD_SLOT_CTL_ACTION : Field := ⟨8, 8⟩
def TRD_SLOT_ARG (n : Nat) : Nat := 0x2100C + 16 * n

/-! Block TEN, Tables 4.10 and 4.11 (R232), base 0x30000. -/

def TEN_CFG (n : Nat) : Nat := 0x31000 + 16 * n
def TEN_CFG_WEIGHT : Field := ⟨0, 8⟩
def TEN_CFG_MIN_LOOMS : Field := ⟨8, 6⟩
def TEN_CFG_MAX_LOOMS : Field := ⟨16, 6⟩
def TEN_CFG_EN : Field := ⟨31, 1⟩
def TEN_MSG (n : Nat) : Nat := 0x31004 + 16 * n
def TEN_MSG_CAP : Field := ⟨0, 16⟩
def TEN_MSG_FAULT_VEC : Field := ⟨16, 5⟩
def TEN_STATE (n : Nat) : Nat := 0x31008 + 16 * n
def TEN_STATE_DRAIN : Field := ⟨0, 1⟩
def TEN_STATE_HELD : Field := ⟨1, 1⟩
def TEN_STATE_LOOMS : Field := ⟨8, 6⟩
def TEN_CTL (n : Nat) : Nat := 0x3100C + 16 * n
def TEN_CTL_STOP : Field := ⟨0, 1⟩
def TEN_CTL_START : Field := ⟨1, 1⟩
def TEN_BAD_DB_CNT (n : Nat) : Nat := 0x32000 + 4 * n
def TEN_ABORT_CNT (n : Nat) : Nat := 0x32400 + 4 * n
def TEN_MSG_HELD_CNT (n : Nat) : Nat := 0x32800 + 4 * n
def TEN_TIMEOUT_CNT (n : Nat) : Nat := 0x32C00 + 4 * n
def TEN_MOD (v : Nat) : Nat := 0x34000 + 4 * v
def TEN_MOD_PICKS : Field := ⟨0, 8⟩
def TEN_MOD_COUNT : Field := ⟨8, 8⟩

/-! Block QRG, Tables 4.10 and 4.12 (R232), base 0x40000. -/

def QRG_DRR : Nat := 0x40000
def QRG_DRR_QUANTUM : Field := ⟨0, 16⟩
def QRG_BULK_MIN : Nat := 0x40004
def QRG_BULK_MIN_LOOMS : Field := ⟨0, 6⟩
def QRG_LIVE_DISP_CNT : Nat := 0x40010
def QRG_BULK_DISP_CNT : Nat := 0x40014
def QRG_GANG_HOLD_CNT : Nat := 0x40018
def QRG_FETCH_ERR_CNT : Nat := 0x4001C
def QRG_BASE_LO (g : Nat) : Nat := 0x48000 + 32 * g
def QRG_BASE_LO_ADDR : Field := ⟨12, 20⟩
def QRG_BASE_HI (g : Nat) : Nat := 0x48004 + 32 * g
def QRG_CQ_LO (g : Nat) : Nat := 0x48008 + 32 * g
def QRG_CQ_LO_ADDR : Field := ⟨12, 20⟩
def QRG_CQ_HI (g : Nat) : Nat := 0x4800C + 32 * g
def QRG_CFG (g : Nat) : Nat := 0x48010 + 32 * g
def QRG_CFG_EN : Field := ⟨0, 1⟩
def QRG_CFG_LOG2_SIZE : Field := ⟨1, 4⟩
def QRG_CFG_CLASS : Field := ⟨5, 2⟩
def QRG_CFG_PRIO : Field := ⟨7, 3⟩
def QRG_CFG_DEPTH : Field := ⟨10, 6⟩
def QRG_CFG_VEC : Field := ⟨16, 5⟩
def QRG_CFG_DRAINING : Field := ⟨21, 1⟩
def QRG_CFG_TENANT : Field := ⟨24, 8⟩
def QRG_PTR (g : Nat) : Nat := 0x48014 + 32 * g
def QRG_PTR_HEAD : Field := ⟨0, 16⟩
def QRG_PTR_TAIL : Field := ⟨16, 16⟩
def QRG_DONE_SEQ (g : Nat) : Nat := 0x48018 + 32 * g
def QRG_FETCH_SEQ (g : Nat) : Nat := 0x4801C + 32 * g

/-! Block HED, Tables 5.9 and 5.10 (R286), base 0x50000. -/

def HED_CFG : Nat := 0x50000
def HED_CFG_TEN_SB_MAX : Field := ⟨0, 9⟩
def HED_STATUS : Nat := 0x50004
def HED_STATUS_SB_FREE : Field := ⟨0, 13⟩
def HED_STATUS_POOL : Field := ⟨16, 6⟩
def HED_STATUS_FREE : Field := ⟨24, 6⟩
def HED_SB_FULL_CNT : Nat := 0x50010
def HED_REEXEC_CNT : Nat := 0x50014
def HED_ABORT_LOOM_CNT : Nat := 0x50018
def HED_PROFILE (g : Nat) : Nat := 0x51000 + 4 * g
def HED_PROFILE_ROUND : Field := ⟨0, 1⟩
def HED_PROFILE_SAT : Field := ⟨1, 1⟩
def HED_PROFILE_FTZ : Field := ⟨2, 1⟩
def HED_PROFILE_CONST_LEN : Field := ⟨16, 16⟩

/-! Block LOM, Tables 5.9 and 5.11 (R286), base 0x60000. -/

def LOM_FUSE_LO : Nat := 0x60000
def LOM_FUSE_HI : Nat := 0x60004
def LOM_FUSE_HI_EN : Field := ⟨0, 2⟩
def LOM_DENY_LO : Nat := 0x60008
def LOM_DENY_HI : Nat := 0x6000C
def LOM_DENY_HI_DENY : Field := ⟨0, 2⟩
def LOM_RETIRE_CFG : Nat := 0x60010
def LOM_RETIRE_CFG_CE_LIMIT : Field := ⟨0, 8⟩
def LOM_SUMMARY : Nat := 0x60014
def LOM_SUMMARY_ACTIVE : Field := ⟨0, 6⟩
def LOM_SUMMARY_SPARES : Field := ⟨8, 6⟩
def LOM_SUMMARY_RETIRED : Field := ⟨16, 6⟩
def LOM_SUMMARY_RASTER : Field := ⟨24, 6⟩
def LOM_RETIRE_CNT : Nat := 0x60018
def LOM_CE_CNT : Nat := 0x6001C
def LOM_PSTATE (p : Nat) : Nat := 0x60100 + 4 * p
def LOM_PSTATE_STATE : Field := ⟨0, 3⟩
def LOM_PSTATE_LOGICAL : Field := ⟨3, 5⟩
def LOM_PSTATE_OWNER : Field := ⟨8, 8⟩
def LOM_PSTATE_RASTER : Field := ⟨16, 1⟩
def LOM_PSTATE_L1Q : Field := ⟨17, 3⟩
def LOM_PSTATE_CAUSE : Field := ⟨20, 4⟩
def LOM_MAP (l : Nat) : Nat := 0x60200 + 4 * l
def LOM_MAP_PHYS : Field := ⟨0, 6⟩
def LOM_MAP_VALID : Field := ⟨31, 1⟩

/-! Block SPL, Tables 6.10 and 6.11 (R364), base 0x70000. -/

def SPL_CFG : Nat := 0x70000
def SPL_CFG_RAS_WAYS : Field := ⟨0, 4⟩
def SPL_MSHR_FULL_CNT : Nat := 0x70010
def SPL_MCAST_CNT : Nat := 0x70014
def SPL_STALE_EVICT_CNT : Nat := 0x70018
def SPL_CE_CNT : Nat := 0x7001C
def SPL_UE_CNT : Nat := 0x70020
def SPL_REGION_BASE_LO (w : Nat) : Nat := 0x71000 + 16 * w
def SPL_REGION_BASE_LO_EN : Field := ⟨0, 1⟩
def SPL_REGION_BASE_LO_COH : Field := ⟨1, 1⟩
def SPL_REGION_BASE_LO_BASE : Field := ⟨21, 11⟩
def SPL_REGION_BASE_HI (w : Nat) : Nat := 0x71004 + 16 * w
def SPL_REGION_BASE_HI_ADDR : Field := ⟨0, 8⟩
def SPL_REGION_LIMIT_LO (w : Nat) : Nat := 0x71008 + 16 * w
def SPL_REGION_LIMIT_LO_LIMIT : Field := ⟨21, 11⟩
def SPL_REGION_LIMIT_HI (w : Nat) : Nat := 0x7100C + 16 * w
def SPL_REGION_LIMIT_HI_ADDR : Field := ⟨0, 8⟩

/-! Block DMC, Tables 6.10 and 6.11 (R364), base 0x80000. -/

def DMC_CFG : Nat := 0x80000
def DMC_CFG_RAS_SLOTS : Field := ⟨0, 3⟩
def DMC_STATUS : Nat := 0x80004
def DMC_STATUS_TRAINED : Field := ⟨0, 1⟩
def DMC_STATUS_DENSITY : Field := ⟨1, 1⟩
def DMC_STATUS_MIXED : Field := ⟨2, 1⟩
def DMC_REF_CFG : Nat := 0x80008
def DMC_REF_CFG_PERIOD : Field := ⟨0, 8⟩
def DMC_REF_CFG_PERIOD_HOT : Field := ⟨8, 8⟩
def DMC_REF_CFG_STAGGER : Field := ⟨16, 6⟩
def DMC_REF_CFG_ZQ_FRAMES : Field := ⟨24, 8⟩
def DMC_SCRUB_CFG : Nat := 0x8000C
def DMC_SCRUB_CFG_TARGET : Field := ⟨0, 16⟩
def DMC_HOT : Nat := 0x80010
def DMC_HOT_HOT : Field := ⟨0, 12⟩
def DMC_FORCED_REF_CNT : Nat := 0x80020
def DMC_CE_CNT : Nat := 0x80024
def DMC_UE_CNT : Nat := 0x80028
def DMC_LINK_CE_CNT : Nat := 0x8002C
def DMC_UE_ADDR_LO : Nat := 0x80030
def DMC_UE_ADDR_HI : Nat := 0x80034
def DMC_UE_ADDR_HI_PA : Field := ⟨0, 8⟩
def DMC_WMAP_ZERO_CNT : Nat := 0x80038
def DMC_WMAP_FILL_CNT : Nat := 0x8003C
def DMC_SCRUB_PASS_CNT : Nat := 0x80040
def DMC_SCRUB_STARVE_CNT : Nat := 0x80044

/-! Block SHT, Tables 7.7 and 7.8 (R410), base 0x90000. -/

def SHT_LOOM_BKT : Nat := 0x90000
def SHT_LOOM_BKT_RATE : Field := ⟨0, 16⟩
def SHT_LOOM_BKT_DEPTH : Field := ⟨16, 16⟩
def SHT_RAS_BKT : Nat := 0x90004
def SHT_RAS_BKT_RATE : Field := ⟨0, 16⟩
def SHT_RAS_BKT_DEPTH : Field := ⟨16, 16⟩
def SHT_RAS_LEVEL : Nat := 0x90008
def SHT_RAS_LEVEL_LEVEL : Field := ⟨0, 24⟩
def SHT_RESUME : Nat := 0x9000C
def SHT_RESUME_TENANT : Field := ⟨0, 8⟩
def SHT_RESUME_SLOT : Field := ⟨8, 6⟩
def SHT_RESUME_OP : Field := ⟨16, 2⟩
def SHT_FLOG_PTR : Nat := 0x90010
def SHT_FLOG_PTR_NEXT : Field := ⟨0, 8⟩
def SHT_DARN_CNT : Nat := 0x90020
def SHT_HALT_CNT : Nat := 0x90024
def SHT_REFAULT_CNT : Nat := 0x90028
def SHT_FREC_FULL_CNT : Nat := 0x9002C
def SHT_FAR_ERR_CNT : Nat := 0x90030
def SHT_FLOG_LOST_CNT : Nat := 0x90034
def SHT_TEN_BKT (t : Nat) : Nat := 0x91000 + 4 * t
def SHT_TEN_BKT_RATE : Field := ⟨0, 16⟩
def SHT_TEN_BKT_DEPTH : Field := ⟨16, 16⟩
def SHT_TEN_LEVEL (t : Nat) : Nat := 0x91400 + 4 * t
def SHT_TEN_LEVEL_LEVEL : Field := ⟨0, 24⟩
def SHT_FAR_BASE_LO (t : Nat) : Nat := 0x92000 + 16 * t
def SHT_FAR_BASE_LO_ADDR : Field := ⟨12, 20⟩
def SHT_FAR_BASE_HI (t : Nat) : Nat := 0x92004 + 16 * t
def SHT_FAR_SIZE (t : Nat) : Nat := 0x92008 + 16 * t
def SHT_FAR_SIZE_SIZE : Field := ⟨0, 24⟩
def SHT_FLOG0 (k : Nat) : Nat := 0x94000 + 16 * k
def SHT_FLOG0_TENANT : Field := ⟨0, 8⟩
def SHT_FLOG0_SLOT : Field := ⟨8, 6⟩
def SHT_FLOG0_KIND : Field := ⟨14, 2⟩
def SHT_FLOG0_CAUSE : Field := ⟨16, 4⟩
def SHT_FLOG0_HALTED : Field := ⟨20, 1⟩
def SHT_FLOG0_VALID : Field := ⟨31, 1⟩
def SHT_FLOG1 (k : Nat) : Nat := 0x94004 + 16 * k
def SHT_FLOG2 (k : Nat) : Nat := 0x94008 + 16 * k
def SHT_FLOG2_VA : Field := ⟨0, 16⟩
def SHT_FLOG2_RING : Field := ⟨16, 10⟩
def SHT_FLOG3 (k : Nat) : Nat := 0x9400C + 16 * k
def SHT_CTX (l c w : Nat) : Nat := 0x98000 + 1024 * l + 64 * c + 4 * w

/-! Block MMU, Tables 6.10 and 6.11 (R364), base 0xA0000. -/

def MMU_INV : Nat := 0xA0000
def MMU_INV_GO : Field := ⟨0, 1⟩
def MMU_INV_SCOPE : Field := ⟨1, 2⟩
def MMU_INV_TENANT : Field := ⟨8, 8⟩
def MMU_INV_STATUS : Nat := 0xA0004
def MMU_INV_STATUS_BUSY : Field := ⟨0, 1⟩
def MMU_INV_VA_LO : Nat := 0xA0008
def MMU_INV_VA_LO_VA : Field := ⟨12, 20⟩
def MMU_INV_VA_HI : Nat := 0xA000C
def MMU_INV_VA_HI_VA : Field := ⟨0, 16⟩
def MMU_WALK_CNT : Nat := 0xA0010
def MMU_FAULT_CNT : Nat := 0xA0014
def MMU_CTX_LO (t : Nat) : Nat := 0xA1000 + 8 * t
def MMU_CTX_LO_EN : Field := ⟨0, 1⟩
def MMU_CTX_LO_ROOT : Field := ⟨12, 20⟩
def MMU_CTX_HI (t : Nat) : Nat := 0xA1004 + 8 * t
def MMU_CTX_HI_ROOT : Field := ⟨0, 8⟩

/-! Block PIC, Tables 8.9 and 8.10 (R470), base 0xB0000. -/

def PIC_CFG : Nat := 0xB0000
def PIC_CFG_DN_EN : Field := ⟨0, 1⟩
def PIC_CFG_RT_EN : Field := ⟨1, 1⟩
def PIC_CFG_RGN_EN : Field := ⟨2, 1⟩
def PIC_CFG_RES_LOOMS : Field := ⟨8, 5⟩
def PIC_CFG_LADDER_MIN : Field := ⟨16, 3⟩
def PIC_CFG_READMIT : Field := ⟨31, 1⟩
def PIC_INTAKE : Nat := 0xB0004
def PIC_INTAKE_OWNER : Field := ⟨0, 8⟩
def PIC_INTAKE_RING : Field := ⟨8, 10⟩
def PIC_INTAKE_EN : Field := ⟨31, 1⟩
def PIC_STATUS : Nat := 0xB0008
def PIC_STATUS_ENHANCED : Field := ⟨0, 1⟩
def PIC_STATUS_ADMIT_BUSY : Field := ⟨1, 1⟩
def PIC_STATUS_INTAKE_ERR : Field := ⟨2, 1⟩
def PIC_STATUS_FIFO : Field := ⟨3, 4⟩
def PIC_ADMIT : Nat := 0xB000C
def PIC_ADMIT_LEVEL : Field := ⟨0, 3⟩
def PIC_ADMIT_TACK_ONLY : Field := ⟨3, 1⟩
def PIC_ADMIT_P0_OK : Field := ⟨4, 1⟩
def PIC_ADMIT_P1_OK : Field := ⟨5, 1⟩
def PIC_ADMIT_BYTES_OK : Field := ⟨6, 1⟩
def PIC_ADMIT_LB_OK : Field := ⟨7, 1⟩
def PIC_ADMIT_LOOMS : Field := ⟨8, 5⟩
def PIC_ADMIT_N : Field := ⟨16, 3⟩
def PIC_NEED : Nat := 0xB0010
def PIC_CAP_P0 : Nat := 0xB0014
def PIC_CAP_P1 : Nat := 0xB0018
def PIC_BYTES_NEED : Nat := 0xB001C
def PIC_BYTES_CAP : Nat := 0xB0020
def PIC_RT_DELAY : Nat := 0xB0024
def PIC_RT_DELAY_LINES : Field := ⟨0, 20⟩
def PIC_DST_POS : Nat := 0xB0028
def PIC_DST_POS_X : Field := ⟨0, 16⟩
def PIC_DST_POS_Y : Field := ⟨16, 16⟩
def PIC_DST_SIZE : Nat := 0xB002C
def PIC_DST_SIZE_W : Field := ⟨0, 16⟩
def PIC_DST_SIZE_H : Field := ⟨16, 16⟩
def PIC_BLACK : Nat := 0xB0030
def PIC_BLACK_Y : Field := ⟨0, 10⟩
def PIC_BLACK_CB : Field := ⟨10, 10⟩
def PIC_BLACK_CR : Field := ⟨20, 10⟩
def PIC_RGN_CFG : Nat := 0xB0034
def PIC_RGN_CFG_MAX_BOXES : Field := ⟨0, 8⟩
def PIC_RGN_CFG_MAX_PER_SHED : Field := ⟨8, 8⟩
def PIC_SEL_A : Nat := 0xB0038
def PIC_SEL_B : Nat := 0xB003C
def PIC_SEL_PHASE : Nat := 0xB0040
def PIC_SEL_PHASE_PHASE : Field := ⟨0, 6⟩
def PIC_SEL_PHASE_B_VALID : Field := ⟨8, 1⟩
def PIC_SEL_PHASE_HOLD : Field := ⟨9, 1⟩
def PIC_LATE_LO : Nat := 0xB0044
def PIC_LATE_HI : Nat := 0xB0048
def PIC_LATE_HI_FRAME : Field := ⟨0, 16⟩
def PIC_LATE_SHED_CNT : Nat := 0xB0050
def PIC_LATE_INTAKE_CNT : Nat := 0xB0054
def PIC_SKIP_CNT : Nat := 0xB0058
def PIC_DARN_GRP_CNT : Nat := 0xB005C
def PIC_DARN_BOTH_CNT : Nat := 0xB0060
def PIC_LADDER_CNT : Nat := 0xB0064
def PIC_LATE_LIST_CNT : Nat := 0xB0068
def PIC_ADMIT_CNT : Nat := 0xB006C
def PIC_NET_VALID (st : Nat) : Nat := 0xB0100 + 4 * st
def PIC_NET_VALID_RUNG : Field := ⟨0, 8⟩
def PIC_NET_VALID_BAD : Field := ⟨8, 8⟩
def PIC_UPS_VALID (n : Nat) : Nat := 0xB0120 + 4 * n
def PIC_UPS_VALID_RUNG : Field := ⟨0, 8⟩
def PIC_UPS_VALID_BAD : Field := ⟨8, 8⟩

/-! Block SEQ, Tables 10.12 and 10.13 (R601), base 0xC0000. -/

def SEQ_CFG : Nat := 0xC0000
def SEQ_CFG_EN : Field := ⟨0, 1⟩
def SEQ_CFG_AHEAD : Field := ⟨4, 4⟩
def SEQ_STATUS : Nat := 0xC0004
def SEQ_STATUS_INIT : Field := ⟨0, 1⟩
def SEQ_STATUS_INV_BUSY : Field := ⟨1, 1⟩
def SEQ_STAB_LO : Nat := 0xC0008
def SEQ_STAB_LO_ADDR : Field := ⟨20, 12⟩
def SEQ_STAB_HI : Nat := 0xC000C
def SEQ_STAB_HI_ADDR : Field := ⟨0, 8⟩
def SEQ_PFX_LO : Nat := 0xC0010
def SEQ_PFX_LO_ADDR : Field := ⟨19, 13⟩
def SEQ_PFX_HI : Nat := 0xC0014
def SEQ_PFX_HI_ADDR : Field := ⟨0, 8⟩
def SEQ_PT_LO : Nat := 0xC0018
def SEQ_PT_LO_ADDR : Field := ⟨12, 20⟩
def SEQ_PT_HI : Nat := 0xC001C
def SEQ_PT_HI_ADDR : Field := ⟨0, 8⟩
def SEQ_PT_SIZE : Nat := 0xC0020
def SEQ_PT_SIZE_FRAMES : Field := ⟨0, 16⟩
def SEQ_KVTLB_INV : Nat := 0xC0024
def SEQ_KVTLB_INV_GO : Field := ⟨0, 1⟩
def SEQ_KVTLB_INV_SCOPE : Field := ⟨1, 1⟩
def SEQ_KVTLB_INV_HANDLE : Field := ⟨16, 14⟩
def SEQ_PFX_USED : Nat := 0xC0028
def SEQ_PFX_USED_COUNT : Field := ⟨0, 13⟩
def SEQ_UNW_ZERO_CNT : Nat := 0xC0040
def SEQ_KVTLB_MISS_CNT : Nat := 0xC0044
def SEQ_SPILL_CNT : Nat := 0xC0048
def SEQ_BACK_CNT : Nat := 0xC004C
def SEQ_FAR_WAIT_CNT : Nat := 0xC0050
def SEQ_COW_CNT : Nat := 0xC0054
def SEQ_PFX_HIT_CNT : Nat := 0xC0058
def SEQ_PFX_FULL_CNT : Nat := 0xC005C
def SEQ_SKIP_BLK_CNT : Nat := 0xC0060
def SEQ_KV_FAULT_CNT : Nat := 0xC0064
def SEQ_POOL_BASE_LO (p : Nat) : Nat := 0xC0100 + 16 * p
def SEQ_POOL_BASE_LO_ADDR : Field := ⟨12, 20⟩
def SEQ_POOL_BASE_HI (p : Nat) : Nat := 0xC0104 + 16 * p
def SEQ_POOL_BASE_HI_ADDR : Field := ⟨0, 8⟩
def SEQ_POOL_CFG (p : Nat) : Nat := 0xC0108 + 16 * p
def SEQ_POOL_CFG_FRAMES : Field := ⟨0, 16⟩
def SEQ_POOL_CFG_LOG2_FRAME : Field := ⟨16, 5⟩
def SEQ_POOL_FREE (p : Nat) : Nat := 0xC010C + 16 * p
def SEQ_POOL_FREE_FREE : Field := ⟨0, 16⟩
def SEQ_TEN_QUOTA (t : Nat) : Nat := 0xC1000 + 4 * t
def SEQ_TEN_QUOTA_FRAMES : Field := ⟨0, 17⟩
def SEQ_DOMAIN (t : Nat) : Nat := 0xC1400 + 4 * t
def SEQ_DOMAIN_DOMAIN : Field := ⟨0, 8⟩
def SEQ_TEN_FRAMES (t : Nat) : Nat := 0xC1800 + 4 * t
def SEQ_TEN_FRAMES_FRAMES : Field := ⟨0, 17⟩

/-! Block CMP, Tables 11.7 and 11.8 (R668), base 0xD0000. -/

def CMP_CFG : Nat := 0xD0000
def CMP_CFG_ORDER : Field := ⟨0, 1⟩
def CMP_BG : Nat := 0xD0004
def CMP_BG_B : Field := ⟨0, 10⟩
def CMP_BG_G : Field := ⟨10, 10⟩
def CMP_BG_R : Field := ⟨20, 10⟩
def CMP_Z : Nat := 0xD0008
def CMP_Z_Z0 : Field := ⟨0, 3⟩
def CMP_Z_Z1 : Field := ⟨3, 3⟩
def CMP_Z_Z2 : Field := ⟨6, 3⟩
def CMP_Z_Z3 : Field := ⟨9, 3⟩
def CMP_Z_Z4 : Field := ⟨12, 3⟩
def CMP_Z_Z5 : Field := ⟨15, 3⟩
def CMP_Z_Z6 : Field := ⟨18, 3⟩
def CMP_Z_Z7 : Field := ⟨21, 3⟩
def CMP_DITHER : Nat := 0xD000C
def CMP_DITHER_DEPTH : Field := ⟨0, 2⟩
def CMP_DITHER_EN : Field := ⟨4, 1⟩
def CMP_DITHER_TEMPORAL : Field := ⟨5, 1⟩
def CMP_COMMIT : Nat := 0xD0010
def CMP_COMMIT_GO : Field := ⟨0, 1⟩
def CMP_COMMIT_PENDING : Field := ⟨1, 1⟩
def CMP_STATUS : Nat := 0xD0014
def CMP_STATUS_FROZEN : Field := ⟨0, 1⟩
def CMP_STATUS_CFG_ERR : Field := ⟨1, 1⟩
def CMP_STATUS_LAYER_OFF : Field := ⟨8, 8⟩
def CMP_FRZ_CFG : Nat := 0xD0018
def CMP_FRZ_CFG_N : Field := ⟨0, 8⟩
def CMP_FRZ_RUN : Nat := 0xD001C
def CMP_FRZ_RUN_RUN : Field := ⟨0, 8⟩
def CMP_OUT_SIG : Nat := 0xD0020
def CMP_IN_SIG : Nat := 0xD0024
def CMP_UR_LO : Nat := 0xD0028
def CMP_UR_HI : Nat := 0xD002C
def CMP_UR_HI_FRAME : Field := ⟨0, 16⟩
def CMP_UR_HI_LAYER : Field := ⟨16, 3⟩
def CMP_UR_HI_PORT : Field := ⟨20, 1⟩
def CMP_UR_HI_ABORT : Field := ⟨21, 1⟩
def CMP_UR_CNT (k : Nat) : Nat := 0xD0040 + 4 * k
def CMP_ABORT_CNT : Nat := 0xD0060
def CMP_FROZEN_CNT : Nat := 0xD0064
def CMP_L_CTL (k : Nat) : Nat := 0xD1000 + 64 * k
def CMP_L_CTL_EN : Field := ⟨0, 1⟩
def CMP_L_CTL_PREMULT : Field := ⟨1, 1⟩
def CMP_L_CTL_MATRIX : Field := ⟨2, 1⟩
def CMP_L_CTL_FMT : Field := ⟨8, 5⟩
def CMP_L_CTL_ALPHA : Field := ⟨16, 8⟩
def CMP_L_POS (k : Nat) : Nat := 0xD1004 + 64 * k
def CMP_L_POS_X : Field := ⟨0, 16⟩
def CMP_L_POS_Y : Field := ⟨16, 16⟩
def CMP_L_SIZE (k : Nat) : Nat := 0xD1008 + 64 * k
def CMP_L_SIZE_W : Field := ⟨0, 16⟩
def CMP_L_SIZE_H : Field := ⟨16, 16⟩
def CMP_L_BASE0_LO (k : Nat) : Nat := 0xD100C + 64 * k
def CMP_L_BASE0_LO_ADDR : Field := ⟨7, 25⟩
def CMP_L_BASE0_HI (k : Nat) : Nat := 0xD1010 + 64 * k
def CMP_L_BASE0_HI_ADDR : Field := ⟨0, 8⟩
def CMP_L_BASE1_LO (k : Nat) : Nat := 0xD1014 + 64 * k
def CMP_L_BASE1_LO_ADDR : Field := ⟨7, 25⟩
def CMP_L_BASE1_HI (k : Nat) : Nat := 0xD1018 + 64 * k
def CMP_L_BASE1_HI_ADDR : Field := ⟨0, 8⟩
def CMP_L_STRIDE (k : Nat) : Nat := 0xD101C + 64 * k
def CMP_L_STRIDE_S0 : Field := ⟨0, 16⟩
def CMP_L_STRIDE_S1 : Field := ⟨16, 16⟩

/-! Block SCN, Tables 11.7 and 11.9 (R668), base 0xE0000. -/

def SCN_CFG : Nat := 0xE0000
def SCN_CFG_MODE : Field := ⟨0, 2⟩
def SCN_STATUS : Nat := 0xE0004
def SCN_STATUS_TIM_ERR : Field := ⟨0, 1⟩
def SCN_STATUS_TIM_PEND : Field := ⟨1, 1⟩
def SCN_STATUS_BLANK : Field := ⟨2, 1⟩
def SCN_HTIM0 : Nat := 0xE0010
def SCN_HTIM0_ACTIVE : Field := ⟨0, 16⟩
def SCN_HTIM0_FP : Field := ⟨16, 16⟩
def SCN_HTIM1 : Nat := 0xE0014
def SCN_HTIM1_SYNC : Field := ⟨0, 16⟩
def SCN_HTIM1_BP : Field := ⟨16, 16⟩
def SCN_VTIM0 : Nat := 0xE0018
def SCN_VTIM0_ACTIVE : Field := ⟨0, 16⟩
def SCN_VTIM0_FP : Field := ⟨16, 16⟩
def SCN_VTIM1 : Nat := 0xE001C
def SCN_VTIM1_SYNC : Field := ⟨0, 16⟩
def SCN_VTIM1_BP : Field := ⟨16, 16⟩
def SCN_TIM_CTL : Nat := 0xE0020
def SCN_TIM_CTL_REFRESH : Field := ⟨0, 18⟩
def SCN_TIM_CTL_HS_POL : Field := ⟨24, 1⟩
def SCN_TIM_CTL_VS_POL : Field := ⟨25, 1⟩
def SCN_TIM_CTL_APPLY : Field := ⟨31, 1⟩
def SCN_PR_CTL : Nat := 0xE0030
def SCN_PR_CTL_ENTER : Field := ⟨0, 1⟩
def SCN_PR_CTL_EXIT : Field := ⟨1, 1⟩
def SCN_PR_CTL_EXIT_ON_INTAKE : Field := ⟨8, 1⟩
def SCN_PR_STATUS : Nat := 0xE0034
def SCN_PR_STATUS_STATE : Field := ⟨0, 2⟩
def SCN_PR_CNT : Nat := 0xE0038
def SCN_AUX_CTL : Nat := 0xE0040
def SCN_AUX_CTL_GO : Field := ⟨0, 1⟩
def SCN_AUX_CTL_PORT : Field := ⟨1, 1⟩
def SCN_AUX_CTL_CMD : Field := ⟨4, 4⟩
def SCN_AUX_CTL_LEN : Field := ⟨8, 4⟩
def SCN_AUX_ADDR : Nat := 0xE0044
def SCN_AUX_ADDR_ADDR : Field := ⟨0, 20⟩
def SCN_AUX_STATUS : Nat := 0xE0048
def SCN_AUX_STATUS_BUSY : Field := ⟨0, 1⟩
def SCN_AUX_STATUS_REPLY : Field := ⟨1, 2⟩
def SCN_AUX_STATUS_COUNT : Field := ⟨8, 5⟩
def SCN_AUX_DATA (k : Nat) : Nat := 0xE0050 + 4 * k
def SCN_PORT_CTL (p : Nat) : Nat := 0xE0100 + 256 * p
def SCN_PORT_CTL_EN : Field := ⟨0, 1⟩
def SCN_PORT_CTL_MAX_RATE : Field := ⟨4, 3⟩
def SCN_PORT_CTL_MAX_LANES : Field := ⟨8, 3⟩
def SCN_PORT_CTL_SSC : Field := ⟨12, 1⟩
def SCN_PORT_CTL_UNDERRUN : Field := ⟨16, 1⟩
def SCN_PORT_CTL_RETRAIN : Field := ⟨31, 1⟩
def SCN_PORT_STATUS (p : Nat) : Nat := 0xE0104 + 256 * p
def SCN_PORT_STATUS_HPD : Field := ⟨0, 1⟩
def SCN_PORT_STATUS_TRAINED : Field := ⟨1, 1⟩
def SCN_PORT_STATUS_CODING : Field := ⟨2, 1⟩
def SCN_PORT_STATUS_RATE : Field := ⟨4, 3⟩
def SCN_PORT_STATUS_LANES : Field := ⟨8, 3⟩
def SCN_PORT_STATUS_BW_ERR : Field := ⟨11, 1⟩
def SCN_PORT_STATUS_VIDEO : Field := ⟨12, 1⟩
def SCN_PORT_STATUS_PR_CAP : Field := ⟨13, 1⟩
def SCN_PORT_STATUS_TRAIN_FAIL : Field := ⟨14, 1⟩
def SCN_RB_LO (p : Nat) : Nat := 0xE0108 + 256 * p
def SCN_RB_HI (p : Nat) : Nat := 0xE010C + 256 * p
def SCN_RB_HI_FRAME : Field := ⟨0, 16⟩
def SCN_RB_ERR_CNT (p : Nat) : Nat := 0xE0110 + 256 * p
def SCN_TRAIN_CNT (p : Nat) : Nat := 0xE0114 + 256 * p
def SCN_HPD_IRQ_CNT (p : Nat) : Nat := 0xE0118 + 256 * p
def SCN_RB_LANE_CNT (p l : Nat) : Nat := 0xE0120 + 256 * p + 4 * l

/-! Block PWR, Tables 12.10 and 12.11 (R720), base 0xF0000. -/

def PWR_STATUS : Nat := 0xF0000
def PWR_STATUS_OP : Field := ⟨0, 2⟩
def PWR_STATUS_OP_PEND : Field := ⟨2, 1⟩
def PWR_STATUS_STR : Field := ⟨3, 1⟩
def PWR_STATUS_HELD : Field := ⟨4, 1⟩
def PWR_STATUS_ALLOW : Field := ⟨8, 6⟩
def PWR_STATUS_POS : Field := ⟨16, 6⟩
def PWR_STATUS_TRIP : Field := ⟨24, 4⟩
def PWR_LIMIT : Nat := 0xF0004
def PWR_LIMIT_CAP_W : Field := ⟨0, 8⟩
def PWR_LIMIT_EDC_A : Field := ⟨8, 8⟩
def PWR_LIMIT_TDC_A : Field := ⟨16, 8⟩
def PWR_LIMIT_OTHER : Field := ⟨24, 8⟩
def PWR_THR_CFG : Nat := 0xF0008
def PWR_THR_CFG_STEP : Field := ⟨0, 6⟩
def PWR_THR_CFG_RELEASE : Field := ⟨8, 8⟩
def PWR_THR_CFG_THR_TEMP : Field := ⟨16, 8⟩
def PWR_THR_CFG_P2_TEMP : Field := ⟨24, 8⟩
def PWR_STEER : Nat := 0xF000C
def PWR_STEER_GUARD : Field := ⟨0, 8⟩
def PWR_STEER_STEP_UP : Field := ⟨8, 8⟩
def PWR_STEER_STEP_DN : Field := ⟨16, 8⟩
def PWR_STEER_OP_SLEW : Field := ⟨24, 8⟩
def PWR_PRESS_CFG : Nat := 0xF0010
def PWR_PRESS_CFG_THRESH : Field := ⟨0, 7⟩
def PWR_PRESS_CFG_EN : Field := ⟨31, 1⟩
def PWR_STR_CFG : Nat := 0xF0014
def PWR_STR_CFG_THRESH : Field := ⟨0, 7⟩
def PWR_STR_CFG_HOLD : Field := ⟨8, 16⟩
def PWR_STR_CFG_FORCE : Field := ⟨31, 1⟩
def PWR_PMB_CFG : Nat := 0xF0018
def PWR_PMB_CFG_ADDR : Field := ⟨0, 7⟩
def PWR_PMB_CFG_FAULT_CMD : Field := ⟨8, 8⟩
def PWR_PMB_CFG_PH_ZERO : Field := ⟨16, 8⟩
def PWR_PMB_CFG_PH_HIGH : Field := ⟨24, 8⟩
def PWR_PR_CFG : Nat := 0xF001C
def PWR_PR_CFG_DEPTH : Field := ⟨0, 1⟩
def PWR_PR_CFG_WAKE_BIST : Field := ⟨1, 1⟩
def PWR_PR_CFG_IDLE_PICKS : Field := ⟨16, 16⟩
def PWR_OPP (k : Nat) : Nat := 0xF0020 + 4 * k
def PWR_OPP_VNOM : Field := ⟨0, 10⟩
def PWR_OPP_VFLOOR : Field := ⟨16, 10⟩
def PWR_SETPT : Nat := 0xF0030
def PWR_SETPT_SET : Field := ⟨0, 10⟩
def PWR_SETPT_SMIN : Field := ⟨16, 10⟩
def PWR_SETPT_REGION : Field := ⟨26, 4⟩
def PWR_TJ : Nat := 0xF0034
def PWR_TJ_TJ : Field := ⟨0, 8⟩
def PWR_TJ_SENSOR : Field := ⟨8, 8⟩
def PWR_CUR : Nat := 0xF0038
def PWR_CUR_IEST : Field := ⟨0, 16⟩
def PWR_CUR_IOUT : Field := ⟨16, 16⟩
def PWR_PKG : Nat := 0xF003C
def PWR_PKG_POWER : Field := ⟨0, 16⟩
def PWR_PKG_VOUT : Field := ⟨16, 10⟩
def PWR_FAULT : Nat := 0xF0040
def PWR_FAULT_OPEN : Field := ⟨0, 8⟩
def PWR_FAULT_SENSE : Field := ⟨8, 8⟩
def PWR_FAULT_FRAC : Field := ⟨16, 4⟩
def PWR_FAULT_BOARD : Field := ⟨20, 1⟩
def PWR_PATH : Nat := 0xF0044
def PWR_PATH_REGION : Field := ⟨0, 16⟩
def PWR_PMB_CMD : Nat := 0xF0050
def PWR_PMB_CMD_CODE : Field := ⟨0, 8⟩
def PWR_PMB_CMD_LEN : Field := ⟨8, 3⟩
def PWR_PMB_CMD_RD : Field := ⟨12, 1⟩
def PWR_PMB_CMD_GO : Field := ⟨31, 1⟩
def PWR_PMB_DATA : Nat := 0xF0054
def PWR_PMB_STATUS : Nat := 0xF0058
def PWR_PMB_STATUS_BUSY : Field := ⟨0, 1⟩
def PWR_PMB_STATUS_ERR : Field := ⟨1, 2⟩
def PWR_PRESS_TOT_CNT : Nat := 0xF0080
def PWR_STR_CNT : Nat := 0xF0084
def PWR_STR_CCLK_CNT : Nat := 0xF0088
def PWR_STEP_CNT : Nat := 0xF008C
def PWR_AVS_ERR_CNT : Nat := 0xF0090
def PWR_PMB_ERR_CNT : Nat := 0xF0094
def PWR_SENSOR_BAD_CNT : Nat := 0xF0098
def PWR_PATH_CNT : Nat := 0xF009C
def PWR_ISL (w : Nat) : Nat := 0xF00A0 + 4 * w
def PWR_BASE (r : Nat) : Nat := 0xF0100 + 4 * r
def PWR_BASE_G : Field := ⟨0, 16⟩
def PWR_BASE_DEV : Field := ⟨16, 16⟩
def PWR_REGION_LOOMS_LO (r : Nat) : Nat := 0xF0140 + 8 * r
def PWR_REGION_LOOMS_HI (r : Nat) : Nat := 0xF0144 + 8 * r
def PWR_REGION_LOOMS_HI_LOOMS : Field := ⟨0, 2⟩
def PWR_PRESS_CNT (i : Nat) : Nat := 0xF0200 + 4 * i
def PWR_SENS (s : Nat) : Nat := 0xF0400 + 4 * s
def PWR_SENS_MV : Field := ⟨0, 10⟩
def PWR_SENS_OFF : Field := ⟨16, 8⟩
def PWR_SENS_CAL : Field := ⟨30, 1⟩
def PWR_SENS_BAD : Field := ⟨31, 1⟩
def PWR_TSENS (t : Nat) : Nat := 0xF0800 + 4 * t
def PWR_TSENS_TEMP : Field := ⟨0, 8⟩
def PWR_TSENS_OFF : Field := ⟨8, 8⟩
def PWR_TSENS_BAD : Field := ⟨31, 1⟩

/-! Block RIN, Tables 12.10 and 12.11 (R720), base 0x110000. -/

def RIN_CFG : Nat := 0x110000
def RIN_CFG_SLOT_PICK : Field := ⟨0, 6⟩
def RIN_CFG_SNAP_LINE : Field := ⟨16, 14⟩
def RIN_CFG_FLASH_EN : Field := ⟨30, 1⟩
def RIN_CFG_SNAP_EN : Field := ⟨31, 1⟩
def RIN_STATUS : Nat := 0x110004
def RIN_STATUS_FLASH_BAD : Field := ⟨0, 1⟩
def RIN_STATUS_LEARNED : Field := ⟨16, 16⟩
def RIN_TARGET : Nat := 0x110008
def RIN_TARGET_CAL_MS : Field := ⟨0, 16⟩
def RIN_TARGET_FLASH_S : Field := ⟨16, 16⟩
def RIN_FLASH_BAD : Nat := 0x11000C
def RIN_FLASH_BAD_SECT : Field := ⟨0, 9⟩
def RIN_CAL_PASS_CNT : Nat := 0x110020
def RIN_CAL_STARVE_CNT : Nat := 0x110024
def RIN_FLASH_PASS_CNT : Nat := 0x110028
def RIN_FLASH_STARVE_CNT : Nat := 0x11002C
def RIN_FLASH_BAD_CNT : Nat := 0x110030
def RIN_PMB_LATE_CNT : Nat := 0x110034
def RIN_SNAP_CNT : Nat := 0x110038
def RIN_SNAP_STAMP_LO : Nat := 0x110100
def RIN_SNAP_STAMP_HI : Nat := 0x110104
def RIN_SNAP_STAMP_HI_FRAME : Field := ⟨0, 16⟩
def RIN_SNAP (k : Nat) : Nat := 0x110110 + 4 * k

/-! Block SLV, Tables 13.8 and 13.9 (R768), base 0x100000. -/

def SLV_CFG : Nat := 0x100000
def SLV_CFG_PORT_EN : Field := ⟨0, 4⟩
def SLV_CFG_MASTER : Field := ⟨4, 4⟩
def SLV_STATUS : Nat := 0x100004
def SLV_STATUS_X : Field := ⟨0, 2⟩
def SLV_STATUS_Y : Field := ⟨2, 2⟩
def SLV_STATUS_W : Field := ⟨4, 2⟩
def SLV_STATUS_H : Field := ⟨6, 2⟩
def SLV_STATUS_ROLE : Field := ⟨8, 2⟩
def SLV_STATUS_NOCOORD : Field := ⟨12, 1⟩
def SLV_STATUS_GEOM_ERR : Field := ⟨13, 1⟩
def SLV_STATUS_MASTER_LOST : Field := ⟨14, 1⟩
def SLV_STATUS_CFG_ERR : Field := ⟨15, 1⟩
def SLV_STRIP_CFG : Nat := 0x100008
def SLV_STRIP_CFG_VROWS : Field := ⟨0, 6⟩
def SLV_STRIP_CFG_HCOLS : Field := ⟨8, 6⟩
def SLV_STRIP_CFG_MAP_EN : Field := ⟨16, 1⟩
def SLV_TIME : Nat := 0x10000C
def SLV_TIME_PARENT : Field := ⟨0, 3⟩
def SLV_TIME_HOPS : Field := ⟨4, 4⟩
def SLV_TIME_ERR : Nat := 0x100010
def SLV_TIME_ERR_ERR : Field := ⟨0, 16⟩
def SLV_REACH : Nat := 0x100014
def SLV_REACH_CHIPS : Field := ⟨0, 16⟩
def SLV_STRIP_MISS_CNT : Nat := 0x100020
def SLV_STRIP_PAD_CNT : Nat := 0x100024
def SLV_STRIP_LATE_CNT : Nat := 0x100028
def SLV_PARENT_CNT : Nat := 0x10002C
def SLV_COLL_FAIL_CNT : Nat := 0x100030
def SLV_BAD_FLIT_CNT : Nat := 0x100034
def SLV_GROUP (g : Nat) : Nat := 0x100040 + 4 * g
def SLV_GROUP_MEMBERS : Field := ⟨0, 16⟩
def SLV_COLL_RING (k : Nat) : Nat := 0x100080 + 4 * k
def SLV_COLL_RING_RING : Field := ⟨0, 10⟩
def SLV_COLL_RING_EN : Field := ⟨31, 1⟩
def SLV_PORT (p : Nat) : Nat := 0x100100 + 64 * p
def SLV_PORT_STATE : Field := ⟨0, 3⟩
def SLV_PORT_REASON : Field := ⟨4, 4⟩
def SLV_PORT_SWAP : Field := ⟨8, 1⟩
def SLV_PORT_POL : Field := ⟨9, 2⟩
def SLV_PORT_DELAY (p : Nat) : Nat := 0x100104 + 64 * p
def SLV_PORT_DELAY_D : Field := ⟨0, 8⟩
def SLV_NEIGH (p : Nat) : Nat := 0x100108 + 64 * p
def SLV_NEIGH_CHIP_ID : Field := ⟨0, 4⟩
def SLV_CRC_ERR_CNT (p : Nat) : Nat := 0x10010C + 64 * p
def SLV_REPLAY_CNT (p : Nat) : Nat := 0x100110 + 64 * p
def SLV_DOWN_CNT (p : Nat) : Nat := 0x100114 + 64 * p

end Reg

/-- The rows of HIF, Tables 3.11 and 3.12 (R169). -/
def regRowsHif : List RegRow :=
  [⟨Reg.HIF_ID, 0, 1, 0x0, 0x0, 0x0, 0x1640, false⟩,
   ⟨Reg.HIF_STATUS, 0, 1, 0x0, 0x0, 0x20, 0x2, false⟩,
   ⟨Reg.HIF_LINK, 0, 1, 0x0, 0x0, 0x0, 0x0, false⟩,
   ⟨Reg.DEV_RESET, 0, 1, 0x0, 0x0, 0x0, 0x0, false⟩,
   ⟨Reg.HIF_BAR2_WIN, 0, 1, 0xFF, 0x0, 0x0, 0x0, false⟩,
   ⟨Reg.HIF_PTM_CTL, 0, 1, 0xFF01, 0xFF01, 0x0, 0x0, false⟩,
   ⟨Reg.HIF_PTM_STATUS, 0, 1, 0x0, 0x0, 0x2, 0x0, false⟩,
   ⟨Reg.HIF_PTM_STAMP_LO, 0, 1, 0x0, 0x0, 0x0, 0x0, false⟩,
   ⟨Reg.HIF_PTM_STAMP_HI, 0, 1, 0x0, 0x0, 0x0, 0x0, false⟩,
   ⟨Reg.HIF_PTM_MASTER_LO, 0, 1, 0x0, 0x0, 0x0, 0x0, false⟩,
   ⟨Reg.HIF_PTM_MASTER_HI, 0, 1, 0x0, 0x0, 0x0, 0x0, false⟩,
   ⟨Reg.HIF_SB_LAST, 0, 1, 0x0, 0x0, 0x0, 0x0, false⟩,
   ⟨Reg.HIF_SB_ERR_CNT, 0, 1, 0x0, 0x0, 0x0, 0x0, true⟩,
   ⟨Reg.HIF_CRS_CNT, 0, 1, 0x0, 0x0, 0x0, 0x0, true⟩]

/-- The rows of IMG, Tables 2.15 to 2.19 (R117, R118). -/
def regRowsImg : List RegRow :=
  [⟨Reg.IMG_STATUS, 0, 1, 0x0, 0x0, 0x200, 0x0, false⟩,
   ⟨Reg.IMG_FAIL, 0, 1, 0x0, 0x0, 0x0, 0xFFFF, false⟩,
   ⟨Reg.IMG_SEQ, 0, 1, 0x0, 0x0, 0x0, 0x0, false⟩,
   ⟨Reg.IMG_VERSION, 0, 1, 0x0, 0x0, 0x0, 0x0, false⟩,
   ⟨Reg.IMG_FUSE, 0, 1, 0x0, 0x0, 0x0, 0x0, false⟩,
   ⟨Reg.IMG_PKH, 0, 1, 0x0, 0x0, 0x0, 0x0, false⟩,
   ⟨Reg.IMG_STRAP, 0, 1, 0x0, 0x0, 0x0, 0x0, false⟩,
   ⟨Reg.IMG_REGION, 0, 1, 0x0, 0x0, 0x0, 0x0, false⟩,
   ⟨Reg.IMG_T_CFG, 0, 1, 0x0, 0x0, 0x0, 0x0, false⟩,
   ⟨Reg.IMG_T_NET, 0, 1, 0x0, 0x0, 0x0, 0x0, false⟩,
   ⟨Reg.IMG_REC_REJ_CNT, 0, 1, 0x0, 0x0, 0x0, 0x0, true⟩,
   ⟨Reg.IMG_NET_BAD_CNT, 0, 1, 0x0, 0x0, 0x0, 0x0, true⟩,
   ⟨Reg.IMG_FL_ADDR, 0, 1, 0xFFFFFFFF, 0x0, 0x0, 0x0, false⟩,
   ⟨Reg.IMG_FL_CMD, 0, 1, 0x0, 0x0, 0x0, 0x0, false⟩,
   ⟨Reg.IMG_FL_STATUS, 0, 1, 0x0, 0x0, 0x6, 0x0, false⟩,
   ⟨0x10100, 4, 64, 0xFFFFFFFF, 0x0, 0x0, 0x0, false⟩]

/-- The rows of TRD, Tables 1.7 to 1.15 (R63). -/
def regRowsTrd : List RegRow :=
  [⟨Reg.TRD_CTL, 0, 1, 0x1F, 0x1F, 0x0, 0x0, false⟩,
   ⟨Reg.TRD_STATUS, 0, 1, 0x0, 0x0, 0x1C, 0x0, false⟩,
   ⟨Reg.TRD_NOW_LO, 0, 1, 0x0, 0x0, 0x0, 0x0, false⟩,
   ⟨Reg.TRD_NOW_HI, 0, 1, 0x0, 0x0, 0x0, 0x0, false⟩,
   ⟨Reg.TRD_GEOM, 0, 1, 0x0, 0x0, 0x0, 0x0, false⟩,
   ⟨Reg.TRD_PICK_STAT, 0, 1, 0x0, 0x0, 0x0, 0xFFF, false⟩,
   ⟨Reg.TRD_VS_LINE, 0, 1, 0x3FFF, 0x3FFF, 0x0, 0x878, false⟩,
   ⟨Reg.TRD_FSYNC_CTL, 0, 1, 0xFFF1, 0xFFF1, 0x0, 0x0, false⟩,
   ⟨Reg.TRD_HS_CAP_LO, 0, 1, 0x0, 0x0, 0x0, 0x0, false⟩,
   ⟨Reg.TRD_HS_CAP_HI, 0, 1, 0x0, 0x0, 0x0, 0x0, false⟩,
   ⟨Reg.TRD_VS_CAP_LO, 0, 1, 0x0, 0x0, 0x0, 0x0, false⟩,
   ⟨Reg.TRD_VS_CAP_HI, 0, 1, 0x0, 0x0, 0x0, 0x0, false⟩,
   ⟨Reg.TRD_GPIO_OWN, 0, 1, 0xFFFF, 0xFFFF, 0x0, 0x0, false⟩,
   ⟨Reg.TRD_GPIO_CAP_SEL, 0, 1, 0x3F, 0x0, 0x0, 0x0, false⟩,
   ⟨Reg.TRD_GPIO_CAP_LO, 0, 1, 0x0, 0x0, 0x0, 0x0, false⟩,
   ⟨Reg.TRD_GPIO_CAP_HI, 0, 1, 0x0, 0x0, 0x0, 0x0, false⟩,
   ⟨Reg.TRD_FIRE_CAP_LO, 0, 1, 0x0, 0x0, 0x0, 0x0, false⟩,
   ⟨Reg.TRD_FIRE_CAP_HI, 0, 1, 0x0, 0x0, 0x0, 0x0, false⟩,
   ⟨Reg.TRD_FIRE_CAP_SLOT, 0, 1, 0x0, 0x0, 0x0, 0x0, false⟩,
   ⟨Reg.TRD_LATE_CNT, 0, 1, 0x0, 0x0, 0x0, 0x0, true⟩,
   ⟨Reg.TRD_CATCHUP_CNT, 0, 1, 0x0, 0x0, 0x0, 0x0, true⟩,
   ⟨Reg.TRD_REF_LOSS_CNT, 0, 1, 0x0, 0x0, 0x0, 0x0, true⟩,
   ⟨0x21000, 16, 256, 0xFFFFFFFF, 0xFFFFFFFF, 0x0, 0x0, false⟩,
   ⟨0x21004, 16, 256, 0xFFFFFFFF, 0xFFFFFFFF, 0x0, 0x0, false⟩,
   ⟨0x21008, 16, 256, 0xFF07, 0xFF07, 0x10, 0x0, false⟩,
   ⟨0x2100C, 16, 256, 0xFFFFFFFF, 0xFFFFFFFF, 0x0, 0x0, false⟩]

/-- The rows of TEN, Tables 4.10 and 4.11 (R232). -/
def regRowsTen : List RegRow :=
  [⟨0x31000, 16, 256, 0x803F3FFF, 0x3F3FFF, 0x0, 0x0, false⟩,
   ⟨0x31004, 16, 256, 0x1FFFFF, 0xFFFF, 0x0, 0x0, false⟩,
   ⟨0x31008, 16, 256, 0x0, 0x0, 0x0, 0x0, false⟩,
   ⟨0x3100C, 16, 256, 0x0, 0x0, 0x0, 0x0, false⟩,
   ⟨0x32000, 4, 256, 0x0, 0x0, 0x0, 0x0, true⟩,
   ⟨0x32400, 4, 256, 0x0, 0x0, 0x0, 0x0, true⟩,
   ⟨0x32800, 4, 256, 0x0, 0x0, 0x0, 0x0, true⟩,
   ⟨0x32C00, 4, 256, 0x0, 0x0, 0x0, 0x0, true⟩,
   ⟨0x34000, 4, 2072, 0xFFFF, 0x0, 0x0, 0x0, false⟩]

/-- The rows of QRG, Tables 4.10 and 4.12 (R232). -/
def regRowsQrg : List RegRow :=
  [⟨Reg.QRG_DRR, 0, 1, 0xFFFF, 0xFFFF, 0x0, 0x0, false⟩,
   ⟨Reg.QRG_BULK_MIN, 0, 1, 0x3F, 0x3F, 0x0, 0x0, false⟩,
   ⟨Reg.QRG_LIVE_DISP_CNT, 0, 1, 0x0, 0x0, 0x0, 0x0, true⟩,
   ⟨Reg.QRG_BULK_DISP_CNT, 0, 1, 0x0, 0x0, 0x0, 0x0, true⟩,
   ⟨Reg.QRG_GANG_HOLD_CNT, 0, 1, 0x0, 0x0, 0x0, 0x0, true⟩,
   ⟨Reg.QRG_FETCH_ERR_CNT, 0, 1, 0x0, 0x0, 0x0, 0x0, true⟩,
   ⟨0x48000, 32, 1024, 0xFFFFF000, 0x0, 0x0, 0x0, false⟩,
   ⟨0x48004, 32, 1024, 0xFFFFFFFF, 0x0, 0x0, 0x0, false⟩,
   ⟨0x48008, 32, 1024, 0xFFFFF000, 0x0, 0x0, 0x0, false⟩,
   ⟨0x4800C, 32, 1024, 0xFFFFFFFF, 0x0, 0x0, 0x0, false⟩,
   ⟨0x48010, 32, 1024, 0xFF1FFFFF, 0x0, 0x0, 0x48, false⟩,
   ⟨0x48014, 32, 1024, 0x0, 0x0, 0x0, 0x0, false⟩,
   ⟨0x48018, 32, 1024, 0x0, 0x0, 0x0, 0xFFFFFFFF, false⟩,
   ⟨0x4801C, 32, 1024, 0x0, 0x0, 0x0, 0x0, false⟩]

/-- The rows of HED, Tables 5.9 and 5.10 (R286). -/
def regRowsHed : List RegRow :=
  [⟨Reg.HED_CFG, 0, 1, 0x1FF, 0x1FF, 0x0, 0x40, false⟩,
   ⟨Reg.HED_STATUS, 0, 1, 0x0, 0x0, 0x0, 0x1000, false⟩,
   ⟨Reg.HED_SB_FULL_CNT, 0, 1, 0x0, 0x0, 0x0, 0x0, true⟩,
   ⟨Reg.HED_REEXEC_CNT, 0, 1, 0x0, 0x0, 0x0, 0x0, true⟩,
   ⟨Reg.HED_ABORT_LOOM_CNT, 0, 1, 0x0, 0x0, 0x0, 0x0, true⟩,
   ⟨0x51000, 4, 1024, 0x0, 0x0, 0x0, 0x0, false⟩]

/-- The rows of LOM, Tables 5.9 and 5.11 (R286). -/
def regRowsLom : List RegRow :=
  [⟨Reg.LOM_FUSE_LO, 0, 1, 0x0, 0x0, 0x0, 0x0, false⟩,
   ⟨Reg.LOM_FUSE_HI, 0, 1, 0x0, 0x0, 0x0, 0x0, false⟩,
   ⟨Reg.LOM_DENY_LO, 0, 1, 0xFFFFFFFF, 0xFFFFFFFF, 0x0, 0x0, false⟩,
   ⟨Reg.LOM_DENY_HI, 0, 1, 0x3, 0x3, 0x0, 0x0, false⟩,
   ⟨Reg.LOM_RETIRE_CFG, 0, 1, 0xFF, 0xFF, 0x0, 0x0, false⟩,
   ⟨Reg.LOM_SUMMARY, 0, 1, 0x0, 0x0, 0x0, 0x0, false⟩,
   ⟨Reg.LOM_RETIRE_CNT, 0, 1, 0x0, 0x0, 0x0, 0x0, true⟩,
   ⟨Reg.LOM_CE_CNT, 0, 1, 0x0, 0x0, 0x0, 0x0, true⟩,
   ⟨0x60100, 4, 34, 0x0, 0x0, 0x0, 0x0, false⟩,
   ⟨0x60200, 4, 32, 0x0, 0x0, 0x0, 0x0, false⟩]

/-- The rows of SPL, Tables 6.10 and 6.11 (R364). -/
def regRowsSpl : List RegRow :=
  [⟨Reg.SPL_CFG, 0, 1, 0xF, 0xF, 0x0, 0x0, false⟩,
   ⟨Reg.SPL_MSHR_FULL_CNT, 0, 1, 0x0, 0x0, 0x0, 0x0, true⟩,
   ⟨Reg.SPL_MCAST_CNT, 0, 1, 0x0, 0x0, 0x0, 0x0, true⟩,
   ⟨Reg.SPL_STALE_EVICT_CNT, 0, 1, 0x0, 0x0, 0x0, 0x0, true⟩,
   ⟨Reg.SPL_CE_CNT, 0, 1, 0x0, 0x0, 0x0, 0x0, true⟩,
   ⟨Reg.SPL_UE_CNT, 0, 1, 0x0, 0x0, 0x0, 0x0, true⟩,
   ⟨0x71000, 16, 64, 0xFFE00003, 0xFFE00003, 0x0, 0x0, false⟩,
   ⟨0x71004, 16, 64, 0xFF, 0xFF, 0x0, 0x0, false⟩,
   ⟨0x71008, 16, 64, 0xFFE00000, 0xFFE00000, 0x0, 0x0, false⟩,
   ⟨0x7100C, 16, 64, 0xFF, 0xFF, 0x0, 0x0, false⟩]

/-- The rows of DMC, Tables 6.10 and 6.11 (R364). -/
def regRowsDmc : List RegRow :=
  [⟨Reg.DMC_CFG, 0, 1, 0x7, 0x7, 0x0, 0x0, false⟩,
   ⟨Reg.DMC_STATUS, 0, 1, 0x0, 0x0, 0x0, 0x0, false⟩,
   ⟨Reg.DMC_REF_CFG, 0, 1, 0xFF3FFFFF, 0xFF3FFFFF, 0x0, 0x8051021, false⟩,
   ⟨Reg.DMC_SCRUB_CFG, 0, 1, 0xFFFF, 0xFFFF, 0x0, 0x0, false⟩,
   ⟨Reg.DMC_HOT, 0, 1, 0x0, 0x0, 0x0, 0x0, false⟩,
   ⟨Reg.DMC_FORCED_REF_CNT, 0, 1, 0x0, 0x0, 0x0, 0x0, true⟩,
   ⟨Reg.DMC_CE_CNT, 0, 1, 0x0, 0x0, 0x0, 0x0, true⟩,
   ⟨Reg.DMC_UE_CNT, 0, 1, 0x0, 0x0, 0x0, 0x0, true⟩,
   ⟨Reg.DMC_LINK_CE_CNT, 0, 1, 0x0, 0x0, 0x0, 0x0, true⟩,
   ⟨Reg.DMC_UE_ADDR_LO, 0, 1, 0x0, 0x0, 0x0, 0x0, false⟩,
   ⟨Reg.DMC_UE_ADDR_HI, 0, 1, 0x0, 0x0, 0x0, 0x0, false⟩,
   ⟨Reg.DMC_WMAP_ZERO_CNT, 0, 1, 0x0, 0x0, 0x0, 0x0, true⟩,
   ⟨Reg.DMC_WMAP_FILL_CNT, 0, 1, 0x0, 0x0, 0x0, 0x0, true⟩,
   ⟨Reg.DMC_SCRUB_PASS_CNT, 0, 1, 0x0, 0x0, 0x0, 0x0, true⟩,
   ⟨Reg.DMC_SCRUB_STARVE_CNT, 0, 1, 0x0, 0x0, 0x0, 0x0, true⟩]

/-- The rows of SHT, Tables 7.7 and 7.8 (R410). -/
def regRowsSht : List RegRow :=
  [⟨Reg.SHT_LOOM_BKT, 0, 1, 0xFFFFFFFF, 0xFFFFFFFF, 0x0, 0x0, false⟩,
   ⟨Reg.SHT_RAS_BKT, 0, 1, 0xFFFFFFFF, 0xFFFFFFFF, 0x0, 0x0, false⟩,
   ⟨Reg.SHT_RAS_LEVEL, 0, 1, 0x0, 0x0, 0x0, 0x0, false⟩,
   ⟨Reg.SHT_RESUME, 0, 1, 0x0, 0x0, 0x0, 0x0, false⟩,
   ⟨Reg.SHT_FLOG_PTR, 0, 1, 0x0, 0x0, 0x0, 0x0, false⟩,
   ⟨Reg.SHT_DARN_CNT, 0, 1, 0x0, 0x0, 0x0, 0x0, true⟩,
   ⟨Reg.SHT_HALT_CNT, 0, 1, 0x0, 0x0, 0x0, 0x0, true⟩,
   ⟨Reg.SHT_REFAULT_CNT, 0, 1, 0x0, 0x0, 0x0, 0x0, true⟩,
   ⟨Reg.SHT_FREC_FULL_CNT, 0, 1, 0x0, 0x0, 0x0, 0x0, true⟩,
   ⟨Reg.SHT_FAR_ERR_CNT, 0, 1, 0x0, 0x0, 0x0, 0x0, true⟩,
   ⟨Reg.SHT_FLOG_LOST_CNT, 0, 1, 0x0, 0x0, 0x0, 0x0, true⟩,
   ⟨0x91000, 4, 256, 0xFFFFFFFF, 0xFFFFFFFF, 0x0, 0x0, false⟩,
   ⟨0x91400, 4, 256, 0x0, 0x0, 0x0, 0x0, false⟩,
   ⟨0x92000, 16, 256, 0xFFFFF000, 0x0, 0x0, 0x0, false⟩,
   ⟨0x92004, 16, 256, 0xFFFFFFFF, 0x0, 0x0, 0x0, false⟩,
   ⟨0x92008, 16, 256, 0xFFFFFF, 0x0, 0x0, 0x0, false⟩,
   ⟨0x94000, 16, 256, 0x0, 0x0, 0x80000000, 0x0, false⟩,
   ⟨0x94004, 16, 256, 0x0, 0x0, 0x0, 0x0, false⟩,
   ⟨0x94008, 16, 256, 0x0, 0x0, 0x0, 0x0, false⟩,
   ⟨0x9400C, 16, 256, 0x0, 0x0, 0x0, 0x0, false⟩,
   ⟨0x98000, 4, 8192, 0x0, 0x0, 0x0, 0x0, false⟩]

/-- The rows of MMU, Tables 6.10 and 6.11 (R364). -/
def regRowsMmu : List RegRow :=
  [⟨Reg.MMU_INV, 0, 1, 0x0, 0x0, 0x0, 0x0, false⟩,
   ⟨Reg.MMU_INV_STATUS, 0, 1, 0x0, 0x0, 0x0, 0x0, false⟩,
   ⟨Reg.MMU_INV_VA_LO, 0, 1, 0xFFFFF000, 0x0, 0x0, 0x0, false⟩,
   ⟨Reg.MMU_INV_VA_HI, 0, 1, 0xFFFF, 0x0, 0x0, 0x0, false⟩,
   ⟨Reg.MMU_WALK_CNT, 0, 1, 0x0, 0x0, 0x0, 0x0, true⟩,
   ⟨Reg.MMU_FAULT_CNT, 0, 1, 0x0, 0x0, 0x0, 0x0, true⟩,
   ⟨0xA1000, 8, 256, 0xFFFFF001, 0x0, 0x0, 0x0, false⟩,
   ⟨0xA1004, 8, 256, 0xFF, 0x0, 0x0, 0x0, false⟩]

/-- The rows of PIC, Tables 8.9 and 8.10 (R470). -/
def regRowsPic : List RegRow :=
  [⟨Reg.PIC_CFG, 0, 1, 0x71F07, 0x71F07, 0x0, 0x0, false⟩,
   ⟨Reg.PIC_INTAKE, 0, 1, 0x8003FFFF, 0x8003FFFF, 0x0, 0x0, false⟩,
   ⟨Reg.PIC_STATUS, 0, 1, 0x0, 0x0, 0x4, 0x0, false⟩,
   ⟨Reg.PIC_ADMIT, 0, 1, 0x0, 0x0, 0x0, 0x8, false⟩,
   ⟨Reg.PIC_NEED, 0, 1, 0x0, 0x0, 0x0, 0x0, false⟩,
   ⟨Reg.PIC_CAP_P0, 0, 1, 0x0, 0x0, 0x0, 0x0, false⟩,
   ⟨Reg.PIC_CAP_P1, 0, 1, 0x0, 0x0, 0x0, 0x0, false⟩,
   ⟨Reg.PIC_BYTES_NEED, 0, 1, 0x0, 0x0, 0x0, 0x0, false⟩,
   ⟨Reg.PIC_BYTES_CAP, 0, 1, 0x0, 0x0, 0x0, 0x0, false⟩,
   ⟨Reg.PIC_RT_DELAY, 0, 1, 0xFFFFF, 0xFFFFF, 0x0, 0x0, false⟩,
   ⟨Reg.PIC_DST_POS, 0, 1, 0xFFFFFFFF, 0xFFFFFFFF, 0x0, 0x0, false⟩,
   ⟨Reg.PIC_DST_SIZE, 0, 1, 0xFFFFFFFF, 0xFFFFFFFF, 0x0, 0x0, false⟩,
   ⟨Reg.PIC_BLACK, 0, 1, 0x3FFFFFFF, 0x3FFFFFFF, 0x0, 0x20080040, false⟩,
   ⟨Reg.PIC_RGN_CFG, 0, 1, 0xFFFF, 0xFFFF, 0x0, 0x0, false⟩,
   ⟨Reg.PIC_SEL_A, 0, 1, 0x0, 0x0, 0x0, 0x0, false⟩,
   ⟨Reg.PIC_SEL_B, 0, 1, 0x0, 0x0, 0x0, 0x0, false⟩,
   ⟨Reg.PIC_SEL_PHASE, 0, 1, 0x0, 0x0, 0x0, 0x0, false⟩,
   ⟨Reg.PIC_LATE_LO, 0, 1, 0x0, 0x0, 0x0, 0x0, false⟩,
   ⟨Reg.PIC_LATE_HI, 0, 1, 0x0, 0x0, 0x0, 0x0, false⟩,
   ⟨Reg.PIC_LATE_SHED_CNT, 0, 1, 0x0, 0x0, 0x0, 0x0, true⟩,
   ⟨Reg.PIC_LATE_INTAKE_CNT, 0, 1, 0x0, 0x0, 0x0, 0x0, true⟩,
   ⟨Reg.PIC_SKIP_CNT, 0, 1, 0x0, 0x0, 0x0, 0x0, true⟩,
   ⟨Reg.PIC_DARN_GRP_CNT, 0, 1, 0x0, 0x0, 0x0, 0x0, true⟩,
   ⟨Reg.PIC_DARN_BOTH_CNT, 0, 1, 0x0, 0x0, 0x0, 0x0, true⟩,
   ⟨Reg.PIC_LADDER_CNT, 0, 1, 0x0, 0x0, 0x0, 0x0, true⟩,
   ⟨Reg.PIC_LATE_LIST_CNT, 0, 1, 0x0, 0x0, 0x0, 0x0, true⟩,
   ⟨Reg.PIC_ADMIT_CNT, 0, 1, 0x0, 0x0, 0x0, 0x0, true⟩,
   ⟨0xB0104, 4, 5, 0x0, 0x0, 0x0, 0x0, false⟩,
   ⟨0xB0124, 4, 4, 0x0, 0x0, 0x0, 0x0, false⟩]

/-- The rows of SEQ, Tables 10.12 and 10.13 (R601). -/
def regRowsSeq : List RegRow :=
  [⟨Reg.SEQ_CFG, 0, 1, 0xF1, 0xF1, 0x0, 0x0, false⟩,
   ⟨Reg.SEQ_STATUS, 0, 1, 0x0, 0x0, 0x0, 0x0, false⟩,
   ⟨Reg.SEQ_STAB_LO, 0, 1, 0xFFF00000, 0xFFF00000, 0x0, 0x0, false⟩,
   ⟨Reg.SEQ_STAB_HI, 0, 1, 0xFF, 0xFF, 0x0, 0x0, false⟩,
   ⟨Reg.SEQ_PFX_LO, 0, 1, 0xFFF80000, 0xFFF80000, 0x0, 0x0, false⟩,
   ⟨Reg.SEQ_PFX_HI, 0, 1, 0xFF, 0xFF, 0x0, 0x0, false⟩,
   ⟨Reg.SEQ_PT_LO, 0, 1, 0xFFFFF000, 0xFFFFF000, 0x0, 0x0, false⟩,
   ⟨Reg.SEQ_PT_HI, 0, 1, 0xFF, 0xFF, 0x0, 0x0, false⟩,
   ⟨Reg.SEQ_PT_SIZE, 0, 1, 0xFFFF, 0xFFFF, 0x0, 0x0, false⟩,
   ⟨Reg.SEQ_KVTLB_INV, 0, 1, 0x0, 0x0, 0x0, 0x0, false⟩,
   ⟨Reg.SEQ_PFX_USED, 0, 1, 0x0, 0x0, 0x0, 0x0, false⟩,
   ⟨Reg.SEQ_UNW_ZERO_CNT, 0, 1, 0x0, 0x0, 0x0, 0x0, true⟩,
   ⟨Reg.SEQ_KVTLB_MISS_CNT, 0, 1, 0x0, 0x0, 0x0, 0x0, true⟩,
   ⟨Reg.SEQ_SPILL_CNT, 0, 1, 0x0, 0x0, 0x0, 0x0, true⟩,
   ⟨Reg.SEQ_BACK_CNT, 0, 1, 0x0, 0x0, 0x0, 0x0, true⟩,
   ⟨Reg.SEQ_FAR_WAIT_CNT, 0, 1, 0x0, 0x0, 0x0, 0x0, true⟩,
   ⟨Reg.SEQ_COW_CNT, 0, 1, 0x0, 0x0, 0x0, 0x0, true⟩,
   ⟨Reg.SEQ_PFX_HIT_CNT, 0, 1, 0x0, 0x0, 0x0, 0x0, true⟩,
   ⟨Reg.SEQ_PFX_FULL_CNT, 0, 1, 0x0, 0x0, 0x0, 0x0, true⟩,
   ⟨Reg.SEQ_SKIP_BLK_CNT, 0, 1, 0x0, 0x0, 0x0, 0x0, true⟩,
   ⟨Reg.SEQ_KV_FAULT_CNT, 0, 1, 0x0, 0x0, 0x0, 0x0, true⟩,
   ⟨0xC0100, 16, 4, 0xFFFFF000, 0xFFFFF000, 0x0, 0x0, false⟩,
   ⟨0xC0104, 16, 4, 0xFF, 0xFF, 0x0, 0x0, false⟩,
   ⟨0xC0108, 16, 4, 0x1FFFFF, 0x1FFFFF, 0x0, 0x0, false⟩,
   ⟨0xC010C, 16, 4, 0x0, 0x0, 0x0, 0x0, false⟩,
   ⟨0xC1000, 4, 256, 0x1FFFF, 0x1FFFF, 0x0, 0x0, false⟩,
   ⟨0xC1400, 4, 256, 0xFF, 0xFF, 0x0, 0x0, false⟩,
   ⟨0xC1800, 4, 256, 0x0, 0x0, 0x0, 0x0, false⟩]

/-- The rows of CMP, Tables 11.7 and 11.8 (R668). -/
def regRowsCmp : List RegRow :=
  [⟨Reg.CMP_CFG, 0, 1, 0x1, 0x1, 0x0, 0x0, false⟩,
   ⟨Reg.CMP_BG, 0, 1, 0x3FFFFFFF, 0x3FFFFFFF, 0x0, 0x0, false⟩,
   ⟨Reg.CMP_Z, 0, 1, 0xFFFFFF, 0xFFFFFF, 0x0, 0x0, false⟩,
   ⟨Reg.CMP_DITHER, 0, 1, 0x33, 0x33, 0x0, 0x11, false⟩,
   ⟨Reg.CMP_COMMIT, 0, 1, 0x0, 0x0, 0x0, 0x0, false⟩,
   ⟨Reg.CMP_STATUS, 0, 1, 0x0, 0x0, 0x3, 0x0, false⟩,
   ⟨Reg.CMP_FRZ_CFG, 0, 1, 0xFF, 0xFF, 0x0, 0x0, false⟩,
   ⟨Reg.CMP_FRZ_RUN, 0, 1, 0x0, 0x0, 0x0, 0x0, false⟩,
   ⟨Reg.CMP_OUT_SIG, 0, 1, 0x0, 0x0, 0x0, 0x0, false⟩,
   ⟨Reg.CMP_IN_SIG, 0, 1, 0x0, 0x0, 0x0, 0x0, false⟩,
   ⟨Reg.CMP_UR_LO, 0, 1, 0x0, 0x0, 0x0, 0x0, false⟩,
   ⟨Reg.CMP_UR_HI, 0, 1, 0x0, 0x0, 0x0, 0x0, false⟩,
   ⟨0xD0044, 4, 7, 0x0, 0x0, 0x0, 0x0, true⟩,
   ⟨Reg.CMP_ABORT_CNT, 0, 1, 0x0, 0x0, 0x0, 0x0, true⟩,
   ⟨Reg.CMP_FROZEN_CNT, 0, 1, 0x0, 0x0, 0x0, 0x0, true⟩,
   ⟨0xD1000, 0, 1, 0xFF0001, 0xFF0001, 0x0, 0xFF0001, false⟩,
   ⟨0xD1040, 64, 7, 0xFF1F07, 0xFF1F07, 0x0, 0x0, false⟩,
   ⟨0xD1044, 64, 7, 0xFFFFFFFF, 0xFFFFFFFF, 0x0, 0x0, false⟩,
   ⟨0xD1048, 64, 7, 0xFFFFFFFF, 0xFFFFFFFF, 0x0, 0x0, false⟩,
   ⟨0xD104C, 64, 7, 0xFFFFFF80, 0xFFFFFF80, 0x0, 0x0, false⟩,
   ⟨0xD1050, 64, 7, 0xFF, 0xFF, 0x0, 0x0, false⟩,
   ⟨0xD1054, 64, 7, 0xFFFFFF80, 0xFFFFFF80, 0x0, 0x0, false⟩,
   ⟨0xD1058, 64, 7, 0xFF, 0xFF, 0x0, 0x0, false⟩,
   ⟨0xD105C, 64, 7, 0xFFFFFFFF, 0xFFFFFFFF, 0x0, 0x0, false⟩]

/-- The rows of SCN, Tables 11.7 and 11.9 (R668). -/
def regRowsScn : List RegRow :=
  [⟨Reg.SCN_CFG, 0, 1, 0x3, 0x3, 0x0, 0x0, false⟩,
   ⟨Reg.SCN_STATUS, 0, 1, 0x0, 0x0, 0x1, 0x0, false⟩,
   ⟨Reg.SCN_HTIM0, 0, 1, 0xFFFFFFFF, 0xFFFFFFFF, 0x0, 0xB00F00, false⟩,
   ⟨Reg.SCN_HTIM1, 0, 1, 0xFFFFFFFF, 0xFFFFFFFF, 0x0, 0x1280058, false⟩,
   ⟨Reg.SCN_VTIM0, 0, 1, 0xFFFFFFFF, 0xFFFFFFFF, 0x0, 0x80870, false⟩,
   ⟨Reg.SCN_VTIM1, 0, 1, 0xFFFFFFFF, 0xFFFFFFFF, 0x0, 0x48000A, false⟩,
   ⟨Reg.SCN_TIM_CTL, 0, 1, 0x303FFFF, 0x303FFFF, 0x0, 0xEA60, false⟩,
   ⟨Reg.SCN_PR_CTL, 0, 1, 0x100, 0x100, 0x0, 0x0, false⟩,
   ⟨Reg.SCN_PR_STATUS, 0, 1, 0x0, 0x0, 0x0, 0x0, false⟩,
   ⟨Reg.SCN_PR_CNT, 0, 1, 0x0, 0x0, 0x0, 0x0, true⟩,
   ⟨Reg.SCN_AUX_CTL, 0, 1, 0xFF2, 0x0, 0x0, 0x0, false⟩,
   ⟨Reg.SCN_AUX_ADDR, 0, 1, 0xFFFFF, 0x0, 0x0, 0x0, false⟩,
   ⟨Reg.SCN_AUX_STATUS, 0, 1, 0x0, 0x0, 0x0, 0x0, false⟩,
   ⟨0xE0050, 4, 4, 0xFFFFFFFF, 0x0, 0x0, 0x0, false⟩,
   ⟨0xE0100, 0, 1, 0x11771, 0x11771, 0x0, 0x471, false⟩,
   ⟨0xE0200, 0, 1, 0x11771, 0x11771, 0x0, 0x470, false⟩,
   ⟨0xE0104, 256, 2, 0x0, 0x0, 0x4000, 0x0, false⟩,
   ⟨0xE0108, 256, 2, 0x0, 0x0, 0x0, 0x0, false⟩,
   ⟨0xE010C, 256, 2, 0x0, 0x0, 0x0, 0x0, false⟩,
   ⟨0xE0110, 256, 2, 0x0, 0x0, 0x0, 0x0, true⟩,
   ⟨0xE0114, 256, 2, 0x0, 0x0, 0x0, 0x0, true⟩,
   ⟨0xE0118, 256, 2, 0x0, 0x0, 0x0, 0x0, true⟩,
   ⟨0xE0120, 4, 4, 0x0, 0x0, 0x0, 0x0, true⟩,
   ⟨0xE0220, 4, 4, 0x0, 0x0, 0x0, 0x0, true⟩]

/-- The rows of PWR, Tables 12.10 and 12.11 (R720). -/
def regRowsPwr : List RegRow :=
  [⟨Reg.PWR_STATUS, 0, 1, 0x0, 0x0, 0x0, 0x0, false⟩,
   ⟨Reg.PWR_LIMIT, 0, 1, 0xFFFFFFFF, 0xFFFFFFFF, 0x0, 0x486E3C, false⟩,
   ⟨Reg.PWR_THR_CFG, 0, 1, 0xFFFFFF3F, 0xFFFFFF3F, 0x0, 0x69641404, false⟩,
   ⟨Reg.PWR_STEER, 0, 1, 0xFFFFFFFF, 0xFFFFFFFF, 0x0, 0x14020A0F, false⟩,
   ⟨Reg.PWR_PRESS_CFG, 0, 1, 0x8000007F, 0x8000007F, 0x0, 0x80000028, false⟩,
   ⟨Reg.PWR_STR_CFG, 0, 1, 0x80FFFF7F, 0x80FFFF7F, 0x0, 0x403C, false⟩,
   ⟨Reg.PWR_PMB_CFG, 0, 1, 0xFFFFFF7F, 0xFFFFFF7F, 0x0, 0x60A0000, false⟩,
   ⟨Reg.PWR_PR_CFG, 0, 1, 0xFFFF0003, 0xFFFF0003, 0x0, 0x0, false⟩,
   ⟨0xF0020, 0, 1, 0x0, 0x0, 0x0, 0x2C802EE, false⟩,
   ⟨0xF0024, 0, 1, 0x0, 0x0, 0x0, 0x2710294, false⟩,
   ⟨0xF0028, 0, 1, 0x0, 0x0, 0x0, 0x22D0244, false⟩,
   ⟨Reg.PWR_SETPT, 0, 1, 0x0, 0x0, 0x0, 0x2EE, false⟩,
   ⟨Reg.PWR_TJ, 0, 1, 0x0, 0x0, 0x0, 0x0, false⟩,
   ⟨Reg.PWR_CUR, 0, 1, 0x0, 0x0, 0x0, 0x0, false⟩,
   ⟨Reg.PWR_PKG, 0, 1, 0x0, 0x0, 0x0, 0x0, false⟩,
   ⟨Reg.PWR_FAULT, 0, 1, 0x0, 0x0, 0x10FFFF, 0x80000, false⟩,
   ⟨Reg.PWR_PATH, 0, 1, 0x0, 0x0, 0xFFFF, 0x0, false⟩,
   ⟨Reg.PWR_PMB_CMD, 0, 1, 0x17FF, 0x0, 0x0, 0x0, false⟩,
   ⟨Reg.PWR_PMB_DATA, 0, 1, 0xFFFFFFFF, 0x0, 0x0, 0x0, false⟩,
   ⟨Reg.PWR_PMB_STATUS, 0, 1, 0x0, 0x0, 0x0, 0x0, false⟩,
   ⟨Reg.PWR_PRESS_TOT_CNT, 0, 1, 0x0, 0x0, 0x0, 0x0, true⟩,
   ⟨Reg.PWR_STR_CNT, 0, 1, 0x0, 0x0, 0x0, 0x0, true⟩,
   ⟨Reg.PWR_STR_CCLK_CNT, 0, 1, 0x0, 0x0, 0x0, 0x0, true⟩,
   ⟨Reg.PWR_STEP_CNT, 0, 1, 0x0, 0x0, 0x0, 0x0, true⟩,
   ⟨Reg.PWR_AVS_ERR_CNT, 0, 1, 0x0, 0x0, 0x0, 0x0, true⟩,
   ⟨Reg.PWR_PMB_ERR_CNT, 0, 1, 0x0, 0x0, 0x0, 0x0, true⟩,
   ⟨Reg.PWR_SENSOR_BAD_CNT, 0, 1, 0x0, 0x0, 0x0, 0x0, true⟩,
   ⟨Reg.PWR_PATH_CNT, 0, 1, 0x0, 0x0, 0x0, 0x0, true⟩,
   ⟨0xF00A0, 4, 7, 0x0, 0x0, 0x0, 0x0, false⟩,
   ⟨0xF0100, 4, 16, 0xFFFF, 0xFFFF, 0x0, 0x0, false⟩,
   ⟨0xF0140, 8, 16, 0x0, 0x0, 0x0, 0x0, false⟩,
   ⟨0xF0144, 8, 16, 0x0, 0x0, 0x0, 0x0, false⟩,
   ⟨0xF0200, 4, 64, 0x0, 0x0, 0x0, 0x0, true⟩,
   ⟨0xF0400, 4, 256, 0x0, 0x0, 0x0, 0x0, false⟩,
   ⟨0xF0800, 4, 40, 0x0, 0x0, 0x0, 0x0, false⟩]

/-- The rows of RIN, Tables 12.10 and 12.11 (R720). -/
def regRowsRin : List RegRow :=
  [⟨Reg.RIN_CFG, 0, 1, 0xFFFF003F, 0xFFFF003F, 0x0, 0xC8700020, false⟩,
   ⟨Reg.RIN_STATUS, 0, 1, 0x0, 0x0, 0x1, 0x0, false⟩,
   ⟨Reg.RIN_TARGET, 0, 1, 0xFFFFFFFF, 0xFFFFFFFF, 0x0, 0x2580064, false⟩,
   ⟨Reg.RIN_FLASH_BAD, 0, 1, 0x0, 0x0, 0x0, 0x0, false⟩,
   ⟨Reg.RIN_CAL_PASS_CNT, 0, 1, 0x0, 0x0, 0x0, 0x0, true⟩,
   ⟨Reg.RIN_CAL_STARVE_CNT, 0, 1, 0x0, 0x0, 0x0, 0x0, true⟩,
   ⟨Reg.RIN_FLASH_PASS_CNT, 0, 1, 0x0, 0x0, 0x0, 0x0, true⟩,
   ⟨Reg.RIN_FLASH_STARVE_CNT, 0, 1, 0x0, 0x0, 0x0, 0x0, true⟩,
   ⟨Reg.RIN_FLASH_BAD_CNT, 0, 1, 0x0, 0x0, 0x0, 0x0, true⟩,
   ⟨Reg.RIN_PMB_LATE_CNT, 0, 1, 0x0, 0x0, 0x0, 0x0, true⟩,
   ⟨Reg.RIN_SNAP_CNT, 0, 1, 0x0, 0x0, 0x0, 0x0, true⟩,
   ⟨Reg.RIN_SNAP_STAMP_LO, 0, 1, 0x0, 0x0, 0x0, 0x0, false⟩,
   ⟨Reg.RIN_SNAP_STAMP_HI, 0, 1, 0x0, 0x0, 0x0, 0x0, false⟩,
   ⟨0x110110, 4, 12, 0x0, 0x0, 0x0, 0x0, false⟩]

/-- The rows of SLV, Tables 13.8 and 13.9 (R768). -/
def regRowsSlv : List RegRow :=
  [⟨Reg.SLV_CFG, 0, 1, 0xFF, 0xFF, 0x0, 0x0, false⟩,
   ⟨Reg.SLV_STATUS, 0, 1, 0x0, 0x0, 0xE000, 0x0, false⟩,
   ⟨Reg.SLV_STRIP_CFG, 0, 1, 0x13F3F, 0x13F3F, 0x0, 0x0, false⟩,
   ⟨Reg.SLV_TIME, 0, 1, 0x0, 0x0, 0x0, 0x7, false⟩,
   ⟨Reg.SLV_TIME_ERR, 0, 1, 0x0, 0x0, 0x0, 0x0, false⟩,
   ⟨Reg.SLV_REACH, 0, 1, 0x0, 0x0, 0x0, 0x0, false⟩,
   ⟨Reg.SLV_STRIP_MISS_CNT, 0, 1, 0x0, 0x0, 0x0, 0x0, true⟩,
   ⟨Reg.SLV_STRIP_PAD_CNT, 0, 1, 0x0, 0x0, 0x0, 0x0, true⟩,
   ⟨Reg.SLV_STRIP_LATE_CNT, 0, 1, 0x0, 0x0, 0x0, 0x0, true⟩,
   ⟨Reg.SLV_PARENT_CNT, 0, 1, 0x0, 0x0, 0x0, 0x0, true⟩,
   ⟨Reg.SLV_COLL_FAIL_CNT, 0, 1, 0x0, 0x0, 0x0, 0x0, true⟩,
   ⟨Reg.SLV_BAD_FLIT_CNT, 0, 1, 0x0, 0x0, 0x0, 0x0, true⟩,
   ⟨0x100040, 4, 16, 0xFFFF, 0xFFFF, 0x0, 0x0, false⟩,
   ⟨0x100080, 4, 16, 0x800003FF, 0x800003FF, 0x0, 0x0, false⟩,
   ⟨0x100100, 64, 4, 0x0, 0x0, 0x0, 0x0, false⟩,
   ⟨0x100104, 64, 4, 0x0, 0x0, 0x0, 0x0, false⟩,
   ⟨0x100108, 64, 4, 0x0, 0x0, 0x0, 0x0, false⟩,
   ⟨0x10010C, 64, 4, 0x0, 0x0, 0x0, 0x0, true⟩,
   ⟨0x100110, 64, 4, 0x0, 0x0, 0x0, 0x0, true⟩,
   ⟨0x100114, 64, 4, 0x0, 0x0, 0x0, 0x0, true⟩]

/-- The rows of a 64 KiB block by its number (offset / 0x1_0000), Table 16.1; an offset in no row is
reserved (R827). -/
def regRowsOf (block : Nat) : List RegRow :=
  match block with
  | 0 => regRowsHif
  | 1 => regRowsImg
  | 2 => regRowsTrd
  | 3 => regRowsTen
  | 4 => regRowsQrg
  | 5 => regRowsHed
  | 6 => regRowsLom
  | 7 => regRowsSpl
  | 8 => regRowsDmc
  | 9 => regRowsSht
  | 10 => regRowsMmu
  | 11 => regRowsPic
  | 12 => regRowsSeq
  | 13 => regRowsCmp
  | 14 => regRowsScn
  | 15 => regRowsPwr
  | 17 => regRowsRin
  | 16 => regRowsSlv
  | _ => []

/-- A row holds an offset when the offset is one of its registers (R826). -/
def RegRow.holds (r : RegRow) (off : Nat) : Bool :=
  if r.count = 1 then off == r.first
  else decide (r.first ≤ off) && (off - r.first) % r.stride == 0 && decide ((off - r.first) / r.stride < r.count)

/-- The row of an offset of PF BAR0, none for a reserved offset (R827). -/
def regRow? (off : Nat) : Option RegRow :=
  (regRowsOf (off / 0x10000)).find? (fun r => r.holds off)

/-- The value a register holds at the release of RESET_N: its reset value, and for an "img" field its
factory value (R15); SEQ_DOMAIN(t) holds t (Table 10.13). -/
def regReset (off : Nat) : Nat :=
  match regRow? off with
  | some r => if r.first = Reg.SEQ_DOMAIN 0 then (off - r.first) / 4 else r.reset
  | none => 0

end Sys2Proof.Machine
end

