-- ==== Sys2Proof/Machine/Table.lean ====
section
/-! DEFINITION. Sparse tables in one canonical form: keys strictly rising, and no entry equal to what
an unlisted key reads as. Registers, memories and per-tenant records are held this way, so that equal
contents are equal data. -/

namespace Sys2Proof.Machine

/-- A sparse table of keys and values. -/
abbrev Tbl (α : Type) := List (Nat × α)

/-- The value at a key; `d` gives what an unlisted key reads as. -/
def tblGet {α : Type} (d : Nat → α) : Tbl α → Nat → α
  | [], k => d k
  | (j, v) :: t, k => if j = k then v else tblGet d t k

/-- Put a value at a key without regard to the default: keys stay in rising order. -/
def tblPut {α : Type} : Tbl α → Nat → α → Tbl α
  | [], k, v => [(k, v)]
  | (j, w) :: t, k, v =>
    if k < j then (k, v) :: (j, w) :: t
    else if k = j then (k, v) :: t
    else (j, w) :: tblPut t k v

/-- Take a key out. -/
def tblDel {α : Type} (t : Tbl α) (k : Nat) : Tbl α :=
  t.filter (fun e => e.1 ≠ k)

/-- Write a value: a value equal to what the key reads as unlisted takes the entry out. -/
def tblSet {α : Type} [DecidableEq α] (d : Nat → α) (t : Tbl α) (k : Nat) (v : α) : Tbl α :=
  if v = d k then tblDel t k else tblPut t k v

/-- The canonical form. -/
def tblWf {α : Type} [DecidableEq α] (d : Nat → α) (t : Tbl α) : Bool :=
  decide (t.Pairwise (fun a b => a.1 < b.1)) && t.all (fun e => decide (e.2 ≠ d e.1))

/-- The entry of a key of an optional table (records that exist or do not). -/
def tblFind {α : Type} : Tbl α → Nat → Option α
  | [], _ => none
  | (j, v) :: t, k => if j = k then some v else tblFind t k

/-- Write `n` values from key `k` upwards. -/
def tblSetList {α : Type} [DecidableEq α] (d : Nat → α) (t : Tbl α) (k : Nat) : List α → Tbl α
  | [] => t
  | v :: vs => tblSetList d (tblSet d t k v) (k + 1) vs

/-- Read `n` values from key `k` upwards. -/
def tblGetList {α : Type} (d : Nat → α) (t : Tbl α) (k : Nat) : Nat → List α
  | 0 => []
  | n + 1 => tblGet d t k :: tblGetList d t (k + 1) n

end Sys2Proof.Machine
end

