-- ==== Sys2Proof/Machine/State.lean ====
section
/-! DEFINITION. The state of the block: every register, memory, buffer, counter, mode and pin the spec gives
it, as plain data, with the queue of waiting commands; the reasons a step can stop; and the state after reset. -/

namespace Sys2Proof.Machine

/-- The block has no fault: no rule of the spec stops the device on a command. The type is closed and empty of
reasons but for the one a reader of the host's interface expects. -/
inductive Fault where
  /-- Raised by no meaning: the spec names no condition that stops the whole device for good (safe). -/
  | none
  deriving DecidableEq, Repr

/-- Why a command is refused. -/
inductive Refusal where
  /-- A command whose meaning is not written yet, by its mnemonic (safe: nothing is claimed of it). -/
  | notModelled (mnemonic : String)
  deriving DecidableEq, Repr

/-- A request on the flash port: reset-enable (0x66), reset (0x99), the SFDP read (0x5A), an array read (0x13 with a 4-byte address in
single-lane mode, the read that SFDP gives in octal DTR), a program or an erase (R75 to R77, Table 2.19). -/
inductive FlashReq where
  | resetEnable | reset | sfdp
  | read (addr len : Nat)
  | program (addr : Nat) (data : List Byte)
  | erase (addr len : Nat)
  deriving DecidableEq, Repr

/-- The command byte of a request, where the spec gives one; `octal` tells octal DTR at 200 MHz from single-lane SPI at 25 MHz. -/
def FlashReq.code (octal : Bool) : FlashReq → Option Nat
  | .resetEnable => some 0x66
  | .reset => some 0x99
  | .sfdp => some 0x5A
  | .read _ _ => if octal then none else some 0x13
  | .program _ _ => none
  | .erase _ _ => none

/-- What the block sends to the outside: transactions, messages and frames, as the rules name them. -/
inductive OutMsg where
  /-- the answer to a read of a register or of a word of a tenant window. -/
  | readDone (master : Master) (target : RegAddr) (value : Word)
  /-- a request on the flash port, in octal DTR or single-lane mode. -/
  | flash (octal : Bool) (req : FlashReq)
  /-- the level of THERMTRIP_N, asserted or not (R705). -/
  | thermtrip (on : Bool)
  /-- the completion of a configuration request, with or without Retry Status (R66, R143). -/
  | configDone (fn : Nat) (off : Nat) (data : Word) (retry : Bool)
  /-- an Unsupported Request completion (R145). -/
  | unsupported
  /-- a completion of a BAR2 read (R842). -/
  | bar2Data (data : List Byte)
  /-- a PTM Request, the first or the second of its dialogue (R148). -/
  | ptmRequest (second : Bool)
  /-- SB_MISO is driven from here on, or is high-impedance (R158). -/
  | sbMiso (driven : Bool)
  /-- the answer bytes of a sideband READ or STATUS frame (R151). -/
  | sbAnswer (status : Nat) (data : Word) (crc : Nat)
  /-- a completion of a register access of another size: that many zero bytes (R18). -/
  | zeroData (len : Nat)
  /-- the byte a sideband STATUS frame returns (R151). -/
  | sbStatusByte (status : Nat)
  /-- a Memory Read request with a function's routing ID (R174). -/
  | hostRead (fn addr len : Nat)
  /-- a Memory Write request with a function's routing ID (R174, R199). -/
  | hostWrite (fn addr : Nat) (data : List Byte)
  /-- an MSI-X message of a function's vector (R221). -/
  | msix (fn vec addr : Nat) (data : Word)
  /-- a ZQ latch inside a refresh window (R355). -/
  | zqLatch (chan : Nat)
  /-- a line sent on a DisplayPort port, of a frame marked for capture or not, each pixel its R, G and B codes (R634, R644, R655). -/
  | videoLine (port frame line : Nat) (capture : Bool) (pixels : List (Nat × Nat × Nat))
  /-- the transmit lanes of a port enter electrical idle (R639). -/
  | lanesIdle (port : Nat)
  /-- a port ends the line in progress with blanking (R652). -/
  | lineCut (port : Nat)
  /-- an AUX request (R642). -/
  | auxRequest (port cmd addr len : Nat) (data : List Byte)
  /-- a port starts link training (R635). -/
  | linkTrain (port : Nat)
  /-- an AVSBus voltage write with commit (R675, R676). -/
  | avsWrite (mv : Nat)
  /-- a PMBus transaction at an address (R679, R680, R682). -/
  | pmbus (addr code : Nat) (read : Bool) (data : List Byte)
  /-- a flit sent on a Selvage port, and whether its data is darned (R731, R757). -/
  | flit (port : Nat) (bytes : List Byte) (darn : Bool)
  deriving DecidableEq, Repr

/-- One sent message and the CCLK in which it begins. -/
structure Out where
  cclk : Nat
  msg  : OutMsg
  deriving DecidableEq, Repr

/-- The correction of the present frame's line count (R26). -/
inductive LineFix where
  | none | append | drop
  deriving DecidableEq, Repr

/-- The repeat modes of Table 1.3. -/
inductive SlotMode where
  | once | perLine | perFrame | everyN
  deriving DecidableEq, Repr

/-- What an armed slot's comparator holds (R45): its next target, mode, period in picks, action code and
argument; `matched` from the match until the firing. `line0`, `pick0`, `cyc0` are the loaded stamp
fields, from which the points of a repeating series follow. -/
structure Comparator where
  target  : Stamp
  mode    : SlotMode
  period  : Nat
  action  : Nat
  arg     : Nat
  line0   : Nat
  pick0   : Nat
  cyc0    : Nat
  matched : Bool
  deriving DecidableEq, Repr

/-- A matched slot whose action is due (R36): the CCLK of the action, the comparator as it matched, and for a slot that a frame-abort has
skipped the start of the frame in which its series goes on (R61). -/
structure Due where
  slot  : Nat
  cclk  : Nat
  comp  : Comparator
  from_ : Option Stamp
  deriving DecidableEq, Repr

/-- Why a frame-abort is to be made (chapter 1, "Frame-abort catch-up"). -/
inductive AbortCause where
  | underrun | devReset | realign
  deriving DecidableEq, Repr

/-- The Treadle: CCLK since the release of RESET_N (the model's own count) and the time they took in parts of a microsecond, the stamp, the timing in use, the
reference in use and what is pending, lock observations, the line boundaries left before a REALIGN abort, abort causes not
yet taken, the firings of the present CCLK with the GPIO levels before them (R52), comparators, due firings, the catch-up queue, FSYNC_OUT,
GPIO and the NOW_HI latches. `dropNext` is a line to be dropped from the next frame, `prevLines` the line count of the frame before;
`hsAge` the lines begun since the last line with an HSYNC_IN edge and `vsAge` the frames begun since the last VSYNC_IN edge on a wrong
line, both counted to 2; `gpioOwned` the pins that are outputs in this CCLK; `late` the values still in force of registers written in it. -/
structure Trd where
  cclk       : Nat
  time       : Nat
  now        : Stamp
  timing     : Timing
  lineFix    : LineFix
  dropNext   : Bool
  prevLines  : Nat
  restart    : Bool
  refUse     : Nat
  refPend    : Option Nat
  hsGood     : Nat
  hsBad      : Nat
  hsAge      : Nat
  vsOk       : Bool
  vsBad      : Nat
  vsAge      : Nat
  realign    : Option Nat
  comps      : List (Nat × Comparator)
  due        : List Due
  catchq     : List Due
  catchNext  : Nat
  abortWant  : List AbortCause
  abortAt    : Nat
  fsync      : Bool
  pulseEnd   : Option Nat
  fsyncFree  : Bool
  gpioLevel  : BitVec 16
  gpioOwned  : BitVec 16
  late       : Tbl Word
  firedCclk  : Nat
  fired      : List (Nat × Comparator)
  gpioBase   : BitVec 16
  nowHiPcie  : Nat
  nowHiSb    : Nat
  deriving DecidableEq, Repr

/-- The Treadle right after the release of RESET_N (R28, R29). -/
def Trd.reset : Trd :=
  { cclk := 0, time := 0, now := ⟨0, 0, 0, 0⟩, timing := Timing.boot, lineFix := .none, dropNext := false, prevLines := Timing.boot.vTotal,
    restart := true, refUse := 0, refPend := none, hsGood := 0, hsBad := 0, hsAge := 2, vsOk := false, vsBad := 0, vsAge := 2, realign := none,
    comps := [], due := [], catchq := [], catchNext := 0, abortWant := [], abortAt := 0, fsync := false, pulseEnd := none,
    fsyncFree := false, gpioLevel := 0, gpioOwned := 0, late := [], firedCclk := 0,
    fired := [], gpioBase := 0, nowHiPcie := 0, nowHiSb := 0 }
/-- The fuses (R104, Tables 2.18, 3.2 and 3.3): variant, signature enforcement, public-key hash (empty when blank), die stepping, the
fused-enabled looms and spares, the subsystem identifiers and the 64-bit die identifier. -/
structure Fuses where
  wall    : Bool
  sigEnf  : Bool
  pkh     : List Byte
  step    : Nat
  enabled : List Nat
  spares  : List Nat
  subVendor : Nat
  subId   : Nat
  serial  : Nat
  deriving DecidableEq, Repr

/-- The fuses of the part that State.reset is: the wall variant, with its key hash blank and its identifiers unfused. -/
def Fuses.reset : Fuses :=
  { wall := true, sigEnf := false, pkh := [], step := 0, enabled := List.range 32, spares := [32, 33], subVendor := 0x1F3E, subId := 0,
    serial := 0 }

/-- A flash command under way: its operation code, address and the 256-byte buffer as it was written (R116, Table 2.19). -/
structure FlashCmd where
  op   : Nat
  addr : Nat
  data : List Byte
  deriving DecidableEq, Repr

/-- One entry of a WALL section (Table 2.10). -/
structure WallEntry where
  chip : Nat
  x    : Nat
  y    : Nat
  en   : Bool
  deriving DecidableEq, Repr

/-- The mesh a WALL section describes (Table 2.10). -/
structure Wall where
  width   : Nat
  height  : Nat
  master  : Nat
  entries : List WallEntry
  deriving DecidableEq, Repr

/-- A NETWORK section that has loaded with a good hash (Table 2.11): its place in the section table, its header, and its address. -/
structure Network where
  index     : Nat
  stage     : Nat
  rung      : Nat
  cut       : Nat
  factor    : Nat
  macCycles : Nat
  bytes     : Nat
  weightOff : Nat
  weightLen : Nat
  addr      : Nat
  deriving DecidableEq, Repr

/-- Start-up (chapter 2): fuses, flash, straps; whether RESET_N is asserted, whether the power detector acts (R800), whether the thermal trip has
stopped the clocks, and whether THERMTRIP_N is asserted (R705); boot
steps done; the slots tried and the one accepted; the next section to stream and the networks that have loaded; the flash
command in progress; whether a reload waits for it; the mesh; the frame in which the loaded timing takes effect, and whether
the boot timing is still in use; whether the whole network load is done; whether a commit has been made, and whether its image supplied PERIOD and
PERIOD_HOT (R356); and the levels at which HSYNC_IN and VSYNC_IN last emerged (R20, R831). -/
structure Boot where
  fuses       : Fuses
  flash       : Tbl Byte
  bootMode    : BitVec 3
  chipId      : BitVec 4
  inReset     : Bool
  powerLow    : Bool
  tripped     : Bool
  thermtrip   : Bool
  fusesRead   : Bool
  sramZero    : Bool
  tried       : List Nat
  slot        : Option Nat
  netNext     : Nat
  networks    : List Network
  loaded      : Bool
  flCmd       : Option FlashCmd
  restartWait : Bool
  wall        : Option Wall
  switchAt    : Option Nat
  bootTiming  : Bool
  committed   : Bool
  refImage    : Bool × Bool
  hsyncIn     : Bool
  vsyncIn     : Bool
  deriving DecidableEq, Repr

/-- A part with nothing in its flash. -/
def Boot.reset : Boot :=
  { fuses := Fuses.reset,
    flash := [], bootMode := 0, chipId := 0, inReset := false, powerLow := false, tripped := false, thermtrip := false, fusesRead := false, sramZero := false,
    tried := [], slot := none, netNext := 0, networks := [], loaded := false, flCmd := none, restartWait := false,
    wall := none, switchAt := none, bootTiming := true, committed := false,
    refImage := (false, false), hsyncIn := false, vsyncIn := false }

/-- What configuration space holds of one function and the block acts on: Bus Master and Memory Space Enable, MSI-X
Enable and Function Mask, the AER status of R144, and the enables of ECRC generation and check (Table 3.1). -/
structure FnCfg where
  bme      : Bool
  mse      : Bool
  msixEn   : Bool
  msixMask : Bool
  poisoned : Bool
  ecrcGen  : Bool
  ecrcChk  : Bool
  deriving DecidableEq, Repr

def FnCfg.reset : FnCfg :=
  { bme := false, mse := false, msixEn := false, msixMask := false, poisoned := false, ecrcGen := false, ecrcChk := false }

/-- The completions that keep a distance of one CCLK from the one before: register reads (R140), and those of one BAR2 read, its first
told apart (R842). -/
inductive Chain where
  | none | register | bar2 (first : Bool)
  deriving DecidableEq, Repr

/-- A transaction that waits to begin transmission: the message, the function whose Bus Master Enable it needs (none for a
completion), the CCLK before which it does not begin, the vector of the event its transmission commits (R202), and the completions
it follows. -/
structure Tlp where
  msg    : OutMsg
  fn     : Option Nat
  after  : Nat
  event  : Option Nat
  chain  : Chain
  deriving DecidableEq, Repr

/-- A BAR2 read in hand: its device address and length, and how many bytes have been returned (R842). -/
structure Bar2Read where
  addr    : Nat
  len     : Nat
  sent    : Nat
  deriving DecidableEq, Repr

/-- The host interface: its readiness (R66), configuration space, the addresses its BARs hold, transactions held, credit for
transactions that may begin (R142), the CCLK in which the last register-read and the last BAR2 completion began (R140, R842), BAR2
reads, the stamp of the second request of the PTM dialogue in progress, the status the sideband STATUS frame returns, the last register
requests of PCI Express, each by the CCLK 24 after its emergence (R839), and the CCLK in which the register file's write port and its
read port were last used (R160). -/
structure Hif where
  hostReady  : Bool
  perstIn    : Bool
  numVfs     : Nat
  vfEnable   : Bool
  vfsOn      : Nat
  pageSize   : Nat
  ari        : Bool
  vfMse      : Bool
  bar2Log    : Nat
  ptmEnable  : Bool
  mps        : Nat
  mrrs       : Nat
  fns        : Tbl FnCfg
  bars       : Tbl Word
  held       : List Tlp
  credit     : Nat
  lastRead   : Nat
  lastBar2   : Nat
  bar2       : List Bar2Read
  ptm        : Option Stamp
  sbStatus   : Nat
  pcieAt     : List Nat
  wrAt       : Option Nat
  rdAt       : Option Nat
  deriving DecidableEq, Repr

/-- The host interface at reset: PERST_N asserted, BAR2 at 256 MiB (R135), page size 4 KiB, Max Payload Size 128 and Max Read Request
Size 512 as the base specification resets them. -/
def Hif.reset : Hif :=
  { hostReady := false, perstIn := true, numVfs := 0, vfEnable := false, vfsOn := 0, pageSize := 1, ari := false,
    vfMse := false, bar2Log := 28, ptmEnable := false, mps := 128, mrrs := 512, fns := [], bars := [], held := [], credit := 0,
    lastRead := 0, lastBar2 := 0, bar2 := [], ptm := none, sbStatus := 0, pcieAt := [], wrAt := none, rdAt := none }
/-- A ring's profile, set by LOOM_CFG (Table 5.7). -/
structure Profile where
  trunc    : Bool
  sat      : Bool
  ftz      : Bool
  constLen : Nat
  constPtr : Nat
  deriving DecidableEq, Repr

/-- The profile ring enable leaves (R263). -/
def Profile.zero : Profile := { trunc := false, sat := false, ftz := false, constLen := 0, constPtr := 0 }

/-- What a ring holds beside its QRG registers: ERR (R187), descriptor reads in flight, the CCLK from which the
next read may issue (R184), the profile (R263), and whether its last read was refused for room (R258). -/
structure Ring where
  err     : Bool
  reads   : Nat
  readAt  : Nat
  profile : Profile
  refused : Bool
  deriving DecidableEq, Repr

/-- A ring with nothing in flight. -/
def Ring.idle : Ring := { err := false, reads := 0, readAt := 0, profile := Profile.zero, refused := false }

/-- Where a fetched descriptor stands. -/
inductive DescPhase where
  | waiting | running | halted | rerun
  deriving DecidableEq, Repr

/-- One loom at work on a descriptor: its logical number, its rank, the CCLK from which it may begin execution
(R268, R269), whether it loads the ring's constants before (R264), whether it has begun and in which CCLK, whether its operator's work is
done, and the CCLK after its last (R270). -/
structure Work where
  loom   : Nat
  rank   : Nat
  ready  : Nat
  loads  : Bool
  begun  : Bool
  began  : Nat
  ended  : Bool
  endsAt : Nat
  deriving DecidableEq, Repr

/-- What happens to a running descriptor that is stopped at the end of the innermost tile in progress on each of its looms: it completes with a
status and DETAIL (R215), or with FAULT_KV (R591); its tenant's drain ends it (R228); or it waits to re-execute (R450, R698). -/
inductive Stop where
  | ends (status detail : Nat) | kv | drained | reruns
  deriving DecidableEq, Repr

/-- A descriptor in the scoreboard from its fetch to its completion (R256): its ring, SEQ, tenant, place in fetch
order, 64 bytes, the profile it was fetched under, whether it is a collective record, its phase, launch
observations, the CCLK in which a WAIT_STAMP's own stamp matched, the earliest CCLK of its dispatch, the stamp, time and pick count of its
first dispatch, its looms, how it is being stopped and the CCLK of that (R215), and what its record will say. -/
structure Desc where
  ring    : Nat
  seq     : Nat
  tenant  : Nat
  order   : Nat
  bytes   : List Byte
  profile : Profile
  coll    : Bool
  phase   : DescPhase
  late    : Bool
  hit     : Bool
  waitHit : Option Nat
  dispAt  : Option Nat
  start   : Stamp
  since   : Nat
  picks   : Nat
  work    : List Work
  stop    : Option Stop
  stopAt  : Nat
  used    : Nat
  cleared : Bool
  stopped : Bool
  darned  : Bool
  status  : Nat
  detail  : Nat
  deriving DecidableEq, Repr

/-- A completion on its way to the host (R202): record bytes and address, the CCLK of issue, whether a record is
written, whether it raises an event at its commit, and whether it is a frame record's, which holds no scoreboard entry (R256, R414). -/
structure Rec where
  ring    : Nat
  seq     : Nat
  tenant  : Nat
  addr    : Nat
  data    : List Byte
  issueAt : Nat
  write   : Bool
  event   : Bool
  frame   : Bool
  deriving DecidableEq, Repr

/-- One MSI-X vector: its table entry (address, data, mask bit), event count, picks left on its timer, the CCLK at
which its message is due, the commit of the last event counted, its pending bit, and whether the cap holds it. -/
structure Vector where
  addr    : Nat
  data    : Word
  masked  : Bool
  count   : Nat
  timer   : Option Nat
  due     : Option Nat
  last    : Nat
  pending : Bool
  held    : Bool
  deriving DecidableEq, Repr

/-- A vector at reset: masked, as the PCI Express base specification resets the mask bit (PRESUMED). -/
def Vector.idle : Vector :=
  { addr := 0, data := 0, masked := true, count := 0, timer := none, due := none, last := 0, pending := false,
    held := false }

/-- The resets that drain tenants, from the narrowest to the widest (Table 4.8). -/
inductive DrainKind where
  | tenStop | vfFlr | pfFlr | perst | devReset
  deriving DecidableEq, Repr

/-- What a tenant holds beside its TEN registers: its drain in progress and the CCLK in which the last of its looms stops (R228), its DRR
deficits per class (R212), and the messages it has sent in the present frame (R225). `shut` says that its window answers no access until the drain ends
(R229). -/
structure Tenant where
  drain       : Option DrainKind
  stopsAt     : Nat
  shut        : Bool
  deficitLive : Int
  deficitBulk : Int
  sent        : Nat
  deriving DecidableEq, Repr

/-- A tenant with nothing in hand. -/
def Tenant.idle : Tenant := { drain := none, stopsAt := 0, shut := false, deficitLive := 0, deficitBulk := 0, sent := 0 }

/-- The dispatch state of one class: the DRR position, the tenant that last failed for want of looms and how often
in a row, whether the gang hold of R214 is in force for it, and the ring and SEQ of the descriptor it is in force for. -/
structure ClassState where
  pos   : Nat
  want  : Option Nat
  fails : Nat
  hold  : Bool
  held  : Option (Nat × Nat)
  deriving DecidableEq, Repr

def ClassState.idle : ClassState := { pos := 0, want := none, fails := 0, hold := false, held := none }

/-- Tenants, rings, the scoreboard and the vectors (chapters 4 and 5). -/
structure Ten where
  rings   : Tbl Ring
  tenants : Tbl Tenant
  vectors : Tbl Vector
  descs   : List Desc
  recs    : List Rec
  order   : Nat
  live    : ClassState
  bulk    : ClassState
  offered : Nat
  picks   : Nat
  deriving DecidableEq, Repr

def Ten.reset : Ten :=
  { rings := [], tenants := [], vectors := [], descs := [], recs := [], order := 0,
    live := ClassState.idle, bulk := ClassState.idle, offered := 0, picks := 0 }
/-- The service states of a physical loom, as LOM_PSTATE codes them. -/
inductive LoomState where
  | fusedOff | denied | spare | active | failing | retired
  deriving DecidableEq, Repr

/-- Who last used a loom: nobody since its islands went off (R710), the picture path, or a tenant (R290). -/
inductive Owner where
  | nobody | picture | tenant (n : Nat)
  deriving DecidableEq, Repr

/-- A physical loom: service state, logical number (32 for a loom that holds none), owner, the last tenant it served (none reads 0 in
LOM_PSTATE), whether the picture path reserves it, its current split (R236), CAUSE and the CCLK in which it was found failing, the
descriptor it works for, the constants its constant cache holds, by ring, length and address, and their bytes (R264), whether it is
gated and the CCLK in which its islands are on since it last was (R709), the tenant whose drain withholds it, whether the power ladder takes it away (R698), corrected errors in the present frame, and
picks since it was last used (R711). Of the scratchpad: the bytes known, by bank and offset (R237); what the others hold, zero or free
values by a number (R239); and the sectors whose darn bit is set (R396). Of the other caches: the operand blocks the descriptor cache holds, by
address, and whether the Bobbin instruction cache holds the firmware (R289, R291, Table 6.1). -/
structure Loom where
  state    : LoomState
  logical  : Nat
  owner    : Owner
  served   : Option Nat
  raster   : Bool
  l1q      : Nat
  cause    : Nat
  failedAt : Nat
  work     : Option (Nat × Nat)
  consts   : Option (Nat × Nat × Nat)
  constData : List Byte
  gated    : Bool
  wakeAt   : Nat
  withheld : Option Nat
  leaving  : Bool
  ceFrame  : Nat
  idle     : Nat
  scratch  : Tbl Byte
  unknown  : Option Nat
  darned   : List Nat
  blocks   : List (Nat × List Byte)
  firmware : Bool
  deriving DecidableEq, Repr

/-- A loom before R271 has numbered it. -/
def Loom.blank : Loom :=
  { state := .spare, logical := 32, owner := .nobody, served := none, raster := false, l1q := 0, cause := 0, failedAt := 0, work := none,
    consts := none, constData := [], gated := false, wakeAt := 0, withheld := none, leaving := false, ceFrame := 0, idle := 0, scratch := [], unknown := none,
    darned := [], blocks := [], firmware := false }

/-- The looms after the numbering of R271 with looms 0 to 31 fused enabled, 32 and 33 fused spares, none denied and all
passing boot BIST. -/
def loomsReset : List Loom :=
  (List.range 32).map (fun p => { Loom.blank with state := .active, logical := p }) ++ [Loom.blank, Loom.blank]
/-- The states of the directory (R312). -/
inductive DirState where
  | inv | shared | excl | modified
  deriving DecidableEq, Repr

/-- A valid Spool line: its address, whether it is dirty, its 128 bytes, its poison mark (R327), the class and
requester of its last writer (R300), its place in the order of use (R297), and its directory entry. -/
structure SLine where
  pa      : Nat
  dirty   : Bool
  data    : List Byte
  poison  : Bool
  cls     : MemClass
  writer  : Nat
  lru     : Nat
  dir     : DirState
  holders : List Nat
  deriving DecidableEq, Repr

/-- What an L1 wants a line as: not at all, read-only-near (R309), a coherent copy to read, or one to write (Table 6.4). -/
inductive L1Want where
  | no | near | read | own
  deriving DecidableEq, Repr

/-- A request that waits for a line (R302): requester index, its own tag, the bytes it merges if it is a write, whether they are darned,
its class, and what its L1 wants the line as. -/
structure Waiter where
  req    : Nat
  tag    : Nat
  write  : Option (Nat × List Byte)
  darned : Bool
  cls    : MemClass
  want   : L1Want
  deriving DecidableEq, Repr

/-- A miss register (R301): its line, class and waiters, and the number of raster ways when its fill started (R298); once the DRAM has
returned, the data, its poison and the CCLK of the fill. -/
structure Mshr where
  pa      : Nat
  cls     : MemClass
  waiters : List Waiter
  rasWays : Nat
  data    : Option (List Byte)
  poison  : Bool
  fillAt  : Nat
  deriving DecidableEq, Repr

/-- A miss held at a slice's input for want of a miss register (R305). -/
structure HeldMiss where
  pa     : Nat
  waiter : Waiter
  deriving DecidableEq, Repr

/-- The accesses a DRAM slot can carry (R340, R331); `zero` is a write of a granule's zero fill (R323). -/
inductive DramKind where
  | read | write | checkRead | checkWrite | zero
  deriving DecidableEq, Repr

/-- A request at a channel: what it carries, its line, class, requester, the CCLK of its arrival and its number, the raster slot assigned to it
(R345), the check read it waits for (R340), what a write
stores, and the tag of a requester that is acknowledged at the grant (R849). -/
structure DramReq where
  chan   : Nat
  kind   : DramKind
  pa     : Nat
  cls    : MemClass
  req    : Nat
  cclk   : Nat
  age    : Nat
  slot   : Option Nat
  waits  : Option Nat
  data   : List Byte
  poison : Bool
  ack    : Option Nat
  deriving DecidableEq, Repr

/-- A granted DRAM read on its way back: what it reads and its age as a request, the CCLK of its grant and its count (R342, R354, R773). -/
structure Flight where
  chan    : Nat
  kind    : DramKind
  age     : Nat
  pa      : Nat
  grantAt : Nat
  count   : Nat
  penalty : Bool
  deriving DecidableEq, Repr

/-- A check line in a channel's check cache (R340). -/
structure CheckLine where
  chan  : Nat
  cline : Nat
  dirty : Bool
  cls   : MemClass
  req   : Nat
  lru   : Nat
  deriving DecidableEq, Repr

/-- A granule's zero fill under way and the write-backs that wait for it (R323). -/
structure ZeroFill where
  granule : Nat
  wbs     : List DramReq
  deriving DecidableEq, Repr

/-- What a channel keeps of its schedules: its next slot (R341), the slots its refresh window blocks (R348), whether that
window may stand on assigned raster slots (R354), twice the time its last window started at (R353), the pick boundary of its next window, its hot state, the frames of its
last MR4 read and first window, its scrub position, the frame its pass began in, whether the pass is counted as starved,
and a corrected line that the scrub will write back. -/
structure Channel where
  slot       : Nat
  blockFrom  : Nat
  blockUntil : Nat
  opened     : Nat
  next       : Nat
  hot        : Bool
  frame      : Option Nat
  scrub      : Nat
  passFrom   : Nat
  starved    : Bool
  scrubBack  : Bool
  deriving DecidableEq, Repr

def Channel.reset : Channel :=
  { slot := 0, blockFrom := 0, blockUntil := 0, opened := 0, next := 0, hot := false, frame := none, scrub := 0, passFrom := 0,
    starved := false, scrubBack := false }

/-- A line an L1 holds: coherent or read-only-near, its data as the L1 received it, and its darn mark. -/
structure L1Line where
  loom : Nat
  pa   : Nat
  coh  : Bool
  data : List Byte
  darn : Bool
  deriving DecidableEq, Repr

/-- A line in a loom's write-back buffer until its eviction is acknowledged (R315). -/
structure WbLine where
  loom : Nat
  pa   : Nat
  data : Option (List Byte)
  deriving DecidableEq, Repr

/-- What a directory transaction does when the snooped holder answers (Table 6.4); `later` is a request that waits for
the transactions of its line before it, and `evict` an eviction that does (R313). -/
inductive DirKind where
  | read | readForWrite | recall | recallWrite | later | evict
  deriving DecidableEq, Repr

/-- A directory transaction that waits for a holder's answer, and the request it serves (R313). -/
structure DirTrans where
  pa     : Nat
  kind   : DirKind
  holder : Nat
  waiter : Waiter
  deriving DecidableEq, Repr

/-- Data delivered to a requester: the CCLK it arrives, its line and its darn mark. -/
structure Delivery where
  cclk : Nat
  req  : Nat
  tag  : Nat
  pa   : Nat
  data : List Byte
  darn : Bool
  deriving DecidableEq, Repr

/-- A TLB entry: of a loom, or of the shared TLB (none); the tenant, the page's virtual base, its size as a power of two,
its frame, write permission and place in the order of use (R360, R361). -/
structure TlbEntry where
  place  : Option Nat
  tenant : Nat
  vbase  : Nat
  bits   : Nat
  pbase  : Nat
  w      : Bool
  lru    : Nat
  deriving DecidableEq, Repr

/-- The invalidation in progress (R362, R363): the scope it has grown to, the tenant and page, the CCLK of the latest
write. -/
structure Inval where
  scope  : Nat
  tenant : Nat
  va     : Nat
  landed : Nat
  deriving DecidableEq, Repr

/-- DRAM, Spool, directory, L1 copies, DRAM schedules and the device MMU (chapter 6). `dram` lists bytes of written
granules only; `bad` lists lines stored with a check word that decodes as uncorrectable (R399); `taken` holds for each slice the CCLK
and the requester index of the last request it has taken (R306), and `slotZero` the time at which slot 0 started (R341). -/
structure Mem where
  dram     : Tbl Byte
  wmap     : List Nat
  bad      : List Nat
  spool    : Tbl SLine
  leaving  : List SLine
  use      : Nat
  mshrs    : List Mshr
  heldMiss : List HeldMiss
  queue    : List DramReq
  flights  : List Flight
  check    : List CheckLine
  zeroing  : List ZeroFill
  age      : Nat
  channels : Tbl Channel
  slotZero : Nat
  bound    : Option Nat
  l1       : List L1Line
  wb       : List WbLine
  trans    : List DirTrans
  arrived  : List Delivery
  tlb      : List TlbEntry
  inval    : Option Inval
  taken    : Tbl (Nat × Nat)
  deriving DecidableEq, Repr

def Mem.reset : Mem :=
  { dram := [], wmap := [], bad := [], spool := [], leaving := [], use := 0, mshrs := [], heldMiss := [], queue := [],
    flights := [], check := [], zeroing := [], age := 0, channels := [], slotZero := 0, bound := none, l1 := [], wb := [], trans := [],
    arrived := [], tlb := [], inval := none, taken := [] }
/-- The states of a Shuttle channel (Table 7.1). -/
inductive ChanState where
  | idle | run | held | halted | done
  deriving DecidableEq, Repr

/-- A fault a channel has met: KIND, CAUSE, ACCESS and address (Table 7.1), the CCLK and stamp of its halt. -/
structure Fault7 where
  kind   : Nat
  cause  : Nat
  write  : Bool
  va     : Nat
  cclk   : Nat
  stamp  : Stamp
  deriving DecidableEq, Repr

/-- A channel context (Table 7.1), with the descriptor it serves, its loom's rank, the physical address its next line has
translated to, the fault it has met, whether its faulting line is being translated again, and whether the events of a fault met then are still to be
raised (R392); `got` counts the bytes delivered to its buffer. -/
structure Chan where
  state     : ChanState
  raster    : Bool
  chain     : Bool
  darn      : Bool
  tenant    : Nat
  slot      : Option Nat
  dir       : Nat
  phys      : Bool
  src       : Nat
  dst       : Nat
  rowBytes  : Nat
  rowStride : Nat
  rows      : Nat
  pos       : Nat
  bufBase   : Nat
  bufLen    : Nat
  fill      : Nat
  got       : Nat
  ring      : Nat
  seq       : Nat
  rank      : Nat
  xlated    : Option Nat
  fault     : Option Fault7
  retry     : Bool
  owed      : Bool
  deriving DecidableEq, Repr

/-- An idle channel. -/
def Chan.idle : Chan :=
  { state := .idle, raster := false, chain := false, darn := false, tenant := 0, slot := none, dir := 0, phys := false,
    src := 0, dst := 0, rowBytes := 0, rowStride := 0, rows := 0, pos := 0, bufBase := 0, bufLen := 0, fill := 0, got := 0, ring := 0,
    seq := 0, rank := 0, xlated := none, fault := none, retry := false, owed := false }

/-- A fault record that is not FREE (Table 7.4); `resuming` holds the CCLK in which a RESUME landed (R389, R390). -/
structure FaultRec where
  resuming : Option Nat
  tag      : Nat
  seq      : Nat
  ring     : Nat
  loom     : Nat
  chan     : Nat
  pos      : Nat
  fault    : Fault7
  deriving DecidableEq, Repr

/-- A line on its way down a chain: the loom it has reached, its channel, the CCLK it reached it, its data and its darn mark
(R403, R404). -/
structure ChainLine where
  loom : Nat
  chan : Nat
  cclk : Nat
  data : List Byte
  darn : Bool
  deriving DecidableEq, Repr

/-- A line request a channel has issued and that is not yet delivered or acknowledged. -/
structure IssuedLine where
  loom  : Nat
  chan  : Nat
  pa    : Nat
  write : Bool
  deriving DecidableEq, Repr

/-- A far-tier read outstanding under one of the 256 tags (R408): its tenant, offset and length, the device address it
fills, and the descriptor or page move it serves. -/
structure FarRead where
  tag    : Nat
  tenant : Nat
  offset : Nat
  len    : Nat
  pa     : Nat
  ring   : Nat
  seq    : Nat
  page   : Bool
  deriving DecidableEq, Repr

/-- The Shuttles and the bandwidth regulator (chapter 7): channels by loom and number, bucket levels (an unlisted bucket is
full), the channel that issued last on each loom, fault records by tenant and slot, chained lines, far-tier reads, and
whether the bucket refill of the present pick boundary has been made; `issuer` is the CCLK and the loom of the last line issued (R368, R377). -/
structure Sht where
  chans    : Tbl Chan
  loomLvl  : Tbl Nat
  tenLvl   : Tbl Nat
  rasLvl   : Option Nat
  last     : Tbl Nat
  recs     : Tbl FaultRec
  issued   : List IssuedLine
  chain    : List ChainLine
  far      : List FarRead
  refilled : Nat
  issuer   : Option (Nat × Nat)
  deriving DecidableEq, Repr

def Sht.reset : Sht :=
  { chans := [], loomLvl := [], tenLvl := [], rasLvl := none, last := [], recs := [], issued := [], chain := [], far := [], refilled := 0, issuer := none }
/-- A 10-bit Y'CbCr pixel of L0, and whether the 32-byte sector it lies in is darned (R411, R448). -/
structure Pixel where
  y    : Nat
  cb   : Nat
  cr   : Nat
  darn : Bool
  deriving DecidableEq, Repr

/-- A record in the intake FIFO (Table 8.2): its ring, SEQ and owner, its 64 bytes, the output frames that read it, the launch
stamp of the first shed that read it, whether a line of its planes came darned, whether a newer A has been chosen, and
the status its completion will carry. -/
structure FrameRec where
  ring   : Nat
  seq    : Nat
  tenant : Nat
  bytes  : List Byte
  uses   : Nat
  first  : Option Stamp
  darned : Bool
  passed : Bool
  status : Nat
  deriving DecidableEq, Repr

/-- A row of a layer of a network that the line buffer keeps for the next shed (R444, R502): the section, the layer, the row of the destination,
and its cells with their darn bits (R448). -/
structure HaloRow where
  index : Nat
  layer : Nat
  row   : Nat
  cells : List (Nat × Bool)
  deriving DecidableEq, Repr

/-- A shed on its way or in the line buffer (R438 to R442, R447): its stamps, the records it reads, the re-time phase, whether
networks run on it, the CCLK it began in, whether it has ended and whether it was late, its network lines and its Tack
lines once they are complete, the MATRIX code they carry, and the halo rows it has left in the line buffer (R444). -/
structure Shed where
  frame    : Nat
  index    : Nat
  launch   : Stamp
  deadline : Stamp
  recA     : Option (Nat × Nat)
  recB     : Option (Nat × Nat)
  phase    : Nat
  nets     : Bool
  begun    : Option Nat
  ended    : Bool
  late     : Bool
  net      : Option (List (List Pixel))
  tack     : Option (List (List Pixel))
  mat      : Nat
  halo     : List HaloRow
  deriving DecidableEq, Repr

/-- The selection of one output frame (R423 to R431): the frame, A, B, the phase, whether it repeats the one before, and the edges
whose strip is missing (R752). -/
structure Selection where
  frame : Nat
  recA  : Option (Nat × Nat)
  recB  : Option (Nat × Nat)
  phase : Nat
  hold  : Bool
  miss  : List Nat
  deriving DecidableEq, Repr

/-- What an admission finds (R451 to R462, Table 8.10), with the configuration it was made on. -/
structure Admission where
  level     : Nat
  tackOnly  : Bool
  p0Ok      : Bool
  p1Ok      : Bool
  bytesOk   : Bool
  lbOk      : Bool
  looms     : Nat
  factor    : Nat
  need      : Nat
  capP0     : Nat
  capP1     : Nat
  bytesNeed : Nat
  bytesCap  : Nat
  cfg       : Word
  dstPos    : Word
  dstSize   : Word
  rtDelay   : Word
  deriving DecidableEq, Repr

/-- The admission in effect at reset: Tack-only (Table 8.10). -/
def Admission.reset : Admission :=
  { level := 0, tackOnly := true, p0Ok := false, p1Ok := false, bytesOk := false, lbOk := false, looms := 0, factor := 0, need := 0,
    capP0 := 0, capP1 := 0, bytesNeed := 0, bytesCap := 0, cfg := 0, dstPos := 0, dstSize := 0, rtDelay := 0 }

/-- A box list (R434 to R436): the record it was detected on, and the boxes, 16 bytes each (Table 9.4). -/
structure BoxList where
  rec_  : Nat × Nat
  boxes : List (List Byte)
  deriving DecidableEq, Repr

/-- The picture path: the intake FIFO, the PSTAMP of the record that last entered it, the selection in force, sheds in flight or in
the line buffer (at most four slots of each kind), the last shed launched, the admission in effect and the one that will take
effect, whether any frame has changed it to enhanced output, the record the detector runs on, the box lists, and the input
signatures of the frames selected for. -/
structure Pic where
  fifo     : List FrameRec
  lastP    : Option Stamp
  sel      : Selection
  selected : Bool
  sheds    : List Shed
  last     : Option (Nat × Nat)
  admitNow    : Admission
  next     : Option Admission
  detect   : Option (Nat × Nat × Nat)
  boxNext  : Option BoxList
  boxes    : Option BoxList
  sigs     : List (Nat × Nat)
  deriving DecidableEq, Repr

def Pic.reset : Pic :=
  { fifo := [], lastP := none, sel := { frame := 0, recA := none, recB := none, phase := 0, hold := false, miss := [] },
    selected := false, sheds := [], last := none, admitNow := Admission.reset, next := none, detect := none, boxNext := none,
    boxes := none, sigs := [] }
/-- An entry of the KV-TLB (R543): its number, handle and logical page, the leaf entry it gives, and its place in the order of use. -/
structure KvTlb where
  slot   : Nat
  handle : Nat
  page   : Nat
  leaf   : Nat
  lru    : Nat
  deriving DecidableEq, Repr

/-- A page on its way to the far tier (`out`) or back (R584, R585): its sequence and logical page, its tenant, pool and frame, the frame's
address, the page's bytes and those still to move, and whether a far-tier error has met it (R586). -/
structure KvMove where
  handle : Nat
  page   : Nat
  tenant : Nat
  pool   : Nat
  frame  : Nat
  pa     : Nat
  len    : Nat
  left   : Nat
  out    : Bool
  failed : Bool
  deriving DecidableEq, Repr

/-- A descriptor that waits for a page to be RESIDENT (R548). -/
structure KvWait where
  ring   : Nat
  seq    : Nat
  handle : Nat
  page   : Nat
  deriving DecidableEq, Repr

/-- A split decode whose ranks have written their partials (R565): the CCLK in which the last are visible. -/
structure KvMerge where
  ring  : Nat
  seq   : Nat
  ready : Nat
  deriving DecidableEq, Repr

/-- The sequence engine beside its registers and its tables in device memory: the KV-TLB, frames in use (by pool times 65,536 plus frame,
pool 4 the page-table pool), pages that move, descriptors that wait, split decodes to merge, and the initialisation (R590, false) or stop
(R591, true) in progress; `taken` is the CCLK and the loom of the last append or prefix-table change (Table 0.6). -/
structure Kv where
  tlb    : List KvTlb
  use    : Nat
  used   : List Nat
  moves  : List KvMove
  waits  : List KvWait
  merges : List KvMerge
  init   : Option Bool
  taken  : Option (Nat × Nat)
  deriving DecidableEq, Repr

/-- The sequence engine at reset: RESET_N has started its initialisation (R590). -/
def Kv.reset : Kv := { tlb := [], use := 0, used := [], moves := [], waits := [], merges := [], init := some false, taken := none }
/-- One row of a layer that has been asked for (R612): the layer, the raster line it lands on and its frame, and where the bytes of its two planes
lie and how many they are. The lines themselves are among those delivered to requester 35. -/
structure LayerRow where
  layer : Nat
  frame : Nat
  line  : Nat
  pa0   : Nat
  len0  : Nat
  pa1   : Nat
  len1  : Nat
  deriving DecidableEq, Repr

/-- A 12-bit RGB pixel (R616, R617). -/
structure Rgb where
  r : Nat
  g : Nat
  b : Nat
  deriving DecidableEq, Repr

/-- A composed raster line that waits for scan-out (R644). -/
structure RasterLine where
  frame  : Nat
  line   : Nat
  pixels : List Rgb
  deriving DecidableEq, Repr

/-- An AUX transaction of the host in progress (R642, R643): port, command, address, bytes to go, the DEFER replies it has drawn and the time it was
sent. -/
structure AuxTx where
  port   : Nat
  cmd    : Nat
  addr   : Nat
  data   : List Byte
  len    : Nat
  defers : Nat
  sent   : Nat
  deriving DecidableEq, Repr

/-- The composer and scan-out: the values in use of the registers whose writes wait (by offset), the frame in which a commit
is copied, the layers a commit refused to draw, layers switched off with their frame, rows fetched, lines composed; the CRC of the line each port sent last; the timing APPLY has accepted and its frame; whether
port settings go with it; the frame in which an UNDERRUN write takes effect; frames to be sent blank; the first
frame sent; ports in training; the Panel Replay capture frame (once it is past, the frame before the present one), the first frame after its exit, and whether its wake runs; the AUX
transaction; the signatures under way and those of the frame sent before, with the signature state. -/
structure Scn where
  inUse      : Tbl Word
  commitAt   : Option Nat
  undrawn    : List Nat
  off        : List (Nat × Nat)
  rows       : List LayerRow
  lines      : List RasterLine
  lineCrc    : Tbl Nat
  timNext    : Option (Timing × Nat)
  urNext     : Option Nat
  blank      : List Nat
  sending    : Bool
  training   : List Nat
  prCapture  : Option Nat
  prWaking   : Bool
  prFrom     : Option Nat
  aux        : Option AuxTx
  sigState   : Nat
  sigFrame   : Option Nat
  prevOut    : Option Nat
  prevIn     : Option Nat
  deriving DecidableEq, Repr

def Scn.reset : Scn :=
  { inUse := [], commitAt := none, undrawn := [], off := [], rows := [], lines := [], lineCrc := [], timNext := none, urNext := none, blank := [],
    sending := false, training := [], prCapture := none, prWaking := false, prFrom := none, aux := none, sigState := 0xFFFFFFFF,
    sigFrame := none, prevOut := none, prevIn := none }
/-- The throttle ladder and regulator phases, sensing and steering, Press and the stretcher, and Rinse (chapter 12). `target` is op_t; `ladder`
the position and `ladderN` the n it was applied with; `release` the ticks below every release level and `stepped` the CCLK of the last step;
`iout` the last ten READ_IOUT polls in 0.1 A and `power` the last thousand products of mV and 0.1 A; `phases` each phase's last READ_IOUT and `phaseBad` its
consecutive reads that meet R689; `phaseTurn` the first phase of the next four; `vadc` the sense ADC's mean of the last tick in mV and `regions`
the sum and number of each region's valid reports; `pathRun` and `boardRun` consecutive polls above 12 mV; `learn` the learning samples of each
region in µV per ampere and `base` the learned baselines; `firing` the injectors fired and `rearm` the time before which one cannot fire again;
`pressed` the regions with a firing or an engagement in the present line and `pressedPrev` those of the line before; `calUnit` the sensor whose
calibration runs, `calTick` the sensors calibrated in the present tick, `calNext` the next one; `patrol` the patrol unit being read and `patrolNext` the
next; whether each pass has been counted as starved; whether a host PMBus transaction waits; the line of the last Rinse slot and the
frame of the last snapshot taken; `steerAt`, `limitAt` and `pollAt` the times at which the next steering tick and limit tick end and the next poll group is due;
`hostLeft` the places left for host transactions before that group; `upAt` the CCLK of the first tick at which the rail allows the pending higher
point; `lowAt` the CCLK of the last sensor reading below the Press threshold; `calAt` the time the running calibration unit began; `calFrom` and `patFrom`
the times the passes began; and `switchEnd` the CCLK in which the islands asked for so far are on (R709). -/
structure Pwr where
  target      : Nat
  ladder      : Nat
  ladderN     : Nat
  release     : Nat
  stepped     : Option Nat
  iout        : List Nat
  power       : List Nat
  phases      : List Nat
  phaseBad    : List Nat
  phaseTurn   : Nat
  vadc        : Nat
  regions     : List (Nat × Nat)
  pathRun     : List Nat
  boardRun    : Nat
  learn       : Tbl (List Int)
  base        : Tbl Int
  firing      : List Nat
  rearm       : Tbl Nat
  pressed     : List Nat
  pressedPrev : List Nat
  calUnit     : Option Nat
  calTick     : List Nat
  calNext     : Nat
  calStarved  : Bool
  patrol      : Option Nat
  patrolNext  : Nat
  patStarved  : Bool
  hostCmd     : Bool
  slotDone    : Option (Nat × Nat)
  snapDone    : Option Nat
  steerAt     : Nat
  limitAt     : Nat
  pollAt      : Nat
  hostLeft    : Nat
  upAt        : Option Nat
  lowAt       : Nat
  calAt       : Nat
  calFrom     : Nat
  patFrom     : Nat
  switchEnd   : Nat
  deriving DecidableEq, Repr

def Pwr.reset : Pwr :=
  { target := 0, ladder := 0, ladderN := 8, release := 0, stepped := none, iout := [], power := [],
    phases := List.replicate 8 0, phaseBad := List.replicate 8 0, phaseTurn := 0, vadc := 0, regions := List.replicate 16 (0, 0),
    pathRun := List.replicate 16 0, boardRun := 0, learn := [], base := [], firing := [], rearm := [], pressed := [],
    pressedPrev := [], calUnit := none, calTick := [], calNext := 0, calStarved := false, patrol := none, patrolNext := 0,
    patStarved := false, hostCmd := false, slotDone := none, snapDone := none, steerAt := 1232000, limitAt := 123200000,
    pollAt := 123200000, hostLeft := 1, upAt := none, lowAt := 0, calAt := 0, calFrom := 0, patFrom := 0, switchEnd := 0 }
/-- A flit as it goes on the link, its 32 bytes (Table 13.2). -/
abbrev Flit := List Byte

/-- A message that waits for a transmit port: its class, its source (0 to 3 a receive port, 4 the local chip), its route byte, its bytes from
the header on, the flits of it that carry darned data, and the bytes already sent (R732, R733, R757). -/
structure SelMsg where
  cls    : Nat
  src    : Nat
  route  : Nat
  data   : List Byte
  darned : List Nat
  sent   : Nat
  deriving DecidableEq, Repr

/-- A flit kept for resending (R734): its sequence number, the CCLK it was last sent in, how often it has been resent, its bytes, and whether it carries
darned data. -/
structure SentFlit where
  seq   : Nat
  cclk  : Nat
  again : Nat
  flit  : Flit
  darn  : Bool
  deriving DecidableEq, Repr

/-- A message being received (R732): its route byte, its bytes so far, the flits so far and those that are darned. -/
structure RxMsg where
  route  : Nat
  data   : List Byte
  flits  : Nat
  darned : List Nat
  deriving DecidableEq, Repr

/-- A message that has arrived for this chip: its port, class, route byte, bytes, and darned flits. -/
structure InMsg where
  port   : Nat
  cls    : Nat
  route  : Nat
  data   : List Byte
  darned : List Nat
  deriving DecidableEq, Repr

/-- A Selvage port beside its SLV_PORT registers: the SEQ of the last good flit, the next SEQ, NAK to send, credits held and owed by class, the flits
kept and the number of them from which resending goes on, messages waiting, the source last served by class, messages being received by class,
the round trips measured in units of 1/1.40 GHz, the time of the ECHO outstanding, that of the last flit received, whether HELLO has been accepted, the times at which
the attempt began and the port went down, and the time of the next flit slot in parts of 1/125 (R727, R736). -/
structure SelPort where
  rxSeq   : Nat
  txSeq   : Nat
  nak     : Bool
  credits : List Nat
  owed    : List Nat
  sent    : List SentFlit
  resend  : Option Nat
  queue   : List SelMsg
  served  : List Nat
  rx      : Tbl RxMsg
  trips   : List Nat
  echoAt  : Option Nat
  lastRx  : Nat
  hello   : Bool
  startAt : Nat
  failAt  : Nat
  slotAt  : Nat
  deriving DecidableEq, Repr

/-- A port that has just begun to train (R730). -/
def SelPort.fresh : SelPort :=
  { rxSeq := 255, txSeq := 0, nak := false, credits := [0, 4, 128, 16, 64, 128], owed := [0, 0, 0, 0, 0, 0], sent := [],
    resend := none, queue := [], served := [4, 4, 4, 4, 4, 4], rx := [], trips := [], echoAt := none, lastRx := 0, hello := false,
    startAt := 0, failAt := 0, slotAt := 0 }

/-- A strip in the strip store (R750, R757): the edge it lies on, the record's PSTAMP, the plane, its bytes, and the flits that came darned. -/
structure Strip where
  edge   : Nat
  pstamp : Stamp
  plane  : Nat
  data   : List Byte
  darned : List Nat
  deriving DecidableEq, Repr

/-- A map strip that has arrived (R756), or that an edge tile waits for (R755): edge, shed, the low byte of the frame, layer, its bytes, and the
flits that came darned (R757). -/
structure MapStrip where
  edge  : Nat
  shed  : Nat
  frame : Nat
  layer : Nat
  data  : List Byte
  darned : List Nat
  deriving DecidableEq, Repr

/-- A collective record at work (R761 to R764): its descriptor, the bytes of each rank's block that have been written, the ranks that have sent DONE for
this chip's block, whether its own block has been sent, whether its DST is final, and the time of its last READYs. -/
structure Coll where
  ring   : Nat
  seq    : Nat
  blocks : Tbl Nat
  done   : List Nat
  sent   : Bool
  final  : Bool
  readyAt : Nat
  deriving DecidableEq, Repr

/-- A READY received (R761): sender, GROUP, COLL_ID, OP and BYTES. -/
structure Ready where
  chip   : Nat
  group  : Nat
  collId : Nat
  op     : Nat
  bytes  : Nat
  deriving DecidableEq, Repr

/-- The TIME messages of a port (R743): its HOPS and the count of lines since it came. -/
structure TimeRx where
  hops  : Nat
  lines : Nat
  deriving DecidableEq, Repr

/-- The Selvage link: ports; the TIME messages heard, by port; the messages in a row within 4 CCLK (R747), the lines since acquisition began, the FRAME
to take where a correction completes, the line whose TIME has been sent; messages that have arrived; strips, the records whose strips are sent, map strips
and those waited for; collectives, READY messages and PINGs outstanding (chip and time) and the time of the next; the frame in which a new
master is in use, and the master in use; and whether island 202 is on (R739). -/
structure Slv where
  ports     : Tbl SelPort
  time      : Tbl TimeRx
  good      : Nat
  waited    : Nat
  frameTo   : Option Nat
  timeSent  : Option (Nat × Nat)
  inbox     : List InMsg
  strips    : List Strip
  stripSent : List (Nat × Nat)
  maps      : List MapStrip
  mapWaits  : List MapStrip
  colls     : List Coll
  ready     : List Ready
  pings     : List (Nat × Nat)
  pingAt    : Nat
  masterAt  : Option Nat
  master    : Nat
  island    : Bool
  deriving DecidableEq, Repr

def Slv.reset : Slv :=
  { ports := [], time := [], good := 0, waited := 0, frameTo := none, timeSent := none, inbox := [], strips := [], stripSent := [],
    maps := [], mapWaits := [], colls := [], ready := [], pings := [], pingAt := 123200000, masterAt := none, master := 0,
    island := false }
/-- The states of the TAP controller of IEEE 1149.1 (R818). -/
inductive TapState where
  | reset | idle | selectDr | captureDr | shiftDr | exit1Dr | pauseDr | exit2Dr | updateDr
  | selectIr | captureIr | shiftIr | exit1Ir | pauseIr | exit2Ir | updateIr
  deriving DecidableEq, Repr

/-- What the instruction register selects (R820): the instructions named, and the device's private ones. -/
inductive TapOp where
  | bypass | idcode | sample | extest | extestPulse | extestTrain | device
  deriving DecidableEq, Repr

/-- The test access port (R818 to R820): its state, the instruction in force, the instruction and data shift registers with the bit nearest TDO first,
the boundary-scan cells' update latches, and TDO, none while it is not driven. -/
structure Jtag where
  tap : TapState
  op  : TapOp
  ir  : List Bool
  dr  : List Bool
  bsr : List Bool
  tdo : Option Bool
  deriving DecidableEq, Repr

def Jtag.reset : Jtag := { tap := .reset, op := .idcode, ir := [], dr := [], bsr := [], tdo := none }

/-- The state of the block. -/
structure State where
  /-- the commands that wait, first in, first out. -/
  pending : List Instr
  /-- the model's own count of free values read so far; the spec names no such state. -/
  free    : Nat
  /-- everything sent to the outside, oldest first. -/
  out     : List Out
  /-- the registers of PF BAR0 by offset; an unlisted one reads its reset value; SEQ_STATUS.INIT reads 1 from RESET_N on (R590). -/
  regs    : Tbl Word
  /-- the Treadle: stamp, references, event table, FSYNC_OUT and GPIO (chapter 1). -/
  trd     : Trd
  /-- fuses, flash, straps, the loader and the image (chapter 2). -/
  boot    : Boot
  /-- the host interface (chapter 3). -/
  hif     : Hif
  /-- tenants, rings, the scoreboard and MSI-X vectors (chapter 4). -/
  ten     : Ten
  /-- the 34 physical looms, by number (chapter 5). -/
  looms   : List Loom
  /-- DRAM, Spool, directory, schedules and the device MMU (chapter 6). -/
  mem     : Mem
  /-- Shuttle channels, buckets, fault records and the far tier (chapter 7). -/
  sht     : Sht
  /-- the picture path: intake, selection, sheds, admission and box lists (chapter 8). -/
  pic     : Pic
  /-- the sequence engine (chapter 10). -/
  kv      : Kv
  /-- the composer and scan-out (chapter 11). -/
  scn     : Scn
  /-- power, health and Rinse (chapter 12). -/
  pwr     : Pwr
  /-- the Selvage link (chapter 13). -/
  slv     : Slv
  /-- the test access port (chapter 15). -/
  jtag    : Jtag
  deriving DecidableEq, Repr

/-- The block right after the release of RESET_N with nothing commanded (R28, R29, R227). -/
def State.reset : State :=
  { pending := [],
    free := 0,
    out := [],
    regs := [(Reg.SEQ_STATUS, 1#32)],
    trd := Trd.reset,
    boot := Boot.reset,
    hif := Hif.reset,
    ten := Ten.reset,
    looms := loomsReset,
    mem := Mem.reset,
    sht := Sht.reset,
    pic := Pic.reset,
    kv := Kv.reset,
    scn := Scn.reset,
    pwr := Pwr.reset,
    slv := Slv.reset,
    jtag := Jtag.reset }

end Sys2Proof.Machine
end

