-- ==== Sys2Proof/Machine/Ops.lean ====
section
/-! DEFINITION. The named operations every meaning is built from: registers and their fields, stamps and
raster arithmetic, the outbound log, and the
event-table comparators. -/

namespace Sys2Proof.Machine

/-! Registers and fields (R14 to R18). -/

/-- What a register reads before anything has written it. -/
def regDef (off : Nat) : Word := BitVec.ofNat 32 (regReset off)

/-- The stored value of a register. -/
def State.rd (s : State) (off : Nat) : Word := tblGet regDef s.regs off

/-- Store a register's value. -/
def State.wr (s : State) (off : Nat) (v : Word) : State :=
  { s with regs := tblSet regDef s.regs off v }

/-- The value of a field in a word. -/
def Field.get (f : Field) (v : Word) : Nat := (v.toNat >>> f.lo) % 2 ^ f.w

/-- The bits of a field. -/
def Field.mask (f : Field) : Word := BitVec.ofNat 32 ((2 ^ f.w - 1) <<< f.lo)

/-- A word with one field replaced; a value too wide loses its upper bits. -/
def Field.put (f : Field) (v : Word) (x : Nat) : Word :=
  (v &&& ~~~f.mask) ||| BitVec.ofNat 32 ((x % 2 ^ f.w) <<< f.lo)

/-- The value of a register's field. -/
def State.fld (s : State) (off : Nat) (f : Field) : Nat := f.get (s.rd off)

/-- A one-bit field as a truth value. -/
def State.bit (s : State) (off : Nat) (f : Field) : Bool := s.fld off f != 0

/-- Set one field of a register. -/
def State.setFld (s : State) (off : Nat) (f : Field) (x : Nat) : State :=
  s.wr off (f.put (s.rd off) x)

/-- Increment a statistics counter; it saturates (R139). -/
def State.bump (s : State) (off : Nat) : State :=
  if s.rd off = 0xFFFFFFFF#32 then s else s.wr off (s.rd off + 1#32)

/-- Count `n` times. -/
def State.bumps (s : State) (off : Nat) : Nat → State
  | 0 => s
  | n + 1 => (s.bump off).bumps off n

/-- A value, or what the spec treats a value of 0 as. -/
def orElse0 (x d : Nat) : Nat := if x = 0 then d else x

/-- The value a plain write leaves in a register of this row: RW and RWI bits take the written ones, W1C bits
written 1 clear, all other bits stay (R14, R16); a statistics counter clears (R139). -/
def RegRow.written (r : RegRow) (old v : Word) : Word :=
  if r.cnt then 0#32
  else ((old &&& ~~~(BitVec.ofNat 32 r.rw)) ||| (v &&& BitVec.ofNat 32 r.rw)) &&& ~~~(v &&& BitVec.ofNat 32 r.w1c)

/-- A plain write of a register by its access codes; a reserved offset takes no write (R14, R827). -/
def State.plainWrite (s : State) (off : Nat) (v : Word) : State :=
  match regRow? off with
  | some r => s.wr off (r.written (s.rd off) v)
  | none => s

/-! The outbound log. -/

/-- Send a message that begins `later` CCLK from now. -/
def State.emit (s : State) (later : Nat) (m : OutMsg) : State :=
  { s with out := s.out ++ [⟨s.trd.cclk + later, m⟩] }

/-! Free values. -/

/-- The next free value's number, and the state that has read it. -/
def State.nextFree (s : State) : Nat × State := (s.free, { s with free := s.free + 1 })

/-! Little-endian fields of byte lists. -/

/-- The number a list of bytes spells, least significant first. -/
def leNat : List Byte → Nat
  | [] => 0
  | b :: bs => b.toNat + 256 * leNat bs

/-- `n` bytes of a number, least significant first. -/
def leBytes : Nat → Nat → List Byte
  | 0, _ => []
  | n + 1, x => BitVec.ofNat 8 x :: leBytes n (x / 256)

/-- The number in `len` bytes at an offset. -/
def bytesAt (l : List Byte) (off len : Nat) : Nat := leNat ((l.drop off).take len)

/-! Stamps (R27, R38). -/

/-- A stamp as its 48 bits (Table 1.1). -/
def Stamp.bits (a : Stamp) : Nat :=
  (a.frame % 65536) * 2 ^ 32 + (a.line % 16384) * 2 ^ 18 + (a.pick % 64) * 2 ^ 12 + a.cyc % 4096

/-- The stamp of 48 bits. -/
def Stamp.ofBits (n : Nat) : Stamp :=
  ⟨n / 2 ^ 32 % 65536, n / 2 ^ 18 % 16384, n / 2 ^ 12 % 64, n % 4096⟩

/-- The lower 32 bits of a stamp. -/
def Stamp.low (a : Stamp) : Word := BitVec.ofNat 32 a.bits

/-- Stamp `a` is at or after stamp `b` (R38). -/
def Stamp.atOrAfter (a b : Stamp) : Bool :=
  (a.bits + 2 ^ 48 - b.bits) % 2 ^ 48 < 2 ^ 47

/-- Stamp `a` is after stamp `b` (R38). -/
def Stamp.after (a b : Stamp) : Bool := a.atOrAfter b && a.bits != b.bits

/-- The first stamp of a frame. -/
def Stamp.frameStart (f : Nat) : Stamp := ⟨f % 65536, 0, 0, 0⟩

/-- The number of lines of the frame in progress (R26). -/
def State.frameLines (s : State) : Nat :=
  match s.trd.lineFix with
  | .none => s.trd.timing.vTotal
  | .append => s.trd.timing.vTotal + 1
  | .drop => s.trd.timing.vTotal - 1

/-- The number of lines raster arithmetic counts for a frame (R44): the frame in progress and the one before it have their own. -/
def State.linesOf (s : State) (frame : Nat) : Nat :=
  if frame % 65536 = s.trd.now.frame then s.frameLines
  else if (frame + 1) % 65536 = s.trd.now.frame then s.trd.prevLines
  else s.trd.timing.vTotal

/-- Carry lines into frames; `fuel` bounds the frames crossed. -/
def State.carryLines (s : State) : Nat → Nat → Nat → Nat × Nat
  | 0, f, l => (f, l)
  | fuel + 1, f, l =>
    let n := s.linesOf f
    if n = 0 ∨ l < n then (f, l) else s.carryLines fuel ((f + 1) % 65536) (l - n)

/-- A stamp moved on by a number of picks in raster arithmetic, its CYC kept (R44). -/
def State.addPicks (s : State) (t : Stamp) (n : Nat) : Stamp :=
  let p := t.pick + n
  let l := t.line + p / 64
  let fl := s.carryLines (l + 1) t.frame l
  ⟨fl.1, fl.2, p % 64, t.cyc⟩

/-- The stamp of the frame after the present one. -/
def State.nextFrame (s : State) : Nat := (s.trd.now.frame + 1) % 65536

/-- `a` frames lie after `b`, as R38 orders frames. -/
def frameAfter (a b : Nat) : Bool := decide (0 < (a + 65536 - b % 65536) % 65536) && decide ((a + 65536 - b % 65536) % 65536 < 32768)

/-- A frame for which no selection is made and no shed launches: a blank frame (R443), or one of Panel Replay from the frame after
the capture frame to the one before the first after its exit (R656, R659). -/
def State.darkFrame (s : State) (f : Nat) : Bool :=
  s.scn.blank.contains f || match s.scn.prCapture with
    | none => false
    | some c => frameAfter f c && match s.scn.prFrom with
      | some g => frameAfter g f
      | none => true

/-- Write a 48-bit stamp into a LO and HI register pair; the other bits of HI stay. -/
def State.wrStamp (s : State) (lo hi : Nat) (t : Stamp) : State :=
  (s.wr lo t.low).setFld hi ⟨0, 16⟩ (t.frame % 65536)

/-! Update of one part of the state. -/

/-- Change tenants and rings. -/
def State.onTen (s : State) (f : Ten → Ten) : State := { s with ten := f s.ten }

/-- Change the host interface. -/
def State.onHif (s : State) (f : Hif → Hif) : State := { s with hif := f s.hif }

/-- Change the picture path. -/
def State.onPic (s : State) (f : Pic → Pic) : State := { s with pic := f s.pic }

/-- Change the Treadle. -/
def State.onTrd (s : State) (f : Trd → Trd) : State := { s with trd := f s.trd }

/-- A register's value in force: one written in this CCLK whose effect begins with the next still has the value before it (R833, R837). -/
def State.inForce (s : State) (off : Nat) : Word := (tblFind s.trd.late off).getD (s.rd off)

/-- What a register that is about to be written has in force stays so in this CCLK. -/
def State.keepInForce (s : State) (off : Nat) : State :=
  s.onTrd fun t => { t with late := if (tblFind t.late off).isSome then t.late else tblPut t.late off (s.rd off) }

/-- The operating point in force. -/
def State.op (s : State) : Nat := s.fld Reg.PWR_STATUS Reg.PWR_STATUS_OP

/-- The parts of a microsecond that the reference clock is counted in: every CCLK period of Table 12.1 and its stretch to 9/8 is a whole
number of them. -/
def usTime : Nat := 123200

/-- How long a CCLK lasts at the point in force as it began, 1.40, 1.10 or 0.70 GHz, and while the stretcher is engaged (Table 12.1, R34, R685). -/
def State.cclkTime (s : State) : Nat :=
  let op := Reg.PWR_STATUS_OP.get (s.inForce Reg.PWR_STATUS)
  let p := if op = 0 then 88 else if op = 1 then 112 else 176
  if s.bit Reg.PWR_STATUS Reg.PWR_STATUS_STR then p / 8 * 9 else p

/-- The next CCLK begins, at a stamp: time passes, what was written in the last one is in force, and the owned pins are the outputs (R56). -/
def State.cclkBegins (s : State) (now : Stamp) : State :=
  s.onTrd fun t => { t with
    cclk := t.cclk + 1
    time := t.time + s.cclkTime
    now := now
    late := []
    gpioOwned := BitVec.ofNat 16 (s.fld Reg.TRD_GPIO_OWN Reg.TRD_GPIO_OWN_OWN) }

/-! The event table's comparators (R37, R43 to R51). -/

/-- The comparator of a slot. -/
def State.comp? (s : State) (n : Nat) : Option Comparator := tblFind s.trd.comps n

/-- Put or take away a slot's comparator. -/
def State.setComp (s : State) (n : Nat) (c : Option Comparator) : State :=
  s.onTrd fun t => { t with comps := match c with
    | some c => tblPut t.comps n c
    | none => tblDel t.comps n }

/-- A PER_FRAME slot whose LINE is V_TOTAL or more: it never matches (R50). -/
def State.parked (s : State) (c : Comparator) : Bool :=
  c.mode == SlotMode.perFrame && decide (s.trd.timing.vTotal ≤ c.line0)

/-- Whether a comparator matches now: armed, not yet matched, at or after its target (R37, R50). -/
def State.matchesNow (s : State) (c : Comparator) : Bool :=
  !c.matched && s.trd.now.atOrAfter c.target && !s.parked c

/-- A new timing comes into use at a frame start; a PER_FRAME slot that the old one never reached has its first point in this
frame (R43, R50). -/
def State.takeTiming (s : State) (t : Timing) : State :=
  s.onTrd fun x => { x with
    timing := t
    lineFix := .none
    comps := x.comps.map fun e =>
      if s.parked e.2 && !e.2.matched then (e.1, { e.2 with target := ⟨x.now.frame, e.2.line0, e.2.pick0, e.2.cyc0⟩ }) else e }

/-- A line begins: a PER_LINE slot whose point lay in a line that was dropped, or was passed over for a line that is appended, has it
in this line (R26, R43, R50); `ended` is the number of lines of the frame that ended, if one did. -/
def State.lineSeries (s : State) (ended : Nat) : State :=
  s.onTrd fun x => { x with comps := x.comps.map fun e =>
    let here : Stamp := ⟨x.now.frame, x.now.line, e.2.pick0, e.2.cyc0⟩
    if e.2.mode = .perLine ∧ e.2.matched = false ∧ ((x.now.line = 0 ∧ e.2.target.frame ≠ x.now.frame ∧ ended ≤ e.2.target.line)
        ∨ e.2.target.after here = true) then (e.1, { e.2 with target := here }) else e }

/-- The CCLK left to the action of a pick's first stamp (R36). -/
def State.toTick (s : State) : Nat := 2 - s.trd.now.cyc

/-- Insert into a queue kept by target stamp; equal targets keep the order of insertion (R58, R60). -/
def insertDue (d : Due) : List Due → List Due
  | [] => [d]
  | e :: es => if d.comp.target.after e.comp.target || d.comp.target == e.comp.target
      then e :: insertDue d es else d :: e :: es

/-- Order by target stamp, equal targets by slot number (R58). -/
def sortDue (l : List Due) : List Due := l.foldl (fun acc d => insertDue d acc) []

/-- Evaluate every comparator in the present CCLK: matches become due 2 CCLK later (R36), or join the tail of a
catch-up queue that is not empty (R60). -/
def State.compareSlots (s : State) : State :=
  let hits := s.trd.comps.filter (fun e => s.matchesNow e.2)
  let dues := hits.map (fun e => (⟨e.1, s.trd.cclk + 2, e.2, none⟩ : Due))
  let comps := s.trd.comps.map (fun e => if s.matchesNow e.2 then (e.1, { e.2 with matched := true }) else e)
  s.onTrd fun t =>
    if t.catchq.isEmpty then { t with comps := comps, due := t.due ++ dues }
    else { t with comps := comps, catchq := t.catchq ++ sortDue dues }

end Sys2Proof.Machine
end

