-- ==== Sys2Proof/Machine/Desc.lean ====
section
/-! DEFINITION. Rings, descriptors and readiness: the fields of a descriptor (Tables 4.2 and 4.3) and of a collective record
(Table 13.6), the ring registers, and when a descriptor becomes ready (R193 to R198). -/

namespace Sys2Proof.Machine

/-! Rings. -/

/-- What a ring holds beside its registers. -/
def State.ring (s : State) (g : Nat) : Ring := tblGet (fun _ => Ring.idle) s.ten.rings g

def State.setRing (s : State) (g : Nat) (r : Ring) : State :=
  s.onTen fun t => { t with rings := tblSet (fun _ => Ring.idle) t.rings g r }

/-- What a tenant holds beside its registers. -/
def State.tenant (s : State) (n : Nat) : Tenant := tblGet (fun _ => Tenant.idle) s.ten.tenants n

def State.setTenant (s : State) (n : Nat) (t : Tenant) : State :=
  s.onTen fun x => { x with tenants := tblSet (fun _ => Tenant.idle) x.tenants n t }

/-- Whether a tenant is enabled (R171). -/
def State.tenEn (s : State) (n : Nat) : Bool := s.bit (Reg.TEN_CFG n) Reg.TEN_CFG_EN

/-- Whether a tenant drains. -/
def State.draining (s : State) (n : Nat) : Bool := (s.tenant n).drain.isSome

def State.ringEn (s : State) (g : Nat) : Bool := s.bit (Reg.QRG_CFG g) Reg.QRG_CFG_EN
def State.ringTenant (s : State) (g : Nat) : Nat := s.fld (Reg.QRG_CFG g) Reg.QRG_CFG_TENANT

/-- The number of slots of a ring (R173): LOG2_SIZE below 4 is treated as 4. -/
def State.ringSize (s : State) (g : Nat) : Nat := 2 ^ max 4 (s.fld (Reg.QRG_CFG g) Reg.QRG_CFG_LOG2_SIZE)

/-- Whether a ring is of class LIVE (R205). -/
def State.ringLive (s : State) (g : Nat) : Bool := s.fld (Reg.QRG_CFG g) Reg.QRG_CFG_CLASS == 1

def State.ringHead (s : State) (g : Nat) : Nat := s.fld (Reg.QRG_PTR g) Reg.QRG_PTR_HEAD
def State.ringTail (s : State) (g : Nat) : Nat := s.fld (Reg.QRG_PTR g) Reg.QRG_PTR_TAIL

/-- The descriptors available in a ring (R176). -/
def State.ringAvail (s : State) (g : Nat) : Nat :=
  (s.ringTail g + s.ringSize g - s.ringHead g % s.ringSize g) % s.ringSize g

/-- A 64-bit address held in a LO and HI register pair. -/
def State.addr64 (s : State) (lo hi : Nat) : Nat := (s.rd lo).toNat + 2 ^ 32 * (s.rd hi).toNat

/-! Descriptor fields. -/

def Desc.num (d : Desc) (off len : Nat) : Nat := bytesAt d.bytes off len
def Desc.flag (d : Desc) (k : Nat) : Bool := (d.num 2 2).testBit k
def Desc.opcode (d : Desc) : Nat := d.num 0 2
def Desc.tag (d : Desc) : Nat := d.num 4 4
def Desc.launchEn (d : Desc) : Bool := !d.coll && d.flag 0
def Desc.deadlineEn (d : Desc) : Bool := !d.coll && d.flag 1
def Desc.fence (d : Desc) : Bool := !d.coll && d.flag 2
def Desc.irq (d : Desc) : Bool := d.flag 3
def Desc.lockstep (d : Desc) : Bool := !d.coll && d.flag 6
def Desc.noRec (d : Desc) : Bool := d.flag 7
def Desc.darnOk (d : Desc) : Bool := !d.coll && d.flag 8
def Desc.launch (d : Desc) : Stamp := Stamp.ofBits (d.num 8 6)
def Desc.deadline (d : Desc) : Stamp := Stamp.ofBits (d.num 0x10 6)

/-- The loom count: 0 is treated as 1 (R191); a collective record takes one loom (R761). -/
def Desc.looms (d : Desc) : Nat := if d.coll then 1 else orElse0 (d.num 0x0E 1 % 64) 1

/-- The local-array split asked for: 5 to 7 are treated as 4 (R236). -/
def Desc.l1q (d : Desc) : Nat := if d.coll then 0 else min 4 (d.num 0x0F 1 % 8)

/-- The dependencies in force, as ring and SEQ. -/
def Desc.deps (d : Desc) : List (Nat × Nat) :=
  if d.coll then (if d.flag 0 then [(d.num 0x0A 2 % 1024, d.num 0x0C 4)] else [])
  else (if d.flag 4 then [(d.num 0x16 2 % 1024, d.num 0x18 4)] else [])
    ++ (if d.flag 5 then [(d.num 0x1C 2 % 1024, d.num 0x20 4)] else [])

def Desc.argPtr (d : Desc) : Nat := d.num 0x28 8
def Desc.inl (d : Desc) (off len : Nat) : Nat := d.num (0x30 + off) len

/-- The profile a LOOM_CFG sets (Table 5.7). -/
def Desc.cfgProfile (d : Desc) : Profile :=
  let b := d.inl 0 1
  { trunc := b.testBit 0, sat := b.testBit 1, ftz := b.testBit 2, constLen := d.inl 2 2, constPtr := d.inl 8 8 }

/-- The control operators of R260, which take no loom. -/
def Desc.isControl (d : Desc) : Bool := !d.coll && d.opcode / 4 == 0x0F00 / 4

/-- A sequence number is at or after another (R194). -/
def seqAtOrAfter (a b : Nat) : Bool := (a + 2 ^ 32 - b % 2 ^ 32) % 2 ^ 32 < 2 ^ 31

/-- A ring's DONE_SEQ (R193). -/
def State.doneSeq (s : State) (g : Nat) : Nat := (s.rd (Reg.QRG_DONE_SEQ g)).toNat

/-- Every dependency in force is met (R194). -/
def State.depsMet (s : State) (d : Desc) : Bool := d.deps.all fun x => seqAtOrAfter (s.doneSeq x.1) x.2

/-- The fence is clear: of the ring (Table 4.3), or for opcode FENCE of every ring of the tenant (Table 5.6). -/
def State.fenceClear (s : State) (d : Desc) : Bool :=
  s.ten.descs.all fun e =>
    !(decide (e.order < d.order) &&
      ((d.fence && e.ring == d.ring) || (!d.coll && d.opcode == 0x0F01 && e.tenant == d.tenant)))

/-- WAIT_STAMP's own stamp (Table 5.6). -/
def Desc.waitStamp (d : Desc) : Stamp := Stamp.ofBits (d.inl 0 6)

/-- Note the CCLK in which a WAIT_STAMP's own stamp matches (R37, Table 5.6). -/
def State.noteWait (s : State) (d : Desc) : Desc :=
  if !d.coll && d.opcode == 0x0F02 && d.waitHit.isNone && s.trd.now.atOrAfter d.waitStamp then { d with waitHit := some s.trd.cclk } else d

/-- Look at one waiting descriptor again: note its launch match, and when it becomes ready fix the CCLK of its
dispatch, 16 CCLK on, or 2 when its launch stamp has matched in this CCLK (R195, R196, R36); a control operator takes 16 in
either case (R260). -/
def State.lookAt (s : State) (d : Desc) : Desc :=
  if d.phase != DescPhase.waiting || d.dispAt.isSome then d
  else
    let hit := d.hit || !d.launchEn || s.trd.now.atOrAfter d.launch
    if hit && s.depsMet d && s.fenceClear d then
      { d with hit := true, dispAt := some (s.trd.cclk + (if d.hit || !d.launchEn || d.isControl then 16 else 2)) }
    else { d with hit := hit }

/-- The scoreboard re-evaluates every entry (R259). -/
def State.refreshReady (s : State) : State :=
  s.onTen fun t => { t with descs := t.descs.map fun d => s.lookAt (s.noteWait d) }

/-- The entry of a ring and SEQ. -/
def State.desc? (s : State) (ring seq : Nat) : Option Desc :=
  s.ten.descs.find? fun d => d.ring == ring && d.seq == seq

/-- Replace an entry. -/
def State.setDesc (s : State) (d : Desc) : State :=
  s.onTen fun t => { t with descs := t.descs.map fun e => if e.ring == d.ring && e.seq == d.seq then d else e }

/-- The intake ring (R413). -/
def State.isIntake (s : State) (g : Nat) : Bool :=
  s.bit Reg.PIC_INTAKE Reg.PIC_INTAKE_EN && s.fld Reg.PIC_INTAKE Reg.PIC_INTAKE_RING == g

/-- The scoreboard entries of some rings and tenants: reads in flight, descriptors, and completions not yet issued (R256); frame records take
none (R414). -/
def State.entriesOf (s : State) (ring tenant : Nat → Bool) : Nat :=
  ((s.ten.rings.filter fun e => ring e.1 && !s.isIntake e.1).map fun e => e.2.reads).sum
    + (s.ten.descs.filter fun d => tenant d.tenant).length + (s.ten.recs.filter fun r => tenant r.tenant && !r.frame).length

/-- Scoreboard entries in use (R256). -/
def State.scoreboardUsed (s : State) : Nat := s.entriesOf (fun _ => true) fun _ => true

/-- Scoreboard entries of one tenant (R257). -/
def State.scoreboardOf (s : State) (n : Nat) : Nat := s.entriesOf (fun g => s.ringTenant g == n) fun t => t == n

end Sys2Proof.Machine
end

