-- ==== Sys2Proof/Machine/Time.lean ====
section
/-! DEFINITION. The passing of CCLK: CYC counts, the event table compares, and the scoreboard looks again. -/

namespace Sys2Proof.Machine

/-- A CCLK that the stretcher lengthens is counted (R686). -/
def State.countStretch (s : State) : State :=
  if s.bit Reg.PWR_STATUS Reg.PWR_STATUS_STR then s.bump Reg.PWR_STR_CCLK_CNT else s

/-- One CCLK passes inside a pick: CYC counts and saturates at 4,095, which sets CYC_SAT (R30, R31), and the
comparators and the scoreboard look at the new stamp (R37, R259). A thermal trip has stopped CCLK (R705). -/
def State.tick (s : State) : State :=
  if s.boot.tripped then s else
  let s1 := s.countStretch.cclkBegins { s.trd.now with cyc := min 4095 (s.trd.now.cyc + 1) }
  let s2 := if s1.trd.now.cyc = 4095 ∧ s.trd.now.cyc < 4095
    then s1.setFld Reg.TRD_STATUS Reg.TRD_STATUS_CYC_SAT 1 else s1
  s2.compareSlots.refreshReady

/-- A number of CCLK pass. -/
def State.elapse : Nat → State → State
  | 0, s => s
  | n + 1, s => State.elapse n s.tick

/-- Let the clock run to a CCLK that still lies ahead. -/
def State.elapseTo (s : State) (c : Nat) : State := State.elapse (c - s.trd.cclk) s

end Sys2Proof.Machine
end

