-- ==== Sys2Proof/Machine/Events.lean ====
section
/-! DEFINITION. Transactions on the link, and MSI-X events, moderation, masks and caps (R142, R218 to R226, R843). -/

namespace Sys2Proof.Machine

/-! Functions. -/

/-- What configuration space holds of a function. -/
def State.fnCfg (s : State) (n : Nat) : FnCfg := tblGet (fun _ => FnCfg.reset) s.hif.fns n

def State.setFnCfg (s : State) (n : Nat) (c : FnCfg) : State :=
  s.onHif fun h => { h with fns := tblSet (fun _ => FnCfg.reset) h.fns n c }

/-- The PF is in D3hot. -/
def State.d3hot (s : State) : Bool := s.bit Reg.HIF_STATUS Reg.HIF_STATUS_DSTATE

/-- The link is up. -/
def State.linkUp (s : State) : Bool := s.bit Reg.HIF_STATUS Reg.HIF_STATUS_LINK_UP

/-- PERST_N holds the transmit lanes in electrical idle, or the fuse read that link training waits for has not been made (R164, R165). -/
def State.lanesIdle (s : State) : Bool := s.hif.perstIn || !s.boot.fusesRead

/-! Vectors. -/

/-- The index of a function's vector in TEN_MOD (R219). -/
def vecIndex (fn k : Nat) : Nat := if fn = 0 then k % 32 else 32 + 8 * (fn - 1) + k % 8

/-- The function of a vector index. -/
def vecFn (v : Nat) : Nat := if v < 32 then 0 else (v - 32) / 8 + 1

/-- The vector number within its function. -/
def vecNum (v : Nat) : Nat := if v < 32 then v else (v - 32) % 8

/-- The indices of a tenant's vectors (R219). -/
def vectorsOf (n : Nat) : List Nat :=
  if n = 0 then List.range 32 else (List.range 8).map fun k => vecIndex n k

def State.vector (s : State) (v : Nat) : Vector := tblGet (fun _ => Vector.idle) s.ten.vectors v

def State.setVector (s : State) (v : Nat) (x : Vector) : State :=
  s.onTen fun t => { t with vectors := tblSet (fun _ => Vector.idle) t.vectors v x }

/-- COUNT and PICKS of a vector as R222 treats them: COUNT 0 as 1; PICKS 0 as 1. -/
def State.modCount (s : State) (v : Nat) : Nat := orElse0 (s.fld (Reg.TEN_MOD v) Reg.TEN_MOD_COUNT) 1
def State.modPicks (s : State) (v : Nat) : Nat := orElse0 (s.fld (Reg.TEN_MOD v) Reg.TEN_MOD_PICKS) 1

/-- The vector after an event committed at CCLK `t` (R220 to R222): the count rises, a first event starts the timer,
and the event that reaches COUNT, or any with COUNT of 1, makes the message due 64 CCLK on; a message already due
is never due sooner than 64 CCLK after the last event counted. -/
def Vector.counted (x : Vector) (count picks t : Nat) : Vector :=
  let n := x.count + 1
  { x with
    count := n
    timer := if x.count = 0 ∧ 2 ≤ count then some picks else x.timer
    last := t
    due := match x.due with
      | some d => some (max d (t + 64))
      | none => if count ≤ n then some (t + 64) else none }

/-- An event of a vector commits at CCLK `t`. -/
def State.eventAt (s : State) (v t : Nat) : State :=
  s.setVector v ((s.vector v).counted (s.modCount v) (s.modPicks v) t)

/-- An event of a vector commits now. -/
def State.event (s : State) (v : Nat) : State := s.eventAt v s.trd.cclk

/-- An event on a tenant's fault vector commits now (R218). -/
def State.faultEvent (s : State) (n : Nat) : State :=
  s.event (vecIndex n (s.fld (Reg.TEN_MSG n) Reg.TEN_MSG_FAULT_VEC))

/-! Transactions. -/

/-- An MSI-X message. -/
def Tlp.isMsix (t : Tlp) : Bool :=
  match t.msg with
  | .msix _ _ _ _ => true
  | _ => false

/-- A PTM Request. -/
def Tlp.isPtm (t : Tlp) : Bool :=
  match t.msg with
  | .ptmRequest _ => true
  | _ => false

/-- A message of a function whose tenant is disabled: it is not sent (R171). -/
def State.mute (s : State) (t : Tlp) : Bool :=
  t.isMsix && match t.fn with
    | some f => !s.tenEn f
    | none => false

/-- Whether a transaction may begin transmission: the link is up, credit is there, and a request's function may master
the bus in D0 (R142, R171, R843); requests of one function keep their order. -/
def State.maySend (s : State) (t : Tlp) : Bool :=
  s.linkUp && decide (0 < s.hif.credit) &&
    match t.fn with
    | none => !(t.isPtm && s.d3hot)
    | some f => !s.d3hot && (s.fnCfg f).bme && !s.mute t && !(s.hif.held.any fun u => u.fn == some f && !s.mute u)

/-- The CCLK in which a transaction begins: a completion of a register read comes after the one before, and one of a BAR2 read after the
one before of the same read (R140, R842). -/
def State.beginAt (s : State) (t : Tlp) : Nat :=
  max (max t.after s.trd.cclk) (match t.chain with
    | .register => s.hif.lastRead + 1
    | .bar2 false => s.hif.lastBar2 + 1
    | _ => 0)

/-- What the host interface notes of a transaction that begins in a CCLK: it uses credit, completions are spaced from it, and the second PTM
Request's stamp is recorded (R140, R148, R842). -/
def Hif.sent (h : Hif) (t : Tlp) (c : Nat) (now : Stamp) : Hif :=
  { h with
    credit := h.credit - 1
    lastRead := if t.chain = .register then c else h.lastRead
    lastBar2 := if t.chain = .bar2 true ∨ t.chain = .bar2 false then c else h.lastBar2
    ptm := if t.msg = .ptmRequest true then some now else h.ptm }

/-- A transaction begins transmission, and its event, if any, commits (R202). -/
def State.transmit (s : State) (t : Tlp) : State :=
  let c := s.beginAt t
  let s0 : State := { s with out := s.out ++ [⟨c, t.msg⟩] }
  let s1 := s0.onHif fun h => h.sent t c s.trd.now
  match t.event with
  | some v => s1.eventAt v c
  | none => s1

/-- Send a transaction, or hold it until it may begin. -/
def State.send (s : State) (t : Tlp) : State :=
  if s.maySend t then s.transmit t else s.onHif fun h => { h with held := h.held ++ [t] }

/-- Send what is held and may now begin, in its original order. -/
def State.sendHeld (s : State) : State :=
  s.hif.held.foldl State.send (s.onHif fun h => { h with held := [] })

/-! Messages. -/

/-- Messages a tenant has sent in the present frame (R225). -/
def State.sentNow (s : State) (n : Nat) : Nat := (s.tenant n).sent

/-- A frame's first stamp: every tenant's messages are counted afresh (R225). -/
def State.countAfresh (s : State) : State :=
  s.onTen fun t => { t with tenants := t.tenants.filterMap fun e =>
    let x := { e.2 with sent := 0 }
    if x = Tenant.idle then none else some (e.1, x) }

/-- The tenant's message cap lets no more through in this frame (R225). -/
def State.capped (s : State) (n : Nat) : Bool :=
  let cap := s.fld (Reg.TEN_MSG n) Reg.TEN_MSG_CAP
  cap != 0 && decide (cap ≤ s.sentNow n)

/-- A mask, MSI-X Enable or Function Mask stops a vector (R224). -/
def State.vecStopped (s : State) (v : Nat) : Bool :=
  (s.vector v).masked || !(s.fnCfg (vecFn v)).msixEn || (s.fnCfg (vecFn v)).msixMask

/-- Send a vector's message `later` CCLK from now: it covers every event counted (R223). -/
def State.sendVector (s : State) (v later : Nat) : State :=
  let n := vecFn v
  let x := s.vector v
  let s1 := s.setVector v { x with count := 0, timer := none, due := none, pending := false, held := false }
  let s2 := s1.setTenant n { s1.tenant n with sent := s1.sentNow n + 1 }
  s2.send { msg := .msix n (vecNum v) x.addr x.data, fn := some n, after := s.trd.cclk + later, event := none, chain := .none }

/-- A message held by the cap has its pending bit set and is counted (R226). -/
def State.holdVector (s : State) (v : Nat) : State :=
  (s.setVector v { s.vector v with due := none, pending := true, held := true }).bump
    (Reg.TEN_MSG_HELD_CNT (vecFn v))

/-- A due message is sent, held by the cap, or left pending by a mask (R224 to R226). -/
def State.dueVector (s : State) (v : Nat) : State :=
  if s.vecStopped v then s.setVector v { s.vector v with due := none, pending := true }
  else if s.capped (vecFn v) then s.holdVector v
  else s.sendVector v 0

/-! The rows of messages. -/

/-- MODERATION_TIMER_EXPIRY (R220, R221): the timer has counted its pick boundaries, and the message is due 2 CCLK after
this boundary, but not sooner than 64 CCLK after the last event's commit; an earlier due time stands. -/
def execModerationTimerExpiry (vec : Fin 2072) (s : State) : Host.Outcome State Fault Refusal :=
  let x := s.vector vec
  if x.timer = some 0 then
    let d := max (s.trd.cclk + 2) (x.last + 64)
    .next (s.setVector vec { x with timer := none, due := some (match x.due with
      | some e => min e d
      | none => d) })
  else .next s

/-- MSIX_MESSAGE (R171, R221, R224 to R226): the clock runs to the CCLK at which the message is due; a disabled tenant
sends none. -/
def execMsixMessage (vec : Fin 2072) (s : State) : Host.Outcome State Fault Refusal :=
  match (s.vector vec).due with
  | none => .next s
  | some d =>
    if s.tenEn (vecFn vec) then .next ((s.elapseTo d).dueVector vec) else .next s

/-- With no stop left a vector's pending message goes out, subject to the cap (R224). -/
def State.unstop (s : State) (v : Nat) : State :=
  if (s.vector v).pending && !(s.vector v).held && !s.vecStopped v && s.tenEn (vecFn v) then s.dueVector v else s

/-- A vector's mask bit clears (R224). -/
def State.unmask (s : State) (v : Nat) : State := (s.setVector v { s.vector v with masked := false }).unstop v

/-- MSIX_UNMASK. -/
def execMsixUnmask (vec : Fin 2072) (s : State) : Host.Outcome State Fault Refusal := .next (s.unmask vec)

/-- Send held vectors in ascending number, one per CCLK, until the cap is reached (R226). -/
def State.releaseHeld (s : State) : List Nat → Nat → State
  | [], _ => s
  | v :: vs, later =>
    if s.capped (vecFn v) then s
    else if s.vecStopped v then (s.setVector v { s.vector v with held := false }).releaseHeld vs later
    else (s.sendVector v later).releaseHeld vs (later + 1)

/-- The stamp lies in the first pick of a frame. -/
def State.atFrameStart (s : State) : Bool := s.trd.now.line == 0 && s.trd.now.pick == 0

/-- HELD_MESSAGE_RELEASE (R226, R36): at a frame's first stamp the tenant's held vectors are sent, from 2 CCLK after the match. -/
def execHeldMessageRelease (tenant : Fin 256) (s : State) : Host.Outcome State Fault Refusal :=
  if s.atFrameStart && s.tenEn tenant then
    let s0 := State.elapse s.toTick s
    let vs := (s0.ten.vectors.filter fun e => e.2.held && vecFn e.1 == tenant.val).map fun e => e.1
    .next (s0.releaseHeld vs 0)
  else .next s

/-- One pick boundary passes for the moderation timers (R220). -/
def State.modPick (s : State) : State :=
  s.onTen fun t => { t with vectors := t.vectors.map fun e =>
    (e.1, { e.2 with timer := match e.2.timer with
      | some (n + 1) => some n
      | x => x }) }

end Sys2Proof.Machine
end

