-- ==== Sys2Proof/Machine/Complete.lean ====
section
/-! DEFINITION. Looms as the scoreboard sees them, and the end of a descriptor: its record, its events, its looms, its
fault records and its DRR charge (R193, R199 to R204, R212, R218, R270, R277, R394, R400). -/

namespace Sys2Proof.Machine

/-! Looms. -/

/-- A physical loom. -/
def State.loom (s : State) (p : Nat) : Loom := s.looms.getD p Loom.blank

/-- Change one physical loom. -/
def State.onLoom (s : State) (p : Nat) (f : Loom → Loom) : State := { s with looms := s.looms.modify p f }

/-- Change every loom. -/
def State.onLooms (s : State) (f : Loom → Loom) : State := { s with looms := s.looms.map f }

/-- A loom holds a logical number. -/
def Loom.inService (l : Loom) : Bool := l.state == .active || l.state == .failing

/-- The physical loom that holds a logical number (LOM_MAP). -/
def State.physOf (s : State) (logical : Nat) : Option Nat :=
  (List.range 34).find? fun p => (s.loom p).inService && (s.loom p).logical == logical

/-- The LOM_DENY bit of a physical loom. -/
def State.denied (s : State) (p : Nat) : Bool :=
  if p < 32 then (s.rd Reg.LOM_DENY_LO).toNat.testBit p else (s.rd Reg.LOM_DENY_HI).toNat.testBit (p - 32)

/-- Spares whose LOM_DENY bit is set are kept out of service (R271, Table 5.11). -/
def State.denySpares (s : State) : State :=
  { s with looms := s.looms.zipIdx.map fun x => if x.1.state == .spare && s.denied x.2 then { x.1 with state := .denied } else x.1 }

/-- The tenant pool in ascending logical number (R206, R697): looms in service that the picture path does not reserve,
that no LOM_DENY bit withholds, and that the power ladder has not taken away. -/
def State.pool (s : State) : List Nat :=
  (List.range 32).filter fun l => match s.physOf l with
    | some p => (s.loom p).state == .active && !(s.loom p).raster && !s.denied p && !(s.loom p).leaving
    | none => false

/-- The free looms of the pool. -/
def State.freePool (s : State) : List Nat :=
  s.pool.filter fun l => match s.physOf l with
    | some p => (s.loom p).work.isNone && (s.loom p).withheld.isNone
    | none => false

/-- Looms a tenant holds now. -/
def State.tenLooms (s : State) (n : Nat) : Nat :=
  (s.looms.filter fun l => match l.work with
    | some (g, _) => s.ringTenant g == n
    | none => false).length

/-- Release the looms of a descriptor (R270); a loom the ladder takes away is gated, and then has no owner (R698,
R710). -/
def Loom.released (ring seq : Nat) (l : Loom) : Loom :=
  if l.work = some (ring, seq) then
    { l with work := none, idle := 0, gated := l.gated || l.leaving, owner := if l.leaving then .nobody else l.owner }
  else l

/-! Channels and fault records. -/

/-- The key of a channel: its logical loom and number. -/
def chanKey (loom chan : Nat) : Nat := loom * 16 + chan

def State.chan (s : State) (loom c : Nat) : Chan := tblGet (fun _ => Chan.idle) s.sht.chans (chanKey loom c)

def State.onSht (s : State) (f : Sht → Sht) : State := { s with sht := f s.sht }

def State.setChan (s : State) (loom c : Nat) (x : Chan) : State :=
  s.onSht fun t => { t with chans := tblSet (fun _ => Chan.idle) t.chans (chanKey loom c) x }

/-- Change every channel of a descriptor. -/
def State.onChansOf (s : State) (ring seq : Nat) (f : Chan → Chan) : State :=
  s.onSht fun t => { t with
    chans := t.chans.map fun e => if e.2.ring == ring && e.2.seq == seq && !e.2.raster then (e.1, f e.2) else e }

/-- A channel of the descriptor is halted. -/
def State.anyHalted (s : State) (ring seq : Nat) : Bool :=
  s.sht.chans.any fun e => e.2.ring == ring && e.2.seq == seq && !e.2.raster && e.2.state == .halted

/-- Free every fault record of a descriptor and end its channels (R393, R394). -/
def State.freeFaults (s : State) (ring seq : Nat) : State :=
  (s.onChansOf ring seq fun c => { c with state := .done, fault := none, slot := none, retry := false }).onSht fun t =>
    { t with recs := t.recs.filter fun e => !(e.2.ring == ring && e.2.seq == seq) }

/-- Write a PF log entry (Table 7.8): an entry overwritten while VALID is counted as lost. -/
def State.faultLog (s : State) (tenant : Nat) (slot : Option Nat) (kind cause va ring seq : Nat) : State :=
  let k := s.fld Reg.SHT_FLOG_PTR Reg.SHT_FLOG_PTR_NEXT
  let w0 := tenant % 256 + (slot.getD 0 % 64) * 2 ^ 8 + (kind % 4) * 2 ^ 14 + (cause % 16) * 2 ^ 16
    + (if slot.isSome then 2 ^ 20 else 0) + 2 ^ 31
  let s1 := if s.bit (Reg.SHT_FLOG0 k) Reg.SHT_FLOG0_VALID then s.bump Reg.SHT_FLOG_LOST_CNT else s
  let s2 := (s1.wr (Reg.SHT_FLOG0 k) (BitVec.ofNat 32 w0)).wr (Reg.SHT_FLOG1 k) (BitVec.ofNat 32 va)
  let s3 := (s2.wr (Reg.SHT_FLOG2 k) (BitVec.ofNat 32 (va / 2 ^ 32 % 65536 + (ring % 1024) * 2 ^ 16))).wr
    (Reg.SHT_FLOG3 k) (BitVec.ofNat 32 seq)
  s3.setFld Reg.SHT_FLOG_PTR Reg.SHT_FLOG_PTR_NEXT (k + 1)

/-! The end of a descriptor. -/

/-- The status a record carries (R277, R400): a re-executed descriptor is DONE_RETRIED, a darned output DONE_DARNED, each
unless a status of its own stands. -/
def Desc.finalStatus (d : Desc) (status : Nat) : Nat :=
  if status ≠ 0 then status else if d.stopped then 0x02 else if d.darned then 0x01 else 0x00

/-- The completion record (Table 4.4, R200). -/
def recordBytes (tag seq status detail : Nat) (phase late cleared : Bool) (looms ring : Nat) (start finish : Nat) :
    List Byte :=
  let flags := (if phase then 1 else 0) + (if late then 2 else 0) + (if cleared then 4 else 0)
  leBytes 4 tag ++ leBytes 4 seq ++ leBytes 1 status ++ leBytes 1 detail ++ leBytes 1 flags ++ leBytes 1 looms
    ++ leBytes 2 ring ++ leBytes 2 0 ++ leBytes 6 start ++ leBytes 2 0 ++ leBytes 6 finish ++ leBytes 2 0

/-- The SEQs of a ring that are outstanding: in the scoreboard, and in the intake FIFO (R193, R416). -/
def State.outstanding (s : State) (g : Nat) : List Nat :=
  (s.ten.descs.filterMap fun d => if d.ring = g then some d.seq else none) ++
    s.pic.fifo.filterMap fun f => if f.ring = g then some f.seq else none

/-- DONE_SEQ of a ring from what is still outstanding (R193): one before the oldest descriptor left, or before the next
to be fetched. -/
def State.moveDone (s : State) (g : Nat) : State :=
  let fetch := (s.rd (Reg.QRG_FETCH_SEQ g)).toNat
  let age := fun (q : Nat) => (fetch + 2 ^ 32 - q % 2 ^ 32) % 2 ^ 32
  let next := (s.outstanding g).foldl (fun b q => if age b < age q then q else b) fetch
  s.wr (Reg.QRG_DONE_SEQ g) (BitVec.ofNat 32 (next + 2 ^ 32 - 1))

/-- DRAINING ends with the last descriptor of a disabled ring (R180). -/
def State.moveDraining (s : State) (g : Nat) : State :=
  if !s.ringEn g && (s.outstanding g).isEmpty then s.setFld (Reg.QRG_CFG g) Reg.QRG_CFG_DRAINING 0 else s

/-- Charge a class's deficit of a tenant: looms times picks, a started pick counted as a whole (R212). -/
def State.chargeDrr (s : State) (d : Desc) : State :=
  let n : Int := d.used * (s.ten.picks - d.picks + 1)
  let t := s.tenant d.tenant
  if s.ringLive d.ring then s.setTenant d.tenant { t with deficitLive := t.deficitLive - n }
  else s.setTenant d.tenant { t with deficitBulk := t.deficitBulk - n }

/-- Count what a status counts. -/
def State.countStatus (s : State) (tenant status : Nat) : State :=
  if status = 0x20 then s.bump (Reg.TEN_TIMEOUT_CNT tenant)
  else if status = 0x22 then s.bump Reg.HED_ABORT_LOOM_CNT
  else s

/-- What a collective record has done so far, and the READYs for it, are forgotten when it stops or ends (R761, Table 13.7). -/
def State.dropColl (s : State) (d : Desc) : State :=
  if d.coll then
    { s with slv := { s.slv with
        colls := s.slv.colls.filter fun c => !(c.ring == d.ring && c.seq == d.seq)
        ready := s.slv.ready.filter fun r => !(r.group == d.num 9 1 && r.collId == d.num 0x14 4) } }
  else s

/-- Take a descriptor out of the scoreboard's list and its looms, channels and fault records with it. -/
def State.removeDesc (s : State) (d : Desc) : State :=
  let s1 := s.onTen fun t => { t with descs := t.descs.filter fun e => !(e.ring == d.ring && e.seq == d.seq) }
  ((s1.onLooms (Loom.released d.ring d.seq)).freeFaults d.ring d.seq).dropColl d

/-- Put a completion on its way to the host (R199 to R203, R218): DONE_SEQ and DRAINING move, the status is counted, and the record is
issued 40 CCLK on. NO_REC leaves out a record of DONE alone. -/
def State.postRecord (s : State) (ring seq tenant status : Nat) (data : List Byte) (noRec irq frame : Bool) : State :=
  let s1 := ((s.moveDone ring).moveDraining ring).countStatus tenant status
  let r : Rec := { ring := ring, seq := seq, tenant := tenant,
                   addr := s.addr64 (Reg.QRG_CQ_LO ring) (Reg.QRG_CQ_HI ring) + 32 * (seq % s.ringSize ring), data := data,
                   issueAt := s.trd.cclk + 40, write := !(status == 0 && noRec), event := irq || decide (0x10 ≤ status), frame := frame }
  (s1.onTen fun t => { t with recs := t.recs ++ [r] }).refreshReady

/-- A descriptor completes in the present CCLK with a status and DETAIL (R199 to R204, R218, R256, R270, R765). -/
def State.completeDesc (s : State) (d : Desc) (status detail : Nat) : State :=
  let st := d.finalStatus status
  let dispatched := d.used != 0
  let s0 := if d.isControl || dispatched then s else s.nextFree.2
  let start := if d.isControl then s.trd.now.bits else if dispatched then d.start.bits
    else Config.undispatchedStart s.free % 2 ^ 48
  let data := recordBytes d.tag d.seq st detail (d.seq / s.ringSize d.ring % 2 == 0) d.late d.cleared d.used d.ring start
    s.trd.now.bits
  let s1 := s0.removeDesc d
  let s2 := if dispatched && !d.isControl then s1.chargeDrr d else s1
  let s3 := if d.coll && st != 0 then s2.bump Reg.SLV_COLL_FAIL_CNT else s2
  s3.postRecord d.ring d.seq d.tenant st data d.noRec d.irq false

/-- A descriptor is dropped without a record, as every reset but TEN_STOP drops it (Table 4.8): it is counted. -/
def State.dropDesc (s : State) (d : Desc) : State :=
  ((s.removeDesc d).moveDraining d.ring).bump (Reg.TEN_ABORT_CNT d.tenant)

/-- A fault ends a descriptor at once (Table 7.3, R384): a log entry with HALTED 0, and DETAIL 0x02. -/
def State.endAtOnce (s : State) (d : Desc) (status kind cause va : Nat) : State :=
  (s.faultLog d.tenant none kind cause va d.ring d.seq).completeDesc d status 0x02

end Sys2Proof.Machine
end

