-- ==== Sys2Proof/Machine/Memory.lean ====
section
/-! DEFINITION. Device memory: the address space and its hash (R294, R339), what a byte reads as, the written-map
(R320 to R325), and the Spool's lines, miss registers, fills and victims (R295 to R308, R321 to R328). -/

namespace Sys2Proof.Machine

/-- Change the memory part. -/
def State.onMem (s : State) (f : Mem → Mem) : State := { s with mem := f s.mem }

/-! The address space. -/

/-- The first device physical address beyond DRAM (R339): 45 GiB with 32 Gb dies, 22.5 GiB otherwise. -/
def State.dramTop (s : State) : Nat :=
  if s.bit Reg.DMC_STATUS Reg.DMC_STATUS_DENSITY then 48318382080 else 24159191040

/-- The end of the image region, which begins at 0 (R95). -/
def State.imageTop (s : State) : Nat := s.fld Reg.IMG_REGION Reg.IMG_REGION_SIZE * 2097152

/-- The line an address lies in. -/
def lineOf (pa : Nat) : Nat := pa / 128 * 128

/-- The slice of an address (R294); slice `s` is served by channel `s`. -/
def sliceOf (pa : Nat) : Nat :=
  4 * (pa / 512 % 3) + (((pa / 128) ^^^ (pa / 2 ^ 15) ^^^ (pa / 2 ^ 23) ^^^ (pa / 2 ^ 31)) &&& 3)

/-- The channel line number of an address (R294). -/
def chanLine (pa : Nat) : Nat := pa / 1536

/-- The set of an address (R294). -/
def setOf (pa : Nat) : Nat := chanLine pa % 1024

/-- The key of a way of an address's set in the Spool. -/
def spoolKey (pa way : Nat) : Nat := (sliceOf pa * 1024 + setOf pa) * 16 + way

/-- The way that holds a line, if any does (R296). -/
def State.wayOf (s : State) (pa : Nat) : Option Nat :=
  (List.range 16).find? fun w => match tblFind s.mem.spool (spoolKey pa w) with
    | some l => l.pa == lineOf pa
    | none => false

/-- The line of an address: in the Spool, or on its way to DRAM and still served (R323). -/
def State.line? (s : State) (pa : Nat) : Option SLine :=
  match s.wayOf pa with
  | some w => tblFind s.mem.spool (spoolKey pa w)
  | none => s.mem.leaving.find? fun l => l.pa == lineOf pa

/-- Whether the granule of an address is written (R320). -/
def State.granuleSet (s : State) (pa : Nat) : Bool := s.mem.wmap.contains (pa / 4096)

/-- A byte of DRAM behind the written-map: an unwritten granule reads zero (R321). -/
def State.dramByte (s : State) (pa : Nat) : Byte :=
  if s.granuleSet pa then tblGet (fun _ => 0#8) s.mem.dram pa else 0#8

/-- A byte of device memory: from the Spool when it holds the line, else from DRAM; beyond the DRAM top it reads zero
(R847). -/
def State.memByte (s : State) (pa : Nat) : Byte :=
  if s.dramTop ≤ pa then 0#8
  else match s.line? pa with
    | some l => l.data.getD (pa % 128) 0#8
    | none => s.dramByte pa

/-- The lines that some bytes lie in, ascending. -/
def linesFrom (a n : Nat) : List Nat := (List.range ((a % 128 + n + 127) / 128)).map fun i => lineOf a + 128 * i

/-- A run of bytes. -/
def State.memBytes (s : State) (pa : Nat) : Nat → List Byte
  | 0 => []
  | n + 1 => s.memByte pa :: s.memBytes (pa + 1) n

/-- A little-endian number in memory. -/
def State.memNat (s : State) (pa len : Nat) : Nat := leNat (s.memBytes pa len)

/-- Whether the line of an address would be delivered with a darn mark: poisoned in the Spool, or stored bad (R327,
R399). -/
def State.memPoison (s : State) (pa : Nat) : Bool :=
  match s.line? pa with
  | some l => l.poison
  | none => s.granuleSet pa && s.mem.bad.contains (lineOf pa)

/-! The written-map. -/

/-- Insert into a rising list of granules. -/
def insertNat (x : Nat) : List Nat → List Nat
  | [] => [x]
  | y :: ys => if x < y then x :: y :: ys else if x = y then y :: ys else y :: insertNat x ys

/-- Set a granule's bit; its bytes are then whatever DRAM lists, zeros where nothing is listed (R323). -/
def State.setGranule (s : State) (g : Nat) : State :=
  s.onMem fun m => { m with wmap := insertNat g m.wmap }

/-- Clear a granule's bit: what DRAM held there is no longer defined, so nothing is listed for it (R320, R325). -/
def State.clearGranule (s : State) (g : Nat) : State :=
  s.onMem fun m => { m with
    wmap := m.wmap.filter (· ≠ g)
    dram := m.dram.filter (fun e => e.1 / 4096 ≠ g)
    bad := m.bad.filter (fun a => a / 4096 ≠ g) }

/-- Store bytes in DRAM and mark their granules written. -/
def State.dramStore (s : State) (pa : Nat) : List Byte → State
  | [] => s
  | b :: bs =>
    State.dramStore ((s.setGranule (pa / 4096)).onMem fun m =>
      { m with dram := tblSet (fun _ => 0#8) m.dram pa b }) (pa + 1) bs

/-! Spool lines. -/

/-- Put a line in a way. -/
def State.putLine (s : State) (way : Nat) (l : SLine) : State :=
  s.onMem fun m => { m with spool := tblPut m.spool (spoolKey l.pa way) l }

/-- Change the line of an address where the Spool holds it or keeps it for write-back. -/
def State.onLine (s : State) (pa : Nat) (f : SLine → SLine) : State :=
  match s.wayOf pa with
  | some w => match tblFind s.mem.spool (spoolKey pa w) with
    | some l => s.putLine w { f l with pa := l.pa }
    | none => s
  | none => s.onMem fun m => { m with leaving := m.leaving.map fun l => if l.pa == lineOf pa then f l else l }

/-- A use of a line for the order of R297. -/
def State.touch (s : State) (pa : Nat) : State :=
  (s.onMem fun m => { m with use := m.use + 1 }).onLine pa fun l => { l with lru := s.mem.use + 1 }

/-- Write bytes into a 128-byte line from an offset. -/
def patch (old : List Byte) (off : Nat) (new : List Byte) : List Byte :=
  (old.take off ++ new ++ old.drop (off + new.length)).take 128

/-- Merge a write into a line: it becomes dirty, records its writer (R300), and a whole line clears its poison
(R327). A darned write marks it (R399). -/
def SLine.merge (l : SLine) (off : Nat) (d : List Byte) (cls : MemClass) (req : Nat) (darned : Bool) : SLine :=
  { l with data := patch l.data off d, dirty := true, cls := cls, writer := req,
           poison := darned || (l.poison && d.length < 128) }

/-! Coherence windows (R307, R308). -/

/-- Window `w` holds an address. -/
def State.regionHas (s : State) (w pa : Nat) : Bool :=
  s.bit (Reg.SPL_REGION_BASE_LO w) Reg.SPL_REGION_BASE_LO_EN &&
    decide ((s.fld (Reg.SPL_REGION_BASE_LO w) Reg.SPL_REGION_BASE_LO_BASE
      + 2048 * s.fld (Reg.SPL_REGION_BASE_HI w) Reg.SPL_REGION_BASE_HI_ADDR) ≤ pa / 2097152) &&
    decide (pa / 2097152 ≤ s.fld (Reg.SPL_REGION_LIMIT_LO w) Reg.SPL_REGION_LIMIT_LO_LIMIT
      + 2048 * s.fld (Reg.SPL_REGION_LIMIT_HI w) Reg.SPL_REGION_LIMIT_HI_ADDR)

/-- A tenant access at an address is coherent: the lowest-numbered enabled window that contains it says so. -/
def State.coherent (s : State) (pa : Nat) : Bool :=
  match (List.range 64).find? fun w => s.regionHas w pa with
  | some w => s.bit (Reg.SPL_REGION_BASE_LO w) Reg.SPL_REGION_BASE_LO_COH
  | none => false

/-- An access in coherent mode: a tenant's, in a coherent window; the RASTER class, the composer and scan-out, the Tack scaler
and picture intake never are (R307, R308), nor is BAR2 traffic, requester 32 (R134). -/
def State.cohAccess (s : State) (req pa : Nat) (cls : MemClass) : Bool :=
  s.coherent pa && cls != .raster && decide (req < 35) && req != 32

/-! Deliveries. -/

/-- End a descriptor on uncorrectable data (Table 7.3): FAULT_UNCORR at once. -/
def State.endUncorr (s : State) (d : Desc) (va : Nat) : State :=
  s.nextFree.2.endAtOnce d 0x12 (Config.uncorrKind s.free) (Config.uncorrCause s.free) va

/-- Where a scratchpad byte lies in a local array of some split: its bank is floor(a / 128) mod the number of scratchpad banks (R236, R237);
an array without one has no such byte. -/
def scratchKey (q a : Nat) : Option Nat :=
  let banks := 12 - 3 * q
  if banks = 0 then none else some (a / 128 % banks * 131072 + a / 128 / banks * 128 + a % 128)

/-- A scratchpad byte: what has been written there, zero after a scratch clear, else undefined (R239). -/
def Loom.scratchByte (l : Loom) (a : Nat) : Byte :=
  match scratchKey l.l1q a with
  | none => 0#8
  | some k => match tblFind l.scratch k, l.unknown with
    | some b, _ => b
    | none, none => 0#8
    | none, some n => Config.scratchByte n k

/-- Write a line into a loom's scratchpad: each 32-byte sector takes its bytes and the line's darn mark (R396). -/
def Loom.putScratch (l : Loom) (a : Nat) (d : List Byte) (darn : Bool) : Loom :=
  let keys := d.zipIdx.filterMap fun x => (scratchKey l.l1q (a + x.2)).map fun k => (k, x.1)
  let sectors := (keys.map fun x => x.1 / 32).eraseDups
  { l with
    scratch := keys.foldl (fun t x => tblPut t x.1 x.2) l.scratch
    darned := l.darned.filter (fun k => !sectors.contains k) ++ (if darn then sectors else []) }

/-- The bytes of a channel's walk. -/
def Chan.total (c : Chan) : Nat := c.rowBytes * c.rows

/-- Where a channel's next line goes in its buffer, a ring of BUF_LEN bytes (chapter 7, "Read-ahead and buffers"). -/
def Chan.bufAt (c : Chan) : Nat := c.bufBase + (if c.bufLen = 0 then 0 else c.got % c.bufLen)

/-- Lines a channel has issued that are not delivered or acknowledged. -/
def State.linesOut (s : State) (loom c : Nat) : Nat := (s.sht.issued.filter fun x => x.loom == loom && x.chan == c).length

/-- A line arrives in a channel's buffer; after the last of its walk the channel is done (R366, R369, R396). -/
def State.bufferLine (s : State) (loom c : Nat) (d : List Byte) (darn : Bool) : State :=
  let ch := s.chan loom c
  let s1 := match s.physOf loom with
    | some p => s.onLoom p fun l => l.putScratch ch.bufAt d darn
    | none => s
  s1.setChan loom c { ch with
    fill := ch.fill + 128
    got := ch.got + 128
    darn := ch.darn || darn
    state := if ch.state = .run ∧ ch.total ≤ ch.got + 128 then .done else ch.state }

/-- What a delivered line does to the Shuttle channel that asked for it: the buffer fills (an acknowledged outbound line
drains), a chained line starts down the chain, and a darned line is counted, marks the channel, and without DARN_OK ends
a tenant's descriptor at once (R369, R378, R395, R396, R401, R403). -/
def State.channelLine (s : State) (loom c later pa : Nat) (d : List Byte) (darn : Bool) : State :=
  let ch := s.chan loom c
  let s := s.onSht fun t => { t with issued := t.issued.erase ⟨loom, c, lineOf pa, d.isEmpty⟩ }
  if ch.state = .idle ∨ ch.state = .done then s
  else if d.isEmpty then
    s.setChan loom c { ch with
      fill := ch.fill - 128
      state := if ch.state = .run ∧ ch.total ≤ ch.pos ∧ s.linesOut loom c = 0 then .done else ch.state }
  else
    let s1 := s.bufferLine loom c d darn
    let s2 := if ch.chain then s1.onSht fun t => { t with chain := t.chain ++ [⟨loom, c, s.trd.cclk + later, d, darn⟩] } else s1
    if !darn then s2
    else
      let s3 := s2.bump Reg.SHT_DARN_CNT
      match s3.desc? ch.ring ch.seq with
      | some x => if ch.raster then s3 else if x.darnOk then s3.setDesc { x with darned := true } else s3.endUncorr x pa
      | none => s3

/-- Deliver a line to a requester `later` CCLK from now; tags below 16 of a loom name its Shuttle channels. -/
def State.deliver (s : State) (later req tag pa : Nat) (d : List Byte) (darn : Bool) : State :=
  let s1 := s.onMem fun m => { m with arrived := m.arrived ++ [⟨s.trd.cclk + later, req, tag, lineOf pa, d, darn⟩] }
  if req < 32 ∧ tag < 16 then s1.channelLine req tag later pa d darn else s1

/-- A line of zeros. -/
def zeroLine : List Byte := List.replicate 128 0#8

/-- A read at or above the DRAM top delivers zeros, darned for a raster channel (R847, Table 7.6). -/
def State.beyondTop (s : State) (req tag pa : Nat) : State :=
  s.deliver 42 req tag pa zeroLine (decide (req < 32 ∧ tag < 16) && (s.chan req tag).raster)

/-! DRAM requests. -/

/-- What a channel keeps of its schedules. -/
def State.channel (s : State) (c : Nat) : Channel := tblGet (fun _ => Channel.reset) s.mem.channels c

def State.setChannel (s : State) (c : Nat) (x : Channel) : State :=
  s.onMem fun m => { m with channels := tblSet (fun _ => Channel.reset) m.channels c x }

/-- The raster positions in force (R344). -/
def State.rasSlots (s : State) : Nat := min 6 (s.fld Reg.DMC_CFG Reg.DMC_CFG_RAS_SLOTS)

/-- Twice the time at which slot `k` starts: a slot lasts nine CK, 8.4375 ns (R336, R341). -/
def State.slotStart (s : State) (k : Nat) : Nat := 2 * s.mem.slotZero + 2079 * k

/-- Picks between a channel's windows: the hot or the ordinary period, 0 treated as 1 (R350, R351). -/
def State.refPeriod (s : State) (hot : Bool) : Nat :=
  orElse0 (s.fld Reg.DMC_REF_CFG (if hot then Reg.DMC_REF_CFG_PERIOD_HOT else Reg.DMC_REF_CFG_PERIOD)) 1

/-- The boundary at which a channel's next window is due: its first at its number times STAGGER (R350). -/
def State.refDue (s : State) (c : Nat) : Nat :=
  let ch := s.channel c
  if ch.frame.isNone then c * s.fld Reg.DMC_REF_CFG Reg.DMC_REF_CFG_STAGGER else ch.next

/-- The pixel clocks from the start of the present pick to the start of the pick `n` later, in lines of the raster in use (R32). -/
def State.pixelsTo (s : State) (n : Nat) : Nat :=
  let h := s.trd.timing.hTotal
  let at_ := fun (p : Nat) => p / 64 * h + (p % 64 * h + 63) / 64
  at_ (s.trd.now.pick + n) - at_ s.trd.now.pick

/-- The slot in which a window due `n` pick boundaries from now starts: the first at or after its action CCLK (R36, R352). -/
def State.windowSlot (s : State) (n : Nat) : Nat :=
  let t := s.trd.timing
  let from_ := s.trd.time + 2 * s.cclkTime - s.trd.now.cyc * s.cclkTime
  let at_ := 2 * (from_ + s.pixelsTo n * usTime * 1000000000 / orElse0 (t.hTotal * t.vTotal * t.refresh) 1)
  (at_ - 2 * s.mem.slotZero + 2078) / 2079

/-- The first slots of the next `j` windows that a channel's schedule holds (R345, R350). DEDUCED (log 144): counted on at the period in force, in the raster
in use. -/
def State.windowsAhead (s : State) (c j : Nat) : List Nat :=
  let last := match s.mem.bound with
    | some b => b + 1
    | none => 0
  (List.range j).map fun i => s.windowSlot (s.refDue c + i * s.refPeriod (s.channel c).hot + 1 - last)

/-- The first raster position of a channel from slot `k` that is free and lies outside the refresh windows that start at some slots, and the one in
progress (R345, R348). -/
def State.freeRaster (s : State) (c : Nat) (windows : List Nat) : Nat → Nat → Nat
  | 0, k => k
  | fuel + 1, k =>
    let ch := s.channel c
    if k % 8 < s.rasSlots ∧ !(decide (ch.blockFrom ≤ k) && decide (k < ch.blockUntil)) ∧
        !(windows.any fun w => decide (w ≤ k) && decide (k < w + 10)) ∧ !(s.mem.queue.any fun q => q.chan == c && q.slot == some k)
    then k else s.freeRaster c windows fuel (k + 1)

/-- The slot assigned to a request on arrival: a raster position for the RASTER class, none when there is none and for
the other classes (R345). -/
def State.assignSlot (s : State) (c : Nat) (cls : MemClass) : Option Nat :=
  if cls = .raster ∧ s.rasSlots ≠ 0 then
    let n := s.mem.queue.length + 4
    some (s.freeRaster c (s.windowsAhead c n) (16 * n) (s.channel c).slot)
  else none

/-- Put a request at its channel (R340, R345, R771). -/
def State.enqueueReq (s : State) (q : DramReq) : State :=
  let q' := { q with cclk := s.trd.cclk, age := s.mem.age, slot := if q.waits.isSome then none else s.assignSlot q.chan q.cls }
  s.onMem fun m => { m with queue := m.queue ++ [q'], age := m.age + 1 }

/-- The check line of a channel line (R338). -/
def checkLineOf (pa : Nat) : Nat := chanLine pa / 16

/-- The check line is in the channel's check cache. -/
def State.checkHit (s : State) (pa : Nat) : Bool :=
  s.mem.check.any fun e => e.chan == sliceOf pa && e.cline == checkLineOf pa

/-- A use of an address's check line for the order of R340. -/
def State.touchCheck (s : State) (pa : Nat) : State :=
  s.onMem fun m => { m with
    use := m.use + 1
    check := m.check.map fun e => if e.chan == sliceOf pa && e.cline == checkLineOf pa then { e with lru := m.use + 1 } else e }

/-- A data access goes to its channel, preceded by a read of its check line when that is absent (R340); an access whose
check read is already queued waits for that one. -/
def State.enqueueData (s : State) (kind : DramKind) (pa : Nat) (cls : MemClass) (req : Nat) (data : List Byte)
    (poison : Bool) (ack : Option Nat) : State :=
  let c := sliceOf pa
  let base : DramReq := { chan := c, kind := kind, pa := lineOf pa, cls := cls, req := req, cclk := 0, age := 0, slot := none,
                          waits := none, data := data, poison := poison, ack := ack }
  if s.checkHit pa then (s.touchCheck pa).enqueueReq base
  else
    match s.mem.queue.find? fun q => q.chan == c && q.kind == .checkRead && checkLineOf q.pa == checkLineOf pa with
    | some q => s.enqueueReq { base with waits := some q.age }
    | none =>
      let s1 := s.enqueueReq { base with kind := .checkRead, data := [], poison := false, ack := none }
      s1.enqueueReq { base with waits := some s.mem.age }

/-- The zero writes of a granule's other 31 lines enter their queues, with the class and requester of the write-back (R323). -/
def State.zeroOthers (s : State) (l : SLine) : State :=
  (((List.range 32).map fun i => l.pa / 4096 * 4096 + 128 * i).filter fun a => a != l.pa).foldl (fun t a =>
    t.enqueueData .zero a l.cls l.writer [] false none) s

/-- Send a dirty line to DRAM: straight to its queue, or behind the zero fill of its granule, which the first such
write-back starts (R323). The line is served until its write is granted. -/
def State.writeBack (s : State) (l : SLine) : State :=
  let s1 := s.onMem fun m => { m with leaving := m.leaving ++ [l] }
  let g := l.pa / 4096
  if s.granuleSet l.pa then s1.enqueueData .write l.pa l.cls l.writer l.data l.poison none
  else
    let q : DramReq := { chan := sliceOf l.pa, kind := .write, pa := l.pa, cls := l.cls, req := l.writer, cclk := 0, age := 0,
                         slot := none, waits := none, data := l.data, poison := l.poison, ack := none }
    if s.mem.zeroing.any fun z => z.granule == g then
      s1.onMem fun m => { m with zeroing := m.zeroing.map fun z =>
        if z.granule == g then { z with wbs := z.wbs ++ [q] } else z }
    else ((s1.onMem fun m => { m with zeroing := m.zeroing ++ [{ granule := g, wbs := [q] }] }).zeroOthers l).bump Reg.DMC_WMAP_FILL_CNT

/-! Allocation. -/

/-- The raster ways in force (R295). -/
def State.rasWays (s : State) : Nat := min 12 (s.fld Reg.SPL_CFG Reg.SPL_CFG_RAS_WAYS)

/-- The ways a fill of a class may use with some number of raster ways (R295). -/
def waysFor (cls : MemClass) (rasWays : Nat) : List Nat :=
  if cls = .raster then List.range rasWays else (List.range 16).drop rasWays

/-- The least recently used of some ways, the lowest number among equals. -/
def State.lruWay (s : State) (pa : Nat) (ws : List Nat) : Option Nat :=
  ws.foldl (fun best w => match best with
    | none => some w
    | some b =>
      let age := fun x => match tblFind s.mem.spool (spoolKey pa x) with
        | some l => l.lru
        | none => 0
      if age w < age b then some w else some b) none

/-- The victim way among those a fill may use (R297): an invalid one, else one no L1 holds, else any. -/
def State.victimWay (s : State) (pa : Nat) (ws : List Nat) : Option Nat :=
  match ws.find? fun w => (tblFind s.mem.spool (spoolKey pa w)).isNone with
  | some w => some w
  | none =>
    match s.lruWay pa (ws.filter fun w => match tblFind s.mem.spool (spoolKey pa w) with
        | some l => l.holders.isEmpty
        | none => true) with
    | some w => some w
    | none => s.lruWay pa ws

/-- The class of what a loom's L1 asks for: RASTER while it serves the picture path, else that of its descriptor's ring (R365, R409). -/
def State.loomClass (s : State) (logical : Nat) : MemClass :=
  match s.physOf logical with
  | none => .bulk
  | some p => match (s.loom p).work with
    | some (g, _) => if s.ringLive g then .live else .bulk
    | none => if (s.loom p).raster then .raster else .bulk

/-- A line takes the data its holder has modified, with that loom as its last writer (R300, Table 6.4). -/
def SLine.recalled (l : SLine) (d : List Byte) (cls : MemClass) (loom : Nat) : SLine :=
  { l with data := patch l.data 0 d, dirty := true, cls := cls, writer := loom }

/-- An E or M holder of a line gives back what it has modified (Table 6.4). DESIGN CHOICE (log 139): no command shows a loom's own writes
to its L1, so what an M holder gives, and whether and what an E holder has written, are free values. -/
def State.takeBack (s : State) (pa : Nat) : State :=
  match s.line? pa with
  | some l => match l.dir, l.holders with
    | .modified, b :: _ | .excl, b :: _ =>
      if l.dir == .modified || Config.l1Wrote s.free then
        s.nextFree.2.onLine pa fun y =>
          y.recalled ((List.range 128).map fun i => Config.l1Byte s.free (lineOf pa + i)) (s.loomClass b) b
      else s.nextFree.2
    | _, _ => s
  | none => s

/-- Empty a way: holders of its line are invalidated, what its holder had modified is taken back, and a dirty line goes
to DRAM (Table 6.4, R299). -/
def State.evictWay (s : State) (pa way : Nat) (recalled : Option (List Byte)) : State :=
  match tblFind s.mem.spool (spoolKey pa way) with
  | none => s
  | some l =>
    let l1 := match recalled, l.dir, l.holders with
      | some d, .excl, b :: _ | some d, .modified, b :: _ => l.recalled d (s.loomClass b) b
      | _, _, _ => l
    let s1 := s.onMem fun m => { m with
      spool := tblDel m.spool (spoolKey pa way)
      l1 := m.l1.filter fun x => !(x.coh && x.pa == l.pa) }
    if l1.dirty then s1.writeBack { l1 with dir := .inv, holders := [] } else s1

/-- Put a new line in its victim way among some; without a way nothing is allocated. -/
def State.allocate (s : State) (l : SLine) (ws : List Nat) (recalled : Option (List Byte)) : State :=
  match s.victimWay l.pa ws with
  | none => s
  | some w =>
    ((s.evictWay l.pa w recalled).onMem fun m => { m with use := m.use + 1 }).putLine w { l with lru := s.mem.use + 1 }

/-- Allocate a line for a class outside a fill: what the victim's holder has modified is recalled before (Table 6.4). -/
def State.allocateNow (s : State) (l : SLine) (cls : MemClass) : State :=
  let ws := waysFor cls s.rasWays
  match (s.victimWay l.pa ws).bind fun w => tblFind s.mem.spool (spoolKey l.pa w) with
  | some v => (s.takeBack v.pa).allocate l ws none
  | none => s.allocate l ws none

/-! Writes of the units that act on the Spool copy. -/

/-- A line as DRAM holds it. -/
def State.dramLine (s : State) (pa : Nat) : List Byte := (List.range 128).map fun i => s.dramByte (lineOf pa + i)

/-- A loom's own L1 copy of a line goes. -/
def State.dropOwn (s : State) (req pa : Nat) : State :=
  s.onMem fun m => { m with l1 := m.l1.filter fun x => !(x.pa == lineOf pa && x.loom == req) }

/-- Write bytes of one line to memory as the operators and walkers do (R299, R309, R322, Table 6.4): merged into the Spool line, whose L1
copies go in coherent mode, after a partial write has recalled what an E or M holder modified; a miss allocates the line, a partial
write on the line's old data. Where the line's fill is under way the write joins it; beyond the DRAM top nothing is written (R847). -/
def State.memWriteIn (s : State) (pa : Nat) (d : List Byte) (cls : MemClass) (req : Nat) : State :=
  if s.dramTop ≤ pa then s
  else match s.line? pa with
    | some _ =>
      if s.cohAccess req pa cls then
        let s1 := if d.length < 128 then s.takeBack pa else s
        ((s1.onMem fun m => { m with l1 := m.l1.filter fun x => !(x.coh && x.pa == lineOf pa) }).touch pa).onLine pa fun l =>
          { l.merge (pa % 128) d cls req false with dir := .inv, holders := [] }
      else ((s.dropOwn req pa).touch pa).onLine pa fun l => l.merge (pa % 128) d cls req false
    | none =>
      let own := s.dropOwn req pa
      let whole := decide (d.length = 128)
      if (s.mem.mshrs.any fun m => m.pa == lineOf pa) || cls == .raster && s.rasWays == 0 then
        let s1 := (own.dramStore pa d).onMem fun m => { m with
          mshrs := m.mshrs.map fun x => if x.pa == lineOf pa then { x with data := x.data.map fun y => patch y (pa % 128) d } else x }
        if whole then s1.onMem fun m => { m with bad := m.bad.filter (· ≠ lineOf pa) } else s1
      else own.allocateNow { pa := lineOf pa, dirty := true, data := patch (s.dramLine pa) (pa % 128) d, poison := !whole && s.memPoison pa,
                             cls := cls, writer := req, lru := 0, dir := .inv, holders := [] } cls

/-- Write a run of bytes, split at lines; `fuel` bounds the lines. -/
def State.memWriteFuel : Nat → State → Nat → List Byte → MemClass → Nat → State
  | 0, s, _, _, _, _ => s
  | n + 1, s, pa, d, cls, req =>
    if d.isEmpty then s
    else
      let k := 128 - pa % 128
      State.memWriteFuel n (s.memWriteIn pa (d.take k) cls req) (pa + k) (d.drop k) cls req

/-- Write a run of bytes. -/
def State.memWrite (s : State) (pa : Nat) (d : List Byte) (cls : MemClass) (req : Nat) : State :=
  State.memWriteFuel (d.length / 128 + 2) s pa d cls req

/-! Miss registers. -/

/-- Miss registers of a slice. -/
def State.mshrsOf (s : State) (slice : Nat) : List Mshr := s.mem.mshrs.filter fun m => sliceOf m.pa == slice

/-- A miss register is free for a class: 64 a slice, of which 16 serve only RASTER (R301). -/
def State.mshrFree (s : State) (slice : Nat) (cls : MemClass) : Bool :=
  let all := s.mshrsOf slice
  if cls = .raster then decide (all.length < 64)
  else decide (all.length < 64) && decide ((all.filter fun m => m.cls != .raster).length < 48)

/-- Put a waiter in its place, by requester index, behind earlier requests of the same requester (R302). -/
def insertWaiter (w : Waiter) : List Waiter → List Waiter
  | [] => [w]
  | x :: xs => if w.req < x.req then w :: x :: xs else x :: insertWaiter w xs

/-- A miss joins the register of its line, opens one and asks DRAM, or is held at the slice input (R298, R301, R302, R305). -/
def State.miss (s : State) (pa : Nat) (w : Waiter) : State :=
  if s.mem.mshrs.any fun m => m.pa == lineOf pa then
    (s.onMem fun m => { m with
      mshrs := m.mshrs.map fun x =>
        if x.pa == lineOf pa then { x with waiters := insertWaiter w x.waiters } else x }).bump Reg.SPL_MCAST_CNT
  else if s.mshrFree (sliceOf pa) w.cls then
    (s.onMem fun m => { m with mshrs := m.mshrs ++
      [{ pa := lineOf pa, cls := w.cls, waiters := [w], rasWays := s.rasWays, data := none, poison := false, fillAt := 0 }] }).enqueueData
        .read pa w.cls w.req [] false none
  else (s.onMem fun m => { m with heldMiss := m.heldMiss ++ [⟨lineOf pa, w⟩] }).bump Reg.SPL_MSHR_FULL_CNT

/-! Requests at a slice. -/

/-- Requests of one CCLK at a slice are taken in ascending requester index (R8, R306, Table 0.6). DESIGN CHOICE (log 138): a request that
is commanded after one of a higher index has been taken there in this CCLK arrives in the next. -/
def State.takeAt (s : State) (pa req : Nat) : State :=
  let k := sliceOf pa
  let late := match tblFind s.mem.taken k with
    | some x => x.1 == s.trd.cclk && decide (req < x.2)
    | none => false
  let s1 := if late then s.tick else s
  s1.onMem fun m => { m with taken := tblPut m.taken k (s1.trd.cclk, req) }

/-- Mark a line poisoned, counting the change (R327). -/
def State.poisonLine (s : State) (pa : Nat) : State :=
  match s.line? pa with
  | some l => if l.poison then s else (s.onLine pa fun l => { l with poison := true }).bump Reg.SPL_UE_CNT
  | none => s

/-- Take what a lookup finds wrong with the line it reads (R326 to R328); a clean line with a tag error is lost, and
the request misses. -/
def State.lookupError (s : State) (pa : Nat) (err : SpoolError) : State :=
  match err, s.line? pa with
  | .none, _ => s
  | _, none => s
  | .corrected, some _ => s.bump Reg.SPL_CE_CNT
  | .uncorrectable, some _ => s.poisonLine pa
  | .tagParity, some l =>
    if l.dirty then s.poisonLine pa
    else match s.wayOf pa with
      | some w => s.onMem fun m => { m with spool := tblDel m.spool (spoolKey pa w) }
      | none => s

/-- A transaction is under way for the line; a later one waits its turn (R313). -/
def State.dirBusy (s : State) (pa : Nat) : Bool := s.mem.trans.any fun t => t.pa == lineOf pa

/-- Put a transaction of a request behind those of its line (R313, R314). -/
def State.askFor (s : State) (kind : DirKind) (holder pa : Nat) (w : Waiter) : State :=
  s.onMem fun m => { m with trans := m.trans ++ [{ pa := lineOf pa, kind := kind, holder := holder, waiter := w }] }

/-- A plain read by a requester that acts on the Spool copy. -/
def Waiter.reader (req tag : Nat) (cls : MemClass) (want : L1Want) : Waiter :=
  { req := req, tag := tag, write := none, darned := false, cls := cls, want := want }

/-- A read of one line by a requester that acts on the Spool copy (R296, R301 to R308, R313, R314, R321, R771, R847). -/
def State.spoolRead (s : State) (req tag pa : Nat) (cls : MemClass) : State :=
  let w := Waiter.reader req tag cls .no
  if s.dramTop ≤ pa then s.beyondTop req tag pa
  else match s.line? pa with
    | some l =>
      if s.cohAccess req pa cls = false then (s.touch pa).deliver 42 req tag pa l.data l.poison
      else if s.dirBusy pa then s.askFor .later 0 pa w
      else if l.dir == .excl || l.dir == .modified then l.holders.foldl (fun t b => t.askFor .recall b pa w) s
      else (s.touch pa).deliver 42 req tag pa l.data l.poison
    | none =>
      if s.granuleSet pa || (s.mem.mshrs.any fun m => m.pa == lineOf pa) then s.miss pa w
      else (s.deliver 42 req tag pa zeroLine false).bump Reg.DMC_WMAP_ZERO_CNT

/-- SPOOL_REQUEST: a read of one line by a requester, with what the lookup finds wrong with the line (R306, R326 to R328). -/
def execSpoolRequest (req : Fin 38) (tag pa : Nat) (cls : MemClass) (err : SpoolError) (s : State) :
    Host.Outcome State Fault Refusal :=
  let s := s.takeAt pa req
  if s.dramTop ≤ pa then .next (s.beyondTop req tag pa)
  else .next ((s.lookupError pa err).spoolRead req tag pa cls)

/-- A write merged into the Spool's line: in coherent mode every L1 copy goes (Table 6.4); else the writing loom's own copy alone,
and the directory stays (R309). -/
def State.mergeWrite (s : State) (req tag pa : Nat) (d : List Byte) (cls : MemClass) (darned : Bool) (l : SLine) : State :=
  let coh := s.cohAccess req pa cls
  let s1 := (s.onMem fun m => { m with l1 := m.l1.filter fun x => !(x.pa == lineOf pa && (x.loom == req || coh && x.coh)) }).touch pa
  let s2 := s1.onLine pa fun x =>
    let y := x.merge (pa % 128) d cls req darned
    if coh then { y with dir := .inv, holders := [] } else y
  (if darned && !l.poison then s2.bump Reg.SPL_UE_CNT else s2).deliver 42 req tag pa [] false

/-- A write inside one line reaches its slice (R295, R299, R309, R313, R314, R322, R399, R847, R849). In coherent mode it waits
for the transactions of its line, and a partial one first recalls what an E or M holder has modified. The acknowledgement is a
delivery of no data. -/
def State.spoolWrite (s : State) (req tag pa : Nat) (data : List Byte) (cls : MemClass) (darned : Bool) : State :=
  if s.dramTop ≤ pa then s.deliver 42 req tag pa [] false
  else
    let d := data.take (128 - pa % 128)
    let w : Waiter := { req := req, tag := tag, write := some (pa % 128, d), darned := darned, cls := cls, want := .no }
    match s.line? pa with
    | some l =>
      if s.cohAccess req pa cls && s.dirBusy pa then s.askFor .later 0 pa w
      else if s.cohAccess req pa cls && (l.dir == .excl || l.dir == .modified) && decide (d.length < 128) then
        l.holders.foldl (fun t b => t.askFor .recallWrite b pa w) s
      else s.mergeWrite req tag pa d cls darned l
    | none =>
      let own := s.dropOwn req pa
      if own.mem.mshrs.any fun m => m.pa == lineOf pa then own.miss pa w
      else if cls == .raster && s.rasWays == 0 then
        if d.length = 128 then own.enqueueData .write pa cls req d darned (some tag)
        else own.miss pa w
      else if d.length = 128 || !s.granuleSet pa then
        let fresh : SLine := { pa := lineOf pa, dirty := true, data := patch zeroLine (pa % 128) d, poison := darned,
                               cls := cls, writer := req, lru := 0, dir := .inv, holders := [] }
        let s1 := own.allocateNow fresh cls
        (if darned then s1.bump Reg.SPL_UE_CNT else s1).deliver 42 req tag pa [] false
      else own.miss pa w

/-- SPOOL_WRITE (R299, R306). -/
def execSpoolWrite (req : Fin 38) (tag pa : Nat) (data : List Byte) (cls : MemClass) (darned : Bool) (s : State) :
    Host.Outcome State Fault Refusal :=
  .next ((s.takeAt pa req).spoolWrite req tag pa data cls darned)

/-! What an L1 asks for (R309, R313 to R318). -/

/-- The split a logical loom works under; a number that no loom holds has no L1. -/
def State.l1qOf (s : State) (logical : Nat) : Nat :=
  match s.physOf logical with
  | some p => (s.loom p).l1q
  | none => 0

/-- The L1 of a loom holds a line, or has room for it: 3,072 lines for each quarter of the local array (R236). -/
def State.l1Room (s : State) (loom pa : Nat) : Bool :=
  (s.mem.l1.any fun x => x.loom == loom && x.pa == lineOf pa) ||
    decide ((s.mem.l1.filter fun x => x.loom == loom).length < 3072 * s.l1qOf loom)

/-- A loom's L1 takes a line. -/
def State.addL1 (s : State) (loom pa : Nat) (coh : Bool) (d : List Byte) (darn : Bool) : State :=
  s.onMem fun m => { m with
    l1 := (m.l1.filter fun x => !(x.loom == loom && x.pa == lineOf pa)) ++ [⟨loom, lineOf pa, coh, d, darn⟩] }

/-- An L1's use of a line is coherent: in a coherent window, and not while the loom serves the picture path (R307, R308). -/
def State.cohL1 (s : State) (loom pa : Nat) : Bool := s.coherent pa && s.loomClass loom != .raster

/-- A request of an L1 that misses the Spool: served from DRAM as any miss. Where the granule is unwritten a read gets zeros that
no L1 keeps, as the line is not allocated (R321), and a request to write allocates the line filled with zeros (R322). -/
def State.dirMiss (s : State) (loom tag pa : Nat) (want : L1Want) : State :=
  let cls := s.loomClass loom
  if s.granuleSet pa || (s.mem.mshrs.any fun m => m.pa == lineOf pa) then s.miss pa (Waiter.reader loom tag cls want)
  else if want == .own then
    let fresh : SLine := { pa := lineOf pa, dirty := false, data := zeroLine, poison := false, cls := cls, writer := loom,
                           lru := 0, dir := .modified, holders := [loom] }
    ((s.allocateNow fresh cls).addL1 loom pa true zeroLine false).deliver 42 loom tag pa zeroLine false
  else (s.deliver 42 loom tag pa zeroLine false).bump Reg.DMC_WMAP_ZERO_CNT

/-- A read through L1 in read-only-near mode (R292, R309, R311): a line the L1 holds is read there, whatever the Spool holds by now; another
comes from the Spool, and the L1 keeps it where it has room. -/
def State.nearRead (s : State) (loom tag pa : Nat) : State :=
  match s.mem.l1.find? fun x => x.loom == loom && x.pa == lineOf pa with
  | some x => s.deliver 6 loom tag pa x.data x.darn
  | none => match s.line? pa with
    | some l =>
      let s1 := (s.touch pa).deliver 42 loom tag pa l.data l.poison
      if s1.l1Room loom pa then s1.addL1 loom pa false l.data l.poison else s1
    | none => s.dirMiss loom tag pa .near

/-- A line on its way to DRAM serves a request of an L1 in its slice (R323): the slice holds it again, and its write goes on. -/
def State.revive (s : State) (pa : Nat) (cls : MemClass) : State :=
  match s.wayOf pa, s.mem.leaving.find? fun l => l.pa == lineOf pa with
  | none, some l => s.allocateNow { l with dirty := false, dir := .inv, holders := [] } cls
  | _, _ => s

/-- Every other holder's copy goes. -/
def State.dropOthers (s : State) (loom pa : Nat) : State :=
  s.onMem fun m => { m with l1 := m.l1.filter fun x => !(x.coh && x.pa == lineOf pa && x.loom != loom) }

/-- The directory gives a loom a line, in a state beside some holders. -/
def State.grantLine (s : State) (loom tag pa : Nat) (later : Nat) (dir : DirState) (holders : List Nat) : State :=
  match s.line? pa with
  | none => s
  | some l => (((s.touch pa).addL1 loom pa true l.data l.poison).onLine pa fun x => { x with dir := dir, holders := holders }).deliver
      later loom tag pa l.data l.poison

/-- The requester becomes the only holder, in M. -/
def State.makeModified (s : State) (loom tag pa : Nat) : State := (s.dropOthers loom pa).grantLine loom tag pa 42 .modified [loom]

/-- A coherent read at the directory (Table 6.4, R313): I gives E; S adds the requester; a holder in E or M is snooped first; a request for
a busy line waits its turn. -/
def State.dirRead (s0 : State) (loom tag pa : Nat) : State :=
  let cls := s0.loomClass loom
  if s0.dirBusy pa then s0.askFor .later 0 pa (Waiter.reader loom tag cls .read)
  else
    let s := s0.revive pa cls
    match s.line? pa with
    | none => s.dirMiss loom tag pa .read
    | some l => match l.dir, l.holders with
      | .shared, hs => s.grantLine loom tag pa 42 .shared (insertNat loom hs)
      | .inv, _ | _, [] => s.grantLine loom tag pa 42 .excl [loom]
      | d, b :: bs => if b = loom then s.grantLine loom tag pa 42 d (b :: bs)
          else s.askFor .read b pa (Waiter.reader loom tag cls .read)

/-- A coherent read-for-write at the directory (Table 6.4): every other holder is invalidated, and the requester holds M. -/
def State.dirOwn (s0 : State) (loom tag pa : Nat) : State :=
  let cls := s0.loomClass loom
  if s0.dirBusy pa then s0.askFor .later 0 pa (Waiter.reader loom tag cls .own)
  else
    let s := s0.revive pa cls
    match s.line? pa with
    | none => s.dirMiss loom tag pa .own
    | some l => match l.dir, l.holders with
      | .excl, b :: _ | .modified, b :: _ =>
        if b = loom then s.makeModified loom tag pa else s.askFor .readForWrite b pa (Waiter.reader loom tag cls .own)
      | _, _ => s.makeModified loom tag pa

/-- An eviction at the directory (R317, Table 6.4): a holder is removed and its modified data taken; a stale one is discarded and counted. -/
def State.dirEvict (s : State) (loom pa : Nat) (modified : Option (List Byte)) : State :=
  match s.line? pa with
  | none => s.bump Reg.SPL_STALE_EVICT_CNT
  | some l =>
    if l.holders.contains loom then
      s.onLine pa fun x =>
        let hs := x.holders.filter (· ≠ loom)
        let y := match modified with
          | some d => x.recalled d (s.loomClass loom) loom
          | none => x
        { y with holders := hs, dir := if hs.isEmpty then .inv else .shared }
    else s.bump Reg.SPL_STALE_EVICT_CNT

/-- Take a request of a list of waiters again, at its line. -/
def State.reissue (s : State) (w : Waiter) (pa : Nat) : State :=
  match w.write, w.want with
  | some (off, d), _ => s.spoolWrite w.req w.tag (lineOf pa + off) d w.cls w.darned
  | none, .no => s.spoolRead w.req w.tag pa w.cls
  | none, .near => s.nearRead w.req w.tag pa
  | none, .read => s.dirRead w.req w.tag pa
  | none, .own => s.dirOwn w.req w.tag pa

/-- Once no transaction of a line is under way, the requests and evictions that waited for it are taken in arrival order, until one of them
starts another (R313); `fuel` bounds them. -/
def State.wakeLine (pa : Nat) : Nat → State → State
  | 0, s => s
  | fuel + 1, s =>
    if s.mem.trans.any fun t => t.pa == lineOf pa && t.kind != .later && t.kind != .evict then s
    else match s.mem.trans.find? fun t => t.pa == lineOf pa with
      | none => s
      | some t =>
        let rest := (s.mem.trans.filter fun x => x.pa == lineOf pa).erase t
        let s1 := s.onMem fun m => { m with trans := m.trans.filter fun x => x.pa != lineOf pa }
        let s2 := if t.kind == .evict then s1.dirEvict t.waiter.req pa (t.waiter.write.map fun x => x.2) else s1.reissue t.waiter pa
        State.wakeLine pa fuel (s2.onMem fun m => { m with trans := m.trans ++ rest })

/-- A held miss can go on: its line has come, its line has a register, or one is free for its class (R305). -/
def State.canRetry (s : State) (h : HeldMiss) : Bool :=
  (s.line? h.pa).isSome || (s.mem.mshrs.any fun m => m.pa == h.pa) || s.mshrFree (sliceOf h.pa) h.waiter.cls

/-- The misses held at a slice are looked up again in the order they came, as far as registers are free (R305). -/
def State.retryHeld (s : State) (slice : Nat) : State :=
  (s.mem.heldMiss.filter fun h => sliceOf h.pa == slice).foldl (fun t h =>
    if t.canRetry h then (t.onMem fun m => { m with heldMiss := m.heldMiss.erase h }).reissue h.waiter h.pa else t) s

/-- Merge the waiting writes of a fill in waiter-list order, each with its own class (R300, R304). -/
def SLine.mergeAll (l : SLine) : List Waiter → SLine
  | [] => l
  | w :: ws => match w.write with
    | some (off, d) => (l.merge off d w.cls w.req w.darned).mergeAll ws
    | none => l.mergeAll ws

/-- The directory entry of a line and its holders after the coherent L1 requests among its waiters, in their order (Table 6.4): a first
reader holds E, further readers make it S, one that asks to write holds M alone. -/
def dirAfterFill (ws : List Waiter) : DirState × List Nat :=
  (ws.filter fun w => w.want == .read || w.want == .own).foldl (fun (x : DirState × List Nat) w =>
    if w.want == .own then (.modified, [w.req])
    else if x.2.isEmpty then (.excl, [w.req])
    else (if x.2 = [w.req] then x.1 else .shared, insertNat w.req x.2)) (.inv, [])

/-- Serve every waiter of a fill in the fill CCLK (R303): readers receive the line, writers their acknowledgement; the L1 of a near reader keeps
it where it has room. -/
def State.serveWaiters (s : State) (pa : Nat) (d : List Byte) (darn : Bool) : List Waiter → State
  | [] => s
  | w :: ws => match w.write with
    | some _ => (s.deliver 0 w.req w.tag pa [] false).serveWaiters pa d darn ws
    | none =>
      let s1 := s.deliver 0 w.req w.tag pa d darn
      (if w.want == .near && s1.l1Room w.req pa then s1.addL1 w.req pa false d darn else s1).serveWaiters pa d darn ws

/-- SPOOL_FILL: the line of a miss register whose data has returned is written, dirty if writes were merged, and
delivered to every waiter (R295, R297, R298, R303, R304, R327, R849). Without a way for its class the line is delivered and
not kept, and merged writes go to DRAM (R295). -/
def execSpoolFill (pa : Nat) (recalled : Option (List Byte)) (s : State) : Host.Outcome State Fault Refusal :=
  match s.mem.mshrs.find? fun m => m.pa == lineOf pa with
  | none => .next s
  | some m =>
    match m.data with
    | none => .next s
    | some d =>
      let s0 := s.elapseTo m.fillAt
      let dir := dirAfterFill m.waiters
      let ws := waysFor m.cls m.rasWays
      let base : SLine := { pa := m.pa, dirty := false, data := d, poison := m.poison, cls := m.cls, writer := 0,
                            lru := 0, dir := dir.1, holders := dir.2 }
      let l := base.mergeAll m.waiters
      let s1 := s0.onMem fun x => { x with mshrs := x.mshrs.filter fun y => y.pa != m.pa }
      let s2 := if (s1.victimWay m.pa ws).isNone then
          (if l.dirty then s1.enqueueData .write m.pa l.cls l.writer l.data l.poison none else s1)
        else dir.2.foldl (fun t a => t.addL1 a m.pa true l.data l.poison) (s1.allocate l ws recalled)
      let s3 := if m.poison || l.poison then s2.bump Reg.SPL_UE_CNT else s2
      .next ((s3.serveWaiters m.pa l.data l.poison m.waiters).retryHeld (sliceOf pa))

/-- GRANULE_ZERO_FILL (R323): once the zero writes are granted, all of them, the write-backs that waited enter their queues. -/
def execGranuleZeroFill (granule : Nat) (s : State) : Host.Outcome State Fault Refusal :=
  match s.mem.zeroing.find? fun z => z.granule == granule with
  | none => .next s
  | some z =>
    if s.mem.queue.any fun q => q.kind == .zero && q.pa / 4096 == granule then .next s
    else .next (z.wbs.foldl (fun t q => t.enqueueData .write q.pa q.cls q.req q.data q.poison none)
      (s.onMem fun m => { m with zeroing := m.zeroing.filter fun y => y.granule != granule }))

/-! The directory rows. -/

/-- A request of a loom's L1 reaches the slice: without an L1 portion it acts on the Spool copy (R236); while the L1 is full it waits for an
eviction; in read-only-near mode it is `near`'s, else the directory's (R306, R307). -/
def State.l1Request (s : State) (loom tag pa : Nat) (near dir : State → State) : State :=
  let s1 := s.takeAt pa loom
  if s1.dramTop ≤ pa then s1.deliver 42 loom tag pa zeroLine false
  else if s1.l1qOf loom = 0 then s1.spoolRead loom tag pa (s1.loomClass loom)
  else if !s1.cohL1 loom pa then near s1
  else if s1.l1Room loom pa then dir s1
  else s

/-- DIRECTORY_READ: a read of a loom's L1 (Table 6.4, R307 to R313). -/
def execDirectoryRead (loom : Fin 32) (tag pa : Nat) (s : State) : Host.Outcome State Fault Refusal :=
  .next (s.l1Request loom tag pa (fun t => t.nearRead loom tag pa) fun t => t.dirRead loom tag pa)

/-- DIRECTORY_READ_FOR_WRITE (Table 6.4). In read-only-near mode writes bypass the L1: its own copy goes, and the line is read from the Spool (R309,
log 140). -/
def execDirectoryReadForWrite (loom : Fin 32) (tag pa : Nat) (s : State) : Host.Outcome State Fault Refusal :=
  .next (s.l1Request loom tag pa (fun t => (t.dropOwn loom pa).spoolRead loom tag pa (t.loomClass loom)) fun t => t.dirOwn loom tag pa)

/-- DIRECTORY_UPGRADE (Table 6.4): an S holder becomes M and every other holder is invalidated; a loom that has lost its
copy since is served as a read-for-write, and meets the state the winner left. In read-only-near mode its own copy goes (log 140). -/
def execDirectoryUpgrade (loom : Fin 32) (pa : Nat) (s : State) : Host.Outcome State Fault Refusal :=
  .next (s.l1Request loom 0 pa (fun t => t.dropOwn loom pa) fun t => match t.line? pa with
    | some l =>
      if l.dir = .shared ∧ l.holders.contains loom.val ∧ !t.dirBusy pa then
        ((t.dropOthers loom pa).touch pa).onLine pa fun x => { x with dir := .modified, holders := [loom.val] }
      else t.dirOwn loom 0 pa
    | none => t.dirOwn loom 0 pa)

/-- DIRECTORY_EVICTION (R313, R315, R317): the line goes to the loom's write-back buffer, and the eviction to the directory, where it waits for a
transaction of its line. A full buffer holds the eviction back. -/
def execDirectoryEviction (loom : Fin 32) (pa : Nat) (modified : Option (List Byte)) (s : State) :
    Host.Outcome State Fault Refusal :=
  if 16 ≤ (s.mem.wb.filter fun x => x.loom == loom.val).length then .next s
  else
    let s1 := ((s.takeAt pa loom).dropOwn loom pa).onMem fun m => { m with
      wb := (m.wb.filter fun x => !(x.loom == loom.val && x.pa == lineOf pa)) ++ [⟨loom, lineOf pa, modified⟩] }
    .next (if s1.dirBusy pa then
        s1.askFor .evict loom pa { Waiter.reader loom 0 (s1.loomClass loom) .no with write := modified.map fun d => (0, d) }
      else s1.dirEvict loom pa modified)

/-- What a snooped loom gives back (R316): what its L1 has modified; of a line only its write-back buffer holds, the buffer's data. -/
def State.snoopData (s : State) (loom pa : Nat) (modified : Option (List Byte)) : Option (List Byte) :=
  if s.mem.l1.any fun x => x.loom == loom && x.pa == lineOf pa then modified
  else (s.mem.wb.find? fun x => x.loom == loom && x.pa == lineOf pa).bind fun x => x.data

/-- SNOOP (R313, R314, R316): the holder answers from its L1 or its write-back buffer, and the transaction that waited for
it ends. -/
def execSnoop (loom : Fin 32) (pa : Nat) (modified : Option (List Byte)) (s : State) :
    Host.Outcome State Fault Refusal :=
  match s.mem.trans.find? fun t => t.pa == lineOf pa && t.holder == loom.val && t.kind != .later && t.kind != .evict with
  | none => .next s
  | some t =>
    let w := t.waiter
    let wake := fun (x : State) => State.wakeLine pa (x.mem.trans.length + 1) x
    let s1 := s.onMem fun m => { m with trans := m.trans.erase t }
    let s2 := match s.snoopData loom pa modified with
      | some d => s1.onLine pa fun x => x.recalled d (s.loomClass loom) loom
      | none => s1
    .next (match t.kind with
    | .read => wake (s2.grantLine w.req w.tag pa 80 .shared (insertNat w.req (((s2.line? pa).map fun l => l.holders).getD [])))
    | .readForWrite => wake (s2.makeModified w.req w.tag pa)
    | .recallWrite => wake (match s2.line? pa, w.write with
        | some l, some (off, d) => s2.mergeWrite w.req w.tag (lineOf pa + off) d w.cls w.darned l
        | _, _ => s2)
    | .recall =>
      let s3 := (s2.touch pa).onLine pa fun x => { x with dir := if x.dir = .modified then .excl else x.dir }
      wake (match s3.line? pa with
        | some l => s3.deliver 80 w.req w.tag pa l.data l.poison
        | none => s3)
    | _ => s)

/-- EVICTION_ACK (R315, R318): the acknowledgement, which follows the eviction, frees the line from the write-back buffer. -/
def execEvictionAck (loom : Fin 32) (pa : Nat) (s : State) : Host.Outcome State Fault Refusal :=
  if s.mem.trans.any fun t => t.kind == .evict && t.pa == lineOf pa && t.waiter.req == loom.val then .next s
  else .next (s.onMem fun m => { m with wb := m.wb.filter fun x => !(x.loom == loom.val && x.pa == lineOf pa) })

end Sys2Proof.Machine
end

