-- ==== Sys2Proof/Machine/Dram.lean ====
section
/-! DEFINITION. The DRAM channels: slots and their claim order (R341 to R347), return counts (R342, R354, R773), the check
cache (R340), refresh windows and ZQ (R348 to R355), and the scrub (R331 to R333). -/

namespace Sys2Proof.Machine

/-- CCLK from a slot grant to the data at the slice, at an operating point (R342). -/
def dramCount : Nat → Nat
  | 0 => 256
  | 1 => 202
  | _ => 128

/-- What a refresh window on an assigned raster slot adds (R354, Table 14.2). -/
def refreshPenalty : Nat → Nat
  | 0 => 120
  | 1 => 95
  | _ => 60

/-- A vertical-blanking line (R846): at or beyond V_ACTIVE, or any line of a frame without active video. -/
def State.blankingLine (s : State) : Bool :=
  decide (s.trd.timing.vActive ≤ s.trd.now.line) || s.darkFrame s.trd.now.frame

/-- DRAM training has completed. -/
def State.trained (s : State) : Bool := s.bit Reg.DMC_STATUS Reg.DMC_STATUS_TRAINED

/-- The address of a channel's line (R294). -/
def chanAddr (c line : Nat) : Nat :=
  let base := 1536 * line + 512 * (c / 4)
  match (List.range 4).find? fun x => sliceOf (base + 128 * x) == c with
  | some x => base + 128 * x
  | none => base

/-! Claims. -/

/-- Who may claim a slot (Table 6.6). -/
inductive Claim where
  | raster | live | bulk | scrub
  deriving DecidableEq, Repr

/-- The claim order of slot `k` of a channel (Table 6.6). -/
def State.claims (s : State) (k : Nat) : List Claim :=
  let p := k % 8
  let g := k / 8 % 16
  if p < s.rasSlots then [.raster, .live, .bulk]
  else if p = 6 ∧ g = 15 then [.raster, .bulk, .live]
  else if p = 6 ∧ g = 7 ∧ s.blankingLine = true then [.raster, .scrub, .live, .bulk]
  else [.raster, .live, .bulk]

/-- A request may take a claim at slot `k`: a RASTER one the slot assigned to it, or the LIVE queue's when it has no raster
position (R345). -/
def DramReq.takes (q : DramReq) (k : Nat) : Claim → Bool
  | .raster => q.slot == some k
  | .live => q.cls == .live || (q.cls == .raster && q.slot.isNone)
  | .bulk => q.cls == .bulk
  | .scrub => false

/-- The request first in order among two: the older, then the lower requester index (R346), then the one that came first. -/
def DramReq.before (a b : DramReq) : Bool :=
  decide (a.cclk < b.cclk) || (a.cclk == b.cclk && (decide (a.req < b.req) || (a.req == b.req && decide (a.age < b.age))))

/-- The first of some requests in the order of R346. -/
def firstReq (l : List DramReq) : Option DramReq :=
  l.foldl (fun best q => match best with
    | none => some q
    | some b => if q.before b then some q else some b) none

/-- What the slot is granted to: a request, the scrub, or nobody. -/
def State.winner (s : State) (c k : Nat) : List Claim → Option (Option DramReq)
  | [] => some none
  | .scrub :: _ => some none
  | x :: xs =>
    match firstReq (s.mem.queue.filter fun q => q.chan == c && q.waits.isNone && q.takes k x) with
    | some q => some (some q)
    | none => s.winner c k xs

/-! What a grant does. -/

/-- The accesses that waited for a check read enter their queues; RASTER ones are then assigned their slots (R340,
R345). -/
def State.releaseWaits (s : State) (age : Nat) : State :=
  (s.mem.queue.filter fun q => q.waits == some age).foldl (fun t q =>
    let slot := t.assignSlot q.chan q.cls
    t.onMem fun m => { m with
      queue := m.queue.map fun x => if x.age = q.age then { x with waits := none, slot := slot } else x }) s

/-- A check line enters the check cache; when the channel's 512 are in use the least recently used goes, written back
first if it was modified (R340). -/
def State.fillCheck (s : State) (c cline : Nat) (cls : MemClass) (req : Nat) : State :=
  let mine := s.mem.check.filter fun e => e.chan == c
  let fresh : CheckLine := { chan := c, cline := cline, dirty := false, cls := cls, req := req, lru := s.mem.use + 1 }
  let s1 := s.onMem fun m => { m with use := m.use + 1, check := m.check ++ [fresh] }
  if mine.length < 512 then s1
  else match mine.foldl (fun b e => match b with
      | none => some e
      | some x => if e.lru < x.lru then some e else some x) none with
    | none => s1
    | some v =>
      let s2 := s1.onMem fun m => { m with check := m.check.erase v }
      if v.dirty then s2.enqueueReq { chan := c, kind := .checkWrite, pa := chanAddr c (16 * v.cline), cls := v.cls,
                                      req := v.req, cclk := 0, age := 0, slot := none, waits := none, data := [], poison := false,
                                      ack := none }
      else s2

/-- A data write updates its check word in the check cache (R340). -/
def State.checkWritten (s : State) (q : DramReq) : State :=
  (s.touchCheck q.pa).onMem fun m => { m with check := m.check.map fun e =>
    if e.chan == q.chan && e.cline == checkLineOf q.pa then { e with dirty := true, cls := q.cls, req := q.req } else e }

/-- A data write stores its line, sets its granule's bit with its last write, and updates its check word (R323, R340). A
poisoned line is stored bad (R399). A write-back takes what the line, served until then, has become. -/
def State.grantWrite (s : State) (q : DramReq) : State :=
  let left := if q.ack.isSome then none else s.mem.leaving.find? fun l => l.pa == q.pa
  let bad := (left.map fun l => l.poison).getD q.poison
  let s1 := s.dramStore q.pa ((left.map fun l => l.data).getD q.data)
  let s2 := s1.onMem fun m => { m with
    leaving := if q.ack.isSome then m.leaving else m.leaving.filter fun l => !(l.pa == q.pa)
    bad := if bad then insertNat q.pa m.bad else m.bad.filter (· ≠ q.pa) }
  match q.ack with
  | some tag => (s2.checkWritten q).deliver 0 q.req tag q.pa [] false
  | none => s2.checkWritten q

/-- A request is granted; `late` when its slot lies in a refresh window that came to stand on it (R354). -/
def State.grantReq (s : State) (q : DramReq) (late : Bool) : State :=
  let s1 := s.onMem fun m => { m with queue := m.queue.erase q }
  let n := dramCount s.op + (if late then refreshPenalty s.op else 0)
  let fly := fun (t : State) => t.onMem fun m => { m with
    flights := m.flights ++ [{ chan := q.chan, kind := q.kind, age := q.age, pa := q.pa, grantAt := s.trd.cclk, count := n,
                               penalty := late }] }
  match q.kind with
  | .read => fly s1
  | .checkRead =>
    let s2 := (fly s1).fillCheck q.chan (checkLineOf q.pa) q.cls q.req
    if late then s2 else s2.releaseWaits q.age
  | .write => s1.grantWrite q
  | .zero => s1.checkWritten q
  | .checkWrite => s1

/-- Count an uncorrectable DRAM error and record its address (R330). -/
def State.dramUe (s : State) (pa : Nat) : State :=
  ((s.bump Reg.DMC_UE_CNT).wr Reg.DMC_UE_ADDR_LO (BitVec.ofNat 32 pa)).wr Reg.DMC_UE_ADDR_HI (BitVec.ofNat 32 (pa / 2 ^ 32))

/-- What the code finds in a line: a line stored bad is uncorrectable whatever else (R399). -/
def State.eccOf (s : State) (pa : Nat) (e : Ecc) : Ecc := if s.mem.bad.contains pa then .uncorrectable else e

/-- The scrub moves to its next line; after the last the pass is counted and the next begins (R331). -/
def State.scrubNext (s : State) (c : Nat) : State :=
  let ch := s.channel c
  if ch.scrub + 1 < s.dramTop / 1536 then s.setChannel c { ch with scrub := ch.scrub + 1, scrubBack := false }
  else (s.setChannel c { ch with scrub := 0, passFrom := s.trd.now.frame, starved := false, scrubBack := false }).bump
    Reg.DMC_SCRUB_PASS_CNT

/-- One scrub access: the write-back of a corrected line, or the read of the next line (R331). -/
def State.scrubUnit (s : State) (c : Nat) (e : Ecc) : State :=
  let ch := s.channel c
  let pa := chanAddr c ch.scrub
  if ch.scrubBack then s.scrubNext c
  else match s.eccOf pa e with
    | .clean => s.scrubNext c
    | .corrected => (s.setChannel c { ch with scrubBack := true }).bump Reg.DMC_CE_CNT
    | .uncorrectable => (s.dramUe pa).scrubNext c

/-- The CCLK left to the first at or after the start of a slot, at the point in force (R343). -/
def State.toSlot (s : State) (k : Nat) : Nat :=
  let c := 2 * s.cclkTime
  (s.slotStart k - 2 * s.trd.time + c - 1) / c

/-- SLOT_GRANT: the channel's next slot begins, in the first CCLK at or after its start, and is granted under its claim order; inside a refresh window only a
RASTER read whose assigned slot it is keeps it; a slot no class claims goes to the scrub (R331, R332, R340, R343, R346,
R354). -/
def execSlotGrant (chan : Fin 12) (ecc : Ecc) (s : State) : Host.Outcome State Fault Refusal :=
  if s.trained = false then .next s
  else
    let ch := s.channel chan
    let k := ch.slot
    let s := State.elapse (s.toSlot k) s
    let s1 := s.setChannel chan { ch with slot := k + 1 }
    if ch.blockFrom ≤ k ∧ k < ch.blockUntil then
      match s1.mem.queue.find? fun q => q.chan == chan.val && q.slot == some k && q.waits.isNone with
      | some q => .next (s1.grantReq q true)
      | none => .next s1
    else match s.winner chan k (s.claims k) with
      | some (some q) => .next (s1.grantReq q false)
      | _ => .next (s1.scrubUnit chan ecc)

/-- DRAM_RETURN: the channel's oldest read returns at its count from the grant (R329, R330, R342, R354, R773): its register
has the line, to be filled 42 CCLK on; an uncorrectable error is delivered poisoned and recorded. -/
def execDramReturn (chan : Fin 12) (ecc : Ecc) (s : State) : Host.Outcome State Fault Refusal :=
  match s.mem.flights.find? fun f => f.chan == chan.val with
  | none => .next s
  | some f =>
    let s1 := (s.elapseTo (f.grantAt + f.count)).onMem fun m => { m with flights := m.flights.erase f }
    match f.kind with
    | .read =>
      let e := s1.eccOf f.pa ecc
      let d := (List.range 128).map fun i => s1.dramByte (f.pa + i)
      let s2 := s1.onMem fun m => { m with
        mshrs := m.mshrs.map fun x =>
          if x.pa = f.pa then { x with data := some d, poison := e == .uncorrectable, fillAt := s1.trd.cclk + 42 } else x }
      .next (match e with
        | .clean => s2
        | .corrected => s2.bump Reg.DMC_CE_CNT
        | .uncorrectable => s2.dramUe f.pa)
    | .checkRead => .next (if f.penalty then s1.releaseWaits f.age else s1)
    | _ => .next s1

/-! Refresh. -/

/-- One pick boundary passes for the refresh schedule: the first after training is boundary 0 (R350). -/
def State.dmcPick (s : State) : State :=
  if s.trained then s.onMem fun m => { m with bound := some (match m.bound with
    | some b => b + 1
    | none => 0) }
  else s

/-- Set or clear a channel's bit of DMC_HOT (R351). -/
def State.setHot (s : State) (c : Nat) (hot : Bool) : State := s.setFld Reg.DMC_HOT ⟨c, 1⟩ (if hot then 1 else 0)

/-- A window blocks 10 slots of its channel from the next slot boundary, or from the end of a window in progress; the channel's first
window of a frame reads MR4 and, in a ZQ frame, issues the ZQ latch; the next is counted from `due` (R348, R349, R351, R352, R355). -/
def State.openWindow (s : State) (chan : Fin 12) (above85 : Bool) (due : Nat) : State :=
  let ch := s.channel chan
  let first := ch.frame != some s.trd.now.frame
  let hot := if first then above85 else ch.hot
  let start := max ch.slot ch.blockUntil
  let s1 := s.setChannel chan { ch with blockFrom := start, blockUntil := start + 10, opened := s.slotStart start, hot := hot,
                                        frame := some s.trd.now.frame, next := due + s.refPeriod hot }
  let s2 := if first then s1.setHot chan hot else s1
  let zq := s.trd.now.frame % orElse0 (s.fld Reg.DMC_REF_CFG Reg.DMC_REF_CFG_ZQ_FRAMES) 1 = 0
  if first ∧ zq then s2.emit 0 (.zqLatch chan) else s2

/-- REFRESH_WINDOW: the channel's window due at its pick boundary starts (R348 to R352, R355). -/
def execRefreshWindow (chan : Fin 12) (above85 : Bool) (s : State) : Host.Outcome State Fault Refusal :=
  match s.mem.bound with
  | none => .next s
  | some b => if b < s.refDue chan then .next s else .next ((State.elapse s.toTick s).openWindow chan above85 (s.refDue chan))

/-- The refresh interval has passed since a channel's last window, or since slot 0 when it has had none: 1.952 µs while its die is hot, else 3.904 µs
(R349, R353). -/
def State.refreshOwed (s : State) (c : Nat) : Bool :=
  let ch := s.channel c
  let since := if ch.frame.isNone then 2 * s.mem.slotZero else ch.opened
  decide (2 * usTime * (if ch.hot then 1952 else 3904) ≤ 1000 * (2 * s.trd.time - since))

/-- FORCED_REFRESH: the interval has expired before the next window, so a forced one starts and the next is counted from it
(R348, R349, R353, R355). -/
def execForcedRefresh (chan : Fin 12) (above85 : Bool) (s : State) : Host.Outcome State Fault Refusal :=
  match s.mem.bound with
  | none => .next s
  | some b => if s.refreshOwed chan then .next ((s.openWindow chan above85 b).bump Reg.DMC_FORCED_REF_CNT) else .next s

/-- SCRUB_STARVE: a pass not completed within TARGET frames is counted once (R333). -/
def execScrubStarve (chan : Fin 12) (s : State) : Host.Outcome State Fault Refusal :=
  let ch := s.channel chan
  let target := s.fld Reg.DMC_SCRUB_CFG Reg.DMC_SCRUB_CFG_TARGET
  let spent := (s.trd.now.frame + 65536 - ch.passFrom) % 65536
  if target ≠ 0 ∧ target ≤ spent ∧ ch.starved = false then
    .next ((s.setChannel chan { ch with starved := true }).bump Reg.DMC_SCRUB_STARVE_CNT)
  else .next s

/-- The refresh periods of a timing (R356): the interval over its longest pick, ceil(H_TOTAL / 64) pixel clocks of
H_TOTAL x V_TOTAL x refresh, each from 1 to 255. -/
def refreshPicks (t : Timing) (ns : Nat) : Nat :=
  let clocks := (t.hTotal + 63) / 64
  let hz1000 := t.hTotal * t.vTotal * t.refresh
  min 255 (max 1 (ns * hz1000 / (clocks * 1000000000000)))

/-- Set PERIOD and PERIOD_HOT for the timing in use (R356). -/
def State.setRefresh (s : State) : State :=
  (s.setFld Reg.DMC_REF_CFG Reg.DMC_REF_CFG_PERIOD (refreshPicks s.trd.timing 3904)).setFld Reg.DMC_REF_CFG
    Reg.DMC_REF_CFG_PERIOD_HOT (refreshPicks s.trd.timing 1952)

/-- An operating point comes into force: a read in flight returns at the largest count of the points in force during its
flight (R773). -/
def State.dramOpChange (s : State) (op : Nat) : State :=
  s.onMem fun m => { m with
    flights := m.flights.map fun f =>
      { f with count := max f.count (dramCount op + if f.penalty then refreshPenalty op else 0) } }

end Sys2Proof.Machine
end

