-- ==== Sys2Proof/Machine/Mmu.lean ====
section
/-! DEFINITION. The device MMU: table entries, the four-level walk and its faults (R357 to R359, R848), the TLBs (R360, R361,
R379) and their invalidation (R362, R363); and reads and writes of a tenant's virtual memory. -/

namespace Sys2Proof.Machine

/-- What a translation gives: a physical address with the page's base, size and write permission, or a fault's cause
(Table 6.9). -/
inductive Xlated where
  | ok (pa vbase bits pbase : Nat) (w : Bool)
  | fault (cause : Nat)
  deriving DecidableEq, Repr

/-- The root of a tenant's tables. -/
def State.mmuRoot (s : State) (t : Nat) : Nat :=
  4096 * s.fld (Reg.MMU_CTX_LO t) Reg.MMU_CTX_LO_ROOT + 2 ^ 32 * s.fld (Reg.MMU_CTX_HI t) Reg.MMU_CTX_HI_ROOT

/-- The address of the entry of a virtual address in a table of a level. -/
def entryAddr (table va level : Nat) : Nat := table + 8 * (va / 2 ^ (48 - 9 * level) % 512)

/-- The physical address an entry names. -/
def entryPa (e : Nat) : Nat := e / 4096 % 2 ^ 28 * 4096

/-- A leaf that maps `2^bits` bytes: misaligned frames give cause 0x3, the image region 0x4, beyond DRAM 0x5, a write
without W 0x2 (R358, R359). -/
def State.leaf (s : State) (va e bits : Nat) (write : Bool) : Xlated :=
  let base := entryPa e
  if base % 2 ^ bits ≠ 0 then .fault 3
  else if base < s.imageTop then .fault 4
  else if s.dramTop ≤ base then .fault 5
  else if write ∧ e.testBit 2 = false then .fault 2
  else .ok (base + va % 2 ^ bits) (va / 2 ^ bits * 2 ^ bits) bits base (e.testBit 2)

/-- Walk from a level (R357, R359): causes 0x1 and 0x3 level by level, 0x5 for a table entry beyond DRAM, then the
leaf. -/
def State.walkFrom (s : State) (va : Nat) (write : Bool) : Nat → Nat → Nat → Xlated
  | 0, _, _ => .fault 3
  | fuel + 1, level, table =>
    let a := entryAddr table va level
    if s.dramTop ≤ a then .fault 5
    else
      let e := s.memNat a 8
      if s.memPoison a || !e.testBit 0 then .fault 1
      else if e / 32 % 128 ≠ 0 ∨ e / 2 ^ 40 ≠ 0 then .fault 3
      else if level ≤ 2 then (if e.testBit 1 then .fault 3 else s.walkFrom va write fuel (level + 1) (entryPa e))
      else if level = 3 then
        (if e.testBit 1 then s.leaf va e 21 write else s.walkFrom va write fuel (level + 1) (entryPa e))
      else if !e.testBit 1 then .fault 3
      else s.leaf va e (if e.testBit 4 then 16 else 12) write

/-- A whole walk of a tenant's tables. -/
def State.walk (s : State) (tenant va : Nat) (write : Bool) : Xlated :=
  s.walkFrom (va % 2 ^ 48) write 4 1 (s.mmuRoot tenant)

/-- The TLB entry of a loom, else of the shared TLB, that covers an address. -/
def State.tlbHit (s : State) (loom tenant va : Nat) : Option TlbEntry :=
  let covers := fun (e : TlbEntry) => e.tenant == tenant && e.vbase == va % 2 ^ 48 / 2 ^ e.bits * 2 ^ e.bits
  match s.mem.tlb.find? fun e => e.place == some loom && covers e with
  | some e => some e
  | none => s.mem.tlb.find? fun e => e.place == none && covers e

/-- What a translation gives, with nothing changed: the context check, the TLBs, then the walk (R359, R360, R848). -/
def State.xlate (s : State) (loom tenant va : Nat) (write : Bool) : Xlated :=
  if s.bit (Reg.MMU_CTX_LO tenant) Reg.MMU_CTX_LO_EN = false then .fault 6
  else match s.tlbHit loom tenant va with
    | some e =>
      if write ∧ e.w = false then .fault 2
      else .ok (e.pbase + va % 2 ^ e.bits) e.vbase e.bits e.pbase e.w
    | none => s.walk tenant va write

/-- The table entries a walk reads, by address. -/
def State.walkReads (s : State) (va : Nat) : Nat → Nat → Nat → List Nat
  | 0, _, _ => []
  | fuel + 1, level, table =>
    let a := entryAddr table va level
    if s.dramTop ≤ a then []
    else
      let e := s.memNat a 8
      a :: if s.memPoison a || !e.testBit 0 || e / 32 % 128 != 0 || e / 2 ^ 40 != 0 || e.testBit 1 then []
        else s.walkReads va fuel (level + 1) (entryPa e)

/-- The CCLK of a read a walk makes: 42 through the Spool, or 298 after its slot grant (R360, R543). DESIGN CHOICE (log 145): how long the read waits for
that grant is a free value. -/
def State.readCclk (s : State) (a : Nat) : Nat :=
  if (s.line? a).isSome || !s.granuleSet a then 42 else Config.walkGrant s.free a + 298

/-- The CCLK a translation takes (R360, R848, Table 7.5): none in the loom's TLB, 18 in the shared TLB, and after a miss there a read for each level. -/
def State.xlateCclk (s : State) (loom tenant va : Nat) : Nat :=
  if s.bit (Reg.MMU_CTX_LO tenant) Reg.MMU_CTX_LO_EN = false then 0
  else match s.tlbHit loom tenant va with
    | some e => if e.place.isSome then 0 else 18
    | none => 18 + ((s.walkReads (va % 2 ^ 48) 4 1 (s.mmuRoot tenant)).map s.readCclk).sum

/-- The least recently used entry of a place. -/
def State.tlbOldest (s : State) (place : Option Nat) : Option TlbEntry :=
  (s.mem.tlb.filter fun e => e.place == place).foldl (fun b e => match b with
    | none => some e
    | some x => if e.lru < x.lru then some e else some x) none

/-- Fill a TLB of a given size, the least recently used entry leaving when it is full (R361). -/
def State.tlbFill (s : State) (size : Nat) (e : TlbEntry) : State :=
  let full := decide (size ≤ (s.mem.tlb.filter fun x => x.place == e.place).length)
  let s1 := if full then match s.tlbOldest e.place with
      | some v => s.onMem fun m => { m with tlb := m.tlb.erase v }
      | none => s
    else s
  s1.onMem fun m => { m with tlb := m.tlb ++ [{ e with lru := m.use + 1 }], use := m.use + 1 }

/-- The page an entry maps is the one that holds an address of a tenant. -/
def TlbEntry.covers (e : TlbEntry) (tenant va : Nat) : Bool :=
  e.tenant == tenant && e.vbase == va % 2 ^ 48 / 2 ^ e.bits * 2 ^ e.bits

/-- Make a translation: count it, keep the order of use, fill the TLBs after a walk that may fill them, and after a cause
0x2 on a held translation remove it from every TLB (R360 to R362, R379). -/
def State.translate (s : State) (loom tenant va : Nat) (write mayFill : Bool) : Xlated × State :=
  let r := s.xlate loom tenant va write
  let hit := s.tlbHit loom tenant va
  let enabled := s.bit (Reg.MMU_CTX_LO tenant) Reg.MMU_CTX_LO_EN
  let s1 := if enabled && hit.isNone then s.bump Reg.MMU_WALK_CNT else s
  match r with
  | .fault c =>
    let s2 := s1.bump Reg.MMU_FAULT_CNT
    (r, if c = 2 ∧ hit.isSome = true then
        s2.onMem fun m => { m with tlb := m.tlb.filter fun e => !e.covers tenant va }
      else s2)
  | .ok _ vbase bits pbase w =>
    let fresh : TlbEntry := { place := some loom, tenant := tenant, vbase := vbase, bits := bits, pbase := pbase, w := w,
                              lru := 0 }
    match hit with
    | some e =>
      if e.place = none then (r, if mayFill then s1.tlbFill 256 fresh else s1)
      else (r, s1.onMem fun m => { m with
        tlb := m.tlb.map fun x => if x == e then { x with lru := m.use + 1 } else x
        use := m.use + 1 })
    | none => (r, if mayFill then (s1.tlbFill 4096 { fresh with place := none }).tlbFill 256 fresh else s1)

/-! A tenant's virtual memory, as the operators read and write it. -/

/-- The first fault of a run of virtual addresses, page by 4 KiB page; `fuel` bounds the pages. -/
def State.vaFault (s : State) (loom tenant : Nat) (write : Bool) : Nat → Nat → Nat → Option (Nat × Nat)
  | 0, _, _ => none
  | fuel + 1, va, len =>
    if len = 0 then none
    else match s.xlate loom tenant va write with
      | .fault c => some (c, va)
      | .ok _ _ _ _ _ =>
        let k := 4096 - va % 4096
        s.vaFault loom tenant write fuel (va + k) (len - k)

/-- The first fault of a run of bytes. -/
def State.runFault (s : State) (loom tenant : Nat) (write : Bool) (va len : Nat) : Option (Nat × Nat) :=
  s.vaFault loom tenant write (len / 4096 + 2) va len

/-- The physical address of a virtual byte; none where it does not translate. -/
def State.vaPa (s : State) (loom tenant va : Nat) : Option Nat :=
  match s.xlate loom tenant va false with
  | .ok pa _ _ _ _ => some pa
  | .fault _ => none

/-- A byte of a tenant's memory; an address that does not translate reads zero here, and every operator looks for faults
first. -/
def State.vaByte (s : State) (loom tenant va : Nat) : Byte :=
  match s.vaPa loom tenant va with
  | some pa => s.memByte pa
  | none => 0#8

/-- A run of bytes of a tenant's memory. -/
def State.vaBytes (s : State) (loom tenant va : Nat) : Nat → List Byte
  | 0 => []
  | n + 1 => s.vaByte loom tenant va :: s.vaBytes loom tenant (va + 1) n

/-- Whether any line of a run is delivered darned. -/
def State.vaPoison (s : State) (loom tenant va len : Nat) : Bool :=
  (List.range (len / 128 + 2)).any fun i =>
    decide (128 * i < len + 128) && match s.vaPa loom tenant (min (va + 128 * i) (va + len - 1)) with
      | some pa => decide (0 < len) && s.memPoison pa
      | none => false

/-- Write a run of bytes of a tenant's memory page by page; `fuel` bounds the pages. -/
def State.vaWriteFuel : Nat → State → Nat → Nat → Nat → List Byte → MemClass → State
  | 0, s, _, _, _, _, _ => s
  | fuel + 1, s, loom, tenant, va, d, cls =>
    if d.isEmpty then s
    else
      let k := 4096 - va % 4096
      let s1 := match s.vaPa loom tenant va with
        | some pa => s.memWrite pa (d.take k) cls loom
        | none => s
      State.vaWriteFuel fuel s1 loom tenant (va + k) (d.drop k) cls

/-- Write a run of bytes of a tenant's memory. -/
def State.vaWrite (s : State) (loom tenant va : Nat) (d : List Byte) (cls : MemClass) : State :=
  State.vaWriteFuel (d.length / 4096 + 2) s loom tenant va d cls

/-! Invalidation. -/

/-- Whether an entry is among the translations an invalidation selects (SCOPE 3 is treated as 0). -/
def TlbEntry.selected (e : TlbEntry) (scope tenant va : Nat) : Bool :=
  match scope with
  | 1 => e.tenant == tenant
  | 2 => e.covers tenant va
  | _ => true

/-- A write of MMU_INV lands (R362, R363): the selected translations leave every TLB; BUSY reads 1; a write met by one in progress widens it
to the tenant when both name it, else to all tenants. -/
def State.landMmuInv (s : State) (data : Word) : State :=
  if Reg.MMU_INV_GO.get data = 0 then s
  else
    let scope := Reg.MMU_INV_SCOPE.get data % 3
    let tenant := Reg.MMU_INV_TENANT.get data
    let va := 4096 * s.fld Reg.MMU_INV_VA_LO Reg.MMU_INV_VA_LO_VA + 2 ^ 32 * s.fld Reg.MMU_INV_VA_HI Reg.MMU_INV_VA_HI_VA
    let new : Inval := { scope := scope, tenant := tenant, va := va, landed := s.trd.cclk }
    let merged := match s.mem.inval with
      | none => new
      | some i =>
        if i.scope = scope ∧ (scope = 0 ∨ i.tenant = tenant) ∧ (scope ≠ 2 ∨ i.va = va) then new
        else if i.scope ≠ 0 ∧ scope ≠ 0 ∧ i.tenant = tenant then { new with scope := 1 }
        else { new with scope := 0 }
    (s.onMem fun m => { m with
      tlb := m.tlb.filter fun e => !e.selected merged.scope merged.tenant merged.va
      inval := some merged }).setFld Reg.MMU_INV_STATUS Reg.MMU_INV_STATUS_BUSY 1

/-- MMU_INV. -/
def execMmuInv (data : Word) (s : State) : Host.Outcome State Fault Refusal := .next (s.landMmuInv data)

/-- MMU_INV_DONE (R362): BUSY clears, 16 CCLK after the last landing at the earliest. -/
def execMmuInvDone (s : State) : Host.Outcome State Fault Refusal :=
  match s.mem.inval with
  | none => .next s
  | some i =>
    .next (((s.elapseTo (i.landed + 16)).onMem fun m => { m with inval := none }).setFld Reg.MMU_INV_STATUS
      Reg.MMU_INV_STATUS_BUSY 0)

/-! Translation of a Shuttle channel. -/

/-- The virtual address of a channel's next line: its row, and its place in the row (Table 7.1). -/
def Chan.lineVa (c : Chan) : Nat :=
  let base := if c.dir = 1 ∨ c.dir = 2 then c.dst else c.src
  let row := if c.rowBytes = 0 then 0 else c.pos / c.rowBytes
  base + row * c.rowStride + (if c.rowBytes = 0 then 0 else c.pos % c.rowBytes)

/-- The channel's next line is a write to memory. -/
def Chan.writes (c : Chan) : Bool := c.dir == 1 || c.dir == 2

/-- A halted channel whose translation succeeds runs on and its record is free; when no channel of its descriptor is left
halted, the held ones run and HALT clears (R391). -/
def State.resumed (s : State) (loom c : Nat) (ch : Chan) : State :=
  let s1 := (s.setChan loom c { ch with state := .run, fault := none, slot := none, retry := false }).onSht fun t =>
    { t with recs := match ch.slot with
      | some k => tblDel t.recs (ch.tenant * 64 + k)
      | none => t.recs }
  if s1.anyHalted ch.ring ch.seq then s1
  else
    let s2 := s1.onChansOf ch.ring ch.seq fun x => if x.state = .held then { x with state := .run } else x
    match s2.desc? ch.ring ch.seq with
    | some d => s2.setDesc { d with phase := .running }
    | none => s2

/-- Both fault events of R382: the tenant's and the PF's. -/
def State.faultEvents (s : State) (tenant : Nat) : State := (s.faultEvent tenant).faultEvent 0

/-- A translation fault of a channel (Table 7.3, R379, R384, R392, R395). -/
def State.channelFault (s : State) (loom c : Nat) (ch : Chan) (cause va : Nat) : State :=
  let f : Fault7 := { kind := 0, cause := cause, write := ch.writes, va := va, cclk := s.trd.cclk, stamp := s.trd.now }
  if ch.raster then
    (s.setChan loom c { ch with pos := ch.pos + 128 }).deliver 0 loom c 0 zeroLine true
  else if 3 ≤ cause then
    match s.desc? ch.ring ch.seq with
    | some d => s.endAtOnce d 0x10 0 cause va
    | none => s
  else if ch.retry then
    let s1 := s.setChan loom c { ch with fault := some f, retry := false, owed := true }
    let s2 := s1.onSht fun t => { t with
      recs := t.recs.map fun e =>
        if some e.1 = ch.slot.map (fun k => ch.tenant * 64 + k) then (e.1, { e.2 with resuming := none, fault := f }) else e }
    s2.bump Reg.SHT_REFAULT_CNT
  else s.setChan loom c { ch with fault := some f }

/-- The CCLK in which a channel may begin to translate its line: that of a resumed one follows the landing of its RESUME (R390). -/
def State.xlateFrom (s : State) (ch : Chan) : Nat :=
  if ch.retry then
    match (ch.slot.bind fun k => tblFind s.sht.recs (ch.tenant * 64 + k)).bind fun r => r.resuming with
    | some c => c + 1
    | none => 0
  else 0

/-- TRANSLATION: the next line of a running channel, or the faulted one of a resuming channel, is translated, from the CCLK `began` on (R357 to R361, R367,
R378, R379, R390 to R392, R395, R848). A walk that began before the last invalidation landed fills no TLB (R362). A key-value fault is no translation's (R588). -/
def execTranslation (loom : Fin 32) (chan : Fin 16) (began : Nat) (s : State) : Host.Outcome State Fault Refusal :=
  let ch := s.chan loom chan
  let va := if ch.retry then (ch.fault.map fun f => f.va).getD ch.lineVa else ch.lineVa
  let write := if ch.retry then (ch.fault.map fun f => f.write).getD ch.writes else ch.writes
  if ch.xlated.isSome || (decide (ch.total ≤ ch.pos) && !ch.retry) || !(ch.state == .run || ch.retry) ||
      (ch.fault.isSome && !ch.retry) || ch.fault.any (fun f => f.kind == 1) then .next s
  else if ch.phys then .next (s.setChan loom chan { ch with xlated := some ch.lineVa })
  else
    let mayFill := match s.mem.inval with
      | some i => decide (i.landed < began)
      | none => true
    let s := s.nextFree.2.elapseTo (max began (s.xlateFrom ch) + s.xlateCclk loom ch.tenant va)
    let x := s.translate loom ch.tenant va write mayFill
    match x.1 with
    | .fault c => .next (x.2.channelFault loom chan ch c va)
    | .ok pa _ _ _ _ =>
      let ch' := { ch with xlated := some pa }
      .next (if ch.retry then x.2.resumed loom chan ch' else x.2.setChan loom chan ch')

end Sys2Proof.Machine
end

