-- ==== Sys2Proof/Machine/Shuttle.lean ====
section
/-! DEFINITION. The Shuttle and the bandwidth regulator: buckets (R372 to R377), line issue (R367 to R370), halts, fault
records, resume and abort (R380 to R394), chains (R402 to R404) and the far tier (R406 to R409). -/

namespace Sys2Proof.Machine

/-! Buckets. -/

/-- The three kinds of bucket (R372). -/
inductive Bucket where
  | loom (l : Nat) | tenant (t : Nat) | raster
  deriving DecidableEq, Repr

/-- The register that sets a bucket. -/
def Bucket.reg : Bucket → Nat
  | .loom _ => Reg.SHT_LOOM_BKT
  | .tenant t => Reg.SHT_TEN_BKT t
  | .raster => Reg.SHT_RAS_BKT

/-- RATE is at [15:0] and DEPTH at [31:16] of every bucket register. -/
def State.bucketRate (s : State) (b : Bucket) : Nat := s.fld b.reg ⟨0, 16⟩

/-- A bucket's capacity in bytes; a DEPTH of 0 is treated as 1. -/
def State.bucketCap (s : State) (b : Bucket) : Nat := 128 * orElse0 (s.fld b.reg ⟨16, 16⟩) 1

/-- A bucket's level; it is full until something has been charged (R373). -/
def State.bucketLevel (s : State) (b : Bucket) : Nat :=
  match b with
  | .loom l => (tblFind s.sht.loomLvl l).getD (s.bucketCap b)
  | .tenant t => (tblFind s.sht.tenLvl t).getD (s.bucketCap b)
  | .raster => s.sht.rasLvl.getD (s.bucketCap b)

def State.setBucket (s : State) (b : Bucket) (x : Nat) : State :=
  s.onSht fun t => match b with
    | .loom l => { t with loomLvl := tblPut t.loomLvl l x }
    | .tenant n => { t with tenLvl := tblPut t.tenLvl n x }
    | .raster => { t with rasLvl := some x }

/-- The buckets a channel's line charges (Table 7.2). -/
def Chan.buckets (loom : Nat) (c : Chan) : List Bucket :=
  if c.chain ∧ c.rank ≠ 0 then [] else if c.raster then [.raster] else [.loom loom, .tenant c.tenant]

/-- Every regulated bucket of some holds a line's 128 bytes (R374, R375). -/
def State.bucketsHold (s : State) (bs : List Bucket) : Bool :=
  bs.all fun b => s.bucketRate b == 0 || decide (128 ≤ s.bucketLevel b)

/-- Charge a line to the regulated buckets of some (R374 to R376). -/
def State.chargeBuckets (s : State) (bs : List Bucket) : State :=
  bs.foldl (fun t b => if t.bucketRate b = 0 then t else t.setBucket b (t.bucketLevel b - 128)) s

/-- Charge a number of lines at once to the regulated buckets of some. -/
def State.chargeLines (s : State) (bs : List Bucket) (n : Nat) : State :=
  bs.foldl (fun t b => if t.bucketRate b = 0 then t else t.setBucket b (t.bucketLevel b - 128 * n)) s

/-- The lines, up to a number, that every regulated bucket of some holds (R374, R375). -/
def State.linesHeld (s : State) (bs : List Bucket) (n : Nat) : Nat :=
  bs.foldl (fun k b => if s.bucketRate b = 0 then k else min k (s.bucketLevel b / 128)) n

/-- One bucket's refill (R373); an unregulated bucket keeps its level. -/
def State.refillBucket (s : State) (b : Bucket) : State :=
  if s.bucketRate b = 0 then s else s.setBucket b (min (s.bucketLevel b + s.bucketRate b) (s.bucketCap b))

/-- BUCKET_REFILL: every bucket that is not full is refilled, once for each pick boundary, 2 CCLK after it (R36,
R373). -/
def execBucketRefill (s : State) : Host.Outcome State Fault Refusal :=
  if s.sht.refilled = s.ten.picks then .next s
  else
    let s := State.elapse s.toTick s
    let s0 := s.onSht fun t => { t with refilled := s.ten.picks }
    let s1 := (s.sht.loomLvl.map fun e => e.1).foldl (fun t l => t.refillBucket (.loom l)) s0
    let s2 := (s.sht.tenLvl.map fun e => e.1).foldl (fun t n => t.refillBucket (.tenant n)) s1
    .next (if s.sht.rasLvl.isSome then s2.refillBucket .raster else s2)

/-- A write to a bucket's register fills the bucket (R373). -/
def State.fillBuckets (s : State) (off : Nat) : State :=
  s.onSht fun t =>
    if off = Reg.SHT_LOOM_BKT then { t with loomLvl := [] }
    else if off = Reg.SHT_RAS_BKT then { t with rasLvl := none }
    else { t with tenLvl := t.tenLvl.filter fun e => Reg.SHT_TEN_BKT e.1 ≠ off }

/-! Line issue. -/

/-- Bytes of a channel's lines that are issued and not yet delivered or acknowledged. -/
def State.inFlight (s : State) (loom c : Nat) : Nat := 128 * s.linesOut loom c

/-- A channel may issue: it runs, its next line is translated, its buffer has room, or holds the whole line it sends, and
its buckets permit (R367 to R370, R374). A chained rank above 0 fetches nothing. -/
def State.mayIssue (s : State) (loom c : Nat) : Bool :=
  let ch := s.chan loom c
  ch.state == .run && ch.xlated.isSome && !(ch.chain && ch.rank != 0) &&
    (if ch.writes then decide (128 + s.inFlight loom c ≤ ch.fill)
      else decide (ch.fill + s.inFlight loom c + 128 ≤ ch.bufLen)) &&
    s.bucketsHold (ch.buckets loom)

/-- The channel whose turn it is: ascending, starting after the one that issued last (R368). -/
def State.turn (s : State) (loom : Nat) : Option Nat :=
  let last := tblGet (fun _ => 15) s.sht.last loom
  ((List.range 16).map fun i => (last + 1 + i) % 16).find? fun c => s.mayIssue loom c

/-- What a channel's other side has moved by now: a consumer has released some of the lines delivered, and no more (R371); a producer has written
some lines, no more than the buffer has room for and the walk still needs (R370, R371). DESIGN CHOICE (log 142): how many is a free value. -/
def Chan.moved (c : Chan) (n : Nat) : Chan :=
  if c.dir = 0 then { c with fill := c.fill - 128 * (n % (c.fill / 128 + 1)) }
  else if c.dir = 1 then
    let room := min (c.bufLen - c.fill) (c.total - c.got) / 128
    { c with fill := c.fill + 128 * (n % (room + 1)), got := c.got + 128 * (n % (room + 1)) }
  else c

/-- The consumers and producers of a loom's channels have gone on up to now; those of a halted channel keep its buffer (R380). -/
def State.moveLines (s : State) (loom : Nat) : State :=
  s.nextFree.2.onSht fun t => { t with chans := t.chans.map fun e =>
    if e.1 / 16 = loom ∧ (e.2.state = .run ∨ e.2.state = .held ∨ e.2.state = .done) then (e.1, e.2.moved (Config.linesMoved s.free (e.1 % 16)))
    else e }

/-- One line of a loom in each CCLK, and the looms of one CCLK in ascending number (R368, R377). DESIGN CHOICE (log 138): a loom commanded
after a higher one, or again, issues in the next CCLK. -/
def State.issueTurn (s : State) (loom : Nat) : State :=
  let s1 := match s.sht.issuer with
    | some x => if x.1 = s.trd.cclk ∧ loom ≤ x.2 then s.tick else s
    | none => s
  s1.onSht fun t => { t with issuer := some (s1.trd.cclk, loom) }

/-- LINE_ISSUE: one line of a loom's Shuttle (R367 to R371, R374 to R377, R395): its buckets are charged and POSITION moves
past it. -/
def execLineIssue (loom : Fin 32) (s : State) : Host.Outcome State Fault Refusal :=
  let s := (s.issueTurn loom).moveLines loom
  match s.turn loom with
  | none => .next s
  | some c =>
    let ch := s.chan loom c
    match ch.xlated with
    | none => .next s
    | some pa =>
      let s1 := s.chargeBuckets (ch.buckets loom)
      let s2 := s1.setChan loom c { ch with pos := ch.pos + 128, xlated := none }
      .next (s2.onSht fun t => { t with
        last := tblSet (fun _ => 15) t.last loom c
        issued := t.issued ++ [⟨loom, c, lineOf pa, ch.writes⟩] })

/-! Halts. -/

/-- CHANNEL_HALT: a tenant channel that has met a halting fault halts; it keeps POSITION and its buffer (R380, R385,
Table 7.3). -/
def execChannelHalt (loom : Fin 32) (chan : Fin 16) (s : State) : Host.Outcome State Fault Refusal :=
  let ch := s.chan loom chan
  match ch.fault with
  | none => .next s
  | some f =>
    if ch.raster || ch.state == .halted then .next s
    else
      let f' := { f with cclk := s.trd.cclk, stamp := s.trd.now }
      let s1 := (s.setChan loom chan { ch with state := .halted, fault := some f' }).bump Reg.SHT_HALT_CNT
      .next (match s1.desc? ch.ring ch.seq with
        | some d => s1.setDesc { d with phase := .halted }
        | none => s1)

/-- The CCLK of the last halt among a descriptor's channels. -/
def State.haltedAt (s : State) (ring seq : Nat) : Nat :=
  (s.sht.chans.map fun e =>
    if e.2.state = .halted ∧ e.2.ring = ring ∧ e.2.seq = seq then (e.2.fault.map fun f => f.cclk).getD 0 else 0).foldl max 0

/-- CHANNEL_HELD: in the CCLK after a halt every other running channel of the descriptor stops issuing (R381). -/
def execChannelHeld (ring : Fin 1024) (seq : Nat) (s : State) : Host.Outcome State Fault Refusal :=
  if s.anyHalted ring seq then
    .next ((s.elapseTo (s.haltedAt ring seq + 1)).onChansOf ring seq fun x => if x.state = .run then { x with state := .held } else x)
  else .next s

/-- The status a fault's kind ends a descriptor with (Tables 4.5 and 7.3). -/
def faultStatus (kind : Nat) : Nat := if kind = 1 then 0x11 else if kind = 2 then 0x12 else 0x10

/-- The lowest free slot of a tenant's fault-record page (R382). -/
def State.freeSlot (s : State) (tenant : Nat) : Option Nat :=
  (List.range 64).find? fun k => (tblFind s.sht.recs (tenant * 64 + k)).isNone

/-- FAULT_RECORD_WRITE: 8 CCLK after its halt a channel's record, log entry and events are written; with no free slot the
descriptor ends at once (R382 to R386). 8 CCLK after a fault met on a resume the events are raised again (R392). -/
def execFaultRecordWrite (loom : Fin 32) (chan : Fin 16) (s : State) : Host.Outcome State Fault Refusal :=
  let ch := s.chan loom chan
  match ch.fault, s.desc? ch.ring ch.seq with
  | some f, some d =>
    if ch.state == .halted && ch.owed then
      .next (((s.elapseTo (f.cclk + 8)).setChan loom chan { ch with owed := false }).faultEvents ch.tenant)
    else if ch.state != .halted || ch.slot.isSome then .next s
    else
      let s0 := s.elapseTo (f.cclk + 8)
      match s0.freeSlot ch.tenant with
      | none => .next ((s0.bump Reg.SHT_FREC_FULL_CNT).endAtOnce d (faultStatus f.kind) f.kind f.cause f.va)
      | some k =>
        let r : FaultRec := { resuming := none, tag := d.tag, seq := d.seq, ring := d.ring, loom := loom, chan := chan,
                              pos := ch.pos, fault := f }
        let s1 := (s0.setChan loom chan { ch with slot := some k }).onSht fun t =>
          { t with recs := tblPut t.recs (ch.tenant * 64 + k) r }
        .next ((s1.faultLog ch.tenant (some k) f.kind f.cause f.va d.ring d.seq).faultEvents ch.tenant)
  | _, _ => .next s

/-- A fault record as the tenant window shows it, as sixteen words (Table 7.4). -/
def FaultRec.bytes (r : FaultRec) (now : Nat) : List Byte :=
  let st := match r.resuming with
    | some c => if c < now then 2 else 1
    | none => 1
  leBytes 4 st ++ leBytes 4 r.tag ++ leBytes 4 r.seq ++ leBytes 2 r.ring ++ leBytes 1 r.loom ++ leBytes 1 r.chan
    ++ leBytes 1 r.fault.kind ++ leBytes 1 r.fault.cause ++ leBytes 1 (if r.fault.write then 1 else 0) ++ leBytes 1 0
    ++ leBytes 4 r.pos ++ leBytes 8 r.fault.va ++ leBytes 6 r.fault.stamp.bits ++ leBytes 26 0

/-- A RESUME lands: a HALTED record becomes RESUMING and its channel translates its line again (R387, R388, R390, R588). -/
def State.resumeRec (s : State) (tenant slot : Nat) : State :=
  let key := tenant * 64 + slot
  match tblFind s.sht.recs key with
  | none => s
  | some r =>
    if r.resuming.isSome then s
    else
      let s1 := s.onSht fun t => { t with recs := tblPut t.recs key { r with resuming := some s.trd.cclk } }
      s1.setChan r.loom r.chan { s1.chan r.loom r.chan with retry := true, xlated := none }

/-- RESUME. -/
def execResume (tenant : Fin 256) (slot : Fin 64) (s : State) : Host.Outcome State Fault Refusal :=
  .next (s.resumeRec tenant slot)

/-- An ABORT lands: the descriptor of a HALTED record ends with its fault status and DETAIL 0x01, and all its records are free
(R388, R389, R393); a RESUME that landed in this same CCLK has no effect. -/
def State.abortRec (s : State) (tenant slot : Nat) : State :=
  match tblFind s.sht.recs (tenant * 64 + slot) with
  | none => s
  | some r =>
    if r.resuming.isSome ∧ r.resuming ≠ some s.trd.cclk then s
    else match s.desc? r.ring r.seq with
      | some d => s.completeDesc d (faultStatus r.fault.kind) 0x01
      | none => s

/-- ABORT. -/
def execAbortRecord (tenant : Fin 256) (slot : Fin 64) (s : State) : Host.Outcome State Fault Refusal :=
  .next (s.abortRec tenant slot)

/-- A fault record's OP is written (R387): 1 RESUME, 2 ABORT, others nothing. -/
def State.landRecOp (s : State) (tenant slot op : Nat) : State :=
  if op = 1 then s.resumeRec tenant slot else if op = 2 then s.abortRec tenant slot else s

/-! Chains. -/

/-- The loom of the next rank whose same channel serves the same launch. -/
def State.nextRank (s : State) (loom c : Nat) : Option Nat :=
  let ch := s.chan loom c
  (List.range 32).find? fun l =>
    let x := s.chan l c
    x.state != .idle && x.ring == ch.ring && x.seq == ch.seq && x.raster == ch.raster && x.rank == ch.rank + 1

/-- CHAIN_FORWARD: the next rank receives the line, with its darn mark, exactly 12 CCLK after this one (R403, R404). -/
def execChainForward (loom : Fin 32) (chan : Fin 16) (s : State) : Host.Outcome State Fault Refusal :=
  match s.sht.chain.find? fun x => x.loom == loom.val && x.chan == chan.val with
  | none => .next s
  | some x =>
    let s1 := (s.elapseTo (x.cclk + 12)).onSht fun t => { t with chain := t.chain.erase x }
    match s1.nextRank loom chan with
    | none => .next s1
    | some l => .next (s1.channelLine l chan 0 0 x.data x.darn)

/-! The far tier. -/

/-- The size of a tenant's far tier in bytes (R406). -/
def State.farSize (s : State) (t : Nat) : Nat := 4096 * s.fld (Reg.SHT_FAR_SIZE t) Reg.SHT_FAR_SIZE_SIZE

/-- The host address of a far-tier offset (R406). -/
def State.farAddr (s : State) (t off : Nat) : Nat :=
  s.addr64 (Reg.SHT_FAR_BASE_LO t) (Reg.SHT_FAR_BASE_HI t) + off

/-- A free requester tag; descriptor fetches use the same 256 (R408). -/
def State.freeTag (s : State) : Option Nat :=
  if 256 ≤ s.sht.far.length + (s.ten.rings.map fun e => e.2.reads).sum then none
  else (List.range 256).find? fun k => s.sht.far.all fun f => f.tag != k

/-- An offset outside the tenant's far tier ends its descriptor at once (Table 7.3). -/
def State.farOutside (s : State) (off ring seq : Nat) : State :=
  match s.desc? ring seq with
  | some d => s.endAtOnce d 0x10 2 0 off
  | none => s

/-- The page move whose frame holds an address (R584, R585). -/
def State.moveAt (s : State) (pa : Nat) : Option KvMove :=
  s.kv.moves.find? fun m => decide (m.pa ≤ pa ∧ pa < m.pa + m.len)

/-- Some bytes of a moving page have moved, or a far-tier error has met it. -/
def State.moveProgress (s : State) (pa n : Nat) (bad : Bool) : State :=
  { s with kv := { s.kv with moves := s.kv.moves.map fun m =>
      if m.pa ≤ pa ∧ pa < m.pa + m.len then { m with left := m.left - n, failed := m.failed || bad } else m } }

/-- The buckets of a far-tier request's lines on the device's side: the issuing loom's and the owning tenant's, and of a page the
walker moves the owning tenant's alone (Table 7.2). -/
def State.farBuckets (s : State) (tenant loom pa : Nat) : List Bucket :=
  if (s.moveAt pa).isSome then [.tenant tenant] else [.loom loom, .tenant tenant]

/-- FAR_TIER_READ: one Memory Read request, aligned to 128 bytes and at most Max Read Request Size, with the tenant's
routing ID, for the lines its buckets hold (R374, R406 to R409). Without a free tag or a line's bytes in its buckets it waits. -/
def execFarTierRead (tenant : Fin 256) (loom : Fin 32) (offset len pa ring seq : Nat) (s : State) :
    Host.Outcome State Fault Refusal :=
  let off := offset / 128 * 128
  let bs := s.farBuckets tenant loom pa
  let want := min s.hif.mrrs ((len + 127) / 128 * 128)
  let n := 128 * s.linesHeld bs (want / 128)
  if s.farSize tenant < off + max want 128 then .next (s.farOutside off ring seq)
  else if n = 0 then .next s
  else match s.freeTag with
    | none => .next s
    | some k =>
      let r : FarRead := { tag := k, tenant := tenant, offset := off, len := n, pa := pa, ring := ring, seq := seq,
                           page := (s.moveAt pa).isSome }
      .next (((s.chargeLines bs (n / 128)).onSht fun t => { t with far := t.far ++ [r] }).send
        { msg := .hostRead tenant (s.farAddr tenant off) n, fn := some tenant.val, after := 0, event := none,
          chain := .none })

/-- FAR_TIER_WRITE: one Memory Write of at most Max Payload Size, aligned to 128 bytes, with the bytes of device memory at
its source, for the lines its buckets hold (R374, R406, R407, R409). -/
def execFarTierWrite (tenant : Fin 256) (loom : Fin 32) (offset len pa ring seq : Nat) (s : State) :
    Host.Outcome State Fault Refusal :=
  let off := offset / 128 * 128
  let bs := s.farBuckets tenant loom pa
  let want := min s.hif.mps ((len + 127) / 128 * 128)
  let n := 128 * s.linesHeld bs (want / 128)
  if s.farSize tenant < off + max want 128 then .next (s.farOutside off ring seq)
  else if n = 0 then .next s
  else .next (((s.chargeLines bs (n / 128)).moveProgress pa n false).send
    { msg := .hostWrite tenant (s.farAddr tenant off) (s.memBytes pa n), fn := some tenant.val, after := 0, event := none,
          chain := .none })

/-- The class of a ring's far-tier traffic (R409). -/
def State.ringClass (s : State) (g : Nat) : MemClass := if s.ringLive g then .live else .bulk

/-- FAR_TIER_COMPLETION: the data moves through the Spool to where it belongs; an error ends the descriptor at once; what
arrives after its descriptor has ended is discarded and its tag released (R378, R409). -/
def execFarTierCompletion (tag : Fin 256) (ok : Bool) (data : List Byte) (s : State) :
    Host.Outcome State Fault Refusal :=
  match s.sht.far.find? fun f => f.tag == tag.val with
  | none => .next s
  | some f =>
    let s1 := s.onSht fun t => { t with far := t.far.erase f }
    let d := s1.desc? f.ring f.seq
    if !f.page && d.isNone then .next s1
    else if ok then
      let s2 := s1.memWrite f.pa (data.take f.len) (s1.ringClass f.ring) 32
      .next (if f.page then s2.moveProgress f.pa f.len false else s2)
    else if f.page then .next ((s1.bump Reg.SHT_FAR_ERR_CNT).moveProgress f.pa 0 true)
    else
      let s2 := s1.bump Reg.SHT_FAR_ERR_CNT
      .next (match d with
        | some x => s2.endAtOnce x 0x12 2 0 f.offset
        | none => s2)

end Sys2Proof.Machine
end

