-- ==== Sys2Proof/Machine/Rings.lean ====
section
/-! DEFINITION. Rings: enable and disable (R178 to R181), doorbells (R182 to R184), descriptor reads (R184, R185, R256 to R258)
and fetches with their checks (R186, R187, R192, R198, R758, R759, R765), and completion records on their way out (R199 to
R202). -/

namespace Sys2Proof.Machine

/-! Special roles (R759). -/

/-- A collective ring: an enabled SLV_COLL_RING entry names it, and it is not the intake ring. -/
def State.isColl (s : State) (g : Nat) : Bool :=
  !s.isIntake g && (List.range 16).any fun k =>
    s.bit (Reg.SLV_COLL_RING k) Reg.SLV_COLL_RING_EN && s.fld (Reg.SLV_COLL_RING k) Reg.SLV_COLL_RING_RING == g

/-! Enable and disable. -/

/-- Complete the descriptors of a list in turn with one status. -/
def State.completeAll (s : State) (ds : List Desc) (status : Nat) : State :=
  ds.foldl (fun t d => match t.desc? d.ring d.seq with
    | some e => t.completeDesc e status 0
    | none => t) s

/-- A ring is disabled (R180): fetching stops, what is not dispatched or is halted ends with ABORT_FLR, and DRAINING reads 1
while dispatched descriptors remain. -/
def State.disableRing (s : State) (g : Nat) : State :=
  let s1 := (s.setRing g { s.ring g with reads := 0, refused := false }).setFld (Reg.QRG_CFG g) Reg.QRG_CFG_EN 0
  let s2 := s1.setFld (Reg.QRG_CFG g) Reg.QRG_CFG_DRAINING 1
  (s2.completeAll (s.ten.descs.filter fun d => d.ring == g && (d.phase == .waiting || d.phase == .halted)) 0x21).moveDraining g

/-- A ring is enabled (R178, R263). -/
def State.startRing (s : State) (g : Nat) : State :=
  (((s.setRing g Ring.idle).wr (Reg.QRG_PTR g) 0#32).wr (Reg.QRG_FETCH_SEQ g) 0#32).wr (Reg.QRG_DONE_SEQ g) 0xFFFFFFFF#32

/-- A write of QRG_CFG lands (R178 to R181). -/
def State.landRingCfg (s : State) (g : Nat) (data : Word) : State :=
  let old := s.rd (Reg.QRG_CFG g)
  let en := Reg.QRG_CFG_EN.get data
  if s.ringEn g then
    let v := Reg.QRG_CFG_VEC.put (Reg.QRG_CFG_PRIO.put old (Reg.QRG_CFG_PRIO.get data)) (Reg.QRG_CFG_VEC.get data)
    let s1 := s.wr (Reg.QRG_CFG g) v
    if en = 0 then s1.disableRing g else s1
  else if en = 1 then
    if s.bit (Reg.QRG_CFG g) Reg.QRG_CFG_DRAINING then s else (s.plainWrite (Reg.QRG_CFG g) data).startRing g
  else s.plainWrite (Reg.QRG_CFG g) data

/-- RING_ENABLE: a QRG_CFG write that sets EN. -/
def execRingEnable (ring : Fin 1024) (data : Word) (s : State) : Host.Outcome State Fault Refusal :=
  .next (s.landRingCfg ring (Reg.QRG_CFG_EN.put data 1))

/-- RING_DISABLE: a QRG_CFG write that clears EN. -/
def execRingDisable (ring : Fin 1024) (data : Word) (s : State) : Host.Outcome State Fault Refusal :=
  .next (s.landRingCfg ring (Reg.QRG_CFG_EN.put data 0))

/-! Doorbells. -/

/-- The conditions of R182, with the tenant enabled (R171) and not draining (Table 4.9, D1). -/
def State.doorbellOk (s : State) (tenant g : Nat) (data : Word) : Bool :=
  s.tenEn tenant && !s.draining tenant && s.ringTenant g == tenant && s.ringEn g && !(s.ring g).err
    && decide (data.toNat < 65536) && decide (data.toNat < s.ringSize g)

/-- A doorbell write emerges (R182 to R184): 24 CCLK on, the Heddle issues the read of a descriptor that it has made available; one that was
available before keeps its own time. -/
def State.landDoorbell (s : State) (tenant g : Nat) (data : Word) : State :=
  if s.doorbellOk tenant g data then
    let s1 := s.setFld (Reg.QRG_PTR g) Reg.QRG_PTR_TAIL data.toNat
    if s.ringAvail g < s1.ringAvail g ∧ s.ringAvail g ≤ (s.ring g).reads then
      s1.setRing g { s1.ring g with readAt := s.trd.cclk + 24 }
    else s1
  else s.bump (Reg.TEN_BAD_DB_CNT tenant)

/-! Descriptor reads. -/

/-- Descriptors of a ring between fetch and completion, reads in flight among them. -/
def State.inHand (s : State) (g : Nat) : Nat :=
  (s.ring g).reads + (s.outstanding g).length

/-- The intake FIFO has room for one more record (R416). -/
def State.intakeRoom (s : State) (g : Nat) : Bool := !s.isIntake g || decide (s.pic.fifo.length + (s.ring g).reads < 8)

/-- An intake ring that does not belong to the owner is not fetched from (R414, R415). -/
def State.intakeForeign (s : State) (g : Nat) : Bool :=
  s.isIntake g && s.ringTenant g != s.fld Reg.PIC_INTAKE Reg.PIC_INTAKE_OWNER

/-- The ring has a descriptor to read and its tenant and its in-flight limit let it, in D0 (R171, R176, R185, R187, R228, R843). -/
def State.wantsRead (s : State) (g : Nat) : Bool :=
  let t := s.ringTenant g
  s.ringEn g && !(s.ring g).err && s.tenEn t && !s.draining t && !s.d3hot && decide ((s.ring g).reads < s.ringAvail g)
    && decide (s.inHand g < s.fld (Reg.QRG_CFG g) Reg.QRG_CFG_DEPTH + 1) && s.intakeRoom g && !s.intakeForeign g

/-- The scoreboard has an entry for the ring's tenant (R256, R257, Table 5.10); a frame record takes none (R414). -/
def State.entryFree (s : State) (g : Nat) : Bool :=
  s.isIntake g || decide (s.scoreboardUsed < 4096) && decide (s.scoreboardOf (s.ringTenant g) < orElse0 (s.fld Reg.HED_CFG Reg.HED_CFG_TEN_SB_MAX) 256)

/-- A refused ring that is offered a free entry before this one: ascending, starting after the ring last served (R258). -/
def State.offeredFirst (s : State) (g : Nat) : Option Nat :=
  ((List.range 1024).map fun i => (s.ten.offered + 1 + i) % 1024).find? fun h =>
    ((s.ring h).refused || h == g) && s.wantsRead h && s.entryFree h

/-- DESCRIPTOR_READ_ISSUE: the read of the ring's next slot, 24 CCLK after its doorbell at the earliest (R174, R184, R185); with no
scoreboard entry it is refused and counted (R257, R258); an intake ring of another tenant is not read, which is reported
(R415, R416). -/
def execDescriptorReadIssue (ring : Fin 1024) (s : State) : Host.Outcome State Fault Refusal :=
  let s0 := s.elapseTo (s.ring ring).readAt
  if s0.intakeForeign ring then .next (s0.setFld Reg.PIC_STATUS Reg.PIC_STATUS_INTAKE_ERR 1)
  else if !s0.wantsRead ring then .next s
  else
    let r := s0.ring ring
    if !s0.entryFree ring then .next ((s0.setRing ring { r with refused := true }).bump Reg.HED_SB_FULL_CNT)
    else if !s0.isIntake ring && s0.offeredFirst ring != some ring.val then .next s0
    else
      let slot := (s0.ringHead ring + r.reads) % s0.ringSize ring
      let n := s0.ringTenant ring
      let s1 := (s0.setRing ring { r with reads := r.reads + 1, refused := false }).onTen fun t =>
        { t with offered := if r.refused then ring.val else t.offered }
      .next (s1.send { msg := .hostRead n (s0.addr64 (Reg.QRG_BASE_LO ring) (Reg.QRG_BASE_HI ring) + 64 * slot) 64,
                       fn := some n, after := 0, event := none, chain := .none })

/-! Fetches. -/

/-- A malformed descriptor's DETAIL (R192, Table 4.6), the first that applies. -/
def State.badDesc (s : State) (d : Desc) : Option Nat :=
  let max_ := orElse0 (s.fld (Reg.TEN_CFG d.tenant) Reg.TEN_CFG_MAX_LOOMS) 32
  if 512 ≤ d.num 2 2 ∨ 64 ≤ d.num 0x0E 1 ∨ 8 ≤ d.num 0x0F 1 ∨ 1024 ≤ d.num 0x16 2 ∨ 1024 ≤ d.num 0x1C 2 ∨ d.num 0x1E 2 ≠ 0 ∨
      d.num 0x24 4 ≠ 0 then some 1
  else if 32 < d.looms ∨ max_ < d.looms then some 2
  else if d.deps.any fun x => s.ringTenant x.1 != d.tenant then some 3
  else if d.launchEn && d.deadlineEn && !d.deadline.after d.launch then some 4
  else if d.lockstep && !d.launchEn then some 5
  else if d.argPtr % 64 ≠ 0 then some 6
  else none

/-- A collective record's status and DETAIL where its own bytes end it (Table 13.7), the first that applies. -/
def State.badColl (s : State) (d : Desc) : Option (Nat × Nat) :=
  let bytes := d.num 0x10 4
  if d.opcode ≠ 2 then some (0x31, 1)
  else if (d.num 2 2) &&& 0xFF76 ≠ 0 ∨ 1024 ≤ d.num 0x0A 2 ∨ d.num 0x28 24 ≠ 0 then some (0x30, 1)
  else if d.deps.any fun x => s.ringTenant x.1 != d.tenant then some (0x30, 3)
  else if 1 < d.num 8 1 ∨ bytes = 0 ∨ bytes % 128 ≠ 0 ∨ 2 ^ 24 < bytes ∨ 16 ≤ d.num 9 1 ∨
      (s.fld (Reg.SLV_GROUP (d.num 9 1)) Reg.SLV_GROUP_MEMBERS).testBit
        s.boot.chipId.toNat = false then some (0x32, 0)
  else none

/-- The profile of a descriptor fetched now: that of the ring's last LOOM_CFG still to complete, else the ring's (R263, and the case of a
LOOM_CFG fetched just before it). -/
def State.nextProfile (s : State) (g : Nat) : Profile :=
  match (s.ten.descs.filter fun c => c.ring == g && c.phase == .waiting && !c.coll && c.opcode == 0x0F03).getLast? with
  | some c => c.cfgProfile
  | none => (s.ring g).profile

/-- The entry of a descriptor fetched now (R186, R198, R263). -/
def State.fetched (s : State) (g : Nat) (bytes : List Byte) : Desc :=
  let d : Desc :=
    { ring := g, seq := (s.rd (Reg.QRG_FETCH_SEQ g)).toNat, tenant := s.ringTenant g, order := s.ten.order,
      bytes := bytes.take 64, profile := s.nextProfile g, coll := s.isColl g, phase := .waiting, late := false, hit := false,
      waitHit := none, dispAt := none, start := ⟨0, 0, 0, 0⟩, since := 0, picks := 0, work := [], stop := none, stopAt := 0, used := 0,
      cleared := false, stopped := false, darned := false, status := 0, detail := 0 }
  { d with late := d.launchEn && s.trd.now.after d.launch }

/-- A descriptor read has completed: HEAD and the fetch sequence number advance (R185, R186). -/
def State.advanceHead (s : State) (g : Nat) : State :=
  (s.setFld (Reg.QRG_PTR g) Reg.QRG_PTR_HEAD ((s.ringHead g + 1) % s.ringSize g)).wr (Reg.QRG_FETCH_SEQ g)
    (s.rd (Reg.QRG_FETCH_SEQ g) + 1#32)

/-- A descriptor read has failed (R187, R218). -/
def State.fetchError (s : State) (g : Nat) : State :=
  ((s.setRing g { s.ring g with err := true }).bump Reg.QRG_FETCH_ERR_CNT).faultEvent (s.ringTenant g)

/-- DESCRIPTOR_FETCH: the read of the ring's next slot completes (R185 to R187, R192, R195, R198, R240, R758, R765). What comes back to
a ring that has stopped fetching, or whose tenant is disabled (R171), or for the intake ring, whose records FRAME_RECORD takes, is not a descriptor. -/
def execDescriptorFetch (ring : Fin 1024) (ok : Bool) (bytes : List Byte) (s : State) :
    Host.Outcome State Fault Refusal :=
  let r := s.ring ring
  if r.reads = 0 ∨ s.isIntake ring = true then .next s
  else
    let s1 := s.setRing ring { r with reads := r.reads - 1 }
    if r.err || !s.tenEn (s.ringTenant ring) then .next s1
    else if !ok then .next (s1.fetchError ring)
    else
      let d := s1.fetched ring bytes
      let s2 := ((s1.advanceHead ring).onTen fun t => { t with descs := t.descs ++ [d], order := t.order + 1 })
      let bad := if d.coll then s2.badColl d else (s2.badDesc d).map fun k => (0x30, k)
      .next (match bad with
        | some (st, k) => s2.completeDesc d st k
        | none => s2.refreshReady)

/-- DEADLINE_MISS: a descriptor still undispatched at its DEADLINE ends (R39, R197). -/
def execDeadlineMiss (ring : Fin 1024) (seq : Nat) (s : State) : Host.Outcome State Fault Refusal :=
  match s.desc? ring seq with
  | some d =>
    if d.phase = .waiting ∧ d.deadlineEn = true ∧ s.trd.now.atOrAfter d.deadline = true then .next (s.completeDesc d 0x20 1)
    else .next s
  | none => .next s

/-! Records on their way out. -/

/-- The vector a ring's completions raise events on (R218, R219). -/
def State.ringVec (s : State) (r : Rec) : Nat :=
  vecIndex r.tenant (s.fld (Reg.QRG_CFG r.ring) Reg.QRG_CFG_VEC)

/-- COMPLETION_RECORD: the oldest completion is issued, 40 CCLK after it completed; its record begins transmission as soon as the
link lets it, and commits its event then (R174, R199, R202, R218). -/
def execCompletionRecord (s : State) : Host.Outcome State Fault Refusal :=
  match s.ten.recs with
  | [] => .next s
  | r :: rest =>
    let s0 := (s.elapseTo r.issueAt).onTen fun t => { t with recs := rest }
    let ev := if r.event then some (s0.ringVec r) else none
    .next (if r.write then
        s0.send { msg := .hostWrite r.tenant r.addr r.data, fn := some r.tenant, after := 0, event := ev, chain := .none }
      else match ev with
        | some v => s0.event v
        | none => s0)

end Sys2Proof.Machine
end

