-- ==== Sys2Proof/Machine/Float.lean ====
section
/-! DEFINITION. Numbers in the device's element formats (Table 5.3): what a code stands for, exact sums and products, and
the narrowing to a format under a ring profile (Table 5.7). -/

namespace Sys2Proof.Machine

/-- What an element stands for: not a number, an infinity, or the exact value `m * 2^e` with a sign. -/
inductive Num where
  | nan
  | inf (neg : Bool)
  | fin (neg : Bool) (m : Nat) (e : Int)
  deriving DecidableEq, Repr

/-- A binary floating-point format: exponent and mantissa bits, bias, and whether the top exponent holds infinities; FP8
E4M3 holds none and one NaN. -/
structure FloatFmt where
  eb   : Nat
  mb   : Nat
  bias : Nat
  ieee : Bool
  deriving DecidableEq, Repr

/-- The element formats of Table 5.3. -/
inductive Elem where
  | int4 | int8 | uint8 | e4m3 | e5m2 | fp16 | bf16 | int32 | fp32 | uint16
  deriving DecidableEq, Repr

/-- The format of an FMT code. -/
def Elem.ofCode : Nat → Option Elem
  | 1 => some .int4
  | 2 => some .int8
  | 3 => some .uint8
  | 4 => some .e4m3
  | 5 => some .e5m2
  | 6 => some .fp16
  | 7 => some .bf16
  | 8 => some .int32
  | 9 => some .fp32
  | 10 => some .uint16
  | _ => none

/-- Bits of one element. -/
def Elem.bits : Elem → Nat
  | .int4 => 4
  | .int8 | .uint8 | .e4m3 | .e5m2 => 8
  | .fp16 | .bf16 | .uint16 => 16
  | .int32 | .fp32 => 32

/-- The floating-point shape of a format, none for the integers. -/
def Elem.float : Elem → Option FloatFmt
  | .e4m3 => some ⟨4, 3, 7, false⟩
  | .e5m2 => some ⟨5, 2, 15, true⟩
  | .fp16 => some ⟨5, 10, 15, true⟩
  | .bf16 => some ⟨8, 7, 127, true⟩
  | .fp32 => some ⟨8, 23, 127, true⟩
  | _ => none

/-- A floating-point code's value; with `ftz` a denormal is zero. -/
def FloatFmt.decode (f : FloatFmt) (ftz : Bool) (x : Nat) : Num :=
  let neg := x / 2 ^ (f.eb + f.mb) % 2 == 1
  let ex := x / 2 ^ f.mb % 2 ^ f.eb
  let ma := x % 2 ^ f.mb
  if ex = 2 ^ f.eb - 1 ∧ (f.ieee = true ∨ ma = 2 ^ f.mb - 1) then (if f.ieee ∧ ma = 0 then .inf neg else .nan)
  else if ex = 0 then .fin neg (if ftz then 0 else ma) (1 - (f.bias : Int) - f.mb)
  else .fin neg (2 ^ f.mb + ma) ((ex : Int) - f.bias - f.mb)

/-- `m / 2^s` rounded: toward zero, or to nearest with ties to even. -/
def roundShift (trunc : Bool) (m s : Nat) : Nat :=
  let q := m / 2 ^ s
  let r := m % 2 ^ s
  if trunc ∨ s = 0 then q
  else if 2 ^ (s - 1) < r ∨ (r = 2 ^ (s - 1) ∧ q % 2 = 1) then q + 1 else q

/-- The magnitude code of `m * 2^e` in a format, not yet limited. -/
def FloatFmt.magnitude (f : FloatFmt) (trunc : Bool) (m : Nat) (e : Int) : Nat :=
  if m = 0 then 0
  else
    let top : Int := e + Nat.log2 m
    let emin : Int := 1 - (f.bias : Int)
    let q : Int := max top emin - f.mb
    let mant := if q ≤ e then m * 2 ^ (e - q).toNat else roundShift trunc m (q - e).toNat
    (q + f.mb + f.bias - 1).toNat * 2 ^ f.mb + mant

/-- The largest finite magnitude code. -/
def FloatFmt.maxFinite (f : FloatFmt) : Nat :=
  if f.ieee then (2 ^ f.eb - 1) * 2 ^ f.mb - 1 else 2 ^ (f.eb + f.mb) - 2

/-- The code of a value in a format. A value too large gives infinity, or under truncation the largest finite code; E4M3,
which has no infinity, and a NaN's code are values the spec does not state. -/
def FloatFmt.encode (f : FloatFmt) (trunc ftz : Bool) (x : Num) : Nat :=
  let sign := fun (neg : Bool) => if neg then 2 ^ (f.eb + f.mb) else 0
  match x with
  | .nan => Config.nanCode f.eb f.mb % 2 ^ (1 + f.eb + f.mb)
  | .inf neg => if f.ieee then sign neg + (2 ^ f.eb - 1) * 2 ^ f.mb else Config.overflowCode f.eb f.mb neg % 2 ^ (1 + f.eb + f.mb)
  | .fin neg m e =>
    let c := f.magnitude trunc m e
    if c ≤ f.maxFinite then sign neg + (if ftz ∧ c < 2 ^ f.mb then 0 else c)
    else if trunc then sign neg + f.maxFinite
    else if f.ieee then sign neg + (2 ^ f.eb - 1) * 2 ^ f.mb
    else Config.overflowCode f.eb f.mb neg % 2 ^ (1 + f.eb + f.mb)

/-- A two's complement code's value. -/
def signedOf (bits x : Nat) : Int := if x % 2 ^ bits < 2 ^ (bits - 1) then (x % 2 ^ bits : Nat) else (x % 2 ^ bits : Nat) - 2 ^ bits

/-- An integer as a value. -/
def Num.ofInt (x : Int) : Num := .fin (decide (x < 0)) x.natAbs 0

/-- The range of an integer format. -/
def Elem.range : Elem → Int × Int
  | .int4 => (-8, 7)
  | .int8 => (-128, 127)
  | .uint8 => (0, 255)
  | .uint16 => (0, 1023)
  | _ => (-2147483648, 2147483647)

/-- The value bits of an integer format: UINT16 holds 10-bit samples. -/
def Elem.valueBits : Elem → Nat
  | .uint16 => 10
  | e => e.bits

/-- The integer an element of an integer format stands for. -/
def Elem.intOf (f : Elem) (x : Nat) : Int :=
  match f with
  | .uint8 => (x % 256 : Nat)
  | .uint16 => (x % 1024 : Nat)
  | f => signedOf f.bits x

/-- The value of an element. -/
def Elem.decode (f : Elem) (ftz : Bool) (x : Nat) : Num :=
  match f.float with
  | some ff => ff.decode ftz x
  | none => Num.ofInt (f.intOf x)

/-- Narrow an integer to an integer format: saturate, or wrap (Table 5.7, SAT). -/
def Elem.narrow (f : Elem) (sat : Bool) (x : Int) : Nat :=
  let r := f.range
  let y := if sat then max r.1 (min r.2 x) else x
  (y % 2 ^ f.valueBits).toNat

/-- The integer nearest a value under a profile's rounding. -/
def Num.toInt (trunc : Bool) : Num → Option Int
  | .fin neg m e =>
    let a : Nat := if 0 ≤ e then m * 2 ^ e.toNat else roundShift trunc m (-e).toNat
    some (if neg then -(a : Int) else a)
  | _ => none

/-- Narrow a value to an element format under a profile (Table 5.7). An infinity or a NaN has no stated integer. -/
def Elem.encode (f : Elem) (trunc sat ftz : Bool) (x : Num) : Nat :=
  match f.float with
  | some ff => ff.encode trunc ftz x
  | none => match x.toInt trunc with
    | some i => f.narrow sat i
    | none => Config.nonFiniteInt f.bits (x == .nan) % 2 ^ f.valueBits

/-! FP32 arithmetic, each step rounded to nearest even (R234). -/

def fp32 : FloatFmt := ⟨8, 23, 127, true⟩

/-- Round to FP32. -/
def Num.round32 (x : Num) : Num := fp32.decode false (fp32.encode false false x)

/-- Not a number. -/
def Num.isNan : Num → Bool
  | .nan => true
  | _ => false

/-- A zero of either sign. -/
def Num.isZero : Num → Bool
  | .fin _ 0 _ => true
  | _ => false

/-- The sign of a value. -/
def Num.neg? : Num → Bool
  | .nan => false
  | .inf n => n
  | .fin n _ _ => n

def Num.negate : Num → Num
  | .nan => .nan
  | .inf n => .inf (!n)
  | .fin n m e => .fin (!n) m e

/-- A value's signed mantissa at a lower exponent. -/
def scaled (neg : Bool) (m : Nat) (e low : Int) : Int :=
  let a : Int := m * 2 ^ (e - low).toNat
  if neg then -a else a

/-- The exact sum; opposite infinities give NaN, and an exact zero is positive unless both are negative zeros. -/
def Num.add : Num → Num → Num
  | .nan, _ => .nan
  | _, .nan => .nan
  | .inf a, .inf b => if a = b then .inf a else .nan
  | .inf a, _ => .inf a
  | _, .inf b => .inf b
  | .fin na ma ea, .fin nb mb eb =>
    let low := min ea eb
    let s := scaled na ma ea low + scaled nb mb eb low
    .fin (if s = 0 then na && nb && ma == 0 && mb == 0 else decide (s < 0)) s.natAbs low

/-- The exact product. -/
def Num.mul : Num → Num → Num
  | .nan, _ => .nan
  | _, .nan => .nan
  | .inf a, .inf b => .inf (a != b)
  | .inf a, .fin nb mb _ => if mb = 0 then .nan else .inf (a != nb)
  | .fin na ma _, .inf b => if ma = 0 then .nan else .inf (na != b)
  | .fin na ma ea, .fin nb mb eb => .fin (na != nb) (ma * mb) (ea + eb)

/-- The same value with its mantissa's factors of two in the exponent; `fuel` bounds them. -/
def Num.reduced : Nat → Num → Num
  | fuel + 1, .fin n m e => if m ≠ 0 ∧ m % 2 = 0 then Num.reduced fuel (.fin n (m / 2) (e + 1)) else .fin n m e
  | _, x => x

/-- The lowest exponent and the sum of magnitudes at it, of finite values. -/
def Num.spread (l : List Num) : Option (Int × Nat) :=
  l.foldl (fun acc x => match acc, x.reduced 64 with
    | some (low, total), .fin _ m e =>
      if m = 0 then some (low, total)
      else if total = 0 then some (e, m)
      else if e < low then some (e, total * 2 ^ (low - e).toNat + m) else some (low, total + m * 2 ^ (e - low).toNat)
    | _, _ => none) (some (0, 0))

/-- A sum of values that every order of FP32 additions gives alike (R234): a NaN among them; one value; or values that are multiples of one
power of two and together less than 2^24 of it, so that no addition rounds. -/
def Num.exactSum (l : List Num) : Option Num :=
  if l.any Num.isNan then some .nan
  else match l with
    | [] => none
    | [x] => some x.round32
    | x :: xs => match Num.spread l with
      | some (low, total) => if total < 2 ^ 24 ∧ -149 ≤ low ∧ low ≤ 104 then some (xs.foldl Num.add x) else none
      | none => none

/-- Less than, for values that are numbers. -/
def Num.lt : Num → Num → Bool
  | .inf a, .inf b => a && !b
  | .inf a, .fin .. => a
  | .fin .., .inf b => !b
  | .fin na ma ea, .fin nb mb eb =>
    let low := min ea eb
    decide (scaled na ma ea low < scaled nb mb eb low)
  | _, _ => false

end Sys2Proof.Machine
end

