-- ==== Sys2Proof/Machine/Operands.lean ====
section
/-! DEFINITION. The catalogue frame every operator follows: tensor references (R241 to R243, Table 5.3), elements read from
and written to a tenant's memory, darn marks (R397 to R400), faults met by operands, and the end of an operator's work on
its looms. -/

namespace Sys2Proof.Machine

/-! Tensor references. -/

/-- A tensor reference (Table 5.3); `reserved` says that a reserved field is set. -/
structure TRef where
  base     : Nat
  fmt      : Nat
  layout   : Nat
  dim0     : Nat
  dim1     : Nat
  dim2     : Nat
  stride1  : Nat
  stride2  : Nat
  reserved : Bool
  deriving DecidableEq, Repr

/-- The reference in 32 bytes; DIM2 of 0 is treated as 1. -/
def tensorRef (b : List Byte) : TRef :=
  { base := bytesAt b 0 8, fmt := bytesAt b 8 1, layout := bytesAt b 9 1, dim0 := bytesAt b 0xC 2, dim1 := bytesAt b 0xE 2,
    dim2 := orElse0 (bytesAt b 0x10 2) 1, stride1 := bytesAt b 0x14 4, stride2 := bytesAt b 0x18 4,
    reserved := bytesAt b 0xA 2 != 0 || bytesAt b 0x12 2 != 0 || bytesAt b 0x1C 4 != 0 }

/-- The element format of a reference; INT8 stands in for an unknown code, which `legal` refuses. -/
def TRef.elem (r : TRef) : Elem := (Elem.ofCode r.fmt).getD .int8

/-- A reference R243 does not refuse: a known FMT, no reserved field set, and LAYOUT planar, or packed where the operator
takes it. -/
def TRef.legal (packed : Bool) (r : TRef) : Bool :=
  (Elem.ofCode r.fmt).isSome && !r.reserved && (r.layout == 0 || (packed && r.layout == 1))

/-- Bytes of `n` elements side by side. -/
def Elem.rowBytes (e : Elem) (n : Nat) : Nat := (n * e.bits + 7) / 8

/-- The virtual address of row `j` of plane `k`. -/
def TRef.rowVa (r : TRef) (j k : Nat) : Nat := r.base + k * r.stride2 + j * r.stride1

/-- Bytes of one row. -/
def TRef.rowLen (r : TRef) : Nat := r.elem.rowBytes r.dim0

/-- The virtual address of the byte in which an element begins. -/
def TRef.elemVa (r : TRef) (i j k : Nat) : Nat := r.rowVa j k + i * r.elem.bits / 8

/-- The rows of a reference as pairs of DIM1 and DIM2 indices. -/
def TRef.rows (r : TRef) : List (Nat × Nat) :=
  (List.range r.dim2).flatMap fun k => (List.range r.dim1).map fun j => (j, k)

/-- The runs of bytes of a reference, each with the channel that carries it. -/
def TRef.runs (r : TRef) (chan : Nat) : List (Nat × Nat × Nat) := r.rows.map fun x => (chan, r.rowVa x.1 x.2, r.rowLen)

/-! Elements. -/

/-- An element's code in memory (INT4 low nibble first; UINT16 samples in [9:0]). -/
def State.elemAt (s : State) (loom ten : Nat) (r : TRef) (i j k : Nat) : Nat :=
  let va := r.elemVa i j k
  match r.elem with
  | .int4 => (s.vaByte loom ten va).toNat / 2 ^ (4 * (i % 2)) % 16
  | e => leNat (s.vaBytes loom ten va (e.bits / 8)) % 2 ^ (if e = .uint16 then 10 else e.bits)

/-- Whether the line that holds an element is delivered darned. -/
def State.elemDarn (s : State) (loom ten : Nat) (r : TRef) (i j k : Nat) : Bool :=
  s.vaPoison loom ten (r.elemVa i j k) 1

/-- The bytes of element codes side by side. -/
def packCodes (e : Elem) : List Nat → List Byte
  | [] => []
  | [a] => if e = .int4 then [BitVec.ofNat 8 (a % 16)] else leBytes (e.bits / 8) a
  | a :: b :: t =>
    if e = .int4 then BitVec.ofNat 8 (a % 16 + 16 * (b % 16)) :: packCodes e t
    else leBytes (e.bits / 8) a ++ packCodes e (b :: t)

/-- One run of output bytes and whether it is darned. -/
structure OutRun where
  va   : Nat
  data : List Byte
  darn : Bool
  deriving DecidableEq, Repr

/-- The output runs of a reference whose elements are codes with darn marks: one run for each 32-byte sector of each row,
darned when any of its elements is (R397, R398). -/
def TRef.outRuns (r : TRef) (f : Nat → Nat → Nat → Nat × Bool) : List OutRun :=
  let per := 256 / r.elem.bits
  r.rows.flatMap fun x =>
    (List.range ((r.dim0 + per - 1) / per)).map fun c =>
      let cells := ((List.range r.dim0).drop (c * per)).take per |>.map fun i => f i x.1 x.2
      { va := r.rowVa x.1 x.2 + 32 * c, data := packCodes r.elem (cells.map fun y => y.1), darn := cells.any fun y => y.2 }

/-! Faults and darn marks. -/

/-- The first run that does not translate, with its cause. -/
def State.firstFault (s : State) (loom ten : Nat) (write : Bool) : List (Nat × Nat × Nat) → Option (Nat × Nat × Nat)
  | [] => none
  | (c, va, len) :: t => match s.runFault loom ten write va len with
    | some (cause, at_) => some (c, cause, at_)
    | none => s.firstFault loom ten write t

/-- An operand's line faults: the translation is counted, and the channel that carries it meets the fault (Table 7.3). -/
def State.opFault (s : State) (d : Desc) (loom c cause va : Nat) (write : Bool) : State :=
  let s1 := (s.translate loom d.tenant va write true).2
  let ch := { s1.chan loom c with
    state := .run, raster := false, tenant := d.tenant, ring := d.ring, seq := d.seq, retry := false, fault := none,
    slot := none, xlated := none }
  s1.channelFault loom c (if write then { ch with dir := 1 } else { ch with dir := 0 }) cause va

/-- Mark the lines of a run as carrying bad data (R399). -/
def State.markRun (s : State) (loom ten va len : Nat) : State :=
  (List.range (len / 128 + 2)).foldl (fun t i =>
    if len = 0 ∨ len + 127 ≤ 128 * i then t
    else match t.vaPa loom ten (min (va + 128 * i) (va + len - 1)) with
      | none => t
      | some pa => match t.line? pa with
        | some _ => t.poisonLine pa
        | none => (t.setGranule (pa / 4096)).onMem fun m => { m with bad := insertNat (lineOf pa) m.bad }) s

/-- Write an operator's output runs in the class of the descriptor's ring. -/
def State.writeRuns (s : State) (d : Desc) (loom : Nat) (out : List OutRun) : State :=
  out.foldl (fun t r =>
    let t1 := t.vaWrite loom d.tenant r.va r.data (t.ringClass d.ring)
    if r.darn then t1.markRun loom d.tenant r.va r.data.length else t1) s

/-! What an opcode's references are. -/

/-- How many references an opcode's inputs and then its outputs take (Tables 5.4, 9.5 and 10.7); the attention operators mix the two. -/
def opShape : Nat → Nat × Nat
  | 0x0100 | 0x0130 | 0x0200 | 0x0201 | 0x0228 => (3, 1)
  | 0x0110 | 0x0402 | 0x0403 | 0x0220 | 0x0221 => (2, 1)
  | 0x0118 | 0x0120 | 0x0128 | 0x0138 | 0x0400 | 0x0208 | 0x0209 | 0x0210 | 0x0229 | 0x0320 => (1, 1)
  | 0x0401 | 0x0318 => (0, 1)
  | 0x0310 => (2, 0)
  | 0x0321 => (1, 0)
  | 0x0300 => (9, 0)
  | 0x0308 => (10, 0)
  | _ => (0, 0)

/-- Whether a reference of an opcode is put out (Tables 5.4, 9.5 and 10.7). -/
def opOut (code k : Nat) : Bool :=
  match code with
  | 0x0300 => k == 1 || k == 2 || k == 3
  | 0x0308 => decide (6 ≤ k)
  | c => decide ((opShape c).1 ≤ k)

/-! The end of an operator's work. -/

/-- Every loom of a descriptor has done its work: the loom of rank `r` takes `cycles r` CCLK from the one it began in (R268), and is not done
before this one. -/
def State.workDone (s : State) (d : Desc) (cycles : Nat → Nat) (darned : Bool) : State :=
  match s.desc? d.ring d.seq with
  | none => s
  | some e => s.setDesc { e with
      darned := e.darned || darned
      work := e.work.map fun w => { w with ended := true, endsAt := max s.trd.cclk (w.began + cycles w.rank) } }

/-- The descriptor of an operator row: running the opcode on looms that have all begun, with work left, no fault in hand and no stop on
its way. -/
def State.opDesc? (s : State) (ring seq code : Nat) : Option Desc :=
  match s.desc? ring seq with
  | none => none
  | some d =>
    if !d.coll && d.opcode == code && d.phase == .running && d.stop.isNone && (d.work.all fun w => w.begun) &&
        (d.work.any fun w => !w.ended) &&
        !(s.sht.chans.any fun e => e.2.ring == ring && e.2.seq == seq && !e.2.raster && e.2.fault.isSome)
    then some d else none

/-- Every inbound channel of a descriptor has been given its whole walk: until then the consumer stalls (R371). -/
def State.fed (s : State) (d : Desc) : Bool :=
  s.sht.chans.all fun e => !(e.2.ring == d.ring && e.2.seq == d.seq && !e.2.raster && e.2.dir == 0 && e.2.state != .idle) ||
    decide (e.2.total ≤ e.2.got)

/-- The loom whose Shuttle carries a descriptor's operands: that of rank 0. -/
def Desc.loom0 (d : Desc) : Nat := (d.work.head?.map fun w => w.loom).getD 0

/-- The references of a descriptor's operand block. -/
def State.opRefs (s : State) (d : Desc) (n : Nat) : List TRef :=
  (List.range n).map fun i => tensorRef (s.vaBytes d.loom0 d.tenant (d.argPtr + 32 * i) 32)

/-- A run of bytes lies on a line. -/
def State.runHits (s : State) (loom ten va len pa : Nat) : Bool :=
  (List.range (len / 128 + 2)).any fun i =>
    decide (0 < len ∧ 128 * i < len + 127) && (s.vaPa loom ten (min (va + 128 * i) (va + len - 1))).any fun x => lineOf x == pa

/-- A reference of a list; a blank one beyond its end. -/
def refAt (l : List TRef) (i : Nat) : TRef := l.getD i ⟨0, 0, 0, 0, 0, 0, 0, 0, true⟩

/-- What another loom's L1 has modified of some runs comes back to the Spool, and its holder keeps the line in E (Table 6.4, "Shuttle, MX or
host read"). -/
def State.recallRuns (s : State) (d : Desc) (runs : List (Nat × Nat × Nat)) : State :=
  (s.mem.spool.filter fun e => (e.2.dir == .excl || e.2.dir == .modified) && s.cohAccess d.loom0 e.2.pa .bulk).foldl (fun t e =>
    if runs.any fun r => s.runHits d.loom0 d.tenant r.2.1 r.2.2 e.2.pa then
      (t.takeBack e.2.pa).onLine e.2.pa fun l => { l with dir := if l.dir = .modified then .excl else l.dir }
    else t) s

/-- The memory a descriptor's operator reads is as the looms have left it: its operand block, and then what its references name (R314). -/
def State.recallOperands (s : State) (d : Desc) : State :=
  let n := opShape d.opcode
  let s1 := s.recallRuns d [(0, d.argPtr, 32 * (n.1 + n.2))]
  s1.recallRuns d ((List.range (n.1 + n.2)).flatMap fun k =>
    let r := refAt (s1.opRefs d (n.1 + n.2)) k
    if opOut d.opcode k ∨ r.base = 0 then [] else r.runs k)

/-- The descriptor of an operator row with the state its operator finds. -/
def State.opReady (s : State) (ring seq code : Nat) : Option (Desc × State) :=
  (s.opDesc? ring seq code).map fun d => (d, s.recallOperands d)

/-- A fault on a descriptor's operand block: the translation is counted, and the descriptor ends at once (Table 7.3). -/
def State.blockFault (s : State) (d : Desc) (cause va : Nat) : State :=
  (s.translate d.loom0 d.tenant va false true).2.endAtOnce d 0x10 0 cause va

/-- Run an operator whose operand block holds `n` references (R241, R243, R384, R400): a fault of the block or of an operand
stops it as Table 7.3 gives; an illegal problem completes with SHAPE; darned inputs end it, or with DARN_OK go through to
its outputs; else its outputs are written and its looms have done their work. It stalls while an inbound channel lacks lines (R371). -/
def State.runOperator (s : State) (d : Desc) (argBytes : Nat) (legal : Bool) (inputs : List (Nat × Nat × Nat))
    (outputs : List OutRun) (cycles : Nat → Nat) : State :=
  let loom := d.loom0
  match s.firstFault loom d.tenant false [(0, d.argPtr, argBytes)] with
  | some (_, cause, va) => s.blockFault d cause va
  | none =>
    if !legal then s.completeDesc d 0x32 0
    else match s.firstFault loom d.tenant false inputs with
      | some (c, cause, va) => s.opFault d loom c cause va false
      | none =>
        if !s.fed d then s
        else match s.firstFault loom d.tenant true (outputs.map fun r => (15, r.va, r.data.length)) with
        | some (c, cause, va) => s.opFault d loom c cause va true
        | none =>
          match inputs.find? fun x => s.vaPoison loom d.tenant x.2.1 x.2.2 with
          | some x =>
            if d.darnOk then (s.writeRuns d loom outputs).workDone d cycles (outputs.any fun r => r.darn)
            else s.endUncorr d x.2.1
          | none => (s.writeRuns d loom outputs).workDone d cycles false

/-! Values under a ring profile. -/

/-- The FP32 value an element is computed as (R234, Table 5.7). -/
def TRef.value (r : TRef) (p : Profile) (code : Nat) : Num := (r.elem.decode p.ftz code).round32

/-- The code an FP32 value takes in a reference's format. -/
def TRef.code (r : TRef) (p : Profile) (x : Num) : Nat := r.elem.encode p.trunc p.sat p.ftz x

/-- The FP32 code of a value. -/
def Num.code32 (x : Num) : Nat := fp32.encode false false x

/-- The value of an FP32 code. -/
def num32 (x : Nat) : Num := fp32.decode false x

/-- The greater (true) or the lesser of two values. -/
def Num.pick (greater : Bool) (a b : Num) : Num :=
  if a.isNan || b.isNan || (a.isZero && b.isZero && a.neg? != b.neg?) then num32 (Config.minMax greater a.code32 b.code32)
  else if (if greater then a.lt b else b.lt a) then b else a

end Sys2Proof.Machine
end

