-- ==== Sys2Proof/Machine/TensorOps.lean ====
section
/-! DEFINITION. The tensor basics and data movement operators (Tables 5.4 and 5.5; R233, R234, R245 to R255, R267). -/

namespace Sys2Proof.Machine

/-- Division rounded up. -/
def ceilDiv (a b : Nat) : Nat := (a + b - 1) / b

/-! MATMUL. -/

/-- The K step and the CCLK per step of an operand pair; none for a pair MATMUL does not take (Table 5.2). -/
def mxPair (a b : Elem) : Option (Nat × Nat) :=
  let int := fun (e : Elem) => e == .int4 || e == .int8 || e == .uint8
  let fp8 := fun (e : Elem) => e == .e4m3 || e == .e5m2
  if a = .int4 ∧ b = .int4 then some (8, 1)
  else if int a && int b then some (4, 1)
  else if fp8 a && fp8 b then some (4, 2)
  else if a = b ∧ (a = .fp16 ∨ a = .bf16) then some (4, 4)
  else none

/-- The bytes of the scratchpad portion (R236). -/
def scratchBytes (q : Nat) : Nat := (12 - 3 * q) * 131072

/-- The first column block of a rank (R267). -/
def shareStart (nb looms r : Nat) : Nat := min nb (r * ceilDiv nb looms)

/-- The columns of N in a rank's share. -/
def shareCols (n looms r : Nat) : Nat :=
  let nb := ceilDiv n 4
  min n (4 * shareStart nb looms (r + 1)) - min n (4 * shareStart nb looms r)

/-- The footprint of a tile in bytes (R247). -/
def tileFootprint (a b d : Elem) (m n k : Nat) : Nat :=
  let up := fun x => 4 * ceilDiv x 4
  a.rowBytes (up m * up k) + b.rowBytes (up k * up n) + d.rowBytes (up m * up n) + 16 * ceilDiv m 4 * ceilDiv n 4 * 4

/-- One loom's tile is legal (R246, R247). -/
def tileLegal (a b d : Elem) (q m n k : Nat) : Bool :=
  decide (1 ≤ m ∧ m ≤ 256 ∧ 1 ≤ n ∧ n ≤ 256 ∧ 1 ≤ k ∧ k ≤ 1024) && decide (tileFootprint a b d m n k ≤ scratchBytes q)

/-- The mode of a tile is the legal one for its dimensions (R246, R248). -/
def modeLegal (mode m n k : Nat) : Bool :=
  if m % 4 = 0 ∧ n % 4 = 0 ∧ k % 4 = 0 then mode == 0 else mode == 1

/-- MX execution of a tile in CCLK (R254); a loom without a column executes nothing (R267). -/
def mxCycles (step c m n k : Nat) : Nat :=
  if n = 0 then 0
  else ceilDiv (ceilDiv n 4 * ceilDiv (ceilDiv k step) 16) 4 * max (ceilDiv m 4) 4 * c + 5

/-- An integer wrapped to 32 bits, two's complement (R234). -/
def wrap32 (x : Int) : Int := signedOf 32 (x % 2 ^ 32).toNat

/-- The integer sum of one output: products and C, modulo 2^32 (R234). -/
def intDot (l : List (Int × Int)) (c : Int) : Int := wrap32 (l.foldl (fun acc x => acc + x.1 * x.2) c)

/-- One engine's sum in a cell step (R234, R250, R252): its 16 weight blocks' products, exact, in a fixed tree, which shows only where an addition
rounds. -/
def engineSum (a b : Elem) (ftz : Bool) (l : List (Nat × Nat)) : Num :=
  let code := fun (e : Elem) => match e with
    | .e4m3 => 4
    | .e5m2 => 5
    | .fp16 => 6
    | _ => 7
  match Num.exactSum (l.map fun x => (a.decode ftz x.1).mul (b.decode ftz x.2)) with
  | some x => x
  | none => num32 (Config.engineTree (code a) (code b) ftz (l.map fun x => x.1) (l.map fun x => x.2))

/-- A floating-point sum over the K positions of a column block on the MX engines (R250 to R252): groups g = nb * Kg + kg of 16 weight blocks of `k`
positions, four in each pass; the engines' sums are added in engine order, and the accumulator is written once in each pass. DEDUCED (log
143): each of these additions is one of FP32, rounded to nearest even. -/
def mxSum (a b : Elem) (ftz : Bool) (k nb : Nat) (l : List (Nat × Nat)) (acc : Num) : Num :=
  let kg := ceilDiv (ceilDiv l.length k) 16
  let first := nb * kg
  ((List.range ((first + kg + 3) / 4)).drop (first / 4)).foldl (fun acc pass =>
    let sums := (List.range 4).filterMap fun e =>
      let g := 4 * pass + e
      if first ≤ g ∧ g < first + kg then some (engineSum a b ftz ((l.drop (16 * k * (g - first))).take (16 * k))) else none
    match sums with
    | [] => acc
    | x :: xs => (acc.add (xs.foldl (fun s y => (s.add y).round32) x)).round32) acc

/-- MATMUL's problem is legal (R243, R246 to R248): formats, reserved fields, extents and each loom's share. -/
def matmulLegal (d : Desc) (refs : List TRef) : Bool :=
  let a := refAt refs 0
  let b := refAt refs 1
  let c := refAt refs 2
  let z := refAt refs 3
  let m := d.inl 0 2
  let n := d.inl 2 2
  let k := d.inl 4 2
  let looms := d.work.length
  a.legal false && b.legal false && z.legal false && (c.base == 0 || c.legal false) &&
    (mxPair a.elem b.elem).isSome && decide (c.base = 0 ∨ c.elem.float.isSome = a.elem.float.isSome) &&
    decide (d.inl 7 1 < 32 ∧ d.inl 8 8 = 0) && modeLegal (d.inl 6 1) m n k &&
    a.dim0 == k && a.dim1 == m && b.dim0 == n && b.dim1 == k && z.dim0 == n && z.dim1 == m &&
    (c.base == 0 || (c.dim0 == n && c.dim1 == m)) &&
    (List.range looms).all fun r => let w := shareCols n looms r
      w == 0 && decide (0 < n ∧ 0 < r) || tileLegal a.elem b.elem z.elem d.l1q m w k

/-- The accumulator block of an output is darned (R397): a sector of A read for its row block, or of B read for its column
block. -/
def State.blockDarn (s : State) (loom ten : Nat) (a b : TRef) (m n k i j : Nat) : Bool :=
  ((List.range 4).any fun x => decide (4 * (j / 4) + x < m) && (List.range k).any fun q => s.elemDarn loom ten a q (4 * (j / 4) + x) 0)
    || ((List.range 4).any fun x => decide (4 * (i / 4) + x < n) && (List.range k).any fun q => s.elemDarn loom ten b (4 * (i / 4) + x) q 0)

/-- One output element of MATMUL. -/
def State.matmulElem (s : State) (d : Desc) (a b c z : TRef) (i j : Nat) : Nat :=
  let loom := d.loom0
  let ten := d.tenant
  let ks := List.range (d.inl 4 2)
  let p := d.profile
  match a.elem.float with
  | none =>
    let prods := ks.map fun q =>
      (a.elem.intOf (s.elemAt loom ten a q j 0), b.elem.intOf (s.elemAt loom ten b i q 0))
    let acc := intDot prods (if c.base = 0 then 0 else c.elem.intOf (s.elemAt loom ten c i j 0))
    if z.elem.float.isSome then z.code p (Num.ofInt acc)
    else z.elem.narrow p.sat (acc / 2 ^ d.inl 7 1)
  | some _ =>
    let zero : Num := .fin false 0 0
    let per := max 1 (ceilDiv (ceilDiv (d.inl 2 2) 4) d.work.length)
    let addend := if c.base = 0 then none else some (c.value p (s.elemAt loom ten c i j 0))
    let start := if Config.cFirst then addend.getD zero else zero
    let sum := mxSum a.elem b.elem p.ftz 4 (i / 4 % per) (ks.map fun q => (s.elemAt loom ten a q j 0, s.elemAt loom ten b i q 0)) start
    z.code p (match addend with
      | some x => if Config.cFirst then sum else (sum.add x).round32
      | none => sum)

/-- MATMUL: D = A · B + C (R233, R234, R245 to R255, R267, R397). -/
def execMatmul (ring : Fin 1024) (seq : Nat) (s : State) : Host.Outcome State Fault Refusal :=
  match s.opReady ring seq 0x0100 with
  | none => .next s
  | some (d, s) =>
    let refs := s.opRefs d 4
    let a := refAt refs 0
    let b := refAt refs 1
    let c := refAt refs 2
    let z := refAt refs 3
    let m := d.inl 0 2
    let n := d.inl 2 2
    let k := d.inl 4 2
    let pair := (mxPair a.elem b.elem).getD (4, 1)
    .next (s.runOperator d 128 (matmulLegal d refs)
      (a.runs 0 ++ b.runs 1 ++ (if c.base = 0 then [] else c.runs 2))
      (z.outRuns fun i j _ => (s.matmulElem d a b c z i j, s.blockDarn d.loom0 d.tenant a b m n k i j))
      fun r => mxCycles pair.1 pair.2 m (shareCols n d.work.length r) k)

/-! The Bobbin operators. -/

/-- An index into an extent, which broadcasts when the extent is 1. -/
def bcast (extent i : Nat) : Nat := if extent ≤ 1 then 0 else i

/-- An extent of an input fits an output's: equal, or 1. -/
def bcastOk (x z : Nat) : Bool := x == z || x == 1

/-- The value of an input's element, broadcast, with its darn mark. -/
def State.operand (s : State) (d : Desc) (r : TRef) (i j k : Nat) : Num × Bool :=
  let i := bcast r.dim0 i
  let j := bcast r.dim1 j
  let k := bcast r.dim2 k
  (r.value d.profile (s.elemAt d.loom0 d.tenant r i j k), s.elemDarn d.loom0 d.tenant r i j k)

/-- ELTWISE's function by its INLINE code (Table 5.4), each result rounded to FP32. -/
def eltwise (op : Nat) (x y : Num) : Num :=
  match op with
  | 0 => (x.add y).round32
  | 1 => (x.add y.negate).round32
  | 2 => (x.mul y).round32
  | 3 => x.pick true y
  | _ => x.pick false y

/-- ELTWISE. -/
def execEltwise (ring : Fin 1024) (seq : Nat) (s : State) : Host.Outcome State Fault Refusal :=
  match s.opReady ring seq 0x0110 with
  | none => .next s
  | some (d, s) =>
    let refs := s.opRefs d 3
    let x := refAt refs 0
    let y := refAt refs 1
    let z := refAt refs 2
    let fits := fun (r : TRef) => bcastOk r.dim0 z.dim0 && bcastOk r.dim1 z.dim1 && bcastOk r.dim2 z.dim2
    .next (s.runOperator d 96
      ((refs.all fun r => r.legal false) && fits x && fits y && decide (d.inl 0 2 ≤ 4))
      (x.runs 0 ++ y.runs 1)
      (z.outRuns fun i j k =>
        let a := s.operand d x i j k
        let b := s.operand d y i j k
        (z.code d.profile (eltwise (d.inl 0 2) a.1 b.1), a.2 || b.2))
      fun _ => 0)

/-- Two references of equal extents. -/
def TRef.sameShape (x z : TRef) : Bool := x.dim0 == z.dim0 && x.dim1 == z.dim1 && x.dim2 == z.dim2

/-- ACTIVATE's function by its INLINE code: ReLU keeps what is above zero and gives zero for what is below; the others are
named only. -/
def activateNum (kind : Nat) (x : Num) : Num :=
  match kind, x with
  | 0, .fin false m e => .fin false m e
  | 0, .fin true (_ + 1) _ => .fin false 0 0
  | 0, .inf true => .fin false 0 0
  | 0, .inf false => .inf false
  | k, y => num32 (Config.activate k y.code32)

/-- ACTIVATE. -/
def execActivate (ring : Fin 1024) (seq : Nat) (s : State) : Host.Outcome State Fault Refusal :=
  match s.opReady ring seq 0x0118 with
  | none => .next s
  | some (d, s) =>
    let refs := s.opRefs d 2
    let x := refAt refs 0
    let z := refAt refs 1
    .next (s.runOperator d 64 ((refs.all fun r => r.legal false) && x.sameShape z && decide (d.inl 0 2 ≤ 4)) (x.runs 0)
      (z.outRuns fun i j k =>
        let a := s.operand d x i j k
        (z.code d.profile (activateNum (d.inl 0 2) a.1), a.2))
      fun _ => 0)

/-- A row of an input: its values, and whether any is darned. -/
def State.operandRow (s : State) (d : Desc) (r : TRef) (j k : Nat) : List Num × Bool :=
  let l := (List.range r.dim0).map fun i => s.operand d r i j k
  (l.map fun x => x.1, l.any fun x => x.2)

/-- The greatest (true) or least value of a row; an empty row has none, and the spec states no result for it. -/
def rowPick (greater : Bool) : List Num → Num
  | [] => num32 (Config.minMax greater 0 0)
  | x :: xs => xs.foldl (fun a b => a.pick greater b) x

/-- The sum of a row in FP32 (R244): where no addition rounds its order does not show. -/
def rowTotal (l : List Num) : Num := (Num.exactSum l).getD (num32 (Config.rowSum (l.map Num.code32)))

/-- REDUCE over DIM0. -/
def execReduce (ring : Fin 1024) (seq : Nat) (s : State) : Host.Outcome State Fault Refusal :=
  match s.opReady ring seq 0x0120 with
  | none => .next s
  | some (d, s) =>
    let refs := s.opRefs d 2
    let x := refAt refs 0
    let z := refAt refs 1
    .next (s.runOperator d 64
      ((refs.all fun r => r.legal false) && z.dim0 == 1 && x.dim1 == z.dim1 && x.dim2 == z.dim2 && decide (d.inl 0 2 ≤ 2))
      (x.runs 0)
      (z.outRuns fun _ j k =>
        let row := s.operandRow d x j k
        let v := match d.inl 0 2 with
          | 0 => rowTotal row.1
          | 1 => rowPick true row.1
          | _ => rowPick false row.1
        (z.code d.profile v, row.2))
      fun _ => 0)

/-- SOFTMAX over DIM0. -/
def execSoftmax (ring : Fin 1024) (seq : Nat) (s : State) : Host.Outcome State Fault Refusal :=
  match s.opReady ring seq 0x0128 with
  | none => .next s
  | some (d, s) =>
    let refs := s.opRefs d 2
    let x := refAt refs 0
    let z := refAt refs 1
    .next (s.runOperator d 64 ((refs.all fun r => r.legal false) && x.sameShape z && d.inl 0 2 == 0) (x.runs 0)
      (z.outRuns fun i j k =>
        let row := s.operandRow d x j k
        (z.code d.profile (num32 (Config.softmax (row.1.map Num.code32) i)), row.2))
      fun _ => 0)

/-- NORM over DIM0, with a gain and a bias. -/
def execNorm (ring : Fin 1024) (seq : Nat) (s : State) : Host.Outcome State Fault Refusal :=
  match s.opReady ring seq 0x0130 with
  | none => .next s
  | some (d, s) =>
    let refs := s.opRefs d 4
    let x := refAt refs 0
    let g := refAt refs 1
    let b := refAt refs 2
    let z := refAt refs 3
    .next (s.runOperator d 128
      ((refs.all fun r => r.legal false) && x.sameShape z && g.dim0 == x.dim0 && b.dim0 == x.dim0 && decide (d.inl 0 2 ≤ 1))
      (x.runs 0 ++ g.runs 1 ++ b.runs 2)
      (z.outRuns fun i j k =>
        let row := s.operandRow d x j k
        let gain := s.operand d g i j k
        let bias := s.operand d b i j k
        (z.code d.profile (num32 (Config.norm (d.inl 0 2) (row.1.map Num.code32) i gain.1.code32 bias.1.code32)),
          row.2 || gain.2 || bias.2))
      fun _ => 0)

/-- CONVERT: the value of each element in the output's format. -/
def execConvert (ring : Fin 1024) (seq : Nat) (s : State) : Host.Outcome State Fault Refusal :=
  match s.opReady ring seq 0x0138 with
  | none => .next s
  | some (d, s) =>
    let refs := s.opRefs d 2
    let x := refAt refs 0
    let z := refAt refs 1
    .next (s.runOperator d 64 ((refs.all fun r => r.legal false) && x.sameShape z && d.inl 0 2 == 0) (x.runs 0)
      (z.outRuns fun i j k =>
        let a := s.operand d x i j k
        (z.code d.profile a.1, a.2))
      fun _ => 0)

/-! Data movement. -/

/-- COPY: the elements of X unchanged. -/
def execCopy (ring : Fin 1024) (seq : Nat) (s : State) : Host.Outcome State Fault Refusal :=
  match s.opReady ring seq 0x0400 with
  | none => .next s
  | some (d, s) =>
    let refs := s.opRefs d 2
    let x := refAt refs 0
    let z := refAt refs 1
    .next (s.runOperator d 64
      ((refs.all fun r => r.legal false) && x.fmt == z.fmt && x.sameShape z && d.inl 0 2 == 0) (x.runs 0)
      (z.outRuns fun i j k => (s.elemAt d.loom0 d.tenant x i j k, s.elemDarn d.loom0 d.tenant x i j k))
      fun _ => 0)

/-- A 32-bit pattern repeated over some bytes. -/
def fillBytes (pattern n : Nat) : List Byte := (List.range n).map fun i => BitVec.ofNat 8 (pattern / 256 ^ (i % 4))

/-- FILL: the 32-bit pattern of INLINE bytes 4 to 7, from the start of each row. -/
def execFill (ring : Fin 1024) (seq : Nat) (s : State) : Host.Outcome State Fault Refusal :=
  match s.opReady ring seq 0x0401 with
  | none => .next s
  | some (d, s) =>
    let z := refAt (s.opRefs d 1) 0
    .next (s.runOperator d 32 (z.legal false && d.inl 0 2 == 0) []
      (z.rows.map fun x => { va := z.rowVa x.1 x.2, data := fillBytes (d.inl 4 4) z.rowLen, darn := false })
      fun _ => 0)

/-- The row an index list names: entry `j` of a plane. -/
def State.listIndex (s : State) (d : Desc) (l : TRef) (j k : Nat) : Int :=
  Elem.int32.intOf (s.elemAt d.loom0 d.tenant l j 0 (bcast l.dim2 k))

/-- A row index inside an extent. -/
def rowIndex (i : Int) (extent : Nat) : Option Nat := if 0 ≤ i ∧ i < extent then some i.toNat else none

/-- GATHER: rows of X chosen by the INT32 list; for an index outside X the spec states no row. -/
def execGather (ring : Fin 1024) (seq : Nat) (s : State) : Host.Outcome State Fault Refusal :=
  match s.opReady ring seq 0x0402 with
  | none => .next s
  | some (d, s) =>
    let refs := s.opRefs d 3
    let x := refAt refs 0
    let l := refAt refs 1
    let z := refAt refs 2
    let loom := d.loom0
    let ten := d.tenant
    let rowsIn := z.rows.filterMap fun y => (rowIndex (s.listIndex d l y.1 y.2) x.dim1).map fun r => (0, x.rowVa r y.2, x.rowLen)
    .next (s.runOperator d 96
      ((refs.all fun r => r.legal false) && x.fmt == z.fmt && l.elem == .int32 && l.dim0 == z.dim1 && x.dim0 == z.dim0
        && x.dim2 == z.dim2 && d.inl 0 2 == 0)
      (l.runs 1 ++ rowsIn)
      (z.outRuns fun i j k => match rowIndex (s.listIndex d l j k) x.dim1 with
        | some r => (s.elemAt loom ten x i r k, s.elemDarn loom ten x i r k || s.elemDarn loom ten l j 0 (bcast l.dim2 k))
        | none => (Config.gatherOutside j i, s.elemDarn loom ten l j 0 (bcast l.dim2 k)))
      fun _ => 0)

/-- SCATTER: rows of X placed by the INT32 list; a row whose index lies outside Z is placed nowhere. -/
def execScatter (ring : Fin 1024) (seq : Nat) (s : State) : Host.Outcome State Fault Refusal :=
  match s.opReady ring seq 0x0403 with
  | none => .next s
  | some (d, s) =>
    let refs := s.opRefs d 3
    let x := refAt refs 0
    let l := refAt refs 1
    let z := refAt refs 2
    let loom := d.loom0
    let ten := d.tenant
    let source := { x with fmt := x.fmt }
    .next (s.runOperator d 96
      ((refs.all fun r => r.legal false) && x.fmt == z.fmt && l.elem == .int32 && l.dim0 == x.dim1 && x.dim0 == z.dim0
        && x.dim2 == z.dim2 && d.inl 0 2 == 0)
      (x.runs 0 ++ l.runs 1)
      (x.rows.flatMap fun y => match rowIndex (s.listIndex d l y.1 y.2) z.dim1 with
        | some r => ({ source with base := z.rowVa r y.2, dim1 := 1, dim2 := 1 } : TRef).outRuns fun i _ _ =>
            (s.elemAt loom ten x i y.1 y.2, s.elemDarn loom ten x i y.1 y.2)
        | none => [])
      fun _ => 0)

end Sys2Proof.Machine
end

