-- ==== Sys2Proof/Machine/Heddle.lean ====
section
/-! DEFINITION. The Heddle: the opcodes it knows (R240), classes, DRR and the gang hold (R205 to R214), loom choice (R265, R266), what
a dispatch charges its looms (R217, R238, R264, R288 to R290, R711), execution start (R268, R269), completion (R270), the
execution cap (R215, R279), the control operators (R260 to R263), and loom failure and retirement (R273 to R285). -/

namespace Sys2Proof.Machine

/-! Opcodes. -/

/-- The opcodes that dispatch on looms (Tables 5.4, 5.6, 9.5 and 10.7). -/
def loomOpcodes : List Nat :=
  [0x0100, 0x0110, 0x0118, 0x0120, 0x0128, 0x0130, 0x0138, 0x0400, 0x0401, 0x0402, 0x0403, 0x0F10]
    ++ [0x0200, 0x0201, 0x0208, 0x0209, 0x0210, 0x0220, 0x0221, 0x0228, 0x0229]
    ++ [0x0300, 0x0308, 0x0310, 0x0318, 0x0320, 0x0321, 0x0328]

/-- The BAD_OP DETAIL of a descriptor (R240, R262). -/
def Desc.badOp (d : Desc) : Option Nat :=
  if d.coll then none
  else if d.opcode = 0x0F10 ∧ d.tenant ≠ 0 then some 2
  else if d.isControl || loomOpcodes.contains d.opcode then none
  else some 1

/-! Who is next. -/

/-- A tenant's loom limit (R213). -/
def State.maxLooms (s : State) (t : Nat) : Nat := orElse0 (s.fld (Reg.TEN_CFG t) Reg.TEN_CFG_MAX_LOOMS) 32

/-- A tenant's DRR credit of one visit: WEIGHT of 0 and QUANTUM of 0 are treated as 1 (R213, Table 4.12). -/
def State.drrCredit (s : State) (t : Nat) : Int :=
  (orElse0 (s.fld (Reg.TEN_CFG t) Reg.TEN_CFG_WEIGHT) 1 * orElse0 (s.fld Reg.QRG_DRR Reg.QRG_DRR_QUANTUM) 1 : Nat)

/-- A descriptor at the head of its ring: none fetched before it still waits for looms (R210). -/
def State.atHead (s : State) (d : Desc) : Bool :=
  s.ten.descs.all fun e => e.ring != d.ring || e.phase != .waiting || e.isControl || decide (d.order ≤ e.order)

/-- A descriptor that the Heddle may dispatch now: the head of its ring, its dispatch CCLK has come, and its DEADLINE has not (R39,
R196, R197, R210). -/
def State.dispatchable (s : State) (d : Desc) : Bool :=
  d.phase == .waiting && !d.isControl && (match d.dispAt with
    | some c => decide (c ≤ s.trd.cclk)
    | none => false) && !(d.deadlineEn && s.trd.now.atOrAfter d.deadline) && s.atHead d

/-- The dispatchable descriptors of a class. -/
def State.readyIn (s : State) (live : Bool) : List Desc :=
  s.ten.descs.filter fun d => s.ringLive d.ring == live && s.dispatchable d

/-- Of two ready descriptors of a tenant and class, the one that goes first: lower PRIO, then lower ring, then fetch order
(R210). -/
def State.goesFirst (s : State) (a b : Desc) : Bool :=
  let pa := s.fld (Reg.QRG_CFG a.ring) Reg.QRG_CFG_PRIO
  let pb := s.fld (Reg.QRG_CFG b.ring) Reg.QRG_CFG_PRIO
  decide (pa < pb) || (pa == pb && (decide (a.ring < b.ring) || (a.ring == b.ring && decide (a.order < b.order))))

/-- The descriptor a tenant would dispatch in a class (R210). -/
def State.headOf (s : State) (live : Bool) (t : Nat) : Option Desc :=
  ((s.readyIn live).filter fun d => d.tenant == t).foldl (fun b d => match b with
    | none => some d
    | some x => if s.goesFirst d x then some d else some x) none

/-- A tenant below its limit with a ready descriptor, whether or not it fits the free pool. -/
def State.wouldRun (s : State) (live : Bool) (t : Nat) : Bool :=
  (s.headOf live t).isSome && decide (s.tenLooms t < s.maxLooms t)

/-- Looms the BULK class holds. -/
def State.bulkLooms (s : State) : Nat :=
  (s.looms.filter fun l => match l.work with
    | some (g, _) => !s.ringLive g
    | none => false).length

/-- A stopped descriptor of the class waits to re-execute, ahead of every other dispatch in its class (R276). -/
def State.rerunWaits (s : State) (live : Bool) : Bool :=
  s.ten.descs.any fun d => d.phase == .rerun && s.ringLive d.ring == live

/-- Free looms kept for BULK while it has a ready descriptor and holds fewer than its floor (R207). -/
def State.bulkReserve (s : State) : Nat :=
  if !(s.readyIn false).isEmpty || s.rerunWaits false then s.fld Reg.QRG_BULK_MIN Reg.QRG_BULK_MIN_LOOMS - s.bulkLooms else 0

/-- Free looms a class may take (R206, R207). -/
def State.freeFor (s : State) (live : Bool) : Nat := s.freePool.length - (if live then s.bulkReserve else 0)

/-- A tenant is eligible in a class (R211). -/
def State.eligible (s : State) (live : Bool) (t : Nat) : Bool :=
  s.wouldRun live t && match s.headOf live t with
    | some d => decide (d.looms ≤ s.freeFor live)
    | none => false

/-- A class's dispatch state. -/
def State.cls (s : State) (live : Bool) : ClassState := if live then s.ten.live else s.ten.bulk

def State.setCls (s : State) (live : Bool) (c : ClassState) : State :=
  s.onTen fun t => if live then { t with live := c } else { t with bulk := c }

/-- A tenant's deficit in a class. -/
def State.deficit (s : State) (live : Bool) (t : Nat) : Int :=
  if live then (s.tenant t).deficitLive else (s.tenant t).deficitBulk

def State.setDeficit (s : State) (live : Bool) (t : Nat) (x : Int) : State :=
  if live then s.setTenant t { s.tenant t with deficitLive := x } else s.setTenant t { s.tenant t with deficitBulk := x }

/-- The tenants of a list in DRR list order from the current position. -/
def fromPos (pos : Nat) (ts : List Nat) : List Nat := ts.filter (fun t => pos ≤ t) ++ ts.filter (fun t => t < pos)

/-- One visit of the DRR pseudocode of R212 at the position; `fuel` bounds the visits. -/
def State.drrVisit (live : Bool) (elig : List Nat) : Nat → State → Option Nat × State
  | 0, s => (none, s)
  | fuel + 1, s =>
    let c := s.cls live
    let t := c.pos
    let next := fun (x : State) => x.setCls live { x.cls live with pos := (t + 1) % 256 }
    if elig.contains t then
      if 0 < s.deficit live t then (some t, s)
      else
        let x := min (s.deficit live t + s.drrCredit t) (s.drrCredit t)
        State.drrVisit live elig fuel (next (s.setDeficit live t x))
    else if 0 < s.deficit live t then State.drrVisit live elig fuel (next (s.setDeficit live t 0))
    else State.drrVisit live elig fuel (next s)

/-- Visits enough for the most indebted eligible tenant to reach credit. -/
def State.drrFuel (s : State) (live : Bool) (elig : List Nat) : Nat :=
  256 * (2 + (elig.map fun t => (s.deficit live t).natAbs).foldl max 0)

/-- The tenant R209 serves next among some: those below MIN_LOOMS first, then DRR. -/
def State.pickAmong (s : State) (live : Bool) (ts : List Nat) : Option Nat × State :=
  match (fromPos (s.cls live).pos ts).find? fun t =>
      decide (s.tenLooms t < s.fld (Reg.TEN_CFG t) Reg.TEN_CFG_MIN_LOOMS) with
  | some t => (some t, s)
  | none => if ts.isEmpty then (none, s) else State.drrVisit live ts (s.drrFuel live ts) s

/-- The gang hold of a class ends with its descriptor: once that has been dispatched, or has left the scoreboard (R214). -/
def State.endHold (s : State) (live : Bool) : State :=
  let c := s.cls live
  if c.hold && !(s.ten.descs.any fun d => c.held == some (d.ring, d.seq) && d.phase == .waiting)
  then s.setCls live { c with want := none, fails := 0, hold := false, held := none } else s

/-- Note that a class's choice does not fit, or that it does: the 64th failure in a row of one tenant begins the gang hold for the
descriptor it would dispatch (R214); the choice of another that fits ends the row. -/
def State.noteWant (s : State) (live : Bool) (t : Nat) (fits : Bool) : State :=
  let c := s.cls live
  if c.hold then s
  else if fits then (if c.want = some t then s else s.setCls live { c with want := none, fails := 0 })
  else
    let fails := if c.want = some t then c.fails + 1 else 1
    let s1 := s.setCls live { c with
      want := some t
      fails := fails
      hold := decide (64 ≤ fails)
      held := if 64 ≤ fails then (s.headOf live t).map fun d => (d.ring, d.seq) else none }
    if 64 ≤ fails then s1.bump Reg.QRG_GANG_HOLD_CNT else s1

/-- The tenants with anything in the scoreboard, in ascending number. -/
def State.tenantsWaiting (s : State) (live : Bool) : List Nat :=
  (List.range 256).filter fun t => (s.ten.descs.any fun d => d.tenant == t) && s.wouldRun live t

/-- The descriptor a class dispatches now, with the class's state moved on (R209 to R214). -/
def State.pickClass (s : State) (live : Bool) : Option Desc × State :=
  if s.rerunWaits live then (none, s)
  else
    let s := s.endHold live
    let ts := s.tenantsWaiting live
    let c := s.cls live
    let ts' := if c.hold then ts.filter fun t => c.want == some t else ts
    let first := (s.pickAmong live ts').1
    let s1 := match first with
      | some t => s.noteWant live t (s.eligible live t)
      | none => s
    let can := ts'.filter fun t => s.eligible live t
    let can' := if (s1.cls live).hold then can.filter fun t => (s1.cls live).want == some t else can
    let r := s1.pickAmong live can'
    match r.1 with
    | some t => (r.2.headOf live t, r.2)
    | none => (none, r.2)

/-- The order in which the classes are served (R207): BULK first while it holds fewer looms than its floor. -/
def State.classOrder (s : State) : List Bool := if 0 < s.bulkReserve then [false, true] else [true, false]

/-- The descriptor the Heddle dispatches now. -/
def State.pickDesc (s : State) : List Bool → Option Desc × State
  | [] => (none, s)
  | c :: cs => match s.pickClass c with
    | (some d, s1) => (some d, s1)
    | (none, s1) => s1.pickDesc cs

/-! Looms for a descriptor. -/

/-- The looms of a dispatch in ascending logical number, which is the order of their ranks (R265, R266): the tenant's own last
looms first, then others, ascending. -/
def State.chooseLooms (s : State) (tenant n : Nat) : List Nat :=
  let free := s.freePool
  let own := fun (l : Nat) => match s.physOf l with
    | some p => (s.loom p).served == some tenant
    | none => false
  let chosen := (free.filter own ++ free.filter fun l => !own l).take n
  (List.range 32).filter fun l => chosen.contains l

/-- CCLK in a microsecond at an operating point. -/
def usCclk : Nat → Nat
  | 0 => 1400
  | 1 => 1100
  | _ => 700

/-- The constants a profile asks a ring's looms to hold: ring, length and address (R264, Table 5.7). -/
def Desc.constKey (d : Desc) : Nat × Nat × Nat := (d.ring, d.profile.constLen, d.profile.constPtr)

/-- A loom, once cleared for its owner or not, must load a descriptor's constants (R264). -/
def Loom.mustLoad (l : Loom) (d : Desc) (clear : Bool) : Bool :=
  d.profile.constLen != 0 && (clear || l.consts != some d.constKey)

/-- The CCLK of a scratch clear under a split (R289). -/
def clearCclk (q : Nat) : Nat := if q = 4 then 16 else 256 * (12 - 3 * q)

/-- What a loom must do before it begins for a descriptor: the clear, the re-split and the constant load it needs, and its wake, in CCLK, and
whether it clears and loads (R217, R236, R238, R264, R288 to R290, R709, R711). DESIGN CHOICE (log 38): the load of constants has no stated time
and takes the free value `load`. -/
def State.prepare (s : State) (l : Loom) (d : Desc) (load : Nat) : Nat × Bool × Bool :=
  let clear := l.owner != .tenant d.tenant
  let loads := l.mustLoad d clear
  ((l.wakeAt - s.trd.cclk) + (if clear then clearCclk d.l1q else 0) + (if l.l1q ≠ d.l1q then 16 else 0)
    + (if loads then load else 0), clear, loads)

/-- Drop L1 lines of a loom: all, or the read-only-near ones alone (R288, R289, R310); the directory forgets a holder whose
coherent copy goes. -/
def State.dropL1 (s : State) (loom : Nat) (all : Bool) : State :=
  let gone := s.mem.l1.filter fun x => x.loom == loom && (all || !x.coh)
  let s1 := s.onMem fun m => { m with l1 := m.l1.filter fun x => !(x.loom == loom && (all || !x.coh)) }
  gone.foldl (fun t x => if !x.coh then t else t.onLine x.pa fun y =>
    let hs := y.holders.filter (· ≠ loom)
    { y with holders := hs, dir := if hs.isEmpty then .inv else y.dir }) s1

/-- What a loom's L1 has modified goes back to the Spool (R238, R287): also a line it holds in E, which it may have written. -/
def State.flushL1 (s : State) (loom : Nat) : State :=
  (s.mem.l1.filter fun x => x.loom == loom && x.coh).foldl (fun t x => t.takeBack x.pa) s

/-- The scratchpad, the darn bits, the constant cache and the descriptor cache of a loom are zero or empty; its Bobbin instruction cache
stays (R289, R291, R396). -/
def Loom.wiped (l : Loom) : Loom :=
  { l with consts := none, constData := [], scratch := [], unknown := none, darned := [], blocks := [] }

/-- Clear a loom for an incoming owner that is not its own (R289, R290). -/
def State.clearLoom (s : State) (p : Nat) (o : Owner) : State :=
  if (s.loom p).owner = o then s
  else (s.dropL1 (s.loom p).logical true).onLoom p fun x => { x.wiped with owner := o }

/-- Switch on the islands of the gated looms among some physical ones, five of each, in ascending island number, at most four at a time, 1 µs each;
what was asked for before is done first (R709). -/
def State.switchOn (s : State) (ps : List Nat) : State :=
  let off := (List.range 34).filter fun p => ps.contains p && (s.loom p).gated
  let start := max s.trd.cclk s.pwr.switchEnd
  let us := usCclk s.op
  if off.isEmpty then s
  else
    let s1 := off.zipIdx.foldl (fun t x => t.onLoom x.1 fun l => { l with
      gated := false
      idle := 0
      wakeAt := start + ((5 * x.2 + 4) / 4 + 1) * us }) s
    { s1 with pwr := { s1.pwr with switchEnd := start + (5 * off.length + 3) / 4 * us } }

/-- Put one loom to work for a descriptor: its owner, split and caches change (R238, R239, R264, R288 to R290, R310). -/
def State.takeLoom (s : State) (d : Desc) (logical : Nat) : State :=
  match s.physOf logical with
  | none => s
  | some p =>
    let l := s.loom p
    let clear := l.owner != .tenant d.tenant
    let split := l.l1q != d.l1q
    let s1 := ((if split then s.flushL1 logical else s).dropL1 logical (clear || split)).clearLoom p (.tenant d.tenant)
    s1.nextFree.2.onLoom p fun x => { x with
      served := some d.tenant
      l1q := d.l1q
      work := some (d.ring, d.seq)
      scratch := []
      unknown := if clear then none else some s1.free
      idle := 0 }

/-- The work of the looms of a dispatch (R266, R268, R269); `free` numbers the free values of their constant loads. -/
def State.workOf (s : State) (d : Desc) (looms : List Nat) : List Work × Bool :=
  let costs := looms.map fun l => match s.physOf l with
    | some p => s.prepare (s.loom p) d (Config.constCclk s.free)
    | none => (0, false, false)
  let longest := (costs.map fun c => c.1).foldl max 0
  let items := (looms.zip costs).zipIdx.map fun x =>
    { loom := x.1.1, rank := x.2, ready := s.trd.cclk + (if d.lockstep then longest else x.1.2.1), loads := x.1.2.2.2, begun := false,
      began := 0, ended := false, endsAt := 0 }
  (items, costs.any fun c => c.2.1)

/-- A descriptor takes its looms in the present CCLK. -/
def State.runOn (s : State) (d : Desc) (looms : List Nat) : State :=
  let s := s.switchOn (looms.filterMap s.physOf)
  let w := s.workOf d looms
  let s1 := looms.foldl (fun t l => t.takeLoom d l) s.nextFree.2
  s1.setDesc { d with phase := .running, work := w.1, used := looms.length, cleared := d.cleared || w.2, dispAt := d.dispAt }

/-- Dispatch a descriptor for the first time (R196, R206, R208, R212, R217). -/
def State.dispatchDesc (s : State) (d : Desc) : State :=
  let looms := s.chooseLooms d.tenant d.looms
  let d1 := { d with start := s.trd.now, since := s.trd.time, picks := s.ten.picks }
  let live := s.ringLive d.ring
  let s1 := ((s.runOn d1 looms).bump (if live then Reg.QRG_LIVE_DISP_CNT else Reg.QRG_BULK_DISP_CNT)).endHold live
  let c := s1.cls live
  if c.hold = false ∧ c.want = some d.tenant then s1.setCls live { c with want := none, fails := 0 } else s1

/-- The CCLK of the next dispatch. -/
def State.nextDispatch (s : State) : Nat :=
  (s.ten.descs.filterMap fun d => if d.phase = .waiting ∧ !d.isControl ∧ s.atHead d then d.dispAt else none).foldl
    (fun b c => if b = 0 ∨ c < b then c else b) 0

/-- DISPATCH: in the next dispatch CCLK the Heddle dispatches the descriptor its rules choose; one whose opcode is not known or
not permitted completes with BAD_OP instead (R196, R205 to R214, R240, R262, R265, R266). -/
def execDispatch (s : State) : Host.Outcome State Fault Refusal :=
  let s0 := s.elapseTo s.nextDispatch
  match s0.ten.descs.find? fun d => s0.dispatchable d && d.badOp.isSome with
  | some d => .next (s0.completeDesc d 0x31 (d.badOp.getD 1))
  | none => match s0.pickDesc s0.classOrder with
    | (some d, s1) => .next (s1.dispatchDesc d)
    | (none, s1) => .next s1

/-! Execution. -/

/-- The reference every loom of an operator reads identically: A of MATMUL, the weights of the convolutions (chapter 7, "Weight chain and
own-copy"). -/
def sharedRef : Nat → Option Nat
  | 0x0100 => some 0
  | 0x0200 | 0x0201 => some 1
  | _ => none

/-- The channel that carries one reference of an operator: inputs come in, outputs go out, each with a buffer the operator
gives it (R244, R365, R402, Table 7.1). -/
def State.openChannel (s : State) (d : Desc) (w : Work) (k : Nat) (r : TRef) (out : Bool) : State :=
  let n := s.free
  s.nextFree.2.setChan w.loom k { Chan.idle with
    state := .run, chain := d.lockstep && sharedRef d.opcode == some k, tenant := d.tenant, dir := if out then 1 else 0, src := r.base, dst := r.base,
    rowBytes := ceilDiv r.rowLen 128 * 128, rowStride := r.stride1, rows := r.dim1 * r.dim2,
    bufBase := Config.bufBase n % 1572864, bufLen := 128 * (Config.bufLines n % 12288), ring := d.ring, seq := d.seq,
    rank := w.rank }

/-- Open the channels of every reference of a descriptor on one of its looms; an absent one has BASE 0 and no channel. -/
def State.openChannels (s : State) (d : Desc) (w : Work) : State :=
  let n := opShape d.opcode
  if d.coll then s
  else (List.range (n.1 + n.2)).foldl (fun t k =>
    let r := refAt (s.opRefs d (n.1 + n.2)) k
    if r.base = 0 then t else t.openChannel d w k r (opOut d.opcode k)) s

/-- The operand block and its references enter a loom's descriptor cache, and the firmware its Bobbin instruction cache (Table 6.1). -/
def State.fillCaches (s : State) (d : Desc) (w : Work) : State :=
  let n := opShape d.opcode
  match s.physOf w.loom with
  | some p => s.onLoom p fun x => { x with
      firmware := true
      blocks := if d.coll ∨ d.argPtr = 0 then x.blocks
        else x.blocks.filter (fun b => b.1 ≠ d.argPtr) ++ [(d.argPtr, s.vaBytes w.loom d.tenant d.argPtr (32 * (n.1 + n.2)))] }
  | none => s

/-- The constants of a loom's ring are loaded into its constant cache (R264). -/
def State.loadConsts (s : State) (d : Desc) (w : Work) : State :=
  match s.physOf w.loom with
  | some p => if w.loads then s.onLoom p fun x =>
      { x with consts := some d.constKey, constData := s.vaBytes w.loom d.tenant d.profile.constPtr d.profile.constLen } else s
  | none => s

/-- EXECUTION_START: a loom begins once its clear, re-split and constant load have ended, with LOCKSTEP every loom of the
descriptor in that CCLK (R264, R268, R269). -/
def execExecutionStart (ring : Fin 1024) (seq : Nat) (loom : Fin 32) (s : State) : Host.Outcome State Fault Refusal :=
  match s.desc? ring seq with
  | none => .next s
  | some d =>
    match d.work.find? fun w => w.loom == loom.val && !w.begun with
    | none => .next s
    | some w =>
      if d.phase ≠ .running then .next s
      else
        let starts := fun (x : Work) => !x.begun && (d.lockstep || x.loom == loom.val)
        let s0 := s.elapseTo w.ready
        match s0.desc? ring seq with
        | none => .next s0
        | some e =>
          let s1 := (e.work.filter starts).foldl (fun t x => ((t.loadConsts e x).fillCaches e x).openChannels e x) s0
          .next (s1.setDesc { e with work := e.work.map fun x => if starts x then { x with begun := true, began := s0.trd.cclk } else x })

/-! The end of a descriptor on its looms. -/

/-- A descriptor is stopped by a failing loom: for the first time it waits to re-execute, the second time it completes with
ABORT_LOOM; its healthy looms are released and its fault records freed (R274, R276, R278, R394). -/
def State.stopDesc (s : State) (d : Desc) : State :=
  if d.stopped then s.completeDesc d 0x22 0
  else
    (((s.onLooms (Loom.released d.ring d.seq)).freeFaults d.ring d.seq).dropColl d).setDesc
      { d with phase := .rerun, stopped := true, darned := false, work := [], stop := none }

/-- A key-value fault that ends its descriptor at once (Table 10.6, causes 0x3 and 0x4; R591, Table 7.3). -/
def State.kvEnd (s : State) (d : Desc) (cause : Nat) : State :=
  (s.bump Reg.SEQ_KV_FAULT_CNT).endAtOnce d 0x11 1 cause 0

/-- What stands behind a stop happens: a drain alone of TEN_STOP's writes a record (Table 4.8). -/
def State.finishStop (s : State) (d : Desc) : Stop → State
  | .ends status detail => s.completeDesc d status detail
  | .kv => s.kvEnd d 4
  | .drained =>
    if (s.tenant d.tenant).drain = some .tenStop then (s.bump (Reg.TEN_ABORT_CNT d.tenant)).completeDesc d 0x21 0 else s.dropDesc d
  | .reruns => s.stopDesc d

/-- The CCLK in which the innermost tile in progress has ended on every loom of a descriptor: within 0.5 ms, and not after the loom's tile
problem has. DESIGN CHOICE (log 136): the spec does not say where an operator's innermost tiles end, so within these bounds it is a free value. -/
def State.tileEnd (s : State) (d : Desc) : Nat :=
  (d.work.filter fun w => w.begun).foldl (fun c w =>
    let x := s.trd.cclk + Config.tileLeft s.free w.loom % (500 * usCclk s.op + 1)
    max c (if w.ended then max s.trd.cclk (min x w.endsAt) else x)) s.trd.cclk

/-- Stop a descriptor: at the end of the innermost tile in progress on each of its looms, or at once while no loom has begun (R215, R228, R450,
R591, R698). A stop that is already on its way stands, but for a drain's. -/
def State.stopAtTile (s : State) (d : Desc) (why : Stop) : State :=
  if d.phase = .running ∧ (d.work.any fun w => w.begun) = true then
    (if d.stop.isNone then s.nextFree.2.setDesc { d with stop := some why, stopAt := s.tileEnd d }
     else if why = .drained then s.setDesc { d with stop := some why } else s)
  else s.finishStop d why

/-- A reserved loom that a stopped descriptor has left is cleared for the picture path (R290, R450). -/
def State.clearReserved (s : State) (looms : List Nat) : State :=
  looms.foldl (fun t l => match t.physOf l with
    | some p => if (t.loom p).raster && (t.loom p).work.isNone then t.clearLoom p .picture else t
    | none => t) s

/-- A loom of a descriptor still holds a modified L1 line (R287). -/
def State.holdsModified (s : State) (d : Desc) : Bool :=
  d.work.any fun w => s.mem.spool.any fun e => e.2.dir == .modified && e.2.holders == [w.loom]

/-- The CCLK in which a descriptor's end is due: a stop's, or the one after its last loom's last (R215, R270). -/
def Desc.endAt (d : Desc) : Nat := if d.stop.isSome then d.stopAt else (d.work.map fun w => w.endsAt).foldl max 0

/-- The end of a descriptor is due, or comes as the clock runs: it is being stopped, or every loom has done its work and has written its
modified L1 lines back (R270, R287). -/
def State.endComes (s : State) (d : Desc) : Bool :=
  d.phase == .running && (d.stop.isSome || (!d.work.isEmpty && (d.work.all fun w => w.ended) && !s.holdsModified d))

/-- DESCRIPTOR_COMPLETE: the CCLK after the last loom finishes (R270); a descriptor that is being stopped ends with its looms' tiles (R215). -/
def execDescriptorComplete (ring : Fin 1024) (seq : Nat) (s : State) : Host.Outcome State Fault Refusal :=
  match s.desc? ring seq with
  | none => .next s
  | some d =>
    if s.endComes d then
      let s0 := s.elapseTo d.endAt
      match s0.desc? ring seq with
      | some e => .next (match e.stop with
        | some why => (s0.finishStop e why).clearReserved (e.work.map fun w => w.loom)
        | none => ((e.work.map fun w => w.loom).foldl State.flushL1 s0).completeDesc e 0 0)
      | none => .next s0
    else .next s

/-- The execution cap of a descriptor, in the time of the reference clock: 4 ms of a LIVE ring, 40 ms of a BULK one (R215, R216). -/
def State.capTime (s : State) (d : Desc) : Nat := (if s.ringLive d.ring then 4000 else 40000) * usTime

/-- EXECUTION_CAP: the cap has passed since the descriptor's first dispatch (R215, R216, R279, Table 4.6); a halted one, or one that waits to
re-execute, has no tile in progress. -/
def execExecutionCap (ring : Fin 1024) (seq : Nat) (s : State) : Host.Outcome State Fault Refusal :=
  match s.desc? ring seq with
  | none => .next s
  | some d =>
    if d.phase == .waiting || decide (s.trd.time < d.since + s.capTime d) then .next s
    else .next (s.stopAtTile d (.ends 0x20 (if d.phase = .halted then 3 else 2)))

/-! The control operators. -/

/-- A control operator completes when its time has come (R260, R261), with what it does first. -/
def State.control (s : State) (ring seq code : Nat) (f : Desc → State → State) : State :=
  match s.desc? ring seq with
  | none => s
  | some d =>
    match d.dispAt with
    | none => s
    | some c =>
      if d.coll ∨ d.opcode ≠ code ∨ d.phase ≠ .waiting then s
      else
        let s0 := s.elapseTo c
        match s0.desc? ring seq with
        | some e => if e.deadlineEn && s0.trd.now.atOrAfter e.deadline then s0.completeDesc e 0x20 1
            else (f e s0).completeDesc e 0 0
        | none => s0

/-- NOP. -/
def execNop (ring : Fin 1024) (seq : Nat) (s : State) : Host.Outcome State Fault Refusal :=
  .next (s.control ring seq 0x0F00 fun _ t => t)

/-- FENCE: its fence over the tenant's earlier descriptors is part of readiness (Table 5.6). -/
def execFence (ring : Fin 1024) (seq : Nat) (s : State) : Host.Outcome State Fault Refusal :=
  .next (s.control ring seq 0x0F01 fun _ t => t)

/-- The CCLK still to pass before the action of a stamp that has matched: 2 from the match (R36). -/
def State.toAction (s : State) (t : Stamp) : Nat :=
  let n := s.trd.now
  if n.frame = t.frame ∧ n.line = t.line ∧ n.pick = t.pick then 2 - (n.cyc - t.cyc) else 0

/-- WAIT_STAMP: completes at the later of R260's time and 2 CCLK after the stamp of INLINE bytes 0 to 5 matches (R36, R37). -/
def execWaitStamp (ring : Fin 1024) (seq : Nat) (s : State) : Host.Outcome State Fault Refusal :=
  match s.desc? ring seq with
  | none => .next s
  | some d =>
    let s0 := match d.dispAt with
      | some c => if d.opcode = 0x0F02 then s.elapseTo c else s
      | none => s
    match (s0.desc? ring seq).bind fun e => e.waitHit with
    | some h => .next ((s0.elapseTo (h + 2)).control ring seq 0x0F02 fun _ x => x)
    | none => .next s

/-- LOOM_CFG: the ring's profile (R263, Table 5.7). -/
def execLoomCfg (ring : Fin 1024) (seq : Nat) (s : State) : Host.Outcome State Fault Refusal :=
  .next (s.control ring seq 0x0F03 fun d t =>
    t.setRing ring { t.ring ring with profile := d.cfgProfile })

/-! Loom failure and retirement. -/

/-- A loom is failing with a CAUSE (R273, R274). -/
def State.failLoom (s : State) (p cause : Nat) : State :=
  let l := s.loom p
  if l.state ≠ .active ∧ l.state ≠ .spare then s
  else
    let s1 := s.onLoom p fun x => { x with state := .failing, cause := cause, failedAt := s.trd.cclk }
    match l.work with
    | none => s1
    | some (g, q) => match s1.desc? g q with
      | some d => s1.stopDesc d
      | none => s1

/-- LOOM_FAILURE: what the checks of a loom find (R273, R274, R293). -/
def execLoomFailure (phys : Fin 34) (cause : LoomFault) (s : State) : Host.Outcome State Fault Refusal :=
  match cause with
  | .corrected =>
    let n := (s.loom phys).ceFrame + 1
    let limit := s.fld Reg.LOM_RETIRE_CFG Reg.LOM_RETIRE_CFG_CE_LIMIT
    let s1 := (s.onLoom phys fun x => { x with ceFrame := n }).bump Reg.LOM_CE_CNT
    .next (if limit ≠ 0 ∧ limit ≤ n then s1.failLoom phys 5 else s1)
  | .mxParity => .next (s.failLoom phys 3)
  | .arrayUncorrectable => .next (s.failLoom phys 4)
  | .cacheUncorrectable => .next (s.failLoom phys 6)

/-- REEXECUTION: a stopped descriptor runs again from its start on newly chosen looms, once enough are free (R265, R276, R277). -/
def execReexecution (ring : Fin 1024) (seq : Nat) (s : State) : Host.Outcome State Fault Refusal :=
  match s.desc? ring seq with
  | none => .next s
  | some d =>
    if d.phase = .rerun ∧ d.looms ≤ s.freeFor (s.ringLive d.ring) then
      .next ((s.runOn d (s.chooseLooms d.tenant d.looms)).bump Reg.HED_REEXEC_CNT)
    else .next s

/-- The looms LOOM_BIST tests (R285): the one INLINE names when it is a spare or among the descriptor's looms, else its own. -/
def State.bistLooms (s : State) (d : Desc) : List Nat :=
  let own := d.work.filterMap fun w => s.physOf w.loom
  let p := d.inl 0 1
  if p < 34 ∧ ((s.loom p).state = .spare ∨ own.contains p = true) then [p] else own

/-- The CCLK that LOOM_BIST runs for (R285). -/
def bistCclk : Nat := 2000000

/-- LOOM_BIST: 2,000,000 CCLK after the last loom began the test ends; every loom tested holds zeros, the descriptor completes with DONE either
way, and those of them that `failed` are failing (R273, R285). -/
def execLoomBist (ring : Fin 1024) (seq : Nat) (failed : List (Fin 34)) (s : State) : Host.Outcome State Fault Refusal :=
  match s.opDesc? ring seq 0x0F10 with
  | none => .next s
  | some d =>
    let ps := s.bistLooms d
    let s1 := s.elapseTo ((d.work.map fun w => w.began).foldl max 0 + bistCclk)
    match s1.desc? ring seq with
    | none => .next s1
    | some e =>
      let s2 := (ps.foldl (fun t p => t.onLoom p Loom.wiped) s1).completeDesc e 0 0
      .next ((ps.filter fun p => failed.any fun f => f.val == p).foldl (fun t p => t.failLoom p 2) s2)

/-- A loom leaves service at a launch stamp that matched in a CCLK: one found failing before it, or a denied and free one (R280, R284). -/
def State.leavesNow (s : State) (at_ p : Nat) : Bool :=
  let l := s.loom p
  (l.state == .failing && decide (l.failedAt < at_)) || (l.state == .active && s.denied p && l.work.isNone)

/-- Retire one loom: the lowest-numbered usable spare takes its logical number and its place, cleared where that is the picture path's (R280 to
R282, R284, R290). -/
def State.retireOne (s : State) (p : Nat) : State :=
  let l := s.loom p
  let s1 := (s.onLoom p fun x => { x with
    state := .retired, logical := 32, raster := false, work := none, cause := if l.state = .failing then l.cause else 7 }).bump
      Reg.LOM_RETIRE_CNT
  if l.logical = 32 then s1
  else match (List.range 34).find? fun q => (s1.loom q).state == .spare with
    | none => s1
    | some q =>
      let s2 := s1.onLoom q fun x => { x with state := .active, logical := l.logical, raster := l.raster }
      if l.raster then s2.clearLoom q .picture else s2

/-- Every loom that leaves service at a shed launch stamp that matched in a CCLK, in ascending logical number (R280, R281). -/
def State.retireLooms (s : State) (at_ : Nat) : State :=
  let ps := (List.range 33).flatMap fun n => (List.range 34).filter fun p => (s.loom p).logical == n && s.leavesNow at_ p
  ps.foldl State.retireOne s

/-- LOM_DENY_WRITE: setting a bit withholds its loom from dispatch, and a spare from service; clearing one changes nothing of a loom that
is out of service (R284). -/
def execLomDenyWrite (high : Bool) (data : Word) (s : State) : Host.Outcome State Fault Refusal :=
  .next (s.plainWrite (if high then Reg.LOM_DENY_HI else Reg.LOM_DENY_LO) data).denySpares

end Sys2Proof.Machine
end

