-- ==== Sys2Proof/Machine/ImageOps.lean ====
section
/-! DEFINITION. The image operators (Tables 9.5 to 9.8): layouts (R471 to R474), convolution and its sweeps (R475 to R498), pooling,
conversion of layout, crop-and-resize and paste-back (R516 to R521), box decode (R504 to R511) and non-maximum suppression
(R512 to R515). -/

namespace Sys2Proof.Machine

/-! Layouts. -/

/-- The place of an element in its row, in elements, and the virtual address of the row (R471, R472). -/
def TRef.place (r : TRef) (i j k : Nat) : Nat × Nat :=
  if r.layout = 1 then (i * r.dim2 + k, r.base + j * r.stride1) else (i, r.rowVa j k)

/-- An element's code in either layout, and whether its line comes darned. -/
def State.elemIn (s : State) (d : Desc) (r : TRef) (i j k : Nat) : Nat × Bool :=
  let p := r.place i j k
  let va := p.2 + p.1 * r.elem.bits / 8
  let code := match r.elem with
    | .int4 => (s.vaByte d.loom0 d.tenant va).toNat / 2 ^ (4 * (p.1 % 2)) % 16
    | e => leNat (s.vaBytes d.loom0 d.tenant va (e.bits / 8)) % 2 ^ e.valueBits
  (code, s.vaPoison d.loom0 d.tenant va 1)

/-- The runs of bytes of a reference in either layout. -/
def TRef.runsIn (r : TRef) (chan : Nat) : List (Nat × Nat × Nat) :=
  if r.layout = 1 then (List.range r.dim1).map fun j => (chan, r.base + j * r.stride1, r.elem.rowBytes (r.dim0 * r.dim2))
  else r.runs chan

/-- The output runs of a reference in either layout: a run for each 32-byte sector of a row, darned when any of its elements is. -/
def TRef.outRunsIn (r : TRef) (f : Nat → Nat → Nat → Nat × Bool) : List OutRun :=
  if r.layout = 1 then
    let per := 256 / r.elem.bits
    let n := r.dim0 * r.dim2
    (List.range r.dim1).flatMap fun j => (List.range (ceilDiv n per)).map fun c =>
      let cells := ((List.range n).drop (c * per)).take per |>.map fun e => f (e / r.dim2) j (e % r.dim2)
      { va := r.base + j * r.stride1 + 32 * c, data := packCodes r.elem (cells.map fun y => y.1), darn := cells.any fun y => y.2 }
  else r.outRuns f

/-- Bytes of `n` rows of a reference. -/
def TRef.bytesOf (r : TRef) (n : Nat) : Nat := r.elem.rowBytes (r.dim0 * r.dim2 * n)

/-! Convolution. -/

/-- The INLINE fields of CONV, CONV_T and POOL (Table 9.6). -/
structure ConvArgs where
  kh     : Nat
  kw     : Nat
  sw     : Nat
  sh     : Nat
  dw     : Nat
  dh     : Nat
  padT   : Nat
  padL   : Nat
  near   : Bool
  mode   : Nat
  act    : Nat
  groups : Nat
  shift  : Nat
  clean  : Bool
  deriving DecidableEq, Repr

/-- The fields of a descriptor; `clean` says that its reserved bits are zero and its codes known. -/
def Desc.convArgs (d : Desc) : ConvArgs :=
  { kh := d.inl 0 1, kw := d.inl 1 1, sw := d.inl 2 1 % 16, sh := d.inl 2 1 / 16, dw := d.inl 3 1 % 16, dh := d.inl 3 1 / 16,
    padT := d.inl 4 1, padL := d.inl 5 1, near := (d.inl 6 1).testBit 0, mode := d.inl 6 1 / 2 % 4, act := d.inl 7 1,
    groups := orElse0 (d.inl 8 2) 1, shift := d.inl 10 1 % 32,
    clean := decide (d.inl 6 1 < 8 ∧ d.inl 7 1 ≤ 1 ∧ d.inl 10 1 < 32 ∧ d.inl 11 5 = 0 ∧ d.inl 6 1 / 2 % 4 ≤ 1) }

/-- The K step and the CCLK per step of an operand pair of CONV (R524, Table 5.2). -/
def convPair (x w : Elem) : Option (Nat × Nat) := if x = .uint16 ∧ w = .fp16 then some (4, 4) else mxPair x w

/-- Whether an output format goes with an operand pair (R524). -/
def convOut (x z : Elem) : Bool :=
  let int := x == .int4 || x == .int8 || x == .uint8
  if int then z == .int8 || z == .uint8 || z == .int32
  else z == .e4m3 || z == .fp16 || z == .bf16 || z == .fp32 || z == .uint16

/-- One sweep (R485, R494): its group or first channel, the taps of its kernel block as (ky, kx), its input channels within the group,
and whether it is diagonal. -/
structure Sweep where
  group : Nat
  taps  : List (Nat × Nat)
  first : Nat
  count : Nat
  diag  : Bool
  deriving DecidableEq, Repr

/-- The kernel blocks of a set of tap rows and columns in row-major order (R483). -/
def kernelBlocks (rows cols : List Nat) : List (List (Nat × Nat)) :=
  (List.range (ceilDiv rows.length 5)).flatMap fun i => (List.range (ceilDiv cols.length 5)).map fun j =>
    ((rows.drop (5 * i)).take 5).flatMap fun y => ((cols.drop (5 * j)).take 5).map fun x => (y, x)

/-- The channel splits of a kernel block: first channel and count (R484). -/
def channelSplits (gin taps : Nat) : List (Nat × Nat) :=
  if gin * taps ≤ 1024 ∨ taps = 0 then [(0, gin)]
  else (List.range (ceilDiv gin (1024 / taps))).map fun i => (i * (1024 / taps), min (1024 / taps) (gin - i * (1024 / taps)))

/-- The sweeps of a kernel over its groups: dense groups, or the diagonal mapping for groups of one or two channels (R485, R491 to
R494). -/
def sweepsOf (rows cols : List Nat) (groups gin cin : Nat) : List Sweep :=
  let blocks := kernelBlocks rows cols
  if gin = 1 ∨ gin = 2 then
    (List.range (ceilDiv cin 16)).flatMap fun q => blocks.map fun b =>
      { group := 16 * q, taps := b, first := 0, count := min 16 (cin - 16 * q), diag := true }
  else
    (List.range groups).flatMap fun g => blocks.flatMap fun b => (channelSplits gin b.length).map fun c =>
      { group := g, taps := b, first := c.1, count := c.2, diag := false }

/-- The tap rows (or columns) of a phase of a transposed convolution, in ascending order (R496). -/
def phaseTaps (k stride phase : Nat) : List Nat := (List.range k).filter fun t => t % stride == phase

/-- The sweeps of CONV (none transposed) or of the phases of CONV_T in their order (R485, R497). -/
def ConvArgs.sweeps (a : ConvArgs) (transposed : Bool) (gin cin : Nat) : List (List Sweep) :=
  if transposed then
    (List.range a.sh).flatMap fun py => (List.range a.sw).map fun px =>
      sweepsOf (phaseTaps a.kh a.sh py) (phaseTaps a.kw a.sw px) a.groups gin cin
  else [sweepsOf (List.range a.kh) (List.range a.kw) a.groups gin cin]

/-- Entries of a row of a sweep's expanded buffer (R479, R493). -/
def Sweep.rowEntries (w : Sweep) : Nat := if w.diag then 4 * w.taps.length else w.count * w.taps.length

/-- Bytes of a row (R480). -/
def Sweep.rb (w : Sweep) (e : Elem) : Nat := ceilDiv (e.rowBytes w.rowEntries) 32 * 32

/-- CCLK of a sweep's expansion over `m` positions (R481, R494). -/
def Sweep.expand (w : Sweep) (e : Elem) (m : Nat) : Nat :=
  ceilDiv (4 * ceilDiv m 4 * w.rb e * (if w.diag then ceilDiv w.count 4 else 1)) 128

/-- CCLK of a sweep on the MX engines (R487, R494). -/
def Sweep.run (w : Sweep) (pair : Nat × Nat) (gout m : Nat) : Nat :=
  let n := if w.diag then w.count else gout
  let kb := if w.diag then w.taps.length else ceilDiv w.rowEntries pair.1
  ceilDiv (ceilDiv n 4 * ceilDiv kb 16) 4 * max (ceilDiv m 4) 4 * pair.2

/-- Σ max(X_p, E_{p+1}) (R488). -/
def sweepSum : List (Nat × Nat) → Nat
  | [] => 0
  | (_, x) :: rest => max x ((rest.head?.map fun r => r.1).getD 0) + sweepSum rest

/-- The output rows of a rank (R526). -/
def rankRows (h looms r : Nat) : Nat × Nat := (min h (r * ceilDiv h looms), min h ((r + 1) * ceilDiv h looms))

/-- The input rows a share of output rows takes, before clipping: the first and one past the last (R496, R499). -/
def ConvArgs.inputRows (a : ConvArgs) (transposed : Bool) (rows : Nat × Nat) : Int × Int :=
  if rows.2 ≤ rows.1 then (0, 0)
  else if transposed then
    (-(((a.kh : Int) - 1 - rows.1 - a.padT) / a.sh),
     ((rows.2 : Int) - 1 + a.padT) / a.sh + 1)
  else ((rows.1 : Int) * a.sh - a.padT, ((rows.2 : Int) - 1) * a.sh - a.padT + a.dh * ((a.kh : Int) - 1) + 1)

/-- Input columns a row of outputs takes (R499). -/
def ConvArgs.inputCols (a : ConvArgs) (transposed : Bool) (w : Nat) : Nat :=
  if w = 0 then 0
  else if transposed then (w - 1 + a.kw - 1) / a.sw + 1
  else (w - 1) * a.sw + a.dw * (a.kw - 1) + 1

/-- The bytes of a packed input that a share's conversion reads (R474, R499). -/
def packedBytes (x : TRef) (r : Int × Int) : Nat :=
  x.bytesOf ((min (x.dim1 : Int) (max 0 r.2)).toNat - (min (x.dim1 : Int) (max 0 r.1)).toNat)

/-- What CONV and CONV_T work on. -/
structure ConvProblem where
  args   : ConvArgs
  trans  : Bool
  x      : TRef
  w      : TRef
  bias   : TRef
  z      : TRef
  looms  : Nat
  deriving DecidableEq, Repr

def ConvProblem.gin (c : ConvProblem) : Nat := c.x.dim2 / c.args.groups
def ConvProblem.gout (c : ConvProblem) : Nat := c.z.dim2 / c.args.groups
def ConvProblem.sweeps (c : ConvProblem) : List (List Sweep) := c.args.sweeps c.trans c.gin c.x.dim2

/-- Output positions of a phase in a share; without phases, all of them (R496). -/
def ConvProblem.positions (c : ConvProblem) (rows : Nat × Nat) (phase : Nat) : Nat :=
  if c.trans then
    let py := phase / max 1 c.args.sw
    let px := phase % max 1 c.args.sw
    ((List.range (rows.2 - rows.1)).filter fun y => (rows.1 + y + c.args.padT) % c.args.sh == py).length *
      ((List.range c.z.dim0).filter fun x => (x + c.args.padL) % c.args.sw == px).length
  else (rows.2 - rows.1) * c.z.dim0

/-- The sweeps of a share with the CCLK of their expansion and of their run (R487, R497). -/
def ConvProblem.timed (c : ConvProblem) (rows : Nat × Nat) : List (Nat × Nat) :=
  let pair := (convPair c.x.elem c.w.elem).getD (4, 1)
  (c.sweeps.zipIdx.flatMap fun p => p.1.map fun w =>
    (w.expand c.x.elem (c.positions rows p.2), w.run pair c.gout (c.positions rows p.2)))

/-- CCLK of a rank (R474, R488, R526). -/
def ConvProblem.cycles (c : ConvProblem) (r : Nat) : Nat :=
  let rows := rankRows c.z.dim1 c.looms r
  if rows.2 ≤ rows.1 then 0
  else
    let t := c.timed rows
    (if c.x.layout = 1 then ceilDiv (packedBytes c.x (c.args.inputRows c.trans rows)) 64 else 0)
      + (t.head?.map fun x => x.1).getD 0 + sweepSum t + 5

/-- The footprint of a rank's tile (R489). -/
def ConvProblem.footprint (c : ConvProblem) (r : Nat) : Nat :=
  let rows := rankRows c.z.dim1 c.looms r
  let m := (rows.2 - rows.1) * c.z.dim0
  let ir := c.args.inputRows c.trans rows
  let all := c.sweeps.flatten
  let p := min all.length 2
  let mp := 4 * ceilDiv ((List.range c.sweeps.length).foldl (fun b q => max b (c.positions rows q)) 0) 4
  let rb := all.foldl (fun b w => max b (w.rb c.x.elem)) 0
  let kr := 4 * ceilDiv (all.foldl (fun b w => max b w.rowEntries) 0) 4
  let nmax := all.foldl (fun b w => max b (if w.diag then w.count else c.gout)) 0
  c.x.elem.rowBytes ((ir.2 - ir.1).toNat * c.args.inputCols c.trans c.z.dim0 * c.x.dim2) + p * mp * rb
    + p * c.w.elem.rowBytes (kr * (4 * ceilDiv nmax 4)) + (if c.x.layout = 1 then packedBytes c.x ir else 0)
    + c.z.elem.rowBytes (m * c.z.dim2) + 16 * ceilDiv m 4 * ceilDiv c.z.dim2 4 * 4

/-- The problem is legal (R243, R473, R490, R492, R495, R524, Table 9.8). -/
def ConvProblem.legal (c : ConvProblem) (q : Nat) : Bool :=
  let a := c.args
  a.clean && c.x.legal true && c.w.legal false && c.z.legal false && (c.bias.base == 0 || c.bias.legal false) &&
    (convPair c.x.elem c.w.elem).isSome && convOut c.x.elem c.z.elem &&
    (c.bias.base == 0 || c.bias.elem == (if c.x.elem.float.isSome || c.x.elem == .uint16 then Elem.fp32 else Elem.int32)
      && c.bias.dim0 == c.z.dim2) &&
    decide (1 ≤ a.kh ∧ a.kh ≤ 31 ∧ 1 ≤ a.kw ∧ a.kw ≤ 31 ∧ 1 ≤ a.sh ∧ 1 ≤ a.sw ∧ 1 ≤ a.dh ∧ 1 ≤ a.dw) &&
    (!c.trans || decide (a.sh ≤ 4 ∧ a.sw ≤ 4 ∧ a.dh = 1 ∧ a.dw = 1)) &&
    c.x.dim2 % a.groups == 0 && c.z.dim2 % a.groups == 0 &&
    decide (4 ≤ c.gin ∨ (c.gin = c.gout ∧ (c.gin = 1 ∨ c.gin = 2))) && c.w.dim0 == c.z.dim2 &&
    c.w.dim1 == c.gin * a.kh * a.kw && decide (c.z.dim2 ≤ 256) && decide (0 < c.looms) &&
    (List.range c.looms).all fun r =>
      let rows := rankRows c.z.dim1 c.looms r
      decide ((rows.2 - rows.1) * c.z.dim0 ≤ 256) && decide (c.footprint r ≤ scratchBytes q)

/-- The input position a tap of an output position reads: none where a transposed tap meets no input (R475, R476, R495, R496). -/
def ConvProblem.source (c : ConvProblem) (x y ky kx : Nat) : Option (Int × Int) :=
  let a := c.args
  if c.trans then
    let iy : Int := (y : Int) + a.padT - ky
    let ix : Int := (x : Int) + a.padL - kx
    if iy % a.sh = 0 ∧ ix % a.sw = 0 ∧ 0 ≤ iy ∧ 0 ≤ ix ∧ iy / a.sh < c.x.dim1 ∧ ix / a.sw < c.x.dim0 then some (ix / a.sw, iy / a.sh)
    else none
  else some ((x : Int) * a.sw - a.padL + kx * a.dw, (y : Int) * a.sh - a.padT + ky * a.dh)

/-- The code of the input at a position, padding outside (R476); a transposed tap that meets no input is zero. -/
def State.convInput (s : State) (d : Desc) (c : ConvProblem) (p : Option (Int × Int)) (ch : Nat) : Nat × Bool :=
  match p with
  | none => (0, false)
  | some (x, y) =>
    let inside := decide (0 ≤ x ∧ x < c.x.dim0 ∧ 0 ≤ y ∧ y < c.x.dim1)
    if inside then s.elemIn d c.x x.toNat y.toNat ch
    else if c.args.near && decide (0 < c.x.dim0 ∧ 0 < c.x.dim1) then
      s.elemIn d c.x (min ((c.x.dim0 : Int) - 1) (max 0 x)).toNat (min ((c.x.dim1 : Int) - 1) (max 0 y)).toNat ch
    else (0, false)

/-- The entries of a sweep for an output position and channel, in the order of its rows: input code, weight code, and whether either is
darned (R475, R479, R493). In the diagonal mapping entries outside the channel's group meet zero weights. -/
def State.sweepEntries (s : State) (d : Desc) (c : ConvProblem) (w : Sweep) (x y co : Nat) : List (Nat × Nat × Bool) :=
  let g := co / max 1 c.gout
  let row := fun (ci : Nat) (t : Nat × Nat) => ((ci - g * c.gin) * c.args.kh + t.1) * c.args.kw + t.2
  let entry := fun (t : Nat × Nat) (ci : Nat) =>
    let i := s.convInput d c (c.source x y t.1 t.2) ci
    let v := s.elemIn d c.w co (row ci t) 0
    (i.1, v.1, i.2 || v.2)
  if w.diag then
    if w.group ≤ co ∧ co < w.group + w.count then
      w.taps.flatMap fun t => (List.range 4).map fun q =>
        let ci := co / 4 * 4 + q
        if ci / max 1 c.gin = g ∧ ci < c.x.dim2 then entry t ci
        else
          let i := if ci < c.x.dim2 then s.convInput d c (c.source x y t.1 t.2) ci else (0, false)
          (i.1, 0, i.2)
    else []
  else if w.group = g then (List.range w.count).flatMap fun ch => w.taps.map fun t => entry t (g * c.gin + w.first + ch)
  else []

/-- The sweeps an output position belongs to: those of its phase. -/
def ConvProblem.sweepsAt (c : ConvProblem) (x y : Nat) : List Sweep :=
  if c.trans then c.sweeps.getD ((y + c.args.padT) % max 1 c.args.sh * c.args.sw + (x + c.args.padL) % max 1 c.args.sw) []
  else c.sweeps.flatten

/-- A value after bias and ACT for a floating-point accumulator. -/
def finishFloat (act : Nat) (acc bias : Num) : Num :=
  let v := (acc.add bias).round32
  if act = 1 then activateNum 0 v else v

/-- One output of CONV or CONV_T (R475 to R478, R482, R486, R524). -/
def State.convElem (s : State) (d : Desc) (c : ConvProblem) (x y co : Nat) : Nat :=
  let p := d.profile
  let sweeps := (c.sweepsAt x y).map fun w => s.sweepEntries d c w x y co
  let bias := if c.bias.base = 0 then 0 else (s.elemIn d c.bias co 0 0).1
  let float := c.x.elem.float.isSome || c.x.elem == .uint16
  if float then
    let xe := if c.x.elem = .uint16 then Elem.fp16 else c.x.elem
    let xc := fun (v : Nat) => if c.x.elem = .uint16 then Elem.fp16.encode false false false (Num.ofInt v) else v
    let acc := ((c.sweepsAt x y).zip sweeps).foldl (fun acc l =>
      if l.2.isEmpty then acc
      else mxSum xe c.w.elem p.ftz 4 ((if l.1.diag then co - l.1.group else co % max 1 c.gout) / 4) (l.2.map fun e => (xc e.1, e.2.1)) acc)
      (.fin false 0 0)
    let v := finishFloat c.args.act acc (if c.bias.base = 0 then .fin false 0 0 else num32 bias)
    if c.z.elem = .uint16 then
      match v.toInt p.trunc with
      | some i => (min 1023 (max 0 i)).toNat
      | none => Config.nonFiniteInt 16 (v == .nan) % 1024
    else c.z.code p v
  else
    let acc := sweeps.foldl (fun acc l => intDot (l.map fun e => (c.x.elem.intOf e.1, c.w.elem.intOf e.2.1)) acc) 0
    let v := wrap32 (acc + (if c.bias.base = 0 then 0 else Elem.int32.intOf bias))
    let r := if c.args.act = 1 then max 0 v else v
    c.z.elem.narrow p.sat (r / 2 ^ c.args.shift)

/-- The accumulator block of an output is darned (R397, R398): a sector read for any of the four positions of its row block or for any
of the four channels of its column block. -/
def State.convDarn (s : State) (d : Desc) (c : ConvProblem) (x y co : Nat) : Bool :=
  let per := ceilDiv c.z.dim1 (max 1 c.looms)
  let y0 := if per = 0 then 0 else y / per * per
  let m := (y - y0) * c.z.dim0 + x
  (List.range 4).any fun r => (List.range 4).any fun q =>
    let m' := m / 4 * 4 + r
    let x' := m' % max 1 c.z.dim0
    let y' := y0 + m' / max 1 c.z.dim0
    let co' := co / 4 * 4 + q
    decide (y' < min c.z.dim1 (y0 + per) ∧ co' < c.z.dim2) &&
      ((c.sweepsAt x' y').any fun w => (s.sweepEntries d c w x' y' co').any fun e => e.2.2)

/-- CONV or CONV_T. -/
def State.convolve (s : State) (ring seq code : Nat) (trans : Bool) : State :=
  match s.opReady ring seq code with
  | none => s
  | some (d, s) =>
    let refs := s.opRefs d 4
    let c : ConvProblem :=
      { args := d.convArgs, trans := trans, x := refAt refs 0, w := refAt refs 1, bias := refAt refs 2, z := refAt refs 3,
        looms := d.work.length }
    s.runOperator d 128 (c.legal d.l1q)
      (c.x.runsIn 0 ++ c.w.runs 1 ++ (if c.bias.base = 0 then [] else c.bias.runs 2))
      (c.z.outRunsIn fun i j k => (s.convElem d c i j k, s.convDarn d c i j k))
      c.cycles

/-- CONV (R475 to R494, R524 to R526). -/
def execConv (ring : Fin 1024) (seq : Nat) (s : State) : Host.Outcome State Fault Refusal :=
  .next (s.convolve ring seq 0x0200 false)

/-- CONV_T (R495 to R498). -/
def execConvT (ring : Fin 1024) (seq : Nat) (s : State) : Host.Outcome State Fault Refusal :=
  .next (s.convolve ring seq 0x0201 true)

/-! Layout conversion and pooling. -/

/-- The code of an element in another format: the same format keeps it. -/
def recode (p : Profile) (x z : TRef) (code : Nat) : Nat := if x.elem = z.elem then code else z.code p (x.value p code)

/-- TO_PLANAR or TO_PACKED. -/
def State.relayout (s : State) (ring seq code : Nat) (packedIn packedOut : Bool) : State :=
  match s.opReady ring seq code with
  | none => s
  | some (d, s) =>
    let refs := s.opRefs d 2
    let x := refAt refs 0
    let z := refAt refs 1
    s.runOperator d 64 (x.legal packedIn && z.legal packedOut && x.sameShape z && decide (d.inl 0 16 = 0)) (x.runsIn 0)
      (z.outRunsIn fun i j k =>
        let e := s.elemIn d x i j k
        (recode d.profile x z e.1, e.2))
      fun r =>
        let rows := rankRows z.dim1 d.work.length r
        if rows.2 ≤ rows.1 then 0 else ceilDiv (x.bytesOf (rows.2 - rows.1)) 64 + 16

/-- TO_PLANAR (R473). -/
def execToPlanar (ring : Fin 1024) (seq : Nat) (s : State) : Host.Outcome State Fault Refusal :=
  .next (s.relayout ring seq 0x0208 true false)

/-- TO_PACKED (R473). -/
def execToPacked (ring : Fin 1024) (seq : Nat) (s : State) : Host.Outcome State Fault Refusal :=
  .next (s.relayout ring seq 0x0209 false true)

/-- The taps of a pooling window that lie inside X: values and darn marks. -/
def State.poolTaps (s : State) (d : Desc) (a : ConvArgs) (x : TRef) (i j k : Nat) : List (Nat × Bool) :=
  (List.range a.kh).flatMap fun (ky : Nat) => (List.range a.kw).filterMap fun (kx : Nat) =>
    let px : Int := (i : Int) * a.sw - a.padL + kx
    let py : Int := (j : Int) * a.sh - a.padT + ky
    if 0 ≤ px ∧ px < x.dim0 ∧ 0 ≤ py ∧ py < x.dim1 then some (s.elemIn d x px.toNat py.toNat k) else none

/-- A value divided by a count, rounded to FP32. -/
def Num.overNat (x : Num) (b : Nat) : Num :=
  match x with
  | .fin neg m e => (Num.fin neg (2 * (m * 2 ^ 64 / b) + (if m * 2 ^ 64 % b = 0 then 0 else 1)) (e - 65)).round32
  | y => y

/-- POOL's result over the taps of a window (Table 9.6): the maximum, or the mean over the taps inside X. -/
def poolNum (p : Profile) (x : TRef) (mode : Nat) (taps : List Nat) : Num :=
  let vs := taps.map (x.value p)
  if taps.isEmpty then num32 (Config.poolMean [])
  else if mode = 0 then rowPick true vs
  else if x.elem.float.isSome then
    (match Num.exactSum vs with
    | some t => t.overNat taps.length
    | none => num32 (Config.poolMean (vs.map Num.code32)))
  else (Num.ofInt (taps.map x.elem.intOf).sum).overNat taps.length

/-- POOL (R474, R523, R526, R527). -/
def execPool (ring : Fin 1024) (seq : Nat) (s : State) : Host.Outcome State Fault Refusal :=
  match s.opReady ring seq 0x0210 with
  | none => .next s
  | some (d, s) =>
    let refs := s.opRefs d 2
    let x := refAt refs 0
    let z := refAt refs 1
    let a := d.convArgs
    .next (s.runOperator d 64
      (x.legal true && z.legal false && a.clean && x.dim2 == z.dim2 &&
        decide (1 ≤ a.kh ∧ a.kh ≤ 31 ∧ 1 ≤ a.kw ∧ a.kw ≤ 31 ∧ 1 ≤ a.sh ∧ 1 ≤ a.sw ∧ a.dh = 0 ∧ a.dw = 0))
      (x.runsIn 0)
      (z.outRunsIn fun i j k =>
        let t := s.poolTaps d a x i j k
        let v := poolNum d.profile x a.mode (t.map fun e => e.1)
        (z.code d.profile (if a.act = 1 then activateNum 0 v else v), t.any fun e => e.2))
      fun r =>
        let rows := rankRows z.dim1 d.work.length r
        if rows.2 ≤ rows.1 then 0
        else (if x.layout = 1 then ceilDiv (packedBytes x ({ a with dh := 1 }.inputRows false rows)) 64 else 0)
          + ceilDiv ((rows.2 - rows.1) * z.dim0 * z.dim2 * a.kh * a.kw) 64 + 16)

/-! Box lists (R504 to R506). -/

/-- A box entry (Table 9.4), in quarter pixels. -/
structure Box where
  x0    : Nat
  y0    : Nat
  x1    : Nat
  y1    : Nat
  score : Nat
  cls   : Nat
  darn  : Bool
  src   : Nat
  deriving DecidableEq, Repr

/-- A box of 16 bytes. -/
def Box.ofBytes (b : List Byte) : Box :=
  { x0 := bytesAt b 0 2, y0 := bytesAt b 2 2, x1 := bytesAt b 4 2, y1 := bytesAt b 6 2, score := bytesAt b 8 2,
    cls := bytesAt b 0xA 1, darn := bytesAt b 0xB 1 % 2 == 1, src := bytesAt b 0xC 4 }

/-- The bytes of a box. -/
def Box.bytes (b : Box) : List Byte :=
  leBytes 2 b.x0 ++ leBytes 2 b.y0 ++ leBytes 2 b.x1 ++ leBytes 2 b.y1 ++ leBytes 2 b.score ++ leBytes 1 b.cls
    ++ leBytes 1 (if b.darn then 1 else 0) ++ leBytes 4 b.src

/-- An empty box (R506). -/
def Box.empty (b : Box) : Bool := decide (b.x1 ≤ b.x0 ∨ b.y1 ≤ b.y0)

/-- A box that no list holds. -/
def Box.none_ : Box := { x0 := 0, y0 := 0, x1 := 0, y1 := 0, score := 0, cls := 0, darn := false, src := 0 }

/-- The bytes of a box list. -/
def State.boxListBytes (s : State) (d : Desc) (r : TRef) : List Byte := s.vaBytes d.loom0 d.tenant r.base r.dim0

/-- The capacity a reference gives a list (R505). -/
def TRef.boxCapacity (r : TRef) : Nat := (r.dim0 - 16) / 16

/-- A reference names a box list (R505). -/
def TRef.boxLegal (r : TRef) : Bool :=
  r.legal false && r.fmt == 3 && r.dim1 == 1 && r.dim2 == 1 && r.dim0 == 16 + 16 * r.boxCapacity

/-- A box of a list by its index; an index at or above COUNT is empty. -/
def boxAt (l : List Byte) (i : Nat) : Box :=
  if i < min (bytesAt l 0 2) ((l.length - 16) / 16) then Box.ofBytes ((l.drop (16 + 16 * i)).take 16) else Box.none_

/-- A box list's bytes: header and entries (Table 9.3). -/
def boxList (cap imgW imgH : Nat) (overflow : Bool) (bs : List Box) : List Byte :=
  leBytes 2 bs.length ++ leBytes 2 cap ++ leBytes 2 imgW ++ leBytes 2 imgH ++ leBytes 1 (if overflow then 1 else 0)
    ++ leBytes 7 0 ++ bs.flatMap Box.bytes

/-! Crop-and-resize and paste-back. -/

/-- Sample a reference at a place in 1/64 elements: the integer sum of the weighted taps, the exact sum as a value, and the darn mark
(R517, R518). The address of element (i, j, k) is given by `at_`. -/
def bilinear (r : TRef) (p : Profile) (at_ : Nat → Nat → Nat × Bool) (u v : Int) : Int × Num × Bool :=
  let tap := fun (i : Int) (n : Nat) => (min ((n : Int) - 1) (max 0 i)).toNat
  let i := u / 64
  let j := v / 64
  let a := u % 64
  let b := v % 64
  let taps := [(i, j, (64 - a) * (64 - b)), (i + 1, j, a * (64 - b)), (i, j + 1, (64 - a) * b), (i + 1, j + 1, a * b)]
  let es := taps.map fun t => (at_ (tap t.1 r.dim0) (tap t.2.1 r.dim1), t.2.2)
  ((es.map fun e => e.2 * r.elem.intOf e.1.1).sum,
   (es.foldl (fun (acc : Num) e => acc.add ((r.value p e.1.1).mul (.fin false e.2.toNat (-12)))) (.fin false 0 0)),
   es.any fun e => e.1.2)

/-- The code an interpolated sample takes (R518). -/
def resampled (x z : TRef) (p : Profile) (t : Int × Num × Bool) : Nat :=
  if x.elem.float.isNone && z.elem.float.isNone then z.elem.narrow p.sat ((t.1 + 2048) / 4096) else z.code p t.2.1.round32

/-- CROP_RESIZE's sampling place of an output index on one axis (R516). -/
def cropPlace (lo hi i n : Nat) : Int := 16 * (lo : Int) + (16 * (2 * (i : Int) + 1) * ((hi : Int) - lo)) / (2 * (n : Int)) - 32

/-- PASTE's sampling place of a frame coordinate on one axis (R520). -/
def pastePlace (lo hi x n : Nat) : Int := (64 * (4 * (x : Int) + 2 - lo) * n) / ((hi : Int) - lo) - 32

/-- CROP_RESIZE and PASTE are legal (Tables 9.6 and 9.8); `t` holds the region tensors. -/
def cropLegal (d : Desc) (x l z t : TRef) (packed : Bool) : Bool :=
  x.legal packed && l.boxLegal && z.legal false && decide (0 < t.dim0 ∧ 0 < t.dim1) && x.dim2 == z.dim2 && decide (d.inl 8 8 = 0) &&
    decide (t.elem.rowBytes (t.dim0 * t.dim1 * t.dim2) ≤ d.inl 4 4)

/-- The boxes of a rank as indices from FIRST (R526). -/
def rankBoxes (count looms r : Nat) : List Nat := (List.range count).filter fun b => b % max 1 looms == r

/-- CROP_RESIZE (R474, R516 to R519, R526). -/
def execCropResize (ring : Fin 1024) (seq : Nat) (s : State) : Host.Outcome State Fault Refusal :=
  match s.opReady ring seq 0x0220 with
  | none => .next s
  | some (d, s) =>
    let refs := s.opRefs d 3
    let x := refAt refs 0
    let l := refAt refs 1
    let z := refAt refs 2
    let list := s.boxListBytes d l
    let count := d.inl 2 2
    let outs := (List.range count).flatMap fun b =>
      let box := boxAt list (d.inl 0 2 + b)
      let zb : TRef := { z with base := z.base + b * d.inl 4 4 }
      zb.outRuns fun i j k =>
        if box.empty then (0, false)
        else
          let t := bilinear x d.profile (fun a c => s.elemIn d x a c k) (cropPlace box.x0 box.x1 i z.dim0) (cropPlace box.y0 box.y1 j z.dim1)
          (resampled x z d.profile t, t.2.2)
    .next (s.runOperator d 96 (cropLegal d x l z z true) (x.runsIn 0 ++ l.runs 1) outs
      fun r => (if x.layout = 1 ∧ rankBoxes count d.work.length r ≠ [] then ceilDiv (x.bytesOf x.dim1) 64 else 0)
        + ((rankBoxes count d.work.length r).map fun _ => 24 + ceilDiv (z.dim0 * z.dim1 * z.dim2) 16).sum)

/-- A box covers a frame pixel (R520). -/
def Box.covers (b : Box) (x y : Nat) : Bool :=
  !b.empty && decide (b.x0 ≤ 4 * x + 2 ∧ 4 * x + 2 < b.x1 ∧ b.y0 ≤ 4 * y + 2 ∧ 4 * y + 2 < b.y1)

/-- The lowest box of the range that covers a pixel, counted from FIRST (R521). -/
def pasteBox (list : List Byte) (first count x y : Nat) : Option (Nat × Box) :=
  ((List.range count).map fun b => (b, boxAt list (first + b))).find? fun b => b.2.covers x y

/-- The bytes PASTE writes in one row of Z: those that hold a covered element; the other half of a byte that two 4-bit elements share
keeps what memory holds. -/
def State.pasteRow (s : State) (d : Desc) (x z : TRef) (list : List Byte) (j k : Nat) : List OutRun :=
  let cell := fun (i : Nat) => match pasteBox list (d.inl 0 2) (d.inl 2 2) i j with
    | none => (s.elemAt d.loom0 d.tenant z i j k, false, false)
    | some (b, box) =>
      let xb : TRef := { x with base := x.base + b * d.inl 4 4 }
      let t := bilinear xb d.profile (fun a c => s.elemIn d xb a c k) (pastePlace box.x0 box.x1 i x.dim0) (pastePlace box.y0 box.y1 j x.dim1)
      (resampled x z d.profile t, t.2.2, true)
  let per := if z.elem = .int4 then 2 else 1
  (List.range (ceilDiv z.dim0 per)).filterMap fun c =>
    let cells := ((List.range z.dim0).drop (c * per)).take per |>.map cell
    if cells.any fun e => e.2.2 then
      some { va := z.elemVa (c * per) j k, data := packCodes z.elem (cells.map fun e => e.1), darn := cells.any fun e => e.2.1 }
    else none

/-- PASTE (R517, R518, R520, R521, R526). -/
def execPaste (ring : Fin 1024) (seq : Nat) (s : State) : Host.Outcome State Fault Refusal :=
  match s.opReady ring seq 0x0221 with
  | none => .next s
  | some (d, s) =>
    let refs := s.opRefs d 3
    let x := refAt refs 0
    let l := refAt refs 1
    let z := refAt refs 2
    let list := s.boxListBytes d l
    let inputs := (List.range (d.inl 2 2)).flatMap fun b =>
      if (boxAt list (d.inl 0 2 + b)).empty then [] else { x with base := x.base + b * d.inl 4 4 : TRef }.runs 0
    let covered := fun (b : Nat) =>
      let box := boxAt list (d.inl 0 2 + b)
      ((List.range z.dim1).map fun y => ((List.range z.dim0).filter fun i => box.covers i y).length).sum
    .next (s.runOperator d 96 (cropLegal d x l z x false) (inputs ++ l.runs 1)
      (z.rows.flatMap fun r => s.pasteRow d x z list r.1 r.2)
      fun r => ((rankBoxes (d.inl 2 2) d.work.length r).map fun b => 24 + ceilDiv (covered b * z.dim2) 16).sum)

/-! Box decode (R507 to R511). -/

/-- A value as sign and quotient bounds: `n / 2^k` times a factor, rounded half away from zero and kept within a top. -/
def Num.quantised (x : Num) (factor top : Nat) : Nat :=
  match x with
  | .nan => Config.boxNan top % (top + 1)
  | .inf neg => if neg then 0 else top
  | .fin neg m e =>
    if neg then 0
    else
      let v := if 0 ≤ e then m * factor * 2 ^ e.toNat else (2 * (m * factor) + 2 ^ (-e).toNat) / (2 * 2 ^ (-e).toNat)
      min top v

/-- FP32 products and sums, each rounded. -/
def mul32 (a b : Num) : Num := (a.mul b).round32
def add32 (a b : Num) : Num := (a.add b).round32

/-- The edges of a box on one axis: centre, size, delta of each, the scale fields, and the image's extent (R507, R508). -/
def decodeEdges (c size dc ds vc vs : Num) (img : Nat) : Nat × Nat :=
  let mid := add32 c (mul32 (mul32 dc vc) size)
  let full := mul32 size (num32 (Config.exp32 (mul32 ds vs).code32))
  let half := mul32 full (.fin false 1 (-1))
  ((add32 mid half.negate).quantised 4 (4 * img), (add32 mid half).quantised 4 (4 * img))

/-- A score as a fraction of 65,535, clamped to 0 to 1 first (R508). -/
def decodeScore (x : Num) : Nat := x.quantised 65535 65535

/-- The candidates of a problem in ascending SRC (R509, R511). -/
def State.boxCandidates (s : State) (d : Desc) (anc del sco : TRef) : List Box :=
  let p := d.profile
  let vxy := Elem.fp16.decode false (d.inl 2 2)
  let vwh := Elem.fp16.decode false (d.inl 4 2)
  (List.range anc.dim1).flatMap fun a =>
    let an := fun (i : Nat) => s.elemIn d anc i a 0
    let de := fun (i : Nat) => s.elemIn d del i a 0
    let av := fun (i : Nat) => anc.value p (an i).1
    let dv := fun (i : Nat) => del.value p (de i).1
    let ex := decodeEdges (av 0) (av 2) (dv 0) (dv 2) vxy vwh (d.inl 8 2)
    let ey := decodeEdges (av 1) (av 3) (dv 1) (dv 3) vxy vwh (d.inl 10 2)
    let bad := (List.range 4).any fun i => (an i).2 || (de i).2
    (List.range sco.dim0).filterMap fun cl =>
      let sc := s.elemIn d sco cl a 0
      let b : Box := { x0 := ex.1, y0 := ey.1, x1 := ex.2, y1 := ey.2, score := decodeScore (sco.value p sc.1), cls := cl % 256,
                       darn := bad || sc.2, src := a * sco.dim0 + cl }
      if d.inl 6 1 ≤ cl && decide (d.inl 0 2 ≤ b.score) && !b.empty then some b else none

/-- Insert by descending score, equal scores by ascending SRC (R510). -/
def insertBox (b : Box) : List Box → List Box
  | [] => [b]
  | c :: cs => if c.score < b.score ∨ (c.score = b.score ∧ b.src < c.src) then b :: c :: cs else c :: insertBox b cs

/-- The candidates kept: all of them, or the best that fit, in ascending SRC (R510). -/
def keepBoxes (cap : Nat) (l : List Box) : List Box :=
  if l.length ≤ cap then l
  else
    let best := (l.foldl (fun acc b => insertBox b acc) []).take cap
    l.filter fun b => best.contains b

/-- BOX_DECODE (R505, R507 to R511, R526 to R528). -/
def execBoxDecode (ring : Fin 1024) (seq : Nat) (s : State) : Host.Outcome State Fault Refusal :=
  match s.opReady ring seq 0x0228 with
  | none => .next s
  | some (d, s) =>
    let refs := s.opRefs d 4
    let anc := refAt refs 0
    let del := refAt refs 1
    let sco := refAt refs 2
    let z := refAt refs 3
    let cap := z.boxCapacity
    let cand := s.boxCandidates d anc del sco
    let kept := keepBoxes cap cand
    let flt := fun (r : TRef) => r.elem == .fp16 || r.elem == .bf16 || r.elem == .fp32
    .next (s.runOperator d 128
      ((refs.all fun r => r.legal false) && anc.elem == .fp16 && flt del && flt sco && z.boxLegal && anc.dim0 == 4 && del.dim0 == 4 &&
        del.dim1 == anc.dim1 && sco.dim1 == anc.dim1 && decide (1 ≤ cap ∧ cap ≤ 1024) && decide (d.inl 7 1 = 0 ∧ d.inl 12 4 = 0))
      (anc.runs 0 ++ del.runs 1 ++ sco.runs 2)
      [{ va := z.base, data := boxList cap (d.inl 8 2) (d.inl 10 2) (decide (cap < cand.length)) kept,
         darn := kept.any fun b => b.darn }]
      fun r => if r = 0 then 64 + ceilDiv (anc.dim1 * sco.dim0) 16 + 4 * cand.length else 0)

/-! Non-maximum suppression (R512 to R515). -/

/-- The area of a box. -/
def Box.area (b : Box) : Nat := (b.x1 - b.x0) * (b.y1 - b.y0)

/-- The area two boxes share. -/
def Box.inter (a b : Box) : Nat := (min a.x1 b.x1 - max a.x0 b.x0) * (min a.y1 b.y1 - max a.y0 b.y0)

/-- A kept box suppresses another (R512). -/
def suppresses (iou : Nat) (agnostic : Bool) (k b : Box) : Bool :=
  (agnostic || k.cls == b.cls) && decide (iou * (b.area + k.area - b.inter k) < b.inter k * 65536)

/-- Insert a box with its index by descending score, equal scores by ascending index (R512, R513). -/
def insertScored (b : Nat × Box) : List (Nat × Box) → List (Nat × Box)
  | [] => [b]
  | c :: cs => if c.2.score < b.2.score then b :: c :: cs else c :: insertScored b cs

/-- The kept boxes of an ordered list, in the order kept (R512). -/
def nmsKeep (iou top : Nat) (agnostic : Bool) : List (Nat × Box) → List (Nat × Box) → List (Nat × Box)
  | kept, [] => kept
  | kept, b :: bs =>
    if top ≤ kept.length then kept
    else if b.2.darn || kept.any fun k => suppresses iou agnostic k.2 b.2 then nmsKeep iou top agnostic kept bs
    else nmsKeep iou top agnostic (kept ++ [b]) bs

/-- NMS (R512 to R515, R526 to R528). -/
def execNms (ring : Fin 1024) (seq : Nat) (s : State) : Host.Outcome State Fault Refusal :=
  match s.opReady ring seq 0x0229 with
  | none => .next s
  | some (d, s) =>
    let refs := s.opRefs d 2
    let x := refAt refs 0
    let z := refAt refs 1
    let list := s.boxListBytes d x
    let n := min (bytesAt list 0 2) x.boxCapacity
    let cap := z.boxCapacity
    let top := orElse0 (d.inl 2 2) cap
    let order := (((List.range n).map fun i => (i, boxAt list i)).filter fun b => !b.2.empty).foldl (fun acc b => insertScored b acc) []
    let kept := nmsKeep (d.inl 0 2) top (d.inl 4 1 % 2 == 1) [] order
    .next (s.runOperator d 64
      (x.boxLegal && z.boxLegal && decide (1 ≤ x.boxCapacity ∧ x.boxCapacity ≤ 1024 ∧ 1 ≤ cap ∧ cap ≤ 1024) &&
        decide (d.inl 2 2 ≤ cap) && decide (d.inl 4 1 < 2 ∧ d.inl 5 11 = 0))
      (x.runs 0)
      [{ va := z.base, data := boxList cap (bytesAt list 4 2) (bytesAt list 6 2) ((bytesAt list 8 1).testBit 0) (kept.map fun b => b.2),
         darn := kept.any fun b => s.vaPoison d.loom0 d.tenant (x.base + 16 + 16 * b.1) 16 }]
      fun r => if r = 0 then 64 + 4 * n + ceilDiv (n * top) 4 else 0)

end Sys2Proof.Machine
end

