-- ==== Sys2Proof/Machine/SeqTables.lean ====
section
/-! DEFINITION. The sequence engine's tables in device memory and the walker's work on them: sequence records (Table 10.2), page
tables (Table 10.3), prefix entries (Table 10.5), the KV-TLB (R543 to R545), frames (R580 to R586), what frees a page or a sequence
(R577, R589, R597), and the key-value faults (R587, R588). -/

namespace Sys2Proof.Machine

/-- Change the sequence engine. -/
def State.onKv (s : State) (f : Kv → Kv) : State := { s with kv := f s.kv }

/-! Sequence records. -/

/-- A sequence record (Table 10.2). -/
structure SeqRec where
  valid   : Bool
  mmu     : Bool
  tenant  : Nat
  domain  : Nat
  kvfmt   : Nat
  model   : Nat
  layers  : Nat
  hkv     : Nat
  dim     : Nat
  lb      : Nat
  len     : Nat
  cap     : Nat
  dir     : Nat
  farOff  : Nat
  pfxLast : Nat
  pfxGen  : Nat
  frames  : Nat
  deriving DecidableEq, Repr

def SeqRec.ofBytes (b : List Byte) : SeqRec :=
  { valid := (bytesAt b 0 1).testBit 0, mmu := (bytesAt b 0 1).testBit 1, tenant := bytesAt b 1 1, domain := bytesAt b 2 1,
    kvfmt := bytesAt b 3 1, model := bytesAt b 4 4, layers := bytesAt b 8 1, hkv := bytesAt b 9 1, dim := bytesAt b 0xA 2,
    lb := bytesAt b 0xC 4, len := bytesAt b 0x10 4, cap := bytesAt b 0x14 4, dir := bytesAt b 0x18 8, farOff := bytesAt b 0x20 8,
    pfxLast := bytesAt b 0x28 2, pfxGen := bytesAt b 0x2A 2, frames := bytesAt b 0x2C 4 }

def SeqRec.bytes (r : SeqRec) : List Byte :=
  leBytes 1 ((if r.valid then 1 else 0) + if r.mmu then 2 else 0) ++ leBytes 1 r.tenant ++ leBytes 1 r.domain ++ leBytes 1 r.kvfmt
    ++ leBytes 4 r.model ++ leBytes 1 r.layers ++ leBytes 1 r.hkv ++ leBytes 2 r.dim ++ leBytes 4 r.lb ++ leBytes 4 r.len
    ++ leBytes 4 r.cap ++ leBytes 8 r.dir ++ leBytes 8 r.farOff ++ leBytes 2 r.pfxLast ++ leBytes 2 r.pfxGen ++ leBytes 4 r.frames
    ++ leBytes 16 0

def SeqRec.latent (r : SeqRec) : Bool := r.kvfmt.testBit 0
def SeqRec.quant (r : SeqRec) : Nat := r.kvfmt / 2 % 4
def SeqRec.pool (r : SeqRec) : Nat := r.kvfmt / 8 % 4

/-- Elements of a layer slice (Table 10.1). -/
def SeqRec.elems (r : SeqRec) : Nat := if r.latent then 16 * r.dim else 2 * r.hkv * 16 * r.dim

/-- Bits of an element (Table 10.1). -/
def SeqRec.elemBits (r : SeqRec) : Nat := match r.quant with
  | 0 => 16
  | 1 => 8
  | _ => 4

/-- The data bytes of a slice. -/
def SeqRec.dataBytes (r : SeqRec) : Nat := r.elems * r.elemBits / 8

/-- The bytes of a slice, LB (R535). -/
def SeqRec.sliceBytes (r : SeqRec) : Nat :=
  ceilDiv (r.dataBytes + if r.quant = 0 then 0 else 2 * (r.elems / 32)) 128 * 128

/-- The bytes of a page, PB (R533). -/
def SeqRec.pageBytes (r : SeqRec) : Nat := r.layers * r.lb

/-- The dimensions of R536 hold. -/
def SeqRec.legal (r : SeqRec) : Bool :=
  decide (r.dim % 32 = 0 ∧ (if r.latent then 64 ≤ r.dim ∧ r.dim ≤ 512 else 32 ≤ r.dim ∧ r.dim ≤ 256) ∧ 1 ≤ r.hkv ∧ r.hkv ≤ 64 ∧
    1 ≤ r.layers ∧ r.layers ≤ 128 ∧ r.quant ≠ 3)

def State.seqAddr (s : State) (h : Nat) : Nat := s.addr64 Reg.SEQ_STAB_LO Reg.SEQ_STAB_HI + 64 * h

/-- The record of a handle. -/
def State.seqRec (s : State) (h : Nat) : SeqRec := SeqRec.ofBytes (s.memBytes (s.seqAddr h) 64)

/-- The walker's requester index (Table 6.3). -/
def kvWalker : Nat := 34

/-- The walker's accesses charge the owning tenant's bucket (Table 7.2). -/
def State.walkerCharge (s : State) (tenant lines : Nat) : State := s.chargeLines [.tenant tenant] lines

/-- The walker writes device memory for a tenant; its lines are charged. -/
def State.walkerWrite (s : State) (c : MemClass) (tenant a : Nat) (b : List Byte) : State :=
  (s.memWrite a b c kvWalker).walkerCharge tenant ((a % 128 + b.length + 127) / 128)

/-- Write a record (R540). -/
def State.setSeqRec (s : State) (c : MemClass) (h : Nat) (r : SeqRec) : State := s.walkerWrite c r.tenant (s.seqAddr h) r.bytes

/-- A descriptor may name a handle (R529, R530). -/
def State.seqOk (s : State) (d : Desc) (h : Nat) : Bool :=
  decide (h < 16384) && (s.seqRec h).valid && (s.seqRec h).tenant == d.tenant

/-! Pools and frames. -/

/-- The bytes of a frame; a LOG2_FRAME outside 12 to 20 is treated as 12. -/
def State.frameSize (s : State) (pool : Nat) : Nat :=
  let k := s.fld (Reg.SEQ_POOL_CFG pool) Reg.SEQ_POOL_CFG_LOG2_FRAME
  if 12 ≤ k ∧ k ≤ 20 then 2 ^ k else 4096

/-- The frames of a pool; pool 4 stands for the page-table pool. -/
def State.poolFrames (s : State) (pool : Nat) : Nat :=
  if pool = 4 then s.fld Reg.SEQ_PT_SIZE Reg.SEQ_PT_SIZE_FRAMES else s.fld (Reg.SEQ_POOL_CFG pool) Reg.SEQ_POOL_CFG_FRAMES

/-- The address of a frame. -/
def State.frameAddr (s : State) (pool f : Nat) : Nat :=
  if pool = 4 then s.addr64 Reg.SEQ_PT_LO Reg.SEQ_PT_HI + 4096 * f
  else s.addr64 (Reg.SEQ_POOL_BASE_LO pool) (Reg.SEQ_POOL_BASE_HI pool) + s.frameSize pool * f

/-- The lowest-numbered free frame of a pool. -/
def State.freeFrame (s : State) (pool : Nat) : Option Nat :=
  (List.range (s.poolFrames pool)).find? fun f => !s.kv.used.contains (pool * 65536 + f)

/-- A frame is taken. -/
def State.takeFrame (s : State) (pool f : Nat) : State :=
  let s1 := s.onKv fun k => { k with used := insertNat (pool * 65536 + f) k.used }
  if pool = 4 then s1 else s1.setFld (Reg.SEQ_POOL_FREE pool) Reg.SEQ_POOL_FREE_FREE (s1.fld (Reg.SEQ_POOL_FREE pool) Reg.SEQ_POOL_FREE_FREE - 1)

/-- A frame is free again. -/
def State.giveFrame (s : State) (pool f : Nat) : State :=
  let s1 := s.onKv fun k => { k with used := k.used.filter (· ≠ pool * 65536 + f) }
  if pool = 4 then s1 else s1.setFld (Reg.SEQ_POOL_FREE pool) Reg.SEQ_POOL_FREE_FREE (s1.fld (Reg.SEQ_POOL_FREE pool) Reg.SEQ_POOL_FREE_FREE + 1)

/-- The private frames a tenant holds (R582). -/
def State.tenFrames (s : State) (t : Nat) : Nat := s.fld (Reg.SEQ_TEN_FRAMES t) Reg.SEQ_TEN_FRAMES_FRAMES

/-- A sequence comes to hold one private frame more. -/
def State.holdFrame (s : State) (c : MemClass) (h : Nat) : State :=
  let r := s.seqRec h
  (s.setFld (Reg.SEQ_TEN_FRAMES r.tenant) Reg.SEQ_TEN_FRAMES_FRAMES (s.tenFrames r.tenant + 1)).setSeqRec c h { r with frames := r.frames + 1 }

/-- A sequence comes to hold one private frame fewer. -/
def State.loseFrame (s : State) (c : MemClass) (h : Nat) : State :=
  let r := s.seqRec h
  (s.setFld (Reg.SEQ_TEN_FRAMES r.tenant) Reg.SEQ_TEN_FRAMES_FRAMES (s.tenFrames r.tenant - 1)).setSeqRec c h { r with frames := r.frames - 1 }

/-! Page tables. -/

/-- A leaf entry (Table 10.3): STATE 0 INVALID, 1 RESIDENT, 2 FAR, 3 MOVING. -/
structure Leaf where
  state  : Nat
  unw    : Bool
  shared : Bool
  fill   : Nat
  frame  : Nat
  pfx    : Nat
  used   : Nat
  deriving DecidableEq, Repr

def Leaf.ofNat (n : Nat) : Leaf :=
  { state := n % 4, unw := n.testBit 2, shared := n.testBit 3, fill := n / 2 ^ 4 % 32, frame := n / 2 ^ 16 % 65536,
    pfx := n / 2 ^ 32 % 4096, used := n / 2 ^ 48 % 65536 }

def Leaf.toNat (l : Leaf) : Nat :=
  l.state % 4 + (if l.unw then 4 else 0) + (if l.shared then 8 else 0) + (l.fill % 32) * 2 ^ 4 + (l.frame % 65536) * 2 ^ 16
    + (l.pfx % 4096) * 2 ^ 32 + (l.used % 65536) * 2 ^ 48

/-- The entry of a page without one. -/
def Leaf.invalid : Leaf := { state := 0, unw := false, shared := false, fill := 0, frame := 0, pfx := 0, used := 0 }

/-- The address of the leaf entry of a page, where its leaf table exists (R541). -/
def State.leafAddr (s : State) (r : SeqRec) (p : Nat) : Option Nat :=
  let e := s.memNat (s.frameAddr 4 r.dir + 8 * (p / 512 % 512)) 8
  if e.testBit 0 then some (s.frameAddr 4 (e / 2 ^ 8 % 2 ^ 20) + 8 * (p % 512)) else none

/-- The leaf entry of a page. -/
def State.leafAt (s : State) (r : SeqRec) (p : Nat) : Leaf :=
  match s.leafAddr r p with
  | some a => Leaf.ofNat (s.memNat a 8)
  | none => Leaf.invalid

/-- Change a leaf entry, and take it out of the KV-TLB in the same CCLK (R545). -/
def State.setLeaf (s : State) (c : MemClass) (h p : Nat) (l : Leaf) : State :=
  match s.leafAddr (s.seqRec h) p with
  | some a =>
    if Leaf.ofNat (s.memNat a 8) = l then s
    else (s.walkerWrite c (s.seqRec h).tenant a (leBytes 8 l.toNat)).onKv fun k => { k with tlb := k.tlb.filter fun e => !(e.handle == h && e.page == p) }
  | none => s

/-- A new page table of zeros; none when its pool has no free frame (Table 10.6, cause 0x2). -/
def State.newTable (s : State) (c : MemClass) (tenant : Nat) : Option (Nat × State) :=
  (s.freeFrame 4).map fun f => (f, (s.takeFrame 4 f).walkerWrite c tenant (s.frameAddr 4 f) (List.replicate 4096 0#8))

/-- Make sure that the leaf table of a page exists. -/
def State.needLeaf (s : State) (c : MemClass) (h p : Nat) : Option State :=
  let r := s.seqRec h
  if (s.leafAddr r p).isSome then some s
  else (s.newTable c r.tenant).map fun x =>
    x.2.walkerWrite c r.tenant (x.2.frameAddr 4 r.dir + 8 * (p / 512 % 512)) (leBytes 8 (1 + x.1 % 2 ^ 20 * 2 ^ 8))

/-- The pages of a sequence whose leaf table exists and that are not INVALID. -/
def State.seqPages (s : State) (r : SeqRec) : List (Nat × Leaf) :=
  ((List.range 512).filter fun i => (s.leafAddr r (512 * i)).isSome).flatMap fun i =>
    ((List.range 512).map fun j => (512 * i + j, s.leafAt r (512 * i + j))).filter fun x => x.2.state != 0

/-- The leaf tables of a sequence. -/
def State.leafTables (s : State) (r : SeqRec) : List Nat :=
  (List.range 512).filterMap fun i =>
    let e := s.memNat (s.frameAddr 4 r.dir + 8 * i) 8
    if e.testBit 0 then some (e / 2 ^ 8 % 2 ^ 20) else none

/-- PFX_LAST and PFX_GEN name the entry of the last shared page (Table 10.2). -/
def State.noteLastShared (s : State) (c : MemClass) (h : Nat) : State :=
  let r := s.seqRec h
  let x : Nat × Nat := match ((s.seqPages r).filter fun x => x.2.shared).getLast? with
    | some x => (x.2.pfx, bytesAt (s.memBytes (s.addr64 Reg.SEQ_PFX_LO Reg.SEQ_PFX_HI + 128 * x.2.pfx) 128) 0xC 2)
    | none => (0xFFFF, 0)
  if r.mmu = true ∨ (r.pfxLast = x.1 ∧ r.pfxGen = x.2) then s else s.setSeqRec c h { r with pfxLast := x.1, pfxGen := x.2 }

/-! The KV-TLB. -/

/-- The KV-TLB's entry of a page. -/
def State.kvHit (s : State) (h p : Nat) : Option KvTlb := s.kv.tlb.find? fun e => e.handle == h && e.page == p

/-- The place of a new KV-TLB entry: the lowest empty one, else that of the least recently used, the lowest number among equals
(R544). -/
def State.kvVictim (s : State) : Nat :=
  match (List.range 64).find? fun k => s.kv.tlb.all fun e => e.slot != k with
  | some k => k
  | none => match s.kv.tlb.foldl (fun (b : Option KvTlb) e => match b with
      | none => some e
      | some x => if e.lru < x.lru ∨ (e.lru = x.lru ∧ e.slot < x.slot) then some e else some x) none with
    | some e => e.slot
    | none => 0

/-- The walker finds a page's leaf entry: in the KV-TLB, or by a walk, which is counted, charges its three reads and fills it (R543, R544, Table
7.2). -/
def State.kvWalk (s : State) (h p : Nat) : State :=
  match s.kvHit h p with
  | some e => s.onKv fun k => { k with
      tlb := k.tlb.map fun x => if x == e then { x with lru := k.use + 1 } else x
      use := k.use + 1 }
  | none =>
    let v := s.kvVictim
    let e : KvTlb := { slot := v, handle := h, page := p, leaf := (s.leafAt (s.seqRec h) p).toNat, lru := s.kv.use + 1 }
    ((s.walkerCharge (s.seqRec h).tenant 3).bump Reg.SEQ_KVTLB_MISS_CNT).onKv fun k =>
      { k with tlb := k.tlb.filter (fun x => x.slot != v) ++ [e], use := k.use + 1 }

/-! Prefix entries. -/

/-- A prefix entry (Table 10.5). -/
structure PfxEntry where
  hash     : Nat
  parent   : Nat
  pgen     : Nat
  gen      : Nat
  refs     : Nat
  resident : Bool
  pool     : Nat
  frame    : Nat
  domain   : Nat
  model    : Nat
  layout   : Nat
  tokens   : List Byte
  deriving DecidableEq, Repr

def PfxEntry.ofBytes (b : List Byte) : PfxEntry :=
  { hash := bytesAt b 0 8, parent := bytesAt b 8 2, pgen := bytesAt b 0xA 2, gen := bytesAt b 0xC 2, refs := bytesAt b 0xE 2,
    resident := bytesAt b 0x10 1 == 1, pool := bytesAt b 0x11 1, frame := bytesAt b 0x12 2, domain := bytesAt b 0x14 1,
    model := bytesAt b 0x18 4, layout := bytesAt b 0x1C 4, tokens := (b.drop 0x20).take 64 }

def PfxEntry.bytes (e : PfxEntry) : List Byte :=
  leBytes 8 e.hash ++ leBytes 2 e.parent ++ leBytes 2 e.pgen ++ leBytes 2 e.gen ++ leBytes 2 e.refs
    ++ leBytes 1 (if e.resident then 1 else 0) ++ leBytes 1 e.pool ++ leBytes 2 e.frame ++ leBytes 1 e.domain ++ leBytes 3 0
    ++ leBytes 4 e.model ++ leBytes 4 e.layout ++ e.tokens ++ leBytes 32 0

def State.pfxAddr (s : State) (e : Nat) : Nat := s.addr64 Reg.SEQ_PFX_LO Reg.SEQ_PFX_HI + 128 * e

def State.pfx (s : State) (e : Nat) : PfxEntry := PfxEntry.ofBytes (s.memBytes (s.pfxAddr e) 128)

def State.setPfx (s : State) (c : MemClass) (e : Nat) (x : PfxEntry) : State := s.memWrite (s.pfxAddr e) x.bytes c kvWalker

/-- Free an entry: its frame, its STATE and its GEN (R577). -/
def State.freePfx (s : State) (c : MemClass) (e : Nat) : State :=
  let x := s.pfx e
  ((s.giveFrame x.pool x.frame).setPfx c e { x with resident := false, gen := (x.gen + 1) % 65536 }).setFld Reg.SEQ_PFX_USED
    Reg.SEQ_PFX_USED_COUNT (s.fld Reg.SEQ_PFX_USED Reg.SEQ_PFX_USED_COUNT - 1)

/-- One leaf fewer names an entry; at 0 it stays RESIDENT (R578). -/
def State.unrefPfx (s : State) (c : MemClass) (e : Nat) : State := s.setPfx c e { s.pfx e with refs := (s.pfx e).refs - 1 }

/-- One leaf more names an entry. -/
def State.refPfx (s : State) (c : MemClass) (e : Nat) : State := s.setPfx c e { s.pfx e with refs := (s.pfx e).refs + 1 }

/-- The mixing step of R572. -/
def pfxMix (x : Nat) : Nat :=
  let m := 2 ^ 64
  let a := (x ^^^ (x / 2 ^ 31)) * 0xD6E8FEB86659FD93 % m
  let b := (a ^^^ (a / 2 ^ 29)) * 0xA0761D6478BD642F % m
  b ^^^ (b / 2 ^ 32)

/-- The hash of a page (R572): domain, model, layout, parent, PGEN, and the 16 tokens as 64 bytes. -/
def pfxHash (domain model layout parent pgen : Nat) (tokens : List Byte) : Nat :=
  let h0 := pfxMix ((domain * 2 ^ 56) ^^^ (model * 2 ^ 24) ^^^ layout)
  let h1 := pfxMix (h0 ^^^ (parent * 2 ^ 16) ^^^ pgen)
  (List.range 16).foldl (fun h i => pfxMix (h ^^^ bytesAt tokens (4 * i) 4)) h1

/-- LAYOUT of a sequence (Table 10.5). -/
def SeqRec.layout (r : SeqRec) : Nat :=
  r.layers + r.hkv * 2 ^ 8 + r.dim % 1024 * 2 ^ 16 + (if r.latent then 2 ^ 26 else 0) + r.quant * 2 ^ 27

/-- The entry a page of a sequence would be: its parent and the parent's present GEN, and its tokens. -/
def State.pfxWanted (s : State) (r : SeqRec) (parent : Option Nat) (tokens : List Byte) : PfxEntry :=
  let pn := parent.getD 0xFFFF
  let pg := match parent with
    | some e => (s.pfx e).gen
    | none => 0
  { hash := pfxHash r.domain r.model r.layout pn pg tokens, parent := pn, pgen := pg, gen := 0, refs := 0, resident := true,
    pool := r.pool, frame := 0, domain := r.domain, model := r.model, layout := r.layout, tokens := tokens }

/-- An entry matches what is wanted (R573). -/
def PfxEntry.matches_ (e w : PfxEntry) : Bool :=
  e.resident && e.hash == w.hash && e.parent == w.parent && e.pgen == w.pgen && e.domain == w.domain && e.model == w.model
    && e.layout == w.layout && e.tokens == w.tokens

/-- The ways of the set of a hash, ascending (R571, R572). -/
def pfxWays (hash : Nat) : List Nat := (List.range 8).map fun w => hash % 512 * 8 + w

/-- The first way that matches (R573). -/
def State.pfxFind (s : State) (w : PfxEntry) : Option Nat := (pfxWays w.hash).find? fun e => (s.pfx e).matches_ w

/-! Freeing pages and sequences. -/

/-- What holds a page's frame lets it go: a shared page's entry loses a reference, a private frame is freed; a move in progress ends
(R589, R597). -/
def State.freePage (s : State) (c : MemClass) (h p : Nat) (l : Leaf) : State :=
  let r := s.seqRec h
  let s1 := s.onKv fun k => { k with moves := k.moves.filter fun m => !(m.handle == h && m.page == p) }
  let s2 := if l.shared then s1.unrefPfx c l.pfx
    else if l.state = 1 ∨ l.state = 3 then (s1.giveFrame r.pool l.frame).loseFrame c h
    else s1
  s2.setLeaf c h p Leaf.invalid

/-- Free a sequence: its pages, its page tables, its record and its KV-TLB entries (R589, R597). -/
def State.freeSeq (s : State) (c : MemClass) (h : Nat) : State :=
  let r := s.seqRec h
  let s1 := if r.mmu then s
    else
      let s2 := (s.seqPages r).foldl (fun t x => t.freePage c h x.1 x.2) s
      (s2.leafTables r ++ [r.dir]).foldl (fun t f => t.giveFrame 4 f) s2
  (s1.setSeqRec c h { s1.seqRec h with valid := false }).onKv fun k => { k with tlb := k.tlb.filter fun e => e.handle != h }

/-! Running descriptors and the sequences they name. -/

/-- The batch entries' handles of an attention descriptor (R594). -/
def State.batchHandles (s : State) (d : Desc) : List Nat :=
  let nb := leNat (s.vaBytes d.loom0 d.tenant (d.argPtr + 292) 2)
  let base := (tensorRef (s.vaBytes d.loom0 d.tenant (d.argPtr + 256) 32)).base
  (List.range nb).map fun b => leNat (s.vaBytes d.loom0 d.tenant (base + 16 * b) 2)

/-- The handles a descriptor names (Table 10.8). -/
def State.handlesOf (s : State) (d : Desc) : List Nat :=
  if d.coll then []
  else if d.opcode = 0x0300 then
    (if (d.inl 3 1).testBit 1 then [] else if s.batchHandles d = [] then [d.inl 0 2] else s.batchHandles d)
  else if d.opcode = 0x0310 ∨ d.opcode = 0x0320 ∨ d.opcode = 0x0321 ∨ d.opcode = 0x0328 then [d.inl 0 2]
  else if d.opcode = 0x0318 ∧ d.inl 0 1 ≠ 0 then [d.inl 8 2]
  else []

/-- A running descriptor of the sequence's tenant names it. -/
def State.seqNamed (s : State) (h : Nat) : Bool :=
  s.ten.descs.any fun d => d.phase != .waiting && d.tenant == (s.seqRec h).tenant && (s.handlesOf d).contains h

/-! Spill and allocation. -/

/-- A page that may be spilled (R583). -/
structure Victim where
  age    : Nat
  frame  : Nat
  handle : Nat
  page   : Nat
  leaf   : Leaf
  deriving DecidableEq, Repr

/-- The pages of a tenant and pool that may be spilled (R583). -/
def State.victims (s : State) (tenant pool : Nat) : List Victim :=
  (List.range 16384).flatMap fun h =>
    let r := s.seqRec h
    if r.valid && !r.mmu && r.tenant == tenant && r.pool == pool && !s.seqNamed h then
      ((s.seqPages r).filter fun x => x.2.state == 1 && !x.2.shared && !x.2.unw &&
          decide (r.farOff + x.1 * s.frameSize pool + 128 ≤ s.farSize tenant)).map fun x =>
        { age := (s.trd.now.frame + 65536 - x.2.used) % 65536, frame := x.2.frame, handle := h, page := x.1, leaf := x.2 }
    else []

/-- The page to spill: the oldest LAST_USE, then the lowest frame (R542, R583). -/
def State.victim (s : State) (tenant pool : Nat) : Option Victim :=
  (s.victims tenant pool).foldl (fun (b : Option Victim) v => match b with
    | none => some v
    | some x => if x.age < v.age ∨ (x.age = v.age ∧ v.frame < x.frame) then some v else some x) none

/-- The walker's move of a page between its frame and the far tier. -/
def State.startMove (s : State) (h p frame : Nat) (out : Bool) : State :=
  let r := s.seqRec h
  let m : KvMove := { handle := h, page := p, tenant := r.tenant, pool := r.pool, frame := frame, pa := s.frameAddr r.pool frame,
                      len := r.pageBytes, left := r.pageBytes, out := out, failed := false }
  s.onKv fun k => { k with moves := k.moves ++ [m] }

/-- A spill begins (R584). -/
def State.startSpill (s : State) (c : MemClass) (v : Victim) : State :=
  (s.setLeaf c v.handle v.page { v.leaf with state := 3 }).startMove v.handle v.page v.frame true

/-- What an allocation answers: a number, a wait for a spill, or a key-value fault's cause. -/
inductive KvGot where
  | got (x : Nat) | wait | fault (cause : Nat)
  deriving DecidableEq, Repr

/-- A frame of the pool can be allocated for the tenant (R582). -/
def State.canTake (s : State) (tenant pool : Nat) : Option Nat :=
  let quota := s.fld (Reg.SEQ_TEN_QUOTA tenant) Reg.SEQ_TEN_QUOTA_FRAMES
  if quota = 0 ∨ s.tenFrames tenant < quota then s.freeFrame pool else none

/-- The lowest-numbered prefix entry of a pool with REFS 0. -/
def State.idlePfx (s : State) (pool : Nat) : Option Nat :=
  (List.range 4096).find? fun e => (s.pfx e).resident && (s.pfx e).refs == 0 && (s.pfx e).pool == pool

/-- Allocate a frame for a sequence (R582): else the lowest idle prefix entry of the pool is freed and then a page is spilled, over and over; with
neither left, the fault of cause 0x1. -/
def State.allocFrame (c : MemClass) (h : Nat) : Nat → State → KvGot × State
  | 0, s => (.fault 1, s)
  | fuel + 1, s =>
    let r := s.seqRec h
    let take := fun (t : State) (f : Nat) => (KvGot.got f, (t.takeFrame r.pool f).holdFrame c h)
    match s.canTake r.tenant r.pool with
    | some f => take s f
    | none =>
      if s.kv.moves.any fun m => m.out && m.tenant == r.tenant && m.pool == r.pool then (.wait, s)
      else
        let s1 := match s.idlePfx r.pool with
          | some e => s.freePfx c e
          | none => s
        match s1.canTake r.tenant r.pool with
        | some f => take s1 f
        | none => match s1.victim r.tenant r.pool with
          | some v => (.wait, s1.startSpill c v)
          | none => if (s.idlePfx r.pool).isSome then State.allocFrame c h fuel s1 else (.fault 1, s1)

/-- Rounds enough to free every prefix entry. -/
def allocFuel : Nat := 4097

/-- A bring-back begins (R585); a page already on its way goes on. -/
def State.startBack (s : State) (c : MemClass) (h p : Nat) : KvGot × State :=
  let l := s.leafAt (s.seqRec h) p
  if l.state = 3 then (.wait, s)
  else match s.allocFrame c h allocFuel with
    | (.got f, t) => (.wait, (t.setLeaf c h p { l with state := 3, frame := f }).startMove h p f false)
    | x => x

/-! Key-value faults. -/

/-- The channels of a descriptor that a RESUME makes retry a key-value fault (R588). -/
def State.kvRetrying (s : State) (d : Desc) : List (Nat × Chan) :=
  s.sht.chans.filter fun e => e.2.ring == d.ring && e.2.seq == d.seq && !e.2.raster && e.2.retry && e.2.fault.any fun f => f.kind == 1

/-- A key-value fault that halts (Table 10.6, causes 0x1 and 0x2), or a retry of one that faults again (R392, R588). `at_` is the byte
position of the page in the sequence's virtual or far layout. -/
def State.kvHalt (s : State) (d : Desc) (cause at_ : Nat) : State :=
  let s1 := s.bump Reg.SEQ_KV_FAULT_CNT
  let f : Fault7 := { kind := 1, cause := cause, write := true, va := at_, cclk := s.trd.cclk, stamp := s.trd.now }
  match s1.kvRetrying d with
  | [] => s1.setChan d.loom0 0 { s1.chan d.loom0 0 with
      state := .run, raster := false, tenant := d.tenant, ring := d.ring, seq := d.seq, retry := false, fault := some f, slot := none,
      xlated := none }
  | e :: _ =>
    let s2 := s1.setChan (e.1 / 16) (e.1 % 16) { e.2 with fault := some f, retry := false, owed := true }
    let s3 := s2.onSht fun t => { t with
      recs := t.recs.map fun x =>
        if some x.1 = e.2.slot.map (fun k => e.2.tenant * 64 + k) then (x.1, { x.2 with resuming := none, fault := f }) else x }
    s3.bump Reg.SHT_REFAULT_CNT

/-- A retried allocation has succeeded: its channel runs on (R391, R588). -/
def State.kvSettled (s : State) (d : Desc) : State :=
  (s.kvRetrying d).foldl (fun t e => t.resumed (e.1 / 16) (e.1 % 16) e.2) s

/-- The descriptor of a sequence operator row: at work on its looms, or resumed after a key-value fault (R588). -/
def State.kvDesc? (s : State) (ring seq code : Nat) : Option Desc :=
  match s.opDesc? ring seq code with
  | some d => some d
  | none => match s.desc? ring seq with
    | some d => if !d.coll && d.opcode == code && d.phase == .halted && !(s.kvRetrying d).isEmpty then some d else none
    | none => none

/-- Appends and changes of the prefix table of one CCLK are taken in ascending logical loom (R552, R579, Table 0.6). DESIGN CHOICE (log 138): one
commanded after that of a higher loom is taken in the next CCLK. -/
def State.walkerTurn (s : State) (loom : Nat) : State :=
  let s1 := match s.kv.taken with
    | some x => if x.1 = s.trd.cclk ∧ loom < x.2 then s.tick else s
    | none => s
  { s1 with kv := { s1.kv with taken := some (s1.trd.cclk, loom) } }

/-- The descriptor of a sequence operator row with the state its operator finds; attention alone changes no table. -/
def State.kvOpReady (s : State) (ring seq code : Nat) : Option (Desc × State) :=
  match s.kvDesc? ring seq code with
  | none => none
  | some d =>
    let t := if code = 0x0300 then s else s.walkerTurn d.loom0
    (t.kvDesc? ring seq code).map fun e => (e, t.recallOperands e)

/-- The sequence engine is enabled, and it is initialising (R590). -/
def State.kvOn (s : State) : Bool := s.bit Reg.SEQ_CFG Reg.SEQ_CFG_EN
def State.kvInit (s : State) : Bool := s.bit Reg.SEQ_STATUS Reg.SEQ_STATUS_INIT

/-- What every operator of the walker checks first (R241, R384, R587, R590): the engine enabled, no initialisation, the operand block
readable, the operands legal, the references' lines translated and delivered (R371), and no darned input that ends it; then it does its
work. -/
def State.kvOperator (s : State) (d : Desc) (walker : Bool) (argBytes : Nat) (legal : Bool) (inputs outputs : List (Nat × Nat × Nat))
    (work : State → State) : State :=
  if walker && !s.kvOn then s.kvEnd d 4
  else if walker && s.kvInit then s
  else match s.firstFault d.loom0 d.tenant false [(0, d.argPtr, argBytes)] with
    | some (_, cause, va) => s.blockFault d cause va
    | none =>
      if !legal then s.completeDesc d 0x32 0
      else match s.firstFault d.loom0 d.tenant false inputs with
        | some (ch, cause, va) => s.opFault d d.loom0 ch cause va false
        | none => match s.firstFault d.loom0 d.tenant true outputs with
          | some (ch, cause, va) => s.opFault d d.loom0 ch cause va true
          | none =>
            if !s.fed d then s
            else match inputs.find? fun x => s.vaPoison d.loom0 d.tenant x.2.1 x.2.2 with
            | some x => if d.darnOk then work s else s.endUncorr d x.2.1
            | none => work s

end Sys2Proof.Machine
end

