-- ==== Sys2Proof/Machine/Sequence.lean ====
section
/-! DEFINITION. The sequence operators but attention: KV_SEQ (R529 to R536, R596, R597), KV_APPEND (R537, R549 to R553), the prefix
operators (R571 to R579), KV_PREFETCH (R598); the walker's walks, spills and bring-backs (R543, R584 to R586); and the enable, stop
and initialisation of the engine and of its KV-TLB (R590, R591, R601). -/

namespace Sys2Proof.Machine

/-- INLINE bytes that must be 0 (R595). -/
def Desc.inlZero (d : Desc) (offs : List Nat) : Bool := offs.all fun o => d.inl o 1 == 0

/-- The bytes of a list of offsets `a` to `b - 1`. -/
def span (a b : Nat) : List Nat := (List.range b).drop a

/-- The looms of a walker operator have done their work, which takes no loom time of its own. -/
def State.kvDone (s : State) (d : Desc) (darned : Bool) : State := (s.kvSettled d).workDone d (fun _ => 0) darned

/-- The class of a descriptor's walker traffic. -/
def State.descClass (s : State) (d : Desc) : MemClass := s.ringClass d.ring

/-- An OUT reference of one INT32. -/
def TRef.outLegal (r : TRef) : Bool := r.legal false && r.elem == .int32 && decide (1 ≤ r.dim0)

/-! KV_SEQ. -/

/-- The lowest-numbered free record (R596). -/
def State.freeRecord (s : State) : Option Nat := (List.range 16384).find? fun h => !(s.seqRec h).valid

/-- The record an OPEN asks for: INLINE (Table 10.8), and VBASE, FAR_OFF, MODEL and CAP after OUT (R596). -/
def State.openRec (s : State) (d : Desc) : SeqRec :=
  let a := s.vaBytes d.loom0 d.tenant (d.argPtr + 0x20) 24
  let mmu := (d.inl 1 1).testBit 0
  let r : SeqRec :=
    { valid := true, mmu := mmu, tenant := d.tenant, domain := s.fld (Reg.SEQ_DOMAIN d.tenant) Reg.SEQ_DOMAIN_DOMAIN,
      kvfmt := d.inl 6 1, model := bytesAt a 16 4, layers := d.inl 2 1, hkv := d.inl 3 1, dim := d.inl 4 2, lb := 0, len := 0,
      cap := if mmu then bytesAt a 20 4 else 4194304, dir := if mmu then bytesAt a 0 8 else 0, farOff := bytesAt a 8 8,
      pfxLast := 0xFFFF, pfxGen := 0, frames := 0 }
  { r with lb := r.sliceBytes }

/-- KV_SEQ OPEN (R529, R531, R536, R540, R581, R587, R596): the lowest-numbered free record, and in walker mode a directory. A SUB that
Table 10.8 does not list is refused here. -/
def execKvSeqOpen (ring : Fin 1024) (seq : Nat) (s : State) : Host.Outcome State Fault Refusal :=
  match s.kvOpReady ring seq 0x0318 with
  | none => .next s
  | some (d, s) =>
    if d.inl 0 1 = 1 ∨ d.inl 0 1 = 2 then .next s
    else
      let out := refAt (s.opRefs d 1) 0
      let r := s.openRec d
      let legal := d.inl 0 1 == 0 && out.outLegal && decide (d.inl 1 1 ≤ 1) && d.inl 7 1 == 0 && d.inlZero [10, 11] && decide (d.inl 6 1 < 32)
        && r.legal && (r.mmu || decide (r.pageBytes ≤ s.frameSize r.pool))
      .next (s.kvOperator d true 56 legal [] [(15, out.base, 4)] fun t =>
        let c := t.descClass d
        match t.freeRecord with
        | none => t.kvEnd d 4
        | some h =>
          let done := fun (u : State) (x : SeqRec) =>
            ((u.setSeqRec c h x).vaWrite d.loom0 d.tenant out.base (leBytes 4 h) c).kvDone d false
          if r.mmu then done t r
          else match t.newTable c d.tenant with
            | none => t.kvHalt d 2 0
            | some (f, u) => done u { r with dir := f })

/-- KV_SEQ CLOSE (R597). -/
def execKvSeqClose (ring : Fin 1024) (seq : Nat) (s : State) : Host.Outcome State Fault Refusal :=
  match s.kvOpReady ring seq 0x0318 with
  | none => .next s
  | some (d, s) =>
    if d.inl 0 1 ≠ 1 then .next s
    else .next (s.kvOperator d true 32 (s.seqOk d (d.inl 8 2) && d.inlZero [7, 10, 11]) [] [] fun t =>
      (t.freeSeq (t.descClass d) (d.inl 8 2)).kvDone d false)

/-- KV_SEQ TRUNCATE (R597): LEN, and every page wholly at or beyond it. -/
def execKvSeqTruncate (ring : Fin 1024) (seq : Nat) (s : State) : Host.Outcome State Fault Refusal :=
  match s.kvOpReady ring seq 0x0318 with
  | none => .next s
  | some (d, s) =>
    if d.inl 0 1 ≠ 2 then .next s
    else
      let h := d.inl 8 2
      let len := d.inl 12 4
      .next (s.kvOperator d true 32 (s.seqOk d h && d.inlZero [7, 10, 11]) [] [] fun t =>
        let r := t.seqRec h
        if r.cap < len then t.kvEnd d 3
        else
          let c := t.descClass d
          let gone := if r.mmu then [] else (t.seqPages r).filter fun x => decide (len ≤ 16 * x.1)
          let t1 := (gone.foldl (fun u x => u.freePage c h x.1 x.2) t).noteLastShared c h
          (t1.setSeqRec c h { t1.seqRec h with len := len }).kvDone d false)

/-! Quantisation (R537). -/

/-- A quotient's leading bits and a sticky bit: it rounds to any format as the exact quotient does. -/
def Num.quot : Num → Num → Num
  | .fin na ma ea, .fin nb mb eb =>
    if mb = 0 then (if ma = 0 then .nan else .inf (na != nb))
    else
      let n := ma * 2 ^ 96
      .fin (na != nb) (2 * (n / mb) + if n % mb = 0 then 0 else 1) (ea - eb - 97)
  | .nan, _ => .nan
  | _, .nan => .nan
  | .inf a, .inf _ => if a then .nan else .nan
  | .inf a, .fin nb _ _ => .inf (a != nb)
  | .fin na _ _, .inf b => .fin (na != b) 0 0

def fp16 : FloatFmt := ⟨5, 10, 15, true⟩

/-- A positive value rounded to FP16 towards plus infinity, as a code. -/
def ceil16 (x : Num) : Nat :=
  let c := fp16.encode true false x
  if (fp16.decode false c).lt x then c + 1 else c

/-- The magnitude of a value. -/
def Num.abs : Num → Num
  | .fin _ m e => .fin false m e
  | .inf _ => .inf false
  | .nan => .nan

/-- The greatest quantised magnitude of Q8 and Q4. -/
def quantMax (quant : Nat) : Nat := if quant = 1 then 127 else 7

/-- One block of 32 elements quantised: the codes and the scale's FP16 code. -/
def quantBlock (quant : Nat) (xs : List Num) : List Nat × Nat :=
  let q := quantMax quant
  let top := rowPick true (xs.map Num.abs)
  if top.isZero then (xs.map fun _ => 0, 0)
  else
    let sc := ceil16 ((top.quot (Num.ofInt q)).round32)
    let s := fp16.decode false sc
    let bits := if quant = 1 then 8 else 4
    (xs.map fun x => match (x.quot s).toInt false with
      | some i => (max (-(q : Int)) (min q i) % 2 ^ bits).toNat
      | none => Config.nonFiniteInt bits (x.quot s == .nan) % 2 ^ bits, sc)

/-- Blocks of 32 of a list. -/
def blocks32 {α : Type} (l : List α) : List (List α) := (List.range (l.length / 32)).map fun i => (l.drop (32 * i)).take 32

/-- One token's vector as a slice stores it: its data bytes and its scale bytes (R534, R535, R537). -/
def vectorBytes (p : Profile) (quant : Nat) (xs : List Num) : List Byte × List Byte :=
  if quant = 0 then (packCodes .fp16 (xs.map fun x => Elem.fp16.encode p.trunc p.sat p.ftz x), [])
  else
    let bs := (blocks32 xs).map (quantBlock quant)
    (packCodes (if quant = 1 then .int8 else .int4) (bs.flatMap fun b => b.1), bs.flatMap fun b => leBytes 2 b.2)

/-! Pages as the Shuttle writes and reads them. -/

/-- The place in a slice of a token's vector: its first element (Table 10.1). -/
def SeqRec.vectorAt (r : SeqRec) (kv head token : Nat) : Nat :=
  if r.latent then token * r.dim else ((kv * r.hkv + head) * 16 + token) * r.dim

/-- Write bytes of a page at an offset: at its frame, or in tenant memory (R531, R549). -/
def State.pageWrite (s : State) (d : Desc) (c : MemClass) (r : SeqRec) (p : Nat) (l : Leaf) (off : Nat) (b : List Byte) : State :=
  if r.mmu then s.vaWrite d.loom0 d.tenant (r.dir + p * r.pageBytes + off) b c
  else s.memWrite (s.frameAddr r.pool l.frame + off) b c d.loom0

/-- Mark the lines of a physical run as carrying bad data (R399). -/
def State.markPhys (s : State) (pa len : Nat) : State :=
  (List.range (len / 128 + 2)).foldl (fun t i =>
    let a := lineOf pa + 128 * i
    if pa + len ≤ a then t
    else match t.line? a with
      | some _ => t.poisonLine a
      | none => (t.setGranule (a / 4096)).onMem fun m => { m with bad := insertNat (lineOf a) m.bad }) s

/-- Mark the lines of bytes of a page. -/
def State.pageMark (s : State) (d : Desc) (r : SeqRec) (p : Nat) (l : Leaf) (off len : Nat) : State :=
  if r.mmu then s.markRun d.loom0 d.tenant (r.dir + p * r.pageBytes + off) len
  else s.markPhys (s.frameAddr r.pool l.frame + off) len

/-! KV_APPEND. -/

/-- A token's vector of an append's input: its values, and whether any is darned. -/
def State.appendVector (s : State) (d : Desc) (r : SeqRec) (k v : TRef) (kv head t : Nat) : List Num × Bool :=
  if r.latent then s.operandRow d k t 0 else s.operandRow d (if kv = 0 then k else v) head t

/-- Write one token of an append: every vector it has, and its scales. -/
def State.appendToken (s : State) (d : Desc) (c : MemClass) (r : SeqRec) (k v : TRef) (layer pos t : Nat) (l : Leaf) : State :=
  let p := pos / 16
  let vecs := if r.latent then [(0, 0)] else (List.range 2).flatMap fun kv => (List.range r.hkv).map fun h => (kv, h)
  vecs.foldl (fun u x =>
    let e := r.vectorAt x.1 x.2 (pos % 16)
    let src := s.appendVector d r k v x.1 x.2 t
    let b := vectorBytes d.profile r.quant src.1
    let off := layer * r.lb + e * r.elemBits / 8
    let soff := layer * r.lb + r.dataBytes + 2 * (e / 32)
    let u1 := (u.pageWrite d c r p l off b.1).pageWrite d c r p l soff b.2
    if src.2 then (u1.pageMark d r p l off b.1.length).pageMark d r p l soff b.2.length else u1) s

/-- Make a walker-mode page ready to take an append (R550): its leaf entry once it has a private frame that is written. -/
def State.readyPage (s : State) (c : MemClass) (h p : Nat) : KvGot × State :=
  match s.needLeaf c h p with
  | none => (.fault 2, s)
  | some s0 =>
    let r := s0.seqRec h
    let l := s0.leafAt r p
    let zeroed := fun (t : State) (x : Leaf) =>
      if x.unw then
        (t.walkerWrite c r.tenant (t.frameAddr r.pool x.frame) (List.replicate (t.frameSize r.pool) 0#8)).setLeaf c h p { x with unw := false }
      else t
    if l.state = 0 then
      match s0.allocFrame c h allocFuel with
      | (.got f, t) =>
        let x : Leaf := { Leaf.invalid with state := 1, unw := true, frame := f }
        (.got f, zeroed (t.setLeaf c h p x) x)
      | x => x
    else if l.state = 2 ∨ l.state = 3 then s0.startBack c h p
    else if l.shared then
      match s0.allocFrame c h allocFuel with
      | (.got f, t) =>
        let t1 := (t.walkerCharge r.tenant (t.frameSize r.pool / 128)).walkerWrite c r.tenant (t.frameAddr r.pool f)
          (t.memBytes (t.frameAddr r.pool l.frame) (t.frameSize r.pool))
        let t2 := ((t1.unrefPfx c l.pfx).setLeaf c h p { l with shared := false, pfx := 0, frame := f }).noteLastShared c h
        (.got f, t2.bump Reg.SEQ_COW_CNT)
      | x => x
    else (.got l.frame, zeroed s0 l)

/-- A wait for a page is counted once for each descriptor and page (R548). -/
def State.notePageWait (s : State) (d : Desc) (h p : Nat) : State :=
  if s.kv.waits.any fun w => w.ring == d.ring && w.seq == d.seq && w.handle == h && w.page == p then s
  else (s.bump Reg.SEQ_FAR_WAIT_CNT).onKv fun k => { k with waits := k.waits ++ [⟨d.ring, d.seq, h, p⟩] }

/-- The tokens of an append that fall into a page, as pairs of position and index. -/
def pageTokens (pos0 t p : Nat) : List (Nat × Nat) :=
  ((List.range t).map fun i => (pos0 + i, i)).filter fun x => x.1 / 16 == p

/-- Write the pages of an append in ascending order (R550); a wait or a fault leaves the rest for the next try. -/
def State.appendPages (d : Desc) (c : MemClass) (h : Nat) (k v : TRef) (layer pos0 t : Nat) : List Nat → State → KvGot × State
  | [], s => (.got 0, s)
  | p :: ps, s =>
    let toks := pageTokens pos0 t p
    let write := fun (u : State) (l : Leaf) => toks.foldl (fun u x => u.appendToken d c (u.seqRec h) k v layer x.1 x.2 l) u
    if (s.seqRec h).mmu then State.appendPages d c h k v layer pos0 t ps (write s Leaf.invalid)
    else match (s.kvWalk h p).readyPage c h p with
      | (.got _, u) =>
        let l := u.leafAt (u.seqRec h) p
        let top := (toks.map fun x => x.1 % 16 + 1).foldl max l.fill
        let u1 := (write u l).setLeaf c h p { l with fill := top, used := u.trd.now.frame }
        State.appendPages d c h k v layer pos0 t ps u1
      | (.wait, u) => (.wait, if (u.leafAt (u.seqRec h) p).state = 3 then u.notePageWait d h p else u)
      | (.fault x, u) => (.fault x, u)

/-- The pages positions touch. -/
def touchedPages (pos0 t : Nat) : List Nat := span (pos0 / 16) ((pos0 + t + 15) / 16)

/-- KV_APPEND (R537, R549 to R552, R587, Tables 10.4 and 10.8). -/
def execKvAppend (ring : Fin 1024) (seq : Nat) (s : State) : Host.Outcome State Fault Refusal :=
  match s.kvOpReady ring seq 0x0310 with
  | none => .next s
  | some (d, s) =>
    let refs := s.opRefs d 2
    let k := refAt refs 0
    let v := refAt refs 1
    let h := d.inl 0 2
    let r := s.seqRec h
    let layer := d.inl 2 1
    let pos0 := d.inl 4 4
    let t := d.inl 8 2
    let shape := fun (x : TRef) => x.legal false && x.dim0 == r.dim && (if r.latent then x.dim1 == t else x.dim1 == r.hkv && x.dim2 == t)
    let legal := s.seqOk d h && decide (layer < r.layers ∧ 1 ≤ t ∧ t ≤ 4096 ∧ d.inl 3 1 ≤ 1) && d.inlZero (span 10 16) && shape k
      && (r.latent || shape v)
    let outs := if r.mmu then (touchedPages pos0 t).map fun p => (15, r.dir + p * r.pageBytes + layer * r.lb, r.lb) else []
    .next (s.kvOperator d true 64 legal (k.runs 0 ++ if r.latent then [] else v.runs 1) (if r.cap < pos0 + t then [] else outs) fun u =>
      if r.cap < pos0 + t then u.kvEnd d 3
      else
        let c := u.descClass d
        match State.appendPages d c h k v layer pos0 t (touchedPages pos0 t) u with
        | (.wait, x) => x
        | (.fault cause, x) => x.kvHalt d cause (pos0 / 16 * r.pageBytes)
        | (.got _, x) =>
          let y := x.seqRec h
          let x1 := if (d.inl 3 1).testBit 0 then x.setSeqRec c h { y with len := max y.len (pos0 + t) } else x
          let darned := (k.rows ++ if r.latent then [] else v.rows).any fun z =>
            (s.operandRow d k z.1 z.2).2 || (!r.latent && (s.operandRow d v z.1 z.2).2)
          let elems := t * (if r.latent then r.dim else 2 * r.hkv * r.dim)
          (x1.kvSettled d).workDone d (fun _ => 16 + ceilDiv elems 32) darned)

/-! Prefix sharing. -/

/-- The tokens of a page of a token list, as their 64 bytes; none when fewer than 16 remain. -/
def State.pageTokenBytes (s : State) (d : Desc) (r : TRef) (p : Nat) : Option (List Byte) :=
  if 16 * p + 16 ≤ r.dim0 then some (s.vaBytes d.loom0 d.tenant (r.base + 64 * p) 64) else none

/-- Look up the pages of a token list from one page on (R574): a match shares the entry's page. `fuel` bounds the pages. -/
def State.lookupPages (d : Desc) (c : MemClass) (h : Nat) (toks : TRef) : Nat → Nat → Option Nat → State → KvGot × State
  | 0, p, _, s => (.got p, s)
  | fuel + 1, p, parent, s =>
    match s.pageTokenBytes d toks p with
    | none => (.got p, s)
    | some b => match s.pfxFind (s.pfxWanted (s.seqRec h) parent b) with
      | none => (.got p, s)
      | some e => match s.needLeaf c h p with
        | none => (.fault 2, s)
        | some s1 =>
          let old := s1.leafAt (s1.seqRec h) p
          let s2 := if old.state = 0 then s1 else s1.freePage c h p old
          let x := s2.pfx e
          let l : Leaf := { Leaf.invalid with state := 1, shared := true, fill := 16, frame := x.frame, pfx := e }
          let s3 := (((s2.setLeaf c h p l).refPfx c e).noteLastShared c h).bump Reg.SEQ_PFX_HIT_CNT
          State.lookupPages d c h toks fuel (p + 1) (some e) s3

/-- KV_PFX_LOOKUP (R530, R571 to R574, R579, R587). -/
def execKvPfxLookup (ring : Fin 1024) (seq : Nat) (s : State) : Host.Outcome State Fault Refusal :=
  match s.kvOpReady ring seq 0x0320 with
  | none => .next s
  | some (d, s) =>
    let refs := s.opRefs d 2
    let toks := refAt refs 0
    let out := refAt refs 1
    let h := d.inl 0 2
    let r := s.seqRec h
    let legal := s.seqOk d h && !r.mmu && r.len == 0 && toks.legal false && toks.elem == .int32 && out.outLegal
      && d.inlZero ([2, 3] ++ span 8 16)
    .next (s.kvOperator d true 64 legal (toks.runs 0) [(15, out.base, 4)] fun t =>
      let c := t.descClass d
      match State.lookupPages d c h toks (toks.dim0 / 16 + 1) 0 none t with
      | (.got n, u) =>
        let u1 := u.setSeqRec c h { u.seqRec h with len := 16 * n }
        (u1.vaWrite d.loom0 d.tenant out.base (leBytes 4 n) c).kvDone d (t.vaPoison d.loom0 d.tenant toks.base toks.rowLen)
      | (.fault cause, u) => u.kvHalt d cause 0
      | (.wait, u) => u)

/-- A way of a set for a new entry: the lowest FREE one, else the lowest with REFS 0 (R575). -/
def State.pfxWay (s : State) (hash : Nat) : Option Nat :=
  match (pfxWays hash).find? fun e => !(s.pfx e).resident with
  | some e => some e
  | none => (pfxWays hash).find? fun e => (s.pfx e).refs == 0

/-- The parent of a page: none for page 0, else the entry its parent page shares. -/
def State.pageParent (s : State) (h p : Nat) : Option (Option Nat) :=
  if p = 0 then some none
  else
    let l := s.leafAt (s.seqRec h) (p - 1)
    if l.state = 1 ∧ l.shared = true then some (some l.pfx) else none

/-- Share one page (R575): it takes a matching entry's frame, or becomes an entry; none where its set is full. -/
def State.sharePage (s : State) (c : MemClass) (h p : Nat) (l : Leaf) (w : PfxEntry) : Option State :=
  let r := s.seqRec h
  match s.pfxFind w with
  | some e =>
    let x := s.pfx e
    let s1 := (s.giveFrame r.pool l.frame).loseFrame c h
    some ((((s1.setLeaf c h p { l with shared := true, frame := x.frame, pfx := e }).refPfx c e).bump Reg.SEQ_PFX_HIT_CNT).noteLastShared c h)
  | none => (s.pfxWay w.hash).map fun e =>
    let s1 := if (s.pfx e).resident then s.freePfx c e else s
    let s2 := s1.setPfx c e { w with gen := (s1.pfx e).gen, refs := 1, pool := r.pool, frame := l.frame }
    let s3 := s2.setFld Reg.SEQ_PFX_USED Reg.SEQ_PFX_USED_COUNT (s2.fld Reg.SEQ_PFX_USED Reg.SEQ_PFX_USED_COUNT + 1)
    ((s3.loseFrame c h).setLeaf c h p { l with shared := true, pfx := e }).noteLastShared c h

/-- Insert the pages of a token list from one page on (R575, R576); a page already shared stays as it is. -/
def State.insertPages (d : Desc) (c : MemClass) (h : Nat) (toks : TRef) : Nat → Nat → State → State
  | 0, _, s => s
  | fuel + 1, p, s =>
    let l := s.leafAt (s.seqRec h) p
    match s.pageTokenBytes d toks p, s.pageParent h p with
    | some b, some parent =>
      if l.state ≠ 1 ∨ l.fill ≠ 16 then s
      else if l.shared then State.insertPages d c h toks fuel (p + 1) s
      else match s.sharePage c h p l (s.pfxWanted (s.seqRec h) parent b) with
        | some s1 => State.insertPages d c h toks fuel (p + 1) s1
        | none => s.bump Reg.SEQ_PFX_FULL_CNT
    | _, _ => s

/-- KV_PFX_INSERT (R530, R571 to R573, R575 to R577, R579, R587). -/
def execKvPfxInsert (ring : Fin 1024) (seq : Nat) (s : State) : Host.Outcome State Fault Refusal :=
  match s.kvOpReady ring seq 0x0321 with
  | none => .next s
  | some (d, s) =>
    let toks := refAt (s.opRefs d 1) 0
    let h := d.inl 0 2
    let legal := s.seqOk d h && !(s.seqRec h).mmu && toks.legal false && toks.elem == .int32 && d.inlZero ([2, 3] ++ span 8 16)
    .next (s.kvOperator d true 32 legal (toks.runs 0) [] fun t =>
      (State.insertPages d (t.descClass d) h toks (toks.dim0 / 16 + 1) (d.inl 4 4) t).kvDone d
        (t.vaPoison d.loom0 d.tenant toks.base toks.rowLen))

/-! KV_PREFETCH. -/

/-- Walk some pages and start the bring-back of those that are FAR; the first fault stops. -/
def State.prefetchPages (c : MemClass) (h : Nat) : List Nat → State → KvGot × State
  | [], s => (.got 0, s)
  | p :: ps, s =>
    let s1 := s.kvWalk h p
    let st := (s1.leafAt (s1.seqRec h) p).state
    if st = 0 ∨ st = 1 then State.prefetchPages c h ps s1
    else match s1.startBack c h p with
      | (.fault x, t) => (.fault x, t)
      | (_, t) =>
        let rest := State.prefetchPages c h ps t
        (match rest.1 with
          | .fault x => .fault x
          | _ => .wait, rest.2)

/-- KV_PREFETCH (R530, R587, R598): it completes when every page named is RESIDENT or INVALID. -/
def execKvPrefetch (ring : Fin 1024) (seq : Nat) (s : State) : Host.Outcome State Fault Refusal :=
  match s.kvOpReady ring seq 0x0328 with
  | none => .next s
  | some (d, s) =>
    let h := d.inl 0 2
    let first := d.inl 4 4
    let n := d.inl 8 2
    .next (s.kvOperator d true 0 (s.seqOk d h && d.inlZero ([2, 3] ++ span 10 16)) [] [] fun t =>
      let r := t.seqRec h
      if 0 < n ∧ r.cap ≤ 16 * (first + n - 1) then t.kvEnd d 3
      else if r.mmu then t.kvDone d false
      else match State.prefetchPages (t.descClass d) h ((List.range n).map fun i => first + i) t with
        | (.got _, u) => u.kvDone d false
        | (.wait, u) => u
        | (.fault cause, u) => u.kvHalt d cause (first * r.pageBytes))

/-! The walker. -/

/-- A walk waits for its tenant's bucket: it misses and the bucket holds neither its three lines nor all it ever can (R374). -/
def State.walkWaits (s : State) (h p : Nat) : Bool :=
  let b := Bucket.tenant (s.seqRec h).tenant
  (s.kvHit h p).isNone && s.bucketRate b != 0 && decide (s.bucketLevel b < min 384 (s.bucketCap b))

/-- The CCLK a walk takes: 2 on a hit, else a read of the sequence record, of the directory entry and of the leaf entry, each as a read of a page-table
level (R543, log 145). -/
def State.kvWalkCclk (s : State) (h p : Nat) : Nat :=
  if (s.kvHit h p).isSome then 2
  else
    let r := s.seqRec h
    (([s.seqAddr h, s.frameAddr 4 r.dir + 8 * (p / 512 % 512)] ++ (s.leafAddr r p).toList).map s.readCclk).sum

/-- KV_WALK: a walk for a page of a sequence ends and its leaf entry is in the KV-TLB (R374, R541, R543, R544). -/
def execKvWalk (handle : Fin 16384) (page : Nat) (s : State) : Host.Outcome State Fault Refusal :=
  if s.kvInit = true ∨ s.kvOn = false ∨ (s.seqRec handle).valid = false ∨ (s.seqRec handle).mmu = true ∨ s.walkWaits handle page then .next s
  else .next ((s.nextFree.2.elapseTo (s.trd.cclk + s.kvWalkCclk handle page)).kvWalk handle page)

/-- The move of a page in one direction. -/
def State.moveOf (s : State) (h p : Nat) (out : Bool) : Option KvMove :=
  s.kv.moves.find? fun m => m.handle == h && m.page == p && m.out == out

/-- A page's move has ended. -/
def State.endMove (s : State) (m : KvMove) : State :=
  s.onKv fun k => { k with moves := k.moves.filter fun x => !(x.handle == m.handle && x.page == m.page) }

/-- SPILL: the page's bytes have gone to the far tier (R545, R584), or a far-tier error leaves it RESIDENT (R586). -/
def execSpill (handle : Fin 16384) (page : Nat) (ok : Bool) (s : State) : Host.Outcome State Fault Refusal :=
  match s.moveOf handle page true with
  | none => .next s
  | some m =>
    let l := s.leafAt (s.seqRec handle) page
    if !ok || m.failed then .next ((s.endMove m).setLeaf .bulk handle page { l with state := 1 })
    else if m.left ≠ 0 then .next s
    else .next (((((s.endMove m).setLeaf .bulk handle page { l with state := 2 }).giveFrame m.pool m.frame).loseFrame .bulk handle).bump
      Reg.SEQ_SPILL_CNT)

/-- End every descriptor that waits for a page (R586, Table 7.3). -/
def State.endWaiters (s : State) (h p off : Nat) : State :=
  (s.kv.waits.filter fun w => w.handle == h && w.page == p).foldl (fun t w => match t.desc? w.ring w.seq with
    | some d => t.endAtOnce d 0x12 2 0 off
    | none => t) s

/-- BRING_BACK: the page's bytes have come from the far tier (R545, R585), or a far-tier error leaves it FAR and ends who waits (R586). -/
def execBringBack (handle : Fin 16384) (page : Nat) (s : State) : Host.Outcome State Fault Refusal :=
  match s.moveOf handle page false with
  | none => .next s
  | some m =>
    let r := s.seqRec handle
    let l := s.leafAt r page
    let clear := fun (t : State) => t.onKv fun k => { k with waits := k.waits.filter fun w => !(w.handle == handle.val && w.page == page) }
    if m.failed then
      let s1 := (((s.endMove m).setLeaf .bulk handle page { l with state := 2 }).giveFrame m.pool m.frame).loseFrame .bulk handle
      .next (clear (s1.endWaiters handle page (r.farOff + page * s.frameSize m.pool)))
    else if m.left ≠ 0 then .next s
    else .next (clear (((s.endMove m).setLeaf .bulk handle page { l with state := 1, unw := false }).bump Reg.SEQ_BACK_CNT))

/-! Enable, stop, initialisation. -/

/-- An initialisation starts (R590). -/
def State.startKvInit (s : State) (stop : Bool) : State :=
  (s.onKv fun k => { k with init := some stop }).setFld Reg.SEQ_STATUS Reg.SEQ_STATUS_INIT 1

/-- A descriptor names a sequence handle or uses the prefix table (R591). -/
def Desc.usesKv (d : Desc) : Bool :=
  !d.coll && (d.opcode == 0x0310 || d.opcode == 0x0318 || d.opcode == 0x0320 || d.opcode == 0x0321 || d.opcode == 0x0328
    || (d.opcode == 0x0300 && !(d.inl 3 1).testBit 1))

/-- The engine stops (R591): in the CCLK after the landing every descriptor that uses it ends. -/
def State.stopKv (s : State) : State :=
  let s1 := (s.setFld Reg.SEQ_CFG Reg.SEQ_CFG_EN 0).startKvInit true
  let s2 := s1.tick
  (s2.ten.descs.filter fun d => d.usesKv).foldl (fun t d => match t.desc? d.ring d.seq with
    | some e => t.stopAtTile e .kv
    | none => t) s2

/-- A write of SEQ_CFG lands (R590, R591): one that sets EN while INIT reads 1 leaves EN as it is. -/
def State.landSeqCfg (s : State) (data : Word) : State :=
  let en := Reg.SEQ_CFG_EN.get data
  let kept := Reg.SEQ_CFG_EN.put data (s.fld Reg.SEQ_CFG Reg.SEQ_CFG_EN)
  let s1 := s.plainWrite Reg.SEQ_CFG kept
  if s.kvOn then (if en = 0 then s1.stopKv else s1)
  else if en = 1 ∧ s.kvInit = false then (s1.setFld Reg.SEQ_CFG Reg.SEQ_CFG_EN 1).startKvInit false
  else s1

/-- SEQ_ENABLE: a SEQ_CFG write that sets EN. -/
def execSeqEnable (data : Word) (s : State) : Host.Outcome State Fault Refusal := .next (s.landSeqCfg (Reg.SEQ_CFG_EN.put data 1))

/-- SEQ_DISABLE: a SEQ_CFG write that clears EN. -/
def execSeqDisable (data : Word) (s : State) : Host.Outcome State Fault Refusal := .next (s.landSeqCfg (Reg.SEQ_CFG_EN.put data 0))

/-- Invalidate every sequence record, and free every prefix entry; an initialisation sets each GEN to 0 (R590, R591). -/
def State.clearTables (s : State) (stop : Bool) : State :=
  let s1 := (List.range 16384).foldl (fun t h => t.memWrite (t.seqAddr h) [BitVec.ofNat 8 ((t.memByte (t.seqAddr h)).toNat / 2 * 2)] .bulk kvWalker) s
  (List.range 4096).foldl (fun t e =>
    let t1 := t.memWrite (t.pfxAddr e + 0x10) [0#8] .bulk kvWalker
    if stop then t1 else t1.memWrite (t.pfxAddr e + 0xC) [0#8, 0#8] .bulk kvWalker) s1

/-- SEQ_INIT_DONE: the initialisation, or the invalidation of a stop once no page moves, is complete (R590, R591). The tables in memory are
the configured engine's; after a reset, until the commit has configured it, there are none. -/
def execSeqInitDone (s : State) : Host.Outcome State Fault Refusal :=
  match s.kv.init with
  | none => .next s
  | some stop =>
    if stop = true ∧ s.kv.moves ≠ [] then .next s
    else
      let s1 := if stop || s.kvOn then s.clearTables stop else s
      let s2 := s1.onKv fun k => { k with tlb := [], used := [], moves := [], waits := [], init := none }
      let s3 := (List.range 4).foldl (fun t p => t.setFld (Reg.SEQ_POOL_FREE p) Reg.SEQ_POOL_FREE_FREE (t.poolFrames p)) s2
      let s4 := (List.range 256).foldl (fun t n => t.setFld (Reg.SEQ_TEN_FRAMES n) Reg.SEQ_TEN_FRAMES_FRAMES 0) s3
      .next ((s4.setFld Reg.SEQ_PFX_USED Reg.SEQ_PFX_USED_COUNT 0).setFld Reg.SEQ_STATUS Reg.SEQ_STATUS_INIT 0)

/-- A write of SEQ_KVTLB_INV lands (R601, Table 10.13): GO empties all entries, or those of one handle. -/
def State.landKvtlbInv (s : State) (data : Word) : State :=
  if Reg.SEQ_KVTLB_INV_GO.get data = 0 then s
  else
    let h := Reg.SEQ_KVTLB_INV_HANDLE.get data
    s.onKv fun k => { k with tlb := if Reg.SEQ_KVTLB_INV_SCOPE.get data = 0 then [] else k.tlb.filter fun e => e.handle != h }

/-- SEQ_KVTLB_INV. -/
def execSeqKvtlbInv (data : Word) (s : State) : Host.Outcome State Fault Refusal := .next (s.landKvtlbInv data)

/-- A drain frees a tenant's sequences, and then the prefix entries that no tenant's domain keeps (R589). -/
def State.drainSeqs (s : State) (n : Nat) : State :=
  if s.kvOn = false ∨ s.kvInit = true then s
  else
    let own := (List.range 16384).filter fun h => (s.seqRec h).valid && (s.seqRec h).tenant == n
    let s1 := own.foldl (fun t h => t.freeSeq .bulk h) s
    let kept := fun (dom : Nat) => (List.range 256).any fun t => t != n && s.tenEn t && s.fld (Reg.SEQ_DOMAIN t) Reg.SEQ_DOMAIN_DOMAIN == dom
    (List.range 4096).foldl (fun t e =>
      if (t.pfx e).resident && (t.pfx e).refs == 0 && !kept (t.pfx e).domain then t.freePfx .bulk e else t) s1

end Sys2Proof.Machine
end

