-- ==== Sys2Proof/Machine/Attention.lean ====
section
/-! DEFINITION. Attention: ATTN with its masks, batches, storage and statistics (R538, R539, R546 to R548, R554 to R567, R592 to
R595, R599), the merge of split decode (R564 to R567), and the backward pass (R568 to R570). -/

namespace Sys2Proof.Machine

/-- One batch entry (R594). -/
structure AttnEntry where
  handle : Nat
  nq     : Nat
  nkv    : Nat
  qpos   : Nat
  zero   : Bool
  deriving DecidableEq, Repr

/-- An attention problem: its references, parameters and INLINE fields (R592 to R595). -/
structure Attn where
  q       : TRef
  k       : TRef
  v       : TRef
  o       : TRef
  stats   : TRef
  sbuf    : TRef
  uk      : TRef
  uv      : TRef
  scale   : Num
  layer   : Nat
  causal  : Bool
  dense   : Bool
  split   : Bool
  wantSt  : Bool
  head0   : Nat
  nh      : Nat
  g       : Nat
  entries : List AttnEntry
  looms   : Nat
  deriving DecidableEq, Repr

/-- The entries of a problem: the batch, or the descriptor's own fields when NB is 0 (R562, R593 to R595). -/
def State.attnEntries (s : State) (d : Desc) (nb base nq : Nat) : List AttnEntry :=
  if nb = 0 then [{ handle := d.inl 0 2, nq := nq, nkv := d.inl 4 4, qpos := d.inl 8 4, zero := true }]
  else (List.range nb).map fun b =>
    let e := s.vaBytes d.loom0 d.tenant (base + 16 * b) 16
    { handle := bytesAt e 0 2, nq := bytesAt e 2 2, nkv := bytesAt e 4 4, qpos := bytesAt e 8 4, zero := bytesAt e 12 4 == 0 }

/-- The problem of an ATTN descriptor. -/
def State.attn (s : State) (d : Desc) : Attn :=
  let refs := s.opRefs d 9
  let a := s.vaBytes d.loom0 d.tenant (d.argPtr + 288) 32
  let fl := d.inl 3 1
  { q := refAt refs 0, o := refAt refs 1, stats := refAt refs 2, sbuf := refAt refs 3, uk := refAt refs 4, uv := refAt refs 5,
    k := refAt refs 6, v := refAt refs 7, scale := num32 (bytesAt a 0 4), layer := d.inl 2 1, causal := fl.testBit 0, dense := fl.testBit 1,
    split := fl.testBit 2, wantSt := fl.testBit 3, head0 := d.inl 12 1, nh := d.inl 13 1, g := orElse0 (d.inl 14 1) 1,
    entries := s.attnEntries d (bytesAt a 4 2) (refAt refs 8).base (refAt refs 0).dim1, looms := d.work.length }

def Attn.nq (a : Attn) : Nat := (a.entries.map fun e => e.nq).foldl max 0
def Attn.nkv (a : Attn) : Nat := (a.entries.map fun e => e.nkv).foldl max 0
def Attn.hd (a : Attn) : Nat := a.q.dim0

/-- Key blocks of the padded key axis (R555, R562). -/
def Attn.blocks (a : Attn) : Nat := ceilDiv a.nkv 64

/-- The KV head of a query head of the descriptor, counted in the layer. -/
def Attn.kvHead (a : Attn) (hl : Nat) : Nat := (a.head0 + hl) / a.g

/-- Query rows of one tile: up to 256 rows of query rows times G (R556). -/
def Attn.tileQ (a : Attn) : Nat := max 1 (256 / a.g)

/-- The tiles of the padded query axis, as their first row and count. -/
def Attn.tiles (a : Attn) : List (Nat × Nat) :=
  (List.range (ceilDiv a.nq a.tileQ)).map fun t => (t * a.tileQ, min a.tileQ (a.nq - t * a.tileQ))

/-- The entry of an index. -/
def Attn.entry (a : Attn) (b : Nat) : AttnEntry := a.entries.getD b ⟨0, 0, 0, 0, true⟩

/-- A key position takes part for a query row (R554, R557, R563). -/
def Attn.takes (a : Attn) (b i kp : Nat) : Bool :=
  let e := a.entry b
  decide (i < e.nq ∧ kp < e.nkv) && (!a.causal || decide (kp ≤ e.qpos + i))

/-- A block is not skipped for a tile: some position takes part for some row (R555). -/
def Attn.blockUsed (a : Attn) (b : Nat) (t : Nat × Nat) (j : Nat) : Bool :=
  (List.range t.2).any fun i => (List.range 64).any fun x => a.takes b (t.1 + i) (64 * j + x)

/-- Blocks some tile of an entry uses. -/
def Attn.usedBlocks (a : Attn) (b : Nat) : List Nat :=
  (List.range a.blocks).filter fun j => a.tiles.any fun t => a.blockUsed b t j

/-- Units: a KV head of a batch entry (R561). -/
def Attn.units (a : Attn) : List (Nat × Nat) :=
  (List.range a.entries.length).flatMap fun b => (List.range (a.nh / a.g)).map fun u => (b, u)

/-- Blocks skipped in all (R555). -/
def Attn.skipped (a : Attn) : Nat :=
  (a.units.map fun u => (a.tiles.map fun t => ((List.range a.blocks).filter fun j => !a.blockUsed u.1 t j).length).sum).sum

/-- The first and one past the last key block of a rank under SPLIT_KV (R564). -/
def Attn.rankBlocks (a : Attn) (r : Nat) : Nat × Nat :=
  let c := ceilDiv a.blocks a.looms
  (min a.blocks (r * c), min a.blocks ((r + 1) * c))

/-- The ranks with a block. -/
def Attn.ranks (a : Attn) : List Nat := (List.range a.looms).filter fun r => decide ((a.rankBlocks r).1 < (a.rankBlocks r).2)

/-! Score buffers (R558, R565, R567). -/

/-- Rows of the largest tile. -/
def Attn.tileRows (a : Attn) : Nat := min a.nq a.tileQ * a.g

/-- The scratchpad a query tile takes: the larger of the score tile's and the output tile's footprint. -/
def Attn.footprint (a : Attn) : Nat :=
  max (tileFootprint a.q.elem a.q.elem .fp32 a.tileRows 64 a.hd) (tileFootprint a.q.elem a.q.elem a.o.elem a.tileRows a.hd 64)

/-- The padded scores of a tile in bytes. -/
def Attn.scoreBytes (a : Attn) : Nat := a.tileRows * 64 * a.blocks * 4

/-- The scores lie in the scratchpad. -/
def Attn.scoresFit (a : Attn) (l1q : Nat) : Bool := decide (a.scoreBytes + a.footprint ≤ scratchBytes l1q)

/-- A rank's partials in bytes (R567). -/
def Attn.partialBytes (a : Attn) : Nat := a.entries.length * a.nh * a.nq * (a.hd + 2) * 4

/-- The bytes of the SBUF reference. -/
def TRef.room (r : TRef) : Nat := if r.base = 0 then 0 else r.rowLen * r.dim1 * r.dim2

/-- What the descriptor needs of SBUF. -/
def Attn.sbufNeed (a : Attn) (l1q : Nat) : Nat :=
  if a.split then a.looms * a.partialBytes else if a.scoresFit l1q then 0 else a.looms * a.scoreBytes

/-! Stored keys and values. -/

/-- The leaf entry of a page, or none of a sequence that keeps no page table. -/
def State.pageLeaf (s : State) (r : SeqRec) (p : Nat) : Leaf := if r.mmu then Leaf.invalid else s.leafAt r p

/-- A page delivers zeros (R546). -/
def SeqRec.zeroPage (r : SeqRec) (l : Leaf) : Bool := !r.mmu && (l.state == 0 || l.unw)

/-- Bytes of a page. -/
def State.pageBytesAt (s : State) (d : Desc) (r : SeqRec) (p : Nat) (l : Leaf) (off n : Nat) : List Byte :=
  if r.mmu then s.vaBytes d.loom0 d.tenant (r.dir + p * r.pageBytes + off) n
  else if r.zeroPage l then List.replicate n 0#8
  else s.memBytes (s.frameAddr r.pool l.frame + off) n

/-- An element of a slice as its value in FP32 (R538). -/
def State.kvElement (s : State) (d : Desc) (r : SeqRec) (p layer e : Nat) : Num :=
  let l := s.pageLeaf r p
  let base := layer * r.lb
  if r.quant = 0 then fp16.decode false (leNat (s.pageBytesAt d r p l (base + 2 * e) 2))
  else
    let byte := leNat (s.pageBytesAt d r p l (base + e * r.elemBits / 8) 1)
    let q := if r.quant = 1 then signedOf 8 byte else signedOf 4 (byte / 2 ^ (4 * (e % 2)))
    let sc := fp16.decode false (leNat (s.pageBytesAt d r p l (base + r.dataBytes + 2 * (e / 32)) 2))
    ((Num.ofInt q).mul sc).round32

/-- A value's code in the format of Q, rounded to nearest even (R538). -/
def Attn.narrow (a : Attn) (x : Num) : Nat := a.q.elem.encode false false false x

/-- A stored vector of a position as codes in Q's format. -/
def State.kvVector (s : State) (d : Desc) (a : Attn) (r : SeqRec) (kv head kp : Nat) : List Nat :=
  (List.range r.dim).map fun i => a.narrow (s.kvElement d r (kp / 16) a.layer (r.vectorAt kv head (kp % 16) + i))

/-- A sum on the MX engines over a K axis of codes in Q's format, for column block `nb`, added to an accumulator (R250 to R252). -/
def Attn.mx (a : Attn) (d : Desc) (nb : Nat) (l : List (Nat × Nat)) (acc : Num) : Num :=
  mxSum a.q.elem a.q.elem d.profile.ftz 4 nb l acc

/-- A row of K (0) or V (1) of a KV head at a key position, as codes in Q's format: dense, direct, or a latent row times an up-projection
(R539). -/
def State.attnKv (s : State) (d : Desc) (a : Attn) (kv b head kp : Nat) : List Nat :=
  if a.dense then
    let r := if kv = 0 then a.k else a.v
    let heads := r.dim2 / a.entries.length
    (List.range a.hd).map fun i => s.elemAt d.loom0 d.tenant r i kp (b * heads + head)
  else
    let r := s.seqRec (a.entry b).handle
    if !r.latent then s.kvVector d a r kv head kp
    else
      let row := s.kvVector d a r 0 0 kp
      let u := if kv = 0 then a.uk else a.uv
      (List.range a.hd).map fun i =>
        a.narrow (a.mx d (i / 4) (row.zip ((List.range r.dim).map fun x => s.elemAt d.loom0 d.tenant u i x head)) (.fin false 0 0))

/-- The tile of a query row. -/
def Attn.tileOf (a : Attn) (i : Nat) : Nat × Nat := (a.tiles.find? fun t => decide (t.1 ≤ i ∧ i < t.1 + t.2)).getD (0, 0)

/-- The key blocks that are not skipped for the tile of a query row (R555). -/
def Attn.tileBlocks (a : Attn) (b i : Nat) : List Nat := (List.range a.blocks).filter fun j => a.blockUsed b (a.tileOf i) j

/-! Darned inputs (R397, R398). -/

/-- Bytes of a page are delivered darned. -/
def State.pageDarn (s : State) (d : Desc) (r : SeqRec) (p : Nat) (l : Leaf) (off n : Nat) : Bool :=
  if r.mmu then s.vaPoison d.loom0 d.tenant (r.dir + p * r.pageBytes + off) n
  else if r.zeroPage l then false
  else
    let pa := s.frameAddr r.pool l.frame + off
    decide (0 < n) && (List.range (n / 128 + 2)).any fun i => decide (lineOf pa + 128 * i < pa + n) && s.memPoison (lineOf pa + 128 * i)

/-- A stored vector of a position is delivered darned: its data bytes, or its scales. -/
def State.vectorDarn (s : State) (d : Desc) (a : Attn) (r : SeqRec) (kv head kp : Nat) : Bool :=
  let p := kp / 16
  let l := s.pageLeaf r p
  let e := r.vectorAt kv head (kp % 16)
  s.pageDarn d r p l (a.layer * r.lb + e * r.elemBits / 8) (r.dim * r.elemBits / 8)
    || (r.quant != 0 && s.pageDarn d r p l (a.layer * r.lb + r.dataBytes + 2 * (e / 32)) (2 * (r.dim / 32)))

/-- Element `x` of a row of K (0) or V (1) is darned; of a latent row's expansion the accumulator block is, of four positions and four columns of
the up-projection. -/
def State.kvDarn (s : State) (d : Desc) (a : Attn) (kv b head kp x : Nat) : Bool :=
  if a.dense then
    let r := if kv = 0 then a.k else a.v
    s.elemDarn d.loom0 d.tenant r x kp (b * (r.dim2 / a.entries.length) + head)
  else
    let r := s.seqRec (a.entry b).handle
    if !r.latent then s.vectorDarn d a r kv head kp
    else
      let u := if kv = 0 then a.uk else a.uv
      ((span (kp / 4 * 4) (min (a.entry b).nkv (kp / 4 * 4 + 4))).any fun q => s.vectorDarn d a r 0 0 q)
        || (span (x / 4 * 4) (min a.hd (x / 4 * 4 + 4))).any fun c => (List.range r.dim).any fun y => s.elemDarn d.loom0 d.tenant u c y head

/-- The row of a query head in its tile, and the rows, as head and query row, of its accumulator row block. DESIGN CHOICE (log 147): a tile's rows
are the query rows of one head after those of another. -/
def Attn.rowBlock (a : Attn) (hl i : Nat) : List (Nat × Nat) :=
  let t := a.tileOf i
  let h0 := hl / a.g * a.g
  let m := ((hl - h0) * t.2 + (i - t.1)) / 4 * 4
  (span m (min (a.g * t.2) (m + 4))).map fun y => (h0 + y / max 1 t.2, t.1 + y % max 1 t.2)

/-- A row's probabilities come from a darned sector: of Q in its row block, or of K in some key blocks. -/
def State.rowDarn (s : State) (d : Desc) (a : Attn) (b hl i : Nat) (blocks : List Nat) : Bool :=
  let xs := List.range a.hd
  ((a.rowBlock hl i).any fun y => xs.any fun x => s.elemDarn d.loom0 d.tenant a.q x y.2 (b * a.nh + y.1))
    || blocks.any fun j => (span (64 * j) (min (a.entry b).nkv (64 * j + 64))).any fun kp =>
        xs.any fun x => s.kvDarn d a 0 b (a.kvHead hl) kp x

/-- V has a darned sector in a column's block and some key blocks. -/
def State.valueDarn (s : State) (d : Desc) (a : Attn) (b hl : Nat) (blocks : List Nat) (x : Nat) : Bool :=
  blocks.any fun j => (span (64 * j) (min (a.entry b).nkv (64 * j + 64))).any fun kp =>
    (span (x / 4 * 4) (min a.hd (x / 4 * 4 + 4))).any fun c => s.kvDarn d a 1 b (a.kvHead hl) kp c

/-! The computation. -/

/-- The scaled score of a query row and a key position (R556). -/
def State.attnScore (s : State) (d : Desc) (a : Attn) (b hl i kp : Nat) : Num :=
  let q := (List.range a.hd).map fun x => s.elemAt d.loom0 d.tenant a.q x i (b * a.nh + hl)
  mul32 (a.mx d (kp % 64 / 4) (q.zip (s.attnKv d a 0 b (a.kvHead hl) kp)) (.fin false 0 0)) a.scale

/-- A row's maximum and sum, and its exponentials by key position (R556, R557). -/
structure RowStat where
  m  : Num
  l  : Num
  ps : List (Nat × Num)
  deriving DecidableEq, Repr

/-- The statistics of scores by key position. -/
def rowStat (scores : List (Nat × Num)) : RowStat :=
  match scores with
  | [] => { m := .inf true, l := .fin false 0 0, ps := [] }
  | x :: xs =>
    let m := xs.foldl (fun acc y => acc.pick true y.2) x.2
    let ps := scores.map fun y => (y.1, num32 (Config.exp32 (add32 y.2 m.negate).code32))
    { m := m, l := ps.foldl (fun acc y => add32 acc y.2) (.fin false 0 0), ps := ps }

/-- The key positions of some blocks. -/
def blockKeys (j0 j1 : Nat) : List Nat := span (64 * j0) (64 * j1)

/-- A row's statistics over the key blocks from `j0` to below `j1`. -/
def State.attnRow (s : State) (d : Desc) (a : Attn) (b hl i j0 j1 : Nat) : RowStat :=
  rowStat (((blockKeys j0 j1).filter fun kp => a.takes b i kp).map fun kp => (kp, s.attnScore d a b hl i kp))

/-- One element of O: P, in Q's format, times V over the blocks that are not skipped, in turn; zero for a row without a key (R556, R557). -/
def State.attnOut (s : State) (d : Desc) (a : Attn) (b hl i x : Nat) : Nat :=
  let st := s.attnRow d a b hl i 0 a.blocks
  if st.ps.isEmpty then a.o.code d.profile (.fin false 0 0)
  else
    let p := fun (kp : Nat) => match st.ps.find? fun y => y.1 == kp with
      | some y => a.narrow (y.2.quot st.l)
      | none => 0
    let v := fun (kp : Nat) => if kp < (a.entry b).nkv then (s.attnKv d a 1 b (a.kvHead hl) kp).getD x 0 else 0
    a.o.code d.profile ((a.tileBlocks b i).foldl (fun acc j => a.mx d (x / 4) ((blockKeys j (j + 1)).map fun kp => (p kp, v kp)) acc) (.fin false 0 0))

/-- The rows of O and STATS: entry, head, row. -/
def Attn.rows (a : Attn) : List (Nat × Nat × Nat) :=
  (List.range a.entries.length).flatMap fun b => (List.range a.nh).flatMap fun hl => (List.range a.nq).map fun i => (b, hl, i)

/-- A sum of products in FP32, 0 of none: the exact one where every order of additions gives it, else a free value (the spec states no order). -/
def sum32 (l : List (Num × Num)) : Num :=
  if l.isEmpty then .fin false 0 0
  else (Num.exactSum (l.map fun x => x.1.mul x.2)).getD (num32 (Config.fpSum (l.map fun x => (x.1.code32, x.2.code32)) % 2 ^ 32))

/-- A rank's partials, a run for each row: m, l and the unnormalised sum, in FP32, and whether the row is darned (R398, R565). -/
def State.partials (s : State) (d : Desc) (a : Attn) (r : Nat) : List OutRun :=
  let j := a.rankBlocks r
  a.rows.zipIdx.map fun x =>
    let st := s.attnRow d a x.1.1 x.1.2.1 x.1.2.2 j.1 j.2
    let o := (List.range a.hd).map fun c => (sum32 (st.ps.map fun y =>
      (y.2, a.q.elem.decode false ((s.attnKv d a 1 x.1.1 (a.kvHead x.1.2.1) y.1).getD c 0)))).code32
    { va := a.sbuf.base + r * a.partialBytes + x.2 * (a.hd + 2) * 4
      data := ([st.m.code32, st.l.code32] ++ o).flatMap (leBytes 4)
      darn := s.rowDarn d a x.1.1 x.1.2.1 x.1.2.2 (span j.1 j.2) || (List.range a.hd).any fun c => s.valueDarn d a x.1.1 x.1.2.1 (span j.1 j.2) c }

/-! Legality (R530, R536, R558, R560, R562, R567, R593 to R595, R599). -/

/-- Formats and extents of Q and O (R560, R562). -/
def Attn.qoLegal (a : Attn) : Bool :=
  a.q.legal false && a.o.legal false && (a.q.elem == .fp16 || a.q.elem == .bf16) && (a.o.elem == .fp16 || a.o.elem == .bf16 || a.o.elem == .fp32)
    && a.o.dim0 == a.q.dim0 && a.q.dim1 == a.nq && a.o.dim1 == a.nq && a.q.dim2 == a.entries.length * a.nh
    && a.o.dim2 == a.entries.length * a.nh

/-- Heads (R595, R599). -/
def Attn.headsLegal (a : Attn) (hkv : Nat) : Bool :=
  decide (1 ≤ a.nh ∧ a.nh ≤ 128 ∧ a.g ≤ 16 ∧ a.nh % a.g = 0 ∧ a.nh / a.g + a.head0 / a.g ≤ hkv)

/-- The source of keys and values of every entry is legal (R530, R539, R560, R599). -/
def State.attnSource (s : State) (d : Desc) (a : Attn) : Bool :=
  if a.dense then
    let ok := fun (r : TRef) => r.base != 0 && r.legal false && r.elem == a.q.elem && r.dim0 == a.hd && decide (a.nkv ≤ r.dim1)
      && a.headsLegal (r.dim2 / a.entries.length)
    ok a.k && ok a.v
  else a.entries.all fun e =>
    let r := s.seqRec e.handle
    let up := fun (u : TRef) => u.base != 0 && u.legal false && u.elem == a.q.elem && u.dim0 == a.hd && u.dim1 == r.dim && decide (r.hkv ≤ u.dim2)
    s.seqOk d e.handle && decide (a.layer < r.layers) && a.headsLegal r.hkv && (if r.latent then up a.uk && up a.uv else r.dim == a.hd)

/-- An ATTN problem is legal. -/
def State.attnLegal (s : State) (d : Desc) (a : Attn) : Bool :=
  let par := s.vaBytes d.loom0 d.tenant (d.argPtr + 288) 32
  a.qoLegal && s.attnSource d a && decide (d.inl 3 1 < 16) && d.inl 15 1 == 0 && (par.drop 6).all (· == 0#8) && (a.entries.all fun e => e.zero)
    && (!a.wantSt || (a.stats.base != 0 && a.stats.legal false && a.stats.elem == .fp32 && a.stats.dim0 == 2 && a.stats.dim1 == a.nq
      && a.stats.dim2 == a.entries.length * a.nh))
    && decide (a.footprint ≤ scratchBytes d.l1q) && decide (a.sbufNeed d.l1q ≤ a.sbuf.room)

/-! Pages the stream reads. -/

/-- The handles and pages of the blocks that are read, in the order of entries and pages (R547, R548, R555). -/
def Attn.pages (a : Attn) : List (Nat × Nat × Nat) :=
  if a.dense then []
  else (List.range a.entries.length).flatMap fun b =>
    ((a.usedBlocks b).flatMap fun j => (List.range 4).map fun x => 4 * j + x).filterMap fun p =>
      if 16 * p < (a.entry b).nkv then some (b, (a.entry b).handle, p) else none

/-- Walk ahead of a page: bring-back starts for FAR pages below N_KV (R547). -/
def State.walkAhead (s : State) (c : MemClass) (h p nkv : Nat) : State :=
  ((List.range (s.fld Reg.SEQ_CFG Reg.SEQ_CFG_AHEAD)).map fun i => p + 1 + i).foldl (fun t q =>
    if 16 * q < nkv then
      let u := t.kvWalk h q
      if (u.leafAt (u.seqRec h) q).state = 2 then (u.startBack c h q).2 else u
    else t) s

/-- Read the pages of a stream in turn: the walks, the zeros delivered, LAST_USE; the first page that is FAR or MOVING stops it with a
wait or a fault (R543, R546 to R548). -/
def State.readPages (d : Desc) (a : Attn) (c : MemClass) : List (Nat × Nat × Nat) → State → KvGot × State
  | [], s => (.got 0, s)
  | (b, h, p) :: ps, s =>
    if (s.seqRec h).mmu then State.readPages d a c ps s
    else
      let s1 := s.kvWalk h p
      let l := s1.leafAt (s1.seqRec h) p
      let ahead := fun (t : State) => t.walkAhead c h p (a.entry b).nkv
      if l.state = 0 ∨ (l.state = 1 ∧ l.unw = true) then State.readPages d a c ps (ahead (s1.bump Reg.SEQ_UNW_ZERO_CNT))
      else if l.state = 1 then State.readPages d a c ps (ahead (s1.setLeaf c h p { l with used := s1.trd.now.frame }))
      else match s1.startBack c h p with
        | (.fault x, t) => (.fault x, t.notePageWait d h p)
        | (_, t) => (.wait, ahead (t.notePageWait d h p))

/-- The runs of bytes an attention stream translates: its tensors, and the slices of MMU-mode pages. -/
def State.attnRuns (s : State) (a : Attn) (nb base : Nat) : List (Nat × Nat × Nat) :=
  let some_ := fun (r : TRef) (c : Nat) => if r.base = 0 then [] else r.runs c
  (if nb = 0 then [] else [(8, base, 16 * nb)]) ++ a.q.runs 0
    ++ (if a.dense then a.k.runs 6 ++ a.v.runs 7 else some_ a.uk 4 ++ some_ a.uv 5)
    ++ a.pages.filterMap fun x =>
        let r := s.seqRec x.2.1
        if r.mmu then some (9, r.dir + x.2.2 * r.pageBytes + a.layer * r.lb, r.lb) else none

/-- A page read is darned. -/
def State.pagesDarned (s : State) (a : Attn) : Bool :=
  a.pages.any fun x =>
    let r := s.seqRec x.2.1
    let l := s.pageLeaf r x.2.2
    !r.mmu && l.state == 1 && !l.unw && (List.range (r.lb / 128)).any fun i =>
      s.memPoison (s.frameAddr r.pool l.frame + a.layer * r.lb + 128 * i)

/-! Time (R254, R539, Table 10.4). -/

/-- A loom's CCLK for one unit over the key blocks from `j0` to below `j1`. -/
def Attn.unitCycles (a : Attn) (latent : Option Nat) (b j0 j1 : Nat) : Nat :=
  (a.tiles.map fun t =>
    let rows := t.2 * a.g
    let n := ((span j0 j1).filter fun j => a.blockUsed b t j).length
    let up := match latent with
      | some dim => 2 * mxCycles 4 4 64 a.hd dim
      | none => 0
    n * (up + mxCycles 4 4 rows 64 a.hd + mxCycles 4 4 rows a.hd 64) + 32 + ceilDiv (rows * 64 * n) 16).sum

/-- A rank's CCLK: its units, or under SPLIT_KV its blocks of every unit (R561, R564). -/
def State.attnCycles (s : State) (a : Attn) (r : Nat) : Nat :=
  let dim := fun (b : Nat) =>
    let q := s.seqRec (a.entry b).handle
    if a.dense || !q.latent then none else some q.dim
  if a.split then
    let j := a.rankBlocks r
    if j.1 < j.2 then (a.units.map fun u => a.unitCycles (dim u.1) u.1 j.1 j.2).sum else 0
  else (a.units.zipIdx.map fun x => if x.2 % a.looms = r then a.unitCycles (dim x.1.1) x.1.1 0 a.blocks else 0).sum

/-! ATTN. -/

/-- Bytes the operator leaves in a score buffer, of which the spec gives no layout. -/
def State.scribble (s : State) (d : Desc) (va n : Nat) : State :=
  s.nextFree.2.vaWrite d.loom0 d.tenant va ((List.range n).map (Config.scoreByte s.free)) (s.descClass d)

/-- The output runs of a problem: O, and STATS where it asks for them (R397, R398, R556 to R559). -/
def State.attnOutputs (s : State) (d : Desc) (a : Attn) : List OutRun :=
  let at_ := fun (k : Nat) => (k / a.nh, k % a.nh)
  let darn := fun (k i : Nat) => s.rowDarn d a (at_ k).1 (at_ k).2 i (a.tileBlocks (at_ k).1 i)
  (a.o.outRuns fun x i k => (s.attnOut d a (at_ k).1 (at_ k).2 i x,
      darn k i || s.valueDarn d a (at_ k).1 (at_ k).2 (a.tileBlocks (at_ k).1 i) x))
    ++ if !a.wantSt then [] else a.stats.outRuns fun x i k =>
        let st := s.attnRow d a (at_ k).1 (at_ k).2 i 0 a.blocks
        (if x = 0 then st.m.code32 else st.l.code32, darn k i)

/-- The looms of a split decode have written their partials; rank 0 still merges (R565, R566). The loom of a rank takes its CCLK from the one it began
in (R268). -/
def State.splitDone (s : State) (d : Desc) (a : Attn) : State :=
  let runs := a.ranks.flatMap fun r => s.partials d a r
  let s1 := s.writeRuns d d.loom0 runs
  match s1.desc? d.ring d.seq with
  | none => s1
  | some e =>
    let ends := fun (w : Work) => max s1.trd.cclk (w.began + s.attnCycles a w.rank)
    let wrote := e.work.filter fun w => a.ranks.contains w.rank
    (s1.setDesc { e with
      darned := e.darned || runs.any fun x => x.darn
      work := e.work.map fun w => if w.rank = 0 then w else { w with ended := true, endsAt := ends w } }).onKv fun k =>
        { k with merges := k.merges ++ [⟨d.ring, d.seq, (wrote.map ends).foldl max s1.trd.cclk⟩] }

/-- ATTN: O = softmax(SCALE · Q Kᵀ with mask) · V (R234, R538, R539, R546 to R548, R554 to R565, R567, R587, R593, R594, R599). -/
def execAttn (ring : Fin 1024) (seq : Nat) (s : State) : Host.Outcome State Fault Refusal :=
  match s.kvOpReady ring seq 0x0300 with
  | none => .next s
  | some (d, s) =>
    if s.kv.merges.any fun m => m.ring == d.ring && m.seq == d.seq then .next s
    else
      let a := s.attn d
      let refs := s.opRefs d 9
      let nb := leNat (s.vaBytes d.loom0 d.tenant (d.argPtr + 292) 2)
      let beyond := !a.dense && a.entries.any fun e => (s.seqRec e.handle).cap < e.nkv
      let outs := if a.split then [(10, a.sbuf.base, a.looms * a.partialBytes)]
        else a.o.runs 1 ++ (if a.wantSt then a.stats.runs 2 else []) ++ [(3, a.sbuf.base, a.sbufNeed d.l1q)]
      .next (s.kvOperator d (!a.dense) 320 (s.attnLegal d a) (if beyond then [] else s.attnRuns a nb (refAt refs 8).base)
        (if beyond then [] else outs) fun t =>
          if beyond then t.kvEnd d 3
          else match State.readPages d a (t.descClass d) a.pages t with
            | (.wait, u) => u
            | (.fault x, u) => u.kvHalt d x 0
            | (.got _, u0) =>
              let u := (u0.bumps Reg.SEQ_SKIP_BLK_CNT a.skipped).kvSettled d
              if t.pagesDarned a && !d.darnOk then u.endUncorr d 0
              else if a.split then u.splitDone d a
              else
                let need := a.sbufNeed d.l1q
                let runs := t.attnOutputs d a
                let u1 := u.writeRuns d d.loom0 runs
                (if need = 0 then u1 else u1.scribble d a.sbuf.base need).workDone d (t.attnCycles a) (runs.any fun x => x.darn))

/-! The merge of split decode. -/

/-- A row's partial of a rank in SBUF: m, l and the sum, as values (R565). -/
def State.partialAt (s : State) (d : Desc) (a : Attn) (r row : Nat) : Num × Num × List Num :=
  let base := a.sbuf.base + r * a.partialBytes + row * (a.hd + 2) * 4
  let at_ := fun (k : Nat) => num32 (leNat (s.vaBytes d.loom0 d.tenant (base + 4 * k) 4))
  (at_ 0, at_ 1, (List.range a.hd).map fun k => at_ (2 + k))

/-- A value above zero. -/
def Num.positive (x : Num) : Bool := !x.isNan && !x.isZero && !x.neg?

/-- The merge of R566 over the partials of the ranks that wrote them: M, L, and the row's values. -/
def mergeRow (hd : Nat) (parts : List (Num × Num × List Num)) : Num × Num × List Num :=
  let top := parts.foldl (fun m x => if x.2.1.positive && m.lt x.1 then x.1 else m) (.inf true)
  let zero : Num := .fin false 0 0
  let acc := parts.foldl (fun (y : Num × List Num) x =>
    if x.2.1.isZero then y
    else
      let f := num32 (Config.exp32 (add32 x.1 top.negate).code32)
      (add32 y.1 (mul32 x.2.1 f), y.2.zip x.2.2 |>.map fun z => add32 z.1 (mul32 z.2 f))) (zero, List.replicate hd zero)
  (top, acc.1, acc.2.map fun v => if acc.1.positive then (v.quot acc.1).round32 else zero)

/-- SPLIT_DECODE_MERGE: rank 0 merges in the CCLK after the last partials are visible, writes O and STATS, and ends (R566). -/
def execSplitDecodeMerge (ring : Fin 1024) (seq : Nat) (s : State) : Host.Outcome State Fault Refusal :=
  match s.kv.merges.find? fun m => m.ring == ring.val && m.seq == seq with
  | none => .next s
  | some m =>
    let s0 := (s.elapseTo (m.ready + 1)).onKv fun k => { k with merges := k.merges.erase m }
    match s0.desc? ring seq with
    | none => .next s0
    | some d =>
      if d.phase ≠ .running ∨ d.opcode ≠ 0x0300 then .next s0
      else
        let a := s0.attn d
        let row := fun (i k : Nat) => mergeRow a.hd (a.ranks.map fun r => s0.partialAt d a r (k * a.nq + i))
        let darn := fun (i k : Nat) => a.ranks.any fun r =>
          s0.vaPoison d.loom0 d.tenant (a.sbuf.base + r * a.partialBytes + (k * a.nq + i) * (a.hd + 2) * 4) ((a.hd + 2) * 4)
        let outs := (a.o.outRuns fun x i k => (a.o.code d.profile ((row i k).2.2.getD x (.fin false 0 0)), darn i k))
          ++ if !a.wantSt then [] else a.stats.outRuns fun x i k => (if x = 0 then (row i k).1.code32 else (row i k).2.1.code32, darn i k)
        match s0.firstFault d.loom0 d.tenant true (a.o.runs 1 ++ if a.wantSt then a.stats.runs 2 else []) with
        | some (ch, cause, va) => .next ((s0.onKv fun k => { k with merges := k.merges ++ [m] }).opFault d d.loom0 ch cause va true)
        | none =>
          let s1 := s0.writeRuns d d.loom0 outs
          .next (match s1.desc? ring seq with
            | none => s1
            | some e =>
              let n := 64 + ceilDiv (a.looms * (a.entries.length * a.nh * a.nq) * (a.hd + 2)) 16
              s1.setDesc { e with work := e.work.map fun w =>
                if w.rank = 0 then { w with ended := true, endsAt := s1.trd.cclk + n } else w })

/-! ATTN_BWD. -/

/-- The references an ATTN_BWD descriptor puts out. -/
structure BwdRefs where
  dout : TRef
  dq   : TRef
  dk   : TRef
  dv   : TRef
  deriving DecidableEq, Repr

/-- The problem of an ATTN_BWD descriptor: dense (R568, R592, R593). -/
def State.attnBwd (s : State) (d : Desc) : Attn × BwdRefs :=
  let refs := s.opRefs d 10
  let p := s.vaBytes d.loom0 d.tenant (d.argPtr + 320) 32
  let fl := d.inl 3 1
  ({ q := refAt refs 0, k := refAt refs 1, v := refAt refs 2, o := refAt refs 3, stats := refAt refs 5, sbuf := refAt refs 9,
     uk := refAt [] 0, uv := refAt [] 0, scale := num32 (bytesAt p 0 4), layer := d.inl 2 1, causal := fl.testBit 0, dense := true,
     split := false, wantSt := fl.testBit 3, head0 := d.inl 12 1, nh := d.inl 13 1, g := orElse0 (d.inl 14 1) 1,
     entries := s.attnEntries d 0 0 (refAt refs 0).dim1, looms := d.work.length },
    { dout := refAt refs 4, dq := refAt refs 6, dk := refAt refs 7, dv := refAt refs 8 })

/-- A tensor's value at an element, in FP32. -/
def State.value32 (s : State) (d : Desc) (r : TRef) (x i k : Nat) : Num := r.value d.profile (s.elemAt d.loom0 d.tenant r x i k)

/-- P of a query row and key position from the saved statistics (R568); rows with l = 0, and keys that take no part, give 0 (R557,
R570). -/
def State.bwdP (s : State) (d : Desc) (a : Attn) (hl i kp : Nat) : Num :=
  let m := s.value32 d a.stats 0 i hl
  let l := s.value32 d a.stats 1 i hl
  if a.takes 0 i kp && !l.isZero then
    ((num32 (Config.exp32 (add32 (s.attnScore d a 0 hl i kp) m.negate).code32)).quot l).round32
  else .fin false 0 0

/-- dS of a query row and key position (R569). -/
def State.bwdDs (s : State) (d : Desc) (a : Attn) (r : BwdRefs) (hl i kp : Nat) : Num :=
  let xs := List.range a.hd
  let di := sum32 (xs.map fun x => (s.value32 d r.dout x i hl, s.value32 d a.o x i hl))
  let dp := sum32 (xs.map fun x => (s.value32 d r.dout x i hl, s.value32 d a.v x kp (a.kvHead hl)))
  mul32 (s.bwdP d a hl i kp) (add32 dp di.negate)

/-- The query heads of a KV head, ascending. -/
def Attn.headsOf (a : Attn) (head : Nat) : List Nat := (List.range a.nh).filter fun hl => a.kvHead hl == head

/-- Sum what the query heads of a KV head give, in ascending head order (R569). -/
def Attn.overHeads (a : Attn) (head : Nat) (f : Nat → Num) : Num := (a.headsOf head).foldl (fun acc hl => add32 acc (f hl)) (.fin false 0 0)

/-- A sector read for P, and with `full` for dS, of a query row and a key position is darned (R398). -/
def State.bwdDarn (s : State) (d : Desc) (a : Attn) (r : BwdRefs) (full : Bool) (hl i kp : Nat) : Bool :=
  let row := fun (z : TRef) (j h : Nat) => (List.range z.dim0).any fun x => s.elemDarn d.loom0 d.tenant z x j h
  row a.q i hl || row a.k kp (a.kvHead hl) || row a.stats i hl || row r.dout i hl || (full && (row a.v kp (a.kvHead hl) || row a.o i hl))

/-- ATTN_BWD: dQ, dK and dV (R554, R568 to R570, R592, R593, R595, R599). -/
def execAttnBwd (ring : Fin 1024) (seq : Nat) (s : State) : Host.Outcome State Fault Refusal :=
  match s.opReady ring seq 0x0308 with
  | none => .next s
  | some (d, s) =>
    let p := s.attnBwd d
    let a := p.1
    let r := p.2
    let par := s.vaBytes d.loom0 d.tenant (d.argPtr + 320) 32
    let qs := List.range a.nq
    let ks := List.range (min a.nkv a.k.dim1)
    let like := fun (x y : TRef) => x.legal false && x.elem.float.isSome && x.sameShape y
    let legal := a.q.legal false && (a.q.elem == .fp16 || a.q.elem == .bf16) && s.attnSource d a && a.q.dim2 == a.nh && like a.o a.q
      && like r.dout a.q && like r.dq a.q && like r.dk a.k && like r.dv a.v && a.stats.base != 0 && a.stats.legal false
      && a.stats.elem == .fp32 && a.stats.dim0 == 2 && a.stats.dim1 == a.nq && a.stats.dim2 == a.nh && decide (d.inl 3 1 < 16)
      && d.inl 15 1 == 0 && (par.drop 4).all (· == 0#8) && decide (a.footprint ≤ scratchBytes d.l1q)
    let dqs := r.dq.outRuns fun x i hl =>
      (r.dq.code d.profile (mul32 a.scale (sum32 (ks.map fun kp => (s.bwdDs d a r hl i kp, s.value32 d a.k x kp (a.kvHead hl))))),
        ks.any fun kp => s.bwdDarn d a r true hl i kp)
    let dks := r.dk.outRuns fun x kp h =>
      (r.dk.code d.profile (a.overHeads h fun hl =>
        mul32 a.scale (sum32 (qs.map fun i => (s.bwdDs d a r hl i kp, s.value32 d a.q x i hl)))),
        (a.headsOf h).any fun hl => qs.any fun i => s.bwdDarn d a r true hl i kp)
    let dvs := r.dv.outRuns fun x kp h =>
      (r.dv.code d.profile (a.overHeads h fun hl => sum32 (qs.map fun i => (s.bwdP d a hl i kp, s.value32 d r.dout x i hl))),
        (a.headsOf h).any fun hl => qs.any fun i => s.bwdDarn d a r false hl i kp)
    let ins := a.q.runs 0 ++ a.k.runs 1 ++ a.v.runs 2 ++ a.o.runs 3 ++ r.dout.runs 4 ++ a.stats.runs 5
    let outs := dqs ++ dks ++ dvs
    let rank := fun (k : Nat) => (a.units.zipIdx.map fun x =>
      if x.2 % a.looms = k then 3 * a.unitCycles none x.1.1 0 a.blocks else 0).sum
    let s1 := s.runOperator d 352 legal ins outs rank
    .next (match s1.desc? ring seq with
      | some e => if a.sbuf.base ≠ 0 ∧ (e.work.all fun w => w.ended) = true then s1.scribble d a.sbuf.base a.sbuf.room else s1
      | none => s1)

end Sys2Proof.Machine
end

