-- ==== Sys2Proof/Machine/Crypto.lean ====
section
/-! DEFINITION. The digests and codes the spec names by their standards: SHA-384 (R87, R89), ECDSA P-384 as FIPS 186 defines it
(R88), and CRCs of given polynomials (Table 2.4, R153). -/

namespace Sys2Proof.Machine

/-! SHA-384. -/

/-- The round constants of SHA-512 and SHA-384, in four parts. -/
def sha512K0 : List (BitVec 64) :=
  [0x428A2F98D728AE22#64, 0x7137449123EF65CD#64, 0xB5C0FBCFEC4D3B2F#64, 0xE9B5DBA58189DBBC#64,
   0x3956C25BF348B538#64, 0x59F111F1B605D019#64, 0x923F82A4AF194F9B#64, 0xAB1C5ED5DA6D8118#64,
   0xD807AA98A3030242#64, 0x12835B0145706FBE#64, 0x243185BE4EE4B28C#64, 0x550C7DC3D5FFB4E2#64,
   0x72BE5D74F27B896F#64, 0x80DEB1FE3B1696B1#64, 0x9BDC06A725C71235#64, 0xC19BF174CF692694#64,
   0xE49B69C19EF14AD2#64, 0xEFBE4786384F25E3#64, 0x0FC19DC68B8CD5B5#64, 0x240CA1CC77AC9C65#64]

def sha512K1 : List (BitVec 64) :=
  [0x2DE92C6F592B0275#64, 0x4A7484AA6EA6E483#64, 0x5CB0A9DCBD41FBD4#64, 0x76F988DA831153B5#64,
   0x983E5152EE66DFAB#64, 0xA831C66D2DB43210#64, 0xB00327C898FB213F#64, 0xBF597FC7BEEF0EE4#64,
   0xC6E00BF33DA88FC2#64, 0xD5A79147930AA725#64, 0x06CA6351E003826F#64, 0x142929670A0E6E70#64,
   0x27B70A8546D22FFC#64, 0x2E1B21385C26C926#64, 0x4D2C6DFC5AC42AED#64, 0x53380D139D95B3DF#64,
   0x650A73548BAF63DE#64, 0x766A0ABB3C77B2A8#64, 0x81C2C92E47EDAEE6#64, 0x92722C851482353B#64]

def sha512K2 : List (BitVec 64) :=
  [0xA2BFE8A14CF10364#64, 0xA81A664BBC423001#64, 0xC24B8B70D0F89791#64, 0xC76C51A30654BE30#64,
   0xD192E819D6EF5218#64, 0xD69906245565A910#64, 0xF40E35855771202A#64, 0x106AA07032BBD1B8#64,
   0x19A4C116B8D2D0C8#64, 0x1E376C085141AB53#64, 0x2748774CDF8EEB99#64, 0x34B0BCB5E19B48A8#64,
   0x391C0CB3C5C95A63#64, 0x4ED8AA4AE3418ACB#64, 0x5B9CCA4F7763E373#64, 0x682E6FF3D6B2B8A3#64,
   0x748F82EE5DEFB2FC#64, 0x78A5636F43172F60#64, 0x84C87814A1F0AB72#64, 0x8CC702081A6439EC#64]

def sha512K3 : List (BitVec 64) :=
  [0x90BEFFFA23631E28#64, 0xA4506CEBDE82BDE9#64, 0xBEF9A3F7B2C67915#64, 0xC67178F2E372532B#64,
   0xCA273ECEEA26619C#64, 0xD186B8C721C0C207#64, 0xEADA7DD6CDE0EB1E#64, 0xF57D4F7FEE6ED178#64,
   0x06F067AA72176FBA#64, 0x0A637DC5A2C898A6#64, 0x113F9804BEF90DAE#64, 0x1B710B35131C471B#64,
   0x28DB77F523047D84#64, 0x32CAAB7B40C72493#64, 0x3C9EBE0A15C9BEBC#64, 0x431D67C49C100D4C#64,
   0x4CC5D4BECB3E42B6#64, 0x597F299CFC657E2A#64, 0x5FCB6FAB3AD6FAEC#64, 0x6C44198C4A475817#64]

def sha512K : List (BitVec 64) := sha512K0 ++ sha512K1 ++ sha512K2 ++ sha512K3

/-- The initial hash value of SHA-384. -/
def sha384Init : List (BitVec 64) :=
  [0xCBBB9D5DC1059ED8#64, 0x629A292A367CD507#64, 0x9159015A3070DD17#64, 0x152FECD8F70E5939#64,
   0x67332667FFC00B31#64, 0x8EB44A8768581511#64, 0xDB0C2E0D64F98FA7#64, 0x47B5481DBEFA4FA4#64]

/-- The number a list of bytes spells, most significant first. -/
def beNat (l : List Byte) : Nat := l.foldl (fun n b => 256 * n + b.toNat) 0

/-- `n` bytes of a number, most significant first. -/
def beBytes (n x : Nat) : List Byte := (List.range n).map fun i => BitVec.ofNat 8 (x / 256 ^ (n - 1 - i))

/-- A message padded to whole blocks of 128 bytes. -/
def shaPad (m : List Byte) : List Byte :=
  m ++ [0x80#8] ++ List.replicate ((239 - m.length % 128) % 128) 0#8 ++ beBytes 16 (8 * m.length)

/-- The sixteen words of a block. -/
def shaWords (b : List Byte) : List (BitVec 64) :=
  (List.range 16).map fun i => BitVec.ofNat 64 (beNat ((b.drop (8 * i)).take 8))

/-- The message schedule, newest word first; `n` words are still to come. -/
def shaSchedule : Nat → List (BitVec 64) → List (BitVec 64)
  | 0, w => w
  | n + 1, w =>
    let x := w.getD 14 0
    let y := w.getD 1 0
    let s0 := x.rotateRight 1 ^^^ x.rotateRight 8 ^^^ (x >>> 7)
    let s1 := y.rotateRight 19 ^^^ y.rotateRight 61 ^^^ (y >>> 6)
    shaSchedule n ((w.getD 15 0 + s0 + w.getD 6 0 + s1) :: w)

/-- One round over the working variables. -/
def shaRound (v : List (BitVec 64)) (k : BitVec 64 × BitVec 64) : List (BitVec 64) :=
  match v with
  | [a, b, c, d, e, f, g, h] =>
    let s1 := e.rotateRight 14 ^^^ e.rotateRight 18 ^^^ e.rotateRight 41
    let t1 := h + s1 + ((e &&& f) ^^^ (~~~e &&& g)) + k.1 + k.2
    let s0 := a.rotateRight 28 ^^^ a.rotateRight 34 ^^^ a.rotateRight 39
    let t2 := s0 + ((a &&& b) ^^^ (a &&& c) ^^^ (b &&& c))
    [t1 + t2, a, b, c, d + t1, e, f, g]
  | w => w

/-- Take one block into the hash value. -/
def shaBlock (h : List (BitVec 64)) (b : List Byte) : List (BitVec 64) :=
  let w := (shaSchedule 64 (shaWords b).reverse).reverse
  (h.zip ((sha512K.zip w).foldl shaRound h)).map fun x => x.1 + x.2

/-- Take the blocks of a padded message; `n` bounds them. -/
def shaBlocks : Nat → List (BitVec 64) → List Byte → List (BitVec 64)
  | 0, h, _ => h
  | n + 1, h, m => if m.isEmpty then h else shaBlocks n (shaBlock h (m.take 128)) (m.drop 128)

/-- The SHA-384 digest of a message, 48 bytes. -/
def sha384 (m : List Byte) : List Byte :=
  let p := shaPad m
  ((shaBlocks (p.length / 128) sha384Init p).take 6).flatMap fun x => beBytes 8 x.toNat

/-! ECDSA over P-384. -/

/-- The field prime, the curve coefficient b, the order and the base point of P-384. -/
def p384P : Nat := 0xfffffffffffffffffffffffffffffffffffffffffffffffffffffffffffffffeffffffff0000000000000000ffffffff
def p384B : Nat := 0xb3312fa7e23ee7e4988e056be3f82d19181d9c6efe8141120314088f5013875ac656398d8a2ed19d2a85c8edd3ec2aef
def p384N : Nat := 0xffffffffffffffffffffffffffffffffffffffffffffffffc7634d81f4372ddf581a0db248b0a77aecec196accc52973
def p384G : Nat × Nat :=
  (0xaa87ca22be8b05378eb1c71ef320ad746e1d3b628ba79b9859f741e082542a385502f25dbf55296c3a545e3872760ab7,
   0x3617de4a96262c6f5d9e98bf9292dc29f8f41dbd289a147ce9da3113b5f0b8c00a60b1ce1d7e819d7a431d7c90ea0e5f)

/-- `b^e mod m`; `n` bounds the bits of `e`. -/
def powMod (m : Nat) : Nat → Nat → Nat → Nat
  | 0, _, _ => 1 % m
  | n + 1, b, e =>
    let h := powMod m n (b * b % m) (e / 2)
    if e % 2 = 1 then b * h % m else h

/-- The inverse modulo a prime of at most 384 bits. -/
def invMod (m x : Nat) : Nat := powMod m 384 (x % m) (m - 2)

/-- A point: none is the point at infinity. -/
abbrev Point := Option (Nat × Nat)

/-- The chord or tangent slope's third point. -/
def pointFrom (x1 y1 x2 slope : Nat) : Point :=
  let x := (slope * slope + 2 * p384P - x1 - x2) % p384P
  some (x, (slope * (x1 + p384P - x) + p384P - y1) % p384P)

/-- The sum of two points. -/
def pointAdd : Point → Point → Point
  | none, q => q
  | p, none => p
  | some (x1, y1), some (x2, y2) =>
    if x1 ≠ x2 then pointFrom x1 y1 x2 ((y2 + p384P - y1) * invMod p384P (x2 + p384P - x1) % p384P)
    else if (y1 + y2) % p384P = 0 then none
    else pointFrom x1 y1 x1 ((3 * x1 * x1 + p384P - 3) * invMod p384P (2 * y1) % p384P)

/-- A multiple of a point; `n` bounds the bits of the factor. -/
def pointMul : Nat → Nat → Point → Point
  | 0, _, _ => none
  | n + 1, k, p =>
    let h := pointMul n (k / 2) (pointAdd p p)
    if k % 2 = 1 then pointAdd p h else h

/-- An uncompressed point of a public key, when it lies on the curve (Table 2.8). -/
def publicPoint (key : List Byte) : Point :=
  let x := beNat ((key.drop 1).take 48)
  let y := beNat ((key.drop 49).take 48)
  if key.head? = some 0x04#8 ∧ x < p384P ∧ y < p384P ∧ y * y % p384P = (x * x * x + p384B + 3 * (p384P - x)) % p384P
  then some (x, y) else none

/-- Whether a signature, its two numbers R and S, over a digest verifies under a public key. -/
def ecdsaVerify (key digest : List Byte) (rn sn : Nat) : Bool :=
  match publicPoint key with
  | none => false
  | some q =>
    if rn = 0 ∨ p384N ≤ rn ∨ sn = 0 ∨ p384N ≤ sn then false
    else
      let w := invMod p384N sn
      match pointAdd (pointMul 384 (beNat digest * w % p384N) (some p384G)) (pointMul 384 (rn * w % p384N) (some q)) with
      | none => false
      | some (x, _) => x % p384N == rn

/-! Cyclic redundancy checks. -/

/-- One bit of CRC-32 (IEEE 802.3, reflected). -/
def crc32Bit (c : BitVec 32) : BitVec 32 := if c.getLsbD 0 then (c >>> 1) ^^^ 0xEDB88320#32 else c >>> 1

/-- CRC-32 of bytes, initial and final XOR of all ones (Table 2.4). -/
def crc32 (l : List Byte) : Nat :=
  ((l.foldl (fun c b => (List.range 8).foldl (fun x _ => crc32Bit x) (c ^^^ BitVec.zeroExtend 32 b)) 0xFFFFFFFF#32)
    ^^^ 0xFFFFFFFF#32).toNat

/-- The CRC-16 of R660 over bytes, most significant bit first. -/
def crc16 (l : List Byte) : Nat :=
  (l.foldl (fun (c : BitVec 16) b => (List.range 8).foldl (fun (x : BitVec 16) _ =>
    if x.getLsbD 15 then (x <<< 1) ^^^ 0x1021#16 else x <<< 1) (c ^^^ ((BitVec.zeroExtend 16 b) <<< 8))) 0xFFFF#16).toNat

end Sys2Proof.Machine
end

