-- ==== Sys2Proof/Machine/Treadle.lean ====
section
/-! DEFINITION. The Treadle: arming and series of event slots (R43 to R50, R835), their actions (R52 to R56, R837), the catch-up
queue (R58 to R61), the references and lock (R22, R25, R26, R831, R832), captures (R41, R836) and GPIO. -/

namespace Sys2Proof.Machine

/-! Series. -/

/-- The mode of a code (Table 1.3). -/
def SlotMode.ofCode : Nat → SlotMode
  | 0 => .once
  | 1 => .perLine
  | 2 => .perFrame
  | _ => .everyN

/-- The point of a comparator's series after its present target (R43, R44). -/
def State.nextPoint (s : State) (c : Comparator) : Stamp :=
  match c.mode with
  | .once => c.target
  | .perLine => { s.addPicks { c.target with pick := c.pick0 } 64 with pick := c.pick0, cyc := c.cyc0 }
  | .perFrame => ⟨(c.target.frame + 1) % 65536, c.line0, c.pick0, c.cyc0⟩
  | .everyN => s.addPicks c.target c.period

/-- The first point of a series at or after a stamp; `fuel` bounds the points passed over. -/
def State.pointFrom (s : State) (at_ : Stamp) : Nat → Comparator → Comparator
  | 0, c => c
  | fuel + 1, c => if c.target.atOrAfter at_ then c else s.pointFrom at_ fuel { c with target := s.nextPoint c }

/-! Arming (R45 to R49, R835). -/

/-- The comparator a slot's registers and a SLOT_CTL value load (R45). -/
def State.loadSlot (s : State) (n : Nat) (data : Word) : Comparator :=
  let t := Stamp.ofBits ((s.rd (Reg.TRD_SLOT_STAMP_LO n)).toNat +
    2 ^ 32 * s.fld (Reg.TRD_SLOT_STAMP_HI n) Reg.TRD_SLOT_STAMP_HI_FRAME)
  let m := SlotMode.ofCode (Reg.TRD_SLOT_CTL_MODE.get data)
  let now := s.trd.now
  let first : Stamp := match m with
    | .perLine => ⟨now.frame, now.line, t.pick, t.cyc⟩
    | .perFrame => ⟨now.frame, t.line, t.pick, t.cyc⟩
    | _ => t
  { target := first, mode := m, period := orElse0 (s.fld (Reg.TRD_SLOT_STAMP_HI n) Reg.TRD_SLOT_STAMP_HI_PERIOD) 1,
    action := Reg.TRD_SLOT_CTL_ACTION.get data, arg := (s.rd (Reg.TRD_SLOT_ARG n)).toNat, line0 := t.line, pick0 := t.pick,
    cyc0 := t.cyc, matched := false }

/-- A slot's entry leaves the catch-up queue, but for one that fires in this CCLK (R835). -/
def State.leaveQueue (s : State) (n : Nat) : State :=
  s.onTrd fun t => { t with catchq :=
    match t.catchq with
    | [] => []
    | d :: ds => if d.slot = n ∧ t.catchNext ≤ t.cclk then d :: ds.filter fun e => e.slot != n
        else (d :: ds).filter fun e => e.slot != n }

/-- A SLOT_CTL write lands. -/
def State.landSlotCtl (s : State) (n : Nat) (data : Word) : State :=
  let off := Reg.TRD_SLOT_CTL n
  let s1 := (s.plainWrite off data).leaveQueue n
  if Reg.TRD_SLOT_CTL_ARM.get data = 0 then s1.setComp n none
  else
    let c := s.loadSlot n data
    let repeating := c.mode == .perLine || c.mode == .perFrame
    if !repeating && !c.target.after s.trd.now then
      (((s1.setComp n none).setFld off Reg.TRD_SLOT_CTL_ARM 0).setFld off Reg.TRD_SLOT_CTL_LATE 1).bump Reg.TRD_LATE_CNT
        |>.setFld Reg.TRD_STATUS Reg.TRD_STATUS_SLOT_LATE 1
    else
      let c1 := if c.target.after s.trd.now then c else { c with target := s.nextPoint c }
      (s1.setComp n (some c1)).setFld off Reg.TRD_SLOT_CTL_LATE 0

/-- SLOT_ARM: a SLOT_CTL write with ARM 1. -/
def execSlotArm (slot : Fin 256) (data : Word) (s : State) : Host.Outcome State Fault Refusal :=
  .next (s.landSlotCtl slot (Reg.TRD_SLOT_CTL_ARM.put data 1))

/-- SLOT_DISARM: a SLOT_CTL write with ARM 0. -/
def execSlotDisarm (slot : Fin 256) (data : Word) (s : State) : Host.Outcome State Fault Refusal :=
  .next (s.landSlotCtl slot (Reg.TRD_SLOT_CTL_ARM.put data 0))

/-! Firing. -/

/-- The slots that have fired in the present CCLK, with GPIO's levels before the first of them. -/
def State.openFiring (s : State) : State :=
  if s.trd.firedCclk = s.trd.cclk ∧ !s.trd.fired.isEmpty then s
  else s.onTrd fun t => { t with firedCclk := t.cclk, fired := [], gpioBase := t.gpioLevel }

/-- A lower-numbered slot has fired in this CCLK with an action that satisfies a condition (R52). -/
def State.lowerFired (s : State) (n : Nat) (p : Comparator → Bool) : Bool :=
  s.trd.fired.any fun e => decide (e.1 < n) && p e.2

/-- The GPIO pins an action drives. -/
def Comparator.pins (c : Comparator) : BitVec 16 :=
  if c.action = 4 ∨ c.action = 5 ∨ c.action = 6 then BitVec.ofNat 16 c.arg else 0#16

/-- The pins that lower-numbered slots have driven in this CCLK. -/
def State.pinsTaken (s : State) (n : Nat) : BitVec 16 :=
  s.trd.fired.foldl (fun m e => if e.1 < n then m ||| e.2.pins else m) 0#16

/-- Drive GPIO pins: owned ones alone, and none that a lower-numbered slot drives in this CCLK (R52, R55). -/
def State.driveGpio (s : State) (n : Nat) (c : Comparator) : State :=
  let m := c.pins &&& BitVec.ofNat 16 (s.fld Reg.TRD_GPIO_OWN Reg.TRD_GPIO_OWN_OWN) &&& ~~~(s.pinsTaken n)
  let level := match c.action with
    | 4 => 0xFFFF#16
    | 5 => 0#16
    | _ => ~~~s.trd.gpioBase
  s.onTrd fun t => { t with gpioLevel := (t.gpioLevel &&& ~~~m) ||| (level &&& m) }

/-- Change FSYNC_OUT's state, ending a pulse in progress (R54); until the CCLK after the first commit the state is idle (R837). -/
def State.driveFsync (s : State) (action : Nat) : State :=
  let w := orElse0 (s.fld Reg.TRD_FSYNC_CTL Reg.TRD_FSYNC_CTL_PULSE_W) 1
  if !s.trd.fsyncFree then s
  else s.onTrd fun t => { t with fsync := action != 2, pulseEnd := if action = 3 then some (t.cclk + w) else none }

/-- Copy the registers of Table 12.12 and the present stamp into the snapshot bank (R719). -/
def State.snapshot (s : State) : State :=
  let from_ := [Reg.PWR_STATUS, Reg.PWR_SETPT, Reg.PWR_TJ, Reg.PWR_CUR, Reg.PWR_PKG, Reg.PWR_FAULT, Reg.PWR_PRESS_TOT_CNT,
    Reg.PWR_STR_CNT, Reg.PWR_STR_CCLK_CNT, Reg.PWR_STEP_CNT, Reg.DMC_FORCED_REF_CNT, Reg.DMC_SCRUB_STARVE_CNT]
  let s1 := from_.zipIdx.foldl (fun t x => t.wr (Reg.RIN_SNAP x.2) (s.rd x.1)) s
  (s1.wrStamp Reg.RIN_SNAP_STAMP_LO Reg.RIN_SNAP_STAMP_HI s.trd.now).bump Reg.RIN_SNAP_CNT

/-- The stamp of a CAPTURE firing and its slot (Table 1.4). -/
def State.captureFire (s : State) (n : Nat) : State :=
  (s.wrStamp Reg.TRD_FIRE_CAP_LO Reg.TRD_FIRE_CAP_HI s.trd.now).setFld Reg.TRD_FIRE_CAP_SLOT Reg.TRD_FIRE_CAP_SLOT_SLOT n

/-- What an action code does in the present CCLK (R52, R53, Table 1.4). -/
def State.act (s : State) (n : Nat) (c : Comparator) : State :=
  match c.action with
  | 1 | 2 | 3 => if s.lowerFired n fun e => e.action == 1 || e.action == 2 || e.action == 3 then s else s.driveFsync c.action
  | 4 | 5 | 6 => s.driveGpio n c
  | 8 => if s.trd.fired.any fun e => e.2.action == 8 then s else s.snapshot
  | 9 => if s.lowerFired n fun e => e.action == 9 then s else s.captureFire n
  | 0x10 => s.event (vecIndex 0 (c.arg % 32))
  | _ => s

/-- The target of a repeating slot after a firing: the next point of its series, or after a skip the first one of the new frame on
(R44, R61); `fuel` bounds the points passed over. -/
def State.pointAfter (s : State) (d : Due) (c : Comparator) : Stamp :=
  match d.from_ with
  | none => s.nextPoint c
  | some start => (s.pointFrom start (64 * 20000) { c with target := s.nextPoint c }).target

/-- A slot fires: its action, FIRED, and the end of a ONCE slot or the next target of a repeating one whose comparator still
is the one that matched (R43, R44, R53). -/
def State.fire (s : State) (d : Due) : State :=
  let s0 := s.openFiring
  let s1 := (s0.act d.slot d.comp).onTrd fun t => { t with fired := t.fired ++ [(d.slot, d.comp)] }
  let off := Reg.TRD_SLOT_CTL d.slot
  let s2 := s1.setFld off Reg.TRD_SLOT_CTL_FIRED 1
  match s2.comp? d.slot with
  | none => s2
  | some c =>
    if c ≠ { d.comp with matched := true } then s2
    else if c.mode = .once then (s2.setComp d.slot none).setFld off Reg.TRD_SLOT_CTL_ARM 0
    else s2.setComp d.slot (some { c with matched := false, target := s2.pointAfter d c })

/-- The firing of a slot whose match is due: the clock runs to its action CCLK (R36, R51). -/
def State.fireDue (s : State) (n : Nat) (code : Nat → Bool) : State :=
  match s.trd.due.find? fun d => d.slot == n && code d.comp.action with
  | none => s
  | some d =>
    let s0 := s.elapseTo d.cclk
    (s0.onTrd fun t => { t with due := t.due.erase d }).fire d

/-- NONE: also every code Table 1.4 does not list. -/
def execFireNone (slot : Fin 256) (s : State) : Host.Outcome State Fault Refusal :=
  .next (s.fireDue slot fun a => !([1, 2, 3, 4, 5, 6, 8, 9, 0x10].contains a))

/-- FSYNC_SET. -/
def execFireFsyncSet (slot : Fin 256) (s : State) : Host.Outcome State Fault Refusal := .next (s.fireDue slot (· == 1))

/-- FSYNC_CLR. -/
def execFireFsyncClr (slot : Fin 256) (s : State) : Host.Outcome State Fault Refusal := .next (s.fireDue slot (· == 2))

/-- FSYNC_PULSE. -/
def execFireFsyncPulse (slot : Fin 256) (s : State) : Host.Outcome State Fault Refusal := .next (s.fireDue slot (· == 3))

/-- FSYNC_PULSE_END: the width count expires, and FSYNC_OUT is idle. -/
def execFsyncPulseEnd (s : State) : Host.Outcome State Fault Refusal :=
  match s.trd.pulseEnd with
  | none => .next s
  | some c => .next ((s.elapseTo c).onTrd fun t => { t with fsync := false, pulseEnd := none })

/-- GPIO_SET. -/
def execFireGpioSet (slot : Fin 256) (s : State) : Host.Outcome State Fault Refusal := .next (s.fireDue slot (· == 4))

/-- GPIO_CLR. -/
def execFireGpioClr (slot : Fin 256) (s : State) : Host.Outcome State Fault Refusal := .next (s.fireDue slot (· == 5))

/-- GPIO_TOGGLE. -/
def execFireGpioToggle (slot : Fin 256) (s : State) : Host.Outcome State Fault Refusal := .next (s.fireDue slot (· == 6))

/-- SNAPSHOT. -/
def execFireSnapshot (slot : Fin 256) (s : State) : Host.Outcome State Fault Refusal := .next (s.fireDue slot (· == 8))

/-- CAPTURE. -/
def execFireCapture (slot : Fin 256) (s : State) : Host.Outcome State Fault Refusal := .next (s.fireDue slot (· == 9))

/-- PF_MSIX. -/
def execFirePfMsix (slot : Fin 256) (s : State) : Host.Outcome State Fault Refusal := .next (s.fireDue slot (· == 0x10))

/-- CATCHUP_FIRE: the head of the queue fires, one per CCLK from CCLK a + 2 (R59, R60). -/
def execCatchupFire (s : State) : Host.Outcome State Fault Refusal :=
  let s0 := s.elapseTo s.trd.catchNext
  match s0.trd.catchq with
  | [] => .next s
  | d :: ds =>
    .next (((s0.onTrd fun t => { t with catchq := ds, catchNext := t.cclk + 1 }).fire d).bump Reg.TRD_CATCHUP_CNT)

/-! The raster. -/

/-- The level of FSYNC_OUT; it follows IDLE from the CCLK after a write (R837). -/
def State.fsyncPin (s : State) : Bool :=
  s.trd.fsyncFree && ((Reg.TRD_FSYNC_CTL_IDLE.get (s.inForce Reg.TRD_FSYNC_CTL) != 0) != s.trd.fsync)

/-- Count the pick that ends, unless it is the first after a restart (R830, Table 1.11). -/
def State.pickStat (s : State) : State :=
  let len := s.trd.now.cyc + 1
  if s.trd.restart then s
  else
    let lo := min len (s.fld Reg.TRD_PICK_STAT Reg.TRD_PICK_STAT_MIN)
    let hi := max (min len 4095) (s.fld Reg.TRD_PICK_STAT Reg.TRD_PICK_STAT_MAX)
    (s.setFld Reg.TRD_PICK_STAT Reg.TRD_PICK_STAT_MIN lo).setFld Reg.TRD_PICK_STAT Reg.TRD_PICK_STAT_MAX hi

/-- The stamp at the next pick boundary (R26, R27). -/
def State.nextPick (s : State) : Stamp :=
  let n := s.trd.now
  if n.pick < 63 then ⟨n.frame, n.line, n.pick + 1, 0⟩
  else if n.line + 1 < s.frameLines then ⟨n.frame, n.line + 1, 0, 0⟩
  else Stamp.frameStart (n.frame + 1)

/-- The slots whose next target a frame-abort skips (R58), as queue entries. -/
def State.skipped (s : State) (after_ : Nat) (newStart : Stamp) : List Due :=
  let first := Stamp.ofBits after_
  (s.trd.comps.filter fun e => !e.2.matched && !s.parked e.2 && e.2.target.atOrAfter first && !e.2.target.atOrAfter newStart).map fun e =>
    ⟨e.1, 0, e.2, some newStart⟩

/-- The next target of a repeating slot whose match is still on its way to its firing stands as soon as a frame-abort asks for it. -/
def State.aimMatched (s : State) : State :=
  s.onTrd fun t => { t with comps := t.comps.map fun e =>
    if e.2.matched && e.2.mode != SlotMode.once then (e.1, { e.2 with matched := false, target := s.nextPoint e.2 }) else e }

/-- The Treadle's part of a frame-abort in the present CCLK (R57 to R62, R830, R834): skipped slots join the catch-up queue and compare no
more until they have fired from it, so that it holds each slot once, and in the next CCLK frame f + 1 begins. -/
def State.cutFrame (u : State) : State :=
  let s := u.aimMatched
  let start := Stamp.frameStart (s.trd.now.frame + 1)
  let q := s.skipped (s.trd.now.bits + 1) start
  let s1 := s.onTrd fun t => { t with
    comps := t.comps.map fun e => if q.any fun d => d.slot == e.1 then (e.1, { e.2 with matched := true }) else e
    catchq := t.catchq ++ sortDue q
    catchNext := if t.catchq.isEmpty then t.cclk + 2 else t.catchNext
    restart := true
    prevLines := s.frameLines
    lineFix := .none
    dropNext := false
    realign := none
    abortWant := [] }
  s1.cclkBegins start

/-! References. -/

/-- The lock state (Table 1.9). -/
def State.lock (s : State) : Nat := s.fld Reg.TRD_STATUS Reg.TRD_STATUS_LOCK

def State.setLock (s : State) (x : Nat) : State := s.setFld Reg.TRD_STATUS Reg.TRD_STATUS_LOCK x

/-- Enter LOCKED once both conditions of R22 hold. -/
def State.tryLock (s : State) : State :=
  if s.trd.refUse = 1 ∧ s.lock ≠ 2 ∧ 16 ≤ s.trd.hsGood ∧ s.trd.vsOk = true then
    (s.onTrd fun t => { t with hsBad := 0, vsBad := 0, vsAge := 2 }).setLock 2
  else s

/-- Return to ACQUIRE (R832). -/
def State.reacquire (s : State) : State :=
  (s.onTrd fun t => { t with hsGood := 0, hsBad := 0, vsBad := 0, vsOk := false }).setLock 1

/-- Whether a transition of HSYNC_IN or VSYNC_IN to a level is its leading edge, by the polarity in force (Table 1.8). -/
def State.leadingEdge (s : State) (pol : Field) (level : Bool) : Bool := level == (pol.get (s.inForce Reg.TRD_CTL) == 0)

/-- A run of consecutive lines, `age` lines after the last line with an edge: the spec does not say what a line without an edge does to a
run, nor what a second edge in a line does; here the first breaks the run and the second adds nothing (DESIGN CHOICE, log 128). -/
def runOf (age n : Nat) : Nat := if age = 0 then n else if age = 1 then n + 1 else 1

/-- HSYNC_IN_EDGE: the pin changes its level; a leading edge is captured, and under house sync the phase error of its line counts towards lock or
its loss (R22, R41, R831, R832). -/
def execHsyncInEdge (belowPick : Bool) (s : State) : Host.Outcome State Fault Refusal :=
  let s : State := { s with boot := { s.boot with hsyncIn := !s.boot.hsyncIn } }
  if !s.leadingEdge Reg.TRD_CTL_HS_POL s.boot.hsyncIn then .next s
  else
  let s1 := s.wrStamp Reg.TRD_HS_CAP_LO Reg.TRD_HS_CAP_HI s.trd.now
  if s.trd.refUse ≠ 1 then .next s1
  else
    let s2 := s1.onTrd fun t => { t with
      hsGood := if belowPick then runOf t.hsAge t.hsGood else 0
      hsBad := if belowPick then 0 else runOf t.hsAge t.hsBad
      hsAge := 0 }
    .next (if s2.lock = 2 ∧ 16 ≤ s2.trd.hsBad then s2.reacquire else s2.tryLock)

/-- One frame's correction by a line, for a phase `d` (R26). Line V_TOTAL - 1 cannot be dropped once it has begun: then the next frame
drops its own. -/
def State.fixLine (s : State) (d : Nat) : State :=
  let v := s.trd.timing.vTotal
  s.onTrd fun t =>
    if d ≤ v / 2 then { t with lineFix := .append, dropNext := false }
    else if t.now.line + 1 < v then { t with lineFix := .drop, dropNext := false }
    else { t with lineFix := if t.now.line < v then .none else t.lineFix, dropNext := true }

/-- TRD_CTL.REALIGN as it is in force (R833). -/
def State.realigns (s : State) : Bool := Reg.TRD_CTL_REALIGN.get (s.inForce Reg.TRD_CTL) != 0

/-- Correct the vertical phase after an edge on a wrong line (R25, R26). -/
def State.correctPhase (s : State) : State :=
  let v := s.trd.timing.vTotal
  let want := s.fld Reg.TRD_VS_LINE Reg.TRD_VS_LINE_LINE
  if s.realigns then s.onTrd fun t => { t with realign := some (v - want) }
  else s.fixLine ((s.trd.now.line + v - want % v) % v)

/-- VSYNC_IN_EDGE: the pin changes its level; a leading edge is captured, and under house sync one on TRD_VS_LINE completes lock, one on another line
is corrected, or while LOCKED ignored until the next frame's is wrong too (R22, R25, R26, R41, R832). -/
def execVsyncInEdge (s : State) : Host.Outcome State Fault Refusal :=
  let s : State := { s with boot := { s.boot with vsyncIn := !s.boot.vsyncIn } }
  if !s.leadingEdge Reg.TRD_CTL_VS_POL s.boot.vsyncIn then .next s
  else
  let s1 := s.wrStamp Reg.TRD_VS_CAP_LO Reg.TRD_VS_CAP_HI s.trd.now
  if s.trd.refUse ≠ 1 then .next s1
  else if s.trd.now.line = s.fld Reg.TRD_VS_LINE Reg.TRD_VS_LINE_LINE then
    .next ((s1.onTrd fun t => { t with vsOk := true, lineFix := .none, dropNext := false }).tryLock)
  else if s.lock = 2 then
    let s2 := s1.onTrd fun t => { t with vsBad := runOf t.vsAge t.vsBad, vsAge := 0 }
    .next (if 2 ≤ s2.trd.vsBad then s2.reacquire.correctPhase else s2)
  else .next (s1.onTrd fun t => { t with vsOk := false }).correctPhase

/-- The state of lock lost to an absent reference (R24). -/
def State.holdover (s : State) : State :=
  ((s.onTrd fun t => { t with hsGood := 0, hsBad := 0, vsBad := 0, vsOk := false }).setLock 3).setFld Reg.TRD_STATUS
    Reg.TRD_STATUS_REF_LOST 1 |>.bump Reg.TRD_REF_LOSS_CNT

/-- A write of TRD_CTL lands: a changed REF_SEL waits for the next frame start, and the other fields are in force from the next CCLK
(R833). -/
def State.landTrdCtl (s : State) (data : Word) : State :=
  let s1 := (s.keepInForce Reg.TRD_CTL).plainWrite Reg.TRD_CTL data
  if Reg.TRD_CTL_REF_SEL.get data = s.fld Reg.TRD_CTL Reg.TRD_CTL_REF_SEL then s1
  else s1.onTrd fun t => { t with refPend := some s.nextFrame }

/-- CYC_SATURATION: no pick boundary comes before CYC reaches 4,095 (R31). -/
def execCycSaturation (s : State) : Host.Outcome State Fault Refusal :=
  .next (State.elapse (4095 - s.trd.now.cyc) s)

/-! Reads and writes of Treadle registers. -/

/-- A read of TRD_NOW_LO by a master latches its TRD_NOW_HI (R64). -/
def State.readNow (s : State) (m : Master) : Word × State :=
  let n := s.trd.now
  (n.low, s.onTrd fun t => match m with
    | .pcie => { t with nowHiPcie := n.frame }
    | .sideband => { t with nowHiSb := n.frame })

/-- Clear the pick statistics (Table 1.11). -/
def State.clearPickStat (s : State) : State := s.wr Reg.TRD_PICK_STAT 0xFFF#32

/-- PICK_STAT_CLEAR. -/
def execPickStatClear (s : State) : Host.Outcome State Fault Refusal := .next s.clearPickStat

/-- A write of TRD_GPIO_OWN lands: a pin newly owned is an output driven low at once, and one given up is an input from the next CCLK
(R56). -/
def State.landGpioOwn (s : State) (own : BitVec 16) : State :=
  let old := BitVec.ofNat 16 (s.fld Reg.TRD_GPIO_OWN Reg.TRD_GPIO_OWN_OWN)
  (s.setFld Reg.TRD_GPIO_OWN Reg.TRD_GPIO_OWN_OWN own.toNat).onTrd fun t =>
    { t with gpioLevel := t.gpioLevel &&& ~~~(own &&& ~~~old), gpioOwned := t.gpioOwned ||| own }

/-- GPIO_OWN_CHANGE. -/
def execGpioOwnChange (own : BitVec 16) (s : State) : Host.Outcome State Fault Refusal := .next (s.landGpioOwn own)

/-- GPIO_EDGE: an edge of the selected pin and kind is captured, whoever drives the pin (R41, R836, Table 1.13). -/
def execGpioEdge (pin : Fin 16) (rising : Bool) (s : State) : Host.Outcome State Fault Refusal :=
  let e := s.fld Reg.TRD_GPIO_CAP_SEL Reg.TRD_GPIO_CAP_SEL_EDGE
  if s.fld Reg.TRD_GPIO_CAP_SEL Reg.TRD_GPIO_CAP_SEL_PIN = pin.val ∧ e.testBit (if rising then 0 else 1) = true then
    .next (s.wrStamp Reg.TRD_GPIO_CAP_LO Reg.TRD_GPIO_CAP_HI s.trd.now)
  else .next s

/-- A write of TRD_FSYNC_CTL lands: the pin follows IDLE from the next CCLK (R837). -/
def State.landFsyncCtl (s : State) (data : Word) : State := (s.keepInForce Reg.TRD_FSYNC_CTL).plainWrite Reg.TRD_FSYNC_CTL data

/-- FSYNC_IDLE_WRITE. -/
def execFsyncIdleWrite (data : Word) (s : State) : Host.Outcome State Fault Refusal := .next (s.landFsyncCtl data)

end Sys2Proof.Machine
end

