-- ==== Sys2Proof/Machine/Image.lean ====
section
/-! DEFINITION. Start-up: RESET_N and the power detector (R227, R271, R800, R801), the boot steps (R65, R319, R335), the flash map and
the Glesil image (R80 to R95), the choice and verification of a slot (R96 to R102), and flash commands (R116). -/

namespace Sys2Proof.Machine

/-- Change start-up's part. -/
def State.onBoot (s : State) (f : Boot → Boot) : State := { s with boot := f s.boot }

/-! RESET_N. -/

/-- The looms as R271 numbers them: the usable fused-enabled looms in ascending order take logical numbers 0 upwards, usable
spares fill what is left, and the rest are spares. -/
def numberLooms (f : Fuses) (denied failed : Nat → Bool) : List Loom :=
  let usable := fun (p : Nat) => (f.enabled.contains p || f.spares.contains p) && !denied p && !failed p
  let named := (((List.range 34).filter fun p => usable p && f.enabled.contains p)
    ++ ((List.range 34).filter fun p => usable p && f.spares.contains p)).take 32
  (List.range 34).map fun p =>
    if named.contains p then { Loom.blank with state := .active, logical := named.findIdx (· == p) }
    else if !(f.enabled.contains p || f.spares.contains p) then { Loom.blank with state := .fusedOff }
    else if failed p then { Loom.blank with state := .retired, cause := 1 }
    else if denied p then { Loom.blank with state := .denied }
    else Loom.blank

/-! The flash. -/

/-- An erased or never written flash byte. -/
def State.flashByte (s : State) (a : Nat) : Byte := tblGet (fun _ => 0xFF#8) s.boot.flash a

def State.flashBytes (s : State) (a n : Nat) : List Byte := tblGetList (fun _ => 0xFF#8) s.boot.flash a n

/-- A little-endian number in flash. -/
def State.flashNat (s : State) (a n : Nat) : Nat := leNat (s.flashBytes a n)

/-- Store bytes in the flash. -/
def State.flashStore (s : State) (a : Nat) (d : List Byte) : State :=
  s.onBoot fun b => { b with flash := tblSetList (fun _ => 0xFF#8) b.flash a d }

/-- What a completed command leaves: the window read, 256 bytes programmed (a program clears bits, as NOR flash does), or a block
erased. What a failed program or erase leaves is not stated. -/
def State.flashEffect (s : State) (c : FlashCmd) (failed : Bool) : State :=
  let n := if c.op = 3 then 4096 else if c.op = 4 then 65536 else 256
  if c.op = 1 then
    (List.range 64).foldl (fun t k => t.wr (Reg.IMG_FL_DATA k) (BitVec.ofNat 32 (s.flashNat (c.addr + 4 * k) 4))) s
  else if failed then
    s.nextFree.2.flashStore c.addr ((List.range n).map fun i => Config.flashFailed s.free (c.addr + i))
  else if c.op = 2 then s.flashStore c.addr (((s.flashBytes c.addr 256).zip c.data).map fun x => x.1 &&& x.2)
  else s.onBoot fun b => { b with flash := b.flash.filter fun e => !(decide (c.addr ≤ e.1) && decide (e.1 < c.addr + n)) }

/-- A flash command that a reset cuts off: what a program or an erase in progress leaves is not stated (Table 2.14). -/
def State.cutFlash (s : State) : State :=
  match s.boot.flCmd with
  | some c => if c.op = 1 then s else s.flashEffect c true
  | none => s

/-! A reset of the whole device. -/

/-- Everything a reset of the whole device leaves: the queue of commands, what was sent, the fuses, the flash, the straps and the levels of
the sync pins are kept, but for what a flash command that is cut off leaves (R227); the factory power cap is the fused one (Table 2.13). -/
def State.restart (u : State) (bootMode : BitVec 3) (chipId : BitVec 4) (failed : Nat → Bool) : State :=
  let s := u.cutFlash
  let denied := fun (_ : Nat) => false
  let t : State := { State.reset with
    pending := s.pending
    free := s.free
    out := s.out
    looms := numberLooms s.boot.fuses denied failed
    jtag := s.jtag
    boot := { Boot.reset with
      fuses := s.boot.fuses
      flash := s.boot.flash
      thermtrip := s.boot.thermtrip
      bootMode := bootMode
      chipId := chipId
      hsyncIn := s.boot.hsyncIn
      vsyncIn := s.boot.vsyncIn } }
  if s.boot.fuses.wall then t else t.setFld Reg.PWR_LIMIT Reg.PWR_LIMIT_CAP_W 30

/-- The device is held in reset: every block is in its reset state (R227, R807). -/
def State.holdReset (s : State) (pin low : Bool) : State :=
  (s.restart s.boot.bootMode s.boot.chipId fun _ => false).onBoot fun b => { b with inReset := pin, powerLow := low }

/-- THERMTRIP_N is released, where it is asserted (R705). -/
def State.releaseTrip (s : State) : State :=
  if s.boot.thermtrip then (s.emit 0 (.thermtrip false)).onBoot fun b => { b with thermtrip := false } else s

/-- RESET_N_ASSERT: a pulse shorter than 100 ns is ignored (R801); RESET_N releases THERMTRIP_N (R705). -/
def execResetAssert (short : Bool) (s : State) : Host.Outcome State Fault Refusal :=
  .next (if short then s else s.releaseTrip.holdReset true s.boot.powerLow)

/-- RESET_N_RELEASE: unless the power detector still holds the device, it starts with the straps latched (R28, R72, R271, R803). -/
def execResetRelease (bootMode : BitVec 3) (chipId : BitVec 4) (bistFailed : List Nat) (s : State) :
    Host.Outcome State Fault Refusal :=
  .next (if s.boot.powerLow then s.onBoot fun b => { b with inReset := false }
    else s.restart bootMode chipId fun p => bistFailed.contains p)

/-- POWER_DETECT: the detector acts as RESET_N, but leaves THERMTRIP_N as it is (R705), and releases no sooner than RESET_N itself (R800). -/
def execPowerDetect (low : Bool) (bootMode : BitVec 3) (chipId : BitVec 4) (bistFailed : List Nat) (s : State) :
    Host.Outcome State Fault Refusal :=
  .next (if low then s.holdReset s.boot.inReset true
    else if s.boot.inReset then s.onBoot fun b => { b with powerLow := false }
    else if s.boot.powerLow then s.restart bootMode chipId fun p => bistFailed.contains p
    else s)

/-- THERMAL_TRIP: THERMTRIP_N asserts, CCLK and the pixel clock stop until a reset, and a flash command in progress is cut off (R705). -/
def execThermalTrip (s : State) : Host.Outcome State Fault Refusal :=
  .next ((s.emit 0 (.thermtrip true)).cutFlash.onBoot fun b => { b with tripped := true, thermtrip := true, flCmd := none })

/-- The device is held in reset, or its clocks have stopped. -/
def Boot.held (b : Boot) : Bool := b.inReset || b.powerLow || b.tripped

/-! Boot steps. -/

/-- The loader's state (Table 2.16). -/
def State.loadState (s : State) : Nat := s.fld Reg.IMG_STATUS Reg.IMG_STATUS_STATE

def State.setLoadState (s : State) (x : Nat) : State := s.setFld Reg.IMG_STATUS Reg.IMG_STATUS_STATE x

/-- The straps select TEST: nothing is done after the fuse read, and there is no raster (R73). -/
def Boot.test (b : Boot) : Bool := b.bootMode == 7#3

/-- FUSE_READ_DONE: in TEST mode the ROM stops here; the steering ticks run from now on (R65, R73, R673). -/
def execFuseReadDone (s : State) : Host.Outcome State Fault Refusal :=
  let s1 := { s with boot := { s.boot with fusesRead := true }, pwr := { s.pwr with steerAt := s.trd.time + 10 * usTime } }
  .next (if s.boot.bootMode = 7#3 then s1.setLoadState 7 else s1)

/-- SRAM_ZEROED: every on-chip SRAM reads as zero or invalid, and the flash probe begins (R65, R73, R319). -/
def execSramZeroed (s : State) : Host.Outcome State Fault Refusal :=
  if s.boot.test then .next s
  else
  let s1 := (s.onMem fun m => { m with
    wmap := []
    dram := []
    bad := []
    spool := []
    leaving := []
    mshrs := []
    heldMiss := []
    check := []
    l1 := []
    wb := []
    tlb := [] }).onBoot fun b => { b with sramZero := true }
  let s1 := { s1 with
    looms := s1.looms.map fun l => { l.wiped with firmware := false }
    pic := { s1.pic with sheds := [] }
    scn := { s1.scn with rows := [], lines := [] }
    kv := { s1.kv with tlb := [] }
    slv := { s1.slv with strips := [], maps := [] } }
  .next (if s.boot.fusesRead = true ∧ s.boot.bootMode ≠ 7#3 ∧ s.loadState = 0 then s1.setLoadState 1 else s1)

/-- DRAM_TRAINED: slots are numbered from now on, and the dies' density is known (R335, R341); TEST mode has stopped before it (R73). -/
def execDramTrained (wide mixed : Bool) (s : State) : Host.Outcome State Fault Refusal :=
  if s.boot.test then .next s
  else
  let s1 := ((s.setFld Reg.DMC_STATUS Reg.DMC_STATUS_TRAINED 1).setFld Reg.DMC_STATUS Reg.DMC_STATUS_DENSITY
    (if wide && !mixed then 1 else 0)).setFld Reg.DMC_STATUS Reg.DMC_STATUS_MIXED (if mixed then 1 else 0)
  .next (s1.onMem fun m => { m with
    slotZero := s1.trd.time
    channels := m.channels.map fun e => (e.1, { e.2 with slot := 0 }) })

/-! The flash port. -/

/-- Octal DTR is in use on the flash port. -/
def State.flashOctal (s : State) : Bool := s.bit Reg.IMG_STATUS Reg.IMG_STATUS_OCT

/-- A request goes out on the flash port, in the mode chosen at boot (R77, R78). -/
def State.flashReq (s : State) (r : FlashReq) : State := s.emit 0 (.flash s.flashOctal r)

/-! Pointer blocks (Table 2.4). -/

/-- The reason code of a pointer block (R83, Table 2.17); a SLOT that names no slot counts as an invalid layout. -/
def State.pbCode (s : State) (k : Nat) : Nat :=
  let b := s.flashBytes (0x1000 * k) 48
  if b.take 4 ≠ [0x47#8, 0x4C#8, 0x50#8, 0x42#8] then 1
  else if bytesAt b 4 2 ≠ 1 then 2
  else if bytesAt b 0x2C 4 ≠ crc32 (b.take 0x2C) then 3
  else if 1 < bytesAt b 0x0C 1 then 4
  else 0

def State.pbSeq (s : State) (k : Nat) : Nat := s.flashNat (0x1000 * k + 8) 4
def State.pbSlot (s : State) (k : Nat) : Nat := s.flashNat (0x1000 * k + 0x0C) 1

/-- Sequence number `a` is newer than `b` (R84). -/
def seqNewer (a b : Nat) : Bool :=
  let d := (a + 2 ^ 32 - b % 2 ^ 32) % 2 ^ 32
  decide (1 ≤ d ∧ d < 2 ^ 31)

/-- The pointer blocks are read and judged (R82, R83, R118). -/
def State.readPbs (s : State) (readOk : Bool) : State :=
  let u := (s.flashReq (.read 0 48)).flashReq (.read 0x1000 48)
  (u.setFld Reg.IMG_FAIL Reg.IMG_FAIL_PB0 (if readOk then s.pbCode 0 else 0xB)).setFld Reg.IMG_FAIL
    Reg.IMG_FAIL_PB1 (if readOk then s.pbCode 1 else 0xB)

/-- The pointer blocks that are valid, the newer first (R96); of two whose SEQ differ by exactly 2^31 neither is newer, the spec gives no
order, and block 0 comes first (DESIGN CHOICE, log 129). -/
def State.pbOrder (s : State) : List Nat :=
  let ok := fun (k : Nat) => s.fld Reg.IMG_FAIL (if k = 0 then Reg.IMG_FAIL_PB0 else Reg.IMG_FAIL_PB1) == 0
  if ok 0 && ok 1 then (if seqNewer (s.pbSeq 1) (s.pbSeq 0) then [1, 0] else [0, 1])
  else if ok 0 then [0] else if ok 1 then [1] else []

/-- The candidates in the order of R96: the slot each valid pointer block names, with that block, then each slot that none names. -/
def State.candidates (s : State) : List (Nat × Option Nat) :=
  let named := s.pbOrder.map fun k => (s.pbSlot k, some k)
  named ++ ([0, 1].filter fun k => !(named.any fun x => x.1 == k)).map fun k => (k, none)

/-! Slots (Tables 2.5 to 2.8). -/

/-- The first flash address of a slot (Table 2.3). -/
def slotBase (k : Nat) : Nat := if k = 0 then 0x00100000 else 0x08100000

/-- A section table entry (Table 2.6). -/
structure Section where
  type   : Nat
  offset : Nat
  length : Nat
  load   : Nat
  deriving DecidableEq, Repr

/-- A field of a slot's header. -/
def State.hdr (s : State) (slot off n : Nat) : Nat := s.flashNat (slotBase slot + off) n

/-- The section table of a slot. -/
def State.sections (s : State) (slot : Nat) : List Section :=
  let n := min 256 (s.hdr slot 0x1A 2)
  let base := slotBase slot + s.hdr slot 0x1C 4
  (List.range n).map fun i =>
    { type := s.flashNat (base + 32 * i) 2, offset := s.flashNat (base + 32 * i + 4) 4,
      length := s.flashNat (base + 32 * i + 8) 4, load := s.flashNat (base + 32 * i + 0x10) 8 }

/-- A section of the configuration class (Table 2.7). -/
def Section.isConfig (x : Section) : Bool := x.type == 1 || x.type == 2 || x.type == 3

/-- A section that loads into the image region. -/
def Section.loads (x : Section) : Bool := x.type == 3 || x.type == 0x10

/-- No two of some ranges, each a start and a length, overlap. -/
def apart : List (Nat × Nat) → Bool
  | [] => true
  | (a, n) :: t => (t.all fun x => decide (a + n ≤ x.1) || decide (x.1 + x.2 ≤ a) || n == 0 || x.2 == 0) && apart t

/-- The layout of a slot is valid (R80, R90). R90 does not name an IMAGE_LEN above R80's bound or a SECT_COUNT outside 1 to 256: they count as
an invalid layout here (DESIGN CHOICE, log 129). -/
def State.layoutOk (s : State) (slot : Nat) : Bool :=
  let len := s.hdr slot 8 4
  let n := s.hdr slot 0x1A 2
  let secs := s.sections slot
  let ranges := (secs.map fun x => (x.offset, x.length)) ++
    [(s.hdr slot 0x1C 4, 32 * n), (s.hdr slot 0x20 4, 48 * n), (s.hdr slot 0x24 4, 204)]
  let cfg := ((secs.filter Section.isConfig).map fun x => x.length).sum
  decide (len ≤ 0x07F00000 ∧ 1 ≤ n ∧ n ≤ 256) && (ranges.all fun r => decide (r.1 + r.2 ≤ len)) && apart ranges
    && apart ((secs.filter Section.loads).map fun x => (x.load, x.length))
    && s.hdr slot 0x28 4 == cfg && decide (cfg ≤ 4194304)

/-- The signed digest of a slot (R89). -/
def State.signedDigest (s : State) (slot : Nat) : List Byte :=
  let b := slotBase slot
  let n := min 256 (s.hdr slot 0x1A 2)
  sha384 (s.flashBytes b 256 ++ s.flashBytes (b + s.hdr slot 0x1C 4) (32 * n) ++ s.flashBytes (b + s.hdr slot 0x20 4) (48 * n))

/-- The signature of a slot verifies (R88); SIG_R and SIG_S are little-endian, as every multi-byte field is (R81). The spec gives a signature
block with another MAGIC no code of its own: its signature does not verify (DESIGN CHOICE, log 129). -/
def State.sigVerifies (s : State) (slot : Nat) : Bool :=
  let b := slotBase slot + s.hdr slot 0x24 4
  s.flashBytes b 4 == [0x47#8, 0x53#8, 0x49#8, 0x47#8] &&
    ecdsaVerify (s.flashBytes (b + 8) 97) (s.signedDigest slot) (s.flashNat (b + 0x6C) 48) (s.flashNat (b + 0x9C) 48)

/-- The public key's hash is the fused one (R98). -/
def State.keyMatches (s : State) (slot : Nat) : Bool :=
  sha384 (s.flashBytes (slotBase slot + s.hdr slot 0x24 4 + 8) 97) == s.boot.fuses.pkh

/-- A section's hash is right (R87). -/
def State.hashOk (s : State) (slot i : Nat) (x : Section) : Bool :=
  sha384 (s.flashBytes (slotBase slot + x.offset) x.length) ==
    s.flashBytes (slotBase slot + s.hdr slot 0x20 4 + 48 * i) 48

/-- The sections of a slot with their indices. -/
def State.indexed (s : State) (slot : Nat) : List (Nat × Section) := (s.sections slot).zipIdx.map fun x => (x.2, x.1)

/-- The reason code of a candidate (R90, R97 to R99, Table 2.17); 0 is accepted. The hash of a section of unknown type is checked too (R91). -/
def State.slotCode (s : State) (slot : Nat) (pb : Option Nat) (readOk : Bool) : Nat :=
  let b := slotBase slot
  let bit := if s.boot.fuses.wall then 1 else 0
  if !readOk then 0xB
  else if s.flashBytes b 4 ≠ [0x47#8, 0x4C#8, 0x53#8, 0x4C#8] then 1
  else if s.hdr slot 4 2 ≠ 1 ∨ s.hdr slot 6 2 ≠ 0x100 then 2
  else if !s.layoutOk slot then 4
  else if !(s.hdr slot 0x18 1).testBit bit then 5
  else if s.boot.fuses.step < s.hdr slot 0x19 1 then 6
  else if s.boot.fuses.sigEnf && !s.keyMatches slot then 7
  else if s.boot.fuses.sigEnf && !s.sigVerifies slot then 8
  else if (match pb with
    | some k => s.flashBytes (0x1000 * k + 0x14) 16 != (s.signedDigest slot).take 16
    | none => false) then 9
  else if !((s.indexed slot).all fun x => x.2.type == 0x10 || s.hashOk slot x.1 x.2) then 0xA
  else 0

/-- No candidate is left: the device runs on factory defaults, and no slot or pointer block is reported (R100, Tables 2.16 and 2.18). -/
def State.toFactory (s : State) : State :=
  let s1 := (s.setLoadState 6).setFld Reg.IMG_STATUS Reg.IMG_STATUS_PB_USED 3
  let s2 := [Reg.IMG_STATUS_SLOT, Reg.IMG_STATUS_ORPHAN, Reg.IMG_STATUS_SIG_OK].foldl (fun t f => t.setFld Reg.IMG_STATUS f 0) s1
  (s2.wr Reg.IMG_SEQ 0#32).wr Reg.IMG_VERSION 0#32

/-- An SFDP table declares the xSPI profile 1.0 octal DTR read (R76): one of its parameter headers is that of the profile, whose
identifier JEDEC JESD216 gives as 0xFF05 (PRESUMED, log 130). -/
def sfdpOctal (t : List Byte) : Bool :=
  t.take 4 == [0x53#8, 0x46#8, 0x44#8, 0x50#8] &&
    (List.range (bytesAt t 6 1 + 1)).any fun i => bytesAt t (8 + 8 * i) 1 == 0x05 && bytesAt t (15 + 8 * i) 1 == 0xFF

/-- The probe's requests: the part is reset and its SFDP table is read in single-lane mode, and where SFDP declares octal DTR the first 48
bytes of pointer block 0 are read in both modes (R75, R76). -/
def State.probeFlash (s : State) (sfdp : List Byte) : State :=
  let s1 := ((s.emit 0 (.flash false .resetEnable)).emit 0 (.flash false .reset)).emit 0 (.flash false .sfdp)
  if sfdpOctal sfdp then (s1.emit 0 (.flash true (.read 0 48))).emit 0 (.flash false (.read 0 48)) else s1

/-- FLASH_PROBE: with the SFDP table and the 48 octal bytes that the part answers, the mode of the flash is chosen, and the pointer blocks
are read unless no slot is (R73, R75 to R78, R82, R83, R118). -/
def execFlashProbe (answer : FlashAnswer) (readOk : Bool) (s : State) : Host.Outcome State Fault Refusal :=
  if s.loadState ≠ 1 then .next s
  else
    let skip := s.boot.bootMode == 1#3
    let oct := !skip && readOk && sfdpOctal answer.sfdp && answer.octal == s.flashBytes 0 48
    let s1 := (if skip then s else s.probeFlash answer.sfdp).setFld Reg.IMG_STATUS Reg.IMG_STATUS_OCT (if oct then 1 else 0)
    .next (if s.boot.bootMode = 2#3 then s1.toFactory else (s1.readPbs readOk).setLoadState 2)

/-- A candidate is accepted (R97, R101, Table 2.16). -/
def State.acceptSlot (s : State) (slot : Nat) (pb : Option Nat) : State :=
  let s1 := (s.onBoot fun b => { b with slot := some slot, netNext := 0, networks := [], loaded := false }).setLoadState 3
  let s2 := (s1.setFld Reg.IMG_STATUS Reg.IMG_STATUS_SLOT slot).setFld Reg.IMG_STATUS Reg.IMG_STATUS_PB_USED (pb.getD 2)
  let s3 := (s2.setFld Reg.IMG_STATUS Reg.IMG_STATUS_ORPHAN (if pb.isNone then 1 else 0)).setFld Reg.IMG_STATUS
    Reg.IMG_STATUS_SIG_OK (if s.sigVerifies slot then 1 else 0)
  (s3.wr Reg.IMG_SEQ (BitVec.ofNat 32 (match pb with
    | some k => s.pbSeq k
    | none => 0))).wr Reg.IMG_VERSION (BitVec.ofNat 32 (s.hdr slot 0x0C 4))

/-- What the loader reads of a candidate: its header, and of one whose header and layout pass its tables, its signature block and its
configuration sections (R85 to R91, R97). -/
def State.readSlot (s : State) (slot code : Nat) : State :=
  let b := slotBase slot
  let n := min 256 (s.hdr slot 0x1A 2)
  let s1 := s.flashReq (.read b 256)
  if code = 0xB ∨ code = 1 ∨ code = 2 ∨ code = 4 then s1
  else
    let areas := [(s.hdr slot 0x1C 4, 32 * n), (s.hdr slot 0x20 4, 48 * n), (s.hdr slot 0x24 4, 204)] ++
      ((s.sections slot).filter fun x => x.type != 0x10).map fun x => (x.offset, x.length)
    areas.foldl (fun t a => t.flashReq (.read (b + a.1) a.2)) s1

/-- SLOT_VERIFY: the next candidate in the order of R96 is verified; it is accepted, or the next one is tried, and with none left
the factory defaults run (R96 to R101, R118). -/
def execSlotVerify (readOk : Bool) (s : State) : Host.Outcome State Fault Refusal :=
  if s.loadState ≠ 2 then .next s
  else match s.candidates[s.boot.tried.length]? with
    | none => .next s.toFactory
    | some (slot, pb) =>
      let code := s.slotCode slot pb readOk
      let s1 := ((s.readSlot slot code).onBoot fun b => { b with tried := b.tried ++ [slot] }).setFld Reg.IMG_FAIL
        (if slot = 0 then Reg.IMG_FAIL_SLOT_A else Reg.IMG_FAIL_SLOT_B) code
      if code = 0 then .next (s1.acceptSlot slot pb)
      else if s.candidates.length ≤ s1.boot.tried.length then .next s1.toFactory
      else .next s1

/-! Networks. -/

/-- The NETWORK sections of the active slot with their indices. -/
def State.netSections (s : State) : List (Nat × Section) :=
  match s.boot.slot with
  | some k => (s.indexed k).filter fun x => x.2.type == 0x10
  | none => []

/-- The header of a NETWORK section (Table 2.11), when its magic is right. The spec does not say what a section with a good hash and another
MAGIC is: it is never used, and nothing is flagged or counted (DESIGN CHOICE, log 129). -/
def networkHeader (index load : Nat) (b : List Byte) : Option Network :=
  if b.take 4 = [0x47#8, 0x4E#8, 0x45#8, 0x54#8] then
    some { index := index, stage := bytesAt b 4 1, rung := bytesAt b 5 1, cut := bytesAt b 6 1, factor := bytesAt b 7 1,
           macCycles := bytesAt b 8 8, bytes := bytesAt b 0x10 8, weightOff := bytesAt b 0x20 4,
           weightLen := bytesAt b 0x24 4, addr := load }
  else none

/-- The networks that may be valid: loaded with a good hash, of a known stage, rung and factor, and the lowest section index of their
kind (R458, R459). -/
def State.validNets (s : State) : List Network :=
  let ok := fun (n : Network) => decide (1 ≤ n.stage) && decide (n.stage ≤ 5) && decide (n.rung ≤ 7) &&
    (n.stage != 2 || decide (1 ≤ n.factor) && decide (n.factor ≤ 4))
  let same := fun (a b : Network) => a.stage == b.stage && a.rung == b.rung && (a.stage != 2 || a.factor == b.factor)
  let l := s.boot.networks.filter ok
  l.filter fun n => !(l.any fun m => same m n && decide (m.index < n.index))

/-- The bits of the rungs of some networks. -/
def rungBits (l : List Network) : Nat := l.foldl (fun m n => m ||| 2 ^ n.rung) 0

/-- Report the valid rungs of every stage, for the factor in effect, and of every factor (R459, Table 8.10). BAD bits stay. -/
def State.reportNets (s : State) (factor : Nat) : State :=
  let of_ := fun (st f : Nat) => rungBits (s.validNets.filter fun n => n.stage == st && (st != 2 || n.factor == f))
  let s1 := [1, 2, 3, 4, 5].foldl (fun t st =>
    t.setFld (Reg.PIC_NET_VALID st) Reg.PIC_NET_VALID_RUNG (of_ st factor)) s
  [1, 2, 3, 4].foldl (fun t f => t.setFld (Reg.PIC_UPS_VALID f) Reg.PIC_UPS_VALID_RUNG (of_ 2 f)) s1

/-- A network whose hash failed is reported by its stage and rung, and by its factor (R102, R459). -/
def State.reportBad (s : State) (n : Network) : State :=
  let mark := fun (t : State) (off : Nat) =>
    t.setFld off Reg.PIC_NET_VALID_BAD (t.fld off Reg.PIC_NET_VALID_BAD ||| 2 ^ n.rung % 256)
  let s1 := if 1 ≤ n.stage ∧ n.stage ≤ 5 then mark s (Reg.PIC_NET_VALID n.stage) else s
  if n.stage = 2 ∧ 1 ≤ n.factor ∧ n.factor ≤ 4 then mark s1 (Reg.PIC_UPS_VALID n.factor) else s1

/-- The network load is done: the loader's state says so, and an admission starts; a result found before stays Tack-only (R69, R451,
Table 2.16). -/
def State.loadDone (s : State) : State :=
  ((s.setLoadState 5).onPic fun p => { p with next := p.next.map fun a => { a with tackOnly := true } }).setFld
    Reg.PIC_STATUS Reg.PIC_STATUS_ADMIT_BUSY 1

/-- What streams into DRAM of a section: its bytes, or free values where the flash could not be read. -/
def State.streamed (s : State) (slot : Nat) (x : Section) (readOk : Bool) : List Byte :=
  if readOk then s.flashBytes (slotBase slot + x.offset) x.length
  else (List.range x.length).map fun i => Config.flashFailed s.free (slotBase slot + x.offset + i)

/-- NETWORK_SECTION_LOADED: the next section streams into DRAM and its hash is checked (R102, R324). The spec does not name a section that
cannot be read: it counts as one whose hash fails (DESIGN CHOICE, log 129). -/
def execNetworkSectionLoaded (readOk : Bool) (s : State) : Host.Outcome State Fault Refusal :=
  if s.trained = false ∨ (s.loadState ≠ 3 ∧ s.loadState ≠ 4) then .next s
  else match s.netSections.drop s.boot.netNext, s.boot.slot with
    | (i, x) :: rest, some slot =>
      let bytes := s.streamed slot x readOk
      let good := readOk && s.hashOk slot i x
      let u := (if readOk then s else s.nextFree.2).flashReq (.read (slotBase slot + x.offset) x.length)
      let s1 := u.dramStore x.load bytes
      let s2 := s1.onBoot fun b => { b with
        netNext := b.netNext + 1
        networks := b.networks ++ (if good then (networkHeader i x.load bytes).toList else [])
        loaded := rest.isEmpty }
      let s3 := if good then s2.reportNets s2.pic.admitNow.factor
        else match networkHeader i x.load bytes with
          | some n => ((s2.setFld Reg.IMG_STATUS Reg.IMG_STATUS_NET_BAD 1).bump Reg.IMG_NET_BAD_CNT).reportBad n
          | none => (s2.setFld Reg.IMG_STATUS Reg.IMG_STATUS_NET_BAD 1).bump Reg.IMG_NET_BAD_CNT
      .next (if rest.isEmpty ∧ s3.loadState = 4 then s3.loadDone else s3)
    | _, _ => .next s

/-! Flash commands (R116, Table 2.19). -/

/-- The 256-byte data window. -/
def State.flWindow (s : State) : List Byte := (List.range 64).flatMap fun k => leBytes 4 (s.rd (Reg.IMG_FL_DATA k)).toNat

/-- A flash command is written: refused while the loader reads the flash, while another is under way, or at a misaligned
address; a device that is held takes none. -/
def State.flashCmd (s : State) (op : Nat) : State :=
  let a := (s.rd Reg.IMG_FL_ADDR).toNat
  let align := if op = 3 then 4096 else if op = 4 then 65536 else 256
  if s.boot.held then s
  else if (1 ≤ s.loadState ∧ s.loadState ≤ 4) ∨ s.boot.flCmd.isSome = true ∨ a % align ≠ 0 then
    s.setFld Reg.IMG_FL_STATUS Reg.IMG_FL_STATUS_REFUSED 1
  else
    let req : FlashReq := if op = 1 then .read a 256 else if op = 2 then .program a s.flWindow else .erase a align
    ((s.flashReq req).onBoot fun b => { b with flCmd := some { op := op, addr := a, data := s.flWindow } }).setFld Reg.IMG_FL_STATUS
      Reg.IMG_FL_STATUS_BUSY 1

/-- FLASH_READ. -/
def execFlashRead (s : State) : Host.Outcome State Fault Refusal := .next (s.flashCmd 1)

/-- FLASH_PROGRAM. -/
def execFlashProgram (s : State) : Host.Outcome State Fault Refusal := .next (s.flashCmd 2)

/-- FLASH_ERASE_4K. -/
def execFlashErase4k (s : State) : Host.Outcome State Fault Refusal := .next (s.flashCmd 3)

/-- FLASH_ERASE_64K. -/
def execFlashErase64k (s : State) : Host.Outcome State Fault Refusal := .next (s.flashCmd 4)

/-- FLASH_COMMAND_DONE: after a patrol unit that runs, which comes first (Table 12.9), the command's effect stands, BUSY clears, and a failure is reported (R111, Table 2.19). -/
def execFlashCommandDone (failed : Bool) (s : State) : Host.Outcome State Fault Refusal :=
  match s.boot.flCmd with
  | none => .next s
  | some c =>
    let s1 := (s.flashEffect c failed).onBoot fun b => { b with flCmd := none }
    let s2 := s1.setFld Reg.IMG_FL_STATUS Reg.IMG_FL_STATUS_BUSY 0
    .next (if s.pwr.patrol.isSome then s else if failed ∧ c.op ≠ 1 then s2.setFld Reg.IMG_FL_STATUS Reg.IMG_FL_STATUS_ERROR 1 else s2)

end Sys2Proof.Machine
end

