-- ==== Sys2Proof/Machine/Ladder.lean ====
section
/-! DEFINITION. The throttle ladder (R697 to R704), the choice of the operating point (R677, R678, R712) and the engagement of the clock
stretcher (R685). -/

namespace Sys2Proof.Machine

/-- Change power and health. -/
def State.onPwr (s : State) (f : Pwr → Pwr) : State := { s with pwr := f s.pwr }

/-- The tenant pool of R206 without throttling, in ascending logical number. -/
def State.fullPool (s : State) : List Nat :=
  (List.range 32).filter fun l => match s.physOf l with
    | some p => !(s.loom p).raster
    | none => false

/-- Looms a step takes; 0 is treated as 1. -/
def State.stepLooms (s : State) : Nat := min 32 (orElse0 (s.fld Reg.PWR_THR_CFG Reg.PWR_THR_CFG_STEP) 1)

/-- n of Table 12.5. -/
def State.ladderN (s : State) : Nat := ceilDiv s.fullPool.length s.stepLooms

/-- The tenant allowance A at the ladder's position; from n on it is 0. -/
def State.allowance (s : State) : Nat := s.fullPool.length - s.pwr.ladder * s.stepLooms

/-- The operating point the ladder asks for (Table 12.5). -/
def State.ladderOp (s : State) : Nat := min 2 (s.pwr.ladder - (s.pwr.ladderN + 1))

/-- The point chosen now: the ladder's, and P2 during Panel Replay ACTIVE with DEPTH 1 (R712). -/
def State.wantedOp (s : State) : Nat :=
  if s.fld Reg.SCN_PR_STATUS Reg.SCN_PR_STATUS_STATE = 2 ∧ s.bit Reg.PWR_PR_CFG Reg.PWR_PR_CFG_DEPTH = true then 2 else s.ladderOp

/-- op_t takes the point chosen; a higher one is pending until the rail allows it (R677, R678). -/
def State.retarget (s : State) : State :=
  let w := s.wantedOp
  (s.onPwr fun p => { p with target := w, upAt := if w = p.target then p.upAt else none }).setFld Reg.PWR_STATUS Reg.PWR_STATUS_OP_PEND
    (if w < s.fld Reg.PWR_STATUS Reg.PWR_STATUS_OP then 1 else 0)

/-- Wake the reserved looms once the point is the ladder's (R709, R713). -/
def State.wakeReserved (s : State) : State :=
  if s.scn.prWaking && (!s.bit Reg.PWR_PR_CFG Reg.PWR_PR_CFG_DEPTH || s.op == s.pwr.target) then
    s.switchOn ((List.range 34).filter fun p => (s.loom p).raster)
  else s

/-- The stretcher is forced, or held by the ladder (R685). -/
def State.stretchHeld (s : State) : Bool := s.bit Reg.PWR_STR_CFG Reg.PWR_STR_CFG_FORCE || decide (s.pwr.ladderN < s.pwr.ladder)

/-- The stretcher engages; an engagement is counted (R685, R686). -/
def State.engage (s : State) : State :=
  if s.bit Reg.PWR_STATUS Reg.PWR_STATUS_STR then s
  else (s.setFld Reg.PWR_STATUS Reg.PWR_STATUS_STR 1).bump Reg.PWR_STR_CNT

/-- A loom leaves the pool or returns to it (R697 to R699, R710): an idle one that leaves is gated. -/
def Loom.throttle (keep : List Nat) (l : Loom) : Loom :=
  if l.inService && !l.raster && !keep.contains l.logical then
    { l with leaving := true, gated := l.gated || l.work.isNone, owner := if l.work.isNone then .nobody else l.owner }
  else { l with leaving := false }

/-- The descriptors that run on leaving looms. -/
def State.leavingWork (s : State) : List (Nat × Nat) :=
  (s.looms.filterMap fun l => if l.leaving then l.work else none).eraseDups

/-- Stop what runs on leaving looms at the end of its tiles in progress, to re-execute as after a loom failure (R698). -/
def State.stopLeaving (s : State) : State :=
  s.leavingWork.foldl (fun t k => match t.desc? k.1 k.2 with
    | some d => t.stopAtTile d .reruns
    | none => t) s

/-- Apply the ladder's position to the pool, the stretcher and the point (Table 12.5). -/
def State.applyLadder (s : State) (hard : Bool) : State :=
  let keep := s.fullPool.take s.allowance
  let back := (List.range 34).filter fun p => (s.loom p).leaving && keep.contains (s.loom p).logical
  let s1 := (s.onLooms (Loom.throttle keep)).switchOn back
  let s2 := if hard then s1.stopLeaving else s1
  let s3 := (s2.setFld Reg.PWR_STATUS Reg.PWR_STATUS_POS s.pwr.ladder).setFld Reg.PWR_STATUS Reg.PWR_STATUS_ALLOW s.allowance
  (if s3.stretchHeld then s3.engage else s3).retarget

/-- The admission in effect lets the ladder take P1 (R702). -/
def State.p1Allowed (s : State) : Bool := s.bit Reg.PIC_ADMIT Reg.PIC_ADMIT_P1_OK || s.bit Reg.PIC_ADMIT Reg.PIC_ADMIT_TACK_ONLY

/-- The pool or the admission in effect has changed: the position is applied to the pool as it is now, and it returns to STRETCH when P1
is no longer allowed (R702, chapter 12, "Cases at the edge"). -/
def State.refreshLadder (s : State) : State :=
  let n := s.ladderN
  let old := s.pwr.ladderN
  let q := if s.pwr.ladder ≤ old then min s.pwr.ladder (n + 1) else n + (s.pwr.ladder - old)
  let q1 := if n + 1 < q ∧ s.p1Allowed = false then n + 1 else q
  (s.onPwr fun p => { p with ladder := q1, ladderN := n }).applyLadder false

/-- One step of the ladder to a position (R701, R704). -/
def State.ladderTo (s : State) (q : Nat) (hard : Bool) : State :=
  let s1 := (s.onPwr fun p => { p with ladder := q, ladderN := s.ladderN, release := 0, stepped := some s.trd.cclk }).setFld Reg.PWR_STATUS
    Reg.PWR_STATUS_HELD 0
  (if s.pwr.ladder < q then s1.bump Reg.PWR_STEP_CNT else s1).applyLadder hard

/-- A trip moves the ladder one position further, at most one step in one CCLK, and a hard one when any is hard (R700 to R703); `hot` for a
thermal trip at or above P2_TEMP. -/
def State.ladderTrip (s : State) (hard hot : Bool) : State :=
  let q := s.pwr.ladder
  let n := s.ladderN
  if s.pwr.stepped = some s.trd.cclk then (if hard then s.applyLadder true else s)
  else if q ≤ n then s.ladderTo (q + 1) hard
  else if q = n + 1 then
    (if s.p1Allowed then s.ladderTo (n + 2) hard else s.setFld Reg.PWR_STATUS Reg.PWR_STATUS_HELD 1)
  else if q = n + 2 ∧ hot = true then s.ladderTo (n + 3) hard
  else s

/-- A newly flagged phase: a hard step to the position at which A is 0, unless the ladder already stands there or further down (R691); in the CCLK of
another step it is the same step. -/
def State.phaseTrip (s : State) : State :=
  let n := s.ladderN
  if n ≤ s.pwr.ladder then s
  else if s.pwr.stepped = some s.trd.cclk then ((s.onPwr fun p => { p with ladder := n, ladderN := n }).applyLadder true)
  else s.ladderTo n true

end Sys2Proof.Machine
end

