-- ==== Sys2Proof/Machine/Intake.lean ====
section
/-! DEFINITION. Intake and selection: frame records (R413 to R422), the selection of A, B and the phase (R423 to R433, R850), the
raster stamps of the picture path (R438, R439, R443), and admission (R449 to R462). -/

namespace Sys2Proof.Machine

/-! Frame records (Tables 8.2 and 8.3). -/

def FrameRec.num (f : FrameRec) (off len : Nat) : Nat := bytesAt f.bytes off len
def FrameRec.flag (f : FrameRec) (k : Nat) : Bool := (f.num 2 2).testBit k
def FrameRec.pstamp (f : FrameRec) : Stamp := Stamp.ofBits (f.num 8 6)
def FrameRec.fmt (f : FrameRec) : Nat := f.num 0x0E 1
def FrameRec.mat (f : FrameRec) : Nat := f.num 0x0F 1
def FrameRec.width (f : FrameRec) : Nat := f.num 0x10 2
def FrameRec.height (f : FrameRec) : Nat := f.num 0x12 2
def FrameRec.luma (f : FrameRec) : Nat := f.num 0x20 8
def FrameRec.chroma (f : FrameRec) : Nat := f.num 0x28 8
def FrameRec.lumaStride (f : FrameRec) : Nat := f.num 0x30 4
def FrameRec.chromaStride (f : FrameRec) : Nat := f.num 0x34 4
def FrameRec.key (f : FrameRec) : Nat × Nat := (f.ring, f.seq)

/-- Bytes of a sample of a format: 8-bit formats are the odd codes. -/
def fmtBytes (fmt : Nat) : Nat := if fmt % 2 = 1 then 1 else 2

/-- Chroma pairs in a row, and rows of them, of a format (Table 8.3). -/
def chromaSize (fmt w h : Nat) : Nat × Nat :=
  match (fmt + 1) / 2 with
  | 1 => (w / 2, h / 2)
  | 2 => (w / 2, h)
  | _ => (w, h)

/-- Twice the bytes per input pixel, luma and chroma together (chapter 8, "Arithmetic"). -/
def pixelBytes2 (fmt : Nat) : Nat :=
  fmtBytes fmt * (match (fmt + 1) / 2 with
    | 1 => 3
    | 2 => 4
    | _ => 6)

/-- The shape of a record that R419 accepts. -/
def FrameRec.shapeOk (f : FrameRec) : Bool :=
  let n := fmtBytes f.fmt
  decide (1 ≤ f.fmt) && decide (f.fmt ≤ 6) && decide (f.mat ≤ 1) && f.width % 2 == 0 && f.height % 2 == 0 &&
    decide (64 ≤ f.width) && decide (64 ≤ f.height) && decide (f.width ≤ 7680) && decide (f.height ≤ 4320) &&
    f.luma % 128 == 0 && f.chroma % 128 == 0 && f.lumaStride % 128 == 0 && f.chromaStride % 128 == 0 &&
    decide (f.width * n ≤ f.lumaStride) && decide (2 * (chromaSize f.fmt f.width f.height).1 * n ≤ f.chromaStride)

/-- The status and DETAIL of the first check a record fails (Table 8.4). -/
def State.recordFault (s : State) (f : FrameRec) : Option (Nat × Nat) :=
  if f.num 0 2 ≠ 1 then some (0x31, 1)
  else if f.num 2 2 &&& 0xFF76 ≠ 0 ∨ 1024 ≤ f.num 0x14 2 ∨ f.num 0x16 2 ≠ 0 ∨ f.num 0x1C 4 ≠ 0 ∨ f.num 0x38 8 ≠ 0 then
    some (0x30, 1)
  else if f.flag 0 && s.ringTenant (f.num 0x14 2) != f.tenant then some (0x30, 3)
  else if (match s.pic.lastP with
    | some p => !f.pstamp.after p
    | none => false) then some (0x30, 4)
  else if !f.shapeOk then some (0x32, 0)
  else none

/-- A record's completion: its record is posted with a START and the release stamp as END (R419, R422). -/
def State.postFrame (s : State) (f : FrameRec) (status detail start : Nat) : State :=
  let data := recordBytes (f.num 4 4) f.seq status detail (f.seq / s.ringSize f.ring % 2 == 0) false false (min 255 f.uses)
    f.ring start s.trd.now.bits
  s.postRecord f.ring f.seq f.tenant status data (f.flag 7) (f.flag 3) true

/-- Take a record out of the FIFO and complete it (R421, R422). -/
def State.releaseFrame (s : State) (f : FrameRec) (status : Nat) : State :=
  let s1 := s.onPic fun p => { p with fifo := p.fifo.filter fun x => x.key != f.key }
  let start := match f.first with
    | some t => t.bits
    | none => s.trd.now.bits
  let s2 := if f.uses = 0 then s1.bump Reg.PIC_SKIP_CNT else s1
  s2.postFrame f status 0 start

/-- FRAME_RECORD: the read of the intake ring's next slot completes; the record is checked and enters the FIFO, or completes at once
(R185 to R187, R414, R416, R419). -/
def execFrameRecord (ring : Fin 1024) (ok : Bool) (bytes : List Byte) (s : State) : Host.Outcome State Fault Refusal :=
  let r := s.ring ring
  if r.reads = 0 ∨ s.isIntake ring = false then .next s
  else
    let s1 := s.setRing ring { r with reads := r.reads - 1 }
    if r.err then .next s1
    else if !ok then .next (s1.fetchError ring)
    else
      let f : FrameRec :=
        { ring := ring, seq := (s1.rd (Reg.QRG_FETCH_SEQ ring)).toNat, tenant := s1.ringTenant ring, bytes := bytes.take 64,
          uses := 0, first := none, darned := false, passed := false, status := 0 }
      let s2 := s1.advanceHead ring
      .next (match s2.recordFault f with
        | some (st, k) => s2.nextFree.2.postFrame f st k (Config.undispatchedStart s2.free % 2 ^ 48)
        | none => s2.onPic fun p => { p with fifo := p.fifo ++ [f], lastP := some f.pstamp })

/-- A record is eligible in this CCLK (R420). -/
def State.frameEligible (s : State) (f : FrameRec) : Bool :=
  !f.flag 0 || seqAtOrAfter (s.doneSeq (f.num 0x14 2 % 1024)) (f.num 0x18 4)

/-- The record of a key. -/
def State.frame? (s : State) (k : Option (Nat × Nat)) : Option FrameRec :=
  match k with
  | some k => s.pic.fifo.find? fun f => f.key == k
  | none => none

/-- Change the record of a key. -/
def State.onFrame (s : State) (k : Option (Nat × Nat)) (g : FrameRec → FrameRec) : State :=
  s.onPic fun p => { p with fifo := p.fifo.map fun f => if some f.key = k then g f else f }

/-! Stamps of the picture path. -/

/-- Picks from stamp `b` to stamp `a` in the arithmetic of R850. -/
def State.picksBetween (s : State) (a b : Stamp) : Int :=
  let d : Int := ((a.frame + 65536 - b.frame % 65536) % 65536 : Nat)
  let df : Int := if d < 32768 then d else d - 65536
  df * (s.trd.timing.vTotal * 64 : Nat) + ((a.line : Int) - b.line) * 64 + ((a.pick : Int) - b.pick)

/-- The stamp of a line of a frame where a negative line is of the frame before (R439, R612). -/
def State.lineStamp (s : State) (frame : Nat) (line : Int) : Stamp :=
  if line < 0 then ⟨(frame + 65535) % 65536, (s.trd.timing.vTotal + line).toNat, 0, 0⟩ else ⟨frame % 65536, line.toNat, 0, 0⟩

/-- Sheds of a frame (R438). -/
def State.shedCount (s : State) : Nat := (s.trd.timing.vActive + 15) / 16

/-- A shed's launch and deadline stamps (R439). -/
def State.launchStamp (s : State) (frame i : Nat) : Stamp := s.lineStamp frame (16 * i - 48)
def State.deadlineStamp (s : State) (frame i : Nat) : Stamp := s.lineStamp frame (16 * i - 2)

/-- The present CCLK lies in pick 0 of a line. -/
def State.atLine (s : State) (t : Stamp) : Bool :=
  s.trd.now.frame == t.frame && s.trd.now.line == t.line && s.trd.now.pick == 0

/-! Up-scale geometry (R432, R433). -/

/-- The destination size in use; a field of 0 stands for the active extent. -/
def State.dstSize (s : State) : Nat × Nat :=
  (orElse0 (Reg.PIC_DST_SIZE_W.get s.pic.admitNow.dstSize) s.trd.timing.hActive,
   orElse0 (Reg.PIC_DST_SIZE_H.get s.pic.admitNow.dstSize) s.trd.timing.vActive)

/-- The integer factor N for a destination and an input size. -/
def factorOf (dst : Nat × Nat) (w h : Nat) : Nat :=
  if w = 0 ∨ h = 0 then 1 else max 1 (max ((dst.1 + w - 1) / w) ((dst.2 + h - 1) / h))

/-- A record is usable. -/
def State.usable (s : State) (f : FrameRec) : Bool :=
  let d := s.dstSize
  let n := factorOf d f.width f.height
  decide (f.width ≤ 2 * d.1) && decide (d.1 ≤ 4 * f.width) && decide (f.height ≤ 2 * d.2) && decide (d.2 ≤ 4 * f.height) &&
    decide (n * f.width ≤ 2 * d.1) && decide (n * f.height ≤ 2 * d.2)

/-! Networks and admission. -/

/-- The network of a stage at a level for a factor (R458). -/
def State.netAt (s : State) (stage level factor : Nat) : Option Network :=
  let l := s.validNets.filter fun n => n.stage == stage && (stage != 2 || n.factor == factor)
  let lowest := fun (b : Option Network) (n : Network) => match b with
    | some m => if n.rung < m.rung then some n else b
    | none => some n
  let highest := fun (b : Option Network) (n : Network) => match b with
    | some m => if m.rung < n.rung then some n else b
    | none => some n
  match (l.filter fun n => decide (level ≤ n.rung)).foldl lowest none with
  | some n => some n
  | none => l.foldl highest none

/-- The networks a level uses under a PIC_CFG (R458, R462). -/
def State.levelNets (s : State) (cfg : Word) (level factor : Nat) : List Network :=
  let opt := fun (on : Bool) (st : Nat) => if on then (s.netAt st level factor).toList else []
  let region := opt (Reg.PIC_CFG_RGN_EN.get cfg == 1) 4 ++ opt (Reg.PIC_CFG_RGN_EN.get cfg == 1) 5
  opt (Reg.PIC_CFG_DN_EN.get cfg == 1) 1 ++ opt true 2 ++ opt (Reg.PIC_CFG_RT_EN.get cfg == 1) 3
    ++ (if region.length = 2 then region else [])

/-- RES_LOOMS as its field treats it (Table 8.10). -/
def resLooms (cfg : Word) : Nat :=
  let r := Reg.PIC_CFG_RES_LOOMS.get cfg
  if r = 0 then 0 else min 24 (max 8 r)

/-- The valid logical looms, ascending. -/
def State.validLooms (s : State) : List Nat := (List.range 32).filter fun l => (s.physOf l).isSome

/-- The longest run of CCLK of the shortest pick at a CCLK rate in Hz: p_min (R454). -/
def pMin (t : Timing) (hz : Nat) : Nat :=
  t.hTotal / 64 * hz * 1000 / max 1 (t.hTotal * t.vTotal * t.refresh)

/-- cap(P) (R454). -/
def State.capAt (s : State) (hz : Nat) : Nat := 1024 * pMin s.trd.timing hz

/-- R_slot (R456): t_pick in units of 67.5 ns, with the pixel clock in mHz times 1,000. -/
def State.rSlot (s : State) : Nat :=
  let t := s.trd.timing
  s.rasSlots * 1536 * 7 * (t.hTotal / 64) * 1000 * 10000000000 / max 1 (675 * 8 * (t.hTotal * t.vTotal * t.refresh))

/-- Q (R456). -/
def State.queueBytes (s : State) : Nat :=
  let r := s.bucketRate .raster
  if r = 0 then s.rSlot else min r s.rSlot

/-- T, the Tack scaler's bytes per shed (R456). -/
def State.tackBytes (s : State) (dst : Nat × Nat) : Nat :=
  let f := s.frame? s.pic.sel.recA
  let w := match f with
    | some f => f.width
    | none => 3840
  let h := match f with
    | some f => f.height
    | none => 2160
  let c := match f with
    | some f => f.fmt
    | none => 2
  ((16 * h + dst.2 - 1) / max 1 dst.2 + 4) * w * pixelBytes2 c / 2

/-- The line buffer beyond the shed slots (R447). -/
def State.haloRoom (s : State) : Nat := 8388608 - 8 * (16 * s.trd.timing.hActive * 4)

/-- The factor admission works with: that of the selected A, else that of 3840 × 2160. -/
def State.factorNow (s : State) (dst : Nat × Nat) : Nat :=
  match s.frame? s.pic.sel.recA with
  | some f => factorOf dst f.width f.height
  | none => factorOf dst 3840 2160

/-- The checks of one level (R453 to R457) on the registers as they stand. -/
def State.checkLevel (s : State) (level : Nat) : Admission :=
  let cfg := s.rd Reg.PIC_CFG
  let size := s.rd Reg.PIC_DST_SIZE
  let dst := (orElse0 (Reg.PIC_DST_SIZE_W.get size) s.trd.timing.hActive, orElse0 (Reg.PIC_DST_SIZE_H.get size) s.trd.timing.vActive)
  let n := s.factorNow dst
  let nets := s.levelNets cfg level n
  let r := min (resLooms cfg) s.validLooms.length
  let c := (nets.map fun x => x.macCycles).sum
  let need := (c + r - 1) / max 1 r + 240
  let bytes := (nets.map fun x => x.bytes).sum + s.tackBytes dst
  let p0 := s.capAt 1400000000
  let p1 := s.capAt 1100000000
  { level := level, tackOnly := false, p0Ok := decide (9 * need ≤ 8 * p0), p1Ok := decide (9 * need ≤ 8 * p1),
    bytesOk := decide (9 * bytes ≤ 8 * (1024 * s.queueBytes)),
    lbOk := decide (((nets.filter fun x => x.cut == 0).map fun x => Config.haloBytes x.index).sum ≤ s.haloRoom),
    looms := r, factor := n, need := need, capP0 := p0, capP1 := p1, bytesNeed := bytes, bytesCap := 1024 * s.queueBytes,
    cfg := cfg, dstPos := s.rd Reg.PIC_DST_POS, dstSize := size, rtDelay := s.rd Reg.PIC_RT_DELAY }

/-- A level passes every check (R455 to R457). -/
def Admission.passes (a : Admission) : Bool := a.p0Ok && a.p1Ok && a.bytesOk && a.lbOk

/-- Try levels upwards to 7; `fuel` counts the levels left (R460). -/
def State.tryLevels (s : State) : Nat → Nat → Admission
  | 0, l => { s.checkLevel l with tackOnly := true }
  | fuel + 1, l => if (s.checkLevel l).passes then s.checkLevel l else s.tryLevels fuel (l + 1)

/-- The result of an admission (R460, R461). -/
def State.admission (s : State) : Admission :=
  let first := s.fld Reg.PIC_CFG Reg.PIC_CFG_LADDER_MIN
  let a := s.tryLevels (7 - first) first
  let a7 := if a.tackOnly then { s.checkLevel 7 with tackOnly := !(s.checkLevel 7).passes } else a
  if resLooms a7.cfg = 0 ∨ s.validLooms.length < 8 ∨ (s.netAt 2 0 a7.factor).isNone then { a7 with tackOnly := true } else a7

/-- Start an admission (R451). -/
def State.startAdmission (s : State) : State := s.setFld Reg.PIC_STATUS Reg.PIC_STATUS_ADMIT_BUSY 1

/-- A write of PIC_CFG lands. -/
def State.landPicCfg (s : State) (data : Word) : State :=
  let s1 := s.plainWrite Reg.PIC_CFG data
  if Reg.PIC_CFG_READMIT.get data = 1 then s1.startAdmission else s1

/-- READMIT: a write of 1 to PIC_CFG.READMIT, the other fields as they stand. -/
def execReadmit (s : State) : Host.Outcome State Fault Refusal :=
  .next (s.landPicCfg (Reg.PIC_CFG_READMIT.put (s.rd Reg.PIC_CFG) 1))

/-- ADMISSION_COMPLETE: the result stands ready for the next shed-0 launch; steps down from the level in effect are counted (R451, R452,
R460 to R462). -/
def execAdmissionComplete (s : State) : Host.Outcome State Fault Refusal :=
  if s.bit Reg.PIC_STATUS Reg.PIC_STATUS_ADMIT_BUSY then
    let a := s.admission
    let s1 := ((s.setFld Reg.PIC_STATUS Reg.PIC_STATUS_ADMIT_BUSY 0).bump Reg.PIC_ADMIT_CNT).bumps Reg.PIC_LADDER_CNT
      (a.level - s.pic.admitNow.level)
    .next (s1.onPic fun p => { p with next := some a })
  else .next s

/-- A loom joins the picture reservation: a tenant descriptor on it is stopped at the end of its tile in progress, and the loom is cleared for
the picture path once it is free (R290, R449, R450). -/
def State.joinReserve (s : State) (logical : Nat) : State :=
  match s.physOf logical with
  | none => s
  | some p =>
    if (s.loom p).raster then s
    else
      let s1 := (s.switchOn [p]).onLoom p fun l => { l with raster := true, idle := 0 }
      let s2 := match (s.loom p).work with
        | some (g, q) => match s.desc? g q with
          | some d => s1.stopAtTile d .reruns
          | none => s1
        | none => s1
      s2.clearReserved [logical]

/-- Reserve the highest-numbered valid logical looms for the picture path (R449). -/
def State.reserve (s : State) (n : Nat) : State :=
  let keep := s.validLooms.drop (s.validLooms.length - n)
  let s1 := s.onLooms fun l => if l.raster && !(l.inService && keep.contains l.logical) then { l with raster := false } else l
  keep.foldl State.joinReserve s1

/-- The result of an admission takes effect; until the network load is done the path stays Tack-only (R69, R110, R452, R702, Table
8.10). -/
def State.adopt (s : State) : State :=
  match s.pic.next with
  | none => s
  | some r =>
    let a := { r with tackOnly := r.tackOnly || s.loadState != 5 }
    let v := BitVec.ofNat 32 (a.level + (if a.tackOnly then 8 else 0) + (if a.p0Ok then 16 else 0) + (if a.p1Ok then 32 else 0)
      + (if a.bytesOk then 64 else 0) + (if a.lbOk then 128 else 0) + a.looms % 32 * 256 + a.factor % 8 * 65536)
    let w := fun (t : State) (x : Nat × Nat) => t.wr x.1 (BitVec.ofNat 32 x.2)
    let s1 := [(Reg.PIC_NEED, a.need), (Reg.PIC_CAP_P0, a.capP0), (Reg.PIC_CAP_P1, a.capP1), (Reg.PIC_BYTES_NEED, a.bytesNeed),
      (Reg.PIC_BYTES_CAP, a.bytesCap)].foldl w (s.wr Reg.PIC_ADMIT v)
    let s2 := (s1.setFld Reg.PIC_STATUS Reg.PIC_STATUS_ENHANCED (if a.tackOnly then 0 else 1)).onPic fun p =>
      { p with admitNow := a, next := none }
    ((s2.reserve (if resLooms a.cfg = 0 then 0 else a.looms)).reportNets a.factor).refreshLadder

/-- ENHANCED_SWITCH: with the network load done, the admitted result takes effect at a shed-0 launch stamp (R69, R452). -/
def execEnhancedSwitch (s : State) : Host.Outcome State Fault Refusal :=
  let f := s.nextFrame
  if s.loadState = 5 ∧ s.atLine (s.launchStamp f 0) = true then .next (State.elapse (s.toAction (s.launchStamp f 0)) s).adopt
  else .next s

/-! Selection. -/

/-- Re-time is on (R427). -/
def State.retiming (s : State) : Bool :=
  let a := s.pic.admitNow
  Reg.PIC_CFG_RT_EN.get a.cfg == 1 && !a.tackOnly && (s.netAt 3 a.level a.factor).isSome

/-- The eligible records that follow a record in ring order (R425, R430). -/
def State.followers (s : State) (a : FrameRec) : List FrameRec :=
  ((s.pic.fifo.dropWhile fun f => f.key != a.key).drop 1).filter s.frameEligible

/-- The newest eligible record at or before a point that lies some picks before P_f, else the A of the frame before; and the eligible records after
it (R424, R425). -/
def State.candidatesAt (s : State) (pf : Stamp) (back : Nat) : Option FrameRec × List FrameRec :=
  let old := s.pic.fifo.filter fun f => s.frameEligible f && decide ((back : Int) ≤ s.picksBetween pf f.pstamp)
  match old.getLast?, s.frame? s.pic.sel.recA with
  | some a, _ | none, some a => (some a, s.followers a)
  | none, none => (none, [])

/-- The phase of a point between two records (R426). -/
def State.phaseOf (s : State) (pf : Stamp) (back : Nat) (a b : FrameRec) : Nat :=
  let num := s.picksBetween pf a.pstamp - back
  let den := s.picksBetween b.pstamp a.pstamp
  if den ≤ 0 then 0 else (min 63 (max 0 (64 * num / den))).toNat

/-- What the rules of selection choose for frame `f`, and whether intake was late (R424 to R431). -/
def State.choose (s : State) (f : Nat) : Selection × Bool :=
  let pf := s.launchStamp f 0
  let prev := s.pic.sel
  let sel := fun (a b : Option (Nat × Nat)) (ph : Nat) (h : Bool) =>
    ({ frame := f, recA := a, recB := b, phase := ph, hold := h, miss := [] } : Selection)
  if s.retiming then
    let back := Reg.PIC_RT_DELAY_LINES.get s.pic.admitNow.rtDelay * 64
    match s.candidatesAt pf back with
    | (none, _) => (sel none none 0 false, false)
    | (some a, b :: _) => (sel (some a.key) (some b.key) (s.phaseOf pf back a b) false, false)
    | (some a, []) =>
      if prev.recA.isSome && prev.recB.isSome then (sel prev.recA prev.recB prev.phase true, true)
      else (sel (some a.key) none 0 false, false)
  else match s.candidatesAt pf 0 with
    | (none, _) => (sel none none 0 false, false)
    | (some a, later) => (sel (some a.key) none 0 false, some a.key == prev.recA && later.isEmpty)

/-- Choose, releasing with SHAPE each record that is not usable and would be chosen; `fuel` bounds the releases (R433). -/
def State.chooseUsable (s : State) (f : Nat) : Nat → State × Selection × Bool
  | 0 => (s, s.choose f)
  | fuel + 1 =>
    let c := s.choose f
    let bad := fun (k : Option (Nat × Nat)) => match s.frame? k with
      | some r => if s.usable r then none else some r
      | none => none
    match bad c.1.recA, bad c.1.recB with
    | some r, _ => (s.releaseFrame r 0x32).chooseUsable f fuel
    | none, some r => (s.releaseFrame r 0x32).chooseUsable f fuel
    | none, none => (s, c)

/-- The edges that face another chip whose strip of a record is not held (R752): both planes, at the edges that take strips. -/
def State.missingEdges (s : State) (k : Option (Nat × Nat)) : List Nat :=
  match s.frame? k with
  | none => []
  | some r => (List.range 4).filter fun e =>
    let n := if e % 2 = 0 then s.fld Reg.SLV_STRIP_CFG Reg.SLV_STRIP_CFG_VROWS
      else s.fld Reg.SLV_STRIP_CFG Reg.SLV_STRIP_CFG_HCOLS
    let held := fun (p : Nat) => s.slv.strips.any fun x => x.edge == e && x.pstamp == r.pstamp && x.plane == p
    s.fld Reg.SLV_STATUS Reg.SLV_STATUS_ROLE != 0 && s.fld (Reg.SLV_PORT e) Reg.SLV_PORT_STATE != 5 && decide (0 < n) && !(held 0 && held 1)

/-- A 10-bit sample of a plane of a record as its owner's memory holds it, with whether it comes darned: 8-bit samples are
multiplied by 4 (R418, R466, R664). A place that does not translate gives darned zeros (Table 7.6). -/
def State.sampleAt (s : State) (f : FrameRec) (plane x y : Nat) : Nat × Bool :=
  let n := fmtBytes f.fmt
  let va := if plane = 0 then f.luma + y * f.lumaStride + x * n else f.chroma + y * f.chromaStride + (2 * x + plane - 1) * n
  match s.vaPa 32 f.tenant va with
  | none => (0, true)
  | some pa => (if n = 1 then 4 * (s.memByte pa).toNat else s.memNat pa 2 % 1024, s.memPoison pa)

/-- The input signature of a record (R664): the CRC-32 over the luma of lines 0, 16, 32 and so on. -/
def State.inputSig (s : State) (k : Option (Nat × Nat)) : Nat :=
  match s.frame? k with
  | none => 0
  | some f => crc32 ((List.range ((f.height + 15) / 16)).flatMap fun j =>
      (List.range f.width).flatMap fun x => leBytes 2 (s.sampleAt f 0 x (16 * j)).1)

/-- Whether a change of A starts an admission (R451): the factor N, the WIDTH or the FMT changes; with no A before, against the input
admission assumes then (R456). -/
def State.newShape (s : State) (old new : Option (Nat × Nat)) : Bool :=
  match s.frame? old, s.frame? new with
  | some a, some b =>
    factorOf s.dstSize a.width a.height != factorOf s.dstSize b.width b.height || a.width != b.width || a.fmt != b.fmt
  | none, some b => factorOf s.dstSize 3840 2160 != factorOf s.dstSize b.width b.height || b.width != 3840 || b.fmt != 2
  | _, _ => false

/-- A box list that is complete at a shed-0 launch replaces the list in effect in the first frame whose A is no longer the record it was detected on;
`old` is the A of the frame before: where that too was another, the list is late (R435, R436). -/
def State.takeBoxes (s : State) (old new : Option (Nat × Nat)) : State :=
  match s.pic.boxNext with
  | none => s
  | some b =>
    if new = some b.rec_ then s
    else
      let s1 := s.onPic fun p => { p with boxes := some b, boxNext := none }
      if old = some b.rec_ then s1 else s1.bump Reg.PIC_LATE_LIST_CNT

/-- The region path runs at the level in effect (R462). -/
def State.regionOn (s : State) : Bool :=
  let a := s.pic.admitNow
  !a.tackOnly && (s.levelNets a.cfg a.level a.factor).any fun n => n.stage == 4

/-- Make the selection of frame `f` in the present CCLK, once (R423 to R433, R751, R752). -/
def State.select (s : State) (f : Nat) : State :=
  if s.pic.selected && s.pic.sel.frame == f then s
  else
    let s0 := s.adopt
    let old := s0.pic.sel.recA
    let r := s0.chooseUsable f 9
    let c := r.2.1
    let s1 := r.1.takeBoxes old c.recA
    let changed := s1.newShape old c.recA
    let miss := if c.hold then s1.pic.sel.miss else s1.missingEdges c.recA ++ s1.missingEdges c.recB
    let s2 := s1.onPic fun p => { p with
      sel := { c with miss := miss }
      selected := true
      detect := if s1.regionOn && c.recA != old then c.recA.map fun k => (f, k.1, k.2) else p.detect
      sigs := (p.sigs ++ [(f, s1.inputSig c.recA)]).drop (p.sigs.length - 2)
      fifo := p.fifo.map fun x => if (p.fifo.takeWhile fun y => some y.key != c.recA).any fun y => y.key == x.key
        then (if c.recA.isSome then { x with passed := true } else x) else x }
    let s3 := if changed then s2.startAdmission else s2
    let s4 := (if r.2.2 then s3.bump Reg.PIC_LATE_INTAKE_CNT else s3).bumps Reg.SLV_STRIP_MISS_CNT (if c.hold then 0 else miss.length)
    let seq := fun (k : Option (Nat × Nat)) (old : Word) => match k with
      | some k => BitVec.ofNat 32 k.2
      | none => old
    ((s4.wr Reg.PIC_SEL_A (seq c.recA (s4.rd Reg.PIC_SEL_A))).wr Reg.PIC_SEL_B (seq c.recB (s4.rd Reg.PIC_SEL_B))).wr
      Reg.PIC_SEL_PHASE (BitVec.ofNat 32 (c.phase + (if c.recB.isSome then 256 else 0) + (if c.hold then 512 else 0)))

/-- SELECTION: in the action CCLK of P_f, which is the launch stamp of shed 0 of the next frame (R36, R423, R443). -/
def execSelection (s : State) : Host.Outcome State Fault Refusal :=
  let f := s.nextFrame
  let p := s.launchStamp f 0
  if s.atLine p && !s.darkFrame f then .next ((State.elapse (s.toAction p) s).select f) else .next s

/-- RECORD_RELEASE: a record overtaken by a newer A is released once the deadline action of the last shed that read it has come
(R421, R422). -/
def execRecordRelease (ring : Fin 1024) (seq : Nat) (s : State) : Host.Outcome State Fault Refusal :=
  let k := some (ring.val, seq)
  match s.frame? k with
  | none => .next s
  | some f =>
    let mine := s.pic.sheds.filter fun x => x.recA == k || x.recB == k
    if f.passed && !(s.pic.sel.recA == k || s.pic.sel.recB == k) && mine.all fun x => s.trd.now.atOrAfter x.deadline then
      let s1 := State.elapse ((mine.map fun x => s.toAction x.deadline).foldl max 0) s
      .next (s1.releaseFrame f (if f.darned then 1 else 0))
    else .next s

end Sys2Proof.Machine
end

