-- ==== Sys2Proof/Machine/Nets.lean ====
section
/-! DEFINITION. The picture networks on a shed: the stages a shed runs (Table 8.1), banded and fused cutting (R444 to R446, R499 to R503), the halo
rows the line buffer keeps (R448, R502), the boxes a shed pastes (R437), the marks of failing looms (R275), and the weight chain (R402). -/

namespace Sys2Proof.Machine

/-! The destination. -/

/-- PIC_BLACK (R412). -/
def State.blackPixel (s : State) : Pixel :=
  { y := s.fld Reg.PIC_BLACK Reg.PIC_BLACK_Y, cb := s.fld Reg.PIC_BLACK Reg.PIC_BLACK_CB,
    cr := s.fld Reg.PIC_BLACK Reg.PIC_BLACK_CR, darn := false }

/-- The destination's column and line of a position of the active area, when it lies inside (R412). -/
def State.inDst (s : State) (x y : Nat) : Option (Nat × Nat) :=
  let d := s.dstSize
  let x0 := Reg.PIC_DST_POS_X.get s.pic.admitNow.dstPos
  let y0 := Reg.PIC_DST_POS_Y.get s.pic.admitNow.dstPos
  if x0 ≤ x ∧ x < x0 + d.1 ∧ y0 ≤ y ∧ y < y0 + d.2 then some (x - x0, y - y0) else none

/-- The active lines of a shed (R438). -/
def State.shedLines (s : State) (i : Nat) : List Nat :=
  (List.range 16).filterMap fun r => if 16 * i + r < s.trd.timing.vActive then some (16 * i + r) else none

/-- Whether two sheds are the same one. -/
def Shed.isAt (x : Shed) (frame i : Nat) : Bool := x.frame == frame && x.index == i

/-- The logical numbers the picture path reserves, ascending: the order of the weight chain (R402, R404). -/
def State.reserved (s : State) : List Nat :=
  (List.range 32).filter fun n => match s.physOf n with
    | some p => (s.loom p).raster
    | none => false

/-! Layers. -/

/-- A cell of a map: its value and its darn bit. -/
abbrev Cell := Nat × Bool

/-- h of a layer: the rows its window reaches to either side (R500). -/
def layerHalo (index i : Nat) : Nat := Config.netDilation index i * (Config.netKernel index i - 1) / 2

/-- D of a layer: what the layers above it reach (R501). -/
def layerReach (index i : Nat) : Nat :=
  ((List.range (Config.netLayers index)).map fun j => if i ≤ j then layerHalo index (j + 1) else 0).sum

/-- A cell at any position of a map of a width and a height: beyond an edge that faces another chip what its strip gives (R751), and else padded under
PAD_MODE, in the map's own coordinates (R503). -/
def padded (near : Bool) (w h : Nat) (beyond : Int → Int → Option Cell) (cell : Nat → Nat → Cell) (x y : Int) : Cell :=
  if 0 ≤ x ∧ x < w ∧ 0 ≤ y ∧ y < h then cell x.toNat y.toNat
  else if let some c := beyond x y then c
  else if near then cell (min (max 0 x) ((w : Int) - 1)).toNat (min (max 0 y) ((h : Int) - 1)).toNat
  else (0, false)

/-- The window of a cell in the layer below: its taps row by row (R499). -/
def layerWindow (index i w h : Nat) (beyond : Int → Int → Option Cell) (below : Nat → Nat → Cell) (x y : Nat) : List Cell :=
  let k := Config.netKernel index i
  let d := Config.netDilation index i
  let r : Int := layerHalo index i
  (List.range k).flatMap fun ky => (List.range k).map fun kx =>
    padded (Config.netPad index i == 1) w h beyond below ((x : Int) + d * kx - r) ((y : Int) + d * ky - r)

/-- A failing loom of the reservation makes this cell (R275). -/
def State.cellFails (s : State) (index i x y : Nat) : Bool :=
  match s.reserved with
  | [] => false
  | l :: ls => match s.physOf ((l :: ls).getD (Config.cellLoom index i x y % (ls.length + 1)) l) with
    | some p => (s.loom p).state == .failing
    | none => false

/-- One row of a layer: darned where a tap is, or where a failing loom makes it (R275, R397, R398). -/
def State.netRow (s : State) (index i w h : Nat) (beyond : Int → Int → Option Cell) (below : Nat → Nat → Cell) (y : Nat) : HaloRow :=
  { index := index, layer := i, row := y
    cells := (List.range w).map fun x =>
      let taps := layerWindow index i w h beyond below x y
      (Config.layerCell index i (taps.map fun t => t.1), (taps.any fun t => t.2) || s.cellFails index i x y) }

/-- A cell of some rows; one that was not written has its darn bit set (R448). -/
def State.rowCell (s : State) (rows : List HaloRow) (i x y : Nat) : Cell :=
  match rows.find? fun r => r.row == y with
  | some r => r.cells.getD x (0, true)
  | none => (Config.haloCell s.free i x y, true)

/-- The rows of the destination that active lines from one up to another hold. -/
def State.dstRows (s : State) (from_ to_ : Int) : List Nat :=
  (List.range s.dstSize.2).filter fun v =>
    let y : Int := ((v + Reg.PIC_DST_POS_Y.get s.pic.admitNow.dstPos : Nat) : Int)
    decide (from_ ≤ y ∧ y ≤ to_)

/-- The rows of a layer that a shed computes: banded, 16s + D to 16s + 15 + D, of shed 0 from the top on (R444, R501; DEDUCED, log 141); fused, its own
and D to either side, recomputed (R445, R500). -/
def State.netRows (s : State) (fused : Bool) (index i shed : Nat) : List Nat :=
  let d : Int := layerReach index i
  let at_ : Int := 16 * (shed : Int)
  s.dstRows (if fused then at_ - d else if shed = 0 then 0 else at_ + d) (at_ + 15 + d)

/-- The edge a position lies beyond, when it lies beyond one alone: 0 N, 1 E, 2 S and 3 W. -/
def edgeBeyond (w h : Nat) (x y : Int) : Option Nat :=
  if 0 ≤ x ∧ x < w then (if y < 0 then some 0 else if (h : Int) ≤ y then some 2 else none)
  else if 0 ≤ y ∧ y < h then (if x < 0 then some 3 else some 1)
  else none

/-- The strip of A at an edge, when the selection found it (R751, R752). -/
def State.edgeStrip (s : State) (e : Nat) : Option Strip :=
  match s.frame? s.pic.sel.recA with
  | none => none
  | some f => if s.pic.sel.miss.contains e then none else s.slv.strips.find? fun x => x.edge == e && x.pstamp == f.pstamp

/-- What the facing chip gives of a layer beyond the tile's edge (R751, R755, R757): at the E and W edges of a banded stage's layers the map strip of the
shed, elsewhere what is computed from the input strips; none is padded. DESIGN CHOICE (log 154): which flit brings a cell, and the cell itself, are free. -/
def State.beyond (s : State) (x : Shed) (n : Network) (i w h : Nat) (u v : Int) : Option Cell :=
  match edgeBeyond w h u v with
  | none => none
  | some e =>
    let darned :=
      if i ≠ 0 ∧ n.cut ≠ 1 ∧ e % 2 = 1 then
        (s.slv.maps.find? fun m => m.edge == e && m.shed == x.index && m.frame == x.frame % 256 && m.layer == i).map fun m => m.darned
      else (s.edgeStrip e).map fun m => m.darned
    darned.map fun d => (Config.beyondCell s.free n.index i u v, d.contains (Config.stripFlit n.index i u v))

/-- A stage of a shed on its input: the rows of its last layer, and the halo rows that a banded stage keeps for the next shed, the last 2h of each
layer below another (R444 to R446, R502). -/
def State.runStage (s : State) (n : Network) (shed : Shed) (kept : List HaloRow) (input : Nat → Nat → Cell) :
    (Nat → Nat → Cell) × List HaloRow :=
  let w := s.dstSize.1
  let h := s.dstSize.2
  (List.range (Config.netLayers n.index)).foldl (fun acc j =>
    let i := j + 1
    let own := (s.netRows (n.cut == 1) n.index i shed.index).map (s.netRow n.index i w h (s.beyond shed n j w h) acc.1)
    let above := kept.filter fun r => r.index == n.index && r.layer == i
    let last := if n.cut = 1 ∨ i = Config.netLayers n.index then [] else own.drop (own.length - 2 * layerHalo n.index (i + 1))
    (fun x y => s.rowCell (above ++ own) i x y, acc.2 ++ last)) (input, [])

/-- A stage's input: the output of the stage before on the shed's own rows, and what DRAM delivers on the others, darned where a list of rows
counted from the shed's first, with groups of eight columns, says (R446; DESIGN CHOICE, log 61). -/
def State.stageInput (s : State) (n : Network) (shed : Nat) (darned : List (Nat × Nat)) (before : Option (Nat → Nat → Cell)) (x y : Nat) : Cell :=
  let own := (s.dstRows (16 * (shed : Int)) (16 * (shed : Int) + 15)).contains y
  match before with
  | some f => if own then f x y else (Config.netInput s.free n.index x y, false)
  | none =>
    let line := y + Reg.PIC_DST_POS_Y.get s.pic.admitNow.dstPos
    (Config.netInput s.free n.index x y, darned.contains (line - 16 * shed, (x + Reg.PIC_DST_POS_X.get s.pic.admitNow.dstPos) / 8))

/-- The networks a shed runs in the order of Table 8.1, without the region path's. -/
def State.shedNets (s : State) : List Network :=
  (s.levelNets s.pic.admitNow.cfg s.pic.admitNow.level s.pic.admitNow.factor).filter fun n => decide (n.stage ≤ 3)

/-- The boxes a shed pastes: of the list in effect the first MAX_PER_SHED that intersect it, with their box indices (R437). -/
def State.shedBoxes (s : State) (shed : Nat) : List (Nat × Box) :=
  let rows := s.dstRows (16 * (shed : Int)) (16 * (shed : Int) + 15)
  let all : List (Nat × Box) := match s.pic.boxes with
    | some b => b.boxes.zipIdx.map fun x => (x.2, Box.ofBytes x.1)
    | none => []
  (all.filter fun b => rows.any fun v => (List.range s.dstSize.1).any fun u => b.2.covers u v).take
    (s.fld Reg.PIC_RGN_CFG Reg.PIC_RGN_CFG_MAX_PER_SHED)

/-- A cell after paste-back: of the boxes that cover it the lowest in the list wins (R437, R521, Table 0.6); a darned box darns what it covers. -/
def State.pastedCell (s : State) (boxes : List (Nat × Box)) (x y : Nat) (c : Cell) : Cell :=
  match boxes.find? fun b => b.2.covers x y with
  | some b => (Config.regionPixel s.free b.1 x y c.1, c.2 || b.2.darn)
  | none => c

/-- Give every pixel of a group of eight the group's darn mark (R448, R467). -/
def spreadDarn (l : List Pixel) : List Pixel :=
  l.zipIdx.map fun x => { x.1 with darn := ((l.drop (x.2 / 8 * 8)).take 8).any fun p => p.darn }

/-- What the networks make of a shed: its lines, PIC_BLACK outside the destination, and the halo rows it leaves; `darned` are the groups of its
input that DRAM delivered darned (R411, R412, R437, R444 to R448). -/
def State.runNets (s : State) (x : Shed) (darned : List (Nat × Nat)) : List (List Pixel) × List HaloRow :=
  let kept := match s.pic.sheds.find? fun y => y.isAt x.frame (x.index - 1) with
    | some y => if x.index = 0 ∨ y.late then [] else y.halo
    | none => []
  let done := s.shedNets.foldl (fun (acc : Option (Nat → Nat → Cell) × List HaloRow) n =>
    let r := s.runStage n x kept (s.stageInput n x.index darned acc.1)
    (some r.1, acc.2 ++ r.2)) (none, [])
  let boxes := if s.regionOn then s.shedBoxes x.index else []
  let lines := (s.shedLines x.index).map fun y => spreadDarn ((List.range s.trd.timing.hActive).map fun c =>
    match s.inDst c y, done.1 with
    | some (u, v), some f =>
      let p := s.pastedCell boxes u v (f u v)
      { y := p.1 % 1024, cb := p.1 / 1024 % 1024, cr := p.1 / 1048576 % 1024, darn := p.2 }
    | _, _ => s.blackPixel)
  (lines, done.2)

/-! The weight chain. -/

/-- The channels of a shed's networks on one reserved loom: each network's weights, the shared operand, in chain mode from the image region (R365,
R402, Table 2.11). -/
def State.openWeights (s : State) (rank logical : Nat) : State :=
  (s.shedNets.zipIdx.filter fun x => decide (x.2 < 16)).foldl (fun t x =>
    t.nextFree.2.setChan logical x.2 { Chan.idle with
      state := .run
      raster := true
      chain := true
      phys := true
      src := x.1.addr + x.1.weightOff
      rowBytes := ceilDiv x.1.weightLen 128 * 128
      rows := 1
      bufBase := Config.bufBase t.free % 1572864
      bufLen := 128 * (Config.bufLines t.free % 12288)
      rank := rank }) s

/-- A shed is launched on all reserved looms in lockstep: their read-only-near lines go, and the weights of its networks stream down the chain
(R310, R402, R440). -/
def State.startLooms (s : State) : State :=
  s.reserved.zipIdx.foldl (fun t x => (t.dropL1 x.1 false).openWeights x.2 x.1) s

/-- The weight chain is rebuilt from the logical map: ranks follow the reserved looms in ascending number, and a number that is no longer
reserved drops out (R280, R404). -/
def State.rebuildChain (s : State) : State :=
  s.onSht fun t => { t with
    chans := t.chans.filterMap fun e =>
      if e.2.raster then (s.reserved.findIdx? fun l => l == e.1 / 16).map fun r => (e.1, { e.2 with rank := r }) else some e }

/-- A raster channel's lines have all been delivered to the reserved looms (R371). -/
def State.weightsHere (s : State) : Bool :=
  s.sht.chans.all fun e => !(e.2.raster && e.2.state != .idle) || decide (e.2.rows * e.2.rowBytes ≤ e.2.got)

end Sys2Proof.Machine
end

