-- ==== Sys2Proof/Machine/Picture.lean ====
section
/-! DEFINITION. Sheds (R438 to R443), the Tack scaler's exact filter (R463 to R466, R751), the region path's box lists (R434 to
R437) and the retirement of looms at shed launches (R280 to R284, R451). -/

namespace Sys2Proof.Machine

/-! The Tack scaler. -/

/-- A quotient rounded half away from zero. -/
def roundAway (a : Int) (b : Nat) : Int :=
  if a < 0 then -((2 * -a + b) / (2 * b)) else (2 * a + b) / (2 * b)

/-- The coefficients of taps -1 to 2 at a phase of 0 to 63 (R465). -/
def tackCoeff (p : Int) : List Int :=
  let a := roundAway (-(p * p * p) + 128 * (p * p) - 4096 * p) 2048
  let c := roundAway (-3 * (p * p * p) + 256 * (p * p) + 4096 * p) 2048
  let d := roundAway (p * p * p - 64 * (p * p)) 2048
  [a, 256 - a - c - d, c, d]

/-- The tap base and phase of an output index on one axis (R464). -/
def tackAxis (x nIn nOut : Nat) : Int × Int :=
  let u : Int := (64 * ((2 * x + 1) * nIn : Nat) - 64 * (nOut : Int)) / (2 * (nOut : Int))
  (u / 64, u % 64)

/-- A value kept within 0 and a top. -/
def clampInt (top : Nat) (x : Int) : Nat := (min (top : Int) (max 0 x)).toNat

/-- The size of a plane of a record: luma, or chroma as Table 8.3 gives it. -/
def FrameRec.planeSize (f : FrameRec) (plane : Nat) : Nat × Nat :=
  if plane = 0 then (f.width, f.height) else chromaSize f.fmt f.width f.height

/-- Rows of a north or south strip, and columns of an east or west one, in a plane of a record (R749). -/
def State.stripDepth (s : State) (f : FrameRec) (plane edge : Nat) : Nat :=
  let n := if edge % 2 = 0 then s.fld Reg.SLV_STRIP_CFG Reg.SLV_STRIP_CFG_VROWS
    else s.fld Reg.SLV_STRIP_CFG Reg.SLV_STRIP_CFG_HCOLS
  let half := plane ≠ 0 ∧ (if edge % 2 = 0 then (f.fmt + 1) / 2 = 1 else (f.fmt + 1) / 2 ≤ 2)
  if half then (n + 1) / 2 else n

/-- A sample a held strip covers, and whether the flit that brought it came darned (R757): its row and column within the strip, rows side by
side (R751). -/
def State.stripSample (s : State) (f : FrameRec) (plane edge row col width : Nat) : Option (Nat × Bool) :=
  match s.slv.strips.find? fun x => x.edge == edge && x.pstamp == f.pstamp && x.plane == min 1 plane with
  | none => none
  | some x =>
    let n := fmtBytes f.fmt
    let at_ := if plane = 0 then (row * width + col) * n else (2 * (row * width + col) + plane - 1) * n
    if x.data.length < at_ + n then none
    else some (if n = 1 then 4 * bytesAt x.data at_ 1 else bytesAt x.data at_ 2 % 1024, x.darned.contains ((at_ + 8) / 24))

/-- A sample at any position: in the plane, in a facing chip's strip, or the nearest in the plane (R464, R751, R752). -/
def State.tapSample (s : State) (f : FrameRec) (plane : Nat) (i j : Int) : Nat × Bool :=
  let n := f.planeSize plane
  let x := clampInt (n.1 - 1) i
  let y := clampInt (n.2 - 1) j
  let inX := decide (i = x)
  let inY := decide (j = y)
  let miss := fun (e : Nat) => s.pic.sel.miss.contains e
  let strip : Option (Nat × Bool) :=
    if inX && !inY then
      (if j < 0 then
        (let d := s.stripDepth f plane 0
         if miss 0 ∨ (d : Int) + j < 0 then none else s.stripSample f plane 0 ((d : Int) + j).toNat x n.1)
      else
        (let r := (j - n.2).toNat
         if miss 2 ∨ s.stripDepth f plane 2 ≤ r then none else s.stripSample f plane 2 r x n.1))
    else if inY && !inX then
      (if i < 0 then
        (let d := s.stripDepth f plane 3
         if miss 3 ∨ (d : Int) + i < 0 then none else s.stripSample f plane 3 y ((d : Int) + i).toNat d)
      else
        (let d := s.stripDepth f plane 1
         let c := (i - n.1).toNat
         if miss 1 ∨ d ≤ c then none else s.stripSample f plane 1 y c d))
    else none
  match strip with
  | some v => v
  | none => s.sampleAt f plane x y

/-- One output sample of a plane, and whether any of its 16 taps is darned (R464 to R466). -/
def State.tackSample (s : State) (f : FrameRec) (plane : Nat) (dst : Nat × Nat) (x y : Nat) : Nat × Bool :=
  let n := f.planeSize plane
  let h := tackAxis x n.1 dst.1
  let v := tackAxis y n.2 dst.2
  let ch := tackCoeff h.2
  let cv := tackCoeff v.2
  let taps := (List.range 4).flatMap fun (r : Nat) => (List.range 4).map fun (c : Nat) =>
    let t := s.tapSample f plane (h.1 - 1 + (c : Int)) (v.1 - 1 + (r : Int))
    (cv.getD r 0 * ch.getD c 0 * (t.1 : Int), t.2)
  (clampInt 1023 (((taps.map fun t => t.1).sum + 32768) / 65536), taps.any fun t => t.2)

/-- The Tack output of one line of a shed. -/
def State.tackLine (s : State) (f : FrameRec) (y : Nat) : List Pixel :=
  spreadDarn ((List.range s.trd.timing.hActive).map fun x =>
    match s.inDst x y with
    | none => s.blackPixel
    | some (u, v) =>
      let a := s.tackSample f 0 s.dstSize u v
      let b := s.tackSample f 1 s.dstSize u v
      let c := s.tackSample f 2 s.dstSize u v
      { y := a.1, cb := b.1, cr := c.1, darn := a.2 || b.2 || c.2 })

/-- The Tack output of a shed; without a record every pixel is PIC_BLACK (R412, R431, R463). -/
def State.tackLines (s : State) (x : Shed) : List (List Pixel) :=
  (s.shedLines x.index).map fun y => match s.frame? x.recA with
    | some f => s.tackLine f y
    | none => List.replicate s.trd.timing.hActive s.blackPixel

/-! Sheds. -/

/-- Change one shed. -/
def State.onShed (s : State) (frame i : Nat) (f : Shed → Shed) : State :=
  s.onPic fun p => { p with sheds := p.sheds.map fun x => if x.isAt frame i then f x else x }

/-- The shed whose launch stamp lies at the present line, if this CCLK lies in its pick 0 (R439). -/
def State.shedNow (s : State) : Option (Nat × Nat) :=
  let l := s.trd.now.line
  let v := s.trd.timing.vTotal
  let c : Nat × Nat := if v - 48 ≤ l then (s.nextFrame, (l - (v - 48)) / 16) else (s.trd.now.frame, l / 16 + 3)
  if c.2 < s.shedCount && s.atLine (s.launchStamp c.1 c.2) then some c else none

/-- The oldest shed that has not ended begins, in a CCLK, on all reserved looms (R440). -/
def State.beginNext (s : State) (c : Nat) : State :=
  match s.pic.sheds.find? fun x => !x.ended with
  | some x =>
    if x.begun.isSome then s
    else
      let s1 := s.onShed x.frame x.index fun y => { y with begun := some c }
      if x.nets then s1.startLooms else s1
  | none => s

/-- Whether networks run on the sheds of the present selection (R452, R461): the path is enhanced and A has the factor admitted. -/
def State.runsNets (s : State) : Bool :=
  !s.pic.admitNow.tackOnly && match s.frame? s.pic.sel.recA with
    | some f => factorOf s.dstSize f.width f.height == s.pic.admitNow.factor
    | none => false

/-- Note on the records a shed reads that it reads them: the output frame at its first shed, and the first launch stamp (R422). -/
def State.noteReads (s : State) (x : Shed) : State :=
  let mark := fun (t : State) (k : Option (Nat × Nat)) => t.onFrame k fun f =>
    { f with uses := f.uses + (if x.index = 0 then 1 else 0), first := match f.first with
      | some a => some a
      | none => some x.launch }
  let s1 := mark s x.recA
  if x.recB.isSome ∧ x.recB ≠ x.recA then mark s1 x.recB else s1

/-- Launch a shed in the present CCLK on the reserved looms and the Tack scaler (R440, R463). -/
def State.launchShed (s : State) (f i : Nat) : State :=
  let nets := s.runsNets
  let x : Shed :=
    { frame := f, index := i, launch := s.launchStamp f i, deadline := s.deadlineStamp f i, recA := s.pic.sel.recA,
      recB := if nets then s.pic.sel.recB else none, phase := s.pic.sel.phase, nets := nets, begun := none, ended := false,
      late := false, net := none, tack := none, halo := [], mat := match s.frame? s.pic.sel.recA with
        | some r => r.mat
        | none => Config.blackMatrix % 2 }
  let s1 := s.onPic fun p => { p with sheds := (p.sheds ++ [x]).drop (p.sheds.length - 3), last := some (f, i) }
  let s2 := (s1.noteReads x).beginNext s.trd.cclk
  if nets && s.rd Reg.IMG_T_NET == 0#32 then s2.wr Reg.IMG_T_NET (BitVec.ofNat 32 (s.trd.time / usTime)) else s2

/-- SHED_LAUNCH: in the action CCLK of the launch stamp of the present line; shed 0 makes its frame's selection (R36, R423, R440,
R443). -/
def execShedLaunch (s : State) : Host.Outcome State Fault Refusal :=
  match s.shedNow with
  | none => .next s
  | some (f, i) =>
    if s.darkFrame f || s.pic.last == some (f, i) then .next s
    else
      let s0 := State.elapse (s.toAction (s.launchStamp f i)) s
      let s1 := if i = 0 then s0.select f else s0
      .next (if s1.pic.selected && s1.pic.sel.frame == f then s1.launchShed f i else s0)

/-- The action CCLK of a shed's deadline has come. -/
def State.pastDeadline (s : State) (x : Shed) : Bool := s.trd.now.atOrAfter x.deadline && s.toAction x.deadline == 0

/-- Of the planes a shed's networks read lines came darned: A's, and where it reads B's as well those too, as a free value says (R422; log 146). -/
def State.noteDarned (s : State) (x : Shed) (darned : List (Nat × Nat)) : State :=
  let mark := fun (t : State) (k : Option (Nat × Nat)) => t.onFrame k fun f => { f with darned := true }
  if darned.isEmpty then s
  else if x.recB.isSome && Config.darnB s.free then mark (mark s x.recA) x.recB else mark s x.recA

/-- An edge tile of a shed waits for its map strip (R755). -/
def State.stripWaits (s : State) (x : Shed) : Bool := s.slv.mapWaits.any fun m => m.shed == x.index && m.frame == x.frame % 256

/-- SHED_END: the shed that runs has all its lines in its slot before its deadline; of its input DRAM delivered the groups of a list darned. It
stalls while a line of its weights has not been delivered (R371) or an edge tile waits for its strip (R755). A shed on which no networks run ends with its Tack output (R275, R411,
R437, R441, R444 to R448). -/
def execShedEnd (darned : List (Nat × Nat)) (s : State) : Host.Outcome State Fault Refusal :=
  match s.pic.sheds.find? fun x => !x.ended with
  | none => .next s
  | some x =>
    if x.begun.isNone || s.pastDeadline x || (if x.nets then !s.weightsHere || s.stripWaits x else x.tack.isNone) then .next s
    else
      let r := s.runNets x darned
      let s1 := if x.nets
        then (s.nextFree.2.noteDarned x darned).onShed x.frame x.index fun y => { y with ended := true, net := some r.1, halo := r.2 }
        else s.onShed x.frame x.index fun y => { y with ended := true }
      .next (s1.beginNext (s.trd.cclk + 1))

/-- What an ended shed waited for is waited for no more. -/
def State.dropWaits (s : State) (x : Shed) : State :=
  { s with slv := { s.slv with mapWaits := s.slv.mapWaits.filter fun m => !(m.shed == x.index && m.frame == x.frame % 256) } }

/-- SHED_DEADLINE: at the action CCLK of its deadline a shed that has not ended is late: it stops, its network slot is
discarded, and it is counted (R36, R441, R442). -/
def execShedDeadline (s : State) : Host.Outcome State Fault Refusal :=
  match s.pic.sheds.find? fun x => !x.ended with
  | none => .next s
  | some x =>
    if s.trd.now.atOrAfter x.deadline then
      let s0 := (State.elapse (s.toAction x.deadline) s).dropWaits x
      let s1 := s0.onShed x.frame x.index fun y => { y with ended := true, late := true, net := none }
      .next (((s1.bump Reg.PIC_LATE_SHED_CNT).wrStamp Reg.PIC_LATE_LO Reg.PIC_LATE_HI x.deadline).beginNext s0.trd.cclk)
    else .next s

/-- TACK_SHED_COMPLETE: the Tack scaler has computed the oldest shed that lacks its Tack output, before the shed's deadline (R411,
R412, R463 to R466, R469). -/
def execTackShedComplete (s : State) : Host.Outcome State Fault Refusal :=
  match s.pic.sheds.find? fun x => x.tack.isNone && !s.pastDeadline x with
  | none => .next s
  | some x =>
    let lines := s.tackLines x
    let s1 := s.onShed x.frame x.index fun y => { y with tack := some lines }
    .next (if lines.any fun l => l.any fun p => p.darn then s1.onFrame x.recA fun f => { f with darned := true } else s1)

/-! The region path. -/

/-- BOX_LIST_BUILD: after the last shed of the frame the detector ran in, the list of at most MAX_BOXES boxes is complete (R434). -/
def execBoxListBuild (s : State) : Host.Outcome State Fault Refusal :=
  match s.pic.detect with
  | none => .next s
  | some (f, k) =>
    if s.pic.sheds.any fun x => x.isAt f (s.shedCount - 1) && x.ended then
      let n := Config.boxCount s.free % (s.fld Reg.PIC_RGN_CFG Reg.PIC_RGN_CFG_MAX_BOXES + 1)
      let b : BoxList := { rec_ := k, boxes := (List.range n).map fun i => leBytes 16 (Config.boxBytes s.free i) }
      .next (s.nextFree.2.onPic fun p => { p with detect := none, boxNext := some b })
    else .next s

/-! Retirement. -/

/-- LOOM_RETIRE: at a shed launch stamp failing and free denied looms leave service, and the reservation is rebuilt; a reserved
number left without a spare starts an admission (R36, R280 to R284, R449, R451). -/
def execLoomRetire (s : State) : Host.Outcome State Fault Refusal :=
  match s.shedNow with
  | none => .next s
  | some (f, i) =>
    if s.darkFrame f then .next s
    else
      let s0 := State.elapse (s.toAction (s.launchStamp f i)) s
      let s1 := s0.retireLooms (s.trd.cclk - s.trd.now.cyc)
      let lost := s0.reserved.any fun l => !s1.validLooms.contains l
      let s2 := (s1.reserve s0.reserved.length).rebuildChain
      .next (if lost then s2.startAdmission else s2).refreshLadder

end Sys2Proof.Machine
end

