-- ==== Sys2Proof/Machine/Composer.lean ====
section
/-! DEFINITION. The composer: layers (R603 to R612), shadows and commits (R613 to R615), colour conversion (R616 to R618), blending
(R619 to R622), L0's pixels (R467 to R469, R604), and a line's composition with its underruns (R644 to R650). -/

namespace Sys2Proof.Machine

/-- Change the composer and scan-out. -/
def State.onScn (s : State) (f : Scn → Scn) : State := { s with scn := f s.scn }

/-! Shadows (R613). -/

/-- The value in use of a register whose writes wait. -/
def State.inUse (s : State) (off : Nat) : Word := tblGet regDef s.scn.inUse off

def State.setInUse (s : State) (off : Nat) (v : Word) : State := s.onScn fun c => { c with inUse := tblSet regDef c.inUse off v }

/-- The CMP registers with a shadow copy. -/
def cmpShadows : List Nat :=
  [Reg.CMP_CFG, Reg.CMP_BG, Reg.CMP_Z, Reg.CMP_DITHER, Reg.CMP_FRZ_CFG, Reg.CMP_L_CTL 0] ++
    (List.range 7).flatMap fun i => [Reg.CMP_L_CTL (i + 1), Reg.CMP_L_POS (i + 1), Reg.CMP_L_SIZE (i + 1), Reg.CMP_L_BASE0_LO (i + 1),
      Reg.CMP_L_BASE0_HI (i + 1), Reg.CMP_L_BASE1_LO (i + 1), Reg.CMP_L_BASE1_HI (i + 1), Reg.CMP_L_STRIDE (i + 1)]

/-- What the composer uses of a CMP register: until scan-out sends, what the loader applied is in use without a commit (R615). -/
def State.cmp (s : State) (off : Nat) : Word := if s.scn.sending then s.inUse off else s.rd off

/-! Layers. -/

/-- The configuration of a layer in use. -/
structure Layer where
  en      : Bool
  premult : Bool
  mat     : Nat
  fmt     : Nat
  alpha   : Nat
  x       : Nat
  y       : Nat
  w       : Nat
  h       : Nat
  base0   : Nat
  base1   : Nat
  s0      : Nat
  s1      : Nat
  deriving DecidableEq, Repr

/-- A layer, with registers read by a function of their offset. -/
def layerOf (rd : Nat → Word) (k : Nat) : Layer :=
  let c := rd (Reg.CMP_L_CTL k)
  { en := Reg.CMP_L_CTL_EN.get c == 1, premult := Reg.CMP_L_CTL_PREMULT.get c == 1, mat := Reg.CMP_L_CTL_MATRIX.get c,
    fmt := Reg.CMP_L_CTL_FMT.get c, alpha := Reg.CMP_L_CTL_ALPHA.get c, x := Reg.CMP_L_POS_X.get (rd (Reg.CMP_L_POS k)),
    y := Reg.CMP_L_POS_Y.get (rd (Reg.CMP_L_POS k)), w := Reg.CMP_L_SIZE_W.get (rd (Reg.CMP_L_SIZE k)),
    h := Reg.CMP_L_SIZE_H.get (rd (Reg.CMP_L_SIZE k)),
    base0 := (rd (Reg.CMP_L_BASE0_LO k)).toNat + 2 ^ 32 * (rd (Reg.CMP_L_BASE0_HI k)).toNat,
    base1 := (rd (Reg.CMP_L_BASE1_LO k)).toNat + 2 ^ 32 * (rd (Reg.CMP_L_BASE1_HI k)).toNat,
    s0 := Reg.CMP_L_STRIDE_S0.get (rd (Reg.CMP_L_STRIDE k)), s1 := Reg.CMP_L_STRIDE_S1.get (rd (Reg.CMP_L_STRIDE k)) }

def State.layer (s : State) (k : Nat) : Layer := layerOf s.cmp k

/-- Bytes per pixel of a packed format; none for a planar one (Table 11.1). -/
def packedSize : Nat → Option Nat
  | 0x10 => some 2
  | 0x11 => some 3
  | 0x12 | 0x13 => some 4
  | _ => none

/-- A format of Table 11.1. -/
def layerFmt (f : Nat) : Bool := (decide (1 ≤ f) && decide (f ≤ 6)) || (packedSize f).isSome

/-- The bytes of a row of plane 0 and of plane 1 over `w` pixels. -/
def Layer.rowBytes (l : Layer) (w : Nat) : Nat × Nat :=
  match packedSize l.fmt with
  | some n => (n * w, 0)
  | none => (fmtBytes l.fmt * w, 2 * fmtBytes l.fmt * (if (l.fmt + 1) / 2 ≤ 2 then (w + 1) / 2 else w))

/-- A layer that R610 refuses to draw: an enabled one of some size with a format, a base, a stride or an odd extent the rule names. -/
def Layer.bad (l : Layer) : Bool :=
  let b := l.rowBytes l.w
  let planar := (packedSize l.fmt).isNone
  l.en && decide (0 < l.w ∧ 0 < l.h) && (!layerFmt l.fmt || l.base0 % 128 != 0 || l.s0 % 64 != 0 || decide (l.s0 < b.1) ||
    (planar && (l.base1 % 128 != 0 || l.s1 % 64 != 0 || decide (l.s1 < b.2) || l.w % 2 != 0 || l.h % 2 != 0)))

/-- The layers a configuration may not draw. -/
def badLayers (rd : Nat → Word) : List Nat := (List.range 8).filter fun k => decide (0 < k) && (layerOf rd k).bad

/-- Layer `k` is drawn in a frame (R604, R609, R610, R649). -/
def State.drawn (s : State) (frame k : Nat) : Bool :=
  let l := s.layer k
  l.en && (k == 0 || (decide (0 < l.w ∧ 0 < l.h) && !s.scn.undrawn.contains k && !s.scn.off.contains (k, frame)))

/-- The layer covers a position of the active area (R604, R609). -/
def Layer.covers (l : Layer) (k x y : Nat) : Bool := k == 0 || decide (l.x ≤ x ∧ x < l.x + l.w ∧ l.y ≤ y ∧ y < l.y + l.h)

/-- Take every shadow into use (R614, R615). -/
def State.copyShadows (s : State) (commit : Bool) : State :=
  let bad := badLayers s.rd
  let s1 := (cmpShadows.foldl (fun t o => t.setInUse o (t.rd o)) s).onScn fun c => { c with undrawn := bad }
  let s2 := if bad.isEmpty then s1 else s1.setFld Reg.CMP_STATUS Reg.CMP_STATUS_CFG_ERR 1
  if commit then (s2.onScn fun c => { c with commitAt := none }).setFld Reg.CMP_COMMIT Reg.CMP_COMMIT_PENDING 0 else s2

/-- The stamp of a frame's commit (R614). -/
def State.commitStamp (s : State) (frame : Nat) : Stamp := ⟨frame % 65536, s.trd.timing.vTotal - 4, 0, 0⟩

/-! Panel Replay is left (R658). -/

/-- The state of Panel Replay. -/
def State.prState (s : State) : Nat := s.fld Reg.SCN_PR_STATUS Reg.SCN_PR_STATUS_STATE

/-- An exit cause: STATE reads EXITING and the wake of the reserved looms begins (R658, R713); without effect while STATE is OFF or EXITING. -/
def State.prExit (s : State) : State :=
  if s.prState = 1 ∨ s.prState = 2 then
    ((s.setFld Reg.SCN_PR_STATUS Reg.SCN_PR_STATUS_STATE 3).onScn fun c => { c with prWaking := true }).retarget.wakeReserved
  else s

/-! Commits. -/

/-- A write of CMP_COMMIT.GO before the commit stamp of the present frame is for that stamp, else for the next frame's (R39, R614); it leaves
Panel Replay (R658). -/
def State.commitGo (s : State) : State :=
  let f := s.trd.now.frame
  let at_ := if s.trd.now.atOrAfter (s.commitStamp f) then s.nextFrame else f
  ((s.setFld Reg.CMP_COMMIT Reg.CMP_COMMIT_PENDING 1).onScn fun c => { c with commitAt := c.commitAt.or (some at_) }).prExit

/-- CMP_COMMIT. -/
def execCmpCommit (s : State) : Host.Outcome State Fault Refusal := .next s.commitGo

/-- COMMIT_COPY: at the action CCLK of the commit stamp every shadow is in use (R36, R610, R614). -/
def execCommitCopy (s : State) : Host.Outcome State Fault Refusal :=
  match s.scn.commitAt with
  | none => .next s
  | some f =>
    let t := s.commitStamp f
    if s.trd.now.atOrAfter t then .next ((State.elapse (s.toAction t) s).copyShadows true) else .next s

/-! Layer fetches. -/

/-- The raster lines, with their frames, whose layer rows the stamp of the present line fetches (R612): the line four on, none in an
appended line, and on line 0 also line 3, whose stamp a dropped line passes over (R26, R37). -/
def State.fetchLines (s : State) : List (Nat × Nat) :=
  let n := s.trd.now.line
  let v := s.trd.timing.vTotal
  if n + 4 < v then (if n = 0 then [(s.trd.now.frame, 3)] else []) ++ [(s.trd.now.frame, n + 4)]
  else if n < v then [(s.nextFrame, n + 4 - v)] else []

/-- Columns of a layer inside the active area (R609). -/
def State.shownCols (s : State) (l : Layer) : Nat := min l.w (s.trd.timing.hActive - l.x)

/-- Layer `k` has a row on a line, drawn and not yet fetched (R609, R610, R649, R653, R657, R847). -/
def State.fetches (s : State) (k : Nat) (t : Nat × Nat) : Bool :=
  let l := s.layer k
  k != 0 && !s.darkFrame t.1 && s.drawn t.1 k && decide (l.y ≤ t.2 ∧ t.2 < l.y + l.h ∧ t.2 < s.trd.timing.vActive ∧ 0 < s.shownCols l)
    && !s.scn.rows.any (fun r => r.layer == k && r.frame == t.1 && r.line == t.2)

/-- Where the row of a layer that lands on a line lies, by physical address (R605 to R608). -/
def State.layerRow (s : State) (k : Nat) (t : Nat × Nat) : LayerRow :=
  let l := s.layer k
  let j := t.2 - l.y
  let b := l.rowBytes (s.shownCols l)
  let jc := if (l.fmt + 1) / 2 = 1 then j / 2 else j
  { layer := k, frame := t.1, line := t.2, pa0 := l.base0 + j * l.s0, len0 := b.1, pa1 := if b.2 = 0 then 0 else l.base1 + jc * l.s1, len1 := b.2 }

/-- The tag of a row's line requests. -/
def LayerRow.tag (r : LayerRow) : Nat := r.layer + 8 * (r.line + 16384 * r.frame)

/-- The lines of a row, of plane 0 and then of plane 1. -/
def LayerRow.lines (r : LayerRow) : List Nat := linesFrom r.pa0 r.len0 ++ linesFrom r.pa1 r.len1

/-- A row is asked for: requester 35 requests its lines in the RASTER class, which charges no bucket (R605, R611, R847). DESIGN CHOICE (log 148): all
in one CCLK. -/
def State.fetchRow (s : State) (r : LayerRow) : State :=
  r.lines.foldl (fun t pa => (t.takeAt pa 35).spoolRead 35 r.tag pa .raster) (s.onScn fun c => { c with rows := c.rows ++ [r] })

/-- LAYER_FETCH: the fetch of the row of a layer that lands four lines on starts, in the action CCLK of the line's stamp; blank frames and frames of
Panel Replay take none, and neither does a layer that is off (R36, R612). -/
def execLayerFetch (layer : Fin 8) (s : State) : Host.Outcome State Fault Refusal :=
  let due := s.fetchLines.filter (s.fetches layer)
  if due.isEmpty || s.trd.now.pick != 0 then .next s
  else
    let s0 := State.elapse (s.toAction ⟨s.trd.now.frame, s.trd.now.line, 0, 0⟩) s
    .next ((due.map (s0.layerRow layer)).foldl State.fetchRow s0)

/-- A line of a row, once it has been delivered. -/
def State.rowLine (s : State) (r : LayerRow) (pa : Nat) : Option (List Byte) :=
  (s.mem.arrived.find? fun d => d.req == 35 && d.tag == r.tag && d.pa == pa && decide (d.cclk ≤ s.trd.cclk)).map fun d => d.data

/-- Bytes of a row as they have been delivered (R611). -/
def State.rowBytes (s : State) (r : LayerRow) (pa len : Nat) : List Byte :=
  (((linesFrom pa len).flatMap fun a => (s.rowLine r a).getD zeroLine).drop (pa % 128)).take len

/-- Drop the rows that a test names, with the lines delivered for them. -/
def State.dropRows (s : State) (p : LayerRow → Bool) : State :=
  let gone := (s.scn.rows.filter p).map LayerRow.tag
  (s.onScn fun c => { c with rows := c.rows.filter fun r => !p r }).onMem fun m => { m with
    arrived := m.arrived.filter fun d => !(d.req == 35 && gone.contains d.tag) }

/-! Colours. -/

/-- A planar pixel in 12-bit RGB (R616). -/
def toRgb (mat y cb cr : Nat) : Rgb :=
  let yn : Int := (y : Int) - 64
  let u : Int := (cb : Int) - 512
  let v : Int := (cr : Int) - 512
  let k : Int × Int × Int × Int := if mat = 0 then (7370, 877, 2191, 8684) else (6901, 770, 2674, 8805)
  { r := clampInt 4095 ((4787 * yn + k.1 * v + 512) / 1024), g := clampInt 4095 ((4787 * yn - k.2.1 * u - k.2.2.1 * v + 512) / 1024),
    b := clampInt 4095 ((4787 * yn + k.2.2.2 * u + 512) / 1024) }

/-- Packed components widened to 12 bits (R617). -/
def widen5 (v : Nat) : Nat := v * 128 + v * 4 + v / 8
def widen6 (v : Nat) : Nat := v * 64 + v
def widen8 (v : Nat) : Nat := v * 16 + v / 16
def widen10 (v : Nat) : Nat := v * 4 + v / 256

/-- A packed pixel and its alpha (Table 11.1). -/
def packedPixel (fmt v : Nat) : Rgb × Nat :=
  match fmt with
  | 0x10 => (⟨widen5 (v / 2048 % 32), widen6 (v / 32 % 64), widen5 (v % 32)⟩, 255)
  | 0x11 => (⟨widen8 (v % 256), widen8 (v / 256 % 256), widen8 (v / 65536 % 256)⟩, 255)
  | 0x12 => (⟨widen8 (v / 65536 % 256), widen8 (v / 256 % 256), widen8 (v % 256)⟩, v / 16777216 % 256)
  | _ => (⟨widen10 (v / 1048576 % 1024), widen10 (v / 1024 % 1024), widen10 (v % 1024)⟩, v / 1073741824 % 4 * 85)

/-- Pixel `i` of a row and its alpha, by the bytes of its planes (R606 to R608, R616, R617). -/
def Layer.pixel (l : Layer) (r : List Byte × List Byte) (i : Nat) : Rgb × Nat :=
  match packedSize l.fmt with
  | some n => packedPixel l.fmt (bytesAt r.1 (n * i) n)
  | none =>
    let n := fmtBytes l.fmt
    let sample := fun (d : List Byte) (k : Nat) => if n = 1 then 4 * bytesAt d k 1 else bytesAt d (2 * k) 2 % 1024
    let c := if (l.fmt + 1) / 2 ≤ 2 then i / 2 else i
    (toRgb l.mat (sample r.1 i) (sample r.2 (2 * c)) (sample r.2 (2 * c + 1)), 255)

/-- The layer whose alpha counts as premultiplied (R622). -/
def Layer.premultiplied (l : Layer) : Bool := l.premult && (l.fmt == 0x12 || l.fmt == 0x13)

/-- One component blended over the value so far (R621). -/
def blend (premult : Bool) (c a la dst : Nat) : Nat :=
  let ae := (a * la + 127) / 255
  if premult then min 4095 ((c * la + dst * (255 - ae) + 127) / 255) else (c * ae + dst * (255 - ae) + 127) / 255

/-- A pixel blended over the value so far. -/
def Rgb.blend (premult : Bool) (p : Rgb) (a la : Nat) (dst : Rgb) : Rgb :=
  ⟨Machine.blend premult p.r a la dst.r, Machine.blend premult p.g a la dst.g, Machine.blend premult p.b a la dst.b⟩

/-- The drawing order, from the back: by number, or by Z with the lower number further back (R9, R620). -/
def State.drawOrder (s : State) : List Nat :=
  if Reg.CMP_CFG_ORDER.get (s.cmp Reg.CMP_CFG) = 0 then List.range 8
  else
    let z := fun (k : Nat) => (s.cmp Reg.CMP_Z).toNat / 2 ^ (3 * k) % 8
    (List.range 8).flatMap fun v => (List.range 8).filter fun k => z k == v

/-- The background in 12 bits (R619). -/
def State.background (s : State) : Rgb :=
  let w := s.cmp Reg.CMP_BG
  ⟨4 * Reg.CMP_BG_R.get w, 4 * Reg.CMP_BG_G.get w, 4 * Reg.CMP_BG_B.get w⟩

/-! L0 (R467 to R469, R604). -/

/-- Where a group of L0 comes from. -/
inductive L0Source where
  | net | tack | black
  deriving DecidableEq, Repr

/-- The shed of a line. -/
def State.shedOf (s : State) (frame line : Nat) : Option Shed := s.pic.sheds.find? fun x => x.isAt frame (line / 16)

/-- A line of a shed's output. -/
def lineOfShed (o : Option (List (List Pixel))) (line : Nat) : Option (List Pixel) := o.bind fun l => l[line % 16]?

/-- A group of 8 pixels comes from the networks when the shed was not late and the group is not darned, else from the Tack scaler, else it
is black; with the group's darn marks in either output. -/
def Shed.group (x : Shed) (line g : Nat) : L0Source × Bool × Bool :=
  let dark := fun (o : Option (List (List Pixel))) => match lineOfShed o line with
    | some l => ((l.drop (8 * g)).take 8).any fun p => p.darn
    | none => false
  let net := if x.late then none else x.net
  let dn := dark net
  let dt := dark x.tack
  if net.isSome && !dn then (.net, dn, dt) else if x.tack.isSome then (.tack, dn, dt) else (.black, dn, dt)

/-- A pixel of L0 in 12-bit RGB. -/
def State.l0Pixel (s : State) (shed : Option Shed) (line x : Nat) : Rgb :=
  let black := s.blackPixel
  match shed with
  | none => toRgb (Config.blackMatrix % 2) black.y black.cb black.cr
  | some h =>
    let p := match (h.group line (x / 8)).1 with
      | .net => ((lineOfShed h.net line).bind fun l => l[x]?).getD black
      | .tack => ((lineOfShed h.tack line).bind fun l => l[x]?).getD black
      | .black => black
    toRgb h.mat p.y p.cb p.cr

/-- Count the groups replaced in a shed that was not late, and those whose Tack sector is darned too (R467, R468). -/
def State.countDarned (s : State) (shed : Option Shed) (line : Nat) : State :=
  match shed with
  | none => s
  | some h =>
    let gs := (List.range (s.trd.timing.hActive / 8)).map fun g => h.group line g
    let bad := gs.filter fun g => g.2.1
    (s.bumps Reg.PIC_DARN_GRP_CNT bad.length).bumps Reg.PIC_DARN_BOTH_CNT (bad.filter fun g => g.2.2).length

/-! Ports (R630 to R632). -/

/-- The port mode in use: 0 single, 1 split, 2 mirror. -/
def State.portMode (s : State) : Nat := Reg.SCN_CFG_MODE.get (s.inUse Reg.SCN_CFG) % 3

/-- The ports that carry a column. -/
def State.portsOf (s : State) (x : Nat) : List Nat :=
  match s.portMode with
  | 1 => if x < s.trd.timing.hActive / 2 then [0] else [1]
  | 2 => [0, 1]
  | _ => [0]

/-- An underrun of a column is handled as frame-abort (R646). -/
def State.abortsAt (s : State) (x : Nat) : Bool :=
  (s.portsOf x).any fun p => Reg.SCN_PORT_CTL_UNDERRUN.get (s.inUse (Reg.SCN_PORT_CTL p)) == 1

/-! Composition. -/

/-- The raster line composed in the present line (R644). -/
def State.composeLine (s : State) : Nat × Nat :=
  if s.trd.now.line + 1 < s.frameLines then (s.trd.now.frame, s.trd.now.line + 1) else (s.nextFrame, 0)

/-- The row of a layer asked for a line. -/
def State.rowFor (s : State) (frame line k : Nat) : Option LayerRow :=
  s.scn.rows.find? fun r => r.layer == k && r.frame == frame && r.line == line

/-- The lines that group `g` of a layer's row takes have all been delivered. -/
def State.groupHere (s : State) (l : Layer) (r : LayerRow) (g : Nat) : Bool :=
  let lo := 8 * g - l.x
  let hi := min (s.shownCols l) (8 * g + 8 - l.x)
  let lines := match packedSize l.fmt with
    | some n => linesFrom (r.pa0 + n * lo) (n * (hi - lo))
    | none =>
      let n := fmtBytes l.fmt
      let c := if (l.fmt + 1) / 2 ≤ 2 then (lo / 2, (hi + 1) / 2) else (lo, hi)
      linesFrom (r.pa0 + n * lo) (n * (hi - lo)) ++ linesFrom (r.pa1 + 2 * n * c.1) (2 * n * (c.2 - c.1))
  lines.all fun pa => (s.rowLine r pa).isSome

/-- The first group of a layer on a line whose data is not delivered when it is needed, when there is one (R645): the whole row when it was not
fetched. -/
def State.underrunGroup (s : State) (frame line k : Nat) (late : List (Nat × Nat)) : Option Nat :=
  let l := s.layer k
  let n := s.shownCols l
  if k = 0 || !s.drawn frame k || n == 0 || !(decide (l.y ≤ line ∧ line < l.y + l.h)) then none
  else match s.rowFor frame line k with
    | none => some (l.x / 8)
    | some r => (List.range ((l.x + n + 7) / 8)).find? fun g => decide (l.x / 8 ≤ g) && (late.contains (k, g) || !s.groupHere l r g)

/-- The underruns of a line in order of group and layer, up to the group at which the frame is aborted (R645 to R648). -/
def State.underruns (s : State) (frame line : Nat) (late : List (Nat × Nat)) : List (Nat × Nat) :=
  let all := (List.range 8).filterMap fun k => (s.underrunGroup frame line k late).map fun g => (g, k)
  let stop := all.filter fun u => s.abortsAt (8 * u.1)
  let kept := all.filter fun u => stop.all fun v => u.1 ≤ v.1
  (List.range (s.trd.timing.hActive / 8 + 1)).flatMap fun g => kept.filter fun u => u.1 == g

/-- One underrun: it is recorded and counted, and the layer goes off or the frame is to be aborted (R646, R647, R649, R651). -/
def State.underrun (s : State) (frame : Nat) (u : Nat × Nat) : State :=
  let abort := s.abortsAt (8 * u.1)
  let port := ((s.portsOf (8 * u.1)).head?).getD 0
  let hi := s.trd.now.frame + u.2 % 8 * 2 ^ 16 + port * 2 ^ 20 + (if abort then 2 ^ 21 else 0)
  let s1 := ((s.wr Reg.CMP_UR_LO s.trd.now.low).wr Reg.CMP_UR_HI (BitVec.ofNat 32 hi)).bump (Reg.CMP_UR_CNT u.2)
  if abort then s1.onTrd fun t =>
    if t.abortWant.contains .underrun then t else { t with abortWant := t.abortWant ++ [.underrun], abortAt := t.cclk + 2 }
  else (s1.onScn fun c => { c with off := c.off ++ [(u.2, frame)] }).setFld Reg.CMP_STATUS ⟨8 + u.2, 1⟩ 1

/-- The composed pixels of a line; a layer that underran is drawn up to its group (R619 to R622, R649). -/
def State.composed (s : State) (frame line : Nat) (ur : List (Nat × Nat)) : List Rgb :=
  let shed := s.shedOf frame line
  let order := s.drawOrder.filter fun k => s.drawn frame k
  let layers := order.map fun k => (k, s.layer k, (s.rowFor frame line k).map fun r => (s.rowBytes r r.pa0 r.len0, s.rowBytes r r.pa1 r.len1))
  (List.range s.trd.timing.hActive).map fun x => layers.foldl (fun dst y =>
    let k := y.1
    let l := y.2.1
    if !l.covers k x line || ur.any (fun u => u.2 == k && decide (8 * u.1 ≤ x)) then dst
    else if k = 0 then Rgb.blend false (s.l0Pixel shed line x) 255 l.alpha dst
    else match y.2.2 with
      | none => dst
      | some r =>
        let p := l.pixel r (x - l.x)
        Rgb.blend l.premultiplied p.1 p.2 l.alpha dst) s.background

/-- LINE_COMPOSE: the composer composes the next raster line in its window; a group whose lines have not been delivered underruns, and so do the
groups `late`, by layer, that the composer needed before this CCLK and before they came (R9, R431, R467 to R469, R603, R604, R608, R609, R611, R616 to R622, R644 to R649, R651, R653, R657). -/
def execLineCompose (late : List (Nat × Nat)) (s : State) : Host.Outcome State Fault Refusal :=
  let t := s.composeLine
  if s.darkFrame t.1 || decide (s.trd.timing.vActive ≤ t.2) || s.scn.lines.any (fun l => l.frame == t.1 && l.line == t.2)
      || !(s.scn.sending || s.boot.switchAt == some t.1) then .next s
  else
    let ur := s.underruns t.1 t.2 late
    let aborts := ur.any fun u => s.abortsAt (8 * u.1)
    let s1 := ur.foldl (fun x u => x.underrun t.1 u) s
    let s2 := if aborts then s1 else (s1.countDarned (s.shedOf t.1 t.2) t.2).onScn fun c => { c with
      lines := c.lines ++ [{ frame := t.1, line := t.2, pixels := s.composed t.1 t.2 ur }] }
    .next (s2.dropRows fun r => r.frame == t.1 && r.line == t.2)

/-- LAYER_OFF_CLEAR: from the start of the next frame a layer that was off is drawn again (R650). -/
def execLayerOffClear (s : State) : Host.Outcome State Fault Refusal :=
  let now := s.trd.now.frame
  let gone := s.scn.off.filter fun x => frameAfter now x.2
  let left := s.scn.off.filter fun x => !frameAfter now x.2
  let s1 := s.onScn fun c => { c with off := left }
  .next (gone.foldl (fun t x => if left.any fun y => y.1 == x.1 then t else t.setFld Reg.CMP_STATUS ⟨8 + x.1, 1⟩ 0) s1)

end Sys2Proof.Machine
end

