-- ==== Sys2Proof/Machine/Scanout.lean ====
section
/-! DEFINITION. Scan-out: timing and its changes (R625 to R629), ports, links and AUX (R630 to R643), dither (R623, R624), sending and
read-back (R644, R660 to R662), Panel Replay (R654 to R659) and the freeze detector (R663 to R666). -/

namespace Sys2Proof.Machine

/-! Timing (R625 to R627). -/

/-- The timing the SCN registers hold. -/
def State.timingRegs (s : State) : Timing :=
  { hActive := s.fld Reg.SCN_HTIM0 Reg.SCN_HTIM0_ACTIVE, hFp := s.fld Reg.SCN_HTIM0 Reg.SCN_HTIM0_FP,
    hSync := s.fld Reg.SCN_HTIM1 Reg.SCN_HTIM1_SYNC, hBp := s.fld Reg.SCN_HTIM1 Reg.SCN_HTIM1_BP,
    vActive := s.fld Reg.SCN_VTIM0 Reg.SCN_VTIM0_ACTIVE, vFp := s.fld Reg.SCN_VTIM0 Reg.SCN_VTIM0_FP,
    vSync := s.fld Reg.SCN_VTIM1 Reg.SCN_VTIM1_SYNC, vBp := s.fld Reg.SCN_VTIM1 Reg.SCN_VTIM1_BP,
    refresh := s.fld Reg.SCN_TIM_CTL Reg.SCN_TIM_CTL_REFRESH, hsPol := s.bit Reg.SCN_TIM_CTL Reg.SCN_TIM_CTL_HS_POL,
    vsPol := s.bit Reg.SCN_TIM_CTL Reg.SCN_TIM_CTL_VS_POL }

/-- The pixel clock in mHz (R626). -/
def pixelClock (t : Timing) : Nat := t.hTotal * t.vTotal * t.refresh

/-- A timing legal under a port mode (Table 11.2). -/
def legalTiming (t : Timing) (mode : Nat) : Bool :=
  let porch := fun (x : Nat) => decide (8 ≤ x ∧ x ≤ 1023) && (mode != 1 || x % 2 == 0)
  let clk := pixelClock t
  decide (64 ≤ t.hActive ∧ t.hActive ≤ 7680) && t.hActive % (if mode = 1 then 16 else 8) == 0
    && decide (64 ≤ t.vActive ∧ t.vActive ≤ 4320) && porch t.hFp && porch t.hSync && porch t.hBp
    && decide (80 ≤ t.hFp + t.hSync + t.hBp) && decide (1 ≤ t.vFp ∧ 1 ≤ t.vSync ∧ 4 ≤ t.vBp)
    && decide (t.hTotal ≤ 16383 ∧ t.vTotal ≤ 16383) && decide (ceilDiv t.hTotal 64 * 10 ^ 12 ≤ 580 * clk)
    && decide (23000 ≤ t.refresh ∧ t.refresh ≤ 240000) && decide (25 * 10 ^ 9 ≤ clk ∧ clk ≤ 44 * 10 ^ 11)
    && decide ((if mode = 1 then clk else 2 * clk) ≤ 44 * 10 ^ 11)

/-! Links (R633 to R637). -/

/-- The bits per component sent (R623, R634). -/
def State.depth (s : State) : Nat := 6 + 2 * Reg.CMP_DITHER_DEPTH.get (s.cmp Reg.CMP_DITHER)

/-- A link rate in units of 10 Mb/s (Tables 11.3 and 11.9). -/
def linkRate : Nat → Nat
  | 1 => 162
  | 2 => 270
  | 3 => 540
  | 4 => 810
  | 5 => 1000
  | 6 => 1350
  | 7 => 2000
  | _ => 0

/-- A stream fits a link (R631, R632, R636). -/
def streamFits (t : Timing) (mode depth rate lanes : Nat) : Bool :=
  let code := if 5 ≤ rate then (128, 132) else (8, 10)
  decide (pixelClock t * 3 * depth * 64 * code.2 ≤ linkRate rate * 10 ^ 10 * lanes * code.1 * 63 * if mode = 1 then 2 else 1)

/-- A port's status field. -/
def State.port (s : State) (p : Nat) (f : Field) : Nat := s.fld (Reg.SCN_PORT_STATUS p) f

def State.setPort (s : State) (p : Nat) (f : Field) (x : Nat) : State := s.setFld (Reg.SCN_PORT_STATUS p) f x

/-- A port is enabled and the mode uses it. -/
def State.portActive (s : State) (p : Nat) : Bool :=
  Reg.SCN_PORT_CTL_EN.get (s.inUse (Reg.SCN_PORT_CTL p)) == 1 && (p == 0 || s.portMode != 0)

/-- The trained link of a port carries the timing in use. -/
def State.portFits (s : State) (p : Nat) : Bool :=
  streamFits s.trd.timing s.portMode s.depth (s.port p Reg.SCN_PORT_STATUS_RATE) (s.port p Reg.SCN_PORT_STATUS_LANES)

/-- At a frame start each port sends video, or does not because its link does not fit (R637), because the frame is blank or of Panel
Replay (R629, R652, R656), or because its link is not up. -/
def State.portsFrameStart (s : State) : State :=
  (List.range 2).foldl (fun t p =>
    let on := t.portActive p && t.port p Reg.SCN_PORT_STATUS_HPD == 1 && t.port p Reg.SCN_PORT_STATUS_TRAINED == 1
    let video := on && t.portFits p && t.scn.sending && !t.darkFrame t.trd.now.frame
    (t.setPort p Reg.SCN_PORT_STATUS_BW_ERR (if on && !t.portFits p then 1 else 0)).setPort p Reg.SCN_PORT_STATUS_VIDEO (if video then 1 else 0)) s

/-- A port begins to train, when a sink is there (R635, R639). -/
def State.startTraining (s : State) (p : Nat) : State :=
  if s.port p Reg.SCN_PORT_STATUS_HPD = 0 then s
  else
    let s1 := [Reg.SCN_PORT_STATUS_TRAINED, Reg.SCN_PORT_STATUS_CODING, Reg.SCN_PORT_STATUS_RATE, Reg.SCN_PORT_STATUS_LANES,
      Reg.SCN_PORT_STATUS_VIDEO].foldl (fun t f => t.setPort p f 0) s
    ((s1.bump (Reg.SCN_TRAIN_CNT p)).onScn fun c => { c with training := insertNat p c.training }).emit 0 (.linkTrain p)

/-- The fields of SCN_PORT_CTL that wait for an APPLY (R640). -/
def portSettings (v : Word) : Nat × Nat × Nat × Nat :=
  (Reg.SCN_PORT_CTL_EN.get v, Reg.SCN_PORT_CTL_MAX_RATE.get v, Reg.SCN_PORT_CTL_MAX_LANES.get v, Reg.SCN_PORT_CTL_SSC.get v)

/-- A port whose settings the next APPLY changes; a change of the mode changes both (R640). -/
def State.portChanges (s : State) (p : Nat) : Bool :=
  portSettings (s.rd (Reg.SCN_PORT_CTL p)) != portSettings (s.inUse (Reg.SCN_PORT_CTL p)) ||
    Reg.SCN_CFG_MODE.get (s.rd Reg.SCN_CFG) % 3 != s.portMode

/-- The pending port settings are in use; the UNDERRUN fields keep their own time (R640, R641). -/
def State.takePorts (s : State) : State :=
  (List.range 2).foldl (fun t p =>
    let old := t.inUse (Reg.SCN_PORT_CTL p)
    t.setInUse (Reg.SCN_PORT_CTL p) (Reg.SCN_PORT_CTL_UNDERRUN.put (t.rd (Reg.SCN_PORT_CTL p)) (Reg.SCN_PORT_CTL_UNDERRUN.get old)))
    (s.setInUse Reg.SCN_CFG (s.rd Reg.SCN_CFG))

/-! APPLY. -/

/-- The new timing fits every enabled port's trained link whose settings stay (R628, R640). -/
def State.applyFits (s : State) (t : Timing) : Bool :=
  let mode := Reg.SCN_CFG_MODE.get (s.rd Reg.SCN_CFG) % 3
  (List.range 2).all fun p => s.portChanges p || !s.portActive p || s.port p Reg.SCN_PORT_STATUS_TRAINED == 0 ||
    streamFits t mode s.depth (s.port p Reg.SCN_PORT_STATUS_RATE) (s.port p Reg.SCN_PORT_STATUS_LANES)

/-- A write of APPLY lands (R628, R629, R640, R658): an accepted timing takes effect at the next frame start, with a blank frame. -/
def State.landApply (s : State) : State :=
  let t := s.timingRegs
  let f := s.nextFrame
  if legalTiming t (Reg.SCN_CFG_MODE.get (s.rd Reg.SCN_CFG) % 3) && s.applyFits t then
    ((s.setFld Reg.SCN_STATUS Reg.SCN_STATUS_TIM_PEND 1).onScn fun c => { c with
      timNext := some (t, f)
      blank := if c.blank.contains f then c.blank else c.blank ++ [f] }).prExit
  else (s.setFld Reg.SCN_STATUS Reg.SCN_STATUS_TIM_ERR 1).prExit

/-- APPLY. -/
def execApply (s : State) : Host.Outcome State Fault Refusal := .next s.landApply

/-- Ports that changed train again (R640). -/
def State.retrainPorts (s : State) (ps : List Nat) : State := ps.foldl (fun t p => if t.portActive p then t.startTraining p else t) s

/-- TIMING_CHANGE: at the frame start an accepted timing and the pending port settings are in use; the refresh periods follow and an
admission starts (R356, R451, R626, R628 to R630, R637, R640, R830). -/
def execTimingChange (s : State) : Host.Outcome State Fault Refusal :=
  match s.scn.timNext with
  | none => .next s
  | some (t, f) =>
    if (s.trd.now.frame = f ∨ frameAfter s.trd.now.frame f = true) ∧ s.trd.now.line = 0 ∧ s.trd.now.pick = 0 then
      let changed := (List.range 2).filter s.portChanges
      let s1 := ((s.takeTiming t).onTrd fun x => { x with restart := true }).onScn fun c => { c with timNext := none }
      let s2 := (s1.takePorts.setRefresh.setFld Reg.SCN_STATUS Reg.SCN_STATUS_TIM_PEND 0).startAdmission
      .next (s2.retrainPorts changed).portsFrameStart
    else .next s

/-- A write of SCN_PORT_CTL lands (R635, R640, R641). -/
def State.landPortCtl (s : State) (p : Nat) (data : Word) : State :=
  let s1 := s.plainWrite (Reg.SCN_PORT_CTL p) data
  let s2 := s1.onScn fun c => { c with urNext := some s.nextFrame }
  if Reg.SCN_PORT_CTL_RETRAIN.get data = 1 then s2.startTraining p else s2

/-- UNDERRUN_MODE_CHANGE: at the frame start after its write each port's UNDERRUN mode is in use (R641). -/
def execUnderrunModeChange (s : State) : Host.Outcome State Fault Refusal :=
  match s.scn.urNext with
  | none => .next s
  | some f =>
    if s.trd.now.frame = f ∨ frameAfter s.trd.now.frame f = true then
      .next ((List.range 2).foldl (fun t p =>
        t.setInUse (Reg.SCN_PORT_CTL p) (Reg.SCN_PORT_CTL_UNDERRUN.put (t.inUse (Reg.SCN_PORT_CTL p))
          (Reg.SCN_PORT_CTL_UNDERRUN.get (t.rd (Reg.SCN_PORT_CTL p))))) (s.onScn fun c => { c with urNext := none }))
    else .next s

/-! Hot plug and training. -/

/-- HPD_RISE (R635). -/
def execHpdRise (port : Fin 2) (s : State) : Host.Outcome State Fault Refusal :=
  .next ((s.setPort port Reg.SCN_PORT_STATUS_HPD 1).startTraining port)

/-- HPD_FALL: the lanes are idle (R639); a port in replay ends Panel Replay (R658). -/
def execHpdFall (port : Fin 2) (s : State) : Host.Outcome State Fault Refusal :=
  let s1 := [Reg.SCN_PORT_STATUS_HPD, Reg.SCN_PORT_STATUS_TRAINED, Reg.SCN_PORT_STATUS_CODING, Reg.SCN_PORT_STATUS_RATE,
    Reg.SCN_PORT_STATUS_LANES, Reg.SCN_PORT_STATUS_VIDEO].foldl (fun t f => t.setPort port f 0) s
  let s2 := (s1.onScn fun c => { c with training := c.training.filter (· ≠ port.val) }).emit 0 (.lanesIdle port)
  .next (if s.portActive port then s2.prExit else s2)

/-- HPD_IRQ: the pulse is counted, and a link that has lost lock trains again (R638). -/
def execHpdIrq (port : Fin 2) (lost : Bool) (s : State) : Host.Outcome State Fault Refusal :=
  let s1 := s.bump (Reg.SCN_HPD_IRQ_CNT port)
  .next (if lost then s1.startTraining port else s1)

/-- RETRAIN: a write of SCN_PORT_CTL.RETRAIN (R635). -/
def execRetrain (port : Fin 2) (s : State) : Host.Outcome State Fault Refusal := .next (s.startTraining port)

/-- A link SCN_PORT_CTL permits (R635, Table 11.9). -/
def State.linkAllowed (s : State) (p rate lanes : Nat) : Bool :=
  let v := s.inUse (Reg.SCN_PORT_CTL p)
  let m := Reg.SCN_PORT_CTL_MAX_LANES.get v
  let top := if m = 1 ∨ m = 2 then m else 4
  decide (1 ≤ rate ∧ rate ≤ Reg.SCN_PORT_CTL_MAX_RATE.get v) && (lanes == 1 || lanes == 2 || lanes == 4) && decide (lanes ≤ top)

/-- LINK_TRAINED: training ends at a rate and lane count, or fails at every one permitted; the sink declares Panel Replay support or
does not (R635 to R637, R654). -/
def execLinkTrained (port : Fin 2) (link : Option (Nat × Nat)) (panelReplay : Bool) (s : State) : Host.Outcome State Fault Refusal :=
  if !s.scn.training.contains port.val then .next s
  else
    let s1 := (s.onScn fun c => { c with training := c.training.filter (· ≠ port.val) }).setPort port Reg.SCN_PORT_STATUS_PR_CAP
      (if panelReplay then 1 else 0)
    .next (match link with
      | some (rate, lanes) =>
        if s.linkAllowed port rate lanes then
          let s2 := (((s1.setPort port Reg.SCN_PORT_STATUS_TRAINED 1).setPort port Reg.SCN_PORT_STATUS_CODING (if 5 ≤ rate then 1 else 0)).setPort
            port Reg.SCN_PORT_STATUS_RATE rate).setPort port Reg.SCN_PORT_STATUS_LANES lanes
          s2.setPort port Reg.SCN_PORT_STATUS_BW_ERR (if s2.portFits port then 0 else 1)
        else s1.setPort port Reg.SCN_PORT_STATUS_TRAIN_FAIL 1
      | none => s1.setPort port Reg.SCN_PORT_STATUS_TRAIN_FAIL 1)

/-! AUX (R642, R643). -/

/-- The 16 bytes of SCN_AUX_DATA. -/
def State.auxData (s : State) : List Byte := (List.range 4).flatMap fun k => leBytes 4 (s.rd (Reg.SCN_AUX_DATA k)).toNat

/-- A write of SCN_AUX_CTL.GO sends the transaction its registers describe; one in progress goes on. -/
def State.auxGo (s : State) : State :=
  if s.scn.aux.isSome then s
  else
    let n := s.fld Reg.SCN_AUX_CTL Reg.SCN_AUX_CTL_LEN + 1
    let x : AuxTx := { port := s.fld Reg.SCN_AUX_CTL Reg.SCN_AUX_CTL_PORT, cmd := s.fld Reg.SCN_AUX_CTL Reg.SCN_AUX_CTL_CMD,
                       addr := s.fld Reg.SCN_AUX_ADDR Reg.SCN_AUX_ADDR_ADDR, data := s.auxData.take n, len := n, defers := 0, sent := s.trd.time }
    ((s.onScn fun c => { c with aux := some x }).setFld Reg.SCN_AUX_STATUS Reg.SCN_AUX_STATUS_BUSY 1).emit 0
      (.auxRequest x.port x.cmd x.addr x.len x.data)

/-- AUX_TRANSACTION. -/
def execAuxTransaction (s : State) : Host.Outcome State Fault Refusal := .next s.auxGo

/-- The transaction ends with a REPLY and a count of bytes. -/
def State.auxEnd (s : State) (reply count : Nat) : State :=
  (s.onScn fun c => { c with aux := none }).wr Reg.SCN_AUX_STATUS (BitVec.ofNat 32 (reply % 4 * 2 + count % 32 * 256))

/-- AUX_REPLY: an ACK or NACK ends the transaction, a DEFER sends it again up to 7 times. -/
def execAuxReply (reply : AuxReply) (s : State) : Host.Outcome State Fault Refusal :=
  match s.scn.aux with
  | none => .next s
  | some x => .next (match reply with
    | .ack count data =>
      let n := min count x.len
      let d := (data.take n ++ s.auxData.drop (data.take n).length).take 16
      let s1 := if x.cmd % 2 = 1 then (List.range 4).foldl (fun t k => t.wr (Reg.SCN_AUX_DATA k) (BitVec.ofNat 32 (bytesAt d (4 * k) 4))) s else s
      s1.auxEnd 0 n
    | .nack => s.auxEnd 1 0
    | .defer =>
      if 7 ≤ x.defers then s.auxEnd 2 0
      else (s.onScn fun c => { c with aux := some { x with defers := x.defers + 1, sent := s.trd.time } }).emit 0 (.auxRequest x.port x.cmd x.addr x.len x.data))

/-- AUX_TIMEOUT: no reply has come within 400 µs of a request. -/
def execAuxTimeout (s : State) : Host.Outcome State Fault Refusal :=
  match s.scn.aux with
  | none => .next s
  | some x => .next (if x.sent + 400 * usTime ≤ s.trd.time then s.auxEnd 3 0 else s)

/-! Panel Replay. -/

/-- A write of ENTER lands (R654, R655). -/
def State.prEnter (s : State) : State :=
  let ps := (List.range 2).filter s.portActive
  if s.prState ≠ 0 ∨ s.scn.prCapture.isSome = true ∨ ps = [] ∨ ps.any (fun p => s.port p Reg.SCN_PORT_STATUS_PR_CAP == 0) = true then s
  else s.onScn fun c => { c with prCapture := some s.nextFrame, prFrom := none, prWaking := false }

/-- ENTER. -/
def execEnter (s : State) : Host.Outcome State Fault Refusal := .next s.prEnter

/-- The capture frame begins, or moves on when it is a blank one (R652, R655). Once it is past, the frame before the present one stands for it,
so that Panel Replay may last beyond the range of R38. -/
def State.prFrameStart (s : State) : State :=
  match s.scn.prCapture with
  | none => s
  | some f =>
    if 2 ≤ s.prState then s.onScn fun c => { c with prCapture := some ((s.trd.now.frame + 65535) % 65536) }
    else if s.trd.now.frame ≠ f ∨ s.prState ≠ 0 then s
    else if s.scn.blank.contains f then s.onScn fun c => { c with prCapture := some s.nextFrame }
    else s.setFld Reg.SCN_PR_STATUS Reg.SCN_PR_STATUS_STATE 1

/-- The reserved looms are gated (R710, R712). -/
def State.gateReserved (s : State) : State :=
  s.onLooms fun l => if l.raster then { l with gated := true, owner := .nobody } else l

/-- PR_ACTIVE: the frame after the capture frame begins (R656, R657, R707, R712). -/
def execPrActive (s : State) : Host.Outcome State Fault Refusal :=
  match s.scn.prCapture with
  | none => .next s
  | some f =>
    if s.prState = 1 ∧ frameAfter s.trd.now.frame f = true then
      .next (((((s.setFld Reg.SCN_PR_STATUS Reg.SCN_PR_STATUS_STATE 2).bump Reg.SCN_PR_CNT).gateReserved).onScn fun c =>
        { c with lines := [] }).dropRows fun _ => true).retarget
    else .next s

/-- EXIT: a write of EXIT, or with EXIT_ON_INTAKE a record that becomes eligible (R658). -/
def execExit (intake : Bool) (s : State) : Host.Outcome State Fault Refusal :=
  if intake && !(s.bit Reg.SCN_PR_CTL Reg.SCN_PR_CTL_EXIT_ON_INTAKE && s.pic.fifo.any s.frameEligible) then .next s else .next s.prExit

/-- The wake has ended: the first frame sent is the first whose shed-0 launch stamp falls after this (R659). -/
def State.prWoken (s : State) : State :=
  let f := s.nextFrame
  let g := if (s.launchStamp f 0).after s.trd.now then f else (f + 1) % 65536
  s.onScn fun c => { c with prWaking := false, prFrom := some g }

/-- PR_EXIT_FRAME: the first frame after an exit is sent, and STATE reads OFF (R659). -/
def execPrExitFrame (s : State) : Host.Outcome State Fault Refusal :=
  match s.scn.prFrom with
  | none => .next s
  | some g =>
    if s.prState = 3 ∧ (s.trd.now.frame = g ∨ frameAfter s.trd.now.frame g = true) then
      .next (((s.setFld Reg.SCN_PR_STATUS Reg.SCN_PR_STATUS_STATE 0).onScn fun c =>
        { c with prCapture := none, prFrom := none }).portsFrameStart)
    else .next s

/-! Dither (R623, R624). -/

/-- The dither matrix. -/
def bayer : List (List Nat) := [[0, 8, 2, 10], [12, 4, 14, 6], [3, 11, 1, 9], [15, 7, 13, 5]]

/-- A component reduced to the panel depth, with the component's offset. -/
def dither (w : Word) (frame x y ox oy v : Nat) : Nat :=
  let d := 6 + 2 * Reg.CMP_DITHER_DEPTH.get w
  let sh := 12 - d
  if Reg.CMP_DITHER_EN.get w = 0 then min (2 ^ d - 1) ((v + 2 ^ sh / 2) / 2 ^ sh)
  else
    let t := Reg.CMP_DITHER_TEMPORAL.get w
    let b := (bayer.getD ((y + t * 2 * (frame / 2 % 2) + oy) % 4) []).getD ((x + t * 2 * (frame % 2) + ox) % 4) 0
    min (2 ^ d - 1) ((v + (2 * b + 1) * 2 ^ sh / 32) / 2 ^ sh)

/-- A pixel reduced to the panel depth. -/
def Rgb.dithered (w : Word) (frame x y : Nat) (p : Rgb) : Nat × Nat × Nat :=
  (dither w frame x y 0 0 p.r, dither w frame x y 1 2 p.g, dither w frame x y 2 1 p.b)

/-! Sending. -/

/-- The signature's bytes of a line (R663). -/
def lineBytes (l : List Rgb) : List Byte := l.flatMap fun p => leBytes 2 p.r ++ leBytes 2 p.g ++ leBytes 2 p.b

/-- The CRC-32 state after more bytes. -/
def crc32On (st : Nat) (l : List Byte) : Nat :=
  (l.foldl (fun c b => (List.range 8).foldl (fun x _ => crc32Bit x) (c ^^^ BitVec.zeroExtend 32 b)) (BitVec.ofNat 32 st)).toNat

/-- The columns of a line that a port carries (R631, R632). -/
def State.portPart {α : Type} (s : State) (p : Nat) (l : List α) : List α :=
  if s.portMode = 1 then (if p = 0 then l.take (s.trd.timing.hActive / 2) else l.drop (s.trd.timing.hActive / 2)) else l

/-- The bytes a port's encoder takes the CRC of a line over: each component as a 16-bit value, R, G, B, most significant bit first (R660). -/
def crcBytes (l : List (Nat × Nat × Nat)) : List Byte :=
  l.flatMap fun p => (leBytes 2 p.1).reverse ++ (leBytes 2 p.2.1).reverse ++ (leBytes 2 p.2.2).reverse

/-- The CRC of a line's pixels in transmit order (R660). -/
def lineCrc (l : List (Nat × Nat × Nat)) : Nat := crc16 (crcBytes l)

/-- Whether the CRC of the pixels the samplers at a port's pads decode differs from the encoder's (R660, R661). `decoded` holds the pixels of the
ports whose transmitted symbols do not decode to what was sent; of every other port the sent pixels come back. -/
def crcDiffers (decoded : List (Fin 2 × List (Nat × Nat × Nat))) (p : Nat) (sent : List (Nat × Nat × Nat)) : Bool :=
  match decoded.find? fun x => x.1.val == p with
  | none => false
  | some x => lineCrc x.2 != lineCrc sent

/-- What the pads' samplers find of a port's line (R660 to R662): a mismatch is counted with the line's stamp, and undecodable symbols by
lane. -/
def State.readBack (s : State) (p line : Nat) (mismatch : Bool) (bad : List Nat) : State :=
  let s1 := bad.foldl (fun t l => t.bump (Reg.SCN_RB_LANE_CNT p l)) s
  if mismatch then (s1.bump (Reg.SCN_RB_ERR_CNT p)).wrStamp (Reg.SCN_RB_LO p) (Reg.SCN_RB_HI p) ⟨s.trd.now.frame, line, 0, 0⟩ else s1

/-- LINE_SEND: scan-out sends the present raster line on the ports that send video, each with its CRC; the pixels the pads of a port decode where
they are not those sent, and the lanes on which a symbol does not decode (R631, R632, R634, R637, R644, R660 to R663). -/
def execLineSend (decoded : List (Fin 2 × List (Nat × Nat × Nat))) (lanes : List (Fin 2 × Fin 4)) (s : State) : Host.Outcome State Fault Refusal :=
  let n := s.trd.now
  match s.scn.lines.find? fun l => l.frame == n.frame && l.line == n.line with
  | none => .next s
  | some l =>
    if s.darkFrame n.frame || !s.scn.sending then .next s
    else
      let w := s.cmp Reg.CMP_DITHER
      let out := l.pixels.zipIdx.map fun x => x.1.dithered w n.frame x.2 n.line
      let ports := (List.range 2).filter fun p => s.port p Reg.SCN_PORT_STATUS_VIDEO == 1
      let s1 := ports.foldl (fun t p => (t.emit 0 (.videoLine p n.frame n.line (s.prState == 1) (s.portPart p out))).readBack p n.line
        (crcDiffers decoded p (s.portPart p out)) ((lanes.filter fun q => q.1.val == p).map fun q => q.2.val)) s
      let start := if n.line = 0 then 0xFFFFFFFF else s.scn.sigState
      .next (s1.onScn fun c => { c with
        lines := c.lines.filter fun x => !(x.frame == n.frame && x.line == n.line)
        lineCrc := ports.foldl (fun t p => tblSet 0 t p (lineCrc (s.portPart p out))) c.lineCrc
        sigState := crc32On start (lineBytes l.pixels)
        sigFrame := some n.frame })

/-- FREEZE_CHECK: after the last active line of a sent frame its signatures are compared with those of the frame sent before (R663 to
R666). -/
def execFreezeCheck (s : State) : Host.Outcome State Fault Refusal :=
  match s.scn.sigFrame with
  | none => .next s
  | some f =>
    if s.trd.now.frame = f ∧ s.trd.now.line + 1 < s.trd.timing.vActive then .next s
    else
      let out := s.scn.sigState ^^^ 0xFFFFFFFF
      let inp := ((s.pic.sigs.find? fun x => x.1 == f).map fun x => x.2).getD 0
      let s1 := (((s.wr Reg.CMP_OUT_SIG (BitVec.ofNat 32 out)).wr Reg.CMP_IN_SIG (BitVec.ofNat 32 inp)).onScn fun c =>
        { c with sigFrame := none, sigState := 0xFFFFFFFF, prevOut := some out, prevIn := some inp })
      let limit := Reg.CMP_FRZ_CFG_N.get (s.cmp Reg.CMP_FRZ_CFG)
      let run := s.fld Reg.CMP_FRZ_RUN Reg.CMP_FRZ_RUN_RUN
      .next (match s.scn.prevOut, s.scn.prevIn with
        | some po, some pi =>
          if limit = 0 then s1
          else if po ≠ out then s1.setFld Reg.CMP_FRZ_RUN Reg.CMP_FRZ_RUN_RUN 0
          else if pi = inp then s1
          else
            let s2 := s1.setFld Reg.CMP_FRZ_RUN Reg.CMP_FRZ_RUN_RUN (min 255 (run + 1))
            if run < 255 ∧ run + 1 = limit then
              (s2.setFld Reg.CMP_STATUS Reg.CMP_STATUS_FROZEN 1).bump Reg.CMP_FROZEN_CNT
            else s2
        | _, _ => s1)

/-- Scan-out's part of a frame-abort in the present CCLK, taken before the Treadle cuts the frame (R648, R651 to R653): every enabled port ends
its line, the next frame is blank, and what was fetched or composed is dropped. A capture frame that is cut, or falls on the blank
frame, is made again after it. -/
def State.scanAbort (s : State) : State :=
  let f := s.nextFrame
  let s1 := if s.trd.abortWant.contains .underrun then s.bump Reg.CMP_ABORT_CNT else s
  let s2 := if s.scn.sending then ((List.range 2).filter s1.portActive).foldl (fun t p => t.emit 0 (.lineCut p)) s1 else s1
  let again := s.prState ≤ 1 && (s.scn.prCapture == some s.trd.now.frame || s.scn.prCapture == some f)
  let s3 := (s2.dropRows fun _ => true).onScn fun c => { c with
    blank := (c.blank.filter fun x => !frameAfter s.trd.now.frame x) ++ (if c.blank.contains f then [] else [f])
    lines := []
    sigFrame := none
    sigState := 0xFFFFFFFF
    prCapture := if again then some ((f + 1) % 65536) else c.prCapture }
  if again then s3.setFld Reg.SCN_PR_STATUS Reg.SCN_PR_STATUS_STATE 0 else s3

end Sys2Proof.Machine
end

