-- ==== Sys2Proof/Machine/Raster.lean ====
section
/-! DEFINITION. The raster's own steps: pick, line and frame boundaries (R26 to R33, R742 to R748), the frame-abort (R57 to R62, R652,
R834), and the change and loss of the reference (R21, R24, R740, R748, R833). -/

namespace Sys2Proof.Machine

/-! The Selvage time base. -/

/-- Change the Selvage link. -/
def State.onSlv (s : State) (f : Slv → Slv) : State := { s with slv := f s.slv }

/-- A Selvage port is UP. -/
def State.slvUp (s : State) (p : Nat) : Bool := s.fld (Reg.SLV_PORT p) Reg.SLV_PORT_STATE == 4

/-- The chip follows another chip's time. -/
def State.follower (s : State) : Bool := s.fld Reg.SLV_STATUS Reg.SLV_STATUS_ROLE == 2

/-- The UP ports that have delivered a TIME message within the last 64 lines, with their HOPS. -/
def State.timePorts (s : State) : List (Nat × Nat) :=
  (List.range 4).filterMap fun p => match tblFind s.slv.time p with
    | some t => if s.slvUp p && decide (t.lines < 64) then some (p, t.hops) else none
    | none => none

/-- The parent: the lowest HOPS, and among equals the lowest port index; 7 for none (R743). -/
def State.bestParent (s : State) : Nat × Nat :=
  s.timePorts.foldl (fun b x => if b.1 = 7 ∨ x.2 < b.2 then x else b) (7, 0)

/-- Take the parent of the present CCLK and its HOPS plus 1; a change is counted (R743, R748). -/
def State.chooseParent (s : State) : State :=
  if s.follower then
    let b := s.bestParent
    let old := s.fld Reg.SLV_TIME Reg.SLV_TIME_PARENT
    let s1 := if b.1 = 7 then s else s.setFld Reg.SLV_TIME Reg.SLV_TIME_HOPS (b.2 + 1)
    if b.1 = old then s1 else (s1.setFld Reg.SLV_TIME Reg.SLV_TIME_PARENT b.1).bump Reg.SLV_PARENT_CNT
  else s

/-! Boundaries. -/

/-- A line begins: it is counted for the time messages (R743, R748) and towards a REALIGN boundary (R25), and the regions that Press or
the stretcher touched in the line before are set apart (Table 12.9). `ended` is the number of lines of the frame that ended. -/
def State.lineBegun (s : State) (ended : Nat) : State :=
  let s1 := (s.lineSeries ended).onSlv fun v => { v with
    time := (v.time.map fun e => (e.1, { e.2 with lines := e.2.lines + 1 })).filter fun e => decide (e.2.lines < 64)
    waited := v.waited + 1 }
  let s2 : State := { s1 with pwr := { s1.pwr with pressedPrev := s1.pwr.pressed, pressed := [] } }
  (s2.onTrd fun t => { t with realign := t.realign.map (fun n => n - 1), hsAge := min 2 (t.hsAge + 1) }).chooseParent

/-- The FRAME a follower takes where a correction of its vertical phase completes (R746). -/
def State.alignFrame (s : State) : State :=
  match s.slv.frameTo with
  | none => s
  | some f => (s.onTrd fun t => { t with now := { t.now with frame := f % 65536 } }).onSlv fun v => { v with frameTo := none }

/-- A frame begins: the correction of the one before is done with, and one that came too late for it is made now (R26); the looms count its corrected errors afresh, and the ports and
Panel Replay take what holds from this frame on. -/
def State.frameBegun (s : State) : State :=
  let s1 := (s.onTrd fun t => { t with lineFix := if t.dropNext then .drop else .none, dropNext := false, vsAge := min 2 (t.vsAge + 1) }).onLooms
    fun l => { l with ceFrame := 0 }
  let s2 := s1.onScn fun c => { c with blank := c.blank.filter fun x => !frameAfter s.trd.now.frame x }
  s2.countAfresh.prFrameStart.portsFrameStart

/-- What every pick boundary does once the stamp stands at the new pick: the comparators and the scoreboard look at it (R37, R259), and
refresh, moderation, charges and idle looms count it (R212, R220, R350, R711). -/
def State.pickBegun (s : State) : State :=
  ((s.compareSlots.refreshReady.dmcPick.modPick).onTen fun t => { t with picks := t.picks + 1 }).onLooms fun l =>
    { l with idle := l.idle + 1 }

/-! Frame-abort. -/

/-- The FRAME to take after a frame-abort: a REALIGN abort completes a follower's correction, and any other cuts it off (R57, R746). -/
def State.alignAborted (s : State) (realign : Bool) : State :=
  if realign then s.alignFrame else s.onSlv fun v => { v with frameTo := none }

/-- A frame-abort takes effect in the present CCLK, once for all its causes (R57 to R62, R648, R652, R834): the sheds in flight are
discarded, the frame is cut, and frame f + 1 begins in the next CCLK. -/
def State.abortFrame (s : State) : State :=
  let s1 := (s.countStretch.scanAbort.onPic fun p => { p with sheds := [], last := none }).onSlv fun v => { v with maps := [], mapWaits := [] }
  ((s1.cutFrame.alignAborted (s.trd.abortWant.contains .realign)).frameBegun.lineBegun 65536).pickBegun

/-- The pixel clock makes a raster: no thermal trip has stopped it (R705), and the straps do not select TEST (R73). -/
def State.rasterRuns (s : State) : Bool := !s.boot.tripped && !s.boot.test

/-- FRAME_ABORT: the abort that an underrun asks for, 2 CCLK after it, or a DEV_RESET (R651). -/
def execFrameAbort (s : State) : Host.Outcome State Fault Refusal :=
  .next (if s.trd.abortWant.isEmpty || !s.rasterRuns then s
    else (if s.trd.abortWant.all fun c => c == .underrun then s.elapseTo s.trd.abortAt else s).abortFrame)

/-- A follower's FRAME is corrected at the natural start of a frame when no REALIGN abort is on its way (R746). -/
def State.alignFrameHere (s : State) : State := if s.trd.realign.isNone then s.alignFrame else s

/-- The next pick begins in the next CCLK (R26, R27, R30, R33). -/
def State.nextPickBegins (s : State) : State :=
  let n := s.trd.now
  let t := s.nextPick
  let s1 := (s.pickStat.countStretch.onTrd fun x => { x with restart := false }).cclkBegins t
  let s2 := if t.frame = n.frame then s1 else ((s1.onTrd fun x => { x with prevLines := s.frameLines }).alignFrameHere).frameBegun
  (if n.pick < 63 then s2 else s2.lineBegun s.frameLines).pickBegun

/-- PICK_BOUNDARY: a pick boundary emerges. The last CCLK before the line boundary that R25 names is that of a REALIGN frame-abort. -/
def execPickBoundary (s : State) : Host.Outcome State Fault Refusal :=
  .next (
    if !s.rasterRuns then s
    else if s.trd.now.pick = 63 ∧ s.trd.realign = some 1 then
      (s.pickStat.onTrd fun t => { t with abortWant := t.abortWant ++ [.realign] }).abortFrame
    else s.nextPickBegins)

/-! References. -/

/-- Whether this chip is the wall's time master. -/
def State.timeMaster (s : State) : Bool := s.fld Reg.SLV_STATUS Reg.SLV_STATUS_ROLE == 1

/-- The reference REF_SEL names comes into use, and where it is another than before its acquisition begins (R21, R740, R833): the time
master runs from the internal PLL in place of itself, which is a configuration error. -/
def State.takeReference (s : State) : State :=
  let sel := s.fld Reg.TRD_CTL Reg.TRD_CTL_REF_SEL % 3
  let self := sel = 2 ∧ s.timeMaster = true
  let use := if self then 0 else sel
  let s1 := s.onTrd fun t => { t with refPend := none }
  let s2 := if use = s.trd.refUse then s1 else
    ((s1.onTrd fun t => { t with refUse := use, hsGood := 0, hsBad := 0, vsOk := false, vsBad := 0, realign := none }).onSlv fun v =>
      { v with good := 0, waited := 0, frameTo := none }).setLock (if use = 0 then 0 else 1)
  if self then s2.setFld Reg.SLV_STATUS Reg.SLV_STATUS_CFG_ERR 1 else s2

/-- REFERENCE_CHANGE: at the frame start after its write a new REF_SEL is in use (R833). -/
def execReferenceChange (s : State) : Host.Outcome State Fault Refusal :=
  match s.trd.refPend with
  | none => .next s
  | some f => .next (if s.trd.now.frame = f ∨ frameAfter s.trd.now.frame f = true then s.takeReference else s)

/-- HOLDOVER_ENTRY: house sync has been absent for the time of R24, or a chip under the Selvage time master has had no parent for 64
lines (R24, R748). -/
def execHoldoverEntry (s : State) : Host.Outcome State Fault Refusal :=
  let here := s.lock = 1 ∨ s.lock = 2
  .next (
    if ¬ here ∨ s.trd.refUse = 0 then s
    else if s.trd.refUse = 1 then s.holdover
    else if s.timePorts.isEmpty && decide (64 ≤ s.slv.waited) then
      let s1 := (s.chooseParent.holdover).onSlv fun v => { v with good := 0 }
      if s.follower then s1.setFld Reg.SLV_STATUS Reg.SLV_STATUS_MASTER_LOST 1 else s1
    else s)

end Sys2Proof.Machine
end

