-- ==== Sys2Proof/Machine/Power.lean ====
section
/-! DEFINITION. Power and health: steering and operating points (R673 to R678), PMBus (R680 to R682, R688 to R696), Press and the stretcher
(R683 to R686), the ladder's ticks (R700 to R704), gating and wakes (R709 to R713), and Rinse (R714 to R719). -/

namespace Sys2Proof.Machine

/-! Limits in force (R672, R690). -/

/-- Limit registers as they take effect: above their limits they are clamped. -/
def State.capW (s : State) : Nat := min (if s.boot.fuses.wall then 60 else 30) (s.fld Reg.PWR_LIMIT Reg.PWR_LIMIT_CAP_W)
def State.edcA (s : State) : Nat := min 110 (s.fld Reg.PWR_LIMIT Reg.PWR_LIMIT_EDC_A)
def State.tdcA (s : State) : Nat := min 72 (s.fld Reg.PWR_LIMIT Reg.PWR_LIMIT_TDC_A)
def State.thrTemp (s : State) : Int := (max 60 (min 100 (s.fld Reg.PWR_THR_CFG Reg.PWR_THR_CFG_THR_TEMP)) : Nat)
def State.p2Temp (s : State) : Int := (max 100 (min 105 (s.fld Reg.PWR_THR_CFG Reg.PWR_THR_CFG_P2_TEMP)) : Nat)

/-- The fault fraction f in eighths (R690). -/
def faultFrac (v : Word) : Nat :=
  let count := fun (m : Nat) => ((List.range 8).filter m.testBit).length
  max 2 (8 - count (Reg.PWR_FAULT_OPEN.get v) - 2 * count (Reg.PWR_FAULT_SENSE.get v))

/-- Keep FRAC beside the flags. -/
def State.refreshFrac (s : State) : State :=
  s.setFld Reg.PWR_FAULT Reg.PWR_FAULT_FRAC (faultFrac (s.rd Reg.PWR_FAULT))

/-- f in eighths, as in force. -/
def State.frac (s : State) : Nat := s.fld Reg.PWR_FAULT Reg.PWR_FAULT_FRAC

/-- Set one bit of PWR_STATUS.TRIP. -/
def State.setTrip (s : State) (k : Nat) (on : Bool) : State :=
  s.setFld Reg.PWR_STATUS ⟨Reg.PWR_STATUS_TRIP.lo + k, 1⟩ (if on then 1 else 0)

/-! Sensing. -/

/-- A byte as a signed number. -/
def signed8 (x : Nat) : Int := if x % 256 < 128 then (x % 256 : Nat) else (x % 256 : Nat) - 256

/-- A 16-bit field as a signed number. -/
def signed16 (x : Nat) : Int := if x % 65536 < 32768 then (x % 65536 : Nat) else (x % 65536 : Nat) - 65536

/-- The two's complement code of a number in a field. -/
def codeOf (w : Nat) (x : Int) : Nat := (x % (2 ^ w : Nat)).toNat

/-- A droop sensor's calibrated report: its reading and its offset. -/
def State.droopReport (s : State) (n raw : Nat) : Int := raw + signed8 (s.fld (Reg.PWR_SENS n) Reg.PWR_SENS_OFF)

/-- A sensor is under calibration in the present tick (R674, R716). -/
def State.underCal (s : State) (n : Nat) : Bool := s.pwr.calUnit == some n || s.pwr.calTick.contains n

/-- Note one sensor's report of a tick; out of range it is excluded and counted (R674). -/
def State.noteDroop (raws : List Nat) (s : State) (n : Nat) : State :=
  if s.underCal n then s
  else
    let v := s.droopReport n (raws.getD n 0)
    let bad := v < 450 ∨ 1000 < v
    let s1 := (s.setFld (Reg.PWR_SENS n) Reg.PWR_SENS_MV (clampInt 1023 v)).setFld (Reg.PWR_SENS n) Reg.PWR_SENS_BAD (if bad then 1 else 0)
    if bad then s1.bump Reg.PWR_SENSOR_BAD_CNT else s1

/-- The valid reports of a tick once they are noted: sensor and mV. -/
def State.validDroops (s : State) : List (Nat × Nat) :=
  (List.range 256).filterMap fun n =>
    if s.underCal n || s.bit (Reg.PWR_SENS n) Reg.PWR_SENS_BAD then none else some (n, s.fld (Reg.PWR_SENS n) Reg.PWR_SENS_MV)

/-- The lowest of some reports, the lowest sensor among equals. -/
def lowest : List (Nat × Nat) → Option (Nat × Nat)
  | [] => none
  | x :: xs => some (xs.foldl (fun b y => if y.2 < b.2 then y else b) x)

/-! Steering (R673 to R676). -/

/-- VFLOOR of a point. -/
def State.vfloor (s : State) (op : Nat) : Nat := s.fld (Reg.PWR_OPP op) Reg.PWR_OPP_VFLOOR

/-- The setpoint after a tick with a lowest report (R675). -/
def State.steer (s : State) (smin : Nat) : Nat :=
  let opf := s.fld Reg.PWR_STATUS Reg.PWR_STATUS_OP
  let f := fun (x : Field) => s.fld Reg.PWR_STEER x
  let err : Int := (s.vfloor s.pwr.target + f Reg.PWR_STEER_GUARD : Nat) - (smin : Int)
  let up : Nat := if s.pwr.target ≠ opf then f Reg.PWR_STEER_OP_SLEW else f Reg.PWR_STEER_STEP_UP
  let old : Int := s.fld Reg.PWR_SETPT Reg.PWR_SETPT_SET
  let new := if 0 < err then old + min err up else old - min (-err) (f Reg.PWR_STEER_STEP_DN)
  (min 850 (max (s.vfloor opf : Int) new)).toNat

/-- STEERING_TICK (R673 to R676, R700, R704): a 10 µs tick ends, and none sooner; the reports are noted, the setpoint follows and is written over AVSBus, and the current
estimate may trip the ladder. -/
def execSteeringTick (reports : List Nat) (iest vadc : Nat) (accepted : Bool) (s : State) : Host.Outcome State Fault Refusal :=
  if !s.boot.fusesRead || s.boot.tripped || decide (s.trd.time < s.pwr.steerAt) then .next s
  else
    let s0 := s.onPwr fun p => { p with steerAt := p.steerAt + 10 * usTime }
    let s1 := (List.range 256).foldl (State.noteDroop reports) s0
    let vs := s1.validDroops
    let low := lowest vs
    let smin := (low.map fun x => x.2).getD 0
    let set := s1.steer smin
    let region := match low with
      | some x => x.1 / 16
      | none => s1.fld Reg.PWR_SETPT Reg.PWR_SETPT_REGION
    let s2 := ((s1.setFld Reg.PWR_SETPT Reg.PWR_SETPT_SET set).setFld Reg.PWR_SETPT Reg.PWR_SETPT_SMIN smin).setFld Reg.PWR_SETPT
      Reg.PWR_SETPT_REGION region
    let s3 := (s2.emit 0 (.avsWrite set)).setFld Reg.PWR_CUR Reg.PWR_CUR_IEST iest
    let s4 := if accepted then s3 else s3.bump Reg.PWR_AVS_ERR_CNT
    let mean := fun (r : Nat) => (((vs.filter fun x => x.1 / 16 == r).map fun x => x.2).sum, (vs.filter fun x => x.1 / 16 == r).length)
    let need := s4.vfloor s4.pwr.target + s4.fld Reg.PWR_STEER Reg.PWR_STEER_GUARD
    let s5 := s4.onPwr fun p => { p with
      vadc := vadc
      regions := (List.range 16).map mean
      calTick := []
      upAt := if p.target < s4.op ∧ need ≤ smin ∧ p.upAt = none then some s4.trd.cclk else p.upAt }
    let trip := decide (s5.edcA * 10 * s5.frac < iest * 8)
    let s6 := s5.setTrip 0 trip
    .next (if trip then s6.ladderTrip true false else s6)

/-! Operating points (R677, R678). -/

/-- A point comes into force (R34, R773). -/
def State.setOp (s : State) (op : Nat) : State :=
  ((s.setFld Reg.PWR_STATUS Reg.PWR_STATUS_OP op).setFld Reg.PWR_STATUS Reg.PWR_STATUS_OP_PEND 0).dramOpChange op

/-- OP_CHANGE_DOWN: the CCLK rate follows from the next CCLK on (R34). -/
def execOpChangeDown (s : State) : Host.Outcome State Fault Refusal :=
  .next (if s.op < s.pwr.target then (s.keepInForce Reg.PWR_STATUS).setOp s.pwr.target else s)

/-- OP_CHANGE_UP: in the CCLK after the first tick whose S_min reached the target's floor and guard; with DEPTH 1 the reserved looms wake now
(R713). -/
def execOpChangeUp (s : State) : Host.Outcome State Fault Refusal :=
  match s.pwr.upAt with
  | none => .next s
  | some c => .next (if s.pwr.target < s.op then
      (((s.elapseTo (c + 1)).onPwr fun p => { p with upAt := none }).setOp s.pwr.target).wakeReserved
    else s)

/-! PMBus. -/

/-- Count a poll transaction that failed (R681). -/
def State.pollFailed (s : State) (ok : Bool) : State := if ok then s else s.bump Reg.PWR_PMB_ERR_CNT

/-- The phases flagged OPEN or SENSE. -/
def State.phaseOpen (s : State) (k : Nat) : Bool := (s.fld Reg.PWR_FAULT Reg.PWR_FAULT_OPEN).testBit k
def State.phaseSense (s : State) (k : Nat) : Bool := (s.fld Reg.PWR_FAULT Reg.PWR_FAULT_SENSE).testBit k

/-- One phase's read (R689): a read counts when it fails, or when it is near 0 while the other phases that are not OPEN carry PH_HIGH on average;
the third in a row flags SENSE. -/
def State.notePhase (s : State) (k : Nat) (r : Option Nat) : State :=
  let s1 := s.pollFailed r.isSome
  let s2 := match r with
    | some v => s1.onPwr fun p => { p with phases := p.phases.set k v }
    | none => s1
  let others := (List.range 8).filter fun j => j != k && !s.phaseOpen j
  let sum := (others.map fun j => s2.pwr.phases.getD j 0).sum
  let high := others ≠ [] ∧ s.fld Reg.PWR_PMB_CFG Reg.PWR_PMB_CFG_PH_HIGH * 10 * others.length ≤ sum
  let counts := !s.phaseOpen k && match r with
    | none => true
    | some v => decide (v < s.fld Reg.PWR_PMB_CFG Reg.PWR_PMB_CFG_PH_ZERO) && decide high
  let n := if counts then s.pwr.phaseBad.getD k 0 + 1 else 0
  let s3 := s2.onPwr fun p => { p with phaseBad := p.phaseBad.set k n }
  if 3 ≤ n then s3.setFld Reg.PWR_FAULT ⟨Reg.PWR_FAULT_SENSE.lo + k, 1⟩ 1 else s3

/-- The baseline of a region in µV per ampere (R694): the register's, else the learned one. -/
def State.baseline (s : State) (r : Nat) : Option Int :=
  let g := s.fld (Reg.PWR_BASE r) Reg.PWR_BASE_G
  if g ≠ 0 then some g else tblFind s.pwr.base r

/-- The path check of one region at a poll (R693, R695), in units of 0.1 µV: V_adc less the region's mean less G_r times READ_IOUT. -/
def State.pathCheck (s : State) (r : Nat) : State :=
  let m := s.pwr.regions.getD r (0, 0)
  match s.baseline r with
  | some g =>
    if m.2 = 0 then s.onPwr fun p => { p with pathRun := p.pathRun.set r 0 }
    else
      let n : Int := m.2
      let dev : Int := ((s.pwr.vadc : Int) * n - (m.1 : Int)) * 10000 - g * (s.fld Reg.PWR_CUR Reg.PWR_CUR_IOUT : Int) * n
      let run := if 120000 * n < dev then s.pwr.pathRun.getD r 0 + 1 else 0
      let s1 := (s.setFld (Reg.PWR_BASE r) Reg.PWR_BASE_DEV (codeOf 16 (dev / (10000 * n)))).onPwr fun p =>
        { p with pathRun := p.pathRun.set r run }
      if 101 ≤ run ∧ (s.fld Reg.PWR_PATH Reg.PWR_PATH_REGION).testBit r = false then
        (s1.setFld Reg.PWR_PATH ⟨r, 1⟩ 1).bump Reg.PWR_PATH_CNT
      else s1
  | none => s

/-- The check of the regulator's sense lines (R695). -/
def State.boardCheck (s : State) : State :=
  let d : Int := (s.fld Reg.PWR_PKG Reg.PWR_PKG_VOUT : Int) - (s.pwr.vadc : Int)
  let run := if 12 < d ∨ d < -12 then s.pwr.boardRun + 1 else 0
  let s1 := s.onPwr fun p => { p with boardRun := run }
  if 101 ≤ run ∧ s.bit Reg.PWR_FAULT Reg.PWR_FAULT_BOARD = false then (s1.setFld Reg.PWR_FAULT Reg.PWR_FAULT_BOARD 1).bump Reg.PWR_PATH_CNT
  else s1

/-- Package power from the polls' products of mV and 0.1 A, with the other rails, in 0.1 mW times the number of polls (Table 12.2). -/
def State.powerSum (s : State) : Nat :=
  s.pwr.power.sum + s.pwr.power.length * s.fld Reg.PWR_LIMIT Reg.PWR_LIMIT_OTHER * 1000

/-- The transactions of a poll group (R680), by their PMBus command codes, and the byte of a write. -/
def State.pollList (s : State) : List (Nat × Option Nat) :=
  let fault := s.fld Reg.PWR_PMB_CFG Reg.PWR_PMB_CFG_FAULT_CMD
  let phases := (List.range 4).flatMap fun k => [(0x04, some (s.pwr.phaseTurn + k)), (0x8C, none)]
  [(0x79, none), (0x8B, none), (0x04, some 0xFF), (0x8C, none), (0x8D, none)] ++ (if fault ≠ 0 then [(fault, none)] else []) ++ phases

/-- A poll group's transactions are sent (R679, R680). -/
def State.sendPoll (s : State) : State :=
  let addr := s.fld Reg.PWR_PMB_CFG Reg.PWR_PMB_CFG_ADDR
  s.pollList.foldl (fun t x => t.emit 0 (match x.2 with
    | some d => .pmbus addr x.1 false (leBytes 1 d)
    | none => .pmbus addr x.1 true [])) s

/-- A poll group runs, late when it begins over 0.5 ms after it was due (R680, R681, R688 to R696, Table 12.9). -/
def State.runPoll (s : State) (poll : PollGroup) : State :=
  let s0 := if s.pwr.pollAt + 500 * usTime < s.trd.time then s.sendPoll.bump Reg.RIN_PMB_LATE_CNT else s.sendPoll
  let s1 := (((s0.pollFailed poll.status).pollFailed poll.vout.isSome).pollFailed poll.iout.isSome).pollFailed poll.temp
  let s2 := match poll.vout with
    | some v => s1.setFld Reg.PWR_PKG Reg.PWR_PKG_VOUT v
    | none => s1
  let s3 := match poll.iout with
    | some v => s2.setFld Reg.PWR_CUR Reg.PWR_CUR_IOUT v
    | none => s2
  let i := s3.fld Reg.PWR_CUR Reg.PWR_CUR_IOUT
  let v := s3.fld Reg.PWR_PKG Reg.PWR_PKG_VOUT
  let s4 := s3.onPwr fun p => { p with iout := (i :: p.iout).take 10, power := (v * i :: p.power).take 1000 }
  let s5 := s4.setFld Reg.PWR_PKG Reg.PWR_PKG_POWER (s4.powerSum / (1000 * s4.pwr.power.length))
  let asks := s.fld Reg.PWR_PMB_CFG Reg.PWR_PMB_CFG_FAULT_CMD ≠ 0
  let s6 := if asks then (match poll.fault with
    | some m => s5.setFld Reg.PWR_FAULT Reg.PWR_FAULT_OPEN (s5.fld Reg.PWR_FAULT Reg.PWR_FAULT_OPEN ||| m)
    | none => s5.pollFailed false) else s5
  let turn := s.pwr.phaseTurn
  let s7 := (List.range 4).foldl (fun t k => t.notePhase (turn + k) (poll.phases.getD k none)) s6
  let s8 := s7.onPwr fun p => { p with phaseTurn := (turn + 4) % 8 }
  let flags := fun (t : State) => (t.rd Reg.PWR_FAULT).toNat % 65536
  let s9 := s8.refreshFrac
  let s10 := if flags s9 ≠ flags s then s9.phaseTrip else s9
  ((List.range 16).foldl State.pathCheck s10).boardCheck

/-- POLL_GROUP: once in 1 ms, and not before a host transaction that waits and has a place (R680, R682); a thermal trip has stopped CCLK (R705). -/
def execPollGroup (poll : PollGroup) (s : State) : Host.Outcome State Fault Refusal :=
  .next (if s.boot.tripped || decide (s.trd.time < s.pwr.pollAt) || (s.pwr.hostCmd && s.pwr.hostLeft != 0) then s
    else (s.runPoll poll).onPwr fun p => { p with pollAt := p.pollAt + 1000 * usTime, hostLeft := s.pollList.length })

/-- PMBUS_HOST_TRANSACTION: the transaction of PWR_PMB_CMD is sent as it stands, and its result is reported; at most one runs between two poll
transactions (R682). DESIGN CHOICE (log 151): a poll group being one step, those that run inside one are commanded after it. -/
def execPmbusHostTransaction (err : Fin 4) (data : Word) (s : State) : Host.Outcome State Fault Refusal :=
  if s.pwr.hostCmd && s.pwr.hostLeft != 0 then
    let n := min 4 (s.fld Reg.PWR_PMB_CMD Reg.PWR_PMB_CMD_LEN)
    let read := s.bit Reg.PWR_PMB_CMD Reg.PWR_PMB_CMD_RD
    let code := s.fld Reg.PWR_PMB_CMD Reg.PWR_PMB_CMD_CODE
    let s1 := s.emit 0 (.pmbus (s.fld Reg.PWR_PMB_CFG Reg.PWR_PMB_CFG_ADDR) code read (if read then [] else leBytes n (s.rd Reg.PWR_PMB_DATA).toNat))
    let s2 := (s1.onPwr fun p => { p with hostCmd := false, hostLeft := p.hostLeft - 1 }).wr Reg.PWR_PMB_STATUS (BitVec.ofNat 32 (2 * err.val))
    .next (if read ∧ err.val = 0 then s2.wr Reg.PWR_PMB_DATA (BitVec.ofNat 32 (data.toNat % 2 ^ (8 * n))) else s2)
  else .next s

/-- A write of PWR_PMB_CMD lands; GO hands the transaction to the master, one at a time (R682). -/
def State.landPmbCmd (s : State) (data : Word) : State :=
  let s1 := s.plainWrite Reg.PWR_PMB_CMD data
  if Reg.PWR_PMB_CMD_GO.get data = 1 ∧ s.pwr.hostCmd = false then
    (s1.onPwr fun p => { p with hostCmd := true }).setFld Reg.PWR_PMB_STATUS Reg.PWR_PMB_STATUS_BUSY 1
  else s1

/-! The 1 ms limits (R700, R703, R704). -/

/-- Note one thermal sensor's reading. -/
def State.noteThermal (temps : List Int) (s : State) (n : Nat) : State :=
  if s.pwr.calUnit = some (256 + n) then s
  else
    let v := temps.getD n (-128) + signed8 (s.fld (Reg.PWR_TSENS n) Reg.PWR_TSENS_OFF)
    (s.setFld (Reg.PWR_TSENS n) Reg.PWR_TSENS_TEMP (codeOf 8 (max (-128) (min 127 v)))).setFld (Reg.PWR_TSENS n) Reg.PWR_TSENS_BAD
      (if v < -40 ∨ 150 < v then 1 else 0)

/-- The hottest valid sensor, the lowest number among equals, by readings with offsets. -/
def State.hottest (s : State) (temps : List Int) : Option (Nat × Int) :=
  (List.range 40).foldl (fun (b : Option (Nat × Int)) n =>
    if s.pwr.calUnit = some (256 + n) ∨ s.bit (Reg.PWR_TSENS n) Reg.PWR_TSENS_BAD = true then b
    else
      let v := temps.getD n (-128) + signed8 (s.fld (Reg.PWR_TSENS n) Reg.PWR_TSENS_OFF)
      match b with
      | none => some (n, v)
      | some x => if x.2 < v then some (n, v) else b) none

/-- LIMIT_TICK: once in 1 ms, junction temperature is taken, and TDC, package power and temperature trip the ladder one soft step, or let it back one after RELEASE
quiet ticks (R672, R700 to R704). -/
def execLimitTick (temps : List Int) (s : State) : Host.Outcome State Fault Refusal :=
  if s.boot.tripped || decide (s.trd.time < s.pwr.limitAt) then .next s
  else
    let s := s.onPwr fun p => { p with limitAt := p.limitAt + 1000 * usTime }
    let s1 := (List.range 40).foldl (State.noteThermal temps) s
    let s2 := match s1.hottest temps with
      | some x => (s1.setFld Reg.PWR_TJ Reg.PWR_TJ_TJ (codeOf 8 x.2)).setFld Reg.PWR_TJ Reg.PWR_TJ_SENSOR x.1
      | none => s1
    let tj := match s1.hottest temps with
      | some x => x.2
      | none => signed8 (s.fld Reg.PWR_TJ Reg.PWR_TJ_TJ)
    let n := max 1 s.pwr.iout.length
    let sum := s.pwr.iout.sum
    let tdc := s.tdcA * 10 * s.frac * n
    let m := max 1 s.pwr.power.length
    let power := s.powerSum
    let cap := s.capW * 10000 * m
    let edc := s.edcA * 10 * s.frac
    let iest := s.fld Reg.PWR_CUR Reg.PWR_CUR_IEST * 8
    let tripTdc := decide (tdc < sum * 8)
    let tripPower := decide (cap < power)
    let tripTemp := decide (s.thrTemp ≤ tj)
    let s3 := ((s2.setTrip 1 tripTdc).setTrip 2 tripPower).setTrip 3 tripTemp
    let low := decide (iest * 16 < edc * 15) && decide (sum * 8 * 16 < tdc * 15) && decide (power * 16 < cap * 15) && decide (tj < s.thrTemp - 3)
    if tripTdc || tripPower || tripTemp then
      .next ((s3.onPwr fun p => { p with release := 0 }).ladderTrip false (tripTemp && decide (s.p2Temp ≤ tj)))
    else if low then
      let count := s.pwr.release + 1
      let limit := orElse0 (s.fld Reg.PWR_THR_CFG Reg.PWR_THR_CFG_RELEASE) 1
      if limit ≤ count ∧ 0 < s.pwr.ladder ∧ s.pwr.stepped ≠ some s.trd.cclk then .next (s3.ladderTo (s.pwr.ladder - 1) false)
      else .next (s3.onPwr fun p => { p with release := count })
    else .next (s3.onPwr fun p => { p with release := 0 })

/-! Press and the stretcher. -/

/-- A region has been active in the present line (Table 12.9). -/
def State.pressRegion (s : State) (r : Nat) : State :=
  s.onPwr fun p => { p with pressed := if p.pressed.contains r then p.pressed else p.pressed ++ [r] }

/-- T_r of a region in units of 0.1 µV: the setpoint less G_r times I_est (R683). DESIGN CHOICE (log 152): a baseline that is neither set nor learned
is a free value. -/
def State.railTarget (s : State) (r : Nat) : Int :=
  (s.fld Reg.PWR_SETPT Reg.PWR_SETPT_SET : Int) * 10000 - (s.baseline r).getD (Config.unlearnedBase r) * (s.fld Reg.PWR_CUR Reg.PWR_CUR_IEST : Int)

/-- A reading in mV lies below T_r less some mV. -/
def State.railBelow (s : State) (r mv less : Nat) : Bool := decide ((mv : Int) * 10000 < s.railTarget r - (less : Int) * 10000)

/-- PRESS_FIRE: the rail at an armed injector that is not recharging is below T_r - THRESH, and it fires (R683, R684). -/
def execPressFire (rail : RailReading 64) (s : State) : Host.Outcome State Fault Refusal :=
  let i := rail.place.val
  let ready := (tblFind s.pwr.rearm i).getD 0
  if s.bit Reg.PWR_PRESS_CFG Reg.PWR_PRESS_CFG_EN && !s.pwr.firing.contains i && decide (ready ≤ s.trd.time) &&
      s.railBelow (i / 4) rail.mv (s.fld Reg.PWR_PRESS_CFG Reg.PWR_PRESS_CFG_THRESH) then
    .next ((((s.onPwr fun p => { p with firing := insertNat i p.firing, rearm := tblDel p.rearm i }).bump (Reg.PWR_PRESS_CNT i)).bump
      Reg.PWR_PRESS_TOT_CNT).pressRegion (i / 4))
  else .next s

/-- PRESS_RELEASE: the rail at a fired injector is above T_r - THRESH / 2, or its reservoir is spent; it recharges for 200 ns (R684). -/
def execPressRelease (injector : InjectorState) (s : State) : Host.Outcome State Fault Refusal :=
  let i := injector.rail.place.val
  let half := s.railTarget (i / 4) - (s.fld Reg.PWR_PRESS_CFG Reg.PWR_PRESS_CFG_THRESH : Int) * 5000
  if s.pwr.firing.contains i && (injector.spent || decide (half < (injector.rail.mv : Int) * 10000)) then
    .next (s.onPwr fun p => { p with
      firing := p.firing.filter (· ≠ i)
      rearm := tblPut p.rearm i (s.trd.time + usTime / 5) })
  else .next s

/-- STRETCHER_ENGAGE: a droop sensor's instantaneous reading; below the stretcher's threshold the stretcher engages in the CCLK after it (R685), and one
below the Press threshold begins the count of R686 again. -/
def execStretcherEngage (reading : RailReading 256) (s : State) : Host.Outcome State Fault Refusal :=
  let r := reading.place.val / 16
  let s1 := if s.railBelow r reading.mv (s.fld Reg.PWR_PRESS_CFG Reg.PWR_PRESS_CFG_THRESH) then s.onPwr fun p => { p with lowAt := s.trd.cclk } else s
  .next (if s.railBelow r reading.mv (s.fld Reg.PWR_STR_CFG Reg.PWR_STR_CFG_THRESH) then s1.tick.engage.pressRegion r else s1)

/-- STRETCHER_DISENGAGE: after HOLD CCLK without a reading below the Press threshold, but not while it is forced or held (R686). -/
def execStretcherDisengage (s : State) : Host.Outcome State Fault Refusal :=
  .next (if s.stretchHeld || decide (s.trd.cclk ≤ s.pwr.lowAt + s.fld Reg.PWR_STR_CFG Reg.PWR_STR_CFG_HOLD) then s
    else s.setFld Reg.PWR_STATUS Reg.PWR_STATUS_STR 0)

/-- A write of PWR_STR_CFG lands: FORCE engages the stretcher (R685). -/
def State.landStrCfg (s : State) (data : Word) : State :=
  let s1 := s.plainWrite Reg.PWR_STR_CFG data
  if s1.stretchHeld then s1.engage else s1

/-! Islands. -/

/-- IDLE_GATE (R707, R710, R711). -/
def execIdleGate (phys : Fin 34) (s : State) : Host.Outcome State Fault Refusal :=
  let l := s.loom phys
  let n := s.fld Reg.PWR_PR_CFG Reg.PWR_PR_CFG_IDLE_PICKS
  let free := l.inService && s.freePool.contains l.logical
  .next (if n ≠ 0 ∧ free = true ∧ n ≤ l.idle then s.onLoom phys fun x => { x with gated := true, owner := .nobody } else s)

/-- The CCLK in which the wake of the reserved looms ends: their islands are on, the longest clear is done, and with WAKE_BIST so is the test of all of
them at once (R285, R713, Table 12.8). -/
def State.wakeEnd (s : State) : Nat :=
  let looms := s.looms.filter fun l => l.raster
  (looms.map fun l => l.wakeAt).foldl max 0 + (looms.map fun l => if l.owner = .picture then 0 else clearCclk l.l1q).foldl max 0 +
    (if s.bit Reg.PWR_PR_CFG Reg.PWR_PR_CFG_WAKE_BIST then 2000000 else 0)

/-- WAKE_COMPLETE: with DEPTH 1 the point is the ladder's again; the reserved looms are on and cleared, a failed test makes a loom failing, and the first
frame after the exit is fixed (R659, R709, R710, R713). -/
def execWakeComplete (failed : List (Fin 34)) (s : State) : Host.Outcome State Fault Refusal :=
  if s.scn.prWaking && (!s.bit Reg.PWR_PR_CFG Reg.PWR_PR_CFG_DEPTH || s.op == s.pwr.target) && decide (s.wakeEnd ≤ s.trd.cclk) then
    let s1 := ((List.range 34).filter fun p => (s.loom p).raster).foldl (fun t p => t.clearLoom p .picture) s
    let bad := if s.bit Reg.PWR_PR_CFG Reg.PWR_PR_CFG_WAKE_BIST then (failed.map fun p => p.val).filter fun p => (s.loom p).raster else []
    .next (bad.foldl (fun t p => t.failLoom p 2) s1).prWoken
  else .next s

/-! Rinse. -/

/-- The regions a sensor's unit lies in: a droop sensor's own, a thermal sensor's loom's. -/
def State.unitRegions (s : State) (n : Nat) : List Nat :=
  if n < 256 then [n / 16]
  else if n - 256 < 34 then
    (List.range 16).filter fun r =>
      ((s.rd (Reg.PWR_REGION_LOOMS_LO r)).toNat + 2 ^ 32 * (s.rd (Reg.PWR_REGION_LOOMS_HI r)).toNat).testBit (n - 256)
  else []

/-- The calibration task of a slot (R715, R716, Table 12.9). -/
def State.startCal (s : State) : State :=
  let n := s.pwr.calNext
  let busy := (s.unitRegions n).any fun r => s.pwr.pressedPrev.contains r
  if s.pwr.calUnit.isSome || (busy && !s.blankingLine) then s
  else
    let s1 := s.onPwr fun p => { p with calUnit := some n, calAt := s.trd.time, calTick := if p.calTick.contains n then p.calTick else p.calTick ++ [n] }
    if n < 256 then s1.setFld (Reg.PWR_SENS n) Reg.PWR_SENS_CAL 1 else s1

/-- The flash address of a patrol unit. -/
def State.patrolAddr (s : State) (n : Nat) : Nat := if n < 32 then 256 * n else slotBase (s.boot.slot.getD 0) + 256 * (n - 32)

/-- The patrol task of a slot: a 256-byte read starts (R715, R717, Table 12.9). -/
def State.startPatrol (s : State) : State :=
  let foreground := s.boot.flCmd.isSome || decide (1 ≤ s.loadState ∧ s.loadState ≤ 4)
  if !s.bit Reg.RIN_CFG Reg.RIN_CFG_FLASH_EN || s.pwr.patrol.isSome || (foreground && !s.blankingLine) then s
  else (s.flashReq (.read (s.patrolAddr s.pwr.patrolNext) 256)).onPwr fun p => { p with patrol := some p.patrolNext }

/-- RINSE_SLOT: once in a line, at its slot's stamp (R36, R714, R715). -/
def execRinseSlot (s : State) : Host.Outcome State Fault Refusal :=
  let n := s.trd.now
  if n.pick = s.fld Reg.RIN_CFG Reg.RIN_CFG_SLOT_PICK ∧ s.pwr.slotDone ≠ some (n.frame, n.line) then
    let s1 := (State.elapse (s.toAction ⟨n.frame, n.line, n.pick, 0⟩) s).onPwr fun p => { p with slotDone := some (n.frame, n.line) }
    .next s1.startCal.startPatrol
  else .next s

/-- A learning sample of a region: (V_adc - V_r) / I in µV per ampere, while I is at least 20 A; the 64th gives the median (R694). -/
def State.learn (s : State) (r : Nat) (vadc : Int) : State :=
  let i := s.fld Reg.PWR_CUR Reg.PWR_CUR_IOUT
  let m := s.pwr.regions.getD r (0, 0)
  let old := (tblFind s.pwr.learn r).getD []
  if i < 200 ∨ m.2 = 0 ∨ 64 ≤ old.length ∨ (tblFind s.pwr.base r).isSome = true then s
  else
    let x : Int := (vadc * (m.2 : Int) - (m.1 : Int)) * 10000 / ((i * m.2 : Nat) : Int)
    let l := old ++ [x]
    if l.length < 64 then s.onPwr fun p => { p with learn := tblPut p.learn r l }
    else
      let o := l.mergeSort fun a b => decide (a ≤ b)
      s.onPwr fun p => { p with learn := tblDel p.learn r, base := tblPut p.base r ((o.getD 31 0 + o.getD 32 0) / 2) }

/-- Move a signed offset towards a difference, by at most a step. -/
def moveOffset (off diff : Int) (step : Nat) : Nat := codeOf 8 (max (-128) (min 127 (off + max (-(step : Int)) (min (step : Int) diff))))

/-- The running unit moves its sensor's offset (R716): a droop sensor's towards V_adc - G_r x I, a thermal sensor's towards the diode. -/
def State.calibrate (s : State) (n : Nat) (reading reference : Int) : State :=
  if n < 256 then
    let off := signed8 (s.fld (Reg.PWR_SENS n) Reg.PWR_SENS_OFF)
    let s1 := s.setFld (Reg.PWR_SENS n) Reg.PWR_SENS_CAL 0
    let s2 := match s.baseline (n / 16) with
      | some g =>
        let want := (reference * 10000 - g * (s.fld Reg.PWR_CUR Reg.PWR_CUR_IOUT : Int)) / 10000
        s1.setFld (Reg.PWR_SENS n) Reg.PWR_SENS_OFF (moveOffset off (want - (reading + off)) 4)
      | none => s1
    if s.fld (Reg.PWR_BASE (n / 16)) Reg.PWR_BASE_G = 0 then s2.learn (n / 16) reference else s2
  else
    let t := Reg.PWR_TSENS (n - 256)
    let off := signed8 (s.fld t Reg.PWR_TSENS_OFF)
    s.setFld t Reg.PWR_TSENS_OFF (moveOffset off (reference - (reading + off)) 1)

/-- CALIBRATION_UNIT: the running unit ends, 1 µs after it began (Table 12.9). -/
def execCalibrationUnit (reading reference : Int) (s : State) : Host.Outcome State Fault Refusal :=
  match s.pwr.calUnit with
  | none => .next s
  | some n =>
    let s1 := (s.calibrate n reading reference).onPwr fun p => { p with calUnit := none, calNext := if n < 295 then n + 1 else 0 }
    .next (if s.trd.time < s.pwr.calAt + usTime then s
      else if n < 295 then s1
      else (s1.onPwr fun p => { p with calStarved := false, calFrom := s.trd.time }).bump Reg.RIN_CAL_PASS_CNT)

/-- A mismatch the patrol finds (R717). -/
def State.flashBad (s : State) (sect : Nat) : State :=
  ((s.setFld Reg.RIN_STATUS Reg.RIN_STATUS_FLASH_BAD 1).setFld Reg.RIN_FLASH_BAD Reg.RIN_FLASH_BAD_SECT sect).bump Reg.RIN_FLASH_BAD_CNT

/-- The units of a pass: 16 of each pointer block, then those of the active slot. -/
def State.patrolUnits (s : State) : Nat :=
  32 + match s.boot.slot with
    | some k => ceilDiv (s.hdr k 8 4) 256
    | none => 0

/-- What is checked once a unit has been read: a pointer block's CRC, or the hashes of the sections that end in it (R83, R87, R717). -/
def State.patrolCheck (s : State) (n : Nat) : State :=
  if n = 15 ∨ n = 31 then
    let b := s.flashBytes (0x1000 * (n / 16)) 48
    if bytesAt b 0x2C 4 = crc32 (b.take 0x2C) then s else s.flashBad (0x100 + n / 16)
  else if n < 32 then s
  else match s.boot.slot with
    | none => s
    | some k => (s.indexed k).foldl (fun t x =>
        if (x.2.offset + (x.2.length - 1)) / 256 = n - 32 ∧ s.hashOk k x.1 x.2 = false then t.flashBad x.1 else t) s

/-- FLASH_PATROL_UNIT: the pass goes on in address order (R717). -/
def execFlashPatrolUnit (s : State) : Host.Outcome State Fault Refusal :=
  match s.pwr.patrol with
  | none => .next s
  | some n =>
    let last := decide (s.patrolUnits ≤ n + 1)
    let s1 := (s.patrolCheck n).onPwr fun p => { p with patrol := none, patrolNext := if last then 0 else n + 1 }
    .next (if last then (s1.onPwr fun p => { p with patStarved := false, patFrom := s.trd.time }).bump Reg.RIN_FLASH_PASS_CNT else s1)

/-- PASS_STARVE: a pass that has not been completed within its target is counted once, and goes on (R718). DEDUCED (log 153): a pass runs from the end of
the one before it. -/
def execPassStarve (flash : Bool) (s : State) : Host.Outcome State Fault Refusal :=
  if flash then
    let n := s.fld Reg.RIN_TARGET Reg.RIN_TARGET_FLASH_S
    .next (if n = 0 ∨ s.pwr.patStarved = true ∨ s.trd.time < s.pwr.patFrom + n * 1000000 * usTime then s
      else (s.onPwr fun p => { p with patStarved := true }).bump Reg.RIN_FLASH_STARVE_CNT)
  else
    let n := s.fld Reg.RIN_TARGET Reg.RIN_TARGET_CAL_MS
    .next (if n = 0 ∨ s.pwr.calStarved = true ∨ s.trd.time < s.pwr.calFrom + n * 1000 * usTime then s
      else (s.onPwr fun p => { p with calStarved := true }).bump Reg.RIN_CAL_STARVE_CNT)

/-- FRAME_SNAPSHOT: with SNAP_EN, once in a frame at SNAP_LINE (R36, R719). -/
def execFrameSnapshot (s : State) : Host.Outcome State Fault Refusal :=
  let n := s.trd.now
  if s.bit Reg.RIN_CFG Reg.RIN_CFG_SNAP_EN = true ∧ n.line = s.fld Reg.RIN_CFG Reg.RIN_CFG_SNAP_LINE ∧ n.pick = 0 ∧
      s.pwr.snapDone ≠ some n.frame then
    .next (((State.elapse (s.toAction ⟨n.frame, n.line, 0, 0⟩) s).snapshot).onPwr fun p => { p with snapDone := some n.frame })
  else .next s

end Sys2Proof.Machine
end

