-- ==== Sys2Proof/Machine/Selvage.lean ====
section
/-! DEFINITION. The Selvage link (chapter 13): coordinates and ports (R721 to R724, R736 to R739), flits (R727 to R735), the time lock (R740 to R748,
R767), strips (R749 to R757) and reachability (R766). -/

namespace Sys2Proof.Machine

/-! Coordinates (R721 to R724, R760). -/

/-- The chip has coordinates in a wall. -/
def State.hasCoord (s : State) : Bool := s.fld Reg.SLV_STATUS Reg.SLV_STATUS_ROLE != 0

/-- The chip's coordinates. -/
def State.coord (s : State) : Nat × Nat := (s.fld Reg.SLV_STATUS Reg.SLV_STATUS_X, s.fld Reg.SLV_STATUS Reg.SLV_STATUS_Y)

/-- The entries of the WALL section that are enabled. -/
def State.wallEntries (s : State) : List WallEntry :=
  match s.boot.wall with
  | some w => w.entries.filter fun e => e.en
  | none => []

/-- The place a port faces (R723). -/
def State.facing (s : State) (p : Nat) : Option (Nat × Nat) :=
  let c := s.coord
  match p with
  | 0 => if 0 < c.2 then some (c.1, c.2 - 1) else none
  | 1 => some (c.1 + 1, c.2)
  | 2 => some (c.1, c.2 + 1)
  | _ => if 0 < c.1 then some (c.1 - 1, c.2) else none

/-- The enabled entry at some coordinates. -/
def State.entryAt (s : State) (c : Nat × Nat) : Option WallEntry := s.wallEntries.find? fun e => e.x == c.1 && e.y == c.2

/-- The enabled entry of a chip. -/
def State.entryOf (s : State) (chip : Nat) : Option WallEntry := s.wallEntries.find? fun e => e.chip == chip

/-- The chip a port faces. -/
def State.neighbour (s : State) (p : Nat) : Option WallEntry := (s.facing p).bind s.entryAt

/-- A port is DISABLED (R724); the link of an XS1640-T is fused off (R5). -/
def State.slvDisabled (s : State) (p : Nat) : Bool :=
  !s.boot.fuses.wall || !s.hasCoord || !(s.fld Reg.SLV_CFG Reg.SLV_CFG_PORT_EN).testBit p || (s.neighbour p).isNone

/-- The members of a group (R760). -/
def State.members (s : State) (g : Nat) : List Nat := (List.range 16).filter (s.fld (Reg.SLV_GROUP g) Reg.SLV_GROUP_MEMBERS).testBit

/-- A member's rank (R760). -/
def State.rankOf (s : State) (g chip : Nat) : Nat := ((s.members g).filter fun c => decide (c < chip)).length

/-- This chip's number. -/
def State.chip (s : State) : Nat := s.boot.chipId.toNat

/-! Ports. -/

def State.selPort (s : State) (p : Nat) : SelPort := tblGet (fun _ => SelPort.fresh) s.slv.ports p

def State.setSel (s : State) (p : Nat) (x : SelPort) : State :=
  s.onSlv fun v => { v with ports := tblSet (fun _ => SelPort.fresh) v.ports p x }

def State.onSel (s : State) (p : Nat) (f : SelPort → SelPort) : State := s.setSel p (f (s.selPort p))

def State.slvState (s : State) (p : Nat) : Nat := s.fld (Reg.SLV_PORT p) Reg.SLV_PORT_STATE

def State.setSlvState (s : State) (p x : Nat) : State := s.setFld (Reg.SLV_PORT p) Reg.SLV_PORT_STATE x

/-! Messages on their way out. -/

/-- The route byte from this chip to some coordinates (Table 13.2). -/
def State.routeTo (s : State) (c : Nat × Nat) : Nat :=
  c.1 % 4 + 4 * (c.2 % 4) + 16 * (s.coord.1 % 4) + 64 * (s.coord.2 % 4)

/-- The port towards some coordinates, along X and then along Y (R735); none for this chip's own. -/
def State.nextPort (s : State) (c : Nat × Nat) : Option Nat :=
  let o := s.coord
  if o.1 < c.1 then some 1 else if c.1 < o.1 then some 3 else if o.2 < c.2 then some 2 else if c.2 < o.2 then some 0 else none

/-- Put a message at a transmit port. -/
def State.queueMsg (s : State) (p : Nat) (m : SelMsg) : State := s.onSel p fun x => { x with queue := x.queue ++ [m] }

/-- Send a message to the facing chip. -/
def State.sendNear (s : State) (p cls : Nat) (data : List Byte) (darned : List Nat) : State :=
  s.queueMsg p { cls := cls, src := 4, route := s.routeTo ((s.facing p).getD s.coord), data := data, darned := darned, sent := 0 }

/-- Put a CTRL or COLL message on its way; one whose next port is not UP is dropped and counted (R735). -/
def State.routeMsg (s : State) (m : SelMsg) : State :=
  match s.nextPort (m.route % 4, m.route / 4 % 4) with
  | none => s
  | some p => if s.slvUp p then s.queueMsg p m else s.bump Reg.SLV_BAD_FLIT_CNT

/-- Send a message to a chip of the wall. -/
def State.sendTo (s : State) (chip cls : Nat) (data : List Byte) (darned : List Nat) : State :=
  match s.entryOf chip with
  | none => s
  | some e => s.routeMsg { cls := cls, src := 4, route := s.routeTo (e.x, e.y), data := data, darned := darned, sent := 0 }

/-- A CTRL message's bytes: its type, and fields whose layout is open (Table 13.4). -/
def ctrlData (type : Nat) (fields : List Nat) : List Byte :=
  BitVec.ofNat 8 type :: (List.range 7).map fun k => Config.ctrlByte type fields k

/-- A message that has arrived on a port, and the state without it. -/
def State.takeMsg (s : State) (p cls : Nat) (ok : List Byte → Bool) : Option (InMsg × State) :=
  match s.slv.inbox.find? fun m => m.port == p && m.cls == cls && ok m.data with
  | none => none
  | some m => some (m, s.onSlv fun v => { v with inbox := v.inbox.erase m })

/-- A CTRL message of a type. -/
def State.takeCtrl (s : State) (p type : Nat) : Option (InMsg × State) := s.takeMsg p 3 fun d => bytesAt d 0 1 == type

/-- The chip a message comes from, by the source coordinates of its route. -/
def State.sender (s : State) (m : InMsg) : Option Nat := (s.entryAt (m.route / 16 % 4, m.route / 64 % 4)).map fun e => e.chip

/-! Training (R736 to R739). -/

/-- At the end of an attempt island 202 stays on unless every port is DOWN or DISABLED (R739). -/
def State.attemptOver (s : State) : State :=
  s.onSlv fun v => { v with island := v.island && !((List.range 4).all fun p => s.slvState p == 0 || s.slvState p == 5) }

/-- An attempt starts: island 202 is on, credits are those of the receive buffers, and block lock is sought; a port that is to be DISABLED ends its
attempt (R724, R730, R736, R739). -/
def State.startSlv (s : State) (p : Nat) : State :=
  if s.slvDisabled p then
    let s1 := (s.setSel p SelPort.fresh).setSlvState p 5
    if 1 ≤ s.slvState p ∧ s.slvState p ≤ 3 then s1.attemptOver else s1
  else
    ((s.setSel p { SelPort.fresh with startAt := s.trd.time, slotAt := 125 * s.trd.time }).setSlvState p 1).onSlv fun v => { v with island := true }

/-- A port leaves the link: its messages are lost, and its time is no longer heard. -/
def State.slvDown (s : State) (p reason : Nat) : State :=
  let s1 := ((s.setSel p { SelPort.fresh with failAt := s.trd.time }).setSlvState p 0).setFld (Reg.SLV_PORT p) Reg.SLV_PORT_REASON reason
  s1.onSlv fun v => { v with time := tblDel v.time p, inbox := v.inbox.filter fun m => m.port != p }

/-- An attempt fails (R736, R739). -/
def State.failTraining (s : State) (p reason : Nat) : State := (s.slvDown p reason).attemptOver

/-- PORT_TRAINING: block lock within 1 ms, then deskew; HELLO follows (Table 13.5). -/
def execPortTraining (port : Fin 4) (found : LaneResult) (s : State) : Host.Outcome State Fault Refusal :=
  let p := port.val
  .next (match s.slvState p, found with
    | 1, .locked => if (s.selPort p).startAt + 1000 * usTime < s.trd.time then s.failTraining p 1 else s.setSlvState p 2
    | 1, .lockTimeout => if (s.selPort p).startAt + 1000 * usTime ≤ s.trd.time then s.failTraining p 1 else s
    | 2, .skewed => s.failTraining p 2
    | 2, .deskewed swap pol =>
      let s1 := ((s.setSlvState p 3).setFld (Reg.SLV_PORT p) Reg.SLV_PORT_SWAP (if swap then 1 else 0)).setFld (Reg.SLV_PORT p)
        Reg.SLV_PORT_POL pol
      let w := match s.boot.wall with
        | some w => [w.width, w.height]
        | none => []
      s1.sendNear p 3 (ctrlData 1 ([s.chip, s.coord.1, s.coord.2, 1] ++ w)) []
    | _, _ => s)

/-- TRAINING_RETRY: a new attempt 10 ms after a failure. -/
def execTrainingRetry (port : Fin 4) (s : State) : Host.Outcome State Fault Refusal :=
  .next (if s.slvState port = 0 ∧ s.hasCoord = true ∧ (s.selPort port).failAt + 10000 * usTime ≤ s.trd.time then s.startSlv port else s)

/-- Send an ECHO and note when. -/
def State.sendEcho (s : State) (p : Nat) : State :=
  (s.sendNear p 3 (ctrlData 2 []) []).onSel p fun x => { x with echoAt := some s.trd.time }

/-- HELLO: the facing chip's number, coordinates, variant and mesh are checked against the WALL section (Table 13.5). -/
def execHello (port : Fin 4) (chip : Fin 16) (x y : Nat) (wall : Bool) (meshW meshH : Nat) (s : State) :
    Host.Outcome State Fault Refusal :=
  let p := port.val
  match s.takeCtrl p 1 with
  | none => .next s
  | some (_, s1) =>
    if s.slvState p ≠ 3 then .next s1
    else match s.neighbour p, s.boot.wall with
      | some e, some w =>
        if e.chip ≠ chip.val ∨ e.x ≠ x ∨ e.y ≠ y then .next (s1.failTraining p 3)
        else if wall = false ∨ meshW ≠ w.width ∨ meshH ≠ w.height then .next (s1.failTraining p 4)
        else .next (((s1.setFld (Reg.SLV_NEIGH p) Reg.SLV_NEIGH_CHIP_ID chip).onSel p fun z => { z with hello := true }).sendEcho p)
      | _, _ => .next s1

/-- ECHO: answered with ECHO_REPLY (R737). -/
def execEcho (port : Fin 4) (s : State) : Host.Outcome State Fault Refusal :=
  match s.takeCtrl port 2 with
  | none => .next s
  | some (_, s1) => .next (s1.sendNear port 3 (ctrlData 3 []) [])

/-- ECHO_REPLY: a round trip is measured in units of 1/1.40 GHz (R774), and the next ECHO sent until there are 8 (R737, Table 13.5). -/
def execEchoReply (port : Fin 4) (s : State) : Host.Outcome State Fault Refusal :=
  let p := port.val
  match s.takeCtrl p 3 with
  | none => .next s
  | some (_, s1) => .next (match (s.selPort p).echoAt with
    | none => s1
    | some c =>
      let n := (s.selPort p).trips.length + 1
      let s2 := s1.onSel p fun x => { x with trips := x.trips ++ [(s.trd.time - c) / 88], echoAt := none }
      if n < 8 then s2.sendEcho p else s2)

/-- D: the mean of (round trip - 448) / 2 over the exchanges, rounded to nearest (R737). -/
def channelDelay (trips : List Nat) : Int :=
  let n : Int := trips.length
  if n = 0 then 0 else ((trips.sum : Int) - 448 * n + n) / (2 * n)

/-- PORT_UP: the delay is known, and it is at most 200 CCLK (R736, R737). -/
def execPortUp (port : Fin 4) (s : State) : Host.Outcome State Fault Refusal :=
  let p := port.val
  let x := s.selPort p
  if s.slvState p = 3 ∧ x.hello = true ∧ 8 ≤ x.trips.length then
    let d := channelDelay x.trips
    .next (if 200 < d then s.failTraining p 5
      else ((s.setFld (Reg.SLV_PORT_DELAY p) Reg.SLV_PORT_DELAY_D (clampInt 255 d)).setSlvState p 4).onSel p fun z =>
        { z with lastRx := s.trd.time })
  else .next s

/-! Collectives that a lost port ends are in the next file; what waits for a strip is padded here. -/

/-- A shed is in flight with networks, by its number and the low byte of its frame. -/
def State.shedRuns (s : State) (i frame : Nat) : Bool :=
  s.pic.sheds.any fun x => x.index == i && x.frame % 256 == frame && x.nets && !x.ended

/-- The edge tiles of sheds in flight that wait for a strip of a port that has gone are padded (R755). -/
def State.padWaits (s : State) (p : Nat) : State :=
  let n := (s.slv.mapWaits.filter fun m => m.edge == p && s.shedRuns m.shed m.frame).length
  (s.onSlv fun v => { v with mapWaits := v.mapWaits.filter fun m => m.edge != p }).bumps Reg.SLV_STRIP_PAD_CNT n

/-- A port leaves UP (R743, R755). -/
def State.dropPort (s : State) (p reason : Nat) : State := ((s.slvDown p reason).padWaits p).chooseParent

/-- An UP port goes DOWN, and it is counted (R738). -/
def State.losePort (s : State) (p reason : Nat) : State := (s.dropPort p reason).bump (Reg.SLV_DOWN_CNT p)

/-! Flits (R727 to R735). -/

/-- The link fields a transmitter writes afresh into a flit: NAK, ACK and the CRC (Table 13.2). -/
def sealFlit (f : Flit) (nak : Bool) (ack : Nat) : Flit :=
  let ctl := (bytesAt f 0 1) % 32 + (if nak then 32 else 0)
  let body := leBytes 1 ctl ++ (f.drop 1).take 2 ++ leBytes 1 ack ++ ((f.drop 4).take 26)
  body ++ leBytes 2 (crc16 body)

/-- The next source to serve of a class, in rotating order after the last (R733): a message under way goes on first (R732). -/
def SelPort.nextMsg (x : SelPort) (cls : Nat) : Option SelMsg :=
  match x.queue.find? fun m => m.cls == cls && m.sent != 0 with
  | some m => some m
  | none =>
    let last := x.served.getD cls 4
    let order := (List.range 5).map fun k => (last + 1 + k) % 5
    (order.filterMap fun o => x.queue.find? fun m => m.cls == cls && m.src == o).head?

/-- The classes in order of transmit priority (Table 13.3). -/
def slvPriority : List Nat := [1, 2, 3, 4, 5]

/-- The message whose flit goes next: the highest-priority class with a flit ready and a credit (R730, R731). -/
def SelPort.choose (x : SelPort) : Option SelMsg :=
  (slvPriority.filterMap fun c => if 0 < x.credits.getD c 0 then x.nextMsg c else none).head?

/-- The credits a flit returns: those of the lowest class that owes any, at most 31. -/
def SelPort.returns (x : SelPort) : Nat × Nat :=
  match (List.range 6).find? fun c => decide (0 < x.owed.getD c 0) with
  | some c => (c, min 31 (x.owed.getD c 0))
  | none => (0, 0)

/-- A new flit: of a message, or IDLE (R728, R731). -/
def State.newFlit (s : State) (p : Nat) : State :=
  let x := s.selPort p
  let cr := x.returns
  let m := x.choose
  let cls := (m.map fun m => m.cls).getD 0
  let off := (m.map fun m => m.sent).getD 0
  let rest := (m.map fun m => m.data.drop m.sent).getD []
  let data := rest.take 24
  let last := decide (rest.length ≤ 24)
  let route := (m.map fun m => m.route).getD (s.routeTo ((s.facing p).getD s.coord))
  let ctl := cls + (if m.isSome ∧ off = 0 then 8 else 0) + (if m.isSome ∧ last = true then 16 else 0)
  let body := leBytes 1 ctl ++ leBytes 1 route ++ leBytes 1 x.txSeq ++ [0#8] ++ leBytes 1 (cr.1 + 8 * cr.2) ++ leBytes 1 data.length ++
    (data ++ List.replicate (24 - data.length) 0#8) ++ [0#8, 0#8]
  let flit := sealFlit body x.nak x.rxSeq
  let darn := (m.map fun m => m.darned.contains (off / 24)).getD false
  let kept : SentFlit := { seq := x.txSeq, cclk := s.trd.cclk, again := 0, flit := flit, darn := darn }
  let queue := match m with
    | none => x.queue
    | some m => if last then x.queue.erase m else x.queue.map fun y => if y == m then { y with sent := y.sent + 24 } else y
  (s.setSel p { x with
    txSeq := (x.txSeq + 1) % 256
    nak := false
    credits := if cls = 0 then x.credits else x.credits.set cls (x.credits.getD cls 0 - 1)
    owed := x.owed.set cr.1 (x.owed.getD cr.1 0 - cr.2)
    sent := (x.sent ++ [kept]).drop (x.sent.length - 63)
    queue := queue
    served := match m with
      | some m => x.served.set cls m.src
      | none => x.served }).emit 0 (.flit p flit darn)

/-- A kept flit goes again; each is counted (R734). -/
def State.resendFlit (s : State) (p k : Nat) (f : SentFlit) : State :=
  let x := s.selPort p
  let flit := sealFlit f.flit x.nak x.rxSeq
  ((s.setSel p { x with
    nak := false
    sent := x.sent.set k { f with cclk := s.trd.cclk, again := f.again + 1, flit := flit }
    resend := if k + 1 < x.sent.length then some (k + 1) else none }).bump (Reg.SLV_REPLAY_CNT p)).emit 0 (.flit p flit f.darn)

/-- FLIT_SLOT: a port that trains on HELLO or is UP sends one flit each 132 UI, 5.12 ns, which are 78,848 parts of the slot clock (R727, R730 to
R734). -/
def execFlitSlot (port : Fin 4) (s : State) : Host.Outcome State Fault Refusal :=
  let p := port.val
  if (s.slvState p ≠ 3 ∧ s.slvState p ≠ 4) ∨ 125 * s.trd.time < (s.selPort p).slotAt then .next s
  else
    let x := s.selPort p
    let s := s.setSel p { x with slotAt := max (x.slotAt + 78848) (125 * s.trd.time) }
    match x.resend with
    | some k => match x.sent[k]? with
      | some f => .next (s.resendFlit p k f)
      | none => .next ((s.onSel p fun z => { z with resend := none }).newFlit p)
    | none => .next (s.newFlit p)

/-- Flits kept are dropped up to an acknowledged SEQ (R734); one that is not among them acknowledges nothing. -/
def ackTo (ack : Nat) (l : List SentFlit) : List SentFlit :=
  if l.any fun f => f.seq == ack then (l.dropWhile fun f => f.seq != ack).drop 1 else l

/-- What a good flit's link fields do: acknowledgement, a NAK that starts resending after it, and credits (R730, R734). -/
def State.linkFields (s : State) (p : Nat) (f : Flit) : State :=
  let x := s.selPort p
  let left := ackTo (bytesAt f 3 1) x.sent
  let gone := x.sent.length - left.length
  let c := bytesAt f 4 1 % 8
  let top := SelPort.fresh.credits.getD c 0
  s.setSel p { x with
    sent := left
    resend := if (bytesAt f 0 1).testBit 5 && !left.isEmpty then some 0
      else match x.resend with
        | some k => if k < gone ∨ left.isEmpty = true then (if left.isEmpty then none else some 0) else some (k - gone)
        | none => none
    credits := x.credits.set c (min top (x.credits.getD c 0 + bytesAt f 4 1 / 8)) }

/-- A whole message has come: one for another chip goes on, one for this chip waits to be used (R735). -/
def State.arrive (s : State) (p cls : Nat) (m : RxMsg) : State :=
  if (cls = 3 ∨ cls = 5) ∧ s.slvUp p = true ∧ (m.route % 4, m.route / 4 % 4) ≠ s.coord then
    s.routeMsg { cls := cls, src := p, route := m.route, data := m.data, darned := m.darned, sent := 0 }
  else s.onSlv fun v => { v with inbox := v.inbox ++ [{ port := p, cls := cls, route := m.route, data := m.data, darned := m.darned }] }

/-- A good flit's payload joins its message (R728, R732); its buffer entry frees. -/
def State.takePayload (s : State) (p : Nat) (f : Flit) (darn : Bool) : State :=
  let ctl := bytesAt f 0 1
  let cls := ctl % 8
  let x := s.selPort p
  let old : RxMsg := if ctl.testBit 3 then { route := bytesAt f 1 1, data := [], flits := 0, darned := [] }
    else (tblFind x.rx cls).getD { route := bytesAt f 1 1, data := [], flits := 0, darned := [] }
  let m : RxMsg := { old with
    data := old.data ++ (f.drop 6).take (min 24 (bytesAt f 5 1))
    flits := old.flits + 1
    darned := if darn then old.darned ++ [old.flits] else old.darned }
  let owed := x.owed.set cls (x.owed.getD cls 0 + 1)
  if ctl.testBit 4 then (s.setSel p { x with owed := owed, rx := tblDel x.rx cls }).arrive p cls m
  else s.setSel p { x with owed := owed, rx := tblPut x.rx cls m }

/-- FLIT_RECEIVE: a flit with a bad CRC or out of sequence is dropped with a NAK; a good one is acknowledged and used; one of an
unknown class is dropped and counted (R729, R734, Table 13.2). -/
def execFlitReceive (port : Fin 4) (flit : List Byte) (darn : Bool) (s : State) : Host.Outcome State Fault Refusal :=
  let p := port.val
  if s.slvState p ≠ 3 ∧ s.slvState p ≠ 4 then .next s
  else
    let s0 := s.onSel p fun x => { x with lastRx := s.trd.time }
    if flit.length ≠ 32 ∨ bytesAt flit 30 2 ≠ crc16 (flit.take 30) then
      .next ((s0.onSel p fun x => { x with nak := true }).bump (Reg.SLV_CRC_ERR_CNT p))
    else if bytesAt flit 2 1 ≠ ((s.selPort p).rxSeq + 1) % 256 then .next (s0.onSel p fun x => { x with nak := true })
    else
      let s1 := (s0.onSel p fun x => { x with rxSeq := bytesAt flit 2 1 }).linkFields p flit
      let cls := bytesAt flit 0 1 % 8
      .next (if cls = 0 then s1 else if 6 ≤ cls then s1.bump Reg.SLV_BAD_FLIT_CNT else s1.takePayload p flit darn)

/-- RESEND_TIMEOUT: the oldest flit not acknowledged within 512 CCLK goes again, and those after it (R734). -/
def execResendTimeout (port : Fin 4) (s : State) : Host.Outcome State Fault Refusal :=
  let p := port.val
  match (s.selPort p).sent with
  | [] => .next s
  | f :: _ => .next (if f.cclk + 512 ≤ s.trd.cclk then s.onSel p fun x => { x with resend := some 0 } else s)

/-! Time lock (R740 to R748). -/

/-- The bytes of a TIME message (Table 13.4). -/
def State.timeData (s : State) (hops : Nat) : List Byte :=
  leBytes 6 (Stamp.bits ⟨s.trd.now.frame, s.trd.now.line, 0, 0⟩) ++ leBytes 1 hops ++ leBytes 1 s.slv.master ++
    leBytes 2 s.trd.timing.hTotal ++ leBytes 2 s.trd.timing.vTotal

/-- TIME_SEND: on every sixteenth line the master and each locked follower send their time on every UP port (R36, R742). -/
def execTimeSend (s : State) : Host.Outcome State Fault Refusal :=
  let n := s.trd.now
  if n.line % 16 = 0 ∧ n.pick = 0 ∧ s.slv.timeSent ≠ some (n.frame, n.line) ∧
      (s.timeMaster = true ∨ (s.follower = true ∧ s.lock = 2)) then
    let hops := if s.timeMaster then 0 else s.fld Reg.SLV_TIME Reg.SLV_TIME_HOPS
    let s1 := (State.elapse (s.toAction ⟨n.frame, n.line, 0, 0⟩) s).onSlv fun v => { v with timeSent := some (n.frame, n.line) }
    .next (((List.range 4).filter s1.slvUp).foldl (fun t p => t.sendNear p 1 (s.timeData hops) []) s1)
  else .next s

/-- The stamp's boundary is among the last 16 lines' (R746). -/
def State.heardBoundary (s : State) (t : Stamp) : Bool :=
  (List.range 16).any fun k => s.lineStamp s.trd.now.frame ((s.trd.now.line : Int) - (k : Int)) == ⟨t.frame, t.line, 0, 0⟩

/-- A follower's vertical phase is wrong: it is corrected as at acquisition, and the message's FRAME is counted on to the frame start where
the correction completes (R25, R26, R746). -/
def State.correctTime (s : State) (t : Stamp) : State :=
  let v := s.trd.timing.vTotal
  let s1 := (if s.lock = 2 then s.reacquire else s).onSlv fun x => { x with good := 0 }
  let d := (s.trd.now.line + v - t.line % v) % v
  let next := (t.frame + 1) % 65536
  if s.realigns then
    (s1.onTrd fun x => { x with realign := some (v - t.line) }).onSlv fun x => { x with frameTo := some next }
  else if d = 0 then s1.onSlv fun x => { x with frameTo := some next }
  else s1.fixLine d

/-- The parent's time is measured: the error is reported, and 16 messages in a row within 4 CCLK lock (R744, R747). -/
def State.measureTime (s : State) (p count : Nat) : State :=
  let e : Int := (count : Int) - (226 + (s.fld (Reg.SLV_PORT_DELAY p) Reg.SLV_PORT_DELAY_D : Int))
  let good := if -4 ≤ e ∧ e ≤ 4 then s.slv.good + 1 else 0
  let s1 := (s.setFld Reg.SLV_TIME_ERR Reg.SLV_TIME_ERR_ERR (codeOf 16 e)).onSlv fun v => { v with good := good }
  if s.trd.refUse = 2 ∧ s.lock ≠ 2 ∧ 16 ≤ good then s1.setLock 2 else s1

/-- TIME_MESSAGE (R743 to R747): a follower notes the port's HOPS, chooses its parent, and from the parent's message takes its error or its phase. -/
def execTimeMessage (port : Fin 4) (count : Nat) (s : State) : Host.Outcome State Fault Refusal :=
  let p := port.val
  match s.takeMsg p 1 fun _ => true with
  | none => .next s
  | some (m, s1) =>
    if !s.follower || !s.slvUp p then .next s1
    else if bytesAt m.data 8 2 ≠ s.trd.timing.hTotal ∨ bytesAt m.data 10 2 ≠ s.trd.timing.vTotal then
      .next (s1.setFld Reg.SLV_STATUS Reg.SLV_STATUS_GEOM_ERR 1)
    else
      let t := Stamp.ofBits (bytesAt m.data 0 6)
      let s2 := (s1.onSlv fun v => { v with time := tblPut v.time p { hops := bytesAt m.data 6 1, lines := 0 } }).chooseParent
      if s2.fld Reg.SLV_TIME Reg.SLV_TIME_PARENT ≠ p then .next s2
      else if s2.heardBoundary t then .next (s2.measureTime p count)
      else .next (if s.trd.refUse = 2 then s2.correctTime t else s2)

/-- The chip's role under the master in use; a master that is told to follow itself runs from the internal PLL (R740, R767). -/
def State.takeMaster (s : State) (master : Nat) : State :=
  if !s.hasCoord then s.onSlv fun v => { v with master := master, masterAt := none }
  else
    let role := if master = s.chip then 1 else 2
    let s1 := (s.setFld Reg.SLV_STATUS Reg.SLV_STATUS_ROLE role).onSlv fun v => { v with master := master, masterAt := none }
    let s2 := if role = 1 then (s1.setFld Reg.SLV_TIME Reg.SLV_TIME_PARENT 7).setFld Reg.SLV_TIME Reg.SLV_TIME_HOPS 0 else s1.chooseParent
    if s.fld Reg.TRD_CTL Reg.TRD_CTL_REF_SEL = 2 ∧ role ≠ s.fld Reg.SLV_STATUS Reg.SLV_STATUS_ROLE then s2.takeReference else s2

/-- MASTER_CHANGE: at the frame start after its write (R767). -/
def execMasterChange (s : State) : Host.Outcome State Fault Refusal :=
  match s.slv.masterAt with
  | none => .next s
  | some f => .next (if s.trd.now.frame = f ∨ frameAfter s.trd.now.frame f = true
      then s.takeMaster (s.fld Reg.SLV_CFG Reg.SLV_CFG_MASTER) else s)

/-! Strips (R749 to R757). -/

/-- The bytes of a run of a record's plane, and whether each comes darned. -/
def State.planeRun (s : State) (f : FrameRec) (plane row at_ len : Nat) : List (Byte × Bool) :=
  let base := if plane = 0 then f.luma + row * f.lumaStride else f.chroma + row * f.chromaStride
  (List.range len).map fun i => (s.vaByte 0 f.tenant (base + at_ + i), s.vaPoison 0 f.tenant (base + at_ + i) 1)

/-- What a port takes of a plane (R749): the top or bottom rows, or the first or last columns; chroma goes by pairs. -/
def State.stripOut (s : State) (f : FrameRec) (plane p : Nat) : List (Byte × Bool) :=
  let n := f.planeSize plane
  let unit := fmtBytes f.fmt * (if plane = 0 then 1 else 2)
  let d := s.stripDepth f plane p
  if p % 2 = 0 then
    (List.range (min d n.2)).flatMap fun r => s.planeRun f plane (if p = 0 then r else n.2 - min d n.2 + r) 0 (n.1 * unit)
  else
    (List.range n.2).flatMap fun r => s.planeRun f plane r (if p = 3 then 0 else (n.1 - min d n.1) * unit) (min d n.1 * unit)

/-- The flits of a message with an 8-byte header whose data is darned. -/
def darnedFlits (l : List (Byte × Bool)) : List Nat :=
  (List.range (l.length / 24 + 1)).filter fun k => ((l.drop (24 * k - 8)).take (if k = 0 then 16 else 24)).any fun x => x.2

/-- Send one record's strips on one port, of its luma and its chroma; more than 256 KiB for an edge is sent for neither plane (R749, R750). -/
def State.sendStrips (s : State) (f : FrameRec) (p : Nat) (l c : List (Byte × Bool)) : State :=
  if l.isEmpty && c.isEmpty then s
  else if 262144 < l.length + c.length then s.setFld Reg.SLV_STATUS Reg.SLV_STATUS_CFG_ERR 1
  else
    let head := fun (plane : Nat) => leBytes 6 f.pstamp.bits ++ leBytes 1 ((p + 2) % 4 + 4 * plane) ++ [0#8]
    (s.sendNear p 4 (head 0 ++ l.map fun x => x.1) (darnedFlits l)).sendNear p 4 (head 1 ++ c.map fun x => x.1) (darnedFlits c)

/-- INPUT_STRIP_SEND: a record that has become eligible is sent once, on each UP port (R749). -/
def execInputStripSend (ring : Fin 1024) (seq : Nat) (s : State) : Host.Outcome State Fault Refusal :=
  let k := (ring.val, seq)
  match s.frame? (some k) with
  | none => .next s
  | some f =>
    if !s.frameEligible f || s.slv.stripSent.contains k then .next s
    else
      let s1 := s.onSlv fun v => { v with stripSent := (v.stripSent.filter fun x => (s.frame? (some x)).isSome) ++ [k] }
      .next (((List.range 4).filter s.slvUp).foldl (fun t p => t.sendStrips f p (s.stripOut f 0 p) (s.stripOut f 1 p)) s1)

/-- ISTRIP: the strip is stored; the store of an edge keeps the two most recent PSTAMPs (R750). -/
def execIstrip (port : Fin 4) (s : State) : Host.Outcome State Fault Refusal :=
  match s.takeMsg port 4 fun _ => true with
  | none => .next s
  | some (m, s1) =>
    let b := bytesAt m.data 6 1
    let x : Strip := { edge := b % 4, pstamp := Stamp.ofBits (bytesAt m.data 0 6), plane := b / 4 % 2, data := m.data.drop 8, darned := m.darned }
    let same := fun (y : Strip) => y.edge == x.edge && y.pstamp == x.pstamp
    let others := ((s.slv.strips.filter fun y => y.edge == x.edge && !same y).map fun y => y.pstamp).eraseDups
    let drop := if s.slv.strips.any same ∨ others.length < 2 then none else others.head?
    .next (s1.onSlv fun v => { v with
      strips := (v.strips.filter fun y => !(same y && y.plane == x.plane) && !(y.edge == x.edge && some y.pstamp == drop)) ++ [x] })

/-- One side of a banded layer's edge columns, each byte with its darn bit (R754, R755, R757): sent on its port when it is UP; a port that faces a chip and
is not UP leaves the next layer's edge padded; else the next layer waits for the facing strip unless it has come. -/
def State.sendMap (s : State) (i frame layer p : Nat) (data : List (Byte × Bool)) : State :=
  if s.slvUp p then
    let w : MapStrip := { edge := p, shed := i, frame := frame, layer := layer, data := [], darned := [] }
    let s1 := s.sendNear p 2 (leBytes 2 i ++ leBytes 1 frame ++ leBytes 1 layer ++ leBytes 4 data.length ++ data.map fun x => x.1) (darnedFlits data)
    let here := s.slv.maps.any fun m => m.edge == p && m.shed == i && m.frame == frame && m.layer == layer
    s1.onSlv fun v => { v with mapWaits := if here then v.mapWaits else v.mapWaits ++ [w] }
  else if (s.neighbour p).isNone then s
  else s.bump Reg.SLV_STRIP_PAD_CNT

/-- A banded stage of the sheds has a boundary above a layer at which the next one's window is wider than one (R754). -/
def State.mapBoundary (s : State) (layer : Nat) : Bool :=
  s.shedNets.any fun n => n.cut != 1 && decide (1 ≤ layer ∧ layer < Config.netLayers n.index ∧ 0 < layerHalo n.index (layer + 1))

/-- MAP_STRIP_SEND: with MAP_EN, the first columns go to W and the last to E, as soon as a layer of a banded stage has computed them (R754). -/
def execMapStripSend (shed layer : Nat) (west east : List (Byte × Bool)) (s : State) : Host.Outcome State Fault Refusal :=
  match s.pic.sheds.find? fun x => x.index == shed && x.nets && !x.ended with
  | none => .next s
  | some x =>
    if s.bit Reg.SLV_STRIP_CFG Reg.SLV_STRIP_CFG_MAP_EN && s.hasCoord && s.mapBoundary layer then
      .next ((s.sendMap shed (x.frame % 256) layer 3 west).sendMap shed (x.frame % 256) layer 1 east)
    else .next s

/-- MSTRIP: a map strip is held for its shed, or discarded and counted when the shed has ended (R755, R756). -/
def execMstrip (port : Fin 4) (s : State) : Host.Outcome State Fault Refusal :=
  match s.takeMsg port 2 fun _ => true with
  | none => .next s
  | some (m, s1) =>
    let x : MapStrip := { edge := port, shed := bytesAt m.data 0 2, frame := bytesAt m.data 2 1, layer := bytesAt m.data 3 1,
                          data := (m.data.drop 8).take (bytesAt m.data 4 4), darned := m.darned }
    let same := fun (y : MapStrip) => y.edge == x.edge && y.shed == x.shed && y.frame == x.frame && y.layer == x.layer
    if s.shedRuns x.shed x.frame then
      .next (s1.onSlv fun v => { v with
        maps := (v.maps.filter fun y => s.shedRuns y.shed y.frame && !same y) ++ [x]
        mapWaits := v.mapWaits.filter fun y => !same y })
    else .next (s1.bump Reg.SLV_STRIP_LATE_CNT)

/-! Reachability (R766). -/

/-- PING: answered with PONG to its sender. -/
def execPing (port : Fin 4) (s : State) : Host.Outcome State Fault Refusal :=
  match s.takeCtrl port 4 with
  | none => .next s
  | some (m, s1) => .next (match s.sender m with
    | some c => s1.sendTo c 3 (ctrlData 5 []) []
    | none => s1)

/-- PONG: within 100 µs of its PING the chip is reachable. -/
def execPong (port : Fin 4) (s : State) : Host.Outcome State Fault Refusal :=
  match s.takeCtrl port 5 with
  | none => .next s
  | some (m, s1) => .next (match s.sender m with
    | none => s1
    | some c => match s.slv.pings.find? fun x => x.1 == c with
      | none => s1
      | some x =>
        if s.trd.time ≤ x.2 + 100 * usTime then
          (s1.setFld Reg.SLV_REACH ⟨c, 1⟩ 1).onSlv fun v => { v with pings := v.pings.filter fun y => y.1 != c }
        else s1)

end Sys2Proof.Machine
end

