-- ==== Sys2Proof/Machine/Collective.lean ====
section
/-! DEFINITION. Collectives (R758 to R765): READY, blocks, the sum in rank order, and DONE; the loss of a port (R738) and of a chip
(R766). -/

namespace Sys2Proof.Machine

/-! Fields of a collective record (Table 13.6). -/

def Desc.collOp (d : Desc) : Nat := d.num 8 1
def Desc.collGroup (d : Desc) : Nat := d.num 9 1
def Desc.collBytes (d : Desc) : Nat := d.num 0x10 4
def Desc.collId (d : Desc) : Nat := d.num 0x14 4
def Desc.collSrc (d : Desc) : Nat := d.num 0x18 8
def Desc.collDst (d : Desc) : Nat := d.num 0x20 8

/-- The other members of a record's group. -/
def State.peers (s : State) (d : Desc) : List Nat := (s.members d.collGroup).filter fun c => c != s.chip

/-- The collective record whose loom is at work with no fault in hand. -/
def State.collDesc? (s : State) (ring seq : Nat) : Option Desc :=
  match s.desc? ring seq with
  | none => none
  | some d =>
    if d.coll && d.phase == .running && (d.work.all fun w => w.begun) && (d.work.any fun w => !w.ended) &&
        !(s.sht.chans.any fun e => e.2.ring == ring && e.2.seq == seq && !e.2.raster && e.2.fault.isSome)
    then some d else none

/-- What a record at work has done so far. -/
def State.coll? (s : State) (d : Desc) : Option Coll := s.slv.colls.find? fun c => c.ring == d.ring && c.seq == d.seq

def State.onColl (s : State) (d : Desc) (f : Coll → Coll) : State :=
  s.onSlv fun v => { v with colls := v.colls.map fun c => if c.ring == d.ring && c.seq == d.seq then f c else c }

/-- The record of a GROUP and COLL_ID that is at work. -/
def State.collOf (s : State) (group id : Nat) : Option Desc :=
  (s.slv.colls.filterMap fun c => s.desc? c.ring c.seq).find? fun d => d.collGroup == group && d.collId == id

/-- The READYs received for a record. -/
def State.readyFor (s : State) (d : Desc) : List Ready := s.slv.ready.filter fun r => r.group == d.collGroup && r.collId == d.collId

/-- Send READY to every other member (R761). -/
def State.sendReady (s : State) (d : Desc) : State :=
  (s.peers d).foldl (fun t c => t.sendTo c 3 (ctrlData 6 [d.collGroup, d.collId, d.collOp, d.collBytes]) []) s

/-- A member's port on the way is not UP, or the member is not in SLV_REACH (Table 13.7). -/
def State.unreachable (s : State) (d : Desc) : Bool :=
  (s.peers d).any fun c => !(s.fld Reg.SLV_REACH Reg.SLV_REACH_CHIPS).testBit c ||
    match (s.entryOf c).bind fun e => s.nextPort (e.x, e.y) with
    | some p => !s.slvUp p
    | none => true

/-- A READY for a record differs from it in OP or BYTES (Table 13.7). -/
def State.shapeDiffers (s : State) (d : Desc) : Bool := (s.readyFor d).any fun r => r.op != d.collOp || r.bytes != d.collBytes

/-- Every other member has sent READY. -/
def State.allReady (s : State) (d : Desc) : Bool := (s.peers d).all fun c => (s.readyFor d).any fun r => r.chip == c

/-- The COLL messages of a block, at most 4 KiB of data each (Table 13.4). -/
def State.collMsgs (s : State) (d : Desc) (data : List Byte) : List (List Byte) :=
  (List.range (ceilDiv data.length 4096)).map fun k =>
    leBytes 1 d.collGroup ++ leBytes 1 (s.rankOf d.collGroup s.chip) ++ [0#8, 0#8] ++ leBytes 4 d.collId ++ leBytes 4 (4096 * k) ++
      (data.drop (4096 * k)).take 4096

/-- This chip's own block is read, sent to every other member and written at its place (R762). -/
def State.sendBlock (s : State) (d : Desc) : State :=
  let loom := d.loom0
  let n := d.collBytes
  let rank := s.rankOf d.collGroup s.chip
  let dst := d.collDst + rank * n
  match s.runFault loom d.tenant false d.collSrc n with
  | some (cause, va) => s.opFault d loom 0 cause va false
  | none => match s.runFault loom d.tenant true dst n with
    | some (cause, va) => s.opFault d loom 15 cause va true
    | none =>
      if s.vaPoison loom d.tenant d.collSrc n then s.endUncorr d d.collSrc
      else
        let data := s.vaBytes loom d.tenant d.collSrc n
        let s1 := (s.peers d).foldl (fun t c => (s.collMsgs d data).foldl (fun u m => u.sendTo c 5 m []) t) s
        (s1.vaWrite loom d.tenant dst data (s1.ringClass d.ring)).onColl d fun c => { c with sent := true, blocks := tblPut c.blocks rank n }

/-- Every member's block is written. -/
def State.blocksIn (s : State) (d : Desc) (c : Coll) : Bool :=
  c.sent && (s.members d.collGroup).all fun m => tblGet (fun _ => 0) c.blocks (s.rankOf d.collGroup m) == d.collBytes

/-- The elementwise sum of the blocks at DST in ascending rank, in FP32 rounded to nearest even (R763). -/
def State.collSum (s : State) (d : Desc) : List Byte :=
  let word := fun (r i : Nat) => num32 (leNat (s.vaBytes d.loom0 d.tenant (d.collDst + r * d.collBytes + 4 * i) 4))
  let rest := (List.range (s.members d.collGroup).length).drop 1
  (List.range (d.collBytes / 4)).flatMap fun i =>
    leBytes 4 (rest.foldl (fun (a : Num) r => (a.add (word r i)).round32) (word 0 i)).code32

/-- With every block written DST becomes final (R763, R764). -/
def State.finishBlocks (s : State) (d : Desc) : State :=
  if d.collOp = 0 then s.onColl d fun c => { c with final := true }
  else
    ((s.vaWrite d.loom0 d.tenant d.collDst (s.collSum d) (s.ringClass d.ring)).onColl d fun c => { c with final := true })

/-- The record goes on as far as it can: its block once every member is READY, its final DST once every block is there, and its end once every
member has sent DONE (R761 to R765). -/
def State.advance (s : State) (d : Desc) : State :=
  match s.coll? d with
  | none => s
  | some c =>
    if s.shapeDiffers d then s.completeDesc d 0x32 0
    else if !s.allReady d then s
    else
      let s1 := if c.sent then s else s.sendBlock d
      match s1.collDesc? d.ring d.seq, s1.coll? d with
      | some e, some c1 =>
        if !s1.blocksIn e c1 then s1
        else
          let s2 := if c1.final then s1 else s1.finishBlocks e
          match s2.coll? e with
          | some c2 =>
            if c2.final && (s2.peers e).all fun m => c2.done.contains m then
              (s2.workDone e (fun _ => 0) false).dropColl e
            else s2
          | none => s2
      | _, _ => s1

/-- A collective's loom begins, or goes on: READY goes to every other member, unless one cannot be reached (R761, R765). -/
def State.collective (s : State) (ring seq op : Nat) : State :=
  match s.collDesc? ring seq with
  | none => s
  | some d =>
    if d.collOp ≠ op then s
    else if (s.coll? d).isSome then s.advance d
    else if s.shapeDiffers d then s.completeDesc d 0x32 0
    else if s.unreachable d then s.completeDesc d 0x12 2
    else
      let c : Coll := { ring := ring, seq := seq, blocks := [], done := [], sent := false, final := false, readyAt := s.trd.time }
      let s1 := (s.onSlv fun v => { v with colls := v.colls ++ [c] }).sendReady d
      s1.advance d

/-- ALL_GATHER. -/
def execAllGather (ring : Fin 1024) (seq : Nat) (s : State) : Host.Outcome State Fault Refusal := .next (s.collective ring seq 0)

/-- REDUCE_SUM. -/
def execReduceSum (ring : Fin 1024) (seq : Nat) (s : State) : Host.Outcome State Fault Refusal := .next (s.collective ring seq 1)

/-- READY: recorded for its GROUP and COLL_ID (R761); one that differs in OP or BYTES ends the record with SHAPE. -/
def execReady (port : Fin 4) (group : Fin 16) (collId op bytes : Nat) (s : State) : Host.Outcome State Fault Refusal :=
  match s.takeCtrl port 6 with
  | none => .next s
  | some (m, s1) => .next (match s.sender m with
    | none => s1
    | some c =>
      let r : Ready := { chip := c, group := group, collId := collId, op := op, bytes := bytes }
      let s2 := s1.onSlv fun v => { v with
        ready := (v.ready.filter fun x => !(x.chip == c && x.group == r.group && x.collId == r.collId)) ++ [r] }
      match s2.collOf group collId with
      | some d => match s2.collDesc? d.ring d.seq with
        | some e => s2.advance e
        | none => s2
      | none => s2)

/-- READY_RESEND: every 100 µs until every member has answered (R761). -/
def execReadyResend (ring : Fin 1024) (seq : Nat) (s : State) : Host.Outcome State Fault Refusal :=
  match s.collDesc? ring seq with
  | none => .next s
  | some d => .next (match s.coll? d with
    | none => s
    | some c =>
      if !s.allReady d && decide (c.readyAt + 100 * usTime ≤ s.trd.time) then
        (s.sendReady d).onColl d fun x => { x with readyAt := x.readyAt + 100 * usTime }
      else s)

/-- COLL: the data is written at its place in DST; the whole block is answered with DONE (R762, R764). A faulting write leaves the message to be written
again (Table 7.3). -/
def execCollData (port : Fin 4) (s : State) : Host.Outcome State Fault Refusal :=
  match s.takeMsg port 5 fun _ => true with
  | none => .next s
  | some (m, s1) =>
    match s.collOf (bytesAt m.data 0 1) (bytesAt m.data 4 4) with
    | none => .next s1
    | some d0 => match s.collDesc? d0.ring d0.seq with
      | none => .next s
      | some d =>
        let rank := bytesAt m.data 1 1
        let data := m.data.drop 12
        let va := d.collDst + rank * d.collBytes + bytesAt m.data 8 4
        match s.runFault d.loom0 d.tenant true va data.length with
        | some (cause, at_) => .next (s.opFault d d.loom0 15 cause at_ true)
        | none =>
          let s2 := (s1.vaWrite d.loom0 d.tenant va data (s1.ringClass d.ring)).onColl d fun c =>
            { c with blocks := tblPut c.blocks rank (tblGet (fun _ => 0) c.blocks rank + data.length) }
          let whole := match s2.coll? d with
            | some c => tblGet (fun _ => 0) c.blocks rank == d.collBytes
            | none => false
          let s3 := if whole then (match s2.sender m with
            | some c => s2.sendTo c 3 (ctrlData 7 [d.collGroup, d.collId]) []
            | none => s2) else s2
          .next (s3.advance d)

/-- DONE: a member has this chip's block (R764). -/
def execDone (port : Fin 4) (group : Fin 16) (collId : Nat) (s : State) : Host.Outcome State Fault Refusal :=
  match s.takeCtrl port 7 with
  | none => .next s
  | some (m, s1) => .next (match s.sender m, s1.collOf group collId with
    | some c, some d =>
      let s2 := s1.onColl d fun x => { x with done := insertNat c x.done }
      match s2.collDesc? d.ring d.seq with
      | some e => s2.advance e
      | none => s2
    | _, _ => s1)

/-- Collectives with a member behind a port that has gone end with FAULT_UNCORR (Table 13.7). -/
def State.failColls (s : State) (p : Nat) : State :=
  s.slv.colls.foldl (fun t c => match t.desc? c.ring c.seq with
    | some d =>
      if (s.peers d).any fun m => (s.entryOf m).any fun e => s.nextPort (e.x, e.y) == some p then t.completeDesc d 0x12 2 else t
    | none => t) s

/-- Collectives with a member that has left SLV_REACH end with FAULT_UNCORR (Table 13.7). -/
def State.failLost (s : State) : State :=
  s.slv.colls.foldl (fun t c => match t.desc? c.ring c.seq with
    | some d => if (s.peers d).any fun m => !(s.fld Reg.SLV_REACH Reg.SLV_REACH_CHIPS).testBit m then t.completeDesc d 0x12 2 else t
    | none => t) s

/-- PING_TICK: each 1 ms of a grid from the release of RESET_N (DESIGN CHOICE, log 149) every member of every group this chip is in is pinged; one that has
not answered its last PING is no longer reachable, and collectives with it end (R766, Table 13.7). -/
def execPingTick (s : State) : Host.Outcome State Fault Refusal :=
  if !s.hasCoord || decide (s.trd.time < s.slv.pingAt) then .next s
  else
    let groups := (List.range 16).filter fun g => (s.members g).contains s.chip
    let chips := (List.range 16).filter fun c => c != s.chip && groups.any fun g => (s.members g).contains c
    let s1 := s.slv.pings.foldl (fun t x => t.setFld Reg.SLV_REACH ⟨x.1, 1⟩ 0) s
    let s2 := s1.onSlv fun v => { v with
      pings := chips.map fun c => (c, s.trd.time)
      pingAt := (s.trd.time / (1000 * usTime) + 1) * (1000 * usTime) }
    .next (chips.foldl (fun t c => t.sendTo c 3 (ctrlData 4 []) []) s2.failLost)

/-- PORT_DOWN: block lock is lost, a flit has been resent 8 times, or none has come for 1 µs (R738). -/
def execPortDown (port : Fin 4) (cause : DownCause) (s : State) : Host.Outcome State Fault Refusal :=
  let p := port.val
  let x := s.selPort p
  let holds := match cause with
    | .lockLost => true
    | .resends => x.sent.any fun f => decide (8 ≤ f.again)
    | .silence => decide (x.lastRx + usTime ≤ s.trd.time)
  .next (if s.slvUp p && holds then
    (s.losePort p (match cause with
      | .resends => 6
      | _ => 7)).failColls p
    else s)

end Sys2Proof.Machine
end

