-- ==== Sys2Proof/Machine/HostLink.lean ====
section
/-! DEFINITION. The host link: configuration space (R119 to R126, R143), BAR2 (R131 to R135, R842), refused and odd requests (R18,
R144, R145), power states (R843), PTM (R146 to R150), readiness and credit (R66, R142, R165). -/

namespace Sys2Proof.Machine

/-! Configuration space. -/

/-- A word of configuration space: the bits of a mask as given, and the rest the base specification's. -/
def cfgMix (fn off mask value : Nat) : Word :=
  (Config.configWord fn off &&& ~~~BitVec.ofNat 32 mask) ||| (BitVec.ofNat 32 value &&& BitVec.ofNat 32 mask)

/-- The header of a capability: its identifier and the offset of the next one. -/
def capWord (fn off id next : Nat) : Word := cfgMix fn off 0xFFFF (id + 256 * next)

/-- The header of an extended capability. -/
def extCapWord (fn off id next : Nat) : Word := cfgMix fn off 0xFFF0FFFF (id + 1048576 * next)

/-- The MSI-X capability's header with its control bits. -/
def msixWord (c : FnCfg) (next size : Nat) : Word :=
  BitVec.ofNat 32 (0x11 + 256 * next + 65536 * size + (if c.msixMask then 2 ^ 30 else 0) + (if c.msixEn then 2 ^ 31 else 0))

/-- The size of the memory behind a BAR, by the offset of its lower word: PF BAR0, BAR2 as resized, BAR4, and a VF's BAR0 (Tables 3.4, 3.5). -/
def State.barBytes (s : State) (lo : Nat) : Nat := if lo = 0x10 then 2 ^ 21 else if lo = 0x18 then 2 ^ s.hif.bar2Log else 2 ^ 16

/-- The two words of a 64-bit BAR: the type bits, and of the address what its size leaves (R127, R135). -/
def State.barWord (s : State) (lo type : Nat) (upper : Bool) : Word :=
  let at_ := fun (off : Nat) => (tblGet (fun _ => 0#32) s.hif.bars off).toNat
  let a := (at_ lo + 2 ^ 32 * at_ (lo + 4)) / s.barBytes lo * s.barBytes lo
  if upper then BitVec.ofNat 32 (a / 2 ^ 32) else BitVec.ofNat 32 (a % 2 ^ 32 + type)

/-- The words every function has (Tables 3.1 and 3.2). -/
def State.headerWord (s : State) (fn off : Nat) : Option Word :=
  match off with
  | 0x00 => some (BitVec.ofNat 32 (if fn = 0 then 0x16401F3E else 0xFFFFFFFF))
  | 0x08 => some (BitVec.ofNat 32 (s.boot.fuses.step % 16 + 256 * 0x120000))
  | 0x2C => some (BitVec.ofNat 32 (s.boot.fuses.subVendor % 65536 + 65536 * (s.boot.fuses.subId % 65536)))
  | 0x34 => some (cfgMix fn off 0xFF 0x40)
  | 0x3C => some (cfgMix fn off 0xFF00 0)
  | 0x100 => some (extCapWord fn off 0x01 0x148)
  | 0x104 => some (cfgMix fn off 0x1000 (if (s.fnCfg fn).poisoned then 0x1000 else 0))
  | 0x118 => some (cfgMix fn off (if fn = 0 then 0x1E0 else 0xA0)
      (0xA0 + (if (s.fnCfg fn).ecrcGen then 0x40 else 0) + (if (s.fnCfg fn).ecrcChk then 0x100 else 0)))
  | 0x14C => some (cfgMix fn off 0xFF03 0)
  | _ => none

/-- The PF's words: BARs (Table 3.5), capabilities (Table 3.3) with what Table 3.1 supports, SR-IOV (Table 3.4) and the fields the block
acts on. -/
def State.pfWord (s : State) (off : Nat) : Option Word :=
  let h := s.hif
  let c := s.fnCfg 0
  match off with
  | 0x04 => some (cfgMix 0 off 0x6 ((if c.mse then 2 else 0) + (if c.bme then 4 else 0)))
  | 0x10 => some (s.barWord 0x10 0x4 false)
  | 0x14 => some (s.barWord 0x10 0x4 true)
  | 0x18 => some (s.barWord 0x18 0xC false)
  | 0x1C => some (s.barWord 0x18 0xC true)
  | 0x20 => some (s.barWord 0x20 0x4 false)
  | 0x24 => some (s.barWord 0x20 0x4 true)
  | 0x40 => some (cfgMix 0 off 0x0600FFFF (0x01 + 256 * 0x50))
  | 0x44 => some (cfgMix 0 off 0xB (s.fld Reg.HIF_STATUS Reg.HIF_STATUS_DSTATE + 8))
  | 0x50 => some (msixWord c 0x70 31)
  | 0x54 => some 0x00003004#32
  | 0x58 => some 0x00003804#32
  | 0x70 => some (cfgMix 0 off 0x00F0FFFF 0x10)
  | 0x74 => some (cfgMix 0 off 0x10000027 0x10000022)
  | 0x78 => some (cfgMix 0 off 0x70E0 ((h.mps / 128).log2 * 32 + (h.mrrs / 128).log2 * 4096))
  | 0x7C => some (cfgMix 0 off 0xFFF 0x884)
  | 0x80 => some (cfgMix 0 off 0x03FF0000 (65536 * s.fld Reg.HIF_LINK Reg.HIF_LINK_SPEED + 1048576 * s.fld Reg.HIF_LINK Reg.HIF_LINK_WIDTH))
  | 0x94 => some (cfgMix 0 off 0x233800 0x10000)
  | 0x148 => some (extCapWord 0 off 0x0E 0x158)
  | 0x158 => some (extCapWord 0 off 0x19 0x178)
  | 0x178 => some (extCapWord 0 off 0x26 0x1B8)
  | 0x1B8 => some (extCapWord 0 off 0x27 0x1E0)
  | 0x1E0 => some (extCapWord 0 off 0x15 0x200)
  | 0x1E4 => some (cfgMix 0 off 0xFFFFFFF0 0x001FF000)
  | 0x1E8 => some (cfgMix 0 off 0x3FE7 (2 + 32 + 256 * (h.bar2Log - 20)))
  | 0x200 => some (extCapWord 0 off 0x10 0x240)
  | 0x204 => some (cfgMix 0 off 0x1 0)
  | 0x208 => some (cfgMix 0 off 0x19 ((if h.vfEnable then 1 else 0) + (if h.vfMse then 8 else 0) + (if h.ari then 16 else 0)))
  | 0x20C => some (BitVec.ofNat 32 (255 + 255 * 65536))
  | 0x210 => some (cfgMix 0 off 0x00FFFFFF h.numVfs)
  | 0x214 => some (BitVec.ofNat 32 (1 + 65536))
  | 0x218 => some (cfgMix 0 off 0xFFFF0000 (0x1641 * 65536))
  | 0x21C => some 0x0000001F#32
  | 0x220 => some (BitVec.ofNat 32 h.pageSize)
  | 0x224 => some (s.barWord 0x224 0x4 false)
  | 0x228 => some (s.barWord 0x224 0x4 true)
  | 0x22C | 0x230 | 0x234 | 0x238 => some 0#32
  | 0x240 => some (extCapWord 0 off 0x1F 0x250)
  | 0x244 => some (cfgMix 0 off 0x7 0x1)
  | 0x248 => some (cfgMix 0 off 0x1 (if h.ptmEnable then 1 else 0))
  | 0x250 => some (extCapWord 0 off 0x03 0)
  | 0x254 => some (BitVec.ofNat 32 s.boot.fuses.serial)
  | 0x258 => some (BitVec.ofNat 32 (s.boot.fuses.serial / 2 ^ 32))
  | _ => none

/-- A VF's words (R122). -/
def State.vfWord (s : State) (fn off : Nat) : Option Word :=
  match off with
  | 0x04 => some (cfgMix fn off 0x4 (if (s.fnCfg fn).bme then 4 else 0))
  | 0x40 => some (cfgMix fn off 0x00F0FFFF (0x10 + 256 * 0x80))
  | 0x44 => some (cfgMix fn off 0x10000027 0x10000022)
  | 0x4C => some (cfgMix fn off 0xFFF 0x884)
  | 0x64 => some (cfgMix fn off 0x233800 0x10000)
  | 0x80 => some (msixWord (s.fnCfg fn) 0 7)
  | 0x84 => some 0x00003000#32
  | 0x88 => some 0x00003800#32
  | 0x148 => some (extCapWord fn off 0x0E 0)
  | _ => none

/-- A word of configuration space as the spec gives it; the rest is the base specification's. -/
def State.cfgWord (s : State) (fn off : Nat) : Word :=
  ((s.headerWord fn off).or (if fn = 0 then s.pfWord off else s.vfWord fn off)).getD (Config.configWord fn off)

/-- A write of one of the fields the block acts on. -/
def State.cfgWrite (s : State) (fn : Nat) (op : ConfigOp) : State :=
  let c := s.fnCfg fn
  match op with
  | .read _ => s
  | .busMaster on => (s.setFnCfg fn { c with bme := on }).sendHeld
  | .memorySpace on => s.setFnCfg fn { c with mse := on }
  | .msix en mask => (vectorsOf fn).foldl State.unstop (s.setFnCfg fn { c with msixEn := en, msixMask := mask })
  | .bar off v => if fn = 0 then s.onHif fun h => { h with bars := tblSet (fun _ => 0#32) h.bars off v } else s
  | .ecrc gen check => if fn = 0 then s.setFnCfg fn { c with ecrcGen := gen, ecrcChk := check } else s
  | .clearPoisoned => s.setFnCfg fn { c with poisoned := false }
  | .numVfs n => if fn = 0 ∧ s.hif.vfEnable = false then s.onHif fun h => { h with numVfs := min 255 n } else s
  | .pageSize v => if fn = 0 then s.onHif fun h => { h with pageSize := v } else s
  | .ariHierarchy on => if fn = 0 then s.onHif fun h => { h with ari := on } else s
  | .vfMemorySpace on => if fn = 0 then s.onHif fun h => { h with vfMse := on } else s
  | .ptmEnable on => if fn = 0 then s.onHif fun h => { h with ptmEnable := on } else s
  | .maxPayload b => if fn = 0 then s.onHif fun h => { h with mps := max 128 (min 512 b) } else s
  | .maxReadRequest b => if fn = 0 then s.onHif fun h => { h with mrrs := max 128 (min 4096 b) } else s

/-- The offset a configuration request names; a write's completion carries none. -/
def configOff : ConfigOp → Nat
  | .read off => off
  | _ => 0

/-- CONFIGURATION_REQUEST: answered with Retry Status until the host interface is ready, and counted (R66); a VF that is not enabled
does not exist (R124, R143, R840). None arrives while PERST_N is asserted (R164). -/
def execConfigurationRequest (fn : Nat) (what : ConfigOp) (s : State) : Host.Outcome State Fault Refusal :=
  if s.hif.perstIn then .next s
  else if !s.hif.hostReady then .next ((s.bump Reg.HIF_CRS_CNT).emit 0 (.configDone fn (configOff what) 0 true))
  else if s.hif.vfsOn < fn then .next (s.emit 0 .unsupported)
  else
    let data := match what with
      | .read off => s.cfgWord fn (off / 4 * 4)
      | _ => 0#32
    .next ((s.cfgWrite fn what).emit 0 (.configDone fn (configOff what) data false))

/-- VF_ENABLE_SET: VFs 1 to NumVFs exist, unless the page is larger than 64 KiB (R126, R164, R840). -/
def execVfEnableSet (s : State) : Host.Outcome State Fault Refusal :=
  if s.hif.vfEnable || s.hif.perstIn then .next s
  else .next (s.onHif fun h => { h with vfEnable := true, vfsOn := if h.pageSize < 32 then h.numVfs else 0 })

/-- RESIZABLE_BAR_WRITE: sizes of 256 MiB to 64 GiB are offered; another leaves the size in force (R135, R164). -/
def execResizableBarWrite (size : Nat) (s : State) : Host.Outcome State Fault Refusal :=
  .next (if 8 ≤ size ∧ size ≤ 16 ∧ s.hif.perstIn = false then s.onHif fun h => { h with bar2Log := 20 + size } else s)

/-! Which requests reach a target (R130, R135, R145). -/

/-- The interface takes memory requests: PERST_N is not asserted, and the PF is in D0 (R145, R164). -/
def State.linkTakes (s : State) : Bool := !s.hif.perstIn && !s.d3hot

/-- The BAR of a register or of a tenant window is enabled: the PF's, or an existing VF's (R124, R130, R145, R840). -/
def State.barOpen (s : State) : RegAddr → Bool
  | .bar0 _ => s.linkTakes && (s.fnCfg 0).mse
  | .window n _ => s.linkTakes && (if n.val = 0 then (s.fnCfg 0).mse else s.hif.vfMse && decide (n.val ≤ s.hif.vfsOn))

/-- A BAR2 offset lies in the enabled aperture, at the size in force (R131, R135, R145). -/
def State.bar2Open (s : State) (off : Nat) : Bool := s.linkTakes && (s.fnCfg 0).mse && decide (off < 2 ^ s.hif.bar2Log)

/-- Send the completion of a register request, not before a CCLK and in the order the requests emerged (R140, R142); while PERST_N is
asserted nothing is answered (R164). -/
def State.completeRead (s : State) (later : Nat) (m : OutMsg) : State :=
  if s.hif.perstIn then s else s.send { msg := m, fn := none, after := s.trd.cclk + later, event := none, chain := .register }

/-- The first CCLK from `x` that lies two or more from every one of a list; `fuel` bounds the CCLK passed over. -/
def spaced (l : List Nat) : Nat → Nat → Nat
  | 0, x => x
  | fuel + 1, x => if l.any fun y => decide (y < x + 2 ∧ x < y + 2) then spaced l fuel (x + 1) else x

/-- A register request of PCI Express whose 24 CCLK from emergence end `ahead` CCLK from now: no two emerge in two consecutive CCLK, so the
clock runs to where it can (R839). -/
def State.pcieTurn (s : State) (ahead : Nat) : State :=
  let x := spaced s.hif.pcieAt 64 (s.trd.cclk + ahead)
  (s.elapseTo (x - ahead)).onHif fun h => { h with pcieAt := x :: h.pcieAt.filter fun y => decide (s.trd.cclk ≤ y + 1) }

/-- The register file's write port (true) or read port has been used in this CCLK. -/
def State.portBusy (s : State) (write : Bool) : Bool := (if write then s.hif.wrAt else s.hif.rdAt) == some s.trd.cclk

/-- A port serves one access in a CCLK: the next one waits for the next CCLK (R160, R161). -/
def State.portFree (s : State) (write : Bool) : State := if s.portBusy write then s.tick else s

/-- An access takes the port of its kind. -/
def State.takePort (s : State) (write : Bool) : State :=
  let s1 := s.portFree write
  s1.onHif fun h => if write then { h with wrAt := some s1.trd.cclk } else { h with rdAt := some s1.trd.cclk }

/-- DOORBELL: the write of a doorbell that an enabled BAR holds emerges through the synchroniser, 3 CCLK after its request (R145, R182 to R184,
R839). -/
def execDoorbell (tenant : Fin 256) (ring : Fin 1024) (data : Word) (s : State) : Host.Outcome State Fault Refusal :=
  .next (if s.barOpen (.window tenant 0) then (s.pcieTurn 21).landDoorbell tenant ring data else s)

/-! BAR2. -/

/-- The device physical address of a BAR2 offset (R131). -/
def State.bar2Addr (s : State) (off : Nat) : Nat := s.fld Reg.HIF_BAR2_WIN Reg.HIF_BAR2_WIN_BASE * 2 ^ 28 + off

/-- Issue the BULK line requests of requester 32, one in a CCLK (R134, R842). -/
def State.bar2Lines (s : State) : List Nat → State
  | [] => s
  | [pa] => s.spoolRead 32 0 pa .bulk
  | pa :: pas => (s.spoolRead 32 0 pa .bulk).tick.bar2Lines pas

/-- BAR2_READ: the first of its line requests issues, 24 CCLK after the request emerged, and the others in the CCLK that follow (R131, R842);
a request that hits no enabled BAR is refused 56 CCLK after it emerged (R145). -/
def execBar2Read (off len : Nat) (s : State) : Host.Outcome State Fault Refusal :=
  if s.bar2Open off then
    .next ((s.onHif fun h => { h with bar2 := h.bar2 ++ [{ addr := s.bar2Addr off, len := len, sent := 0 }] }).bar2Lines
      (linesFrom (s.bar2Addr off) len))
  else .next (s.completeRead 32 .unsupported)

/-- The lines that have reached the host interface, requester 32. -/
def State.hostLine (s : State) (pa : Nat) : Option Delivery :=
  s.mem.arrived.find? fun d => d.req == 32 && d.pa == lineOf pa && !d.data.isEmpty

/-- The bytes of the next completion of a read: at most Max Payload Size, and to a 128-byte boundary unless it is the last
(R842). DESIGN CHOICE (log 131): the rule bounds a completion from above alone, and this one is as long as the bound lets it. -/
def State.bar2Chunk (s : State) (r : Bar2Read) : Nat :=
  let a := r.addr + r.sent
  let left := r.len - r.sent
  if left ≤ s.hif.mps then left else (a + s.hif.mps) / 128 * 128 - a

/-- BAR2_COMPLETION: the oldest read's next completion, 16 CCLK after the last line it carries and after the completion before it,
once those lines have arrived (R842). -/
def execBar2Completion (s : State) : Host.Outcome State Fault Refusal :=
  match s.hif.bar2 with
  | [] => .next s
  | r :: rest =>
    let a := r.addr + r.sent
    let n := s.bar2Chunk r
    let lines := linesFrom a n
    if lines.any fun l => (s.hostLine l).isNone then .next s
    else
      let got := lines.filterMap fun l => s.hostLine l
      let bytes := ((got.flatMap fun d => d.data).drop (a % 128)).take n
      let r' := { r with sent := r.sent + n }
      let s1 := s.onHif fun h => { h with bar2 := if r.len ≤ r'.sent then rest else r' :: rest }
      let gone := if r.len ≤ r'.sent then got else got.filter fun d => d.pa + 128 ≤ a + n
      let s2 := s1.onMem fun m => { m with arrived := gone.foldl (fun l d => l.erase d) m.arrived }
      .next (s2.send { msg := .bar2Data bytes, fn := none, after := (got.map fun d => d.cclk).foldl max 0 + 16, event := none,
                       chain := .bar2 (r.sent == 0) })

/-- Write a run of bytes line by line through the Spool; `n` bounds the lines. -/
def State.spoolWriteRun : Nat → State → Nat → List Byte → State
  | 0, s, _, _ => s
  | n + 1, s, pa, d =>
    if d.isEmpty then s
    else
      let k := 128 - pa % 128
      let s1 := if pa < s.imageTop ∨ s.dramTop ≤ pa then s else s.spoolWrite 32 0 pa (d.take k) .bulk false
      State.spoolWriteRun n s1 (pa + k) (d.drop k)

/-- BAR2_WRITE: PF traffic of the BULK class; in the image region and beyond DRAM it has no effect, nor where no enabled BAR is hit
(R131 to R135, R145). -/
def execBar2Write (off : Nat) (data : List Byte) (s : State) : Host.Outcome State Fault Refusal :=
  .next (if s.bar2Open off then State.spoolWriteRun (data.length / 128 + 2) s (s.bar2Addr off) data else s)

/-! Refused and odd requests. -/

/-- UNSUPPORTED_REQUEST: a non-posted request is answered 56 CCLK after it emerges (R140, R145, R843). -/
def execUnsupportedRequest (posted : Bool) (s : State) : Host.Outcome State Fault Refusal :=
  .next (if posted then s else s.completeRead 56 .unsupported)

/-- POISONED_WRITE: no effect on the target; AER reports it (R144). -/
def execPoisonedWrite (fn : Nat) (s : State) : Host.Outcome State Fault Refusal :=
  .next (if s.hif.perstIn then s else s.setFnCfg fn { s.fnCfg fn with poisoned := true })

/-- A target is a statistics counter (R139). -/
def isCounter : RegAddr → Bool
  | .bar0 off => match regRow? off with
    | some r => r.cnt
    | none => false
  | .window _ _ => false

/-- The CCLK from a read's emergence to its completion (R138). -/
def readLatency (target : RegAddr) : Nat := if isCounter target then 88 else 56

/-- ODD_SIZE_ACCESS: the request emerges, with no effect, and a read returns zeros (R18, R138, R839); one that hits no enabled BAR is
refused (R145). -/
def execOddSizeAccess (write : Bool) (target : RegAddr) (len : Nat) (s : State) : Host.Outcome State Fault Refusal :=
  .next (if s.barOpen target then
      let s1 := s.pcieTurn 24
      if write then s1 else s1.completeRead (readLatency target) (.zeroData len)
    else if write then s else s.completeRead 56 .unsupported)

/-- Clear a statistics counter (R139); another register is left alone. -/
def State.clearCounter (s : State) (off : Nat) : State := if isCounter (.bar0 off) then s.wr off 0#32 else s

/-- COUNTER_CLEAR: a write of any value. -/
def execCounterClear (off : Nat) (s : State) : Host.Outcome State Fault Refusal := .next (s.clearCounter off)

/-! Readiness, link and power states. -/

/-- HOST_INTERFACE_READY: configuration requests are answered from now on, unless PERST_N holds the interface (R66, R67, R164). -/
def execHostInterfaceReady (s : State) : Host.Outcome State Fault Refusal :=
  .next (if s.hif.perstIn then s else s.onHif fun h => { h with hostReady := true })

/-- PCIE_LINK_TRAINED: the link comes up; a partner of two lanes trains at one (R165, Tables 3.1 and 3.12). -/
def execPcieLinkTrained (speed width : Nat) (s : State) : Host.Outcome State Fault Refusal :=
  if s.lanesIdle then .next s
  else
    let w := if 8 ≤ width then 8 else if 4 ≤ width then 4 else 1
    .next (((s.setFld Reg.HIF_STATUS Reg.HIF_STATUS_LINK_UP 1).setFld Reg.HIF_LINK Reg.HIF_LINK_SPEED (max 1 (min 4 speed))).setFld
      Reg.HIF_LINK Reg.HIF_LINK_WIDTH w).sendHeld

/-- FLOW_CONTROL_CREDIT: the partner lets more transactions begin (R142, R164, R202). -/
def execFlowControlCredit (tlps : Nat) (s : State) : Host.Outcome State Fault Refusal :=
  .next (if s.hif.perstIn then s else (s.onHif fun h => { h with credit := h.credit + tlps }).sendHeld)

/-- PERST_N_RELEASE: link training may begin (R165, R166). -/
def execPerstRelease (s : State) : Host.Outcome State Fault Refusal :=
  .next ((s.onHif fun h => { h with perstIn := false }).setFld Reg.HIF_STATUS Reg.HIF_STATUS_PERST 0)

/-- D3HOT_ENTRY (R164, R843). -/
def execD3hotEntry (s : State) : Host.Outcome State Fault Refusal :=
  .next (if s.hif.perstIn then s else s.setFld Reg.HIF_STATUS Reg.HIF_STATUS_DSTATE 3)

/-- D0_RETURN: what was held is sent in its original order (R164, R843). -/
def execD0Return (s : State) : Host.Outcome State Fault Refusal :=
  .next (if s.hif.perstIn then s else (s.setFld Reg.HIF_STATUS Reg.HIF_STATUS_DSTATE 0).sendHeld)

/-! PTM. -/

/-- A PTM Request. -/
def ptmTlp (second : Bool) : Tlp := { msg := .ptmRequest second, fn := none, after := 0, event := none, chain := .none }

/-- Start a dialogue: two requests, the stamp recorded as the second begins transmission; with PTM Enable clear it fails at once (R148).
DESIGN CHOICE (log 132): the second request begins in the CCLK of the first where link and credit let it, as R148 gives no interval; and a
dialogue before it that still waits ends without values and without FAIL, its requests not yet sent dropped, as R150 is silent. -/
def State.startPtm (s : State) : State :=
  if s.hif.ptmEnable then
    ((s.onHif fun h => { h with ptm := none, held := h.held.filter fun t => !t.isPtm }).send (ptmTlp false)).send (ptmTlp true)
  else s.setFld Reg.HIF_PTM_STATUS Reg.HIF_PTM_STATUS_FAIL 1

/-- PTM_DIALOGUE: the dialogue scheduled for the start of this frame (R36, R146, R843). -/
def execPtmDialogue (s : State) : Host.Outcome State Fault Refusal :=
  let p := s.fld Reg.HIF_PTM_CTL Reg.HIF_PTM_CTL_PERIOD
  let n := s.trd.now
  if s.bit Reg.HIF_PTM_CTL Reg.HIF_PTM_CTL_EN && p != 0 && n.frame % p == 0 && n.line == 0 && n.pick == 0 && !s.d3hot then
    .next (State.elapse (2 - n.cyc) s).startPtm
  else .next s

/-- A write of HIF_PTM_CTL lands: REQ starts a dialogue in the next CCLK (R147). -/
def State.landPtmCtl (s : State) (data : Word) : State :=
  let s1 := s.plainWrite Reg.HIF_PTM_CTL data
  if Reg.HIF_PTM_CTL_REQ.get data = 1 ∧ s.d3hot = false then s1.tick.startPtm else s1

/-- PTM_REQ: a write of 1 to HIF_PTM_CTL.REQ, EN and PERIOD as they stand. -/
def execPtmReq (s : State) : Host.Outcome State Fault Refusal :=
  .next (s.landPtmCtl (Reg.HIF_PTM_CTL_REQ.put (s.rd Reg.HIF_PTM_CTL) 1))

/-- PTM_RESPONSE: the recorded values and SEQ change together (R148, R149). -/
def execPtmResponse (masterTime delay : Nat) (s : State) : Host.Outcome State Fault Refusal :=
  match s.hif.ptm with
  | none => .next s
  | some t =>
    let m := (masterTime + 2 ^ 64 - delay % 2 ^ 64) % 2 ^ 64
    let s1 := (s.onHif fun h => { h with ptm := none }).wrStamp Reg.HIF_PTM_STAMP_LO Reg.HIF_PTM_STAMP_HI t
    let s2 := (s1.wr Reg.HIF_PTM_MASTER_LO (BitVec.ofNat 32 m)).wr Reg.HIF_PTM_MASTER_HI (BitVec.ofNat 32 (m / 2 ^ 32))
    .next ((s2.setFld Reg.HIF_PTM_STATUS Reg.HIF_PTM_STATUS_SEQ
      (s.fld Reg.HIF_PTM_STATUS Reg.HIF_PTM_STATUS_SEQ + 1)).setFld Reg.HIF_PTM_STATUS Reg.HIF_PTM_STATUS_VALID 1)

/-- PTM_TIMEOUT: no response in time (R150). -/
def execPtmTimeout (s : State) : Host.Outcome State Fault Refusal :=
  match s.hif.ptm with
  | none => .next s
  | some _ =>
    .next ((s.onHif fun h => { h with ptm := none }).setFld Reg.HIF_PTM_STATUS Reg.HIF_PTM_STATUS_FAIL 1)

end Sys2Proof.Machine
end

