-- ==== Sys2Proof/Machine/Drain.lean ====
section
/-! DEFINITION. Tenant drains (R227 to R231, R325, R394, R589, R841, Tables 4.8 and 4.9): their start for each reset, the granules a
tenant owns, and their end. -/

namespace Sys2Proof.Machine

/-! Registers a reset returns. -/

/-- A register's RW fields return to their reset values; RWI fields keep a host override (R109, Table 4.8). -/
def State.resetRw (s : State) (off : Nat) : State :=
  match regRow? off with
  | some r =>
    let m := BitVec.ofNat 32 r.rw &&& ~~~(BitVec.ofNat 32 r.rwi)
    s.wr off ((s.rd off &&& ~~~m) ||| (BitVec.ofNat 32 r.reset &&& m))
  | none => s

/-- The rings of a tenant. -/
def State.ringsOf (s : State) (n : Nat) : List Nat := (List.range 1024).filter fun g => s.ringTenant g == n

/-! The granules a tenant owns (R325). -/

/-- The granules of an owned leaf of `2^bits` bytes that does not fault. -/
def State.ownedLeaf (s : State) (e bits : Nat) : List Nat :=
  if e.testBit 3 then
    match s.leaf 0 e bits false with
    | .ok _ _ _ base _ => (List.range (2 ^ bits / 4096)).map fun i => base / 4096 + i
    | .fault _ => []
  else []

/-- The owned granules below a table of a level: what is not valid, would fault, or is read poisoned is skipped. -/
def State.ownedFrom (s : State) : Nat → Nat → Nat → List Nat
  | 0, _, _ => []
  | fuel + 1, level, table =>
    if s.dramTop ≤ table then []
    else (List.range 512).flatMap fun i =>
      let a := table + 8 * i
      let e := s.memNat a 8
      if s.memPoison a || !e.testBit 0 || e / 32 % 128 != 0 || e / 2 ^ 40 != 0 then []
      else if level ≤ 2 then (if e.testBit 1 then [] else s.ownedFrom fuel (level + 1) (entryPa e))
      else if level = 3 then (if e.testBit 1 then s.ownedLeaf e 21 else s.ownedFrom fuel (level + 1) (entryPa e))
      else if !e.testBit 1 then []
      else s.ownedLeaf e (if e.testBit 4 then 16 else 12)

/-- The granules of a tenant, walked from MMU_CTX.ROOT whatever MMU_CTX.EN holds. -/
def State.ownedGranules (s : State) (n : Nat) : List Nat := (s.ownedFrom 4 1 (s.mmuRoot n)).foldl (fun l g => insertNat g l) []

/-- Step D4: the lines of owned granules leave the L1s, the Spool and the write queues unwritten, and then the granules are unwritten. -/
def State.clearOwned (s : State) (n : Nat) : State :=
  let own := s.ownedGranules n
  let mine := fun (pa : Nat) => own.contains (pa / 4096)
  own.foldl State.clearGranule (s.onMem fun m => { m with
    l1 := m.l1.filter fun x => !mine x.pa
    wb := m.wb.filter fun x => !mine x.pa
    spool := m.spool.filter fun x => !mine x.2.pa
    leaving := m.leaving.filter fun x => !mine x.pa
    queue := m.queue.filter fun q => !((q.kind == .write || q.kind == .zero) && mine q.pa)
    zeroing := m.zeroing.filter fun z => !own.contains z.granule })

/-! The steps of a drain. -/

/-- The order of the resets, from the narrowest to the widest. -/
def DrainKind.rank : DrainKind → Nat
  | .tenStop => 0
  | .vfFlr => 1
  | .pfFlr => 2
  | .perst => 3
  | .devReset => 4

/-- Step D1 for the host's side of a tenant: events, counts, timers and held messages are discarded; a function's reset takes its vectors'
table entries and the records on their way too (Table 4.8). -/
def State.discardEvents (s : State) (n : Nat) (k : DrainKind) : State :=
  let fnReset := k == .vfFlr || k == .pfFlr || k == .perst
  let s1 := (vectorsOf n).foldl (fun t v =>
    let x := t.vector v
    t.setVector v (if fnReset then Vector.idle else { Vector.idle with addr := x.addr, data := x.data, masked := x.masked })) s
  let isMsg := fun (t : Tlp) => match t.msg with
    | .msix _ _ _ _ => true
    | _ => false
  let s2 := s1.onHif fun h => { h with held := h.held.filter fun t => !(t.fn == some n && (fnReset || isMsg t)) }
  if fnReset then s2.onTen fun t => { t with recs := t.recs.filter fun r => r.tenant != n } else s2

/-- The looms that a tenant holds, by physical number. -/
def State.loomsHeld (s : State) (n : Nat) : List Nat :=
  (List.range 34).filter fun p => match (s.loom p).work with
    | some (g, _) => s.ringTenant g == n
    | none => false

/-- The descriptors of a tenant. -/
def State.descsOf (s : State) (n : Nat) : List Desc := s.ten.descs.filter fun d => d.tenant == n

/-- Steps D1 and D2 for a tenant's rings, intake records and descriptors: fetching stops, records go, the looms it holds are withheld, and
its descriptors end, a running one at the end of the innermost tile in progress on each loom (Table 4.9). -/
def State.drainDescs (s : State) (n : Nat) : State :=
  let s1 := (s.ringsOf n).foldl (fun t g => t.setRing g { t.ring g with reads := 0, refused := false }) s
  let s2 := (s.loomsHeld n).foldl (fun t p => t.onLoom p fun l => { l with withheld := some n }) s1
  let s3 := { s2 with
    pic := { s2.pic with fifo := s2.pic.fifo.filter fun f => f.tenant != n }
    kv := { s2.kv with
      waits := s2.kv.waits.filter fun w => s.ringTenant w.ring != n
      merges := s2.kv.merges.filter fun m => s.ringTenant m.ring != n } }
  let s4 := (s3.descsOf n).foldl (fun t d => match t.desc? d.ring d.seq with
    | some e => t.stopAtTile e .drained
    | none => t) s3
  s4.setTenant n { s4.tenant n with stopsAt := (s4.descsOf n).foldl (fun c d => max c d.stopAt) s4.trd.cclk }

/-- A drain of a tenant starts: steps D1 and D2 (Table 4.9); the window of a VF that is reset answers nothing until the drain ends (R229). One
in progress takes the wider reset's effects (R230). -/
def State.startDrain (s : State) (n : Nat) (k : DrainKind) : State :=
  let t := s.tenant n
  let shut := t.shut || k == .vfFlr
  match t.drain with
  | some old =>
    if k.rank ≤ old.rank then s.setTenant n { t with shut := shut }
    else (s.setTenant n { t with drain := some k, shut := shut }).discardEvents n k
  | none => ((s.setTenant n { t with drain := some k, shut := shut }).discardEvents n k).drainDescs n

/-- Drains of every tenant of a list. -/
def State.startDrains (s : State) (ns : List Nat) (k : DrainKind) : State := ns.foldl (fun t n => t.startDrain n k) s

/-- The registers a wider drain returns: QRG, TEN and SHT_FAR_* RW fields (Table 4.8). -/
def State.resetTenant (s : State) (n : Nat) (rings : List Nat) : State :=
  let s1 := rings.foldl (fun t g =>
    [Reg.QRG_BASE_LO g, Reg.QRG_BASE_HI g, Reg.QRG_CQ_LO g, Reg.QRG_CQ_HI g, Reg.QRG_CFG g].foldl State.resetRw t) s
  ([Reg.TEN_CFG n, Reg.TEN_MSG n, Reg.SHT_FAR_BASE_LO n, Reg.SHT_FAR_BASE_HI n, Reg.SHT_FAR_SIZE n] ++
    (vectorsOf n).map Reg.TEN_MOD).foldl State.resetRw s1

/-- Step D6: the rings and TEN fields are set as Table 4.8 gives, and the looms go back to the pool. -/
def State.endDrain (s : State) (n : Nat) (k : DrainKind) : State :=
  let rings := s.ringsOf n
  let s1 := rings.foldl (fun t g =>
    ((t.setRing g Ring.idle).setFld (Reg.QRG_CFG g) Reg.QRG_CFG_EN 0).setFld (Reg.QRG_CFG g) Reg.QRG_CFG_DRAINING 0) s
  let s2 := if k.rank ≤ 1 then s1 else s1.resetTenant n rings
  let s3 := (s2.setFld (Reg.TEN_CFG n) Reg.TEN_CFG_EN 0).setTenant n { s2.tenant n with drain := none, shut := false }
  s3.onLooms fun l => if l.withheld = some n then { l with withheld := none } else l

/-- What is left of step D2: the descriptors still running to the end of a tile stop. -/
def State.finishDescs (s : State) (n : Nat) : State :=
  let s0 := if (s.descsOf n).isEmpty then s else s.elapseTo (s.tenant n).stopsAt
  (s0.descsOf n).foldl (fun t d => match t.desc? d.ring d.seq with
    | some e => t.finishStop e .drained
    | none => t) s0

/-- Step D3: the scratch of every loom the tenant held is cleared, all looms at once in 3,072 CCLK after they have stopped. -/
def State.clearHeld (s : State) (n : Nat) : State :=
  let ps := (List.range 34).filter fun p => (s.loom p).withheld == some n
  if ps.isEmpty then s
  else ps.foldl (fun t p => (t.dropL1 (t.loom p).logical true).onLoom p Loom.wiped) (s.elapseTo ((s.tenant n).stopsAt + 3072))

/-- Step D5: the tenant's KV pages, its references to prefix pages and its far-tier pages are released. -/
def State.releasePages (s : State) (n : Nat) : State :=
  (s.drainSeqs n).onSht fun x => { x with far := x.far.filter fun f => f.page || f.tenant != n }

/-- DRAIN_COMPLETE: the drain of a tenant runs to its end, steps D2 to D6 in order (R228). DESIGN CHOICE (log 137): steps D4 and D5 have a
bound and no length; they are made in the CCLK in which D3 ends, before D6. -/
def execDrainComplete (tenant : Fin 256) (s : State) : Host.Outcome State Fault Refusal :=
  if s.draining tenant then
    let s1 := (((s.finishDescs tenant).clearHeld tenant).clearOwned tenant).releasePages tenant
    .next (match (s1.tenant tenant).drain with
      | some k => s1.endDrain tenant k
      | none => s1)
  else .next s

/-! The resets that drain. -/

/-- TEN_CTL.STOP (R231). -/
def execTenStop (tenant : Fin 256) (s : State) : Host.Outcome State Fault Refusal := .next (s.startDrain tenant .tenStop)

/-- A tenant is enabled again, once DRAIN reads 0 (R231). -/
def State.startTenant (s : State) (n : Nat) : State :=
  if s.draining n then s else s.setFld (Reg.TEN_CFG n) Reg.TEN_CFG_EN 1

/-- TEN_CTL.START. -/
def execTenStart (tenant : Fin 256) (s : State) : Host.Outcome State Fault Refusal := .next (s.startTenant tenant)

/-- A write of TEN_CTL lands: STOP, and START once nothing drains. -/
def State.landTenCtl (s : State) (n : Nat) (data : Word) : State :=
  let s1 := if Reg.TEN_CTL_STOP.get data = 1 then s.startDrain n .tenStop else s
  if Reg.TEN_CTL_START.get data = 1 then s1.startTenant n else s1

/-- A VF's configuration space is at its reset values. -/
def State.resetFn (s : State) (n : Nat) : State := s.setFnCfg n FnCfg.reset

/-- VF_FLR: of a VF that exists (R227, R229). -/
def execVfFlr (vf : Fin 256) (s : State) : Host.Outcome State Fault Refusal :=
  if vf.val = 0 ∨ s.hif.vfsOn < vf.val ∨ s.hif.perstIn = true then .next s else .next ((s.resetFn vf).startDrain vf .vfFlr)

/-- VF_ENABLE_CLEAR: every VF that ceases to exist is drained with the effects of a VF FLR (R841); nothing reaches the device while PERST_N
is asserted (R164). -/
def execVfEnableClear (s : State) : Host.Outcome State Fault Refusal :=
  if s.hif.perstIn then .next s else
  let vfs := (List.range (s.hif.vfsOn + 1)).drop 1
  let s1 := vfs.foldl State.resetFn (s.onHif fun h => { h with vfEnable := false, vfsOn := 0 })
  .next (s1.startDrains vfs .vfFlr)

/-- PF_FLR: the PF's configuration space returns to reset, its VFs disappear, and every tenant drains (R227); nothing
reaches the device while PERST_N is asserted (R164). -/
def execPfFlr (s : State) : Host.Outcome State Fault Refusal :=
  if s.hif.perstIn then .next s else
  let s1 := (s.onHif fun h => { Hif.reset with
    hostReady := h.hostReady
    perstIn := h.perstIn
    held := h.held.filter fun t => t.fn.isNone
    credit := h.credit
    lastRead := h.lastRead
    lastBar2 := h.lastBar2
    bar2 := h.bar2
    ptm := h.ptm
    sbStatus := h.sbStatus
    pcieAt := h.pcieAt
    wrAt := h.wrAt
    rdAt := h.rdAt }).setFld Reg.HIF_STATUS Reg.HIF_STATUS_DSTATE 0
  .next (s1.startDrains (List.range 256) .pfFlr)

/-- PERST_N_ASSERT: the link and the host interface are held in reset, PTM's registers return to their reset values, and every tenant
drains (R159, R164, R169, R227). -/
def execPerstAssert (s : State) : Host.Outcome State Fault Refusal :=
  let s1 := s.onHif fun h => { Hif.reset with sbStatus := h.sbStatus, wrAt := h.wrAt, rdAt := h.rdAt }
  let s2 := [(Reg.HIF_STATUS_PERST, 1), (Reg.HIF_STATUS_LINK_UP, 0), (Reg.HIF_STATUS_DSTATE, 0)].foldl
    (fun t x => t.setFld Reg.HIF_STATUS x.1 x.2) s1
  let s3 := [Reg.HIF_LINK, Reg.HIF_PTM_STATUS, Reg.HIF_PTM_STAMP_LO, Reg.HIF_PTM_STAMP_HI, Reg.HIF_PTM_MASTER_LO,
    Reg.HIF_PTM_MASTER_HI].foldl (fun t off => t.wr off 0#32) s2
  .next (s3.startDrains (List.range 256) .perst)

end Sys2Proof.Machine
end

