-- ==== Sys2Proof/Machine/Jtag.lean ====
section
/-! DEFINITION. The test access port (R818 to R820). -/

namespace Sys2Proof.Machine

/-- The TAP controller's next state (IEEE 1149.1). -/
def TapState.next : TapState → Bool → TapState
  | .reset, tms => if tms then .reset else .idle
  | .idle, tms => if tms then .selectDr else .idle
  | .selectDr, tms => if tms then .selectIr else .captureDr
  | .captureDr, tms => if tms then .exit1Dr else .shiftDr
  | .shiftDr, tms => if tms then .exit1Dr else .shiftDr
  | .exit1Dr, tms => if tms then .updateDr else .pauseDr
  | .pauseDr, tms => if tms then .exit2Dr else .pauseDr
  | .exit2Dr, tms => if tms then .updateDr else .shiftDr
  | .updateDr, tms => if tms then .selectDr else .idle
  | .selectIr, tms => if tms then .reset else .captureIr
  | .captureIr, tms => if tms then .exit1Ir else .shiftIr
  | .shiftIr, tms => if tms then .exit1Ir else .shiftIr
  | .exit1Ir, tms => if tms then .updateIr else .pauseIr
  | .pauseIr, tms => if tms then .exit2Ir else .pauseIr
  | .exit2Ir, tms => if tms then .updateIr else .shiftIr
  | .updateIr, tms => if tms then .selectDr else .idle

/-- IDCODE (R818). -/
def State.idcode (s : State) : BitVec 32 :=
  BitVec.ofNat 32 (s.boot.fuses.step % 16 * 2 ^ 28 + 0x1640 * 2 ^ 12 + 0x2B5 * 2 + 1)

/-- The bits of a number, the lowest first. -/
def bitsOf (n : Nat) (x : Nat) : List Bool := (List.range n).map x.testBit

/-- The TEST mode of BOOT_MODE. -/
def State.testMode (s : State) : Bool := s.boot.bootMode == 7#3

/-- The instruction a shifted value selects; without TEST only three are offered, and any other selects BYPASS (R820). -/
def State.tapOp (s : State) (ir : List Bool) : TapOp :=
  match Config.irOp ir with
  | 0 => .bypass
  | 1 => .idcode
  | 2 => .sample
  | 3 => if s.testMode then .extest else .bypass
  | 4 => if s.testMode then .extestPulse else .bypass
  | 5 => if s.testMode then .extestTrain else .bypass
  | _ => if s.testMode then .device else .bypass

/-- The boundary-scan register is selected. -/
def TapOp.scans : TapOp → Bool
  | .sample | .extest | .extestPulse | .extestTrain => true
  | _ => false

/-- What a selected data register captures. -/
def State.captured (s : State) (balls : List Bool) : List Bool :=
  match s.jtag.op with
  | .bypass => [false]
  | .idcode => bitsOf 32 s.idcode.toNat
  | .device => [Config.privateBit s.free]
  | _ => (List.range Config.bsrLength).map fun k => balls.getD k false

/-- Shift one bit in; the bit nearest TDO leaves. -/
def shiftIn (l : List Bool) (tdi : Bool) : List Bool := l.drop 1 ++ [tdi]

/-- Change the port. -/
def State.onJtag (s : State) (f : Jtag → Jtag) : State := { s with jtag := f s.jtag }

/-- What the state the controller is in does at a TCK edge. -/
def State.tapAct (s : State) (tdi : Bool) (balls : List Bool) : State :=
  let j := s.jtag
  match j.tap with
  | .reset => s.onJtag fun x => { x with op := .idcode }
  | .captureDr =>
    let s1 := s.onJtag fun x => { x with dr := s.captured balls }
    if j.op = .device then s1.nextFree.2 else s1
  | .shiftDr =>
    if j.op = .device then s.nextFree.2.onJtag fun x => { x with dr := [Config.privateBit s.free] }
    else s.onJtag fun x => { x with dr := shiftIn x.dr tdi }
  | .updateDr => if j.op.scans then s.onJtag fun x => { x with bsr := x.dr } else s
  | .captureIr => s.onJtag fun x => { x with ir := [true, false] ++ (List.range (Config.irLength - 2)).map Config.irCapture }
  | .shiftIr => s.onJtag fun x => { x with ir := shiftIn x.ir tdi }
  | .updateIr => s.onJtag fun x => { x with op := s.tapOp x.ir }
  | _ => s

/-- TDO in a state: the bit that leaves while a register shifts. -/
def Jtag.out (j : Jtag) : Option Bool :=
  match j.tap with
  | .shiftDr => j.dr.head?
  | .shiftIr => j.ir.head?
  | _ => none

/-- JTAG_TCK: the controller's state acts, moves on with TMS, and TDO follows. -/
def execJtagTck (tms tdi : Bool) (balls : List Bool) (s : State) : Host.Outcome State Fault Refusal :=
  let s1 := (s.tapAct tdi balls).onJtag fun x => { x with tap := x.tap.next tms }
  .next (s1.onJtag fun x => { x with tdo := x.out })

end Sys2Proof.Machine
end

