-- ==== Sys2Proof/Machine/Loader.lean ====
section
/-! DEFINITION. The loader's commit (R56, R92 to R95, R103 to R108, R112, R324, R602, R615, R672, R721 to R724, R759, R838), the
change from the boot timing (R70, R356), and DEV_RESET with its reload (R110, R111, R115, R168). -/

namespace Sys2Proof.Machine

/-! The image's register records. -/

/-- A REGS record (Table 2.9). -/
structure RegRecord where
  off   : Nat
  value : Word
  mask  : Word
  deriving DecidableEq, Repr

/-- The configuration sections of the slot that is being loaded, of one type; none on factory defaults. -/
def State.cfgSections (s : State) (type : Nat) : List Section :=
  if s.loadState = 6 then []
  else match s.boot.slot with
    | some k => (s.sections k).filter fun x => x.type == type
    | none => []

/-- The bytes of a section of the active slot. -/
def State.sectionBytes (s : State) (x : Section) : List Byte :=
  match s.boot.slot with
  | some k => s.flashBytes (slotBase k + x.offset) x.length
  | none => []

/-- The records of a REGS section; the spec does not say what a LENGTH that is no multiple of 12 means, and the bytes left over are ignored
(DESIGN CHOICE, log 129). -/
def regRecords (b : List Byte) : List RegRecord :=
  (List.range (b.length / 12)).map fun i =>
    { off := bytesAt b (12 * i) 4, value := BitVec.ofNat 32 (bytesAt b (12 * i + 4) 4), mask := BitVec.ofNat 32 (bytesAt b (12 * i + 8) 4) }

/-- Every record of the image, by its position (R94). -/
def State.imageRecords (s : State) : List RegRecord := (s.cfgSections 1).flatMap fun x => regRecords (s.sectionBytes x)

/-- The RWI bits of a register. -/
def rwiBits (off : Nat) : Word :=
  match regRow? off with
  | some r => BitVec.ofNat 32 r.rwi
  | none => 0#32

/-- A record aims at a bit that is no RWI bit (R93). -/
def RegRecord.rejected (r : RegRecord) : Bool := (r.mask &&& ~~~(rwiBits r.off)) != 0#32

/-- The bits the image supplies for a register, as a mask and their values: the first record that supplies a bit decides it (R94). -/
def imageBits (recs : List RegRecord) (off : Nat) : Word × Word :=
  recs.foldl (fun acc r => if r.off = off then (acc.1 ||| r.mask, acc.2 ||| (r.value &&& r.mask &&& ~~~acc.1)) else acc) (0#32, 0#32)

/-! Factory values. -/

/-- The factory timing: the preferred timing the panel gives, if port 0's trained link carries it at 8 bits per component, when the device runs on
factory defaults; else the boot timing (Table 2.13). -/
def State.factoryTiming (s : State) (edid : Option Timing) : Timing :=
  match edid with
  | some t =>
    if s.loadState = 6 ∧ s.port 0 Reg.SCN_PORT_STATUS_TRAINED = 1 ∧
        streamFits t 0 8 (s.port 0 Reg.SCN_PORT_STATUS_RATE) (s.port 0 Reg.SCN_PORT_STATUS_LANES) = true then t
    else Timing.boot
  | none => Timing.boot

/-- The words of the timing registers for a timing (Table 11.9). -/
def timingWords (t : Timing) : List (Nat × Nat) :=
  [(Reg.SCN_HTIM0, t.hActive + 65536 * t.hFp), (Reg.SCN_HTIM1, t.hSync + 65536 * t.hBp), (Reg.SCN_VTIM0, t.vActive + 65536 * t.vFp),
   (Reg.SCN_VTIM1, t.vSync + 65536 * t.vBp),
   (Reg.SCN_TIM_CTL, t.refresh + (if t.hsPol then 2 ^ 24 else 0) + (if t.vsPol then 2 ^ 25 else 0))]

/-- The RWI value the commit gives a register: the image's bits, else the factory's (R103, R106). -/
def State.commitWord (s : State) (recs : List RegRecord) (off : Nat) (factory : Word) : Word :=
  let rwi := rwiBits off
  let img := imageBits recs off
  (s.rd off &&& ~~~rwi) ||| (((img.2 &&& img.1) ||| (factory &&& ~~~img.1)) &&& rwi)

/-- The factory value of a register under the timing that is applied: TRD_VS_LINE and SNAP_LINE follow it (R838), and the power cap is the
fused one (Table 2.13). -/
def State.factoryWord (s : State) (t : Timing) (off : Nat) : Word :=
  if off = Reg.TRD_VS_LINE then BitVec.ofNat 32 ((t.vActive + t.vFp) % 16384)
  else if off = Reg.RIN_CFG then Reg.RIN_CFG_SNAP_LINE.put (regDef off) t.vActive
  else if off = Reg.PWR_LIMIT ∧ s.boot.fuses.wall = false then Reg.PWR_LIMIT_CAP_W.put (regDef off) 30
  else regDef off

/-- Every RWI field takes its value (R103, R106); pins newly owned are driven low (R56); an XS1640-T has no Selvage registers (R4). -/
def State.commitRegs (s : State) (recs : List RegRecord) (edid : Option Timing) : State :=
  let s1 := (timingWords (s.factoryTiming edid)).foldl (fun t x => t.wr x.1 (t.commitWord recs x.1 (BitVec.ofNat 32 x.2))) s
  let t := s1.timingRegs
  let gpio := s.commitWord recs Reg.TRD_GPIO_OWN (regDef Reg.TRD_GPIO_OWN)
  let s2 := s1.landGpioOwn (BitVec.ofNat 16 (Reg.TRD_GPIO_OWN_OWN.get gpio))
  let offs := (Reg.TRD_VS_LINE :: Reg.RIN_CFG :: Reg.PWR_LIMIT :: recs.map fun r => r.off) ++ s.regs.map fun e => e.1
  let rest := offs.filter fun o => rwiBits o != 0#32 && !((timingWords t).any fun x => x.1 == o) && (s.boot.fuses.wall || o / 0x10000 != 16)
  rest.foldl (fun u o => u.wr o (u.commitWord recs o (s.factoryWord t o))) s2

/-! What the commit brings beside the register file. -/

/-- The end of the image region (R95). -/
def State.regionTop (s : State) : Nat :=
  let l := (s.cfgSections 3) ++ s.cfgSections 0x10
  (l.foldl (fun m x => max m (x.load + x.length)) 0 + 2097151) / 2097152 * 2097152

/-- The image region is set up: its size is reported, its granules are written, and BOBBIN sections are copied (R95, R324, Table 2.7). -/
def State.setRegion (s : State) : State :=
  let top := s.regionTop
  let s1 := s.setFld Reg.IMG_REGION Reg.IMG_REGION_SIZE (top / 2097152)
  let s2 := s1.onMem fun m => { m with wmap := List.range (top / 4096) ++ m.wmap.filter fun g => decide (top / 4096 ≤ g) }
  (s.cfgSections 3).foldl (fun t x => t.dramStore x.load (s.sectionBytes x)) s2

/-- A WALL section's contents (Table 2.10). -/
def wallOf (b : List Byte) : Wall :=
  { width := bytesAt b 0 1, height := bytesAt b 1 1, master := bytesAt b 2 1,
    entries := (List.range 16).map fun i =>
      { chip := bytesAt b (4 + 4 * i) 1, x := bytesAt b (5 + 4 * i) 1, y := bytesAt b (6 + 4 * i) 1, en := bytesAt b (7 + 4 * i) 1 == 1 } }

/-- The entry that gives a chip its coordinates, if R722 finds nothing wrong. -/
def Wall.place (w : Wall) (chip : Nat) : Option WallEntry :=
  match w.entries.filter fun e => e.en && e.chip == chip with
  | [e] =>
    if w.width ≤ e.x ∨ w.height ≤ e.y ∨ (w.entries.any fun o => o.en && o.chip != chip && o.x == e.x && o.y == e.y) = true then none
    else some e
  | _ => none

/-- The WALL section is applied on an XS1640-W: coordinates, the role and the master in use (R74, R721, R722, R740). The spec does not say which
of several WALL sections counts: the first is applied (DESIGN CHOICE, log 129). -/
def State.applyWall (s : State) : State :=
  if !s.boot.fuses.wall then s
  else
    let wall := (s.cfgSections 2).head?.map fun x => wallOf (s.sectionBytes x)
    let s1 := s.onBoot fun b => { b with wall := wall }
    match wall with
    | none => (s1.setFld Reg.SLV_STATUS Reg.SLV_STATUS_NOCOORD 1).setFld Reg.SLV_STATUS Reg.SLV_STATUS_ROLE 0
    | some w =>
      let s2 := s1.setFld Reg.SLV_CFG Reg.SLV_CFG_MASTER w.master
      match w.place s.chip with
      | none => (s2.setFld Reg.SLV_STATUS Reg.SLV_STATUS_NOCOORD 1).setFld Reg.SLV_STATUS Reg.SLV_STATUS_ROLE 0
      | some e =>
        let role := if w.master = s.chip then 1 else 2
        let s3 := [(Reg.SLV_STATUS_X, e.x), (Reg.SLV_STATUS_Y, e.y), (Reg.SLV_STATUS_W, w.width - 1), (Reg.SLV_STATUS_H, w.height - 1),
          (Reg.SLV_STATUS_ROLE, role), (Reg.SLV_STATUS_NOCOORD, 0)].foldl (fun t x => t.setFld Reg.SLV_STATUS x.1 x.2) s2
        s3.onSlv fun v => { v with master := w.master, masterAt := none }

/-- The ports the commit disables stop, and those it lets train begin (R724, R736); `first` at the first commit after RESET_N. -/
def State.startPorts (s : State) (first : Bool) : State :=
  if !s.boot.fuses.wall then s
  else (List.range 4).foldl (fun t p => if t.slvDisabled p || first || t.slvState p == 5 then (if t.slvUp p then (t.dropPort p 0).failColls p else t).startSlv p else t) s

/-- A special role that cannot be is reported: a collective entry that names the intake ring, or a ring a lower entry names (R759). -/
def State.checkRoles (s : State) : State :=
  let en := fun (k : Nat) => s.bit (Reg.SLV_COLL_RING k) Reg.SLV_COLL_RING_EN
  let ring := fun (k : Nat) => s.fld (Reg.SLV_COLL_RING k) Reg.SLV_COLL_RING_RING
  if (List.range 16).any fun k => en k && (s.isIntake (ring k) || (List.range k).any fun j => en j && ring j == ring k) then
    s.setFld Reg.SLV_STATUS Reg.SLV_STATUS_CFG_ERR 1
  else s

/-- The sequence engine takes its EN after every other field: 0 to 1 starts an initialisation, 1 to 0 a stop (R590, R591, R602). -/
def State.commitSeq (s : State) (before : Bool) : State :=
  if s.kvOn && !before then s.startKvInit false else if before && !s.kvOn then s.stopKv else s

/-- The picture path admits with the applied configuration from now on, and runs Tack-only until its admission says otherwise (R69). -/
def State.commitPic (s : State) : State :=
  s.onPic fun p => { p with admitNow := { p.admitNow with
    cfg := s.rd Reg.PIC_CFG
    dstPos := s.rd Reg.PIC_DST_POS
    dstSize := s.rd Reg.PIC_DST_SIZE
    rtDelay := s.rd Reg.PIC_RT_DELAY } }

/-- Slots that the commit leaves disarmed lose their comparators (R46). -/
def State.disarmSlots (s : State) : State :=
  (List.range 256).foldl (fun t n => if t.bit (Reg.TRD_SLOT_CTL n) Reg.TRD_SLOT_CTL_ARM then t else (t.leaveQueue n).setComp n none) s

/-- Once READY is set the loader arms the slots whose ARM it supplied, and leaves FIRED as it is (R45, R47). -/
def State.armSlots (s : State) : State :=
  (List.range 256).foldl (fun t n =>
    if t.bit (Reg.TRD_SLOT_CTL n) Reg.TRD_SLOT_CTL_ARM then t.landSlotCtl n (Reg.TRD_SLOT_CTL_FIRED.put (t.rd (Reg.TRD_SLOT_CTL n)) 0) else t) s

/-- The CCLK after the commit CCLK (R70, R107, R837): READY is 1, FSYNC_OUT is free, armed slots are loaded, and the next frame start brings the
loaded timing. -/
def State.becomeReady (s : State) : State :=
  let s1 := (s.tick.setFld Reg.HIF_STATUS Reg.HIF_STATUS_READY 1).onTrd fun t => { t with fsyncFree := true }
  let s2 := if s.rd Reg.IMG_T_CFG = 0#32 then s1.wr Reg.IMG_T_CFG (BitVec.ofNat 32 (s1.trd.time / usTime)) else s1
  s2.armSlots.onBoot fun b => { b with committed := true, switchAt := some s2.nextFrame }

/-- The network load follows, or is already done (R69, Table 2.16); factory defaults have none, and no loom is reserved on them (Table
2.13). -/
def State.afterCommit (s : State) : State :=
  if s.loadState = 6 then (s.reserve 0).refreshLadder
  else if s.boot.netNext < s.netSections.length then s.setLoadState 4 else s.loadDone

/-- The first commit after RESET_N numbers the looms again with the image's LOM_DENY bits, where it sets any (R271). -/
def State.renumberLooms (s : State) : State :=
  if (List.range 34).any s.denied then
    { s with looms := numberLooms s.boot.fuses s.denied fun p => decide ((s.loom p).state = .retired ∨ (s.loom p).state = .failing) }
  else s

/-- CONFIG_COMMIT: the accepted image, or the factory defaults, is applied once DRAM is trained, and READY becomes 1 in the CCLK after. -/
def execConfigCommit (edid : Option Timing) (s : State) : Host.Outcome State Fault Refusal :=
  if s.bit Reg.HIF_STATUS Reg.HIF_STATUS_READY || !s.trained || !(s.loadState == 3 || s.loadState == 6) || s.boot.restartWait then .next s
  else
    let recs := s.imageRecords
    let ref := imageBits recs Reg.DMC_REF_CFG
    let s1 := ((s.commitRegs recs edid).bumps Reg.IMG_REC_REJ_CNT (recs.filter RegRecord.rejected).length).onBoot fun b =>
      { b with refImage := (Reg.DMC_REF_CFG_PERIOD.get ref.1 != 0, Reg.DMC_REF_CFG_PERIOD_HOT.get ref.1 != 0) }
    let s2 := (if s1.boot.committed then s1.denySpares else s1.renumberLooms).setRegion.applyWall.disarmSlots.checkRoles.commitPic
    let s3 := (s2.startPorts (!s.boot.committed)).onSht fun t => { t with loomLvl := [], tenLvl := [], rasLvl := none }
    .next ((s3.commitSeq s.kvOn).refreshLadder.becomeReady.afterCommit)

/-- The refresh periods at the change from the boot timing: a value the image supplied is kept (R356). -/
def State.bootRefresh (s : State) : State :=
  let old := s.rd Reg.DMC_REF_CFG
  let s1 := s.setRefresh
  let s2 := if s.boot.refImage.1 then s1.setFld Reg.DMC_REF_CFG Reg.DMC_REF_CFG_PERIOD (Reg.DMC_REF_CFG_PERIOD.get old) else s1
  if s.boot.refImage.2 then s2.setFld Reg.DMC_REF_CFG Reg.DMC_REF_CFG_PERIOD_HOT (Reg.DMC_REF_CFG_PERIOD_HOT.get old) else s2

/-- BOOT_TIMING_SWITCH: at the first frame start after READY the applied timing, reference and port settings are in use, and the frame that begins is
sent (R70, R356, R615). -/
def execBootTimingSwitch (s : State) : Host.Outcome State Fault Refusal :=
  match s.boot.switchAt with
  | none => .next s
  | some f =>
    if s.trd.now.frame = f ∧ s.trd.now.line = 0 ∧ s.trd.now.pick = 0 then
      let t := s.timingRegs
      let ok := legalTiming t (Reg.SCN_CFG_MODE.get (s.rd Reg.SCN_CFG) % 3)
      let changed := (List.range 2).filter s.portChanges
      let s1 := (s.onBoot fun b => { b with switchAt := none, bootTiming := false }).onScn fun c => { c with sending := true }
      let s2 := if ok then
          ((s1.onTrd fun x => { x with restart := x.restart || x.timing != t }).takeTiming t).bootRefresh
        else s1.setFld Reg.SCN_STATUS Reg.SCN_STATUS_TIM_ERR 1
      let s3 := (List.range 2).foldl (fun u p => u.setInUse (Reg.SCN_PORT_CTL p) (u.rd (Reg.SCN_PORT_CTL p))) s2.takePorts
      let s4 := (s3.copyShadows false).takeReference
      let s5 := if s4.trd.timing = s.trd.timing then s4 else s4.startAdmission
      .next (s5.retrainPorts changed).portsFrameStart
    else .next s

/-! DEV_RESET. -/

/-- The loader starts again from the probe's result (R78, R110): slot choice is next, with the pointer blocks read
again, or factory defaults where no slot is read. -/
def State.reload (s : State) : State :=
  let s1 := s.onBoot fun b => { b with tried := [], slot := none, netNext := 0, networks := [], loaded := false, restartWait := false }
  if s.loadState = 0 ∨ s.loadState = 1 ∨ s.loadState = 7 then s1
  else
    let s2 := (s1.setFld Reg.IMG_FAIL Reg.IMG_FAIL_SLOT_A 15).setFld Reg.IMG_FAIL Reg.IMG_FAIL_SLOT_B 15
    if s.boot.bootMode = 2#3 then s2.toFactory
    else (s2.readPbs (s.fld Reg.IMG_FAIL Reg.IMG_FAIL_PB0 != 0xB)).setLoadState 2

/-- LOADER_RESTART: the flash command that a DEV_RESET waited for has ended (R111). -/
def execLoaderRestart (s : State) : Host.Outcome State Fault Refusal :=
  .next (if s.boot.restartWait ∧ s.boot.flCmd.isNone then s.reload else s)

/-- The picture path runs Tack-only, with no network loaded, until the reload's load and admission are done (R110). -/
def State.tackOnlyNow (s : State) : State :=
  let s1 := (s.onPic fun p => { p with admitNow := { p.admitNow with tackOnly := true }, next := none }).onBoot fun b => { b with networks := [] }
  ((s1.setFld Reg.PIC_STATUS Reg.PIC_STATUS_ENHANCED 0).setFld Reg.PIC_STATUS Reg.PIC_STATUS_ADMIT_BUSY 0).reportNets s.pic.admitNow.factor

/-- A device reset (R107, R110, R111, R168, R227, R590, R658): READY is 0, a frame-abort is asked for, every tenant drains, and the loader starts again, once
a flash command in progress has ended. -/
def State.devReset (s : State) : State :=
  let s1 := (s.setFld Reg.HIF_STATUS Reg.HIF_STATUS_READY 0).onTrd fun t => { t with abortWant := t.abortWant ++ [.devReset] }
  let s2 := (s1.startDrains (List.range 256) .devReset).prExit.tackOnlyNow.startKvInit false
  if s.boot.flCmd.isSome then s2.onBoot fun b => { b with restartWait := true } else s2.reload

/-- DEV_RESET: a write to it with the key and GO (R168). -/
def State.landDevReset (s : State) (data : Word) : State :=
  if Reg.DEV_RESET_KEY.get data = 0x5A5A ∧ Reg.DEV_RESET_GO.get data = 1 then s.devReset else s

/-- DEV_RESET. -/
def execDevReset (data : Word) (s : State) : Host.Outcome State Fault Refusal := .next (s.landDevReset data)

end Sys2Proof.Machine
end

