-- ==== Sys2Proof/Machine/Land.lean ====
section
/-! DEFINITION. Register access: what a register reads (R14 to R18, R64, R137), what a write of each register does when it lands (R136),
the tenant window (R129, R130, R182, R188, R229, R387), and the sideband SPI (R151 to R157, R844, R845). -/

namespace Sys2Proof.Machine

/-! Reads. -/

/-- A list of truth values as the bits of a number, the first the lowest. -/
def boolBits : List Bool → Nat
  | [] => 0
  | b :: bs => (if b then 1 else 0) + 2 * boolBits bs

/-- The index of an offset in a run of registers. -/
def runIndex (off first stride count : Nat) : Option Nat :=
  if first ≤ off ∧ (off - first) % stride = 0 ∧ (off - first) / stride < count then some ((off - first) / stride) else none

/-- LOM_PSTATE's code of a service state. -/
def LoomState.code : LoomState → Nat
  | .fusedOff => 0
  | .denied => 1
  | .spare => 2
  | .active => 3
  | .failing => 4
  | .retired => 5

/-- LOM_PSTATE of a physical loom. -/
def Loom.word (l : Loom) : Nat :=
  l.state.code + (if l.inService then l.logical % 32 * 8 else 0) + l.served.getD 0 % 256 * 2 ^ 8 + (if l.raster then 2 ^ 16 else 0)
    + l.l1q % 8 * 2 ^ 17 + l.cause % 16 * 2 ^ 20

/-- Power island `i` is on (R707, R708, R739, Table 12.7). -/
def State.islandOn (s : State) (i : Nat) : Bool :=
  if i < 170 then
    let l := s.loom (i / 5)
    !(l.state == .fusedOff || l.state == .denied || l.state == .retired || l.gated || decide (s.trd.cclk < l.wakeAt))
  else if i = 201 then s.portMode != 0
  else if i = 202 then
    !s.boot.fuses.wall || s.slv.island
  else decide (i < 204)

/-- ChanState's code (Table 7.1). -/
def ChanState.code : ChanState → Nat
  | .idle => 0
  | .run => 1
  | .held => 2
  | .halted => 3
  | .done => 4

/-- A channel context as its 64 bytes (Table 7.1). -/
def Chan.bytes (c : Chan) : List Byte :=
  let st := c.state.code + (if c.raster then 8 else 0) + (if c.chain then 16 else 0) + (if c.darn then 32 else 0) + c.tenant % 256 * 2 ^ 8
    + c.slot.getD 0 % 64 * 2 ^ 16
  let f := match c.fault with
    | some f => (f.va, f.cause % 16 + (if f.write then 16 else 0) + f.kind % 4 * 32)
    | none => (0, 0)
  leBytes 4 st ++ leBytes 4 (c.dir % 4 + (if c.phys then 4 else 0)) ++ leBytes 8 c.src ++ leBytes 8 c.dst ++ leBytes 4 c.rowBytes
    ++ leBytes 4 c.rowStride ++ leBytes 4 c.rows ++ leBytes 4 c.pos ++ leBytes 4 c.bufBase ++ leBytes 4 c.bufLen ++ leBytes 8 f.1
    ++ leBytes 4 f.2 ++ leBytes 4 c.fill

/-- The registers that show other state of the block: their words as numbers; none for a register that holds its own value. -/
def State.viewWord (s : State) (off : Nat) : Option Nat :=
  let count := fun (p : Loom → Bool) => (s.looms.filter p).length
  let usable := fun (p : Nat) => s.boot.fuses.enabled.contains p
  match off / 0x10000 with
  | 0 => if off = Reg.HIF_ID then
      some (0x1640 + s.boot.fuses.step % 16 * 2 ^ 16 + (if s.boot.fuses.wall then 2 ^ 20 else 0)) else none
  | 1 =>
    if off = Reg.IMG_FUSE then
      some (boolBits [s.boot.fuses.sigEnf, !s.boot.fuses.pkh.isEmpty, s.boot.fuses.wall] + s.boot.fuses.step % 16 * 16)
    else if off = Reg.IMG_PKH then some (bytesAt s.boot.fuses.pkh 0 4)
    else if off = Reg.IMG_STRAP then some (s.boot.bootMode.toNat + s.boot.chipId.toNat * 16)
    else none
  | 2 =>
    if off = Reg.TRD_STATUS then some (Reg.TRD_STATUS_CATCHUP.put (s.rd off) (if s.trd.catchq.isEmpty then 0 else 1)).toNat
    else if off = Reg.TRD_NOW_LO then some s.trd.now.low.toNat
    else if off = Reg.TRD_GEOM then some (s.trd.timing.hTotal % 65536 + s.trd.timing.vTotal % 65536 * 65536)
    else none
  | 3 => (runIndex off (Reg.TEN_STATE 0) 16 256).map fun n =>
      boolBits [s.draining n, s.ten.vectors.any fun e => e.2.held && vecFn e.1 == n] + s.tenLooms n * 256
  | 5 =>
    if off = Reg.HED_STATUS then some (4096 - s.scoreboardUsed + s.pool.length * 2 ^ 16 + s.freePool.length * 2 ^ 24)
    else (runIndex off (Reg.HED_PROFILE 0) 4 1024).map fun g =>
      let p := (s.ring g).profile
      boolBits [p.trunc, p.sat, p.ftz] + p.constLen / 64 % 65536 * 65536
  | 6 =>
    if off = Reg.LOM_FUSE_LO then some (boolBits ((List.range 32).map usable))
    else if off = Reg.LOM_FUSE_HI then some (boolBits [usable 32, usable 33])
    else if off = Reg.LOM_SUMMARY then
      some (count (fun l => l.inService && decide (l.logical < 32)) + count (fun l => l.state == .spare) * 2 ^ 8 + count (fun l => l.state == .retired && l.cause != 1) * 2 ^ 16
        + count (fun l => l.raster) * 2 ^ 24)
    else match runIndex off (Reg.LOM_PSTATE 0) 4 34 with
      | some p => some (s.loom p).word
      | none => (runIndex off (Reg.LOM_MAP 0) 4 32).map fun l => match s.physOf l with
        | some p => p + 2 ^ 31
        | none => 0
  | 9 =>
    if off = Reg.SHT_RAS_LEVEL then some (s.bucketLevel .raster % 2 ^ 24)
    else match runIndex off (Reg.SHT_TEN_LEVEL 0) 4 256 with
      | some t => some (s.bucketLevel (.tenant t) % 2 ^ 24)
      | none => (runIndex off (Reg.SHT_CTX 0 0 0) 4 8192).map fun w => bytesAt (s.chan (w / 256) (w / 16 % 16)).bytes (4 * (w % 16)) 4
  | 11 => if off = Reg.PIC_STATUS then some (Reg.PIC_STATUS_FIFO.put (s.rd off) s.pic.fifo.length).toNat else none
  | 14 => if off = Reg.SCN_STATUS then
      some (Reg.SCN_STATUS_BLANK.put (s.rd off) (if s.scn.blank.contains s.trd.now.frame then 1 else 0)).toNat else none
  | 15 => (runIndex off (Reg.PWR_ISL 0) 4 7).map fun w =>
      boolBits ((List.range 32).map fun i => s.islandOn (32 * w + i))
  | 16 => if s.boot.fuses.wall then none else some 0
  | 17 => if off = Reg.RIN_STATUS then
      some (Reg.RIN_STATUS_LEARNED.put (s.rd off) (boolBits ((List.range 16).map fun r => (s.baseline r).isSome))).toNat else none
  | _ => none

/-- What a register read returns, and the state it leaves: a read of TRD_NOW_LO latches TRD_NOW_HI for its master (R64); a reserved or
misaligned offset reads 0 (R16, R18, R827). -/
def State.readReg (s : State) (m : Master) (off : Nat) : Word × State :=
  if off % 4 ≠ 0 ∨ (regRow? off).isNone = true then (0#32, s)
  else if off = Reg.TRD_NOW_LO then s.readNow m
  else if off = Reg.TRD_NOW_HI then
    (BitVec.ofNat 32 (match m with
      | .pcie => s.trd.nowHiPcie
      | .sideband => s.trd.nowHiSb), s)
  else match s.viewWord off with
    | some x => (BitVec.ofNat 32 x, s)
    | none => (s.rd off, s)

/-! The words of a tenant window (Table 3.7). -/

/-- The vectors of a function. -/
def vectorCount (fn : Nat) : Nat := if fn = 0 then 32 else 8

/-- A descriptor of a ring is halted on a fault. -/
def State.ringHalted (s : State) (g : Nat) : Bool := s.ten.descs.any fun d => d.ring == g && d.phase == .halted

/-- Word `g` of a tenant's status page (R188, Table 4.1). -/
def State.statusWord (s : State) (n g : Nat) : Nat :=
  if s.ringTenant g = n ∧ g < 1024 then s.ringHead g + boolBits [s.ringEn g, (s.ring g).err, s.ringHalted g] * 65536 else 0

/-- A word of a vector's MSI-X table entry: the message address, its data, and the mask bit. -/
def Vector.word (x : Vector) : Nat → Nat
  | 0 => x.addr
  | 1 => x.addr / 2 ^ 32
  | 2 => x.data.toNat
  | _ => if x.masked then 1 else 0

/-- A tenant window answers no access: a VF FLR, or a wider reset that has met one, drains its tenant (R229, R230). -/
def State.windowShut (s : State) (n : Nat) : Bool := (s.tenant n).shut

/-- What a read of a word of a tenant's window returns (R129, R188, R224, R229, Tables 3.7 and 7.4). DESIGN CHOICE (log 133): the spec says of
the doorbell page what a write does alone, so a read of it is a free value. -/
def State.readWindow (s : State) (n off : Nat) : Word :=
  if off % 4 ≠ 0 ∨ s.windowShut n = true then 0#32
  else if off < 0x1000 then Config.doorbellWord n off
  else BitVec.ofNat 32 (
    if off < 0x2000 then s.statusWord n ((off - 0x1000) / 4)
    else if off < 0x3000 then match tblFind s.sht.recs (n * 64 + (off - 0x2000) / 64) with
      | some r => bytesAt (r.bytes s.trd.cclk) (off % 64) 4
      | none => 0
    else if off < 0x3000 + 16 * vectorCount n then (s.vector (vecIndex n ((off - 0x3000) / 16))).word (off / 4 % 4)
    else if off = 0x3800 then boolBits ((vectorsOf n).map fun v => (s.vector v).pending)
    else 0)

/-- TRD_NOW_LO_READ: a master reads TRD_NOW_LO (R64), and in the same command any other word that it reaches: the table has no row for the
other reads of PCI Express (DESIGN CHOICE, log 134). A read is performed in the present CCLK, 24 after its request emerged, and PCI Express
completes it 56 CCLK after that, 88 for a counter (R137, R138, R140, R145, R160, R839); the sideband reaches no tenant window (R130). -/
def execTrdNowLoRead (read : RegRead) (s : State) : Host.Outcome State Fault Refusal :=
  let target := read.target
  match read.master, target with
  | .sideband, .bar0 off =>
    let r := (s.takePort false).readReg .sideband off
    .next (r.2.emit 0 (.readDone .sideband target r.1))
  | .sideband, .window _ _ => .next s
  | .pcie, _ =>
    if s.barOpen target then
      let r := match target with
        | .bar0 off => (((s.portFree false).pcieTurn 0).takePort false).readReg .pcie off
        | .window n off => ((s.pcieTurn 0).readWindow n off, s.pcieTurn 0)
      .next (r.2.completeRead (readLatency target - 24) (.readDone .pcie target r.1))
    else .next (s.completeRead 32 .unsupported)

/-! Writes of registers with an effect of their own. -/

/-- PIC_INTAKE: another owner discards the records in the FIFO; a ring that is not the owner's is reported (R413 to R415, R431, R759). -/
def State.landIntake (s : State) (data : Word) : State :=
  let s1 := s.plainWrite Reg.PIC_INTAKE data
  let s2 := if Reg.PIC_INTAKE_OWNER.get data = s.fld Reg.PIC_INTAKE Reg.PIC_INTAKE_OWNER then s1
    else s1.onPic fun p => { p with fifo := [] }
  let s3 := if s2.intakeForeign (Reg.PIC_INTAKE_RING.get data) then s2.setFld Reg.PIC_STATUS Reg.PIC_STATUS_INTAKE_ERR 1 else s2
  s3.checkRoles

/-- IMG_FL_CMD: codes 1 to 4 are commands, others are ignored (Table 2.19). -/
def State.landFlCmd (s : State) (data : Word) : State :=
  let op := Reg.IMG_FL_CMD_OP.get data
  if 1 ≤ op ∧ op ≤ 4 then s.flashCmd op else s

/-- SLV_CFG: ports newly disabled stop and ports newly enabled train (R724, R736); a new MASTER waits for the next frame start (R767). -/
def State.landSlvCfg (s : State) (data : Word) : State :=
  let old := s.rd Reg.SLV_CFG
  let s1 := s.plainWrite Reg.SLV_CFG data
  let flips := (List.range 4).filter fun p => (Reg.SLV_CFG_PORT_EN.get old).testBit p != (Reg.SLV_CFG_PORT_EN.get data).testBit p
  let s2 := flips.foldl (fun t p =>
    let t1 := if t.slvUp p then (t.dropPort p 0).failColls p else t
    t1.startSlv p) s1
  if Reg.SLV_CFG_MASTER.get old = Reg.SLV_CFG_MASTER.get data then s2 else s2.onSlv fun v => { v with masterAt := some s.nextFrame }

/-- SCN_PR_CTL (R654, R658). -/
def State.landPrCtl (s : State) (data : Word) : State :=
  let s1 := s.plainWrite Reg.SCN_PR_CTL data
  let s2 := if Reg.SCN_PR_CTL_ENTER.get data = 1 then s1.prEnter else s1
  if Reg.SCN_PR_CTL_EXIT.get data = 1 then s2.prExit else s2

/-- The table registers of the sequence engine, which a write leaves alone while it runs or initialises (R602). -/
def seqTableReg (off : Nat) : Bool :=
  decide (Reg.SEQ_STAB_LO ≤ off ∧ off ≤ Reg.SEQ_PT_SIZE) || decide (Reg.SEQ_POOL_BASE_LO 0 ≤ off ∧ off < Reg.SEQ_POOL_BASE_LO 4)

/-- A write in the TEN block lands. -/
def State.landTen (s : State) (off : Nat) (data : Word) : State :=
  match runIndex off (Reg.TEN_CTL 0) 16 256 with
  | some n => s.landTenCtl n data
  | none => s.plainWrite off data

/-- A write in the TRD block lands. -/
def State.landTrd (s : State) (off : Nat) (data : Word) : State :=
  if off = Reg.TRD_CTL then s.landTrdCtl data
  else if off = Reg.TRD_FSYNC_CTL then s.landFsyncCtl data
  else if off = Reg.TRD_PICK_STAT then (if Reg.TRD_PICK_STAT_CLR.get data = 1 then s.clearPickStat else s)
  else if off = Reg.TRD_GPIO_OWN then s.landGpioOwn (BitVec.ofNat 16 (Reg.TRD_GPIO_OWN_OWN.get data))
  else match runIndex off (Reg.TRD_SLOT_CTL 0) 16 256 with
    | some n => s.landSlotCtl n data
    | none => s.plainWrite off data

/-- A write in the SHT block lands; one to a bucket's register fills the bucket (R373). -/
def State.landSht (s : State) (off : Nat) (data : Word) : State :=
  if off = Reg.SHT_RESUME then
    s.landRecOp (Reg.SHT_RESUME_TENANT.get data) (Reg.SHT_RESUME_SLOT.get data) (Reg.SHT_RESUME_OP.get data)
  else if off = Reg.SHT_LOOM_BKT ∨ off = Reg.SHT_RAS_BKT ∨ (runIndex off (Reg.SHT_TEN_BKT 0) 4 256).isSome = true then
    (s.plainWrite off data).fillBuckets off
  else s.plainWrite off data

/-- A write in the SEQ block lands. -/
def State.landSeq (s : State) (off : Nat) (data : Word) : State :=
  if off = Reg.SEQ_CFG then s.landSeqCfg data
  else if off = Reg.SEQ_KVTLB_INV then s.landKvtlbInv data
  else if seqTableReg off && (s.kvOn || s.kvInit) then s
  else s.plainWrite off data

/-- A write in the SCN block lands. -/
def State.landScn (s : State) (off : Nat) (data : Word) : State :=
  if off = Reg.SCN_TIM_CTL then
    let s1 := s.plainWrite off data
    if Reg.SCN_TIM_CTL_APPLY.get data = 1 then s1.landApply else s1
  else if off = Reg.SCN_PR_CTL then s.landPrCtl data
  else if off = Reg.SCN_AUX_CTL then
    let s1 := s.plainWrite off data
    if Reg.SCN_AUX_CTL_GO.get data = 1 then s1.auxGo else s1
  else match runIndex off (Reg.SCN_PORT_CTL 0) 256 2 with
    | some p => s.landPortCtl p data
    | none => s.plainWrite off data

/-- A write in the PWR block lands. -/
def State.landPwr (s : State) (off : Nat) (data : Word) : State :=
  if off = Reg.PWR_PMB_CMD then s.landPmbCmd data
  else if off = Reg.PWR_STR_CFG then s.landStrCfg data
  else if off = Reg.PWR_FAULT then (s.plainWrite off data).refreshFrac
  else if off = Reg.PWR_PR_CFG then (s.plainWrite off data).retarget
  else s.plainWrite off data

/-- A write in the SLV block lands; the block takes none on an XS1640-T (R4). -/
def State.landSlv (s : State) (off : Nat) (data : Word) : State :=
  if !s.boot.fuses.wall then s
  else if off = Reg.SLV_CFG then s.landSlvCfg data
  else if (runIndex off (Reg.SLV_COLL_RING 0) 4 16).isSome then (s.plainWrite off data).checkRoles
  else s.plainWrite off data

/-- A register write lands (R136): a reserved or misaligned offset takes none (R16, R18, R128). -/
def State.landWrite (s : State) (off : Nat) (data : Word) : State :=
  if off % 4 ≠ 0 ∨ (regRow? off).isNone = true then s
  else match off / 0x10000 with
    | 0 => if off = Reg.DEV_RESET then s.landDevReset data else if off = Reg.HIF_PTM_CTL then s.landPtmCtl data else s.plainWrite off data
    | 1 => if off = Reg.IMG_FL_CMD then s.landFlCmd data else s.plainWrite off data
    | 2 => s.landTrd off data
    | 3 => s.landTen off data
    | 4 => match runIndex off (Reg.QRG_CFG 0) 32 1024 with
      | some g => s.landRingCfg g data
      | none => s.plainWrite off data
    | 6 => if off = Reg.LOM_DENY_LO ∨ off = Reg.LOM_DENY_HI then (s.plainWrite off data).denySpares else s.plainWrite off data
    | 9 => s.landSht off data
    | 10 => if off = Reg.MMU_INV then s.landMmuInv data else s.plainWrite off data
    | 11 => if off = Reg.PIC_CFG then s.landPicCfg data else if off = Reg.PIC_INTAKE then s.landIntake data else s.plainWrite off data
    | 12 => s.landSeq off data
    | 13 => if off = Reg.CMP_COMMIT then (if Reg.CMP_COMMIT_GO.get data = 1 then s.commitGo else s) else s.plainWrite off data
    | 14 => s.landScn off data
    | 15 => s.landPwr off data
    | 16 => s.landSlv off data
    | _ => s.plainWrite off data

/-! The tenant window (Table 3.7). -/

/-- A word of an MSI-X table entry is written: the message address, its data, and the mask bit (R224). -/
def State.landVector (s : State) (v word : Nat) (data : Word) : State :=
  let x := s.vector v
  match word with
  | 0 => s.setVector v { x with addr := x.addr / 2 ^ 32 * 2 ^ 32 + data.toNat }
  | 1 => s.setVector v { x with addr := x.addr % 2 ^ 32 + data.toNat * 2 ^ 32 }
  | 2 => s.setVector v { x with data := data }
  | _ => if data.toNat.testBit 0 then s.setVector v { x with masked := true } else s.unmask v

/-- A write to a tenant's window lands: doorbells, fault records and the MSI-X table take writes; during a VF FLR none does (R182, R229, R387). -/
def State.landWindow (s : State) (n off : Nat) (data : Word) : State :=
  if off % 4 ≠ 0 then s
  else if off < 0x1000 then s.landDoorbell n (off / 4) data
  else if s.windowShut n then s
  else if 0x2000 ≤ off ∧ off < 0x3000 then
    (if off % 64 = 0 then s.landRecOp n ((off - 0x2000) / 64) (data.toNat % 4) else s)
  else if 0x3000 ≤ off ∧ off < 0x3000 + 16 * vectorCount n then s.landVector (vecIndex n ((off - 0x3000) / 16)) (off / 4 % 4) data
  else s

/-- A write of PF BAR0 lands through the write port (R136, R160, R161). -/
def State.portWrite (s : State) (off : Nat) (data : Word) : State := (s.takePort true).landWrite off data

/-- REGISTER_WRITE: a write lands in the present CCLK, 24 after its request emerged (R136, R160, R161, R163, R839); the sideband reaches no tenant
window (R130), and a PCI Express write that hits no enabled BAR has no effect (R145). -/
def execRegisterWrite (master : Master) (target : RegAddr) (data : Word) (s : State) : Host.Outcome State Fault Refusal :=
  .next (match master, target with
    | .sideband, .bar0 off => s.portWrite off data
    | .sideband, .window _ _ => s
    | .pcie, .bar0 off => if s.barOpen target then ((s.portFree true).pcieTurn 0).portWrite off data else s
    | .pcie, .window n off => if s.barOpen target then (s.pcieTurn 0).landWindow n off data else s)

/-! The sideband SPI. -/

/-- One bit of CRC-8 (R152). -/
def crc8Bit (c : BitVec 8) : BitVec 8 := if c.getLsbD 7 then (c <<< 1) ^^^ 0x07#8 else c <<< 1

/-- CRC-8 of bytes (R152). -/
def crc8 (l : List Byte) : Nat :=
  (l.foldl (fun c b => (List.range 8).foldl (fun x _ => crc8Bit x) (c ^^^ b)) 0#8).toNat

/-- A frame begins: SB_CS_N falls, and SB_MISO is driven (R151, R158). -/
def State.sbBegin (s : State) : State := s.emit 0 (.sbMiso true)

/-- A frame ends with a STATUS (R151, R156, Table 3.12): SB_CS_N rises, and SB_MISO is high-impedance (R158). -/
def State.sbEnd (s0 : State) (cmd status : Nat) : State :=
  let s := s0.emit 0 (.sbMiso false)
  let s1 := if cmd = 2 ∨ cmd = 3 then s.onHif fun h => { h with sbStatus := status } else s
  let s2 := s1.wr Reg.HIF_SB_LAST (BitVec.ofNat 32 (status % 256 + cmd % 256 * 256))
  if status = 0 then s2 else (s2.setFld Reg.HIF_STATUS Reg.HIF_STATUS_SB_ERR 1).bump Reg.HIF_SB_ERR_CNT

/-- The STATUS of a frame with an address, by its CRC and the address (R153, R154, R156, R845). -/
def sbCode (good : Bool) (addr : Nat) : Nat := if !good then 1 else if addr % 4 ≠ 0 then 4 else 0

/-- WRITE: from its 80th rising edge a frame with a correct CRC takes effect; the edge emerges 3 CCLK on, and the write lands 24 CCLK after that
(R136, R153, R156, R845). -/
def execSbWrite (addr : Nat) (data : Word) (crc : Nat) (s : State) : Host.Outcome State Fault Refusal :=
  let st := sbCode (crc8 ([2#8] ++ beBytes 4 addr ++ beBytes 4 data.toNat) == crc) addr
  let s1 := State.elapse 27 s.sbBegin
  .next ((if st = 0 then s1.portWrite addr data else s1).sbEnd 2 st)

/-- The read of a READ frame, with the CCLK it takes (R137, R154, R157). -/
def State.sbPerform (s : State) (addr : Nat) (good : Bool) : Word × State :=
  let s1 := State.elapse 27 s.sbBegin
  if sbCode good addr = 0 then (s1.takePort false).readReg .sideband addr else (0#32, s1)

/-- READ: the register's value, or 0, with STATUS and its CRC (R154, R157, R845). -/
def execSbRead (addr crc : Nat) (s : State) : Host.Outcome State Fault Refusal :=
  let good := crc8 ([3#8] ++ beBytes 4 addr) == crc
  let st := sbCode good addr
  let r := s.sbPerform addr good
  .next ((r.2.emit 0 (.sbAnswer st r.1 (crc8 (beBytes 1 st ++ beBytes 4 r.1.toNat)))).sbEnd 3 st)

/-- STATUS: the status of the last completed WRITE or READ frame (R151). -/
def execSbStatus (s : State) : Host.Outcome State Fault Refusal :=
  .next ((s.sbBegin.emit 0 (.sbStatusByte s.hif.sbStatus)).sbEnd 5 0)

/-- UNKNOWN_COMMAND (R844). -/
def execSbUnknown (cmd : Nat) (s : State) : Host.Outcome State Fault Refusal :=
  .next (if cmd % 256 = 2 ∨ cmd % 256 = 3 ∨ cmd % 256 = 5 then s else s.sbBegin.sbEnd cmd 3)

/-- EARLY_END: STATUS 0x02; a READ whose request CRC was sampled has been performed, with its side effects (R155). DESIGN CHOICE (log 135): a
frame that ends before the eighth bit of its command byte has no command byte, and the CMD it leaves in HIF_SB_LAST is a free value, as R844
states none. -/
def execSbEarlyEnd (cmd : Option Nat) (readDone : Option (Nat × Bool)) (s : State) : Host.Outcome State Fault Refusal :=
  .next (match cmd with
    | none => (s.sbBegin.nextFree.2).sbEnd (256 + Config.sbCmd s.free % 256) 2
    | some c => (match readDone with
      | some (addr, good) => if c % 256 = 3 then (s.sbPerform addr good).2 else s.sbBegin
      | none => s.sbBegin).sbEnd c 2)

end Sys2Proof.Machine
end

