-- ==== Sys2Proof/Machine/Dispatch.lean ====
section
/-! DEFINITION. The one dispatch: every command to its meaning. -/

namespace Sys2Proof.Machine

def exec (i : Instr) (s : State) : Host.Outcome State Fault Refusal :=
  match i with
  | .resetAssert short => Sys2Proof.Machine.execResetAssert short s
  | .resetRelease bootMode chipId bistFailed => Sys2Proof.Machine.execResetRelease bootMode chipId bistFailed s
  | .powerDetect low bootMode chipId bistFailed => Sys2Proof.Machine.execPowerDetect low bootMode chipId bistFailed s
  | .thermalTrip => Sys2Proof.Machine.execThermalTrip s
  | .fuseReadDone => Sys2Proof.Machine.execFuseReadDone s
  | .sramZeroed => Sys2Proof.Machine.execSramZeroed s
  | .flashProbe answer readOk => Sys2Proof.Machine.execFlashProbe answer readOk s
  | .slotVerify readOk => Sys2Proof.Machine.execSlotVerify readOk s
  | .dramTrained wide mixed => Sys2Proof.Machine.execDramTrained wide mixed s
  | .configCommit edid => Sys2Proof.Machine.execConfigCommit edid s
  | .bootTimingSwitch => Sys2Proof.Machine.execBootTimingSwitch s
  | .networkSectionLoaded readOk => Sys2Proof.Machine.execNetworkSectionLoaded readOk s
  | .enhancedSwitch => Sys2Proof.Machine.execEnhancedSwitch s
  | .devReset data => Sys2Proof.Machine.execDevReset data s
  | .loaderRestart => Sys2Proof.Machine.execLoaderRestart s
  | .flashRead => Sys2Proof.Machine.execFlashRead s
  | .flashProgram => Sys2Proof.Machine.execFlashProgram s
  | .flashErase4k => Sys2Proof.Machine.execFlashErase4k s
  | .flashErase64k => Sys2Proof.Machine.execFlashErase64k s
  | .flashCommandDone failed => Sys2Proof.Machine.execFlashCommandDone failed s
  | .pickBoundary => Sys2Proof.Machine.execPickBoundary s
  | .cycSaturation => Sys2Proof.Machine.execCycSaturation s
  | .hsyncInEdge belowPick => Sys2Proof.Machine.execHsyncInEdge belowPick s
  | .vsyncInEdge => Sys2Proof.Machine.execVsyncInEdge s
  | .holdoverEntry => Sys2Proof.Machine.execHoldoverEntry s
  | .referenceChange => Sys2Proof.Machine.execReferenceChange s
  | .frameAbort => Sys2Proof.Machine.execFrameAbort s
  | .catchupFire => Sys2Proof.Machine.execCatchupFire s
  | .gpioEdge pin rising => Sys2Proof.Machine.execGpioEdge pin rising s
  | .slotArm slot data => Sys2Proof.Machine.execSlotArm slot data s
  | .slotDisarm slot data => Sys2Proof.Machine.execSlotDisarm slot data s
  | .fireNone slot => Sys2Proof.Machine.execFireNone slot s
  | .fireFsyncSet slot => Sys2Proof.Machine.execFireFsyncSet slot s
  | .fireFsyncClr slot => Sys2Proof.Machine.execFireFsyncClr slot s
  | .fireFsyncPulse slot => Sys2Proof.Machine.execFireFsyncPulse slot s
  | .fsyncPulseEnd => Sys2Proof.Machine.execFsyncPulseEnd s
  | .fireGpioSet slot => Sys2Proof.Machine.execFireGpioSet slot s
  | .fireGpioClr slot => Sys2Proof.Machine.execFireGpioClr slot s
  | .fireGpioToggle slot => Sys2Proof.Machine.execFireGpioToggle slot s
  | .fireSnapshot slot => Sys2Proof.Machine.execFireSnapshot slot s
  | .fireCapture slot => Sys2Proof.Machine.execFireCapture slot s
  | .firePfMsix slot => Sys2Proof.Machine.execFirePfMsix slot s
  | .trdNowLoRead read => Sys2Proof.Machine.execTrdNowLoRead read s
  | .pickStatClear => Sys2Proof.Machine.execPickStatClear s
  | .gpioOwnChange own => Sys2Proof.Machine.execGpioOwnChange own s
  | .fsyncIdleWrite data => Sys2Proof.Machine.execFsyncIdleWrite data s
  | .registerWrite master target data => Sys2Proof.Machine.execRegisterWrite master target data s
  | .oddSizeAccess write target len => Sys2Proof.Machine.execOddSizeAccess write target len s
  | .counterClear off => Sys2Proof.Machine.execCounterClear off s
  | .configurationRequest fn what => Sys2Proof.Machine.execConfigurationRequest fn what s
  | .unsupportedRequest posted => Sys2Proof.Machine.execUnsupportedRequest posted s
  | .poisonedWrite fn => Sys2Proof.Machine.execPoisonedWrite fn s
  | .bar2Read off len => Sys2Proof.Machine.execBar2Read off len s
  | .bar2Completion => Sys2Proof.Machine.execBar2Completion s
  | .bar2Write off data => Sys2Proof.Machine.execBar2Write off data s
  | .resizableBarWrite size => Sys2Proof.Machine.execResizableBarWrite size s
  | .vfEnableSet => Sys2Proof.Machine.execVfEnableSet s
  | .vfEnableClear => Sys2Proof.Machine.execVfEnableClear s
  | .perstAssert => Sys2Proof.Machine.execPerstAssert s
  | .perstRelease => Sys2Proof.Machine.execPerstRelease s
  | .d3hotEntry => Sys2Proof.Machine.execD3hotEntry s
  | .d0Return => Sys2Proof.Machine.execD0Return s
  | .pfFlr => Sys2Proof.Machine.execPfFlr s
  | .vfFlr vf => Sys2Proof.Machine.execVfFlr vf s
  | .ptmDialogue => Sys2Proof.Machine.execPtmDialogue s
  | .ptmReq => Sys2Proof.Machine.execPtmReq s
  | .ptmResponse masterTime delay => Sys2Proof.Machine.execPtmResponse masterTime delay s
  | .ptmTimeout => Sys2Proof.Machine.execPtmTimeout s
  | .sbWrite addr data crc => Sys2Proof.Machine.execSbWrite addr data crc s
  | .sbRead addr crc => Sys2Proof.Machine.execSbRead addr crc s
  | .sbStatus => Sys2Proof.Machine.execSbStatus s
  | .sbUnknown cmd => Sys2Proof.Machine.execSbUnknown cmd s
  | .sbEarlyEnd cmd readDone => Sys2Proof.Machine.execSbEarlyEnd cmd readDone s
  | .ringEnable ring data => Sys2Proof.Machine.execRingEnable ring data s
  | .ringDisable ring data => Sys2Proof.Machine.execRingDisable ring data s
  | .doorbell tenant ring data => Sys2Proof.Machine.execDoorbell tenant ring data s
  | .descriptorReadIssue ring => Sys2Proof.Machine.execDescriptorReadIssue ring s
  | .descriptorFetch ring ok bytes => Sys2Proof.Machine.execDescriptorFetch ring ok bytes s
  | .dispatch => Sys2Proof.Machine.execDispatch s
  | .deadlineMiss ring seq => Sys2Proof.Machine.execDeadlineMiss ring seq s
  | .executionStart ring seq loom => Sys2Proof.Machine.execExecutionStart ring seq loom s
  | .executionCap ring seq => Sys2Proof.Machine.execExecutionCap ring seq s
  | .descriptorComplete ring seq => Sys2Proof.Machine.execDescriptorComplete ring seq s
  | .completionRecord => Sys2Proof.Machine.execCompletionRecord s
  | .moderationTimerExpiry vec => Sys2Proof.Machine.execModerationTimerExpiry vec s
  | .msixMessage vec => Sys2Proof.Machine.execMsixMessage vec s
  | .msixUnmask vec => Sys2Proof.Machine.execMsixUnmask vec s
  | .heldMessageRelease tenant => Sys2Proof.Machine.execHeldMessageRelease tenant s
  | .tenStop tenant => Sys2Proof.Machine.execTenStop tenant s
  | .tenStart tenant => Sys2Proof.Machine.execTenStart tenant s
  | .drainComplete tenant => Sys2Proof.Machine.execDrainComplete tenant s
  | .matmul ring seq => Sys2Proof.Machine.execMatmul ring seq s
  | .eltwise ring seq => Sys2Proof.Machine.execEltwise ring seq s
  | .activate ring seq => Sys2Proof.Machine.execActivate ring seq s
  | .reduce ring seq => Sys2Proof.Machine.execReduce ring seq s
  | .softmax ring seq => Sys2Proof.Machine.execSoftmax ring seq s
  | .norm ring seq => Sys2Proof.Machine.execNorm ring seq s
  | .convert ring seq => Sys2Proof.Machine.execConvert ring seq s
  | .copy ring seq => Sys2Proof.Machine.execCopy ring seq s
  | .fill ring seq => Sys2Proof.Machine.execFill ring seq s
  | .gather ring seq => Sys2Proof.Machine.execGather ring seq s
  | .scatter ring seq => Sys2Proof.Machine.execScatter ring seq s
  | .nop ring seq => Sys2Proof.Machine.execNop ring seq s
  | .fence ring seq => Sys2Proof.Machine.execFence ring seq s
  | .waitStamp ring seq => Sys2Proof.Machine.execWaitStamp ring seq s
  | .loomCfg ring seq => Sys2Proof.Machine.execLoomCfg ring seq s
  | .loomBist ring seq failed => Sys2Proof.Machine.execLoomBist ring seq failed s
  | .loomFailure phys cause => Sys2Proof.Machine.execLoomFailure phys cause s
  | .reexecution ring seq => Sys2Proof.Machine.execReexecution ring seq s
  | .loomRetire => Sys2Proof.Machine.execLoomRetire s
  | .lomDenyWrite high data => Sys2Proof.Machine.execLomDenyWrite high data s
  | .spoolRequest req tag pa cls err => Sys2Proof.Machine.execSpoolRequest req tag pa cls err s
  | .spoolWrite req tag pa data cls darned => Sys2Proof.Machine.execSpoolWrite req tag pa data cls darned s
  | .spoolFill pa recalled => Sys2Proof.Machine.execSpoolFill pa recalled s
  | .granuleZeroFill granule => Sys2Proof.Machine.execGranuleZeroFill granule s
  | .directoryRead loom tag pa => Sys2Proof.Machine.execDirectoryRead loom tag pa s
  | .directoryReadForWrite loom tag pa => Sys2Proof.Machine.execDirectoryReadForWrite loom tag pa s
  | .directoryUpgrade loom pa => Sys2Proof.Machine.execDirectoryUpgrade loom pa s
  | .directoryEviction loom pa modified => Sys2Proof.Machine.execDirectoryEviction loom pa modified s
  | .snoop loom pa modified => Sys2Proof.Machine.execSnoop loom pa modified s
  | .evictionAck loom pa => Sys2Proof.Machine.execEvictionAck loom pa s
  | .slotGrant chan ecc => Sys2Proof.Machine.execSlotGrant chan ecc s
  | .dramReturn chan ecc => Sys2Proof.Machine.execDramReturn chan ecc s
  | .refreshWindow chan above85 => Sys2Proof.Machine.execRefreshWindow chan above85 s
  | .forcedRefresh chan above85 => Sys2Proof.Machine.execForcedRefresh chan above85 s
  | .scrubStarve chan => Sys2Proof.Machine.execScrubStarve chan s
  | .translation loom chan began => Sys2Proof.Machine.execTranslation loom chan began s
  | .mmuInv data => Sys2Proof.Machine.execMmuInv data s
  | .mmuInvDone => Sys2Proof.Machine.execMmuInvDone s
  | .lineIssue loom => Sys2Proof.Machine.execLineIssue loom s
  | .bucketRefill => Sys2Proof.Machine.execBucketRefill s
  | .channelHalt loom chan => Sys2Proof.Machine.execChannelHalt loom chan s
  | .channelHeld ring seq => Sys2Proof.Machine.execChannelHeld ring seq s
  | .faultRecordWrite loom chan => Sys2Proof.Machine.execFaultRecordWrite loom chan s
  | .resume tenant slot => Sys2Proof.Machine.execResume tenant slot s
  | .abortRecord tenant slot => Sys2Proof.Machine.execAbortRecord tenant slot s
  | .chainForward loom chan => Sys2Proof.Machine.execChainForward loom chan s
  | .farTierRead tenant loom offset len pa ring seq => Sys2Proof.Machine.execFarTierRead tenant loom offset len pa ring seq s
  | .farTierWrite tenant loom offset len pa ring seq => Sys2Proof.Machine.execFarTierWrite tenant loom offset len pa ring seq s
  | .farTierCompletion tag ok data => Sys2Proof.Machine.execFarTierCompletion tag ok data s
  | .frameRecord ring ok bytes => Sys2Proof.Machine.execFrameRecord ring ok bytes s
  | .selection => Sys2Proof.Machine.execSelection s
  | .recordRelease ring seq => Sys2Proof.Machine.execRecordRelease ring seq s
  | .shedLaunch => Sys2Proof.Machine.execShedLaunch s
  | .shedEnd darned => Sys2Proof.Machine.execShedEnd darned s
  | .shedDeadline => Sys2Proof.Machine.execShedDeadline s
  | .tackShedComplete => Sys2Proof.Machine.execTackShedComplete s
  | .boxListBuild => Sys2Proof.Machine.execBoxListBuild s
  | .readmit => Sys2Proof.Machine.execReadmit s
  | .admissionComplete => Sys2Proof.Machine.execAdmissionComplete s
  | .conv ring seq => Sys2Proof.Machine.execConv ring seq s
  | .convT ring seq => Sys2Proof.Machine.execConvT ring seq s
  | .toPlanar ring seq => Sys2Proof.Machine.execToPlanar ring seq s
  | .toPacked ring seq => Sys2Proof.Machine.execToPacked ring seq s
  | .pool ring seq => Sys2Proof.Machine.execPool ring seq s
  | .cropResize ring seq => Sys2Proof.Machine.execCropResize ring seq s
  | .paste ring seq => Sys2Proof.Machine.execPaste ring seq s
  | .boxDecode ring seq => Sys2Proof.Machine.execBoxDecode ring seq s
  | .nms ring seq => Sys2Proof.Machine.execNms ring seq s
  | .attn ring seq => Sys2Proof.Machine.execAttn ring seq s
  | .splitDecodeMerge ring seq => Sys2Proof.Machine.execSplitDecodeMerge ring seq s
  | .attnBwd ring seq => Sys2Proof.Machine.execAttnBwd ring seq s
  | .kvAppend ring seq => Sys2Proof.Machine.execKvAppend ring seq s
  | .kvSeqOpen ring seq => Sys2Proof.Machine.execKvSeqOpen ring seq s
  | .kvSeqClose ring seq => Sys2Proof.Machine.execKvSeqClose ring seq s
  | .kvSeqTruncate ring seq => Sys2Proof.Machine.execKvSeqTruncate ring seq s
  | .kvPfxLookup ring seq => Sys2Proof.Machine.execKvPfxLookup ring seq s
  | .kvPfxInsert ring seq => Sys2Proof.Machine.execKvPfxInsert ring seq s
  | .kvPrefetch ring seq => Sys2Proof.Machine.execKvPrefetch ring seq s
  | .kvWalk handle page => Sys2Proof.Machine.execKvWalk handle page s
  | .spill handle page ok => Sys2Proof.Machine.execSpill handle page ok s
  | .bringBack handle page => Sys2Proof.Machine.execBringBack handle page s
  | .seqEnable data => Sys2Proof.Machine.execSeqEnable data s
  | .seqDisable data => Sys2Proof.Machine.execSeqDisable data s
  | .seqInitDone => Sys2Proof.Machine.execSeqInitDone s
  | .seqKvtlbInv data => Sys2Proof.Machine.execSeqKvtlbInv data s
  | .layerFetch layer => Sys2Proof.Machine.execLayerFetch layer s
  | .lineCompose late => Sys2Proof.Machine.execLineCompose late s
  | .layerOffClear => Sys2Proof.Machine.execLayerOffClear s
  | .lineSend decoded lanes => Sys2Proof.Machine.execLineSend decoded lanes s
  | .cmpCommit => Sys2Proof.Machine.execCmpCommit s
  | .commitCopy => Sys2Proof.Machine.execCommitCopy s
  | .apply => Sys2Proof.Machine.execApply s
  | .timingChange => Sys2Proof.Machine.execTimingChange s
  | .underrunModeChange => Sys2Proof.Machine.execUnderrunModeChange s
  | .hpdRise port => Sys2Proof.Machine.execHpdRise port s
  | .hpdFall port => Sys2Proof.Machine.execHpdFall port s
  | .hpdIrq port lost => Sys2Proof.Machine.execHpdIrq port lost s
  | .retrain port => Sys2Proof.Machine.execRetrain port s
  | .linkTrained port link panelReplay => Sys2Proof.Machine.execLinkTrained port link panelReplay s
  | .auxTransaction => Sys2Proof.Machine.execAuxTransaction s
  | .auxReply reply => Sys2Proof.Machine.execAuxReply reply s
  | .auxTimeout => Sys2Proof.Machine.execAuxTimeout s
  | .enter => Sys2Proof.Machine.execEnter s
  | .prActive => Sys2Proof.Machine.execPrActive s
  | .exit intake => Sys2Proof.Machine.execExit intake s
  | .prExitFrame => Sys2Proof.Machine.execPrExitFrame s
  | .freezeCheck => Sys2Proof.Machine.execFreezeCheck s
  | .steeringTick reports iest vadc accepted => Sys2Proof.Machine.execSteeringTick reports iest vadc accepted s
  | .opChangeDown => Sys2Proof.Machine.execOpChangeDown s
  | .opChangeUp => Sys2Proof.Machine.execOpChangeUp s
  | .pollGroup poll => Sys2Proof.Machine.execPollGroup poll s
  | .pmbusHostTransaction err data => Sys2Proof.Machine.execPmbusHostTransaction err data s
  | .limitTick temps => Sys2Proof.Machine.execLimitTick temps s
  | .pressFire rail => Sys2Proof.Machine.execPressFire rail s
  | .pressRelease injector => Sys2Proof.Machine.execPressRelease injector s
  | .stretcherEngage reading => Sys2Proof.Machine.execStretcherEngage reading s
  | .stretcherDisengage => Sys2Proof.Machine.execStretcherDisengage s
  | .idleGate phys => Sys2Proof.Machine.execIdleGate phys s
  | .wakeComplete failed => Sys2Proof.Machine.execWakeComplete failed s
  | .rinseSlot => Sys2Proof.Machine.execRinseSlot s
  | .calibrationUnit reading reference => Sys2Proof.Machine.execCalibrationUnit reading reference s
  | .flashPatrolUnit => Sys2Proof.Machine.execFlashPatrolUnit s
  | .passStarve flash => Sys2Proof.Machine.execPassStarve flash s
  | .frameSnapshot => Sys2Proof.Machine.execFrameSnapshot s
  | .portTraining port found => Sys2Proof.Machine.execPortTraining port found s
  | .trainingRetry port => Sys2Proof.Machine.execTrainingRetry port s
  | .portUp port => Sys2Proof.Machine.execPortUp port s
  | .portDown port cause => Sys2Proof.Machine.execPortDown port cause s
  | .flitSlot port => Sys2Proof.Machine.execFlitSlot port s
  | .flitReceive port flit darn => Sys2Proof.Machine.execFlitReceive port flit darn s
  | .resendTimeout port => Sys2Proof.Machine.execResendTimeout port s
  | .timeSend => Sys2Proof.Machine.execTimeSend s
  | .timeMessage port count => Sys2Proof.Machine.execTimeMessage port count s
  | .inputStripSend ring seq => Sys2Proof.Machine.execInputStripSend ring seq s
  | .istrip port => Sys2Proof.Machine.execIstrip port s
  | .mapStripSend shed layer west east => Sys2Proof.Machine.execMapStripSend shed layer west east s
  | .mstrip port => Sys2Proof.Machine.execMstrip port s
  | .hello port chip x y wall meshW meshH => Sys2Proof.Machine.execHello port chip x y wall meshW meshH s
  | .echo port => Sys2Proof.Machine.execEcho port s
  | .echoReply port => Sys2Proof.Machine.execEchoReply port s
  | .ping port => Sys2Proof.Machine.execPing port s
  | .pong port => Sys2Proof.Machine.execPong port s
  | .pingTick => Sys2Proof.Machine.execPingTick s
  | .allGather ring seq => Sys2Proof.Machine.execAllGather ring seq s
  | .reduceSum ring seq => Sys2Proof.Machine.execReduceSum ring seq s
  | .ready port group collId op bytes => Sys2Proof.Machine.execReady port group collId op bytes s
  | .readyResend ring seq => Sys2Proof.Machine.execReadyResend ring seq s
  | .collData port => Sys2Proof.Machine.execCollData port s
  | .done port group collId => Sys2Proof.Machine.execDone port group collId s
  | .masterChange => Sys2Proof.Machine.execMasterChange s
  | .hostInterfaceReady => Sys2Proof.Machine.execHostInterfaceReady s
  | .pcieLinkTrained speed width => Sys2Proof.Machine.execPcieLinkTrained speed width s
  | .flowControlCredit tlps => Sys2Proof.Machine.execFlowControlCredit tlps s
  | .jtagTck tms tdi balls => Sys2Proof.Machine.execJtagTck tms tdi balls s

end Sys2Proof.Machine
end

