-- ==== Sys2Proof/Machine/Step.lean ====
section
/-! DEFINITION. One step: the command at the front of the queue acts (DESIGN CHOICE on an empty queue, log entry 2). -/

namespace Sys2Proof.Machine

/-- What a step does with a queue: the front command acts on the state with the queue's rest; on an empty queue one CCLK passes inside the
present pick. -/
def stepOn (s : State) : List Instr → Host.Outcome State Fault Refusal
  | [] => .next s.tick
  | c :: rest => exec c { s with pending := rest }

/-- One step of the block. -/
def step (s : State) : Host.Outcome State Fault Refusal := stepOn s s.pending

/-- The command a word spells, at the front of the queue; the table gives no row any bits, so no word spells one. -/
def State.withFetchWord (s : State) (nbits w : Nat) : State :=
  match decodeTableWord nbits w with
  | some c => { s with pending := c :: s.pending }
  | none => s

end Sys2Proof.Machine
end

