-- ==== Sys2Proof/Safety.lean ====
section
/-! DEFINITION. What claims about the block are stated in: the canonical form of its tables, and the conditions under which
a command acts. -/

namespace Sys2Proof.Machine

/-- Device DRAM is in its canonical form: addresses strictly rising, and no byte listed that an unlisted address reads as. -/
def Memory.wf (m : Mem) : Bool := tblWf (fun _ => 0#8) m.dram

/-- The registers, DRAM and flash are in canonical form. -/
def State.wf (s : State) : Bool := tblWf regDef s.regs && Memory.wf s.mem && tblWf (fun _ => 0xFF#8) s.boot.flash

/-- Slot `n`'s match `d` is due in the present CCLK, and no other slot has fired in it. -/
def State.firesNow (s : State) (n : Nat) (d : Due) : Prop :=
  d ∈ s.trd.due ∧ d.slot = n ∧ d.cclk ≤ s.trd.cclk ∧ (∀ e ∈ s.trd.due, e.slot = n → e = d) ∧ s.trd.firedCclk ≠ s.trd.cclk

/-- The GPIO pins a mask drives: those the Treadle owns (R55). -/
def State.ownedPins (s : State) (arg : Nat) : BitVec 16 :=
  BitVec.ofNat 16 arg &&& BitVec.ofNat 16 (s.fld Reg.TRD_GPIO_OWN Reg.TRD_GPIO_OWN_OWN)

/-- A register pair holds a stamp (Tables 1.13 and 1.15). -/
def State.holdsStamp (s : State) (lo hi : Nat) (a : Stamp) : Prop := s.rd lo = a.low ∧ s.fld hi ⟨0, 16⟩ = a.frame % 65536

/-- From `s` to `t` descriptor `d` has completed with a status and DETAIL: its record of Table 4.4 is on its way, issued 40 CCLK on; it is
gone from the scoreboard, its looms are released; and nothing but the parts named has changed (R193, R199 to R203, R218, R270). -/
def State.completes (s t : State) (d : Desc) (status detail : Nat) : Prop :=
  (∃ r, t.ten.recs = s.ten.recs ++ [r] ∧ r.ring = d.ring ∧ r.seq = d.seq ∧ r.tenant = d.tenant ∧ r.issueAt = s.trd.cclk + 40 ∧
    r.addr = s.addr64 (Reg.QRG_CQ_LO d.ring) (Reg.QRG_CQ_HI d.ring) + 32 * (d.seq % s.ringSize d.ring) ∧
    r.write = !(status == 0 && d.noRec) ∧ r.event = (d.irq || decide (0x10 ≤ status)) ∧
    r.data.length = 32 ∧ bytesAt r.data 0 4 = d.tag % 2 ^ 32 ∧ bytesAt r.data 4 4 = d.seq % 2 ^ 32 ∧ bytesAt r.data 8 1 = status % 256 ∧
    bytesAt r.data 9 1 = detail % 256 ∧
    bytesAt r.data 0x0A 1 = (if d.seq / s.ringSize d.ring % 2 = 0 then 1 else 0) + (if d.late then 2 else 0) +
      (if d.cleared then 4 else 0) ∧
    bytesAt r.data 0x0B 1 = d.used % 256 ∧ bytesAt r.data 0x0C 2 = d.ring % 65536 ∧
    (d.used ≠ 0 → d.isControl = false → bytesAt r.data 0x10 6 = d.start.bits % 2 ^ 48) ∧
    bytesAt r.data 0x18 6 = s.trd.now.bits % 2 ^ 48) ∧
  (∀ e ∈ t.ten.descs, ¬(e.ring = d.ring ∧ e.seq = d.seq)) ∧ (∀ l ∈ t.looms, l.work ≠ some (d.ring, d.seq)) ∧
  t = { s with ten := t.ten, regs := t.regs, looms := t.looms, sht := t.sht, slv := t.slv, free := t.free }

/-- From `s` to `t` a frame record has completed with a status, DETAIL and START: its record of Table 4.4 is on its way, issued 40 CCLK on
(R199 to R202, R422). -/
def State.framePosted (s t : State) (f : FrameRec) (status detail start : Nat) : Prop :=
  ∃ r, t.ten.recs = s.ten.recs ++ [r] ∧ r.ring = f.ring ∧ r.seq = f.seq ∧ r.issueAt = s.trd.cclk + 40 ∧
    r.write = !(status == 0 && f.flag 7) ∧ r.event = (f.flag 3 || decide (0x10 ≤ status)) ∧ r.data.length = 32 ∧
    bytesAt r.data 0 4 = f.num 4 4 ∧ bytesAt r.data 4 4 = f.seq % 2 ^ 32 ∧ bytesAt r.data 8 1 = status % 256 ∧
    bytesAt r.data 9 1 = detail % 256 ∧ bytesAt r.data 0x0B 1 = min 255 f.uses ∧ bytesAt r.data 0x0C 2 = f.ring % 65536 ∧
    bytesAt r.data 0x10 6 = start % 2 ^ 48 ∧ bytesAt r.data 0x18 6 = s.trd.now.bits % 2 ^ 48

/-- A shed of a frame and number. -/
def State.shed? (s : State) (frame i : Nat) : Option Shed := s.pic.sheds.find? fun x => x.isAt frame i

/-- An operator can run: its operand block, inputs and outputs translate, its inbound channels have been given their lines, and no input is
delivered darned (R241, R371, R384, R400). -/
def State.operandsReady (s : State) (d : Desc) (argBytes : Nat) (inputs : List (Nat × Nat × Nat)) (outs : List OutRun) : Prop :=
  s.firstFault d.loom0 d.tenant false [(0, d.argPtr, argBytes)] = none ∧ s.firstFault d.loom0 d.tenant false inputs = none ∧
  s.firstFault d.loom0 d.tenant true (outs.map fun r => (15, r.va, r.data.length)) = none ∧ s.fed d = true ∧
  ∀ x ∈ inputs, s.vaPoison d.loom0 d.tenant x.2.1 x.2.2 = false

/-- From `s` to `t` an operator has written its output runs, each of its looms finishes the `cycles` of its rank after the CCLK in which it began
(R268), and nothing but memory, registers and the descriptor has changed. -/
def State.operatorRuns (s t : State) (d : Desc) (outs : List OutRun) (cycles : Nat → Nat) : Prop :=
  t.mem = (s.writeRuns d d.loom0 outs).mem ∧
  (∃ e, t.desc? d.ring d.seq = some e ∧ e.bytes = d.bytes ∧ e.phase = d.phase ∧ e.darned = d.darned ∧
    e.work = d.work.map fun w => { w with ended := true, endsAt := max s.trd.cclk (w.began + cycles w.rank) }) ∧
  t = { s with mem := t.mem, regs := t.regs, ten := t.ten, free := t.free }

/-- A sequence operator can do its work (R241, R371, R384, R400, R587, R590): where it uses the walker the engine is enabled and not initialising, and its
operand block, inputs and outputs translate, with its inbound channels given their lines and no input darned. -/
def State.kvReady (s : State) (d : Desc) (walker : Bool) (argBytes : Nat) (inputs outputs : List (Nat × Nat × Nat)) : Prop :=
  (walker = true → s.kvOn = true ∧ s.kvInit = false) ∧ s.firstFault d.loom0 d.tenant false [(0, d.argPtr, argBytes)] = none ∧
  s.firstFault d.loom0 d.tenant false inputs = none ∧ s.firstFault d.loom0 d.tenant true outputs = none ∧
  s.fed d = true ∧ ∀ x ∈ inputs, s.vaPoison d.loom0 d.tenant x.2.1 x.2.2 = false

/-- From `s` to `t` a record with a status and DETAIL has joined the others for a descriptor that is gone from the scoreboard (R199). -/
def State.ends (s t : State) (ring seq status detail : Nat) : Prop :=
  t.desc? ring seq = none ∧ ∃ r, t.ten.recs = s.ten.recs ++ [r] ∧ r.ring = ring ∧ r.seq = seq ∧ bytesAt r.data 8 1 = status ∧
    bytesAt r.data 9 1 = detail

/-- A statistics counter one higher, where it can count (R139). -/
def counted (v : Word) : Word := if v = 0xFFFFFFFF#32 then v else v + 1#32

end Sys2Proof.Machine
end

