-- ==== Sys2Proof/Certificates/Slice0/Obligations.lean ====
section
/-! DEFINITION. The statements for the provers: what the commands and the machine do, after the rules of the spec. -/

open Sys2Proof Sys2Proof.Machine

/-! Chapter 1: the Treadle. -/

/-- A pick boundary moves the stamp to the first CCLK of the next pick, line or frame (R26, R27, R30), when no REALIGN abort or
Selvage alignment is due and no trip or TEST strap has stopped the raster (R73, R705). Row PICK_BOUNDARY. -/
def Obligations.PickBoundaryMovesTheStamp : Prop :=
  ∀ s : State, s.rasterRuns = true → s.trd.realign ≠ some 1 → s.slv.frameTo = none →
    ∃ t, exec .pickBoundary s = .next t ∧ t.trd.cclk = s.trd.cclk + 1 ∧ t.trd.restart = false ∧
      t.trd.now =
        (if s.trd.now.pick < 63 then ⟨s.trd.now.frame, s.trd.now.line, s.trd.now.pick + 1, 0⟩
         else if s.trd.now.line + 1 < s.frameLines then ⟨s.trd.now.frame, s.trd.now.line + 1, 0, 0⟩
         else ⟨(s.trd.now.frame + 1) % 65536, 0, 0, 0⟩) ∧
      t.boot = s.boot ∧ t.hif = s.hif ∧ t.kv = s.kv ∧ t.jtag = s.jtag ∧ t.free = s.free ∧ t.pending = s.pending ∧
      t.mem.dram = s.mem.dram

/-- CYC is 0 in the first CCLK of a pick, counts each later one and saturates at 4,095, which sets CYC_SAT (R30, R31).
Rows PICK_BOUNDARY and CYC_SATURATION. -/
def Obligations.CycCountsAndSaturates : Prop :=
  ∀ s : State, s.rasterRuns = true →
    (s.pending = [] → ∃ t, step s = .next t ∧
      t.trd.now = { s.trd.now with cyc := min 4095 (s.trd.now.cyc + 1) } ∧
      (s.trd.now.cyc = 4094 → t.fld Reg.TRD_STATUS Reg.TRD_STATUS_CYC_SAT = 1)) ∧
    (s.trd.now.cyc < 4095 → ∃ t, exec .cycSaturation s = .next t ∧
      t.trd.now = { s.trd.now with cyc := 4095 } ∧ t.trd.cclk = s.trd.cclk + (4095 - s.trd.now.cyc) ∧
      t.fld Reg.TRD_STATUS Reg.TRD_STATUS_CYC_SAT = 1 ∧ t.mem = s.mem ∧ t.hif = s.hif ∧ t.boot = s.boot) ∧
    (s.trd.realign ≠ some 1 → ∃ t, exec .pickBoundary s = .next t ∧ t.trd.now.cyc = 0)

/-- A frame-abort, in the CCLK in which it takes effect, restarts the raster at the first stamp of the next frame in the next CCLK (R57); the frame's
sheds are discarded (R62). Row FRAME_ABORT. -/
def Obligations.FrameAbortRestartsTheFrame : Prop :=
  ∀ s : State, s.rasterRuns = true → s.trd.abortWant ≠ [] → s.trd.abortAt ≤ s.trd.cclk → s.slv.frameTo = none →
    ∃ t, exec .frameAbort s = .next t ∧ t.trd.now = ⟨(s.trd.now.frame + 1) % 65536, 0, 0, 0⟩ ∧
      t.trd.cclk = s.trd.cclk + 1 ∧ t.trd.restart = true ∧ t.trd.lineFix = .none ∧ t.trd.abortWant = [] ∧
      t.pic.sheds = [] ∧ t.hif = s.hif ∧ t.boot = s.boot ∧ t.mem.dram = s.mem.dram

/-- A SLOT_CTL write with ARM 1 in ONCE or EVERY_N mode arms the slot with the loaded target, or is refused as late (R45, R47); one
with ARM 0 stops the slot (R49). Rows SLOT_ARM and SLOT_DISARM. -/
def Obligations.SlotCtlArmsAndStops : Prop :=
  ∀ (s : State) (n : Fin 256) (v : Word),
    (Reg.TRD_SLOT_CTL_MODE.get v = 0 ∨ Reg.TRD_SLOT_CTL_MODE.get v = 3 →
      ∃ t, exec (.slotArm n v) s = .next t ∧
        let target := Stamp.ofBits ((s.rd (Reg.TRD_SLOT_STAMP_LO n)).toNat +
          2 ^ 32 * s.fld (Reg.TRD_SLOT_STAMP_HI n) Reg.TRD_SLOT_STAMP_HI_FRAME)
        (if target.after s.trd.now = true then
          (∃ c, t.comp? n = some c ∧ c.target = target ∧ c.matched = false ∧ c.action = Reg.TRD_SLOT_CTL_ACTION.get v ∧
            c.arg = (s.rd (Reg.TRD_SLOT_ARG n)).toNat) ∧
          t.fld (Reg.TRD_SLOT_CTL n) Reg.TRD_SLOT_CTL_ARM = 1 ∧ t.fld (Reg.TRD_SLOT_CTL n) Reg.TRD_SLOT_CTL_LATE = 0
        else t.comp? n = none ∧ t.fld (Reg.TRD_SLOT_CTL n) Reg.TRD_SLOT_CTL_ARM = 0 ∧
          t.fld (Reg.TRD_SLOT_CTL n) Reg.TRD_SLOT_CTL_LATE = 1 ∧ t.rd Reg.TRD_LATE_CNT = counted (s.rd Reg.TRD_LATE_CNT) ∧
          t.fld Reg.TRD_STATUS Reg.TRD_STATUS_SLOT_LATE = 1) ∧
        t = { s with trd := t.trd, regs := t.regs } ∧ (∀ m, m ≠ n.val → t.comp? m = s.comp? m) ∧
        ∀ o, o ≠ Reg.TRD_SLOT_CTL n → o ≠ Reg.TRD_LATE_CNT → o ≠ Reg.TRD_STATUS → t.rd o = s.rd o) ∧
    ∃ t, exec (.slotDisarm n v) s = .next t ∧ t.comp? n = none ∧ t.fld (Reg.TRD_SLOT_CTL n) Reg.TRD_SLOT_CTL_ARM = 0 ∧
      t.trd.due = s.trd.due ∧ t = { s with trd := t.trd, regs := t.regs } ∧ (∀ m, m ≠ n.val → t.comp? m = s.comp? m) ∧
      ∀ o, o ≠ Reg.TRD_SLOT_CTL n → t.rd o = s.rd o

/-- The firing of a slot alone in its CCLK: each FSYNC and GPIO action of Table 1.4 has its effect, sets FIRED, and changes nothing but
the Treadle and the slot's SLOT_CTL (R53, R55); FSYNC_OUT is driven from the first commit on (R837).
Rows NONE, FSYNC_SET, FSYNC_CLR, FSYNC_PULSE, GPIO_SET, GPIO_CLR and GPIO_TOGGLE. -/
def Obligations.SlotActionsDriveOutputs : Prop :=
  ∀ (s : State) (n : Fin 256) (d : Due), s.firesNow n d →
    let done := fun (t : State) => t.fld (Reg.TRD_SLOT_CTL n) Reg.TRD_SLOT_CTL_FIRED = 1 ∧
      t = { s with trd := t.trd, regs := t.regs } ∧ (∀ o, o ≠ Reg.TRD_SLOT_CTL n → t.rd o = s.rd o)
    let m := s.ownedPins d.comp.arg
    (d.comp.action ∉ [1, 2, 3, 4, 5, 6, 8, 9, 16] → ∃ t, exec (.fireNone n) s = .next t ∧ done t ∧ t.trd.fsync = s.trd.fsync ∧
      t.trd.gpioLevel = s.trd.gpioLevel) ∧
    (s.trd.fsyncFree = true →
      (d.comp.action = 1 → ∃ t, exec (.fireFsyncSet n) s = .next t ∧ done t ∧ t.trd.fsync = true ∧ t.trd.pulseEnd = none) ∧
      (d.comp.action = 2 → ∃ t, exec (.fireFsyncClr n) s = .next t ∧ done t ∧ t.trd.fsync = false ∧ t.trd.pulseEnd = none) ∧
      (d.comp.action = 3 → ∃ t, exec (.fireFsyncPulse n) s = .next t ∧ done t ∧ t.trd.fsync = true ∧
        t.trd.pulseEnd = some (s.trd.cclk + max 1 (s.fld Reg.TRD_FSYNC_CTL Reg.TRD_FSYNC_CTL_PULSE_W)))) ∧
    (d.comp.action = 4 → ∃ t, exec (.fireGpioSet n) s = .next t ∧ done t ∧ t.trd.gpioLevel = s.trd.gpioLevel ||| m) ∧
    (d.comp.action = 5 → ∃ t, exec (.fireGpioClr n) s = .next t ∧ done t ∧ t.trd.gpioLevel = s.trd.gpioLevel &&& ~~~m) ∧
    (d.comp.action = 6 → ∃ t, exec (.fireGpioToggle n) s = .next t ∧ done t ∧ t.trd.gpioLevel = s.trd.gpioLevel ^^^ m)

/-- The firing of a slot alone in its CCLK, for the actions that record: SNAPSHOT copies the twelve registers of Table 12.12 and the stamp, and counts
(R719); CAPTURE writes the stamp and the slot (R53); PF_MSIX counts an event of the PF's vector, due 64 CCLK on where COUNT is reached (R53, R221); each
sets FIRED. A pulse that expires leaves FSYNC_OUT idle (R54). Rows SNAPSHOT, CAPTURE, PF_MSIX and FSYNC_PULSE_END. -/
def Obligations.SlotActionsRecord : Prop :=
  ∀ s : State,
    (∀ (n : Fin 256) (d : Due), s.firesNow n d →
      let copied := [Reg.PWR_STATUS, Reg.PWR_SETPT, Reg.PWR_TJ, Reg.PWR_CUR, Reg.PWR_PKG, Reg.PWR_FAULT, Reg.PWR_PRESS_TOT_CNT,
        Reg.PWR_STR_CNT, Reg.PWR_STR_CCLK_CNT, Reg.PWR_STEP_CNT, Reg.DMC_FORCED_REF_CNT, Reg.DMC_SCRUB_STARVE_CNT]
      let fired := fun (t : State) => t.fld (Reg.TRD_SLOT_CTL n) Reg.TRD_SLOT_CTL_FIRED = 1 ∧ t.trd.fsync = s.trd.fsync ∧
        t.trd.gpioLevel = s.trd.gpioLevel
      let v := d.comp.arg % 32
      (d.comp.action = 8 → ∃ t, exec (.fireSnapshot n) s = .next t ∧ fired t ∧
        (∀ k : Fin 12, t.rd (Reg.RIN_SNAP k) = s.rd (copied.getD k 0)) ∧
        t.holdsStamp Reg.RIN_SNAP_STAMP_LO Reg.RIN_SNAP_STAMP_HI s.trd.now ∧ t.rd Reg.RIN_SNAP_CNT = counted (s.rd Reg.RIN_SNAP_CNT) ∧
        t = { s with trd := t.trd, regs := t.regs } ∧
        ∀ o, o ≠ Reg.TRD_SLOT_CTL n → (∀ k < 12, o ≠ Reg.RIN_SNAP k) → o ≠ Reg.RIN_SNAP_STAMP_LO → o ≠ Reg.RIN_SNAP_STAMP_HI →
          o ≠ Reg.RIN_SNAP_CNT → t.rd o = s.rd o) ∧
      (d.comp.action = 9 → ∃ t, exec (.fireCapture n) s = .next t ∧ fired t ∧
        t.holdsStamp Reg.TRD_FIRE_CAP_LO Reg.TRD_FIRE_CAP_HI s.trd.now ∧
        t.fld Reg.TRD_FIRE_CAP_SLOT Reg.TRD_FIRE_CAP_SLOT_SLOT = n ∧ t = { s with trd := t.trd, regs := t.regs } ∧
        ∀ o, o ≠ Reg.TRD_SLOT_CTL n → o ≠ Reg.TRD_FIRE_CAP_LO → o ≠ Reg.TRD_FIRE_CAP_HI → o ≠ Reg.TRD_FIRE_CAP_SLOT → t.rd o = s.rd o) ∧
      (d.comp.action = 16 → ∃ t, exec (.firePfMsix n) s = .next t ∧ fired t ∧
        (t.vector v).count = (s.vector v).count + 1 ∧ (t.vector v).last = s.trd.cclk ∧
        ((s.vector v).due = none → (t.vector v).due = if s.modCount v ≤ (s.vector v).count + 1 then some (s.trd.cclk + 64) else none) ∧
        (∀ w, w ≠ v → t.vector w = s.vector w) ∧
        t = { s with trd := t.trd, regs := t.regs, ten := { s.ten with vectors := t.ten.vectors } } ∧
        ∀ o, o ≠ Reg.TRD_SLOT_CTL n → t.rd o = s.rd o)) ∧
    (s.trd.pulseEnd = none → exec .fsyncPulseEnd s = .next s) ∧
    ∀ e, s.trd.pulseEnd = some e → e ≤ s.trd.cclk → ∃ t, exec .fsyncPulseEnd s = .next t ∧
      t = { s with trd := { s.trd with fsync := false, pulseEnd := none } }

/-- The head of the catch-up queue fires, whatever its action, and leaves the queue; the next may fire in the CCLK after, and the firing is
counted (R59). Row CATCHUP_FIRE. -/
def Obligations.CatchupFiresTheHead : Prop :=
  ∀ (s : State) (d : Due) (ds : List Due), s.trd.catchq = d :: ds → s.trd.catchNext ≤ s.trd.cclk → d.slot < 256 →
    ∃ t, exec .catchupFire s = .next t ∧ t.trd.catchq = ds ∧ t.trd.catchNext = s.trd.cclk + 1 ∧
      t.fld (Reg.TRD_SLOT_CTL d.slot) Reg.TRD_SLOT_CTL_FIRED = 1 ∧ t.rd Reg.TRD_CATCHUP_CNT = counted (s.rd Reg.TRD_CATCHUP_CNT) ∧
      t = { s with trd := t.trd, regs := t.regs, ten := { s.ten with vectors := t.ten.vectors } }

/-- Leading edges of the house sync inputs and edges of the selected GPIO pin are captured with the stamp (R41); under house sync the sixteenth line in a
row below one pick and a vertical edge on TRD_VS_LINE give LOCKED (R22), the sixteenth bad line in a row gives ACQUIRE, and so does a wrong vertical edge in a
second frame in a row (R832). Each house sync command is the next transition of its pin, and the other transition only moves the pin (log 128). Rows
HSYNC_IN_EDGE, VSYNC_IN_EDGE and GPIO_EDGE. -/
def Obligations.EdgesAreCapturedAndLock : Prop :=
  ∀ s : State,
    (∀ b, s.leadingEdge Reg.TRD_CTL_HS_POL (!s.boot.hsyncIn) = false →
      exec (.hsyncInEdge b) s = .next { s with boot := { s.boot with hsyncIn := !s.boot.hsyncIn } }) ∧
    (∀ b, s.leadingEdge Reg.TRD_CTL_HS_POL (!s.boot.hsyncIn) = true → ∃ t, exec (.hsyncInEdge b) s = .next t ∧
      t.holdsStamp Reg.TRD_HS_CAP_LO Reg.TRD_HS_CAP_HI s.trd.now ∧
      (s.trd.refUse ≠ 1 → t.trd = s.trd ∧ t.lock = s.lock) ∧
      (s.trd.refUse = 1 → s.trd.hsAge = 1 →
        (b = true → s.lock ≠ 2 → 15 ≤ s.trd.hsGood → s.trd.vsOk = true → t.lock = 2) ∧
        (b = false → s.lock = 2 → 15 ≤ s.trd.hsBad → t.lock = 1) ∧
        (b = true → t.trd.hsGood = s.trd.hsGood + 1) ∧ (b = false → t.trd.hsGood = 0)) ∧
      t = { s with trd := t.trd, regs := t.regs, boot := { s.boot with hsyncIn := !s.boot.hsyncIn } } ∧
      ∀ o, o ≠ Reg.TRD_HS_CAP_LO → o ≠ Reg.TRD_HS_CAP_HI → o ≠ Reg.TRD_STATUS → t.rd o = s.rd o) ∧
    (s.leadingEdge Reg.TRD_CTL_VS_POL (!s.boot.vsyncIn) = false →
      exec .vsyncInEdge s = .next { s with boot := { s.boot with vsyncIn := !s.boot.vsyncIn } }) ∧
    (s.leadingEdge Reg.TRD_CTL_VS_POL (!s.boot.vsyncIn) = true → ∃ t, exec .vsyncInEdge s = .next t ∧
      t.holdsStamp Reg.TRD_VS_CAP_LO Reg.TRD_VS_CAP_HI s.trd.now ∧
      (s.trd.refUse = 1 → s.trd.now.line = s.fld Reg.TRD_VS_LINE Reg.TRD_VS_LINE_LINE → 16 ≤ s.trd.hsGood → t.lock = 2) ∧
      (s.trd.refUse = 1 → s.trd.now.line ≠ s.fld Reg.TRD_VS_LINE Reg.TRD_VS_LINE_LINE → s.lock = 2 → s.trd.vsAge = 1 → 1 ≤ s.trd.vsBad → t.lock = 1) ∧
      t = { s with trd := t.trd, regs := t.regs, boot := { s.boot with vsyncIn := !s.boot.vsyncIn } } ∧
      ∀ o, o ≠ Reg.TRD_VS_CAP_LO → o ≠ Reg.TRD_VS_CAP_HI → o ≠ Reg.TRD_STATUS → t.rd o = s.rd o) ∧
    ∀ (p : Fin 16) (r : Bool),
      let sel := s.fld Reg.TRD_GPIO_CAP_SEL Reg.TRD_GPIO_CAP_SEL_PIN = p ∧
        (s.fld Reg.TRD_GPIO_CAP_SEL Reg.TRD_GPIO_CAP_SEL_EDGE).testBit (if r then 0 else 1) = true
      (¬sel → exec (.gpioEdge p r) s = .next s) ∧
      (sel → ∃ t, exec (.gpioEdge p r) s = .next t ∧ t.holdsStamp Reg.TRD_GPIO_CAP_LO Reg.TRD_GPIO_CAP_HI s.trd.now ∧
        t = { s with regs := t.regs } ∧ ∀ o, o ≠ Reg.TRD_GPIO_CAP_LO → o ≠ Reg.TRD_GPIO_CAP_HI → t.rd o = s.rd o)

/-- On entry to HOLDOVER from house sync, or for want of a parent under the Selvage time master (R748), the Treadle sets REF_LOST and counts (R24); a changed REF_SEL comes into use at its frame start,
and acquisition begins (R21, R833). Rows HOLDOVER_ENTRY and REFERENCE_CHANGE. -/
def Obligations.ReferencesAreLostAndTaken : Prop :=
  ∀ s : State,
    (s.trd.refUse = 1 → s.lock = 1 ∨ s.lock = 2 → ∃ t, exec .holdoverEntry s = .next t ∧ t.lock = 3 ∧
      t.fld Reg.TRD_STATUS Reg.TRD_STATUS_REF_LOST = 1 ∧ t.rd Reg.TRD_REF_LOSS_CNT = counted (s.rd Reg.TRD_REF_LOSS_CNT) ∧
      t = { s with trd := t.trd, regs := t.regs } ∧ ∀ o, o ≠ Reg.TRD_STATUS → o ≠ Reg.TRD_REF_LOSS_CNT → t.rd o = s.rd o) ∧
    (s.trd.refUse = 2 → s.lock = 1 ∨ s.lock = 2 → s.timePorts = [] → 64 ≤ s.slv.waited → ∃ t, exec .holdoverEntry s = .next t ∧ t.lock = 3 ∧
      t.fld Reg.TRD_STATUS Reg.TRD_STATUS_REF_LOST = 1 ∧ t.rd Reg.TRD_REF_LOSS_CNT = counted (s.rd Reg.TRD_REF_LOSS_CNT) ∧
      (s.follower = true → t.fld Reg.SLV_STATUS Reg.SLV_STATUS_MASTER_LOST = 1 ∧ t.fld Reg.SLV_TIME Reg.SLV_TIME_PARENT = 7) ∧
      t = { s with trd := t.trd, regs := t.regs, slv := t.slv }) ∧
    (s.trd.refPend = some s.trd.now.frame → s.fld Reg.TRD_CTL Reg.TRD_CTL_REF_SEL = 1 → s.trd.refUse ≠ 1 →
      ∃ t, exec .referenceChange s = .next t ∧ t.trd.refUse = 1 ∧ t.lock = 1 ∧ t.trd.hsGood = 0 ∧ t.trd.vsOk = false ∧ t.trd.refPend = none) ∧
    (s.trd.refPend = some s.trd.now.frame → s.fld Reg.TRD_CTL Reg.TRD_CTL_REF_SEL = 1 → s.trd.refUse = 1 →
      ∃ t, exec .referenceChange s = .next t ∧ t = { s with trd := { s.trd with refPend := none } }) ∧
    (s.trd.refPend = some s.trd.now.frame → s.fld Reg.TRD_CTL Reg.TRD_CTL_REF_SEL = 0 → s.trd.refUse ≠ 0 →
      ∃ t, exec .referenceChange s = .next t ∧ t.trd.refUse = 0 ∧ t.lock = 0)

/-- A read of TRD_NOW_LO returns the lower half of the stamp and latches FRAME for that master alone (R64); over PCI Express its completion begins 56
CCLK after emergence, 32 after it is performed, and not before the one before it (R138, R140), and one that no enabled BAR takes is refused (R145).
TRD_PICK_STAT.CLR, TRD_GPIO_OWN (R56) and TRD_FSYNC_CTL, from the CCLK after its write (R837), act as written.
Rows TRD_NOW_LO_READ, PICK_STAT_CLEAR, GPIO_OWN_CHANGE and FSYNC_IDLE_WRITE. -/
def Obligations.TreadleRegistersAct : Prop :=
  ∀ s : State,
    (s.hif.rdAt ≠ some s.trd.cclk →
      (∃ t, exec (.trdNowLoRead ⟨.sideband, .bar0 Reg.TRD_NOW_LO⟩) s = .next t ∧
        t.out = s.out ++ [⟨s.trd.cclk, .readDone .sideband (.bar0 Reg.TRD_NOW_LO) s.trd.now.low⟩] ∧
        t.trd = { s.trd with nowHiSb := s.trd.now.frame } ∧ t = { s with trd := t.trd, out := t.out, hif := t.hif }) ∧
      (s.barOpen (.bar0 Reg.TRD_NOW_LO) = true → (∀ y ∈ s.hif.pcieAt, y + 2 ≤ s.trd.cclk) → s.linkUp = true → 0 < s.hif.credit →
        ∃ t, exec (.trdNowLoRead ⟨.pcie, .bar0 Reg.TRD_NOW_LO⟩) s = .next t ∧
          t.out = s.out ++ [⟨max (s.trd.cclk + 32) (s.hif.lastRead + 1), .readDone .pcie (.bar0 Reg.TRD_NOW_LO) s.trd.now.low⟩] ∧
          t.trd = { s.trd with nowHiPcie := s.trd.now.frame } ∧ t = { s with trd := t.trd, out := t.out, hif := t.hif })) ∧
    (s.barOpen (.bar0 Reg.TRD_NOW_LO) = false → s.hif.perstIn = false → s.linkUp = true → 0 < s.hif.credit →
      ∃ t, exec (.trdNowLoRead ⟨.pcie, .bar0 Reg.TRD_NOW_LO⟩) s = .next t ∧
        t.out = s.out ++ [⟨max (s.trd.cclk + 32) (s.hif.lastRead + 1), .unsupported⟩] ∧ t = { s with out := t.out, hif := t.hif }) ∧
    (∃ t, exec .pickStatClear s = .next t ∧ t.fld Reg.TRD_PICK_STAT Reg.TRD_PICK_STAT_MIN = 0xFFF ∧
      t.fld Reg.TRD_PICK_STAT Reg.TRD_PICK_STAT_MAX = 0 ∧ t = { s with regs := t.regs } ∧
      ∀ o, o ≠ Reg.TRD_PICK_STAT → t.rd o = s.rd o) ∧
    (∀ own : BitVec 16, ∃ t, exec (.gpioOwnChange own) s = .next t ∧ t.fld Reg.TRD_GPIO_OWN Reg.TRD_GPIO_OWN_OWN = own.toNat ∧
      (∀ k : Fin 16, own[k] = true → (s.fld Reg.TRD_GPIO_OWN Reg.TRD_GPIO_OWN_OWN).testBit k = false →
        t.trd.gpioLevel[k] = false ∧ t.trd.gpioOwned[k] = true) ∧
      (∀ k : Fin 16, own[k] = false ∨ (s.fld Reg.TRD_GPIO_OWN Reg.TRD_GPIO_OWN_OWN).testBit k = true →
        t.trd.gpioLevel[k] = s.trd.gpioLevel[k]) ∧
      (∀ now, (t.cclkBegins now).trd.gpioOwned = own) ∧
      t = { s with trd := t.trd, regs := t.regs } ∧ ∀ o, o ≠ Reg.TRD_GPIO_OWN → t.rd o = s.rd o) ∧
    ∀ v : Word, ∃ t, exec (.fsyncIdleWrite v) s = .next t ∧ t.fld Reg.TRD_FSYNC_CTL Reg.TRD_FSYNC_CTL_IDLE = v.toNat % 2 ∧
      t.fsyncPin = s.fsyncPin ∧ (∀ now, (t.cclkBegins now).fsyncPin = (s.trd.fsyncFree && (decide (v.toNat % 2 = 1) != s.trd.fsync))) ∧
      t = { s with regs := t.regs, trd := t.trd } ∧ ∀ o, o ≠ Reg.TRD_FSYNC_CTL → t.rd o = s.rd o

/-! Chapter 2: start-up and the image. -/

/-- Resets and the power detector: a short pulse is ignored (R801), RESET_N holds the device with every block reset, and its release starts the
Treadle at stamp 0 with the straps latched (R28, R72, R800); a thermal trip stops the clock and asserts THERMTRIP_N until RESET_N (R705). Rows RESET_N_ASSERT, RESET_N_RELEASE, POWER_DETECT and THERMAL_TRIP. Fuses and flash stay, but for what a
program or erase that the reset cuts off leaves. -/
def Obligations.ResetsRestartTheDevice : Prop :=
  ∀ (s : State) (m : BitVec 3) (c : BitVec 4) (failed : List Nat),
    let fresh := fun (t : State) => t.trd = Trd.reset ∧ t.hif = Hif.reset ∧ t.ten = Ten.reset ∧ t.mem = Mem.reset ∧ t.sht = Sht.reset ∧
      t.pic = Pic.reset ∧ t.kv = Kv.reset ∧ t.scn = Scn.reset ∧ t.pwr = Pwr.reset ∧ t.slv = Slv.reset ∧
      t.boot.fuses = s.boot.fuses ∧ ((∀ f, s.boot.flCmd = some f → f.op = 1) → t.boot.flash = s.boot.flash) ∧ t.boot.tripped = false ∧ t.pending = s.pending ∧ t.jtag = s.jtag ∧
      (s.boot.fuses.wall = true → t.regs = State.reset.regs)
    exec (.resetAssert true) s = .next s ∧
    (∃ t, exec (.resetAssert false) s = .next t ∧ fresh t ∧ t.boot.inReset = true ∧ t.boot.bootMode = s.boot.bootMode ∧
      t.boot.thermtrip = false ∧ t.out = s.out ++ if s.boot.thermtrip then [⟨s.trd.cclk, .thermtrip false⟩] else []) ∧
    (s.boot.powerLow = false → ∃ t, exec (.resetRelease m c failed) s = .next t ∧ fresh t ∧ t.boot.inReset = false ∧
      t.boot.bootMode = m ∧ t.boot.chipId = c ∧ t.looms = numberLooms s.boot.fuses (fun _ => false) fun p => failed.contains p) ∧
    (s.boot.powerLow = true → exec (.resetRelease m c failed) s = .next { s with boot := { s.boot with inReset := false } }) ∧
    (∃ t, exec (.powerDetect true m c failed) s = .next t ∧ fresh t ∧ t.boot.powerLow = true ∧
      t.boot.thermtrip = s.boot.thermtrip) ∧
    (s.boot.inReset = false → s.boot.powerLow = true → ∃ t, exec (.powerDetect false m c failed) s = .next t ∧ fresh t ∧
      t.boot.powerLow = false ∧ t.boot.bootMode = m ∧ t.boot.thermtrip = s.boot.thermtrip) ∧
    (s.boot.inReset = true → exec (.powerDetect false m c failed) s = .next { s with boot := { s.boot with powerLow := false } }) ∧
    (s.boot.inReset = false → s.boot.powerLow = false → exec (.powerDetect false m c failed) s = .next s) ∧
    ∃ t, exec .thermalTrip s = .next t ∧ t.boot.tripped = true ∧ t.boot.thermtrip = true ∧ t.out = s.out ++ [⟨s.trd.cclk, .thermtrip true⟩] ∧
      t.boot = { s.boot with tripped := true, thermtrip := true, flCmd := none, flash := t.boot.flash } ∧
      ((∀ f, s.boot.flCmd = some f → f.op = 1) → t.boot.flash = s.boot.flash) ∧
      t = { s with boot := t.boot, out := t.out, free := t.free } ∧ (t.pending = [] → step t = .next t)

/-- The boot steps before a slot is chosen (rows FUSE_READ_DONE, SRAM_ZEROED, FLASH_PROBE, DRAM_TRAINED): fuses, from which on the steering ticks run;
SRAM zeroed; the probe's requests, the mode of the flash and the judging of the pointer blocks; DRAM training. The TEST strap stops after the
fuses; straps 1 skip the probe; straps 2 go on to the factory defaults (R65, R73, R75, R76, R77, R319, R335). -/
def Obligations.BootStepsAdvance : Prop :=
  ∀ s : State,
    (∃ t, exec .fuseReadDone s = .next t ∧ t.boot = { s.boot with fusesRead := true } ∧ t.pwr = { s.pwr with steerAt := s.trd.time + 10 * usTime } ∧
      (s.boot.bootMode = 7#3 → t.loadState = 7) ∧ (s.boot.bootMode ≠ 7#3 → t.regs = s.regs) ∧
      t = { s with boot := t.boot, regs := t.regs, pwr := t.pwr }) ∧
    (s.boot.bootMode = 7#3 → exec .sramZeroed s = .next s ∧ ∀ wide mixed, exec (.dramTrained wide mixed) s = .next s) ∧
    (s.boot.bootMode ≠ 7#3 → ∃ t, exec .sramZeroed s = .next t ∧ (s.boot.fusesRead = true → s.loadState = 0 → t.loadState = 1) ∧
      t.boot = { s.boot with sramZero := true } ∧ t.mem.spool = [] ∧ t.mem.l1 = [] ∧ t.mem.wb = [] ∧ t.mem.tlb = [] ∧ t.mem.wmap = [] ∧
      t.mem.mshrs = [] ∧ t.mem.check = [] ∧ t.kv.tlb = [] ∧ t.scn.lines = [] ∧ (∀ l ∈ t.looms, ∃ m ∈ s.looms, l = { m.wiped with firmware := false }) ∧
      t = { s with boot := t.boot, regs := t.regs, mem := t.mem, looms := t.looms, pic := { s.pic with sheds := [] }, scn := t.scn, kv := t.kv,
                   slv := { s.slv with strips := [], maps := [] } }) ∧
    (s.loadState = 1 → ∀ sfdp octal ok, ∃ t, exec (.flashProbe ⟨sfdp, octal⟩ ok) s = .next t ∧
      let oct := decide (s.boot.bootMode ≠ 1#3) && ok && sfdpOctal sfdp && octal == s.flashBytes 0 48
      let req := fun (o : Bool) (r : FlashReq) => (⟨s.trd.cclk, .flash o r⟩ : Out)
      t.loadState = (if s.boot.bootMode = 2#3 then 6 else 2) ∧ t.fld Reg.IMG_STATUS Reg.IMG_STATUS_OCT = (if oct then 1 else 0) ∧
      t.out = s.out ++ (if s.boot.bootMode = 1#3 then [] else [req false .resetEnable, req false .reset, req false .sfdp] ++
          (if sfdpOctal sfdp then [req true (.read 0 48), req false (.read 0 48)] else [])) ++
        (if s.boot.bootMode = 2#3 then [] else [req oct (.read 0 48), req oct (.read 0x1000 48)]) ∧
      (s.boot.bootMode ≠ 2#3 → t.fld Reg.IMG_FAIL Reg.IMG_FAIL_PB0 = (if ok then s.pbCode 0 else 0xB) ∧
        t.fld Reg.IMG_FAIL Reg.IMG_FAIL_PB1 = (if ok then s.pbCode 1 else 0xB)) ∧
      t = { s with regs := t.regs, out := t.out }) ∧
    (s.boot.bootMode ≠ 7#3 → ∀ wide mixed, ∃ t, exec (.dramTrained wide mixed) s = .next t ∧ t.trained = true ∧
      t.fld Reg.DMC_STATUS Reg.DMC_STATUS_DENSITY = (if wide && !mixed then 1 else 0) ∧
      t.fld Reg.DMC_STATUS Reg.DMC_STATUS_MIXED = (if mixed then 1 else 0) ∧ t.mem.slotZero = s.trd.time ∧
      (∀ e ∈ t.mem.channels, e.2.slot = 0) ∧ t = { s with regs := t.regs, mem := { s.mem with slotZero := t.mem.slotZero, channels := t.mem.channels } })

/-- SLOT_VERIFY: the next candidate is read; one that verifies is accepted and reported; one that fails leaves its reason code and the next is tried, and
after the last the factory defaults run (R97, R100, R101, R118). -/
def Obligations.SlotsAreTriedInOrder : Prop :=
  ∀ (s : State) (ok : Bool), s.loadState = 2 →
    (s.candidates[s.boot.tried.length]? = none → ∃ t, exec (.slotVerify ok) s = .next t ∧ t.loadState = 6 ∧ t = { s with regs := t.regs }) ∧
    ∀ (slot : Nat) (pb : Option Nat), s.candidates[s.boot.tried.length]? = some (slot, pb) →
      let code := s.slotCode slot pb ok
      ∃ t, exec (.slotVerify ok) s = .next t ∧ t.out = (s.readSlot slot code).out ∧ t.boot.tried = s.boot.tried ++ [slot] ∧
        t.fld Reg.IMG_FAIL (if slot = 0 then Reg.IMG_FAIL_SLOT_A else Reg.IMG_FAIL_SLOT_B) = code ∧
        t = { s with boot := t.boot, regs := t.regs, out := t.out } ∧
        (code = 0 → t.loadState = 3 ∧ t.boot = { s.boot with tried := t.boot.tried, slot := some slot, netNext := 0, networks := [], loaded := false } ∧
          t.fld Reg.IMG_STATUS Reg.IMG_STATUS_SLOT = slot % 2 ∧ t.fld Reg.IMG_STATUS Reg.IMG_STATUS_ORPHAN = (if pb = none then 1 else 0) ∧
          t.fld Reg.IMG_STATUS Reg.IMG_STATUS_SIG_OK = (if s.sigVerifies slot then 1 else 0) ∧
          t.rd Reg.IMG_VERSION = BitVec.ofNat 32 (s.hdr slot 0x0C 4)) ∧
        (code ≠ 0 → t.boot = { s.boot with tried := t.boot.tried } ∧
          t.loadState = (if s.candidates.length ≤ s.boot.tried.length + 1 then 6 else 2))

/-- The commit makes the device ready in the CCLK after it, with the change of timing at the next frame start; DEV_RESET with its key takes
READY away, asks for one frame-abort, and makes the loader start again, at once or, by LOADER_RESTART, after a flash command; without its
key it does nothing. Rows CONFIG_COMMIT, DEV_RESET, LOADER_RESTART and BOOT_TIMING_SWITCH (R70, R107, R111, R168). -/
def Obligations.CommitAndDevReset : Prop :=
  ∀ s : State,
    (∀ edid, s.bit Reg.HIF_STATUS Reg.HIF_STATUS_READY = false → s.trained = true → s.loadState = 3 ∨ s.loadState = 6 →
      s.boot.restartWait = false → s.boot.tripped = false →
      ∃ t, exec (.configCommit edid) s = .next t ∧ t.bit Reg.HIF_STATUS Reg.HIF_STATUS_READY = true ∧ t.trd.cclk = s.trd.cclk + 1 ∧
        t.boot.committed = true ∧ t.boot.switchAt = some ((s.trd.now.frame + 1) % 65536) ∧ t.trd.fsyncFree = true ∧
        t.boot.flash = s.boot.flash ∧ t.boot.fuses = s.boot.fuses ∧ t.jtag = s.jtag) ∧
    (∀ v : Word, Reg.DEV_RESET_KEY.get v = 0x5A5A → Reg.DEV_RESET_GO.get v = 1 → ∃ t, exec (.devReset v) s = .next t ∧
      t.bit Reg.HIF_STATUS Reg.HIF_STATUS_READY = false ∧ AbortCause.devReset ∈ t.trd.abortWant ∧
      (s.boot.flCmd ≠ none → t.boot.restartWait = true ∧ t.boot.flCmd = s.boot.flCmd) ∧
      (s.boot.flCmd = none → t.boot.restartWait = false ∧ t.boot.tried = [] ∧ t.boot.slot = none ∧
        (2 ≤ s.loadState → s.loadState ≠ 7 → t.loadState = if s.boot.bootMode = 2#3 then 6 else 2)) ∧ t.boot.flash = s.boot.flash ∧ t.trd.now = s.trd.now) ∧
    (∀ v : Word, Reg.DEV_RESET_KEY.get v ≠ 0x5A5A → exec (.devReset v) s = .next s) ∧
    (s.boot.restartWait = true → s.boot.flCmd = none → 2 ≤ s.loadState → s.loadState ≠ 7 → s.boot.bootMode ≠ 2#3 →
      ∃ t, exec .loaderRestart s = .next t ∧ t.loadState = 2 ∧ t.boot.tried = [] ∧ t.boot.restartWait = false ∧
        t.out = s.out ++ [⟨s.trd.cclk, .flash s.flashOctal (.read 0 48)⟩, ⟨s.trd.cclk, .flash s.flashOctal (.read 0x1000 48)⟩] ∧
        t = { s with boot := t.boot, regs := t.regs, out := t.out }) ∧
    (s.boot.restartWait = true → s.boot.flCmd = none → 2 ≤ s.loadState → s.loadState ≠ 7 → s.boot.bootMode = 2#3 →
      ∃ t, exec .loaderRestart s = .next t ∧ t.loadState = 6 ∧ t.boot.tried = [] ∧ t.boot.restartWait = false ∧
        t = { s with boot := t.boot, regs := t.regs }) ∧
    (s.boot.restartWait = false ∨ s.boot.flCmd ≠ none → exec .loaderRestart s = .next s) ∧
    (s.boot.switchAt = some s.trd.now.frame → s.trd.now.line = 0 → s.trd.now.pick = 0 → ∃ t, exec .bootTimingSwitch s = .next t ∧
      t.scn.sending = true ∧ t.boot.switchAt = none ∧ t.boot.bootTiming = false ∧ t.trd.now = s.trd.now ∧
      (legalTiming s.timingRegs (Reg.SCN_CFG_MODE.get (s.rd Reg.SCN_CFG) % 3) = true → t.trd.timing = s.timingRegs))

/-- NETWORK_SECTION_LOADED: the next NETWORK section is read from the flash and stored in DRAM; one whose hash is right is used from then on, one whose hash
fails is counted and never used, and the slot stays active; the last one that streams after the commit ends the load (R102). A section that cannot
be read counts as one whose hash fails (DESIGN CHOICE, log 129). -/
def Obligations.NetworkSectionsLoad : Prop :=
  ∀ (s : State) (ok : Bool) (slot i : Nat) (x : Section) (rest : List (Nat × Section)), s.trained = true → s.loadState = 3 ∨ s.loadState = 4 →
    s.boot.slot = some slot → s.netSections.drop s.boot.netNext = (i, x) :: rest →
    let bytes := s.streamed slot x ok
    let good := ok && s.hashOk slot i x
    ∃ t, exec (.networkSectionLoaded ok) s = .next t ∧ t.mem = (s.dramStore x.load bytes).mem ∧
      t.out = s.out ++ [⟨s.trd.cclk, .flash s.flashOctal (.read (slotBase slot + x.offset) x.length)⟩] ∧
      t.free = s.free + (if ok then 0 else 1) ∧
      t.boot = { s.boot with netNext := s.boot.netNext + 1, loaded := rest.isEmpty, networks := t.boot.networks } ∧
      (good = false → t.boot.networks = s.boot.networks ∧ t.fld Reg.IMG_STATUS Reg.IMG_STATUS_NET_BAD = 1 ∧
        t.rd Reg.IMG_NET_BAD_CNT = counted (s.rd Reg.IMG_NET_BAD_CNT)) ∧
      (good = true → t.boot.networks = s.boot.networks ++ (networkHeader i x.load bytes).toList ∧
        t.rd Reg.IMG_NET_BAD_CNT = s.rd Reg.IMG_NET_BAD_CNT) ∧
      t.loadState = (if rest = [] ∧ s.loadState = 4 then 5 else s.loadState) ∧
      t = { s with boot := t.boot, regs := t.regs, mem := t.mem, out := t.out, free := t.free, pic := t.pic }

/-- An IMG flash command of a device that is not held in reset is taken, with its request on the flash port, or refused without effect while the loader
reads the flash, while one is under way, or at a misaligned address (R116, Table 2.19). FLASH_COMMAND_DONE ends it: a read fills the data
window, a program clears bits and an erase leaves 0xFF in its block (PRESUMED, log 13), and every other byte of the flash stays; what a failed program or erase leaves is
free, and it sets ERROR. Rows FLASH_READ, FLASH_PROGRAM, FLASH_ERASE_4K, FLASH_ERASE_64K and FLASH_COMMAND_DONE. -/
def Obligations.FlashCommandsAct : Prop :=
  ∀ s : State,
    (∀ c op align, (c, op, align) ∈ [(Instr.flashRead, 1, 256), (.flashProgram, 2, 256), (.flashErase4k, 3, 4096), (.flashErase64k, 4, 65536)] →
      (s.boot.held = true → exec c s = .next s) ∧ (s.boot.held = false → ∃ t, exec c s = .next t ∧ t.boot.flash = s.boot.flash ∧
        (let a := (s.rd Reg.IMG_FL_ADDR).toNat
        if (1 ≤ s.loadState ∧ s.loadState ≤ 4) ∨ s.boot.flCmd ≠ none ∨ a % align ≠ 0 then
          t.fld Reg.IMG_FL_STATUS Reg.IMG_FL_STATUS_REFUSED = 1 ∧ t = { s with regs := t.regs }
        else t.fld Reg.IMG_FL_STATUS Reg.IMG_FL_STATUS_BUSY = 1 ∧
          t = { s with regs := t.regs, out := t.out, boot := { s.boot with flCmd := some ⟨op, a, s.flWindow⟩ } } ∧
          t.out = s.out ++ [⟨s.trd.cclk, .flash s.flashOctal
            (if op = 1 then .read a 256 else if op = 2 then .program a s.flWindow else .erase a align)⟩]) ∧
        ∀ o, o ≠ Reg.IMG_FL_STATUS → t.rd o = s.rd o)) ∧
    (s.boot.flCmd = none ∨ s.pwr.patrol ≠ none → ∀ failed, exec (.flashCommandDone failed) s = .next s) ∧
    ∀ (f : FlashCmd) (failed : Bool), s.boot.flCmd = some f → s.pwr.patrol = none → ∃ t, exec (.flashCommandDone failed) s = .next t ∧
      let size := if f.op = 3 then 4096 else if f.op = 4 then 65536 else 256
      t.boot = { s.boot with flCmd := none, flash := t.boot.flash } ∧ t.fld Reg.IMG_FL_STATUS Reg.IMG_FL_STATUS_BUSY = 0 ∧
      (failed = true → f.op ≠ 1 → t.fld Reg.IMG_FL_STATUS Reg.IMG_FL_STATUS_ERROR = 1) ∧
      (f.op = 1 → t.boot.flash = s.boot.flash ∧ ∀ k, k < 64 → t.rd (Reg.IMG_FL_DATA k) = BitVec.ofNat 32 (s.flashNat (f.addr + 4 * k) 4)) ∧
      (f.op = 2 → failed = false → f.data.length = 256 → ∀ a, f.addr ≤ a → a < f.addr + 256 →
        t.flashByte a = s.flashByte a &&& f.data.getD (a - f.addr) 0#8) ∧
      (f.op = 3 ∨ f.op = 4 → failed = false → ∀ a, f.addr ≤ a → a < f.addr + size → t.flashByte a = 0xFF#8) ∧
      (f.op = 2 → f.data.length = 256 → ∀ a, ¬(f.addr ≤ a ∧ a < f.addr + 256) → t.flashByte a = s.flashByte a) ∧
      (f.op = 3 ∨ f.op = 4 → ∀ a, ¬(f.addr ≤ a ∧ a < f.addr + size) → t.flashByte a = s.flashByte a) ∧
      t = { s with boot := t.boot, regs := t.regs, free := t.free }

/-! Chapter 3: the host link. -/

/-- Register writes follow the access codes in blocks whose registers only hold values: the write lands where its port is free, and for PCI Express where
its BAR is enabled and no other request emerged in the CCLK before (R136, R145, R160, R839); a reserved or misaligned offset takes no write and
reads 0, accesses of another size have no effect and read zeros, a write of any value clears a statistics counter, and a read that hits no
enabled BAR is refused 56 CCLK on (R14, R16, R18, R128, R138, R139, R145). Rows REGISTER_WRITE, COUNTER_CLEAR, ODD_SIZE_ACCESS and UNSUPPORTED_REQUEST. -/
def Obligations.RegisterAccessesFollowTheirCodes : Prop :=
  ∀ (s : State) (m : Master) (off : Nat) (v : Word),
    let lands := s.hif.wrAt ≠ some s.trd.cclk ∧ (m = .pcie → s.barOpen (.bar0 off) = true ∧ ∀ y ∈ s.hif.pcieAt, y + 2 ≤ s.trd.cclk)
    let noted : Hif := { s.hif with wrAt := some s.trd.cclk, pcieAt := if m = .pcie then [s.trd.cclk] else s.hif.pcieAt }
    (lands → off % 4 ≠ 0 ∨ regRow? off = none → exec (.registerWrite m (.bar0 off) v) s = .next { s with hif := noted } ∧
      s.readReg m off = (0#32, s)) ∧
    (lands → 0x120000 ≤ off → off ≤ 0x1FFFFC → exec (.registerWrite m (.bar0 off) v) s = .next { s with hif := noted } ∧
      s.readReg m off = (0#32, s)) ∧
    (s.barOpen (.bar0 off) = false → exec (.registerWrite .pcie (.bar0 off) v) s = .next s) ∧
    (∀ n, exec (.registerWrite .sideband (.window n off) v) s = .next s) ∧
    (∀ r, lands → off % 4 = 0 → regRow? off = some r → off / 0x10000 ∈ [5, 7, 8, 17] →
      ∃ t, exec (.registerWrite m (.bar0 off) v) s = .next t ∧ t = { s with regs := t.regs, hif := noted } ∧ (∀ o, o ≠ off → t.rd o = s.rd o) ∧
        ∀ i : Fin 32, (t.rd off)[i] =
          if r.cnt then false
          else if r.w1c.testBit i && v[i] then false
          else if r.rw.testBit i then v[i] else (s.rd off)[i]) ∧
    (∀ r, regRow? off = some r → r.cnt = true → ∃ t, exec (.counterClear off) s = .next t ∧ t.rd off = 0#32 ∧
      t = { s with regs := t.regs } ∧ ∀ o, o ≠ off → t.rd o = s.rd o) ∧
    (∀ a n, s.barOpen a = true → (∀ y ∈ s.hif.pcieAt, y + 2 ≤ s.trd.cclk + 24) → ∃ t, exec (.oddSizeAccess true a n) s = .next t ∧
      t = { s with hif := { s.hif with pcieAt := t.hif.pcieAt } }) ∧
    (∀ a n, s.barOpen a = false → exec (.oddSizeAccess true a n) s = .next s) ∧
    (exec (.unsupportedRequest true) s = .next s) ∧
    (s.linkUp = true → 0 < s.hif.credit → s.hif.perstIn = false →
      (∀ a n, (s.barOpen a = true → ∀ y ∈ s.hif.pcieAt, y + 2 ≤ s.trd.cclk + 24) → ∃ t, exec (.oddSizeAccess false a n) s = .next t ∧
        t.out = s.out ++ [if s.barOpen a then ⟨max (s.trd.cclk + if isCounter a then 88 else 56) (s.hif.lastRead + 1), .zeroData n⟩
          else ⟨max (s.trd.cclk + 56) (s.hif.lastRead + 1), .unsupported⟩] ∧
        t = { s with out := t.out, hif := t.hif }) ∧
      ∃ t, exec (.unsupportedRequest false) s = .next t ∧
        t.out = s.out ++ [⟨max (s.trd.cclk + 56) (s.hif.lastRead + 1), .unsupported⟩] ∧ t = { s with out := t.out, hif := t.hif })

/-- Sideband frames: SB_MISO is driven from a frame's begin to its end (R158); an unknown command ends with STATUS 0x03 (R844), a short one with 0x02
(R155); a WRITE or READ with a wrong CRC has no effect but its status (R153, R154), and so has one at a misaligned address, whose status is
4 (R156, R845); a WRITE with a right one lands 27 CCLK on, and a READ answers the register's value then; STATUS returns the last one's status
(R151). Rows SB_WRITE, SB_READ, SB_STATUS, SB_EARLY_END and SB_UNKNOWN. -/
def Obligations.SidebandFramesReportStatus : Prop :=
  ∀ s : State,
    let drives := fun (t : State) (on : Bool) => (⟨t.trd.cclk, .sbMiso on⟩ : Out)
    (∀ cmd, cmd < 256 → cmd ∉ [2, 3, 5] → ∃ t, exec (.sbUnknown cmd) s = .next t ∧ t.rd Reg.HIF_SB_LAST = BitVec.ofNat 32 (3 + 256 * cmd) ∧
      t.fld Reg.HIF_STATUS Reg.HIF_STATUS_SB_ERR = 1 ∧ t.rd Reg.HIF_SB_ERR_CNT = counted (s.rd Reg.HIF_SB_ERR_CNT) ∧
      t.out = s.out ++ [drives s true, drives s false] ∧ t = { s with regs := t.regs, out := t.out }) ∧
    (∀ cmd r, (∀ c, cmd = some c → c < 256 ∧ (c = 3 → r = none)) → ∃ t, exec (.sbEarlyEnd cmd r) s = .next t ∧
      (∀ c, cmd = some c → t.rd Reg.HIF_SB_LAST = BitVec.ofNat 32 (2 + 256 * c) ∧
        t.hif.sbStatus = (if c = 2 ∨ c = 3 then 2 else s.hif.sbStatus) ∧ t.free = s.free) ∧
      (cmd = none → (∃ x, x < 256 ∧ t.rd Reg.HIF_SB_LAST = BitVec.ofNat 32 (2 + 256 * x)) ∧ t.hif.sbStatus = s.hif.sbStatus) ∧
      t.fld Reg.HIF_STATUS Reg.HIF_STATUS_SB_ERR = 1 ∧ t.rd Reg.HIF_SB_ERR_CNT = counted (s.rd Reg.HIF_SB_ERR_CNT) ∧
      t.out = s.out ++ [drives s true, drives s false] ∧ t = { s with regs := t.regs, hif := t.hif, out := t.out, free := t.free }) ∧
    (∀ a good, ∃ t, exec (.sbEarlyEnd (some 3) (some (a, good))) s = .next t ∧ t.rd Reg.HIF_SB_LAST = 0x0302#32 ∧ t.hif.sbStatus = 2 ∧
      t.trd = (s.sbPerform a good).2.trd ∧ t.out = s.out ++ [drives s true, drives t false]) ∧
    (∃ t, exec .sbStatus s = .next t ∧ t.out = s.out ++ [drives s true, ⟨s.trd.cclk, .sbStatusByte s.hif.sbStatus⟩, drives s false] ∧
      t.rd Reg.HIF_SB_LAST = 0x0500#32 ∧ t = { s with regs := t.regs, out := t.out }) ∧
    (∀ a v c, let good := crc8 ([2#8] ++ beBytes 4 a ++ beBytes 4 v.toNat) == c
      good = false ∨ a % 4 ≠ 0 → ∃ t, exec (.sbWrite a v c) s = .next t ∧
      t.rd Reg.HIF_SB_LAST = BitVec.ofNat 32 (0x0200 + if good then 4 else 1) ∧ t.hif.sbStatus = (if good then 4 else 1) ∧ t.mem = s.mem ∧
      t.boot = s.boot ∧ t.looms = s.looms ∧ t.out = s.out ++ [drives s true, drives t false]) ∧
    (∀ a v r, regRow? a = some r → a % 4 = 0 → a / 0x10000 ∈ [7, 17] → s.boot.tripped = false → s.hif.wrAt ≠ some (s.trd.cclk + 27) → ∃ t,
      exec (.sbWrite a v (crc8 ([2#8] ++ beBytes 4 a ++ beBytes 4 v.toNat))) s = .next t ∧ t.trd.cclk = s.trd.cclk + 27 ∧
      t.rd a = r.written (s.rd a) v ∧ t.rd Reg.HIF_SB_LAST = 0x0200#32 ∧ t.hif.sbStatus = 0 ∧ t.out = s.out ++ [drives s true, drives t false]) ∧
    (∀ a c, let good := crc8 ([3#8] ++ beBytes 4 a) == c
      let st := if good then 4 else 1
      good = false ∨ a % 4 ≠ 0 → ∃ t, exec (.sbRead a c) s = .next t ∧ t.hif.sbStatus = st ∧
      t.out = s.out ++ [drives s true, ⟨t.trd.cclk, .sbAnswer st 0#32 (crc8 (beBytes 1 st ++ beBytes 4 0))⟩, drives t false] ∧
      t.trd.nowHiSb = s.trd.nowHiSb) ∧
    (∀ a r, regRow? a = some r → a % 4 = 0 → a / 0x10000 = 7 → s.boot.tripped = false → s.hif.rdAt ≠ some (s.trd.cclk + 27) → ∃ t,
      exec (.sbRead a (crc8 ([3#8] ++ beBytes 4 a))) s = .next t ∧ t.trd.cclk = s.trd.cclk + 27 ∧ t.hif.sbStatus = 0 ∧
      t.out = s.out ++ [drives s true, ⟨t.trd.cclk, .sbAnswer 0 (s.rd a) (crc8 (beBytes 1 0 ++ beBytes 4 (s.rd a).toNat))⟩, drives t false])

/-- Configuration requests, readiness, link, credit and power states: before the interface is ready a request gets Retry Status and is counted
(R66), after it the request is answered and acts, and one of a function that does not exist is refused (R143); the offered BAR2 sizes (R135), VF
Enable (R126), poisoned writes (R144); while PERST_N is asserted none of these acts (R164). Rows CONFIGURATION_REQUEST, HOST_INTERFACE_READY,
PCIE_LINK_TRAINED, FLOW_CONTROL_CREDIT, PERST_N_RELEASE, D3HOT_ENTRY, D0_RETURN, RESIZABLE_BAR_WRITE, VF_ENABLE_SET and POISONED_WRITE. -/
def Obligations.TheHostInterfaceAnswers : Prop :=
  ∀ s : State,
    (s.hif.perstIn = true → (∀ fn op, exec (.configurationRequest fn op) s = .next s) ∧ exec .hostInterfaceReady s = .next s ∧
      (∀ x w, exec (.pcieLinkTrained x w) s = .next s) ∧ (∀ n, exec (.flowControlCredit n) s = .next s) ∧ exec .d3hotEntry s = .next s ∧
      exec .d0Return s = .next s ∧ (∀ n, exec (.resizableBarWrite n) s = .next s) ∧ exec .vfEnableSet s = .next s ∧
      ∀ fn, exec (.poisonedWrite fn) s = .next s) ∧
    (∃ t, exec .perstRelease s = .next t ∧ t.fld Reg.HIF_STATUS Reg.HIF_STATUS_PERST = 0 ∧
      t = { s with regs := t.regs, hif := { s.hif with perstIn := false } }) ∧
    (s.hif.perstIn = false →
      (∀ fn op, s.hif.hostReady = false → ∃ t, exec (.configurationRequest fn op) s = .next t ∧
        t.rd Reg.HIF_CRS_CNT = counted (s.rd Reg.HIF_CRS_CNT) ∧
        t.out = s.out ++ [⟨s.trd.cclk, .configDone fn (configOff op) 0#32 true⟩] ∧ t = { s with regs := t.regs, out := t.out }) ∧
      (∀ fn op, s.hif.hostReady = true → s.hif.vfsOn < fn →
        exec (.configurationRequest fn op) s = .next { s with out := s.out ++ [⟨s.trd.cclk, .unsupported⟩] }) ∧
      (∀ fn off, s.hif.hostReady = true → fn ≤ s.hif.vfsOn → exec (.configurationRequest fn (.read off)) s =
        .next { s with out := s.out ++ [⟨s.trd.cclk, .configDone fn off (s.cfgWord fn (off / 4 * 4)) false⟩] }) ∧
      (∀ fn op, s.hif.hostReady = true → fn ≤ s.hif.vfsOn → s.hif.held = [] → (∀ v ∈ vectorsOf fn, (s.vector v).pending = false) →
        (∀ off, op ≠ .read off) → ∃ t, exec (.configurationRequest fn op) s = .next t ∧
        t.out = s.out ++ [⟨s.trd.cclk, .configDone fn 0 0#32 false⟩] ∧ (∀ g, g ≠ fn → t.fnCfg g = s.fnCfg g) ∧
        (∀ x, op = .busMaster x → t.fnCfg fn = { s.fnCfg fn with bme := x }) ∧ (∀ x, op = .memorySpace x → t.fnCfg fn = { s.fnCfg fn with mse := x }) ∧
        (∀ e m, op = .msix e m → t.fnCfg fn = { s.fnCfg fn with msixEn := e, msixMask := m }) ∧
        (op = .clearPoisoned → t.fnCfg fn = { s.fnCfg fn with poisoned := false }) ∧
        (fn = 0 → (∀ x y, op = .ecrc x y → t.fnCfg 0 = { s.fnCfg 0 with ecrcGen := x, ecrcChk := y }) ∧
          (∀ n, op = .numVfs n → t.hif.numVfs = if s.hif.vfEnable then s.hif.numVfs else min 255 n) ∧
          (∀ x, op = .pageSize x → t.hif.pageSize = x) ∧ (∀ x, op = .ariHierarchy x → t.hif.ari = x) ∧ (∀ x, op = .vfMemorySpace x → t.hif.vfMse = x) ∧
          (∀ x, op = .ptmEnable x → t.hif.ptmEnable = x) ∧ (∀ x, op = .maxPayload x → t.hif.mps = max 128 (min 512 x)) ∧
          ∀ x, op = .maxReadRequest x → t.hif.mrrs = max 128 (min 4096 x)) ∧
        t = { s with hif := t.hif, out := t.out }) ∧
      exec .hostInterfaceReady s = .next { s with hif := { s.hif with hostReady := true } } ∧
      (s.boot.fusesRead = true → s.hif.held = [] → ∀ sp w, 1 ≤ sp → sp ≤ 4 → w ∈ [1, 4, 8] →
        ∃ t, exec (.pcieLinkTrained sp w) s = .next t ∧ t.linkUp = true ∧ t.fld Reg.HIF_LINK Reg.HIF_LINK_SPEED = sp ∧
          t.fld Reg.HIF_LINK Reg.HIF_LINK_WIDTH = w ∧ t = { s with regs := t.regs }) ∧
      (s.hif.held = [] → ∀ n, exec (.flowControlCredit n) s = .next { s with hif := { s.hif with credit := s.hif.credit + n } }) ∧
      (∃ t, exec .d3hotEntry s = .next t ∧ t.d3hot = true ∧ t = { s with regs := t.regs }) ∧
      (s.hif.held = [] → ∃ t, exec .d0Return s = .next t ∧ t.d3hot = false ∧ t = { s with regs := t.regs }) ∧
      (∀ n, exec (.resizableBarWrite n) s =
        .next { s with hif := { s.hif with bar2Log := if 8 ≤ n ∧ n ≤ 16 then 20 + n else s.hif.bar2Log } }) ∧
      (s.hif.vfEnable = false → exec .vfEnableSet s =
        .next { s with hif := { s.hif with vfEnable := true, vfsOn := if s.hif.pageSize < 32 then s.hif.numVfs else 0 } }) ∧
      ∀ fn, ∃ t, exec (.poisonedWrite fn) s = .next t ∧ t.fnCfg fn = { s.fnCfg fn with poisoned := true } ∧
        (∀ g, g ≠ fn → t.fnCfg g = s.fnCfg g) ∧ t = { s with hif := { s.hif with fns := t.hif.fns } })

/-- PTM: a scheduled or requested dialogue sends two requests, where the link lets both begin, and records the stamp, or sets FAIL where PTM Enable is
clear (R146 to R148); both begin in one CCLK (DESIGN CHOICE, log 132). Its response changes the recorded values and SEQ together (R149), and one
that gets none sets FAIL and leaves them (R150). Rows PTM_DIALOGUE, PTM_REQ, PTM_RESPONSE and PTM_TIMEOUT. -/
def Obligations.PtmDialoguesRecordTime : Prop :=
  ∀ s : State,
    let starts := fun (u t : State) => t.hif.ptm = some u.trd.now ∧
      t.out = u.out ++ [⟨u.trd.cclk, .ptmRequest false⟩, ⟨u.trd.cclk, .ptmRequest true⟩] ∧ t.hif.credit + 2 = u.hif.credit ∧
      t = { u with hif := t.hif, out := t.out }
    let scheduled := s.bit Reg.HIF_PTM_CTL Reg.HIF_PTM_CTL_EN = true ∧ s.d3hot = false ∧
      0 < s.fld Reg.HIF_PTM_CTL Reg.HIF_PTM_CTL_PERIOD ∧ s.trd.now.frame % s.fld Reg.HIF_PTM_CTL Reg.HIF_PTM_CTL_PERIOD = 0 ∧
      s.trd.now.line = 0 ∧ s.trd.now.pick = 0
    (scheduled → s.linkUp = true → 2 ≤ s.hif.credit → s.hif.ptmEnable = true → s.trd.now.cyc = 2 →
      ∃ t, exec .ptmDialogue s = .next t ∧ starts s t) ∧
    (scheduled → s.hif.ptmEnable = false → s.trd.now.cyc = 2 → ∃ t, exec .ptmDialogue s = .next t ∧
      t.fld Reg.HIF_PTM_STATUS Reg.HIF_PTM_STATUS_FAIL = 1 ∧ t = { s with regs := t.regs }) ∧
    (s.linkUp = true → 2 ≤ s.hif.credit → s.hif.ptmEnable = true → s.d3hot = false → s.boot.tripped = false → ∃ t, exec .ptmReq s = .next t ∧
      t.hif.ptm = some { s.trd.now with cyc := min 4095 (s.trd.now.cyc + 1) } ∧
      t.out = s.out ++ [⟨s.trd.cclk + 1, .ptmRequest false⟩, ⟨s.trd.cclk + 1, .ptmRequest true⟩]) ∧
    (∀ a m d, s.hif.ptm = some a → m < 2 ^ 64 → d ≤ m → ∃ t, exec (.ptmResponse m d) s = .next t ∧
      t.holdsStamp Reg.HIF_PTM_STAMP_LO Reg.HIF_PTM_STAMP_HI a ∧
      (t.rd Reg.HIF_PTM_MASTER_LO).toNat + 2 ^ 32 * (t.rd Reg.HIF_PTM_MASTER_HI).toNat = m - d ∧
      t.fld Reg.HIF_PTM_STATUS Reg.HIF_PTM_STATUS_SEQ = (s.fld Reg.HIF_PTM_STATUS Reg.HIF_PTM_STATUS_SEQ + 1) % 256 ∧
      t.fld Reg.HIF_PTM_STATUS Reg.HIF_PTM_STATUS_VALID = 1 ∧ t = { s with regs := t.regs, hif := { s.hif with ptm := none } }) ∧
    (s.hif.ptm = none → (∀ m d, exec (.ptmResponse m d) s = .next s) ∧ exec .ptmTimeout s = .next s) ∧
    ∀ a, s.hif.ptm = some a → ∃ t, exec .ptmTimeout s = .next t ∧
      t.fld Reg.HIF_PTM_STATUS Reg.HIF_PTM_STATUS_FAIL = 1 ∧
      t.fld Reg.HIF_PTM_STATUS Reg.HIF_PTM_STATUS_SEQ = s.fld Reg.HIF_PTM_STATUS Reg.HIF_PTM_STATUS_SEQ ∧
      t = { s with regs := t.regs, hif := { s.hif with ptm := none } } ∧ ∀ o, o ≠ Reg.HIF_PTM_STATUS → t.rd o = s.rd o

/-- The BAR2 aperture: a read that hits it is queued at the device address of R131, and its line requests issue one in a CCLK; one that does not is
refused (R145). Its next completion carries the bytes that have arrived, at most Max Payload Size of them and up to a 128-byte boundary unless they are the
last, 16 CCLK after the last line (R842). A write in the image region or beyond DRAM has no effect (R132, R133), one inside a line is requester 32's
BULK write, and one that crosses a line is the writes of its two parts (R134). Rows BAR2_READ, BAR2_COMPLETION and BAR2_WRITE. -/
def Obligations.TheApertureReachesDram : Prop :=
  ∀ s : State,
    (∀ off n, 0 < n → s.bar2Open off = true →
      let u : State := { s with hif := { s.hif with bar2 := s.hif.bar2 ++ [{ addr := s.bar2Addr off, len := n, sent := 0 }] } }
      (s.bar2Addr off % 128 + n ≤ 128 → exec (.bar2Read off n) s = .next (u.spoolRead 32 0 (lineOf (s.bar2Addr off)) .bulk)) ∧
      (s.boot.tripped = false → ∃ t, exec (.bar2Read off n) s = .next t ∧ t.hif.bar2 = u.hif.bar2 ∧
        t.trd.cclk + 1 = s.trd.cclk + (linesFrom (s.bar2Addr off) n).length)) ∧
    (∀ off n, s.bar2Open off = false → s.hif.perstIn = false → s.linkUp = true → 0 < s.hif.credit → ∃ t, exec (.bar2Read off n) s = .next t ∧
      t.out = s.out ++ [⟨max (s.trd.cclk + 32) (s.hif.lastRead + 1), .unsupported⟩] ∧ t = { s with out := t.out, hif := t.hif }) ∧
    (∀ r rest, s.hif.bar2 = r :: rest → r.sent < r.len → 128 ≤ s.hif.mps → s.linkUp = true → 0 < s.hif.credit →
      let a := r.addr + r.sent
      let n := s.bar2Chunk r
      let got := (linesFrom a n).filterMap fun l => s.hostLine l
      (∀ l ∈ linesFrom a n, s.hostLine l ≠ none) →
      (0 < n ∧ n ≤ s.hif.mps ∧ r.sent + n ≤ r.len ∧ (r.sent + n = r.len ∨ (a + n) % 128 = 0)) ∧
      ∃ t, exec .bar2Completion s = .next t ∧ t.hif.bar2 = (if r.sent + n = r.len then rest else { r with sent := r.sent + n } :: rest) ∧
        t.out = s.out ++ [⟨max (max ((got.map fun d => d.cclk).foldl max 0 + 16) s.trd.cclk) (if r.sent = 0 then 0 else s.hif.lastBar2 + 1),
          .bar2Data (((got.flatMap fun d => d.data).drop (a % 128)).take n)⟩] ∧
        t = { s with hif := t.hif, out := t.out, mem := { s.mem with arrived := t.mem.arrived } }) ∧
    (∀ off data, s.bar2Open off = false → exec (.bar2Write off data) s = .next s) ∧
    ∀ off data, s.bar2Open off = true → 0 < data.length →
      (s.bar2Addr off % 128 + data.length ≤ 128 → exec (.bar2Write off data) s = .next
        (if s.bar2Addr off < s.imageTop ∨ s.dramTop ≤ s.bar2Addr off then s else s.spoolWrite 32 0 (s.bar2Addr off) data .bulk false)) ∧
      (let k := 128 - s.bar2Addr off % 128
      k < data.length → s.bar2Open (off + k) = true →
        ∃ u, exec (.bar2Write off (data.take k)) s = .next u ∧ exec (.bar2Write off data) s = exec (.bar2Write (off + k) (data.drop k)) u)

/-! Chapter 4: tenants, rings and resets. -/

/-- Rings: enabling zeroes HEAD, TAIL and the fetch sequence number and sets DONE_SEQ to 0xFFFF_FFFF (R178), has no effect while the ring drains
(R181), and a write to an enabled ring changes only EN, PRIO and VEC (R179); disabling ends what is not dispatched, and DRAINING stays until
the rest has completed (R180); a doorbell that hits an enabled window sets TAIL where it meets R182, and the read of a descriptor that it makes available
waits 24 CCLK; any other is counted (R183, R184). Rows RING_ENABLE, RING_DISABLE and DOORBELL. -/
def Obligations.RingsAreEnabledAndFed : Prop :=
  ∀ (s : State) (g : Fin 1024) (v : Word),
    (s.ringEn g = false → s.bit (Reg.QRG_CFG g) Reg.QRG_CFG_DRAINING = false →
      ∃ t, exec (.ringEnable g v) s = .next t ∧ t.ringEn g = true ∧ t.rd (Reg.QRG_PTR g) = 0#32 ∧ t.rd (Reg.QRG_FETCH_SEQ g) = 0#32 ∧
        t.rd (Reg.QRG_DONE_SEQ g) = 0xFFFFFFFF#32 ∧ t.ring g = Ring.idle ∧
        (∀ f ∈ [Reg.QRG_CFG_LOG2_SIZE, Reg.QRG_CFG_CLASS, Reg.QRG_CFG_PRIO, Reg.QRG_CFG_DEPTH, Reg.QRG_CFG_VEC, Reg.QRG_CFG_TENANT],
          t.fld (Reg.QRG_CFG g) f = f.get v) ∧
        t = { s with regs := t.regs, ten := t.ten } ∧ (∀ h, h ≠ g.val → t.ring h = s.ring h) ∧
        ∀ o, o ∉ [Reg.QRG_CFG g, Reg.QRG_PTR g, Reg.QRG_FETCH_SEQ g, Reg.QRG_DONE_SEQ g] → t.rd o = s.rd o) ∧
    (s.ringEn g = false → s.bit (Reg.QRG_CFG g) Reg.QRG_CFG_DRAINING = true → exec (.ringEnable g v) s = .next s) ∧
    (s.ringEn g = true → ∃ t, exec (.ringEnable g v) s = .next t ∧
      (∀ f ∈ [Reg.QRG_CFG_PRIO, Reg.QRG_CFG_VEC], t.fld (Reg.QRG_CFG g) f = f.get v) ∧
      (∀ f ∈ [Reg.QRG_CFG_EN, Reg.QRG_CFG_LOG2_SIZE, Reg.QRG_CFG_CLASS, Reg.QRG_CFG_DEPTH, Reg.QRG_CFG_DRAINING, Reg.QRG_CFG_TENANT],
        t.fld (Reg.QRG_CFG g) f = s.fld (Reg.QRG_CFG g) f) ∧
      t = { s with regs := t.regs } ∧ ∀ o, o ≠ Reg.QRG_CFG g → t.rd o = s.rd o) ∧
    (s.ringEn g = true → ∃ t, exec (.ringDisable g v) s = .next t ∧ t.ringEn g = false ∧ (t.ring g).reads = 0 ∧
      (∀ d ∈ t.ten.descs, d.ring = g.val → d.phase ≠ .waiting ∧ d.phase ≠ .halted) ∧
      (t.bit (Reg.QRG_CFG g) Reg.QRG_CFG_DRAINING = !(t.outstanding g).isEmpty) ∧
      (∀ d ∈ s.ten.descs, d.ring = g.val → d.phase = .waiting → ∃ r ∈ t.ten.recs, r.ring = g.val ∧ r.seq = d.seq ∧
        bytesAt r.data 8 1 = 0x21) ∧
      t = { s with regs := t.regs, ten := t.ten, looms := t.looms, sht := t.sht, slv := t.slv, free := t.free }) ∧
    ∀ n : Fin 256,
      let ok := s.tenEn n = true ∧ s.draining n = false ∧ s.ringTenant g = n.val ∧ s.ringEn g = true ∧ (s.ring g).err = false ∧
        v.toNat < 65536 ∧ v.toNat < s.ringSize g
      (s.barOpen (.window n 0) = false → exec (.doorbell n g v) s = .next s) ∧
      (s.barOpen (.window n 0) = true → (∀ y ∈ s.hif.pcieAt, y + 2 ≤ s.trd.cclk + 21) →
        (ok → ∃ t, exec (.doorbell n g v) s = .next t ∧ t.ringTail g = v.toNat ∧ t.ringHead g = s.ringHead g ∧
          (t.ring g).readAt = (if s.ringAvail g < t.ringAvail g ∧ s.ringAvail g ≤ (s.ring g).reads then s.trd.cclk + 24 else (s.ring g).readAt) ∧
          (∀ h, h ≠ g.val → t.ring h = s.ring h) ∧ t.ten.descs = s.ten.descs ∧
          t = { s with regs := t.regs, ten := t.ten, hif := { s.hif with pcieAt := t.hif.pcieAt } } ∧ ∀ o, o ≠ Reg.QRG_PTR g → t.rd o = s.rd o) ∧
        (¬ok → ∃ t, exec (.doorbell n g v) s = .next t ∧ t.rd (Reg.TEN_BAD_DB_CNT n) = counted (s.rd (Reg.TEN_BAD_DB_CNT n)) ∧
          t = { s with regs := t.regs, hif := { s.hif with pcieAt := t.hif.pcieAt } } ∧ ∀ o, o ≠ Reg.TEN_BAD_DB_CNT n → t.rd o = s.rd o))

/-- Descriptor reads and fetches: a read of the slot after those in flight leaves 24 CCLK after its doorbell (R184, R185), or is refused for want
of a scoreboard entry and counted (R257); a good fetch takes the ring's SEQ and moves HEAD (R185, R186); a failed one stops the ring and is
counted (R187); what comes back to a ring that has failed, or to a tenant that is disabled, is not fetched (R171); a descriptor that breaks R192 ends
with BAD_DESC, a collective record as Table 13.7 says, and one that meets its DEADLINE undispatched with TIMEOUT (R197). Rows
DESCRIPTOR_READ_ISSUE, DESCRIPTOR_FETCH and DEADLINE_MISS. -/
def Obligations.DescriptorsAreFetched : Prop :=
  ∀ (s : State) (g : Fin 1024),
    (let s0 := s.elapseTo (s.ring g).readAt
     s0.wantsRead g = true →
      (s0.entryFree g = false → ∃ t, exec (.descriptorReadIssue g) s = .next t ∧ (t.ring g).refused = true ∧
        t.rd Reg.HED_SB_FULL_CNT = counted (s0.rd Reg.HED_SB_FULL_CNT) ∧ t = { s0 with regs := t.regs, ten := t.ten } ∧
        ∀ o, o ≠ Reg.HED_SB_FULL_CNT → t.rd o = s0.rd o) ∧
      (s0.entryFree g = true → s0.isIntake g = true ∨ s0.offeredFirst g = some g.val → ∃ t, exec (.descriptorReadIssue g) s = .next t ∧
        (t.ring g).reads = (s0.ring g).reads + 1 ∧
        t = ({ s0 with ten := t.ten } : State).send
          { msg := .hostRead (s0.ringTenant g) (s0.addr64 (Reg.QRG_BASE_LO g) (Reg.QRG_BASE_HI g) +
              64 * ((s0.ringHead g + (s0.ring g).reads) % s0.ringSize g)) 64,
            fn := some (s0.ringTenant g), after := 0, event := none, chain := .none } ∧
        t.ten.descs = s0.ten.descs ∧ ∀ h, h ≠ g.val → t.ring h = s0.ring h) ∧
      (s0.entryFree g = true → s0.isIntake g = false → s0.offeredFirst g ≠ some g.val → exec (.descriptorReadIssue g) s = .next s0)) ∧
    (let s0 := s.elapseTo (s.ring g).readAt
     (s0.intakeForeign g = true → ∃ t, exec (.descriptorReadIssue g) s = .next t ∧ t.fld Reg.PIC_STATUS Reg.PIC_STATUS_INTAKE_ERR = 1 ∧
        t = { s0 with regs := t.regs }) ∧
     (s0.intakeForeign g = false → s0.wantsRead g = false → exec (.descriptorReadIssue g) s = .next s)) ∧
    (s.isIntake g = true ∨ (s.ring g).reads = 0 → ∀ ok bytes, exec (.descriptorFetch g ok bytes) s = .next s) ∧
    (0 < (s.ring g).reads → s.isIntake g = false → (s.ring g).err = true ∨ s.tenEn (s.ringTenant g) = false → ∀ ok bytes,
      ∃ t, exec (.descriptorFetch g ok bytes) s = .next t ∧ t.ring g = { s.ring g with reads := (s.ring g).reads - 1 } ∧
        t.ten.descs = s.ten.descs ∧ t = { s with ten := t.ten }) ∧
    (0 < (s.ring g).reads → s.isIntake g = false → (s.ring g).err = false → s.tenEn (s.ringTenant g) = true → ∀ bytes,
      (∃ t, exec (.descriptorFetch g false bytes) s = .next t ∧ (t.ring g).err = true ∧ (t.ring g).reads + 1 = (s.ring g).reads ∧
        t.rd Reg.QRG_FETCH_ERR_CNT = counted (s.rd Reg.QRG_FETCH_ERR_CNT) ∧ t = { s with regs := t.regs, ten := t.ten } ∧
        t.ten.descs = s.ten.descs ∧ ∀ o, o ≠ Reg.QRG_FETCH_ERR_CNT → t.rd o = s.rd o) ∧
      (let d := s.fetched g bytes
       (if d.coll then (s.badColl d).isNone else (s.badDesc d).isNone) → ∃ t, exec (.descriptorFetch g true bytes) s = .next t ∧
        t.rd (Reg.QRG_FETCH_SEQ g) = s.rd (Reg.QRG_FETCH_SEQ g) + 1#32 ∧ t.ringHead g = (s.ringHead g + 1) % s.ringSize g ∧
        (∃ e ∈ t.ten.descs, e.ring = g.val ∧ e.seq = (s.rd (Reg.QRG_FETCH_SEQ g)).toNat ∧ e.bytes = bytes.take 64 ∧ e.phase = .waiting ∧
          e.tenant = s.ringTenant g ∧ e.profile = s.nextProfile g ∧ e.late = (d.launchEn && s.trd.now.after d.launch)) ∧
        t.ten.descs.length = s.ten.descs.length + 1 ∧ t = { s with regs := t.regs, ten := t.ten } ∧
        ∀ o, o ∉ [Reg.QRG_PTR g, Reg.QRG_FETCH_SEQ g] → t.rd o = s.rd o) ∧
      (let d := s.fetched g bytes
       d.coll = false →
        d.num 2 2 ≥ 512 ∨ d.num 0x0E 1 ≥ 64 ∨ d.num 0x0F 1 ≥ 8 ∨ d.num 0x16 2 ≥ 1024 ∨ d.num 0x1C 2 ≥ 1024 ∨ d.num 0x1E 2 ≠ 0 ∨ d.num 0x24 4 ≠ 0 ∨ d.looms > 32 ∨ d.looms > s.maxLooms d.tenant ∨
          (∃ x ∈ d.deps, s.ringTenant x.1 ≠ d.tenant) ∨ (d.launchEn = true ∧ d.deadlineEn = true ∧ d.deadline.after d.launch = false) ∨
          (d.lockstep = true ∧ d.launchEn = false) ∨ d.argPtr % 64 ≠ 0 →
        ∃ t r, exec (.descriptorFetch g true bytes) s = .next t ∧ t.ten.recs = s.ten.recs ++ [r] ∧ r.ring = g.val ∧
          r.seq = (s.rd (Reg.QRG_FETCH_SEQ g)).toNat ∧ bytesAt r.data 8 1 = 0x30 ∧ r.write = true ∧ r.event = true ∧
          (∀ e ∈ t.ten.descs, ¬(e.ring = g.val ∧ e.seq = (s.rd (Reg.QRG_FETCH_SEQ g)).toNat)) ∧ t.mem = s.mem) ∧
      (let d := s.fetched g bytes
       ∀ st k, d.coll = true → s.badColl d = some (st, k) → ∃ t r, exec (.descriptorFetch g true bytes) s = .next t ∧
        t.ten.recs = s.ten.recs ++ [r] ∧ r.ring = g.val ∧ r.seq = (s.rd (Reg.QRG_FETCH_SEQ g)).toNat ∧ bytesAt r.data 8 1 = st ∧
        bytesAt r.data 9 1 = k ∧ t.mem = s.mem)) ∧
    (∀ q, (∀ d, s.desc? g q = some d → ¬(d.phase = .waiting ∧ d.deadlineEn = true ∧ s.trd.now.atOrAfter d.deadline = true)) →
      exec (.deadlineMiss g q) s = .next s) ∧
    ∀ q d, s.desc? g q = some d → d.phase = .waiting → d.deadlineEn = true → s.trd.now.atOrAfter d.deadline = true →
      ∃ t, exec (.deadlineMiss g q) s = .next t ∧ s.completes t d 0x20 1

/-- Dispatch and completion: the Heddle dispatches what its class order and DRR choose, first by PRIO, ring and fetch order within a tenant
(R206 to R212), an unknown opcode ends with BAD_OP (R240); a loom begins once it has done what it must before (R268, R269); a
descriptor completes in the CCLK after its last loom's last, with its modified L1 lines written back (R270, R287); the execution cap stops it, at the
end of the tile in progress where a loom has begun (R215); its record leaves 40 CCLK after its end (R202). Rows DISPATCH, EXECUTION_START,
DESCRIPTOR_COMPLETE, EXECUTION_CAP and COMPLETION_RECORD. -/
def Obligations.DescriptorsRunAndComplete : Prop :=
  ∀ s : State,
    (let s0 := s.elapseTo s.nextDispatch
     (∀ d, (s0.ten.descs.find? fun d => s0.dispatchable d && d.badOp.isSome) = some d →
        ∃ t, exec .dispatch s = .next t ∧ s0.completes t d 0x31 (d.badOp.getD 1)) ∧
     ((s0.ten.descs.find? fun d => s0.dispatchable d && d.badOp.isSome) = none → ∀ d, (s0.pickDesc s0.classOrder).1 = some d →
        (∀ x ∈ s0.readyIn (s0.ringLive d.ring), x.tenant = d.tenant → s0.goesFirst x d = false) ∧ s0.tenLooms d.tenant < s0.maxLooms d.tenant ∧
        ∃ t e, exec .dispatch s = .next t ∧ t.desc? d.ring d.seq = some e ∧ e.phase = .running ∧ e.start = s0.trd.now ∧
          e.bytes = d.bytes ∧ e.used = d.looms ∧ e.work.length = d.looms ∧
          (∀ w ∈ e.work, w.loom ∈ s0.freePool ∧ w.begun = false ∧ s0.trd.cclk ≤ w.ready) ∧
          t.mem.dram = s0.mem.dram ∧ t.trd = s0.trd ∧ t.hif = s0.hif ∧ t.out = s0.out)) ∧
    (∀ (g : Fin 1024) q d,
      (∀ (loom : Fin 32) w e, s.desc? g q = some d → d.phase = .running →
        (d.work.find? fun w => w.loom == loom.val && !w.begun) = some w → (s.elapseTo w.ready).desc? g q = some e →
        ∃ t e', exec (.executionStart g q loom) s = .next t ∧ t.desc? g q = some e' ∧ e'.phase = e.phase ∧ e'.bytes = e.bytes ∧
          (∀ x ∈ e'.work, d.lockstep = true ∨ x.loom = loom.val → x.begun = true) ∧
          t = { s.elapseTo w.ready with ten := t.ten, sht := t.sht, looms := t.looms, free := t.free }) ∧
      (∀ e, s.desc? g q = some d → s.endComes d = true → (s.elapseTo d.endAt).desc? g q = some e →
        let s0 := s.elapseTo d.endAt
        let u := (e.work.map fun w => w.loom).foldl State.flushL1 s0
        (e.stop = none → ∃ t, exec (.descriptorComplete g q) s = .next t ∧ u = { s0 with mem := u.mem, free := u.free } ∧
          u.completes t e (if e.stopped then 0x02 else if e.darned then 0x01 else 0) 0) ∧
        (∀ st k, e.stop = some (.ends st k) → st ≠ 0 → ∃ t v, exec (.descriptorComplete g q) s = .next t ∧ s0.completes v e st k ∧
          t = v.clearReserved (e.work.map fun w => w.loom))) ∧
      (s.desc? g q = some d → d.phase ≠ .waiting → d.since + s.capTime d ≤ s.trd.time →
        ((d.phase ≠ .running ∨ ∀ w ∈ d.work, w.begun = false) →
          ∃ t, exec (.executionCap g q) s = .next t ∧ s.completes t d 0x20 (if d.phase = .halted then 3 else 2)) ∧
        (d.phase = .running → (∃ w ∈ d.work, w.begun = true) → d.stop = none → ∃ t e, exec (.executionCap g q) s = .next t ∧
          t.desc? g q = some e ∧ e = { d with stop := some (.ends 0x20 2), stopAt := e.stopAt } ∧ s.trd.cclk ≤ e.stopAt ∧
          e.stopAt ≤ s.trd.cclk + 500 * usCclk s.op ∧ t = { s with ten := t.ten, free := t.free })) ∧
      (s.desc? g q = some d → s.trd.time < d.since + s.capTime d → exec (.executionCap g q) s = .next s)) ∧
    ∀ r rest, s.ten.recs = r :: rest →
      let s0 := (s.elapseTo r.issueAt).onTen fun x => { x with recs := rest }
      (r.write = false → r.event = false → exec .completionRecord s = .next s0) ∧
      (r.write = true → s0.linkUp = true → 0 < s0.hif.credit → s0.d3hot = false → (s0.fnCfg r.tenant).bme = true →
        (∀ u ∈ s0.hif.held, u.fn ≠ some r.tenant) → ∃ t, exec .completionRecord s = .next t ∧
          t.out = s0.out ++ [⟨s0.trd.cclk, .hostWrite r.tenant r.addr r.data⟩] ∧ t.hif = { s0.hif with credit := s0.hif.credit - 1 } ∧
          t = { s0 with out := t.out, hif := t.hif, ten := t.ten } ∧
          (r.event = false → t.ten = s0.ten) ∧
          (r.event = true →
            let k := vecIndex r.tenant (s0.fld (Reg.QRG_CFG r.ring) Reg.QRG_CFG_VEC)
            t.vector k = (s0.vector k).counted (s0.modCount k) (s0.modPicks k) s0.trd.cclk)) ∧
      (r.write = true → s0.linkUp = false → ∃ t u, exec .completionRecord s = .next t ∧ t.hif.held = s0.hif.held ++ [u] ∧
        u.msg = .hostWrite r.tenant r.addr r.data ∧ t = { s0 with hif := t.hif })

/-- Messages: an expired timer makes its message due 2 CCLK on, never sooner than 64 CCLK after the last event (R221); a due message is sent,
covering every event counted (R223), held by the cap (R225, R226), or left pending under a mask until it goes (R224); a new frame releases
what the cap held, from 2 CCLK after the match of its first stamp (R36, R226). Rows MODERATION_TIMER_EXPIRY, MSIX_MESSAGE, MSIX_UNMASK and
HELD_MESSAGE_RELEASE. -/
def Obligations.MessagesAreModerated : Prop :=
  ∀ s : State,
    (∀ v : Fin 2072, (s.vector v).timer = some 0 → ∃ t, exec (.moderationTimerExpiry v) s = .next t ∧
      (t.vector v).timer = none ∧ (t.vector v).count = (s.vector v).count ∧
      (let d := max (s.trd.cclk + 2) ((s.vector v).last + 64)
       (t.vector v).due = some (match (s.vector v).due with | some e => min e d | none => d)) ∧
      (∀ u, u ≠ v.val → t.vector u = s.vector u) ∧ t = { s with ten := t.ten }) ∧
    (∀ (v : Fin 2072) d, (s.vector v).due = some d → s.tenEn (vecFn v) = true →
      let n := vecFn v
      let s0 := s.elapseTo d
      (s0.vecStopped v = true → ∃ t, exec (.msixMessage v) s = .next t ∧ (t.vector v).pending = true ∧ (t.vector v).due = none ∧
        (∀ u, u ≠ v.val → t.vector u = s0.vector u) ∧ t = { s0 with ten := t.ten }) ∧
      (s0.vecStopped v = false → s0.fld (Reg.TEN_MSG n) Reg.TEN_MSG_CAP ≠ 0 → s0.fld (Reg.TEN_MSG n) Reg.TEN_MSG_CAP ≤ s0.sentNow n →
        ∃ t, exec (.msixMessage v) s = .next t ∧ (t.vector v).pending = true ∧ (t.vector v).held = true ∧
          t.rd (Reg.TEN_MSG_HELD_CNT n) = counted (s0.rd (Reg.TEN_MSG_HELD_CNT n)) ∧ t = { s0 with ten := t.ten, regs := t.regs } ∧
          ∀ o, o ≠ Reg.TEN_MSG_HELD_CNT n → t.rd o = s0.rd o) ∧
      (s0.vecStopped v = false →
        s0.fld (Reg.TEN_MSG n) Reg.TEN_MSG_CAP = 0 ∨ s0.sentNow n < s0.fld (Reg.TEN_MSG n) Reg.TEN_MSG_CAP →
        ∃ t, exec (.msixMessage v) s = .next t ∧ (t.vector v).count = 0 ∧ (t.vector v).timer = none ∧ (t.vector v).due = none ∧
          (t.vector v).pending = false ∧ t.sentNow n = s0.sentNow n + 1 ∧
          t = ({ s0 with ten := t.ten } : State).send
            { msg := .msix n (vecNum v) (s0.vector v).addr (s0.vector v).data, fn := some n, after := s0.trd.cclk, event := none, chain := .none } ∧
          ∀ u, u ≠ v.val → t.vector u = s0.vector u)) ∧
    (∀ v : Fin 2072,
      ((s.vector v).pending = false → ∃ t, exec (.msixUnmask v) s = .next t ∧ t.vector v = { s.vector v with masked := false } ∧
        t = { s with ten := t.ten } ∧ ∀ u, u ≠ v.val → t.vector u = s.vector u) ∧
      ((s.vector v).pending = true → (s.vector v).held = false → (s.fnCfg (vecFn v)).msixEn = true →
        (s.fnCfg (vecFn v)).msixMask = false → s.tenEn (vecFn v) = true → s.fld (Reg.TEN_MSG (vecFn v)) Reg.TEN_MSG_CAP = 0 →
        ∃ t, exec (.msixUnmask v) s = .next t ∧ (t.vector v).pending = false ∧ (t.vector v).masked = false ∧ (t.vector v).count = 0 ∧
          t = ({ s with ten := t.ten } : State).send
            { msg := .msix (vecFn v) (vecNum v) (s.vector v).addr (s.vector v).data, fn := some (vecFn v), after := s.trd.cclk,
              event := none, chain := .none })) ∧
    ∀ n : Fin 256, s.atFrameStart = true → s.tenEn n = true →
      let s0 := State.elapse s.toTick s
      let vs := (s0.ten.vectors.filter fun e => e.2.held && vecFn e.1 == n.val).map fun e => e.1
      s0.fld (Reg.TEN_MSG n) Reg.TEN_MSG_CAP = 0 ∨ s0.sentNow n + vs.length ≤ s0.fld (Reg.TEN_MSG n) Reg.TEN_MSG_CAP →
      (∀ v ∈ vs, s0.vecStopped v = false) → tblWf (fun _ => Vector.idle) s0.ten.vectors = true →
      ∃ t, exec (.heldMessageRelease n) s = .next t ∧ (∀ v ∈ vs, (t.vector v).held = false ∧ (t.vector v).pending = false) ∧
        t.sentNow n = s0.sentNow n + vs.length ∧ (∀ v, v ∉ vs → t.vector v = s0.vector v) ∧
        t = { s0 with ten := t.ten, hif := t.hif, out := t.out }

/-- Drains: each reset starts the drain of the tenants Table 4.8 names: a descriptor whose looms have begun is to stop at the end of its tiles, every
other one ends at once, and its events go; the window of a VF that is reset is shut. The drain's end comes with the last of its looms' tiles and their
clear of 3,072 CCLK, and then the rings and the tenant are as Table 4.8 gives; START enables a tenant that does not drain; nothing of the host's resets
but PERST_N itself arrives while PERST_N is asserted (R164, R227 to R231, R841). Rows TEN_STOP, TEN_START, DRAIN_COMPLETE, VF_FLR, PF_FLR,
PERST_N_ASSERT and VF_ENABLE_CLEAR. -/
def Obligations.ResetsDrainTenants : Prop :=
  ∀ s : State,
    let stopping := fun (t : State) (n : Nat) => ∀ d ∈ t.ten.descs, d.tenant = n → d.phase = .running ∧ d.stop = some .drained
    (∀ n : Fin 256, s.draining n = false → ∃ t, exec (.tenStop n) s = .next t ∧ (t.tenant n).drain = some .tenStop ∧ stopping t n ∧
      (∀ g, g ∈ s.ringsOf n → (t.ring g).reads = 0) ∧
      (∀ d ∈ s.ten.descs, d.tenant = n.val → s.desc? d.ring d.seq = some d → d.phase ≠ .running ∨ (∀ w ∈ d.work, w.begun = false) →
        ∃ r ∈ t.ten.recs, r.ring = d.ring ∧ r.seq = d.seq ∧ bytesAt r.data 8 1 = 0x21) ∧
      (∀ (p : Nat) (l : Loom), s.looms[p]? = some l → p < 34 → (∃ g q, l.work = some (g, q) ∧ s.ringTenant g = n.val) →
        ∃ l' : Loom, t.looms[p]? = some l' ∧ l'.withheld = some n.val) ∧
      (∀ f ∈ t.pic.fifo, f.tenant ≠ n.val) ∧ t.trd = s.trd ∧ t.boot = s.boot) ∧
    (∀ n : Fin 256, (s.draining n = true → exec (.tenStart n) s = .next s) ∧
      (s.draining n = false → ∃ t, exec (.tenStart n) s = .next t ∧ t.tenEn n = true ∧ t = { s with regs := t.regs } ∧
        (∀ f ∈ [Reg.TEN_CFG_MAX_LOOMS, Reg.TEN_CFG_MIN_LOOMS, Reg.TEN_CFG_WEIGHT],
          t.fld (Reg.TEN_CFG n) f = s.fld (Reg.TEN_CFG n) f) ∧ ∀ o, o ≠ Reg.TEN_CFG n → t.rd o = s.rd o)) ∧
    (∀ (n : Fin 256) k, (s.tenant n).drain = some k → ∃ t, exec (.drainComplete n) s = .next t ∧ t.draining n = false ∧ t.tenEn n = false ∧
      (∀ d ∈ t.ten.descs, d.tenant ≠ n.val) ∧
      (∀ g ∈ s.ringsOf n, t.ring g = Ring.idle ∧ t.ringEn g = false ∧ t.bit (Reg.QRG_CFG g) Reg.QRG_CFG_DRAINING = false ∧
        t.rd (Reg.QRG_BASE_LO g) = (if k ∈ [DrainKind.tenStop, DrainKind.vfFlr] then s.rd (Reg.QRG_BASE_LO g)
          else s.rd (Reg.QRG_BASE_LO g) &&& 0xFFF#32)) ∧
      (∀ l ∈ t.looms, l.withheld ≠ some n.val) ∧ (∀ f ∈ t.sht.far, f.page = true ∨ f.tenant ≠ n.val) ∧ s.trd.cclk ≤ t.trd.cclk ∧
      (s.boot.tripped = false → (∃ l ∈ s.looms.take 34, l.withheld = some n.val) → (s.tenant n).stopsAt + 3072 ≤ t.trd.cclk) ∧
      t.hif = s.hif ∧ t.boot = s.boot ∧ t.out = s.out ∧ t.jtag = s.jtag) ∧
    (s.hif.perstIn = true → (∀ n, exec (.vfFlr n) s = .next s) ∧ exec .pfFlr s = .next s ∧ exec .vfEnableClear s = .next s) ∧
    (∀ n : Fin 256, (n.val = 0 ∨ s.hif.vfsOn < n.val → exec (.vfFlr n) s = .next s) ∧
      (0 < n.val → n.val ≤ s.hif.vfsOn → s.hif.perstIn = false → s.draining n = false → ∃ t, exec (.vfFlr n) s = .next t ∧
        (t.tenant n).drain = some .vfFlr ∧ t.windowShut n = true ∧ stopping t n ∧ t.fnCfg n = FnCfg.reset ∧ (∀ u ∈ t.hif.held, u.fn ≠ some n.val) ∧
        (∀ r ∈ t.ten.recs, r.tenant ≠ n.val) ∧ t.trd = s.trd ∧ t.out = s.out)) ∧
    (s.hif.perstIn = false → ∃ t, exec .pfFlr s = .next t ∧ t.hif.vfsOn = 0 ∧ t.hif.vfEnable = false ∧ t.linkUp = s.linkUp ∧ t.d3hot = false ∧
      t.trd = s.trd ∧ (∀ n < 256, t.fnCfg n = FnCfg.reset ∧ ∃ k, (t.tenant n).drain = some k ∧ DrainKind.pfFlr.rank ≤ k.rank)) ∧
    (∃ t, exec .perstAssert s = .next t ∧ t.hif.perstIn = true ∧ t.hif.hostReady = false ∧ t.hif.vfsOn = 0 ∧ t.linkUp = false ∧
      t.fld Reg.HIF_STATUS Reg.HIF_STATUS_PERST = 1 ∧ t.rd Reg.HIF_PTM_STATUS = 0#32 ∧ t.hif.held = [] ∧ t.trd = s.trd ∧
      (∀ n < 256, ∃ k, (t.tenant n).drain = some k ∧ DrainKind.perst.rank ≤ k.rank)) ∧
    (s.hif.perstIn = false → ∃ t, exec .vfEnableClear s = .next t ∧ t.hif.vfEnable = false ∧ t.hif.vfsOn = 0 ∧ t.trd = s.trd ∧
      (∀ n, 1 ≤ n → n ≤ s.hif.vfsOn → t.fnCfg n = FnCfg.reset ∧ t.draining n = true ∧ t.windowShut n = true) ∧
      ∀ n, s.hif.vfsOn < n ∨ n = 0 → (t.tenant n).drain = (s.tenant n).drain)

/-! Chapter 5: looms, the Heddle and the tensor operators. -/

/-- MATMUL: once what other looms have modified of its operands has come back (R314), each loom's tile takes the CCLK of R254 on its share of N
(R267); an integer output is the accumulator, A · B + C modulo 2^32, shifted right and narrowed under the ring's profile (R234, R245); a problem
of illegal extents, mode or footprint ends with SHAPE and writes nothing (R246 to R248). Row MATMUL. -/
def Obligations.MatmulComputesItsTile : Prop :=
  ∀ (s₀ : State) (g : Fin 1024) (q : Nat) (d : Desc) (s : State), s₀.opReady g q 0x0100 = some (d, s) →
    let refs := s.opRefs d 4
    let a := refAt refs 0
    let b := refAt refs 1
    let c := refAt refs 2
    let z := refAt refs 3
    let m := d.inl 0 2
    let n := d.inl 2 2
    let k := d.inl 4 2
    let outs := z.outRuns fun i j _ => (s.matmulElem d a b c z i j, s.blockDarn d.loom0 d.tenant a b m n k i j)
    let inputs := a.runs 0 ++ b.runs 1 ++ (if c.base = 0 then [] else c.runs 2)
    (∀ p : Nat × Nat, mxPair a.elem b.elem = some p → matmulLegal d refs = true → s.operandsReady d 128 inputs outs →
      ∃ t, exec (.matmul g q) s₀ = .next t ∧ s.operatorRuns t d outs fun r =>
        let w := shareCols n d.work.length r
        if w = 0 then 0 else ceilDiv (ceilDiv w 4 * ceilDiv (ceilDiv k p.1) 16) 4 * max (ceilDiv m 4) 4 * p.2 + 5) ∧
    (a.elem.float = none → z.elem.float = none → ∀ i j, s.matmulElem d a b c z i j =
      z.elem.narrow d.profile.sat (signedOf 32 ((((List.range k).map fun x =>
          a.elem.intOf (s.elemAt d.loom0 d.tenant a x j 0) * b.elem.intOf (s.elemAt d.loom0 d.tenant b i x 0)).sum +
        (if c.base = 0 then 0 else c.elem.intOf (s.elemAt d.loom0 d.tenant c i j 0))) % 2 ^ 32).toNat / 2 ^ d.inl 7 1)) ∧
    ((∃ r, r < d.work.length ∧ 0 < shareCols n d.work.length r ∧ scratchBytes d.l1q <
          a.elem.rowBytes (4 * ceilDiv m 4 * (4 * ceilDiv k 4)) + b.elem.rowBytes (4 * ceilDiv k 4 * (4 * ceilDiv (shareCols n d.work.length r) 4)) +
          z.elem.rowBytes (4 * ceilDiv m 4 * (4 * ceilDiv (shareCols n d.work.length r) 4)) +
          16 * ceilDiv m 4 * ceilDiv (shareCols n d.work.length r) 4 * 4) ∨
        m = 0 ∨ 256 < m ∨ n = 0 ∨ k = 0 ∨ 1024 < k ∨ (m % 4 = 0 ∧ n % 4 = 0 ∧ k % 4 = 0 ∧ d.inl 6 1 = 1) ∨
        (¬(m % 4 = 0 ∧ n % 4 = 0 ∧ k % 4 = 0) ∧ d.inl 6 1 = 0) →
      d.work ≠ [] → s.firstFault d.loom0 d.tenant false [(0, d.argPtr, 128)] = none →
      ∃ t, exec (.matmul g q) s₀ = .next t ∧ s.completes t d 0x32 0)

/-- The Bobbin operators write, for each element of Z, the operator's value of the inputs in Z's format under the ring's profile (Table 5.4,
Table 5.7), once what other looms have modified of the inputs has come back (R314); ones the spec only names, and a sum whose roundings depend on
its order, are the model's free functions (the log names them). Rows ELTWISE, ACTIVATE, REDUCE, SOFTMAX, NORM and CONVERT. -/
def Obligations.BobbinOperatorsRun : Prop :=
  ∀ (s₀ : State) (g : Fin 1024) (q code : Nat) (d : Desc) (s : State), s₀.opReady g q code = some (d, s) →
    let run := fun (i : Instr) (args : Nat) (ins : List (Nat × Nat × Nat)) (outs : List OutRun) =>
      s.operandsReady d args ins outs → ∃ t, exec i s₀ = .next t ∧ s.operatorRuns t d outs fun _ => 0
    let r := fun n k => refAt (s.opRefs d n) k
    let legal := fun n => ∀ x ∈ s.opRefs d n, x.legal false = true
    let at_ := fun (x : TRef) i j k => s.operand d x i j k
    let values := fun (x : TRef) j k => (s.operandRow d x j k).1
    let row := fun (x : TRef) j k => (values x j k).map Num.code32
    let dark := fun (x : TRef) j k => (s.operandRow d x j k).2
    (code = 0x0110 → legal 3 → (∀ k < 2, ((r 3 k).dim0 = (r 3 2).dim0 ∨ (r 3 k).dim0 = 1) ∧
        ((r 3 k).dim1 = (r 3 2).dim1 ∨ (r 3 k).dim1 = 1) ∧ ((r 3 k).dim2 = (r 3 2).dim2 ∨ (r 3 k).dim2 = 1)) → d.inl 0 2 ≤ 4 →
      run (.eltwise g q) 96 ((r 3 0).runs 0 ++ (r 3 1).runs 1) ((r 3 2).outRuns fun i j k =>
        let x := at_ (r 3 0) i j k
        let y := at_ (r 3 1) i j k
        ((r 3 2).code d.profile (match d.inl 0 2 with
          | 0 => (x.1.add y.1).round32
          | 1 => (x.1.add y.1.negate).round32
          | 2 => (x.1.mul y.1).round32
          | 3 => x.1.pick true y.1
          | _ => x.1.pick false y.1), x.2 || y.2))) ∧
    (code = 0x0118 → legal 2 → (r 2 0).sameShape (r 2 1) = true → d.inl 0 2 ≤ 4 →
      run (.activate g q) 64 ((r 2 0).runs 0) ((r 2 1).outRuns fun i j k =>
        ((r 2 1).code d.profile (activateNum (d.inl 0 2) (at_ (r 2 0) i j k).1), (at_ (r 2 0) i j k).2))) ∧
    (code = 0x0120 → legal 2 → (r 2 1).dim0 = 1 → (r 2 0).dim1 = (r 2 1).dim1 → (r 2 0).dim2 = (r 2 1).dim2 → d.inl 0 2 ≤ 2 →
      run (.reduce g q) 64 ((r 2 0).runs 0) ((r 2 1).outRuns fun _ j k =>
        ((r 2 1).code d.profile (match d.inl 0 2 with
          | 0 => (Num.exactSum (values (r 2 0) j k)).getD (num32 (Config.rowSum (row (r 2 0) j k)))
          | 1 => rowPick true (values (r 2 0) j k)
          | _ => rowPick false (values (r 2 0) j k)), dark (r 2 0) j k))) ∧
    (code = 0x0128 → legal 2 → (r 2 0).sameShape (r 2 1) = true → d.inl 0 2 = 0 →
      run (.softmax g q) 64 ((r 2 0).runs 0) ((r 2 1).outRuns fun i j k =>
        ((r 2 1).code d.profile (num32 (Config.softmax (row (r 2 0) j k) i)), dark (r 2 0) j k))) ∧
    (code = 0x0130 → legal 4 → (r 4 0).sameShape (r 4 3) = true → (r 4 1).dim0 = (r 4 0).dim0 → (r 4 2).dim0 = (r 4 0).dim0 →
        d.inl 0 2 ≤ 1 →
      run (.norm g q) 128 ((r 4 0).runs 0 ++ (r 4 1).runs 1 ++ (r 4 2).runs 2) ((r 4 3).outRuns fun i j k =>
        ((r 4 3).code d.profile (num32 (Config.norm (d.inl 0 2) (row (r 4 0) j k) i (at_ (r 4 1) i j k).1.code32
          (at_ (r 4 2) i j k).1.code32)), dark (r 4 0) j k || (at_ (r 4 1) i j k).2 || (at_ (r 4 2) i j k).2))) ∧
    (code = 0x0138 → legal 2 → (r 2 0).sameShape (r 2 1) = true → d.inl 0 2 = 0 →
      run (.convert g q) 64 ((r 2 0).runs 0) ((r 2 1).outRuns fun i j k =>
        ((r 2 1).code d.profile (at_ (r 2 0) i j k).1, (at_ (r 2 0) i j k).2)))

/-- The data movement operators copy codes unchanged: COPY every element, FILL a 32-bit pattern, GATHER the rows a list chooses and SCATTER the
rows a list places (Table 5.4); a darned input ends COPY with FAULT_UNCORR, and DARN_OK lets it through to its outputs (R400). Rows COPY, FILL,
GATHER and SCATTER. -/
def Obligations.DataMovementOperatorsRun : Prop :=
  ∀ (s₀ : State) (g : Fin 1024) (q code : Nat) (d : Desc) (s : State), s₀.opReady g q code = some (d, s) →
    let run := fun (i : Instr) (args : Nat) (ins : List (Nat × Nat × Nat)) (outs : List OutRun) =>
      s.operandsReady d args ins outs → ∃ t, exec i s₀ = .next t ∧ s.operatorRuns t d outs fun _ => 0
    let r := fun n k => refAt (s.opRefs d n) k
    let legal := fun n => ∀ x ∈ s.opRefs d n, x.legal false = true
    let elem := fun (x : TRef) i j k => s.elemAt d.loom0 d.tenant x i j k
    let darn := fun (x : TRef) i j k => s.elemDarn d.loom0 d.tenant x i j k
    let rowOf := fun (x : TRef) (va : Nat) => ({ x with base := va, dim1 := 1, dim2 := 1 } : TRef)
    (code = 0x0400 → legal 2 → (r 2 0).fmt = (r 2 1).fmt → (r 2 0).sameShape (r 2 1) = true → d.inl 0 2 = 0 →
      run (.copy g q) 64 ((r 2 0).runs 0) ((r 2 1).outRuns fun i j k => (elem (r 2 0) i j k, darn (r 2 0) i j k)) ∧
      (let outs := (r 2 1).outRuns fun i j k => (elem (r 2 0) i j k, darn (r 2 0) i j k)
       ∀ x, s.firstFault d.loom0 d.tenant false [(0, d.argPtr, 64)] = none → s.firstFault d.loom0 d.tenant false ((r 2 0).runs 0) = none →
        s.firstFault d.loom0 d.tenant true (outs.map fun o => (15, o.va, o.data.length)) = none → s.fed d = true →
        x ∈ (r 2 0).runs 0 → s.vaPoison d.loom0 d.tenant x.2.1 x.2.2 = true →
        (d.darnOk = false → ∃ t p, exec (.copy g q) s₀ = .next t ∧ t.mem = s.mem ∧ t.ten.recs = s.ten.recs ++ [p] ∧ p.ring = d.ring ∧
          p.seq = d.seq ∧ bytesAt p.data 8 1 = 0x12 ∧ bytesAt p.data 9 1 = 2) ∧
        (d.darnOk = true → ∃ t e, exec (.copy g q) s₀ = .next t ∧ t.mem = (s.writeRuns d d.loom0 outs).mem ∧ t.desc? d.ring d.seq = some e ∧
          e.darned = (d.darned || outs.any fun o => o.darn) ∧ (∀ w ∈ e.work, w.ended = true) ∧ t.ten.recs = s.ten.recs))) ∧
    (code = 0x0401 → legal 1 → d.inl 0 2 = 0 →
      run (.fill g q) 32 [] ((r 1 0).rows.map fun x =>
        { va := (r 1 0).rowVa x.1 x.2,
          data := (List.range (r 1 0).rowLen).map fun i => BitVec.ofNat 8 (d.inl 4 4 / 256 ^ (i % 4)), darn := false })) ∧
    (code = 0x0402 → legal 3 → (r 3 0).fmt = (r 3 2).fmt → (r 3 1).elem = .int32 → (r 3 1).dim0 = (r 3 2).dim1 →
        (r 3 0).dim0 = (r 3 2).dim0 → (r 3 0).dim2 = (r 3 2).dim2 → d.inl 0 2 = 0 →
        (∀ x ∈ (r 3 2).rows, 0 ≤ s.listIndex d (r 3 1) x.1 x.2 ∧ s.listIndex d (r 3 1) x.1 x.2 < (r 3 0).dim1) →
      run (.gather g q) 96 ((r 3 1).runs 1 ++ (r 3 2).rows.map fun x =>
          (0, (r 3 0).rowVa (s.listIndex d (r 3 1) x.1 x.2).toNat x.2, (r 3 0).rowLen))
        ((r 3 2).outRuns fun i j k => (elem (r 3 0) i (s.listIndex d (r 3 1) j k).toNat k,
          darn (r 3 0) i (s.listIndex d (r 3 1) j k).toNat k || darn (r 3 1) j 0 (bcast (r 3 1).dim2 k)))) ∧
    (code = 0x0403 → legal 3 → (r 3 0).fmt = (r 3 2).fmt → (r 3 1).elem = .int32 → (r 3 1).dim0 = (r 3 0).dim1 →
        (r 3 0).dim0 = (r 3 2).dim0 → (r 3 0).dim2 = (r 3 2).dim2 → d.inl 0 2 = 0 →
        (∀ x ∈ (r 3 0).rows, 0 ≤ s.listIndex d (r 3 1) x.1 x.2 ∧ s.listIndex d (r 3 1) x.1 x.2 < (r 3 2).dim1) →
      run (.scatter g q) 96 ((r 3 0).runs 0 ++ (r 3 1).runs 1) ((r 3 0).rows.flatMap fun x =>
        (rowOf (r 3 0) ((r 3 2).rowVa (s.listIndex d (r 3 1) x.1 x.2).toNat x.2)).outRuns
          fun i _ _ => (elem (r 3 0) i x.1 x.2, darn (r 3 0) i x.1 x.2)))

/-- The control operators complete in their dispatch CCLK without a loom, LOOM_CFG setting the ring's profile, and one still undispatched at its
DEADLINE times out (R197, R260, R263); WAIT_STAMP completes at the later of that time and 2 CCLK after its stamp matched, and does nothing until
then (R36, R261). LOOM_BIST ends 2,000,000 CCLK after its looms began, completes with DONE either way, leaves zeros in the scratchpad of every loom
tested, and one that failed is failing (R285). Rows NOP, FENCE, WAIT_STAMP, LOOM_CFG and LOOM_BIST. -/
def Obligations.ControlOperatorsComplete : Prop :=
  ∀ (s : State) (g : Fin 1024) (q : Nat) (d e : Desc) (c : Nat),
    let s0 := s.elapseTo c
    (s.desc? g q = some d → d.dispAt = some c → d.phase = .waiting → d.coll = false → s0.desc? g q = some e →
      let late := e.deadlineEn = true ∧ s0.trd.now.atOrAfter e.deadline = true
      (∀ i ∈ [(Instr.nop g q, 0x0F00), (.fence g q, 0x0F01), (.loomCfg g q, 0x0F03)], d.opcode = i.2 →
        late → ∃ t, exec i.1 s = .next t ∧ s0.completes t e 0x20 1) ∧
      (¬late → e.stopped = false → e.darned = false →
        (d.opcode = 0x0F00 → ∃ t, exec (.nop g q) s = .next t ∧ s0.completes t e 0 0) ∧
        (d.opcode = 0x0F01 → ∃ t, exec (.fence g q) s = .next t ∧ s0.completes t e 0 0) ∧
        (d.opcode = 0x0F03 → ∃ t, exec (.loomCfg g q) s = .next t ∧
          (s0.setRing g { s0.ring g with profile := (t.ring g).profile }).completes t e 0 0 ∧
          (t.ring g).profile = ⟨(e.inl 0 1).testBit 0, (e.inl 0 1).testBit 1, (e.inl 0 1).testBit 2, e.inl 2 2, e.inl 8 8⟩))) ∧
    (s.desc? g q = some d → d.dispAt = some c → d.opcode = 0x0F02 → s0.desc? g q = some e →
      (e.waitHit = none → exec (.waitStamp g q) s = .next s) ∧
      ∀ h w, e.waitHit = some h →
        let u := s0.elapseTo (h + 2)
        u.desc? g q = some w → w.dispAt = some c → c ≤ u.trd.cclk → w.phase = .waiting → w.coll = false → w.opcode = 0x0F02 →
        w.stopped = false → w.darned = false →
        ∃ t, exec (.waitStamp g q) s = .next t ∧
          if w.deadlineEn = true ∧ u.trd.now.atOrAfter w.deadline = true then u.completes t w 0x20 1 else u.completes t w 0 0) ∧
    ∀ failed : List (Fin 34), s.opDesc? g q 0x0F10 = some d → s.looms.length = 34 →
      let tested := s.bistLooms d
      let s1 := s.elapseTo ((d.work.map fun w => w.began).foldl max 0 + 2000000)
      s1.desc? g q = some e →
      let s2 := tested.foldl (fun t p => t.onLoom p Loom.wiped) s1
      let u := s2.completeDesc e 0 0
      ∃ t, exec (.loomBist g q failed) s = .next t ∧ s2.completes u e (e.finalStatus 0) 0 ∧
        (∀ p ∈ tested, (u.loom p).scratch = [] ∧ (u.loom p).unknown = none) ∧
        ((∀ p ∈ tested, (u.loom p).work = none) → t = { u with looms := t.looms } ∧ ∀ p, p < 34 → t.loom p =
          if p ∈ tested ∧ (∃ f ∈ failed, f.val = p) ∧ ((u.loom p).state = .active ∨ (u.loom p).state = .spare)
          then { u.loom p with state := .failing, cause := 2, failedAt := u.trd.cclk } else u.loom p)

/-- A failing loom takes no further dispatch and stops its descriptor on all its looms: the first time it re-executes from its start on newly
chosen looms, the second time it ends with ABORT_LOOM (R273, R274, R276 to R278); a corrected error is counted, and the one that reaches CE_LIMIT
makes its loom failing (R273, R293); LOM_DENY takes its bits and keeps denied spares out of service; at a shed launch stamp the looms found failing
before it and free denied ones leave service, and the lowest-numbered spares take their logical numbers in ascending order (R280, R281, R284). Rows
LOOM_FAILURE, REEXECUTION, LOM_DENY_WRITE and LOOM_RETIRE. -/
def Obligations.LoomsFailAndRetire : Prop :=
  ∀ s : State, s.looms.length = 34 →
    (∀ (p : Fin 34), ∀ f ∈ [(LoomFault.mxParity, 3), (.arrayUncorrectable, 4), (.cacheUncorrectable, 6)],
      let bad := { s.loom p with state := .failing, cause := f.2, failedAt := s.trd.cclk }
      ((s.loom p).state ≠ .active → (s.loom p).state ≠ .spare → exec (.loomFailure p f.1) s = .next s) ∧
      ((s.loom p).state = .active ∨ (s.loom p).state = .spare →
        ((s.loom p).work = none → ∃ t, exec (.loomFailure p f.1) s = .next t ∧ t.loom p = bad ∧
          (∀ x, x ≠ p.val → t.loom x = s.loom x) ∧ t = { s with looms := t.looms }) ∧
        (∀ g q, (s.loom p).work = some (g, q) → s.desc? g q = none → ∃ t, exec (.loomFailure p f.1) s = .next t ∧ t.loom p = bad ∧
          (∀ x, x ≠ p.val → t.loom x = s.loom x) ∧ t = { s with looms := t.looms }) ∧
        ∀ g q d, (s.loom p).work = some (g, q) → s.desc? g q = some d → ∃ t, exec (.loomFailure p f.1) s = .next t ∧
          (t.loom p).state = .failing ∧ (t.loom p).cause = f.2 ∧ (∀ l ∈ t.looms, l.work ≠ some (g, q)) ∧
          (d.stopped = false → ∃ e, t.desc? g q = some e ∧ e.phase = .rerun ∧ e.stopped = true ∧ e.work = [] ∧ e.start = d.start ∧
            t = { s with looms := t.looms, ten := t.ten, sht := t.sht, slv := t.slv }) ∧
          (d.stopped = true → t.desc? g q = none ∧ ∃ r, t.ten.recs = s.ten.recs ++ [r] ∧ bytesAt r.data 8 1 = 0x22))) ∧
    (∀ p : Fin 34,
      let limit := s.fld Reg.LOM_RETIRE_CFG Reg.LOM_RETIRE_CFG_CE_LIMIT
      let n := (s.loom p).ceFrame + 1
      ∃ t, exec (.loomFailure p .corrected) s = .next t ∧ t.rd Reg.LOM_CE_CNT = counted (s.rd Reg.LOM_CE_CNT) ∧ (t.loom p).ceFrame = n ∧
        (limit = 0 ∨ n < limit → (t.loom p).state = (s.loom p).state ∧ t = { s with looms := t.looms, regs := t.regs }) ∧
        (limit ≠ 0 → limit ≤ n → (s.loom p).state = .active ∨ (s.loom p).state = .spare →
          (t.loom p).state = .failing ∧ (t.loom p).cause = 5 ∧ (t.loom p).failedAt = s.trd.cclk ∧
          ((s.loom p).work = none → t = { s with looms := t.looms, regs := t.regs }))) ∧
    (∀ (g : Fin 1024) q d, s.desc? g q = some d →
      (d.phase ≠ .rerun ∨ s.freeFor (s.ringLive d.ring) < d.looms → exec (.reexecution g q) s = .next s) ∧
      (d.phase = .rerun → d.looms ≤ s.freeFor (s.ringLive d.ring) →
        ∃ t e, exec (.reexecution g q) s = .next t ∧ t.desc? g q = some e ∧ e.phase = .running ∧ e.start = d.start ∧
          e.work.length = d.looms ∧ (∀ w ∈ e.work, w.loom ∈ s.freePool) ∧ t.rd Reg.HED_REEXEC_CNT = counted (s.rd Reg.HED_REEXEC_CNT) ∧
          t.trd = s.trd ∧ t.mem.dram = s.mem.dram)) ∧
    (∀ high v, ∃ t, exec (.lomDenyWrite high v) s = .next t ∧ t = { s with regs := t.regs, looms := t.looms } ∧
      (∀ p, p < 34 → t.loom p = if (s.loom p).state = .spare ∧ t.denied p = true then { s.loom p with state := .denied } else s.loom p) ∧
      (high = false → t.rd Reg.LOM_DENY_LO = v ∧ ∀ o, o ≠ Reg.LOM_DENY_LO → t.rd o = s.rd o) ∧
      (high = true → t.fld Reg.LOM_DENY_HI Reg.LOM_DENY_HI_DENY = Reg.LOM_DENY_HI_DENY.get v ∧
        ∀ o, o ≠ Reg.LOM_DENY_HI → t.rd o = s.rd o)) ∧
    (s.shedNow = none → exec .loomRetire s = .next s) ∧
    ∀ f i, s.shedNow = some (f, i) →
      (s.darkFrame f = true → exec .loomRetire s = .next s) ∧
      (s.darkFrame f = false →
        let s0 := State.elapse (s.toAction (s.launchStamp f i)) s
        let leaves := fun p => ((s0.loom p).state == .failing && decide ((s0.loom p).failedAt < s.trd.cclk - s.trd.now.cyc)) ||
          ((s0.loom p).state == .active && s0.denied p && (s0.loom p).work.isNone)
        let gone := (List.range 32).flatMap fun n => (List.range 34).filter fun p => (s0.loom p).logical == n && leaves p
        let spares := (List.range 34).filter fun p => (s0.loom p).state == .spare
        ∃ t, exec .loomRetire s = .next t ∧
          (∀ p, p < 34 → leaves p = true → (s0.loom p).logical ≤ 32 → (t.loom p).state = .retired ∧ (t.loom p).logical = 32 ∧
            (t.loom p).cause = if (s0.loom p).state = .failing then (s0.loom p).cause else 7) ∧
          (∀ p, p < 34 → leaves p = false → (s0.loom p).state ≠ .spare →
            (t.loom p).state = (s0.loom p).state ∧ (t.loom p).logical = (s0.loom p).logical) ∧
          ∀ (k p x : Nat), gone[k]? = some p → spares[k]? = some x → (t.loom x).state = .active ∧ (t.loom x).logical = (s0.loom p).logical)

/-! Chapter 6: memory. -/

/-- Each aligned 1,536-byte block holds exactly one line for each slice, and is one line number of every channel (R294). -/
def Obligations.EverySliceHoldsOneLineOfABlock : Prop :=
  ∀ b k : Nat, k < 12 →
    (∃ i, i < 12 ∧ sliceOf (1536 * b + 128 * i) = k ∧ ∀ j, j < 12 → sliceOf (1536 * b + 128 * j) = k → j = i) ∧
    ∀ x, x < 1536 → chanLine (1536 * b + x) = b

/-- Reads and writes at the Spool, each in its turn at its slice (R306): a hit answers 42 CCLK on with the line, a line of an unwritten granule reads
zeros and is counted, a miss opens a register and asks DRAM, joins one or is held and counted; beyond DRAM a read gives zeros and a write nothing;
a write lands in its line alone; in coherent mode what an E or M holder may have modified is recalled first, and a write takes every L1 copy; a corrected
error is counted, an uncorrectable one poisons its line (R296, R299, R301, R302, R305, R309, R313, R314, R321, R322, R326, R327, R847, R849). Rows SPOOL_REQUEST
and SPOOL_WRITE. -/
def Obligations.TheSpoolServesReadsAndWrites : Prop :=
  ∀ (s : State) (req : Fin 38) (tag pa : Nat) (cls : MemClass),
    let u := s.takeAt pa req
    let read := exec (.spoolRequest req tag pa cls .none) s
    let gives := fun (t : State) (d : List Byte) (darn : Bool) => t.mem.arrived = u.mem.arrived ++ [⟨u.trd.cclk + 42, req, tag, lineOf pa, d, darn⟩]
    let busy := u.mem.trans.any fun x => x.pa == lineOf pa
    ((∀ x, tblFind s.mem.taken (sliceOf pa) = some x → x.1 = s.trd.cclk → req.val < x.2 → u = { s.tick with mem := { s.tick.mem with taken := u.mem.taken } }) ∧
      ((∀ x, tblFind s.mem.taken (sliceOf pa) = some x → ¬(x.1 = s.trd.cclk ∧ req.val < x.2)) → u = { s with mem := { s.mem with taken := u.mem.taken } })) ∧
    (u.dramTop ≤ pa →
      (let darn := decide (req.val < 32 ∧ tag < 16) && (u.chan req tag).raster
       ∃ t, read = .next t ∧ gives t (List.replicate 128 0#8) darn ∧
        (darn = false → t = { u with mem := t.mem, sht := t.sht, looms := t.looms })) ∧
      ∀ data d, ∃ t, exec (.spoolWrite req tag pa data cls d) s = .next t ∧ gives t [] false ∧ t.mem.dram = u.mem.dram ∧
        t.mem.spool = u.mem.spool ∧ t = { u with mem := t.mem, sht := t.sht }) ∧
    (pa < u.dramTop →
      (∀ l, u.line? pa = some l →
        (u.cohAccess req pa cls = false ∨ (busy = false ∧ (l.dir = .inv ∨ l.dir = .shared)) →
          (∃ t, read = .next t ∧ gives t l.data l.poison ∧ (l.poison = false → t = { u with mem := t.mem, sht := t.sht, looms := t.looms }) ∧
            ∀ a, t.memByte a = u.memByte a) ∧
          (l.poison = false → ∃ t, exec (.spoolRequest req tag pa cls .corrected) s = .next t ∧ gives t l.data false ∧
            t.rd Reg.SPL_CE_CNT = counted (u.rd Reg.SPL_CE_CNT) ∧ t = { u with mem := t.mem, sht := t.sht, looms := t.looms, regs := t.regs }) ∧
          ∀ e, e = .uncorrectable ∨ (e = .tagParity ∧ l.dirty = true) → u.wayOf pa ≠ none → ∃ t l', exec (.spoolRequest req tag pa cls e) s = .next t ∧
            gives t l.data true ∧ t.line? pa = some l' ∧ l'.poison = true ∧ l'.data = l.data ∧
            t.rd Reg.SPL_UE_CNT = if l.poison = true then u.rd Reg.SPL_UE_CNT else counted (u.rd Reg.SPL_UE_CNT)) ∧
        (u.cohAccess req pa cls = true → busy = true → ∃ t x, read = .next t ∧ t.mem.trans = u.mem.trans ++ [x] ∧ x.kind = .later ∧
          x.pa = lineOf pa ∧ x.waiter.req = req.val ∧ x.waiter.tag = tag ∧ t = { u with mem := { u.mem with trans := t.mem.trans } }) ∧
        (u.cohAccess req pa cls = true → busy = false → l.dir = .excl ∨ l.dir = .modified → ∀ b, l.holders = [b] → ∃ t x, read = .next t ∧
          t.mem.trans = u.mem.trans ++ [x] ∧ x.kind = .recall ∧ x.holder = b ∧ x.pa = lineOf pa ∧ x.waiter.req = req.val ∧ x.waiter.tag = tag ∧
          t = { u with mem := { u.mem with trans := t.mem.trans } }) ∧
        (∀ w, l.dirty = false → u.wayOf pa = some w → ({ u with mem := { u.mem with spool := tblDel u.mem.spool (spoolKey pa w) } } : State).line? pa = none →
          (∀ m ∈ u.mem.mshrs, m.pa ≠ lineOf pa) → u.granuleSet pa = true → u.mshrFree (sliceOf pa) cls = true →
          ∃ t m, exec (.spoolRequest req tag pa cls .tagParity) s = .next t ∧ t.line? pa = none ∧ t.mem.mshrs = u.mem.mshrs ++ [m] ∧ m.pa = lineOf pa ∧
            t = { u with mem := t.mem })) ∧
      (u.line? pa = none → (∀ m ∈ u.mem.mshrs, m.pa ≠ lineOf pa) →
        (u.granuleSet pa = false → ∃ t, read = .next t ∧ gives t (List.replicate 128 0#8) false ∧
          t.rd Reg.DMC_WMAP_ZERO_CNT = counted (u.rd Reg.DMC_WMAP_ZERO_CNT) ∧ t.mem.spool = u.mem.spool ∧ t.mem.queue = u.mem.queue ∧
          t = { u with mem := t.mem, sht := t.sht, looms := t.looms, regs := t.regs } ∧ ∀ o, o ≠ Reg.DMC_WMAP_ZERO_CNT → t.rd o = u.rd o) ∧
        (u.granuleSet pa = true → u.mshrFree (sliceOf pa) cls = true → ∃ t, read = .next t ∧
          (∃ m, t.mem.mshrs = u.mem.mshrs ++ [m] ∧ m.pa = lineOf pa ∧ m.cls = cls ∧ m.rasWays = u.rasWays ∧ m.data = none ∧
            m.waiters.map (fun w => (w.req, w.tag, w.write)) = [(req.val, tag, none)]) ∧
          (∃ q ∈ t.mem.queue, q.kind = .read ∧ q.pa = lineOf pa ∧ q.chan = sliceOf pa ∧ q.cls = cls ∧ q.req = req.val ∧ q.cclk = u.trd.cclk) ∧
          t = { u with mem := t.mem } ∧ ∀ a, t.memByte a = u.memByte a) ∧
        (u.granuleSet pa = true → u.mshrFree (sliceOf pa) cls = false → ∃ t h, read = .next t ∧
          t.rd Reg.SPL_MSHR_FULL_CNT = counted (u.rd Reg.SPL_MSHR_FULL_CNT) ∧ t.mem.heldMiss = u.mem.heldMiss ++ [h] ∧ h.pa = lineOf pa ∧
          h.waiter.req = req.val ∧ h.waiter.tag = tag ∧ t = { u with mem := { u.mem with heldMiss := t.mem.heldMiss }, regs := t.regs })) ∧
      (u.line? pa = none → (∃ m ∈ u.mem.mshrs, m.pa = lineOf pa) → ∃ t, read = .next t ∧
        t.mem.queue = u.mem.queue ∧ t.mem.mshrs.length = u.mem.mshrs.length ∧
        (∃ m ∈ t.mem.mshrs, m.pa = lineOf pa ∧ ∃ w ∈ m.waiters, w.req = req.val ∧ w.tag = tag) ∧
        t.rd Reg.SPL_MCAST_CNT = counted (u.rd Reg.SPL_MCAST_CNT)) ∧
      ∀ data : List Byte, pa % 128 + data.length ≤ 128 →
        (∀ l, u.line? pa = some l → l.pa = lineOf pa → l.data.length = 128 →
          (u.cohAccess req pa cls = false ∨ (busy = false ∧ (l.dir = .inv ∨ l.dir = .shared ∨ data.length = 128)) →
            ∃ t, exec (.spoolWrite req tag pa data cls false) s = .next t ∧ gives t [] false ∧
              (∃ l', t.line? pa = some l' ∧ l'.dirty = true ∧ l'.cls = cls ∧ l'.writer = req.val ∧
                (u.cohAccess req pa cls = false → l'.dir = l.dir ∧ l'.holders = l.holders) ∧
                (u.cohAccess req pa cls = true → l'.dir = .inv ∧ l'.holders = [] ∧ ∀ x ∈ t.mem.l1, x.coh = true → x.pa ≠ lineOf pa)) ∧
              (∀ i (h : i < data.length), t.memByte (pa + i) = data[i]) ∧
              (∀ a, a < pa ∨ pa + data.length ≤ a → t.memByte a = u.memByte a) ∧ t = { u with mem := t.mem, sht := t.sht }) ∧
          (u.cohAccess req pa cls = true → busy = false → l.dir = .excl ∨ l.dir = .modified → data.length < 128 → ∀ b, l.holders = [b] →
            ∃ t x, exec (.spoolWrite req tag pa data cls false) s = .next t ∧ t.mem.trans = u.mem.trans ++ [x] ∧ x.kind = .recallWrite ∧ x.holder = b ∧
              x.waiter.write = some (pa % 128, data) ∧ t = { u with mem := { u.mem with trans := t.mem.trans } })) ∧
        (u.line? pa = none → (∀ m ∈ u.mem.mshrs, m.pa ≠ lineOf pa) →
          (data.length = 128 ∨ u.granuleSet pa = false → cls ≠ .raster ∨ u.rasWays ≠ 0 →
            ∃ t l, exec (.spoolWrite req tag pa data cls false) s = .next t ∧ gives t [] false ∧ t.line? pa = some l ∧
              l.dirty = true ∧ l.data = patch (List.replicate 128 0#8) (pa % 128) data ∧ l.writer = req.val ∧ t.mem.dram = u.mem.dram ∧
              ((∃ w ∈ waysFor cls u.rasWays, tblFind u.mem.spool (spoolKey pa w) = none) →
                ∀ a, a < pa ∨ pa + data.length ≤ a → t.memByte a = u.memByte a)) ∧
          (data.length ≠ 128 → u.granuleSet pa = true → u.mshrFree (sliceOf pa) cls = true → ∃ t m,
            exec (.spoolWrite req tag pa data cls false) s = .next t ∧ t.mem.mshrs = u.mem.mshrs ++ [m] ∧ m.pa = lineOf pa ∧
            m.waiters.map (fun w => (w.req, w.tag, w.write)) = [(req.val, tag, some (pa % 128, data))] ∧ t = { u with mem := t.mem })))

/-- Fills: the line of a miss register whose data has returned takes the waiting writes in the waiters' order and is kept, and every waiter is
served in the fill's CCLK (R303, R304), a coherent reader of an L1 holding it in E, one that asked to write in M (Table 6.4); the write-backs of
a granule enter their queues once its zero writes are granted (R323). Rows SPOOL_FILL and GRANULE_ZERO_FILL. -/
def Obligations.FillsServeTheirWaiters : Prop :=
  ∀ s : State,
    (∀ pa r m, (s.mem.mshrs.find? fun m => m.pa == lineOf pa) = some m → ∀ d, m.data = some d → m.poison = false →
      (∀ w ∈ m.waiters, w.darned = false) →
      let u := s.elapseTo m.fillAt
      let data := m.waiters.foldl (fun d w => match w.write with | some (off, x) => patch d off x | none => d) d
      let written := m.waiters.any fun w => w.write.isSome
      ∃ t, exec (.spoolFill pa r) s = .next t ∧
        (∀ w ∈ m.waiters, (⟨u.trd.cclk, w.req, w.tag, lineOf pa, if w.write.isSome then [] else data, false⟩ : Delivery) ∈ t.mem.arrived) ∧
        ((∀ h ∈ u.mem.heldMiss, sliceOf h.pa ≠ sliceOf pa) → u.line? pa = none → waysFor m.cls m.rasWays ≠ [] →
          ∃ l, t.line? pa = some l ∧ l.data = data ∧ l.dirty = written ∧ t.mem.dram = u.mem.dram ∧ (∀ x ∈ t.mem.mshrs, x.pa ≠ m.pa) ∧
            ((∀ w ∈ m.waiters, w.want = .no) → l.dir = .inv ∧ l.holders = []) ∧
            ∀ w, m.waiters = [w] →
              (w.want = .read → l.dir = .excl ∧ l.holders = [w.req] ∧ ⟨w.req, m.pa, true, data, false⟩ ∈ t.mem.l1) ∧
              (w.want = .own → l.dir = .modified ∧ l.holders = [w.req] ∧ ⟨w.req, m.pa, true, data, false⟩ ∈ t.mem.l1))) ∧
    ∀ g z, (s.mem.zeroing.find? fun z => z.granule == g) = some z →
      ((∃ q ∈ s.mem.queue, q.kind = .zero ∧ q.pa / 4096 = g) → exec (.granuleZeroFill g) s = .next s) ∧
      ((∀ q ∈ s.mem.queue, q.kind = .zero → q.pa / 4096 ≠ g) → ∃ t, exec (.granuleZeroFill g) s = .next t ∧
        (∀ y ∈ t.mem.zeroing, y.granule ≠ g) ∧
        (∀ q ∈ z.wbs, ∃ x ∈ t.mem.queue, x.kind = .write ∧ x.pa = lineOf q.pa ∧ x.data = q.data ∧ x.cls = q.cls ∧ x.req = q.req) ∧
        (∀ q ∈ s.mem.queue, q ∈ t.mem.queue) ∧ t = { s with mem := t.mem } ∧ ∀ a, t.memByte a = s.memByte a)

/-- The directory makes the transitions of Table 6.4, one transaction of a line at a time, for the lines of coherent windows that a loom's L1 asks for
(R307, R313 to R318); in read-only-near mode an L1 reads what it holds and keeps no coherent copy (R309, R311), and a loom without an L1 portion acts
on the Spool copy (R236). Rows DIRECTORY_READ, DIRECTORY_READ_FOR_WRITE, DIRECTORY_UPGRADE, DIRECTORY_EVICTION, SNOOP and EVICTION_ACK. -/
def Obligations.TheDirectoryMakesItsTransitions : Prop :=
  ∀ (s : State) (a : Fin 32) (tag pa : Nat),
    let u := s.takeAt pa a
    let gives := fun (t : State) (n : Nat) (d : List Byte) (p : Bool) => t.mem.arrived = u.mem.arrived ++ [⟨u.trd.cclk + n, a, tag, lineOf pa, d, p⟩]
    let asks := fun (t : State) (kind : DirKind) (holder : List Nat) => ∃ x, t.mem.trans = u.mem.trans ++ [x] ∧ x.kind = kind ∧ x.pa = lineOf pa ∧
      (∀ b ∈ holder, x.holder = b) ∧ x.waiter.req = a.val ∧ t = { u with mem := { u.mem with trans := t.mem.trans } }
    let reads := [Instr.directoryRead a tag pa, .directoryReadForWrite a tag pa]
    (u.dramTop ≤ pa → ∀ i ∈ reads, ∃ t, exec i s = .next t ∧ gives t 42 (List.replicate 128 0#8) false ∧
      t = { u with mem := t.mem, sht := t.sht, looms := t.looms }) ∧
    (pa < u.dramTop →
      (u.l1qOf a = 0 → ∀ i ∈ reads, exec i s = exec (.spoolRequest (a.castLE (by omega)) tag pa (u.loomClass a) .none) s) ∧
      (u.l1qOf a ≠ 0 → u.cohL1 a pa = false →
        (∀ x, (u.mem.l1.find? fun x => x.loom == a.val && x.pa == lineOf pa) = some x → ∃ t, exec (.directoryRead a tag pa) s = .next t ∧
          gives t 6 x.data x.darn ∧ t.mem.spool = u.mem.spool) ∧
        ((u.mem.l1.find? fun x => x.loom == a.val && x.pa == lineOf pa) = none → ∀ l, u.line? pa = some l →
          ∃ t, exec (.directoryRead a tag pa) s = .next t ∧ gives t 42 l.data l.poison ∧
            ∀ x ∈ t.mem.l1, x ∈ u.mem.l1 ∨ (x = ⟨a.val, lineOf pa, false, l.data, l.poison⟩ ∧ u.l1Room a pa = true)) ∧
        ∃ t, exec (.directoryUpgrade a pa) s = .next t ∧ t.mem.l1 = u.mem.l1.filter (fun x => !(x.pa == lineOf pa && x.loom == a.val)) ∧
          t = { u with mem := { u.mem with l1 := t.mem.l1 } }) ∧
      (u.l1qOf a ≠ 0 → u.cohL1 a pa = true →
        (u.l1Room a pa = false → ∀ i ∈ Instr.directoryUpgrade a pa :: reads, exec i s = .next s) ∧
        (u.l1Room a pa = true →
          (u.dirBusy pa = true → ∀ i ∈ Instr.directoryUpgrade a pa :: reads, ∃ t, exec i s = .next t ∧ asks t .later []) ∧
          (u.dirBusy pa = false → u.line? pa = none → u.granuleSet pa = false → (∀ m ∈ u.mem.mshrs, m.pa ≠ lineOf pa) →
            (∃ t, exec (.directoryRead a tag pa) s = .next t ∧ gives t 42 (List.replicate 128 0#8) false ∧ t.mem.l1 = u.mem.l1 ∧
              t.mem.spool = u.mem.spool ∧ t.rd Reg.DMC_WMAP_ZERO_CNT = counted (u.rd Reg.DMC_WMAP_ZERO_CNT)) ∧
            (waysFor (u.loomClass a) u.rasWays ≠ [] → ∃ t x, exec (.directoryReadForWrite a tag pa) s = .next t ∧
              gives t 42 (List.replicate 128 0#8) false ∧ t.line? pa = some x ∧ x.dir = .modified ∧ x.holders = [a.val] ∧
              x.data = List.replicate 128 0#8)) ∧
          ∀ w l, u.wayOf pa = some w → u.line? pa = some l → u.dirBusy pa = false →
            let entry := fun (t : State) dir hs => ∃ x, t.line? pa = some x ∧ x.dir = dir ∧ x.holders = hs ∧ x.data = l.data ∧ x.dirty = l.dirty
            let sole := fun (t : State) => ∀ x ∈ t.mem.l1, x.coh = true → x.pa = lineOf pa → x.loom = a.val
            let held := (⟨a.val, lineOf pa, true, l.data, l.poison⟩ : L1Line)
            (l.dir = .inv → ∃ t, exec (.directoryRead a tag pa) s = .next t ∧ entry t .excl [a.val] ∧ gives t 42 l.data l.poison ∧
              held ∈ t.mem.l1 ∧ t.mem.dram = u.mem.dram) ∧
            (l.dir = .shared → ∃ t, exec (.directoryRead a tag pa) s = .next t ∧ entry t .shared (insertNat a l.holders) ∧
              gives t 42 l.data l.poison ∧ held ∈ t.mem.l1) ∧
            (∀ b hs, l.holders = b :: hs → l.dir = .excl ∨ l.dir = .modified →
              (b ≠ a.val →
                (∃ t, exec (.directoryRead a tag pa) s = .next t ∧ asks t .read [b]) ∧
                (∃ t, exec (.directoryReadForWrite a tag pa) s = .next t ∧ asks t .readForWrite [b])) ∧
              (b = a.val → (∃ t, exec (.directoryRead a tag pa) s = .next t ∧ entry t l.dir l.holders ∧ gives t 42 l.data l.poison) ∧
                ∃ t, exec (.directoryReadForWrite a tag pa) s = .next t ∧ entry t .modified [a.val] ∧ gives t 42 l.data l.poison ∧ sole t)) ∧
            (l.dir = .inv ∨ l.dir = .shared → ∃ t, exec (.directoryReadForWrite a tag pa) s = .next t ∧ entry t .modified [a.val] ∧
              gives t 42 l.data l.poison ∧ sole t ∧ held ∈ t.mem.l1) ∧
            (l.dir = .shared → a.val ∈ l.holders → ∃ t, exec (.directoryUpgrade a pa) s = .next t ∧ entry t .modified [a.val] ∧ sole t ∧
              t = { u with mem := t.mem } ∧ t.mem.arrived = u.mem.arrived)))) ∧
    (∀ modified, 16 ≤ (s.mem.wb.filter fun x => x.loom == a.val).length → exec (.directoryEviction a pa modified) s = .next s) ∧
    (∀ modified, (s.mem.wb.filter fun x => x.loom == a.val).length < 16 →
      (u.dirBusy pa = true → ∃ t x, exec (.directoryEviction a pa modified) s = .next t ∧ t.mem.trans = u.mem.trans ++ [x] ∧ x.kind = .evict ∧
        x.pa = lineOf pa ∧ x.holder = a.val ∧ ⟨a.val, lineOf pa, modified⟩ ∈ t.mem.wb ∧ t.mem.spool = u.mem.spool) ∧
      ∀ w l, u.wayOf pa = some w → u.line? pa = some l → u.dirBusy pa = false →
        (a.val ∈ l.holders → ∃ t x, exec (.directoryEviction a pa modified) s = .next t ∧ t.line? pa = some x ∧
          x.holders = l.holders.filter (· ≠ a.val) ∧ x.dir = (if x.holders = [] then DirState.inv else DirState.shared) ∧
          x.data = (match modified with | some d => patch l.data 0 d | none => l.data) ∧
          x.dirty = (l.dirty || modified.isSome) ∧ (modified.isSome → x.writer = a.val) ∧
          (∀ y ∈ t.mem.l1, y.pa = lineOf pa → y.loom ≠ a.val) ∧ ⟨a.val, lineOf pa, modified⟩ ∈ t.mem.wb ∧ t = { u with mem := t.mem }) ∧
        (a.val ∉ l.holders → ∃ t, exec (.directoryEviction a pa modified) s = .next t ∧ t.line? pa = some l ∧
          t.rd Reg.SPL_STALE_EVICT_CNT = counted (u.rd Reg.SPL_STALE_EVICT_CNT) ∧ ⟨a.val, lineOf pa, modified⟩ ∈ t.mem.wb)) ∧
    (let waits := s.mem.trans.any fun x => x.kind == .evict && x.pa == lineOf pa && x.waiter.req == a.val
     (waits = true → exec (.evictionAck a pa) s = .next s) ∧
     (waits = false → ∃ t, exec (.evictionAck a pa) s = .next t ∧ (∀ x ∈ t.mem.wb, ¬(x.loom = a.val ∧ x.pa = lineOf pa)) ∧
      (∀ x ∈ s.mem.wb, ¬(x.loom = a.val ∧ x.pa = lineOf pa) → x ∈ t.mem.wb) ∧ t = { s with mem := { s.mem with wb := t.mem.wb } })) ∧
    ∀ w l, s.wayOf pa = some w → s.line? pa = some l → ∀ x modified, (s.mem.trans.filter fun t => t.pa == lineOf pa) = [x] → x.holder = a.val →
      let back := if s.mem.l1.any fun y => y.loom == a.val && y.pa == lineOf pa then modified
        else (s.mem.wb.find? fun y => y.loom == a.val && y.pa == lineOf pa).bind fun y => y.data
      let data := match back with | some d => patch l.data 0 d | none => l.data
      (x.kind = .read → ∃ t y, exec (.snoop a pa modified) s = .next t ∧ t.line? pa = some y ∧ y.dir = .shared ∧
        y.holders = insertNat x.waiter.req l.holders ∧ y.data = data ∧ y.dirty = (l.dirty || back.isSome) ∧ (back.isSome → y.writer = a.val) ∧
        (⟨s.trd.cclk + 80, x.waiter.req, x.waiter.tag, lineOf pa, data, l.poison⟩ : Delivery) ∈ t.mem.arrived ∧
        ∀ z ∈ t.mem.trans, z.pa ≠ lineOf pa) ∧
      (x.kind = .readForWrite → ∃ t y, exec (.snoop a pa modified) s = .next t ∧ t.line? pa = some y ∧ y.dir = .modified ∧
        y.holders = [x.waiter.req] ∧ y.data = data ∧ ∀ z ∈ t.mem.l1, z.coh = true → z.pa = lineOf pa → z.loom = x.waiter.req) ∧
      (x.kind = .recall → ∃ t y, exec (.snoop a pa modified) s = .next t ∧ t.line? pa = some y ∧
        y.dir = (if l.dir = .modified then DirState.excl else l.dir) ∧ y.holders = l.holders ∧ y.data = data ∧
        (⟨s.trd.cclk + 80, x.waiter.req, x.waiter.tag, lineOf pa, data, l.poison⟩ : Delivery) ∈ t.mem.arrived) ∧
      ∀ off d, x.kind = .recallWrite → x.waiter.write = some (off, d) → off + d.length ≤ 128 → l.pa = lineOf pa →
        s.cohAccess x.waiter.req pa x.waiter.cls = true → ∃ t y, exec (.snoop a pa modified) s = .next t ∧ t.line? pa = some y ∧ y.dir = .inv ∧
          y.holders = [] ∧ y.data = patch data off d ∧ y.dirty = true ∧ y.writer = x.waiter.req

/-- The DRAM channels: a slot is granted in the first CCLK at or after its start, to the request Table 6.6 claims it for, the oldest first (R343 to
R346), or to the scrub (R332); a granted read returns its line at its count (R342), an error being counted and an uncorrectable one recorded (R329, R330); a
granted write stores its line (R323); windows, also forced ones, block ten slots (R348 to R353); a slow scrub pass is counted once (R333). Rows
SLOT_GRANT, DRAM_RETURN, REFRESH_WINDOW, FORCED_REFRESH and SCRUB_STARVE. -/
def Obligations.DramSlotsAreGranted : Prop :=
  ∀ (s : State) (c : Fin 12) (e : Ecc),
    let ch := s.channel c
    let k := ch.slot
    (s.trained = false → exec (.slotGrant c e) s = .next s) ∧
    (s.trained = true →
      let s0 := State.elapse ((2 * s.mem.slotZero + 2079 * k - 2 * s.trd.time + 2 * s.cclkTime - 1) / (2 * s.cclkTime)) s
      let mine := s0.mem.queue.filter fun q => q.chan == c.val && q.waits.isNone
      let first := fun (l : List DramReq) (q : DramReq) => q ∈ l ∧ ∀ x ∈ l, x.before q = false
      let go := s0.setChannel c { ch with slot := k + 1 }
      let live := mine.filter fun q => q.cls == .live || (q.cls == .raster && q.slot.isNone)
      let bulk := mine.filter fun q => q.cls == .bulk
      (ch.blockFrom ≤ k → k < ch.blockUntil → (∀ q ∈ mine, q.slot ≠ some k) → exec (.slotGrant c e) s = .next go) ∧
      (¬(ch.blockFrom ≤ k ∧ k < ch.blockUntil) → (∀ q ∈ mine, q.slot ≠ some k) →
        (¬(s0.rasSlots ≤ 6 ∧ k % 8 = 6 ∧ (k / 8 % 16 = 15 ∨ k / 8 % 16 = 7)) → live ≠ [] →
          ∃ q ∈ live, first live q ∧ exec (.slotGrant c e) s = .next (go.grantReq q false)) ∧
        (k % 8 = 6 → k / 8 % 16 = 15 → bulk ≠ [] → ∃ q ∈ bulk, first bulk q ∧ exec (.slotGrant c e) s = .next (go.grantReq q false)) ∧
        (k % 8 = 6 → k / 8 % 16 = 7 → s0.blankingLine = true → exec (.slotGrant c e) s = .next (go.scrubUnit c e)) ∧
        (live = [] → bulk = [] → exec (.slotGrant c e) s = .next (go.scrubUnit c e))) ∧
      (∀ q, (mine.filter fun x => x.slot == some k) = [q] → k % 8 < s0.rasSlots →
        exec (.slotGrant c e) s = .next (go.grantReq q (decide (ch.blockFrom ≤ k ∧ k < ch.blockUntil))))) ∧
    (∀ q ∈ s.mem.queue, ∀ late : Bool,
      (q.kind = .read → (s.grantReq q late).mem.flights = s.mem.flights ++
          [⟨q.chan, .read, q.age, q.pa, s.trd.cclk, (match s.op with | 0 => 256 | 1 => 202 | _ => 128) +
            (if late then (match s.op with | 0 => 120 | 1 => 95 | _ => 60) else 0), late⟩] ∧
        (s.grantReq q late).mem.queue = s.mem.queue.erase q ∧ ∀ a, (s.grantReq q late).memByte a = s.memByte a) ∧
      (q.kind = .write → q.ack = none → (∀ l ∈ s.mem.leaving, l.pa ≠ q.pa) →
        (∀ i (h : i < q.data.length), (s.grantReq q late).dramByte (q.pa + i) = q.data[i]) ∧
        (∀ a, a < q.pa ∨ q.pa + q.data.length ≤ a → s.granuleSet a = true → (s.grantReq q late).dramByte a = s.dramByte a) ∧
        (q.pa ∈ (s.grantReq q late).mem.bad ↔ q.poison = true) ∧ (s.grantReq q late).mem.queue = s.mem.queue.erase q)) ∧
    ((s.mem.flights.find? fun f => f.chan == c.val) = none → exec (.dramReturn c e) s = .next s) ∧
    (∀ f, (s.mem.flights.find? fun f => f.chan == c.val) = some f →
      let s0 := s.elapseTo (f.grantAt + f.count)
      (f.kind = .checkRead → f.penalty = false →
        exec (.dramReturn c e) s = .next { s0 with mem := { s0.mem with flights := s0.mem.flights.erase f } }) ∧
      (f.kind = .read → ∀ m ∈ s0.mem.mshrs, m.pa = f.pa →
        let found := if f.pa ∈ s0.mem.bad then Ecc.uncorrectable else e
        ∃ t, exec (.dramReturn c e) s = .next t ∧ ∃ m' ∈ t.mem.mshrs, m'.pa = f.pa ∧ m'.fillAt = s0.trd.cclk + 42 ∧
          (m'.poison = true ↔ found = .uncorrectable) ∧
          m'.data = some ((List.range 128).map fun i => s0.dramByte (f.pa + i)) ∧ t.mem.flights = s0.mem.flights.erase f ∧
          t = { s0 with mem := t.mem, regs := t.regs } ∧ (found = .clean → t.regs = s0.regs) ∧
          (found = .corrected → t.rd Reg.DMC_CE_CNT = counted (s0.rd Reg.DMC_CE_CNT)) ∧
          (found = .uncorrectable → t.rd Reg.DMC_UE_CNT = counted (s0.rd Reg.DMC_UE_CNT) ∧ t.rd Reg.DMC_UE_ADDR_LO = BitVec.ofNat 32 f.pa))) ∧
    (∀ hot b, s.mem.bound = some b →
      let due := if ch.frame = none then c.val * s.fld Reg.DMC_REF_CFG Reg.DMC_REF_CFG_STAGGER else ch.next
      let opens := fun (s0 t : State) (from_ : Nat) => (t.channel c).blockFrom = max k ch.blockUntil ∧
        (t.channel c).blockUntil = max k ch.blockUntil + 10 ∧ (t.channel c).next = from_ + s0.refPeriod (t.channel c).hot ∧
        (ch.frame ≠ some s0.trd.now.frame → (t.channel c).hot = hot ∧ t.fld Reg.DMC_HOT ⟨c, 1⟩ = (if hot then 1 else 0)) ∧
        (ch.frame = some s0.trd.now.frame → (t.channel c).hot = ch.hot) ∧ (t.channel c).slot = k ∧ t.mem.queue = s0.mem.queue ∧
        t = { s0 with mem := t.mem, regs := t.regs, out := t.out }
      (b < due → exec (.refreshWindow c hot) s = .next s) ∧
      (due ≤ b → ∃ t, exec (.refreshWindow c hot) s = .next t ∧ opens (State.elapse (2 - s.trd.now.cyc) s) t due) ∧
      (s.refreshOwed c = false → exec (.forcedRefresh c hot) s = .next s) ∧
      (s.refreshOwed c = true → ∃ t, exec (.forcedRefresh c hot) s = .next t ∧ opens s t b ∧
        t.rd Reg.DMC_FORCED_REF_CNT = counted (s.rd Reg.DMC_FORCED_REF_CNT))) ∧
    (let target := s.fld Reg.DMC_SCRUB_CFG Reg.DMC_SCRUB_CFG_TARGET
     let slow := target ≠ 0 ∧ ch.starved = false ∧ target ≤ (s.trd.now.frame + 65536 - ch.passFrom) % 65536
     (¬slow → exec (.scrubStarve c) s = .next s) ∧
     (slow → ∃ t, exec (.scrubStarve c) s = .next t ∧ (t.channel c).starved = true ∧
        t.rd Reg.DMC_SCRUB_STARVE_CNT = counted (s.rd Reg.DMC_SCRUB_STARVE_CNT) ∧ t = { s with mem := t.mem, regs := t.regs }))

/-- The device MMU: once its walk has taken its CCLK (R360), a channel's next line is translated or meets a fault, which is counted (R357 to R361,
R378, R384, R848); a resuming channel whose translation succeeds runs again, and one that faults again is counted (R390 to R392); a disabled context
faults with cause 0x6 whatever the TLBs hold (R848); an invalidation empties the TLBs of what it selects and holds BUSY for 16 CCLK at least (R362,
R363). Rows TRANSLATION, MMU_INV and MMU_INV_DONE. -/
def Obligations.TheMmuTranslates : Prop :=
  ∀ s : State,
    (∀ (loom : Fin 32) (c : Fin 16) began,
      let ch := s.chan loom c
      let va := if ch.retry then (ch.fault.map fun f => f.va).getD ch.lineVa else ch.lineVa
      let write := if ch.retry then (ch.fault.map fun f => f.write).getD ch.writes else ch.writes
      let s0 := s.nextFree.2.elapseTo (max began (s.xlateFrom ch) + s.xlateCclk loom ch.tenant va)
      (ch.xlated ≠ none ∨ (∃ f, ch.fault = some f ∧ (f.kind = 1 ∨ ch.retry = false)) ∨
          (ch.retry = false ∧ (ch.state ≠ .run ∨ ch.total ≤ ch.pos)) → exec (.translation loom c began) s = .next s) ∧
      (ch.xlated = none → ch.state = .run → ch.pos < ch.total → ch.fault = none → ch.retry = false →
        (ch.phys = true → ∃ t, exec (.translation loom c began) s = .next t ∧ t.chan loom c = { ch with xlated := some ch.lineVa } ∧
          t = { s with sht := t.sht }) ∧
        (ch.phys = false →
          (∀ pa v b p w, s0.xlate loom ch.tenant va write = .ok pa v b p w → ∃ t, exec (.translation loom c began) s = .next t ∧
            t.chan loom c = { ch with xlated := some pa } ∧ (∀ a, t.memByte a = s0.memByte a) ∧
            t = { s0 with sht := t.sht, mem := t.mem, regs := t.regs }) ∧
          ∀ cause, s0.xlate loom ch.tenant va write = .fault cause → ∃ t, exec (.translation loom c began) s = .next t ∧
            t.rd Reg.MMU_FAULT_CNT = counted (s0.rd Reg.MMU_FAULT_CNT) ∧
            (ch.raster = true → (t.chan loom c).pos = ch.pos + 128 ∧
              (⟨s0.trd.cclk, loom, c, 0, List.replicate 128 0#8, true⟩ : Delivery) ∈ t.mem.arrived) ∧
            (ch.raster = false → cause < 3 → ∃ f, (t.chan loom c).fault = some f ∧ t.chan loom c = { ch with fault := some f } ∧ f.cause = cause ∧
              f.kind = 0 ∧ f.va = va ∧ f.write = write ∧ f.stamp = s0.trd.now) ∧
            (ch.raster = false → 3 ≤ cause → ∀ d, s0.desc? ch.ring ch.seq = some d → t.desc? ch.ring ch.seq = none ∧
              ∃ r, t.ten.recs = s0.ten.recs ++ [r] ∧ bytesAt r.data 8 1 = 0x10 ∧ bytesAt r.data 9 1 = 2))) ∧
      (∀ f0, ch.fault = some f0 → ch.xlated = none → ch.retry = true → f0.kind = 0 → ch.phys = false →
        (∀ pa v b p w, s0.xlate loom ch.tenant va write = .ok pa v b p w → ∃ t, exec (.translation loom c began) s = .next t ∧
          (t.chan loom c).state = .run ∧ (t.chan loom c).fault = none ∧ (t.chan loom c).slot = none ∧ (t.chan loom c).retry = false ∧
          (t.chan loom c).xlated = some pa) ∧
        ∀ cause, s0.xlate loom ch.tenant va write = .fault cause → ch.raster = false → cause < 3 → ∃ t f,
          exec (.translation loom c began) s = .next t ∧ (t.chan loom c).fault = some f ∧ t.chan loom c = { ch with fault := some f, retry := false, owed := true } ∧
          f.cause = cause ∧ t.rd Reg.SHT_REFAULT_CNT = counted (s0.rd Reg.SHT_REFAULT_CNT))) ∧
    (∀ loom ten va w, s.bit (Reg.MMU_CTX_LO ten) Reg.MMU_CTX_LO_EN = false → s.xlate loom ten va w = .fault 6) ∧
    (∀ v, (Reg.MMU_INV_GO.get v = 0 → exec (.mmuInv v) s = .next s) ∧
      (Reg.MMU_INV_GO.get v = 1 → s.mem.inval = none →
        let va := 4096 * s.fld Reg.MMU_INV_VA_LO Reg.MMU_INV_VA_LO_VA + 2 ^ 32 * s.fld Reg.MMU_INV_VA_HI Reg.MMU_INV_VA_HI_VA
        ∃ t, exec (.mmuInv v) s = .next t ∧
        t.fld Reg.MMU_INV_STATUS Reg.MMU_INV_STATUS_BUSY = 1 ∧ (∀ x ∈ t.mem.tlb, x ∈ s.mem.tlb) ∧
        (Reg.MMU_INV_SCOPE.get v = 0 ∨ Reg.MMU_INV_SCOPE.get v = 3 → t.mem.tlb = []) ∧
        (Reg.MMU_INV_SCOPE.get v = 1 → ∀ x, x ∈ t.mem.tlb ↔ x ∈ s.mem.tlb ∧ x.tenant ≠ Reg.MMU_INV_TENANT.get v) ∧
        (Reg.MMU_INV_SCOPE.get v = 2 → ∀ x, x ∈ t.mem.tlb ↔ x ∈ s.mem.tlb ∧
          ¬(x.tenant = Reg.MMU_INV_TENANT.get v ∧ x.vbase = va % 2 ^ 48 / 2 ^ x.bits * 2 ^ x.bits)) ∧
        t = { s with mem := t.mem, regs := t.regs }) ∧
      (Reg.MMU_INV_GO.get v = 1 → ∀ i, s.mem.inval = some i → ∃ t j, exec (.mmuInv v) s = .next t ∧ t.mem.inval = some j ∧ j.landed = s.trd.cclk ∧
        (i.scope = 0 ∨ Reg.MMU_INV_SCOPE.get v % 3 = 0 ∨ i.tenant ≠ Reg.MMU_INV_TENANT.get v → j.scope = 0 ∧ t.mem.tlb = []) ∧
        t.fld Reg.MMU_INV_STATUS Reg.MMU_INV_STATUS_BUSY = 1 ∧ t = { s with mem := t.mem, regs := t.regs })) ∧
    (s.mem.inval = none → exec .mmuInvDone s = .next s) ∧
    ∀ i, s.mem.inval = some i → ∃ t, exec .mmuInvDone s = .next t ∧ t.mem.inval = none ∧
      t.fld Reg.MMU_INV_STATUS Reg.MMU_INV_STATUS_BUSY = 0 ∧
      t = { s.elapseTo (i.landed + 16) with mem := t.mem, regs := t.regs }

/-! Chapter 7: the Shuttle. -/

/-- The regulator: a loom issues one line in a CCLK, looms in ascending number (R368, R377), of the channel whose turn it is, once the consumers and
producers have moved their lines (R370, R371); it issues only with room and tokens, its buckets pay 128 bytes and POSITION moves past it (R367 to R370,
R374, R375); each pick boundary refills every regulated bucket once, up to its depth, 2 CCLK after it (R36, R373). Rows LINE_ISSUE and BUCKET_REFILL. -/
def Obligations.TheRegulatorGatesLines : Prop :=
  ∀ s : State,
    (∀ loom : Fin 32,
      let late := ∃ x, s.sht.issuer = some x ∧ x.1 = s.trd.cclk ∧ loom.val ≤ x.2
      let v := s.issueTurn loom
      let u := v.moveLines loom
      (late → v = { s.tick with sht := { s.tick.sht with issuer := v.sht.issuer } }) ∧
      (¬late → v = { s with sht := { s.sht with issuer := v.sht.issuer } }) ∧ v.sht.issuer = some (v.trd.cclk, loom.val) ∧
      u = { v with sht := { v.sht with chans := u.sht.chans }, free := u.free } ∧
      (∀ e ∈ v.sht.chans, ∃ n, (e.2.dir = 0 → 128 * n ≤ e.2.fill) ∧
        (e.2.dir ≠ 0 → 0 < n → e.2.fill + 128 * n ≤ e.2.bufLen ∧ e.2.got + 128 * n ≤ e.2.total) ∧ (e.1, { e.2 with
        fill := if e.2.dir = 0 then e.2.fill - 128 * n else e.2.fill + 128 * n
        got := if e.2.dir = 0 then e.2.got else e.2.got + 128 * n }) ∈ u.sht.chans) ∧
      (u.turn loom = none → exec (.lineIssue loom) s = .next u) ∧
      ∀ c, u.turn loom = some c → ∀ pa, (u.chan loom c).xlated = some pa →
        let ch := u.chan loom c
        (∀ b ∈ ch.buckets loom, u.bucketRate b = 0 ∨ 128 ≤ u.bucketLevel b) ∧
        (if ch.writes then 128 + u.inFlight loom c ≤ ch.fill else ch.fill + u.inFlight loom c + 128 ≤ ch.bufLen) ∧
        ∃ t, exec (.lineIssue loom) s = .next t ∧ t.chan loom c = { ch with pos := ch.pos + 128, xlated := none } ∧
          t.sht.issued = u.sht.issued ++ [⟨loom, c, lineOf pa, ch.writes⟩] ∧
          (∀ b ∈ ch.buckets loom, t.bucketLevel b = if u.bucketRate b = 0 then u.bucketLevel b else u.bucketLevel b - 128) ∧
          (∀ b, b ∉ ch.buckets loom → t.bucketLevel b = u.bucketLevel b) ∧ t = { u with sht := t.sht } ∧
          ∀ l' c', chanKey l' c' ≠ chanKey loom c → t.chan l' c' = u.chan l' c') ∧
    (s.sht.refilled = s.ten.picks → exec .bucketRefill s = .next s) ∧
    (s.sht.refilled ≠ s.ten.picks →
      let s0 := State.elapse (2 - s.trd.now.cyc) s
      (s0.sht.loomLvl.map fun e => e.1).Nodup → (s0.sht.tenLvl.map fun e => e.1).Nodup →
      ∃ t, exec .bucketRefill s = .next t ∧ t.sht.refilled = s0.ten.picks ∧ t = { s0 with sht := t.sht } ∧
        ∀ b, t.bucketLevel b =
          if s0.bucketRate b = 0 then s0.bucketLevel b else min (s0.bucketLevel b + s0.bucketRate b) (s0.bucketCap b))

/-- Faults: a faulting tenant channel halts with POSITION and buffer kept (R380), its descriptor's running channels are held in the CCLK after (R381),
and 8 CCLK on a record, a log entry and events on the tenant's and the PF's fault vectors follow (R382, R386), the events alone after a fault on a resume
(R392), or the descriptor ends for want of a slot (R383); RESUME tries again and ABORT ends the descriptor with DETAIL 0x01, whatever RESUME lands with it
(R387 to R389, R393). Rows CHANNEL_HALT, CHANNEL_HELD, FAULT_RECORD_WRITE, RESUME and ABORT. -/
def Obligations.FaultsHaltAndResume : Prop :=
  ∀ s : State,
    let ended := fun (kind : Nat) => match kind with | 1 => 0x11 | 2 => 0x12 | _ => 0x10
    let raised := fun (t s0 : State) (n : Nat) => t.ten = ((s0.event (vecIndex n (s0.fld (Reg.TEN_MSG n) Reg.TEN_MSG_FAULT_VEC))).event
      (vecIndex 0 (s0.fld (Reg.TEN_MSG 0) Reg.TEN_MSG_FAULT_VEC))).ten
    (∀ (loom : Fin 32) (c : Fin 16),
      let ch := s.chan loom c
      (ch.fault = none ∨ ch.raster = true ∨ ch.state = .halted → exec (.channelHalt loom c) s = .next s) ∧
      ∀ f, ch.fault = some f →
        (ch.raster = false → ch.state ≠ .halted → ∃ t, exec (.channelHalt loom c) s = .next t ∧
          t.chan loom c = { ch with state := .halted, fault := some { f with cclk := s.trd.cclk, stamp := s.trd.now } } ∧
          (∀ d, s.desc? ch.ring ch.seq = some d → t.desc? ch.ring ch.seq = some { d with phase := .halted }) ∧
          t.rd Reg.SHT_HALT_CNT = counted (s.rd Reg.SHT_HALT_CNT) ∧
          t = { s with sht := t.sht, regs := t.regs, ten := t.ten } ∧ ∀ o, o ≠ Reg.SHT_HALT_CNT → t.rd o = s.rd o) ∧
        ∀ d, s.desc? ch.ring ch.seq = some d → ch.state = .halted →
          let s0 := s.elapseTo (f.cclk + 8)
          (ch.owed = true → ∃ t, exec (.faultRecordWrite loom c) s = .next t ∧ t.chan loom c = { ch with owed := false } ∧ raised t s0 ch.tenant ∧
            t.sht.recs = s0.sht.recs ∧ t = { s0 with sht := t.sht, ten := t.ten }) ∧
          (ch.owed = false → ch.slot.isSome = true → exec (.faultRecordWrite loom c) s = .next s) ∧
          (ch.owed = false → ch.slot = none →
            (∀ k, s0.freeSlot ch.tenant = some k → ∃ t r, exec (.faultRecordWrite loom c) s = .next t ∧
              (∀ j, j < k → (tblFind s0.sht.recs (ch.tenant * 64 + j)).isSome = true) ∧ tblFind t.sht.recs (ch.tenant * 64 + k) = some r ∧
              r.fault = f ∧ r.tag = d.tag ∧ r.seq = d.seq ∧ r.ring = d.ring ∧ r.loom = loom.val ∧ r.chan = c.val ∧ r.pos = ch.pos ∧
              r.resuming = none ∧ t.chan loom c = { ch with slot := some k } ∧
              (let p := s0.fld Reg.SHT_FLOG_PTR Reg.SHT_FLOG_PTR_NEXT
               t.fld (Reg.SHT_FLOG0 p) Reg.SHT_FLOG0_VALID = 1 ∧ t.fld (Reg.SHT_FLOG0 p) Reg.SHT_FLOG0_HALTED = 1 ∧
               t.fld (Reg.SHT_FLOG0 p) Reg.SHT_FLOG0_CAUSE = f.cause % 16 ∧ (t.rd (Reg.SHT_FLOG1 p)).toNat = f.va % 2 ^ 32 ∧
               t.fld Reg.SHT_FLOG_PTR Reg.SHT_FLOG_PTR_NEXT = (p + 1) % 256) ∧ raised t s0 ch.tenant ∧
              t = { s0 with sht := t.sht, regs := t.regs, ten := t.ten }) ∧
            (s0.freeSlot ch.tenant = none → ∃ t r, exec (.faultRecordWrite loom c) s = .next t ∧
              t.rd Reg.SHT_FREC_FULL_CNT = counted (s0.rd Reg.SHT_FREC_FULL_CNT) ∧ t.desc? d.ring d.seq = none ∧
              t.ten.recs = s0.ten.recs ++ [r] ∧ r.ring = d.ring ∧ r.seq = d.seq ∧ bytesAt r.data 9 1 = 2 ∧ bytesAt r.data 8 1 = ended f.kind))) ∧
    (∀ (g : Fin 1024) q,
      let s0 := s.elapseTo (s.haltedAt g q + 1)
      (s.anyHalted g q = false → exec (.channelHeld g q) s = .next s) ∧
      (s.anyHalted g q = true → ∃ t, exec (.channelHeld g q) s = .next t ∧ t = { s0 with sht := t.sht } ∧
        ∀ l c, let x := s0.chan l c
          t.chan l c = if x.ring = g.val ∧ x.seq = q ∧ x.raster = false ∧ x.state = .run then { x with state := .held } else x)) ∧
    ∀ (n : Fin 256) (k : Fin 64),
      (tblFind s.sht.recs (n.val * 64 + k.val) = none → exec (.resume n k) s = .next s ∧ exec (.abortRecord n k) s = .next s) ∧
      ∀ r, tblFind s.sht.recs (n.val * 64 + k.val) = some r →
        (r.resuming.isSome = true → exec (.resume n k) s = .next s) ∧
        (r.resuming = none → ∃ t, exec (.resume n k) s = .next t ∧
          tblFind t.sht.recs (n.val * 64 + k.val) = some { r with resuming := some s.trd.cclk } ∧
          t.chan r.loom r.chan = { s.chan r.loom r.chan with retry := true, xlated := none } ∧ t = { s with sht := t.sht }) ∧
        (r.resuming.isSome = true → r.resuming ≠ some s.trd.cclk → exec (.abortRecord n k) s = .next s) ∧
        (r.resuming = none ∨ r.resuming = some s.trd.cclk → ∀ d, s.desc? r.ring r.seq = some d → ∃ t, exec (.abortRecord n k) s = .next t ∧
          s.completes t d (ended r.fault.kind) 1 ∧ ∀ e ∈ t.sht.recs, ¬(e.2.ring = r.ring ∧ e.2.seq = r.seq))

/-- Chains pass each line, with its darn mark, to the next rank 12 CCLK later (R403, R404); the far tier's requests carry the tenant's routing ID, stay
inside its window and go for the lines its buckets hold, and its data lands in device memory, an error ending the descriptor (R374, R406 to R409,
Table 7.3). Rows CHAIN_FORWARD, FAR_TIER_READ, FAR_TIER_WRITE and FAR_TIER_COMPLETION. -/
def Obligations.ChainsAndTheFarTierMoveLines : Prop :=
  ∀ s : State,
    (∀ (loom : Fin 32) (c : Fin 16),
      ((s.sht.chain.find? fun x => x.loom == loom.val && x.chan == c.val) = none → exec (.chainForward loom c) s = .next s) ∧
      ∀ x, (s.sht.chain.find? fun x => x.loom == loom.val && x.chan == c.val) = some x →
      let s0 := (s.elapseTo (x.cclk + 12)).onSht fun t => { t with chain := t.chain.erase x }
      (s0.nextRank loom c = none → exec (.chainForward loom c) s = .next s0) ∧
      (∀ l, s0.nextRank loom c = some l → x.data ≠ [] →
        let y := s0.chan l c
        (y.state = .done → ∃ t, exec (.chainForward loom c) s = .next t ∧ t = { s0 with sht := t.sht } ∧ t.sht.chans = s0.sht.chans) ∧
        (y.state ≠ .idle → y.state ≠ .done → ∃ t, exec (.chainForward loom c) s = .next t ∧
          (y.chain = true → t.sht.chain = s0.sht.chain ++ [⟨l, c, s0.trd.cclk, x.data, x.darn⟩]) ∧
          (x.darn = true → t.rd Reg.SHT_DARN_CNT = counted (s0.rd Reg.SHT_DARN_CNT)) ∧
          (x.darn = false → t.chan l c = { y with
              fill := y.fill + 128
              got := y.got + 128
              state := if y.state = .run ∧ y.total ≤ y.got + 128 then .done else y.state } ∧
            (∀ p, s0.physOf l = some p → t.looms[p]? = (s0.looms[p]?).map fun z => z.putScratch y.bufAt x.data false) ∧
            t = { s0 with sht := t.sht, looms := t.looms })))) ∧
    (∀ (n : Fin 256) (l : Fin 32) (off len pa ring seq : Nat),
      let o := off / 128 * 128
      let bs := if (s.moveAt pa).isSome then [Bucket.tenant n] else [.loom l, .tenant n]
      let bus := s.addr64 (Reg.SHT_FAR_BASE_LO n) (Reg.SHT_FAR_BASE_HI n) + o
      let asked := fun (most : Nat) => min most ((len + 127) / 128 * 128)
      let held := fun (most : Nat) => 128 * s.linesHeld bs (asked most / 128)
      let both := [(Instr.farTierRead n l off len pa ring seq, s.hif.mrrs), (.farTierWrite n l off len pa ring seq, s.hif.mps)]
      (∀ i ∈ both, s.farSize n < o + max (asked i.2) 128 →
        (s.desc? ring seq = none → exec i.1 s = .next s) ∧
        ∀ d, s.desc? ring seq = some d → ∃ t r, exec i.1 s = .next t ∧ t.desc? d.ring d.seq = none ∧ t.ten.recs = s.ten.recs ++ [r] ∧
          r.ring = d.ring ∧ r.seq = d.seq ∧ bytesAt r.data 8 1 = 0x10 ∧ bytesAt r.data 9 1 = 2) ∧
      (∀ i ∈ both, o + max (asked i.2) 128 ≤ s.farSize n → held i.2 = 0 → exec i.1 s = .next s) ∧
      (o + max (asked s.hif.mrrs) 128 ≤ s.farSize n → 0 < held s.hif.mrrs →
        (s.freeTag = none → exec (.farTierRead n l off len pa ring seq) s = .next s) ∧
        ∀ k, s.freeTag = some k → ∃ t, exec (.farTierRead n l off len pa ring seq) s = .next t ∧
          t.sht.far = s.sht.far ++ [⟨k, n, o, held s.hif.mrrs, pa, ring, seq, (s.moveAt pa).isSome⟩] ∧
          (∀ x ∈ bs, s.bucketRate x ≠ 0 → held s.hif.mrrs ≤ s.bucketLevel x ∧ t.bucketLevel x = s.bucketLevel x - held s.hif.mrrs) ∧
          t = ({ s with sht := t.sht } : State).send
            { msg := .hostRead n bus (held s.hif.mrrs), fn := some n.val, after := 0, event := none, chain := .none }) ∧
      (o + max (asked s.hif.mps) 128 ≤ s.farSize n → 0 < held s.hif.mps → ∃ t, exec (.farTierWrite n l off len pa ring seq) s = .next t ∧
        (∀ x ∈ bs, s.bucketRate x ≠ 0 → held s.hif.mps ≤ s.bucketLevel x ∧ t.bucketLevel x = s.bucketLevel x - held s.hif.mps) ∧
        t = ({ s with kv := t.kv, sht := t.sht } : State).send
          { msg := .hostWrite n bus (s.memBytes pa (held s.hif.mps)), fn := some n.val, after := 0, event := none, chain := .none } ∧
        t.mem = s.mem)) ∧
    ∀ (k : Fin 256) (ok : Bool) (data : List Byte),
      ((s.sht.far.find? fun f => f.tag == k.val) = none → exec (.farTierCompletion k ok data) s = .next s) ∧
      ∀ f, (s.sht.far.find? fun f => f.tag == k.val) = some f →
        let free := s.onSht fun t => { t with far := t.far.erase f }
        let stored := free.memWrite f.pa (data.take f.len) (s.ringClass f.ring) 32
        let moved := fun (n : Nat) (bad : Bool) => s.kv.moves.map fun m =>
          if m.pa ≤ f.pa ∧ f.pa < m.pa + m.len then { m with left := m.left - n, failed := m.failed || bad } else m
        (f.page = true →
          (∃ t, exec (.farTierCompletion k true data) s = .next t ∧ t = { stored with kv := { s.kv with moves := moved f.len false } }) ∧
          ∃ t, exec (.farTierCompletion k false data) s = .next t ∧ t.rd Reg.SHT_FAR_ERR_CNT = counted (s.rd Reg.SHT_FAR_ERR_CNT) ∧
            t = { free with regs := t.regs, kv := { s.kv with moves := moved 0 true } }) ∧
        (f.page = false → s.desc? f.ring f.seq = none → exec (.farTierCompletion k ok data) s = .next free) ∧
        (f.page = false → ∀ d, s.desc? f.ring f.seq = some d →
          (∃ t, exec (.farTierCompletion k true data) s = .next t ∧ t = stored ∧ t.sht.far = s.sht.far.erase f ∧
            t = { s with sht := t.sht, mem := t.mem, regs := t.regs, free := t.free }) ∧
          ∃ t r, exec (.farTierCompletion k false data) s = .next t ∧ t.rd Reg.SHT_FAR_ERR_CNT = counted (s.rd Reg.SHT_FAR_ERR_CNT) ∧
            t.mem = s.mem ∧ t.ten.recs = s.ten.recs ++ [r] ∧ r.ring = d.ring ∧ r.seq = d.seq ∧ bytesAt r.data 8 1 = 0x12 ∧ bytesAt r.data 9 1 = 2)

/-! Chapter 8: the picture path. -/

/-- Intake and admission: a record that passes Table 8.4 enters the FIFO; the first check it fails completes it at once (R416 to R419). An
overtaken record leaves with its completion when its last shed's deadline has passed (R421, R422). READMIT starts an admission (R451); its result is
the first level upwards that passes, and Tack-only where none does (R453, R455, R458, R460, R461); it takes effect at a shed-0 launch stamp once the
network load is done (R69, R452). Rows FRAME_RECORD, RECORD_RELEASE, READMIT, ADMISSION_COMPLETE and ENHANCED_SWITCH. -/
def Obligations.RecordsAreTakenAndLevelsAdmitted : Prop :=
  ∀ s : State,
    (∀ (g : Fin 1024) ok bytes,
      ((s.ring g).reads = 0 ∨ s.isIntake g = false → exec (.frameRecord g ok bytes) s = .next s) ∧
      (0 < (s.ring g).reads → s.isIntake g = true →
        ((s.ring g).err = true → ∃ t, exec (.frameRecord g ok bytes) s = .next t ∧ (t.ring g).reads + 1 = (s.ring g).reads ∧
          t = { s with ten := t.ten } ∧ t.ten.recs = s.ten.recs ∧ t.ten.descs = s.ten.descs) ∧
        ((s.ring g).err = false →
          let f : FrameRec :=
            { ring := g, seq := (s.rd (Reg.QRG_FETCH_SEQ g)).toNat, tenant := s.ringTenant g, bytes := bytes.take 64, uses := 0, first := none,
              darned := false, passed := false, status := 0 }
          (∃ t, exec (.frameRecord g false bytes) s = .next t ∧ (t.ring g).err = true ∧ (t.ring g).reads + 1 = (s.ring g).reads ∧
            t.rd Reg.QRG_FETCH_ERR_CNT = counted (s.rd Reg.QRG_FETCH_ERR_CNT) ∧ t = { s with regs := t.regs, ten := t.ten } ∧
            t.ten.recs = s.ten.recs ∧ ∀ o, o ≠ Reg.QRG_FETCH_ERR_CNT → t.rd o = s.rd o) ∧
          let row := (chromaSize f.fmt f.width f.height).1 * 2 * fmtBytes f.fmt
          let reserved := (List.range 16).any fun k => !([0, 3, 7].contains k) && f.flag k
          let shape := decide (f.fmt = 0 ∨ 6 < f.fmt ∨ 1 < f.mat ∨ f.width % 2 = 1 ∨ f.height % 2 = 1 ∨ f.width < 64 ∨ f.height < 64 ∨ 7680 < f.width ∨
            4320 < f.height ∨ f.luma % 128 ≠ 0 ∨ f.chroma % 128 ≠ 0 ∨ f.lumaStride % 128 ≠ 0 ∨ f.chromaStride % 128 ≠ 0 ∨
            f.lumaStride < f.width * fmtBytes f.fmt ∨ f.chromaStride < row)
          let late := match s.pic.lastP with
            | some p => !f.pstamp.after p
            | none => false
          let checks : List (Bool × Nat × Nat) :=
            [(f.num 0 2 != 1, 0x31, 1),
             (reserved || decide (1024 ≤ f.num 0x14 2 ∨ f.num 0x16 2 ≠ 0 ∨ f.num 0x1C 4 ≠ 0 ∨ f.num 0x38 8 ≠ 0), 0x30, 1),
             (f.flag 0 && s.ringTenant (f.num 0x14 2) != s.ringTenant g, 0x30, 3), (late, 0x30, 4), (shape, 0x32, 0)]
          let taken := fun (t : State) => t.rd (Reg.QRG_FETCH_SEQ g) = s.rd (Reg.QRG_FETCH_SEQ g) + 1#32 ∧
            t.ringHead g = (s.ringHead g + 1) % s.ringSize g ∧ (t.ring g).reads + 1 = (s.ring g).reads ∧
            t = { s with regs := t.regs, ten := t.ten, pic := t.pic, free := t.free } ∧ t.ten.descs = s.ten.descs
          ((∀ c ∈ checks, c.1 = false) → ∃ t, exec (.frameRecord g true bytes) s = .next t ∧ taken t ∧ t.ten.recs = s.ten.recs ∧
            t.pic = { s.pic with fifo := s.pic.fifo ++ [f], lastP := some f.pstamp } ∧
            ∀ o, o ∉ [Reg.QRG_PTR g, Reg.QRG_FETCH_SEQ g] → t.rd o = s.rd o) ∧
          ∀ c, (checks.find? fun c => c.1) = some c → ∃ t, exec (.frameRecord g true bytes) s = .next t ∧ taken t ∧ t.pic = s.pic ∧
            s.framePosted t f c.2.1 c.2.2 (Config.undispatchedStart s.free)))) ∧
    (∀ (g : Fin 1024) (q : Nat),
      let k := some (g.val, q)
      let mine := s.pic.sheds.filter fun x => x.recA == k || x.recB == k
      (s.frame? k = none → exec (.recordRelease g q) s = .next s) ∧
      ∀ f, s.frame? k = some f →
        let waits := f.passed = false ∨ s.pic.sel.recA = k ∨ s.pic.sel.recB = k ∨ ∃ x ∈ mine, s.trd.now.atOrAfter x.deadline = false
        let s1 := State.elapse ((mine.map fun x => s.toAction x.deadline).foldl max 0) s
        (waits → exec (.recordRelease g q) s = .next s) ∧
        (¬waits → ∃ t, exec (.recordRelease g q) s = .next t ∧
          s1.framePosted t f (if f.darned then 1 else 0) 0 (match f.first with
            | some a => a.bits
            | none => s1.trd.now.bits) ∧
          t.frame? k = none ∧ t.pic = { s1.pic with fifo := s1.pic.fifo.filter fun x => x.key != (g.val, q) } ∧
          t.rd Reg.PIC_SKIP_CNT = (if f.uses = 0 then counted (s1.rd Reg.PIC_SKIP_CNT) else s1.rd Reg.PIC_SKIP_CNT) ∧
          t = { s1 with regs := t.regs, ten := t.ten, pic := t.pic })) ∧
    (∃ t, exec .readmit s = .next t ∧ t.bit Reg.PIC_STATUS Reg.PIC_STATUS_ADMIT_BUSY = true ∧ t = { s with regs := t.regs } ∧
      ∀ o, o ≠ Reg.PIC_STATUS → t.rd o = s.rd o) ∧
    (s.bit Reg.PIC_STATUS Reg.PIC_STATUS_ADMIT_BUSY = false → exec .admissionComplete s = .next s) ∧
    (s.bit Reg.PIC_STATUS Reg.PIC_STATUS_ADMIT_BUSY = true →
      let a := s.admission
      let cfg := s.rd Reg.PIC_CFG
      let first := s.fld Reg.PIC_CFG Reg.PIC_CFG_LADDER_MIN
      let passes := fun (l : Nat) => (s.checkLevel l).passes = true
      (∃ t, exec .admissionComplete s = .next t ∧ t.pic = { s.pic with next := some a } ∧
        t.bit Reg.PIC_STATUS Reg.PIC_STATUS_ADMIT_BUSY = false ∧ t.rd Reg.PIC_ADMIT_CNT = counted (s.rd Reg.PIC_ADMIT_CNT) ∧
        (t.rd Reg.PIC_LADDER_CNT).toNat = min (2 ^ 32 - 1) ((s.rd Reg.PIC_LADDER_CNT).toNat + (a.level - s.pic.admitNow.level)) ∧
        t = { s with regs := t.regs, pic := t.pic } ∧
        ∀ o, o ∉ [Reg.PIC_STATUS, Reg.PIC_ADMIT_CNT, Reg.PIC_LADDER_CNT] → t.rd o = s.rd o) ∧
      (a.tackOnly = false → a = s.checkLevel a.level ∧ first ≤ a.level ∧ a.level ≤ 7 ∧ passes a.level ∧
        ∀ l, first ≤ l → l < a.level → ¬passes l) ∧
      (a.tackOnly = true ↔ (∀ l, first ≤ l → l ≤ 7 → ¬passes l) ∨ resLooms cfg = 0 ∨ s.validLooms.length < 8 ∨
        s.netAt 2 0 a.factor = none) ∧
      ∀ l, let c := s.checkLevel l
        let macs := ((s.levelNets cfg l c.factor).map fun x => x.macCycles).sum
        (passes l ↔ 9 * c.need ≤ 8 * c.capP0 ∧ 9 * c.need ≤ 8 * c.capP1 ∧ 9 * c.bytesNeed ≤ 8 * c.bytesCap ∧ c.lbOk = true) ∧
        c.looms = min (resLooms cfg) s.validLooms.length ∧
        240 ≤ c.need ∧ (0 < c.looms → c.looms * (c.need - 240) < macs + c.looms) ∧ macs ≤ (c.need - 240) * max 1 c.looms ∧
        ∀ (st : Nat) (n : Network), s.netAt st l c.factor = some n →
          let fits := fun (m : Network) => m ∈ s.validNets ∧ m.stage = st ∧ (st = 2 → m.factor = c.factor)
          fits n ∧ ((∃ m, fits m ∧ l ≤ m.rung) → l ≤ n.rung) ∧ (∀ m, fits m → l ≤ n.rung → l ≤ m.rung → n.rung ≤ m.rung) ∧
          ∀ m, fits m → n.rung < l → m.rung ≤ n.rung) ∧
    (let s0 := State.elapse (s.toAction (s.launchStamp s.nextFrame 0)) s
     (s.loadState ≠ 5 ∨ s.atLine (s.launchStamp s.nextFrame 0) = false → exec .enhancedSwitch s = .next s) ∧
     (s.loadState = 5 → s.atLine (s.launchStamp s.nextFrame 0) = true →
      (s0.pic.next = none → exec .enhancedSwitch s = .next s0) ∧
      ∀ a, s0.pic.next = some a → a.level < 8 → a.looms < 32 → a.factor < 8 → ∃ t, exec .enhancedSwitch s = .next t ∧
        t.pic = { s0.pic with admitNow := a, next := none } ∧
        t.fld Reg.PIC_STATUS Reg.PIC_STATUS_ENHANCED = (if a.tackOnly then 0 else 1) ∧ t.fld Reg.PIC_ADMIT Reg.PIC_ADMIT_LEVEL = a.level ∧
        t.fld Reg.PIC_ADMIT Reg.PIC_ADMIT_TACK_ONLY = (if a.tackOnly then 1 else 0) ∧ t.fld Reg.PIC_ADMIT Reg.PIC_ADMIT_LOOMS = a.looms ∧
        t.fld Reg.PIC_ADMIT Reg.PIC_ADMIT_N = a.factor ∧ t.rd Reg.PIC_NEED = BitVec.ofNat 32 a.need ∧
        t.rd Reg.PIC_CAP_P0 = BitVec.ofNat 32 a.capP0 ∧ t.rd Reg.PIC_CAP_P1 = BitVec.ofNat 32 a.capP1 ∧
        (∀ n, n ∈ t.reserved ↔ n ∈ s0.validLooms.drop (s0.validLooms.length - if resLooms a.cfg = 0 then 0 else a.looms)) ∧
        let r := { s0 with regs := t.regs, pic := t.pic, looms := t.looms, mem := t.mem, ten := t.ten, pwr := t.pwr }
        t = { r with sht := t.sht, slv := t.slv, free := t.free }))

/-- Selection: with re-time off A is the newest eligible record at or before P_f, else the A before (R424, R430, R431); with re-time on the pair
around the target time, its phase, and the repeat of a late intake (R425, R426, R428, R429); a chosen record that is not usable leaves with SHAPE, and
the choice is made as if it had never been there (R423, R433); a complete box list waits for the record after its own (R435, R436). Row SELECTION. -/
def Obligations.FramesSelectTheirRecords : Prop :=
  ∀ s : State,
    let f := s.nextFrame
    let pf := s.launchStamp f 0
    let s0 := (State.elapse (s.toAction pf) s).adopt
    (s.darkFrame f = true ∨ s.atLine pf = false → exec .selection s = .next s) ∧
    (s.atLine pf = true → s.darkFrame f = false → let e := State.elapse (s.toAction pf) s
      (e.pic.selected && e.pic.sel.frame == f) = true → exec .selection s = .next e) ∧
    (s.atLine pf = true → s.darkFrame f = false → (let e := State.elapse (s.toAction pf) s
       (e.pic.selected && e.pic.sel.frame == f) = false) →
      (s0.pic.fifo.map fun r => r.key).Nodup → s0.pic.fifo.length ≤ 8 → s0.pic.sel.phase < 64 →
      let old := s0.pic.sel.recA
      (∃ t, exec .selection s = .next t ∧
        let c := t.pic.sel
        let gone := fun (r : FrameRec) => ∀ x ∈ t.pic.fifo, x.key ≠ r.key
        let u : State := { s0 with pic := { s0.pic with fifo := s0.pic.fifo.filter fun x => t.pic.fifo.any fun y => y.key == x.key } }
        t.pic.selected = true ∧ c.frame = f ∧
        c.recA = (u.choose f).1.recA ∧ c.recB = (u.choose f).1.recB ∧ c.phase = (u.choose f).1.phase ∧ c.hold = (u.choose f).1.hold ∧
        (∀ r ∈ t.pic.fifo, c.recA = some r.key ∨ c.recB = some r.key → s0.usable r = true) ∧
        (∀ r ∈ s0.pic.fifo, gone r → s0.usable r = false ∧ ∃ x ∈ t.ten.recs, x.ring = r.ring ∧ x.seq = r.seq ∧ bytesAt x.data 8 1 = 0x32) ∧
        (∀ k, c.recA = some k → (t.rd Reg.PIC_SEL_A).toNat = k.2 % 2 ^ 32) ∧ (∀ k, c.recB = some k → (t.rd Reg.PIC_SEL_B).toNat = k.2 % 2 ^ 32) ∧
        t.fld Reg.PIC_SEL_PHASE Reg.PIC_SEL_PHASE_HOLD = (if c.hold then 1 else 0) ∧
        t.rd Reg.PIC_LATE_INTAKE_CNT = (if (u.choose f).2 then counted (s0.rd Reg.PIC_LATE_INTAKE_CNT) else s0.rd Reg.PIC_LATE_INTAKE_CNT) ∧
        (∀ b, s0.pic.boxNext = some b →
          if c.recA = some b.rec_ then t.pic.boxNext = some b ∧ t.pic.boxes = s0.pic.boxes
          else t.pic.boxNext = none ∧ t.pic.boxes = some b ∧
            t.rd Reg.PIC_LATE_LIST_CNT = (if old = some b.rec_ then s0.rd Reg.PIC_LATE_LIST_CNT else counted (s0.rd Reg.PIC_LATE_LIST_CNT))) ∧
        (∀ k, s0.pic.boxNext = none → s0.regionOn = true → c.recA = some k → old ≠ some k → t.pic.detect = some (f, k.1, k.2)) ∧
        t = { s0 with regs := t.regs, pic := t.pic, ten := t.ten } ∧ t.ten.descs = s0.ten.descs ∧ t.pic.sheds = s0.pic.sheds ∧
        t.pic.admitNow = s0.pic.admitNow) ∧
      ∀ r, s0.frame? (s0.choose f).1.recA = some r → s0.usable r = false → ∃ t, exec .selection s = .next t ∧ t.frame? (some r.key) = none) ∧
    ((s.pic.fifo.map fun r => r.key).Nodup → s.pic.sel.phase < 64 →
      let elig := s.pic.fifo.filter s.frameEligible
      let c := (s.choose f).1
      let held := s.frame? s.pic.sel.recA
      let back := if s.retiming then Reg.PIC_RT_DELAY_LINES.get s.pic.admitNow.rtDelay * 64 else 0
      let newest := (elig.filter fun r => decide ((back : Int) ≤ s.picksBetween pf r.pstamp)).getLast?
      let a? := match newest with
        | some a => some a
        | none => held
      let after := fun (a : FrameRec) => ((s.pic.fifo.dropWhile fun r => r.key != a.key).drop 1).filter s.frameEligible
      (a? = none → c.recA = none ∧ c.recB = none ∧ c.phase = 0 ∧ c.hold = false ∧ (s.choose f).2 = false) ∧
      (s.retiming = false → ∀ a, a? = some a → c.recA = some a.key ∧ c.recB = none ∧ c.phase = 0 ∧ c.hold = false ∧
        ((s.choose f).2 = true ↔ some a.key = s.pic.sel.recA ∧ after a = [])) ∧
      (s.retiming = true → ∀ a, a? = some a →
        (∀ b l, after a = b :: l → (s.choose f).2 = false ∧
          c.recA = some a.key ∧ c.recB = some b.key ∧ c.hold = false ∧ c.phase ≤ 63 ∧
          (0 < s.picksBetween b.pstamp a.pstamp →
            (c.phase : Int) = min 63 (max 0 (64 * (s.picksBetween pf a.pstamp - back) / s.picksBetween b.pstamp a.pstamp)))) ∧
        (after a = [] →
          if s.pic.sel.recA ≠ none ∧ s.pic.sel.recB ≠ none
          then c.recA = s.pic.sel.recA ∧ c.recB = s.pic.sel.recB ∧ c.phase = s.pic.sel.phase ∧ c.hold = true ∧ (s.choose f).2 = true
          else c.recA = some a.key ∧ c.recB = none ∧ c.phase = 0 ∧ c.hold = false ∧ (s.choose f).2 = false)))

/-- Sheds: one launches at each launch stamp, none in a frame without picture (R439, R440, R443); it ends with its lines, or at its deadline, late
and counted (R441, R442); outside the destination its lines are PIC_BLACK (R412); the Tack scaler gives each its lines (R463); the box list is built after
the last shed of the frame the detector ran in (R434). The networks' cells are free values (log 60, 61). Rows SHED_LAUNCH, SHED_END, SHED_DEADLINE,
TACK_SHED_COMPLETE and BOX_LIST_BUILD. -/
def Obligations.ShedsRunAndEnd : Prop :=
  ∀ s : State,
    (s.shedNow = none → exec .shedLaunch s = .next s) ∧
    (∀ f i, s.shedNow = some (f, i) →
      let s0 := State.elapse (s.toAction (s.launchStamp f i)) s
      let s1 := if i = 0 then s0.select f else s0
      (s.darkFrame f = true ∨ s.pic.last = some (f, i) → exec .shedLaunch s = .next s) ∧
      (s.darkFrame f = false → s.pic.last ≠ some (f, i) →
        ((s1.pic.selected && s1.pic.sel.frame == f) = false → exec .shedLaunch s = .next s0) ∧
        ((s1.pic.selected && s1.pic.sel.frame == f) = true → ∃ t x,
        exec .shedLaunch s = .next t ∧ t.pic.sheds.getLast? = some x ∧ t.pic.sheds.length ≤ 4 ∧
        x.frame = f ∧ x.index = i ∧ x.launch = s.lineStamp f (16 * i - 48) ∧ x.deadline = s.lineStamp f (16 * i - 2) ∧
        x.recA = s1.pic.sel.recA ∧ x.recB = (if x.nets then s1.pic.sel.recB else none) ∧ x.phase = s1.pic.sel.phase ∧ x.nets = s1.runsNets ∧
        x.ended = false ∧ x.late = false ∧ x.net = none ∧ x.tack = none ∧ t.pic.last = some (f, i) ∧ t.pic.sel = s1.pic.sel ∧
        ((∀ y ∈ s1.pic.sheds, y.ended = true) → x.begun = some s1.trd.cclk ∧
          (x.nets = true → t.sht = s1.startLooms.sht ∧ t.mem = s1.startLooms.mem)) ∧
        ((∀ y ∈ s1.pic.sheds, y.isAt f i = false) → (∃ y ∈ s1.pic.sheds.drop (s1.pic.sheds.length - 3), y.ended = false) → x.begun = none) ∧
        t.rd Reg.IMG_T_NET = (if x.nets ∧ s1.rd Reg.IMG_T_NET = 0#32 then BitVec.ofNat 32 (s1.trd.time / usTime) else s1.rd Reg.IMG_T_NET) ∧
        t = { s1 with regs := t.regs, pic := t.pic, sht := t.sht, mem := t.mem, free := t.free } ∧
        ∀ o, o ≠ Reg.IMG_T_NET → t.rd o = s1.rd o))) ∧
    ((s.pic.sheds.find? fun x => !x.ended) = none → exec .shedDeadline s = .next s ∧ ∀ darned, exec (.shedEnd darned) s = .next s) ∧
    ((s.pic.sheds.map fun x => (x.frame, x.index)).Nodup → ∀ x, (s.pic.sheds.find? fun x => !x.ended) = some x →
      let next := fun (t : State) (c : Nat) => ∀ z, (t.pic.sheds.find? fun z => !z.ended) = some z →
        z.begun = some c ∨ s.shed? z.frame z.index = some z ∧ z.begun.isSome = true
      let rest := fun (u t : State) => t = { u with regs := t.regs, pic := t.pic, slv := t.slv, sht := t.sht, mem := t.mem, free := t.free } ∧
        t.pic = { u.pic with sheds := t.pic.sheds, fifo := t.pic.fifo }
      let quiet := fun (t : State) => t.regs = s.regs ∧ t.slv = s.slv ∧ ∀ y ∈ s.pic.fifo, some y.key ≠ x.recA → some y.key ≠ x.recB → y ∈ t.pic.fifo
      (∀ darned,
        ((s.pastDeadline x = true ∨ x.begun = none ∨ x.nets = true ∧ (s.weightsHere = false ∨ s.stripWaits x = true) ∨
            x.nets = false ∧ x.tack = none) → exec (.shedEnd darned) s = .next s) ∧
        (s.pastDeadline x = false → x.begun ≠ none → x.nets = true → s.weightsHere = true → s.stripWaits x = false →
          ∃ t, exec (.shedEnd darned) s = .next t ∧
          t.shed? x.frame x.index = some { x with ended := true, net := some (s.runNets x darned).1, halo := (s.runNets x darned).2 } ∧
          next t (s.trd.cclk + 1) ∧ rest s t ∧ quiet t ∧
          (∀ y ∈ s.pic.fifo, some y.key = x.recA → (if darned = [] then y else { y with darned := true }) ∈ t.pic.fifo)) ∧
        (s.pastDeadline x = false → x.begun ≠ none → x.nets = false → x.tack ≠ none → ∃ t, exec (.shedEnd darned) s = .next t ∧
          t.shed? x.frame x.index = some { x with ended := true } ∧ next t (s.trd.cclk + 1) ∧ rest s t ∧ quiet t ∧ t.pic.fifo = s.pic.fifo)) ∧
      (∀ darned, let lines := (s.runNets x darned).1
        lines.length = (s.shedLines x.index).length ∧
        ∀ (r y : Nat), (s.shedLines x.index)[r]? = some y → ∃ row, lines[r]? = some row ∧ row.length = s.trd.timing.hActive ∧
          ∀ (c : Nat) p, row[c]? = some p → (s.inDst c y = none → p = { s.blackPixel with darn := p.darn }) ∧
            (s.inDst c y ≠ none → s.shedNets ≠ [] → p.y < 1024 ∧ p.cb < 1024 ∧ p.cr < 1024) ∧
            ∀ (e : Nat) o, e / 8 = c / 8 → row[e]? = some o → o.darn = p.darn) ∧
      (s.trd.now.atOrAfter x.deadline = true →
        let s0 := State.elapse (s.toAction x.deadline) s
        ∃ t, exec .shedDeadline s = .next t ∧ t.shed? x.frame x.index = some { x with ended := true, late := true, net := none } ∧
          next t s0.trd.cclk ∧
          t.rd Reg.PIC_LATE_SHED_CNT = counted (s0.rd Reg.PIC_LATE_SHED_CNT) ∧ t.holdsStamp Reg.PIC_LATE_LO Reg.PIC_LATE_HI x.deadline ∧
          rest s0 t ∧ t.pic.fifo = s0.pic.fifo ∧ t.slv = { s0.slv with mapWaits := t.slv.mapWaits } ∧ t.stripWaits x = false ∧
          ∀ o, o ∉ [Reg.PIC_LATE_SHED_CNT, Reg.PIC_LATE_LO, Reg.PIC_LATE_HI] → t.rd o = s0.rd o) ∧
      (s.trd.now.atOrAfter x.deadline = false → exec .shedDeadline s = .next s)) ∧
    ((s.pic.sheds.find? fun x => x.tack.isNone && !s.pastDeadline x) = none → exec .tackShedComplete s = .next s) ∧
    ((s.pic.sheds.map fun x => (x.frame, x.index)).Nodup → ∀ x,
      (s.pic.sheds.find? fun x => x.tack.isNone && !s.pastDeadline x) = some x → ∃ t, exec .tackShedComplete s = .next t ∧
        let lines := s.tackLines x
        t.shed? x.frame x.index = some { x with tack := some lines } ∧ lines.length = (s.shedLines x.index).length ∧
        (∀ (r y : Nat), (s.shedLines x.index)[r]? = some y → ∃ row, lines[r]? = some row ∧ row.length = s.trd.timing.hActive ∧
          ∀ (c : Nat) p, row[c]? = some p →
            (s.inDst c y = none ∨ s.frame? x.recA = none → p = { s.blackPixel with darn := p.darn }) ∧
            (∀ a, s.frame? x.recA = some a → ∀ u v, s.inDst c y = some (u, v) → p.y = (s.tackSample a 0 s.dstSize u v).1 ∧
              p.cb = (s.tackSample a 1 s.dstSize u v).1 ∧ p.cr = (s.tackSample a 2 s.dstSize u v).1 ∧ p.y ≤ 1023) ∧
            ∀ a, s.frame? x.recA = some a → p.darn = (List.range s.trd.timing.hActive).any fun e => e / 8 == c / 8 && match s.inDst e y with
              | some (u, v) => (List.range 3).any fun k => (s.tackSample a k s.dstSize u v).2
              | none => false) ∧
        t.pic.fifo = (if lines.any fun l => l.any fun p => p.darn
          then s.pic.fifo.map fun y => if some y.key = x.recA then { y with darned := true } else y else s.pic.fifo) ∧
        t = { s with pic := t.pic } ∧ t.pic = { s.pic with sheds := t.pic.sheds, fifo := t.pic.fifo }) ∧
    (s.pic.detect = none → exec .boxListBuild s = .next s) ∧
    ∀ f k, s.pic.detect = some (f, k) →
      ((∀ x ∈ s.pic.sheds, x.isAt f (s.shedCount - 1) = true → x.ended = false) → exec .boxListBuild s = .next s) ∧
      ((∃ x ∈ s.pic.sheds, x.isAt f (s.shedCount - 1) = true ∧ x.ended = true) → ∃ t b, exec .boxListBuild s = .next t ∧
        t.pic = { s.pic with detect := none, boxNext := some b } ∧ b.rec_ = k ∧ (∀ x ∈ b.boxes, x.length = 16) ∧
        b.boxes.length ≤ s.fld Reg.PIC_RGN_CFG Reg.PIC_RGN_CFG_MAX_BOXES ∧ t = { s with pic := t.pic, free := s.free + 1 })


/-! Chapter 9: the image operators. -/

/-- CONV and CONV_T write every output in its place and take the CCLK of their sweeps (R475, R486, R498, R526); a dense kernel of one sweep takes
its expansion, its run and 5 CCLK (R480, R481, R487, R488), and an integer output is the sum of R475 with padding, bias, ReLU, SHIFT and narrowing
(R476, R478, R482). Both read their operands once what other looms have modified of them has come back (R314), and end with SHAPE where the problem is
not legal. Rows CONV and CONV_T. -/
def Obligations.ConvolutionsRun : Prop :=
  ∀ (s₀ : State) (g : Fin 1024) (q : Nat) (tr : Bool) (d : Desc) (s : State), s₀.opReady g q (if tr then 0x0201 else 0x0200) = some (d, s) →
    let refs := s.opRefs d 4
    let c : ConvProblem := ⟨d.convArgs, tr, refAt refs 0, refAt refs 1, refAt refs 2, refAt refs 3, d.work.length⟩
    let i : Instr := if tr then .convT g q else .conv g q
    let inputs := c.x.runsIn 0 ++ c.w.runs 1 ++ (if c.bias.base = 0 then [] else c.bias.runs 2)
    let outs := c.z.outRunsIn fun i j k => (s.convElem d c i j k, s.convDarn d c i j k)
    (c.legal d.l1q = true → s.operandsReady d 128 inputs outs → ∃ t, exec i s₀ = .next t ∧ s.operatorRuns t d outs c.cycles) ∧
    (c.legal d.l1q = false → s.firstFault d.loom0 d.tenant false [(0, d.argPtr, 128)] = none → ∃ t, exec i s₀ = .next t ∧
      s.completes t d 0x32 0) ∧
    (∀ r, c.cycles r = let rows := rankRows c.z.dim1 c.looms r
      if rows.2 ≤ rows.1 then 0
      else (if c.x.layout = 1 then ceilDiv (packedBytes c.x (c.args.inputRows tr rows)) 64 else 0) +
        ((c.timed rows).head?.map fun x => x.1).getD 0 + sweepSum (c.timed rows) + 5) ∧
    (tr = false → 1 ≤ c.args.kh → c.args.kh ≤ 5 → 1 ≤ c.args.kw → c.args.kw ≤ 5 → c.args.groups = 1 → 4 ≤ c.x.dim2 →
      c.x.dim2 * (c.args.kh * c.args.kw) ≤ 1024 →
      (c.x.layout = 0 → ∀ p, convPair c.x.elem c.w.elem = some p → ∀ r,
        let rows := rankRows c.z.dim1 c.looms r
        let m := (rows.2 - rows.1) * c.z.dim0
        let k := c.x.dim2 * (c.args.kh * c.args.kw)
        rows.1 < rows.2 → c.cycles r = ceilDiv (4 * ceilDiv m 4 * (ceilDiv (c.x.elem.rowBytes k) 32 * 32)) 128 +
          ceilDiv (ceilDiv c.z.dim2 4 * ceilDiv (ceilDiv k p.1) 16) 4 * max (ceilDiv m 4) 4 * p.2 + 5) ∧
      (c.x.elem.float = none → c.x.elem ≠ .uint16 → ∀ x y co : Nat, co < c.z.dim2 →
        let term := fun (ch ky kx : Nat) =>
          let at_ : Int × Int := ((x : Int) * c.args.sw - c.args.padL + kx * c.args.dw, (y : Int) * c.args.sh - c.args.padT + ky * c.args.dh)
          c.x.elem.intOf (s.convInput d c (some at_) ch).1 *
            c.w.elem.intOf (s.elemIn d c.w co ((ch * c.args.kh + ky) * c.args.kw + kx) 0).1
        let sum := ((List.range c.x.dim2).map fun ch => ((List.range c.args.kh).map fun ky => ((List.range c.args.kw).map fun kx =>
          term ch ky kx).sum).sum).sum + (if c.bias.base = 0 then 0 else Elem.int32.intOf (s.elemIn d c.bias co 0 0).1)
        let v := signedOf 32 (sum % 2 ^ 32).toNat
        s.convElem d c x y co = c.z.elem.narrow d.profile.sat ((if c.args.act = 1 then max 0 v else v) / 2 ^ c.args.shift))) ∧
    ∀ (x y : Int) ch, let inside := 0 ≤ x ∧ x < c.x.dim0 ∧ 0 ≤ y ∧ y < c.x.dim1
      (inside → s.convInput d c (some (x, y)) ch = s.elemIn d c.x x.toNat y.toNat ch) ∧
      (¬inside → c.args.near = false → (s.convInput d c (some (x, y)) ch).1 = 0)

/-- The other image operators write what their rules give and take the CCLK of Table 9.7, once what other looms have modified of their operands has
come back (R314): conversions of layout, POOL, CROP_RESIZE and PASTE (R516 to R521, R527); BOX_DECODE keeps candidates by score (R509, R510); NMS keeps
boxes in order of score, none suppressed by one kept before it (R512 to R514). Rows TO_PLANAR, TO_PACKED, POOL, CROP_RESIZE, PASTE, BOX_DECODE and NMS. -/
def Obligations.ImageOperatorsRun : Prop :=
  ∀ (s₀ : State) (g : Fin 1024) (q code : Nat) (d : Desc) (s : State), s₀.opReady g q code = some (d, s) →
    let run := fun (i : Instr) (args : Nat) (ins : List (Nat × Nat × Nat)) (outs : List OutRun) (cycles : Nat → Nat) =>
      s.operandsReady d args ins outs → ∃ t, exec i s₀ = .next t ∧ s.operatorRuns t d outs cycles
    let r := fun n k => refAt (s.opRefs d n) k
    let a := d.convArgs
    let share := fun (z : TRef) k => rankRows z.dim1 d.work.length k
    let recoded := fun (x z : TRef) => z.outRunsIn fun i j k => (recode d.profile x z (s.elemIn d x i j k).1, (s.elemIn d x i j k).2)
    let moved := fun (x z : TRef) k =>
      if (share z k).2 ≤ (share z k).1 then 0 else ceilDiv (x.bytesOf ((share z k).2 - (share z k).1)) 64 + 16
    (code = 0x0208 → (r 2 0).legal true = true → (r 2 1).legal false = true → (r 2 0).sameShape (r 2 1) = true →
      d.inl 0 16 = 0 → run (.toPlanar g q) 64 ((r 2 0).runsIn 0) (recoded (r 2 0) (r 2 1)) (moved (r 2 0) (r 2 1))) ∧
    (code = 0x0209 → (r 2 0).legal false = true → (r 2 1).legal true = true → (r 2 0).sameShape (r 2 1) = true →
      d.inl 0 16 = 0 → run (.toPacked g q) 64 ((r 2 0).runsIn 0) (recoded (r 2 0) (r 2 1)) (moved (r 2 0) (r 2 1))) ∧
    (code = 0x0210 → (r 2 0).legal true = true → (r 2 1).legal false = true → a.clean = true → (r 2 0).dim2 = (r 2 1).dim2 →
      1 ≤ a.kh → a.kh ≤ 31 → 1 ≤ a.kw → a.kw ≤ 31 → 1 ≤ a.sh → 1 ≤ a.sw → a.dh = 0 → a.dw = 0 →
      run (.pool g q) 64 ((r 2 0).runsIn 0) ((r 2 1).outRunsIn fun i j k =>
          let taps := s.poolTaps d a (r 2 0) i j k
          let v := poolNum d.profile (r 2 0) a.mode (taps.map fun e => e.1)
          ((r 2 1).code d.profile (if a.act = 1 then activateNum 0 v else v), taps.any fun e => e.2))
        fun k => let rows := share (r 2 1) k
          if rows.2 ≤ rows.1 then 0
          else (if (r 2 0).layout = 1 then ceilDiv (packedBytes (r 2 0) ({ a with dh := 1 }.inputRows false rows)) 64 else 0) +
            ceilDiv ((rows.2 - rows.1) * (r 2 1).dim0 * (r 2 1).dim2 * a.kh * a.kw) 64 + 16) ∧
    (code = 0x0220 → cropLegal d (r 3 0) (r 3 1) (r 3 2) (r 3 2) true = true →
      let list := s.boxListBytes d (r 3 1)
      run (.cropResize g q) 96 ((r 3 0).runsIn 0 ++ (r 3 1).runs 1)
        ((List.range (d.inl 2 2)).flatMap fun b =>
          let box := boxAt list (d.inl 0 2 + b)
          ({ r 3 2 with base := (r 3 2).base + b * d.inl 4 4 } : TRef).outRuns fun i j k =>
            if box.empty then (0, false)
            else
              let t := bilinear (r 3 0) d.profile (fun x y => s.elemIn d (r 3 0) x y k)
                (16 * (box.x0 : Int) + 16 * (2 * (i : Int) + 1) * ((box.x1 : Int) - box.x0) / (2 * ((r 3 2).dim0 : Int)) - 32)
                (16 * (box.y0 : Int) + 16 * (2 * (j : Int) + 1) * ((box.y1 : Int) - box.y0) / (2 * ((r 3 2).dim1 : Int)) - 32)
              (resampled (r 3 0) (r 3 2) d.profile t, t.2.2))
        fun k => let mine := rankBoxes (d.inl 2 2) d.work.length k
          (if (r 3 0).layout = 1 ∧ mine ≠ [] then ceilDiv ((r 3 0).bytesOf (r 3 0).dim1) 64 else 0) +
            (mine.map fun _ => 24 + ceilDiv ((r 3 2).dim0 * (r 3 2).dim1 * (r 3 2).dim2) 16).sum) ∧
    (code = 0x0221 → cropLegal d (r 3 0) (r 3 1) (r 3 2) (r 3 0) false = true →
      let list := s.boxListBytes d (r 3 1)
      let covered := fun (b : Nat) => ((List.range (r 3 2).dim1).map fun y =>
        ((List.range (r 3 2).dim0).filter fun i => (boxAt list (d.inl 0 2 + b)).covers i y).length).sum
      run (.paste g q) 96
        (((List.range (d.inl 2 2)).flatMap fun b => if (boxAt list (d.inl 0 2 + b)).empty then []
          else ({ r 3 0 with base := (r 3 0).base + b * d.inl 4 4 } : TRef).runs 0) ++ (r 3 1).runs 1)
        ((r 3 2).rows.flatMap fun x => s.pasteRow d (r 3 0) (r 3 2) list x.1 x.2)
        fun k => ((rankBoxes (d.inl 2 2) d.work.length k).map fun b => 24 + ceilDiv (covered b * (r 3 2).dim2) 16).sum) ∧
    (code = 0x0228 → (∀ x ∈ s.opRefs d 4, x.legal false = true) → (r 4 0).elem = .fp16 →
      (r 4 1).elem ∈ [Elem.fp16, .bf16, .fp32] → (r 4 2).elem ∈ [Elem.fp16, .bf16, .fp32] → (r 4 3).boxLegal = true → (r 4 0).dim0 = 4 →
      (r 4 1).dim0 = 4 → (r 4 1).dim1 = (r 4 0).dim1 → (r 4 2).dim1 = (r 4 0).dim1 → 1 ≤ (r 4 3).boxCapacity →
      (r 4 3).boxCapacity ≤ 1024 → d.inl 7 1 = 0 → d.inl 12 4 = 0 →
      let cap := (r 4 3).boxCapacity
      let cand := s.boxCandidates d (r 4 0) (r 4 1) (r 4 2)
      let kept := keepBoxes cap cand
      run (.boxDecode g q) 128 ((r 4 0).runs 0 ++ (r 4 1).runs 1 ++ (r 4 2).runs 2)
          [⟨(r 4 3).base, boxList cap (d.inl 8 2) (d.inl 10 2) (decide (cap < cand.length)) kept, kept.any fun b => b.darn⟩]
          (fun k => if k = 0 then 64 + ceilDiv ((r 4 0).dim1 * (r 4 2).dim0) 16 + 4 * cand.length else 0) ∧
        kept.length = min cap cand.length ∧ (∀ b ∈ cand, d.inl 0 2 ≤ b.score ∧ b.empty = false) ∧
        (∀ b ∈ kept, b ∈ cand ∧ ∀ e ∈ cand, e ∉ kept → e.score < b.score ∨ (e.score = b.score ∧ b.src < e.src))) ∧
    (code = 0x0229 → (r 2 0).boxLegal = true → (r 2 1).boxLegal = true → 1 ≤ (r 2 0).boxCapacity →
      (r 2 0).boxCapacity ≤ 1024 → 1 ≤ (r 2 1).boxCapacity → (r 2 1).boxCapacity ≤ 1024 → d.inl 2 2 ≤ (r 2 1).boxCapacity →
      d.inl 4 1 < 2 → d.inl 5 11 = 0 →
      let list := s.boxListBytes d (r 2 0)
      let n := min (bytesAt list 0 2) (r 2 0).boxCapacity
      let top := orElse0 (d.inl 2 2) (r 2 1).boxCapacity
      ∃ kept : List (Nat × Box),
        run (.nms g q) 64 ((r 2 0).runs 0)
          [⟨(r 2 1).base, boxList (r 2 1).boxCapacity (bytesAt list 4 2) (bytesAt list 6 2) ((bytesAt list 8 1).testBit 0) (kept.map fun b => b.2),
            kept.any fun b => s.vaPoison d.loom0 d.tenant ((r 2 0).base + 16 + 16 * b.1) 16⟩]
          (fun k => if k = 0 then 64 + 4 * n + ceilDiv (n * top) 4 else 0) ∧
        kept.length ≤ top ∧ (∀ b ∈ kept, b.1 < n ∧ b.2 = boxAt list b.1 ∧ b.2.empty = false ∧ b.2.darn = false) ∧
        (kept.Pairwise fun x y => (y.2.score < x.2.score ∨ (y.2.score = x.2.score ∧ x.1 < y.1)) ∧
          suppresses (d.inl 0 2) (d.inl 4 1 % 2 == 1) x.2 y.2 = false) ∧
        (kept.length < top → ∀ i, i < n → (boxAt list i).empty = false → (boxAt list i).darn = false →
          (∀ b ∈ kept, b.1 ≠ i) → ∃ b ∈ kept, suppresses (d.inl 0 2) (d.inl 4 1 % 2 == 1) b.2 (boxAt list i) = true))

/-! Chapter 10: the sequence engine. -/

/-- Sequences: OPEN takes the lowest free record and in walker mode a directory (R529, R536, R540, R581, R587, R596); CLOSE frees what a sequence holds, and
TRUNCATE every page wholly at or beyond its LEN (R597); the engine's enable, stop and initialisation (R590, R591), and KV-TLB invalidation (R601). Rows
KV_SEQ_OPEN, KV_SEQ_CLOSE, KV_SEQ_TRUNCATE, SEQ_ENABLE, SEQ_DISABLE, SEQ_INIT_DONE and SEQ_KVTLB_INV. -/
def Obligations.SequencesOpenAndClose : Prop :=
  (∀ (s₀ : State) (g : Fin 1024) (q : Nat) (d : Desc) (s : State), s₀.kvOpReady g q 0x0318 = some (d, s) →
    let c := s.descClass d
    let sub := d.inl 0 1
    let block := fun (n : Nat) => s.firstFault d.loom0 d.tenant false [(0, d.argPtr, n)] = none
    (s.kvOn = true → s.kvInit = true →
      (sub ≠ 1 → sub ≠ 2 → exec (.kvSeqOpen g q) s₀ = .next s) ∧ (sub = 1 → exec (.kvSeqClose g q) s₀ = .next s) ∧
      (sub = 2 → exec (.kvSeqTruncate g q) s₀ = .next s)) ∧
    (s.kvOn = false →
      let refused := fun (i : Instr) => ∃ t, exec i s₀ = .next t ∧ s.ends t d.ring d.seq 0x11 2 ∧ t.mem = s.mem ∧
        t.rd Reg.SEQ_KV_FAULT_CNT = counted (s.rd Reg.SEQ_KV_FAULT_CNT)
      (sub ≠ 1 → sub ≠ 2 → refused (.kvSeqOpen g q)) ∧ (sub = 1 → refused (.kvSeqClose g q)) ∧ (sub = 2 → refused (.kvSeqTruncate g q))) ∧
    (s.kvOn = true → s.kvInit = false → sub ≠ 1 → sub ≠ 2 →
      let out := refAt (s.opRefs d 1) 0
      let r := s.openRec d
      let ok := sub = 0 ∧ out.outLegal = true ∧ d.inl 1 1 ≤ 1 ∧ d.inl 7 1 = 0 ∧ d.inl 10 1 = 0 ∧ d.inl 11 1 = 0 ∧ d.inl 6 1 < 32 ∧ r.legal = true ∧
        (r.mmu = true ∨ r.pageBytes ≤ s.frameSize r.pool)
      (¬ok → block 56 → ∃ t, exec (.kvSeqOpen g q) s₀ = .next t ∧ s.completes t d 0x32 0) ∧
      (ok → s.kvReady d true 56 [] [(15, out.base, 4)] →
        ((∀ h, h < 16384 → (s.seqRec h).valid = true) → ∃ t, exec (.kvSeqOpen g q) s₀ = .next t ∧ s.ends t d.ring d.seq 0x11 2 ∧
          t.mem = s.mem ∧ t.rd Reg.SEQ_KV_FAULT_CNT = counted (s.rd Reg.SEQ_KV_FAULT_CNT)) ∧
        (∀ h, h < 16384 → (s.seqRec h).valid = false → (∀ k, k < h → (s.seqRec k).valid = true) →
          (r.mmu = true → ∃ t, exec (.kvSeqOpen g q) s₀ = .next t ∧
            t = ((s.setSeqRec c h r).vaWrite d.loom0 d.tenant out.base (leBytes 4 h) c).kvDone d false) ∧
          (r.mmu = false → ∀ f, s.freeFrame 4 = some f → ∃ t, exec (.kvSeqOpen g q) s₀ = .next t ∧
            t = ((((s.takeFrame 4 f).walkerWrite c r.tenant (s.frameAddr 4 f) (List.replicate 4096 0#8)).setSeqRec c h
              { r with dir := f }).vaWrite d.loom0 d.tenant out.base (leBytes 4 h) c).kvDone d false) ∧
          (r.mmu = false → s.freeFrame 4 = none → s.kvRetrying d = [] → ∃ t f, exec (.kvSeqOpen g q) s₀ = .next t ∧
            (t.chan d.loom0 0).fault = some f ∧ f.kind = 1 ∧ f.cause = 2 ∧ t.mem = s.mem ∧
            t.rd Reg.SEQ_KV_FAULT_CNT = counted (s.rd Reg.SEQ_KV_FAULT_CNT) ∧ t = { s with regs := t.regs, sht := t.sht })))) ∧
    (s.kvOn = true → s.kvInit = false → sub = 1 ∨ sub = 2 →
      let h := d.inl 8 2
      let r := s.seqRec h
      let len := d.inl 12 4
      let ok := s.seqOk d h = true ∧ d.inl 7 1 = 0 ∧ d.inl 10 1 = 0 ∧ d.inl 11 1 = 0
      let shape := fun (i : Instr) => ∃ t, exec i s₀ = .next t ∧ s.completes t d 0x32 0
      (¬ok → block 32 → (sub = 1 → shape (.kvSeqClose g q)) ∧ (sub = 2 → shape (.kvSeqTruncate g q))) ∧
      (ok → s.kvReady d true 32 [] [] →
        (sub = 1 → ∃ t, exec (.kvSeqClose g q) s₀ = .next t ∧ t = (s.freeSeq c h).kvDone d false ∧
          (∀ e ∈ t.kv.tlb, e.handle ≠ h) ∧ (r.mmu = false → 4 * 65536 + r.dir ∉ t.kv.used)) ∧
        (sub = 2 → r.cap < len → ∃ t, exec (.kvSeqTruncate g q) s₀ = .next t ∧ s.ends t d.ring d.seq 0x11 2) ∧
        (sub = 2 → len ≤ r.cap →
          let gone := if r.mmu then [] else (s.seqPages r).filter fun x => decide (len ≤ 16 * x.1)
          let u := (gone.foldl (fun u x => u.freePage c h x.1 x.2) s).noteLastShared c h
          ∃ t, exec (.kvSeqTruncate g q) s₀ = .next t ∧ t = (u.setSeqRec c h { u.seqRec h with len := len }).kvDone d false)))) ∧
  ∀ s : State,
    (∀ v : Word,
      (s.kvOn = false → s.kvInit = false → ∃ t, exec (.seqEnable v) s = .next t ∧ t.kvOn = true ∧ t.kvInit = true ∧
        t.kv = { s.kv with init := some false } ∧ t.fld Reg.SEQ_CFG Reg.SEQ_CFG_AHEAD = Reg.SEQ_CFG_AHEAD.get v ∧
        t = { s with regs := t.regs, kv := t.kv } ∧ ∀ o, o ∉ [Reg.SEQ_CFG, Reg.SEQ_STATUS] → t.rd o = s.rd o) ∧
      (s.kvOn = true ∨ s.kvInit = true → ∃ t, exec (.seqEnable v) s = .next t ∧ t.kvOn = s.kvOn ∧
        t.fld Reg.SEQ_CFG Reg.SEQ_CFG_AHEAD = Reg.SEQ_CFG_AHEAD.get v ∧ t = { s with regs := t.regs } ∧
        ∀ o, o ≠ Reg.SEQ_CFG → t.rd o = s.rd o) ∧
      (s.kvOn = false → ∃ t, exec (.seqDisable v) s = .next t ∧ t.kvOn = false ∧ t.fld Reg.SEQ_CFG Reg.SEQ_CFG_AHEAD = Reg.SEQ_CFG_AHEAD.get v ∧
        t = { s with regs := t.regs } ∧ ∀ o, o ≠ Reg.SEQ_CFG → t.rd o = s.rd o) ∧
      (s.kvOn = true → (s.ten.descs.map fun d => (d.ring, d.seq)).Nodup → ∃ t, exec (.seqDisable v) s = .next t ∧ t.kvOn = false ∧ t.kvInit = true ∧
        t.kv.init = some true ∧ (s.boot.tripped = false → t.trd.cclk = s.trd.cclk + 1) ∧ t.mem = s.mem ∧
        ∀ d ∈ s.ten.descs, d.usesKv = true →
          (d.phase ≠ .running ∨ (∀ w ∈ d.work, w.begun = false) → t.desc? d.ring d.seq = none ∧ ∃ r ∈ t.ten.recs, r.ring = d.ring ∧ r.seq = d.seq ∧
            bytesAt r.data 8 1 = 0x11 ∧ bytesAt r.data 9 1 = 2) ∧
          (d.phase = .running → (∃ w ∈ d.work, w.begun = true) → d.stop = none → ∃ e, t.desc? d.ring d.seq = some e ∧ e.stop = some .kv ∧
            t.trd.cclk ≤ e.stopAt ∧ e.stopAt ≤ t.trd.cclk + 500 * usCclk t.op)) ∧
      (Reg.SEQ_KVTLB_INV_GO.get v = 0 → exec (.seqKvtlbInv v) s = .next s) ∧
      (Reg.SEQ_KVTLB_INV_GO.get v = 1 → ∃ t, exec (.seqKvtlbInv v) s = .next t ∧ t = { s with kv := { s.kv with tlb := t.kv.tlb } } ∧
        (Reg.SEQ_KVTLB_INV_SCOPE.get v = 0 → t.kv.tlb = []) ∧
        (Reg.SEQ_KVTLB_INV_SCOPE.get v = 1 → ∀ e, e ∈ t.kv.tlb ↔ e ∈ s.kv.tlb ∧ e.handle ≠ Reg.SEQ_KVTLB_INV_HANDLE.get v))) ∧
    (s.kv.init = none ∨ (s.kv.init = some true ∧ s.kv.moves ≠ []) → exec .seqInitDone s = .next s) ∧
    ∀ stop, s.kv.init = some stop → (stop = true → s.kv.moves = []) → ∃ t, exec .seqInitDone s = .next t ∧ t.kvInit = false ∧
      t.kv.tlb = [] ∧ t.kv.used = [] ∧ t.kv.init = none ∧
      (∀ p, p < 4 → t.fld (Reg.SEQ_POOL_FREE p) Reg.SEQ_POOL_FREE_FREE = s.fld (Reg.SEQ_POOL_CFG p) Reg.SEQ_POOL_CFG_FRAMES) ∧
      (∀ n, n < 256 → t.fld (Reg.SEQ_TEN_FRAMES n) Reg.SEQ_TEN_FRAMES_FRAMES = 0) ∧
      t.fld Reg.SEQ_PFX_USED Reg.SEQ_PFX_USED_COUNT = 0 ∧ t.mem = (if stop || s.kvOn then s.clearTables stop else s).mem ∧
      t = { s with mem := t.mem, regs := t.regs, kv := t.kv }

/-- The walker: a walk ends and fills the KV-TLB, in 2 CCLK on a hit (R543, R544); spills and bring-backs end when their bytes have moved (R584 to R586);
an append writes its pages, quantised (R549 to R551), a lookup takes and an insertion makes shared pages (R574 to R576), and a prefetch ends when its pages
are there (R598). Rows KV_WALK, SPILL, BRING_BACK, KV_APPEND, KV_PFX_LOOKUP, KV_PFX_INSERT and KV_PREFETCH. -/
def Obligations.TheWalkerMovesPages : Prop :=
  (∀ s : State, ∀ (h : Fin 16384) (p : Nat),
    (s.kvInit = true ∨ s.kvOn = false ∨ (s.seqRec h).valid = false ∨ (s.seqRec h).mmu = true → exec (.kvWalk h p) s = .next s) ∧
    (s.kvInit = false → s.kvOn = true → (s.seqRec h).valid = true → (s.seqRec h).mmu = false →
      let b := Bucket.tenant (s.seqRec h).tenant
      let free := s.bucketRate b = 0 ∨ min 384 (s.bucketCap b) ≤ s.bucketLevel b
      let r := s.seqRec h
      let reads := [s.seqAddr h, s.frameAddr 4 r.dir + 8 * (p / 512 % 512)] ++ (s.leafAddr r p).toList
      let cclk := if s.kvHit h p = none then (reads.map s.readCclk).sum else 2
      let s1 := State.elapseTo { s with free := s.free + 1 } (s.trd.cclk + cclk)
      (¬free → s.kvHit h p = none → exec (.kvWalk h p) s = .next s) ∧
      (free → s.kvHit h p = none → ∃ t e, exec (.kvWalk h p) s = .next t ∧ t.kvHit h p = some e ∧
        (s.bucketRate b ≠ 0 → t.bucketLevel b = s1.bucketLevel b - 384) ∧
        e.leaf = (s1.leafAt (s1.seqRec h) p).toNat ∧ e.slot = s.kvVictim ∧
        t.rd Reg.SEQ_KVTLB_MISS_CNT = counted (s1.rd Reg.SEQ_KVTLB_MISS_CNT) ∧
        t = { s1 with regs := t.regs, kv := t.kv, sht := t.sht } ∧
        (∀ x ∈ t.kv.tlb, x ≠ e → x ∈ s.kv.tlb ∧ x.slot ≠ e.slot) ∧ ∀ o, o ≠ Reg.SEQ_KVTLB_MISS_CNT → t.rd o = s1.rd o) ∧
      (s.kvHit h p ≠ none → ∃ t, exec (.kvWalk h p) s = .next t ∧ t = { s1 with kv := { s.kv with tlb := t.kv.tlb, use := s.kv.use + 1 } } ∧
        t.kv.tlb.map (fun e => (e.slot, e.handle, e.page, e.leaf)) = s.kv.tlb.map fun e => (e.slot, e.handle, e.page, e.leaf))) ∧
    (s.moveOf h p true = none → ∀ ok, exec (.spill h p ok) s = .next s) ∧
    (s.moveOf h p false = none → exec (.bringBack h p) s = .next s) ∧
    (∀ m, s.moveOf h p true = some m →
      let l := s.leafAt (s.seqRec h) p
      (∀ ok, ok = false ∨ m.failed = true → ∃ t, exec (.spill h p ok) s = .next t ∧ t = (s.endMove m).setLeaf .bulk h p { l with state := 1 }) ∧
      (m.failed = false → m.left ≠ 0 → exec (.spill h p true) s = .next s) ∧
      (m.failed = false → m.left = 0 → ∃ t, exec (.spill h p true) s = .next t ∧
        t.rd Reg.SEQ_SPILL_CNT = counted (s.rd Reg.SEQ_SPILL_CNT) ∧ t.moveOf h p true = none ∧ m.pool * 65536 + m.frame ∉ t.kv.used ∧
        t.mem = ((((s.endMove m).setLeaf .bulk h p { l with state := 2 }).giveFrame m.pool m.frame).loseFrame .bulk h).mem ∧
        t = { s with mem := t.mem, regs := t.regs, kv := t.kv, sht := t.sht })) ∧
    ∀ m, s.moveOf h p false = some m →
      let l := s.leafAt (s.seqRec h) p
      (m.failed = false → m.left ≠ 0 → exec (.bringBack h p) s = .next s) ∧
      (m.failed = false → m.left = 0 → ∃ t, exec (.bringBack h p) s = .next t ∧
        t.rd Reg.SEQ_BACK_CNT = counted (s.rd Reg.SEQ_BACK_CNT) ∧ t.moveOf h p false = none ∧
        (∀ w ∈ t.kv.waits, ¬(w.handle = h.val ∧ w.page = p)) ∧
        t.mem = ((s.endMove m).setLeaf .bulk h p { l with state := 1, unw := false }).mem ∧
        t = { s with mem := t.mem, regs := t.regs, kv := t.kv, sht := t.sht }) ∧
      (m.failed = true → ∃ t, exec (.bringBack h p) s = .next t ∧ t.moveOf h p false = none ∧ m.pool * 65536 + m.frame ∉ t.kv.used ∧
        ∀ w ∈ s.kv.waits, w.handle = h.val → w.page = p → t.desc? w.ring w.seq = none ∧ ∀ d, s.desc? w.ring w.seq = some d →
          ∃ r ∈ t.ten.recs, r.ring = d.ring ∧ r.seq = d.seq ∧ bytesAt r.data 8 1 = 0x12 ∧ bytesAt r.data 9 1 = 2)) ∧
  ∀ (s₀ : State) (g : Fin 1024) (q code : Nat) (d : Desc) (s : State), s₀.kvOpReady g q code = some (d, s) →
    let c := s.descClass d
    let h := d.inl 0 2
    let r := s.seqRec h
    let zeros := fun (l : List Nat) => ∀ o ∈ l, d.inl o 1 = 0
    (code = 0x0310 → s.seqOk d h = true →
      let k := refAt (s.opRefs d 2) 0
      let v := refAt (s.opRefs d 2) 1
      let pos0 := d.inl 4 4
      let n := d.inl 8 2
      let ins := k.runs 0 ++ if r.latent then [] else v.runs 1
      let outs := if r.mmu then (touchedPages pos0 n).map fun p => (15, r.dir + p * r.pageBytes + d.inl 2 1 * r.lb, r.lb) else []
      d.inl 2 1 < r.layers → 1 ≤ n → n ≤ 4096 → d.inl 3 1 ≤ 1 → zeros [10, 11, 12, 13, 14, 15] → k.legal false = true → k.dim0 = r.dim →
      (if r.latent = true then k.dim1 = n
        else k.dim1 = r.hkv ∧ k.dim2 = n ∧ v.legal false = true ∧ v.dim0 = r.dim ∧ v.dim1 = r.hkv ∧ v.dim2 = n) →
      (r.cap < pos0 + n → s.kvReady d true 64 ins [] → ∃ t, exec (.kvAppend g q) s₀ = .next t ∧ s.ends t d.ring d.seq 0x11 2 ∧ t.mem = s.mem) ∧
      (pos0 + n ≤ r.cap → s.kvReady d true 64 ins outs →
        let done := State.appendPages d c h k v (d.inl 2 1) pos0 n (touchedPages pos0 n) s
        (done.1 = .wait → exec (.kvAppend g q) s₀ = .next done.2) ∧
        (∀ cause x, done = (.fault cause, x) → exec (.kvAppend g q) s₀ = .next (x.kvHalt d cause (pos0 / 16 * r.pageBytes))) ∧
        (∀ i x, done = (.got i, x) →
          let y := if d.inl 3 1 = 1 then x.setSeqRec c h { x.seqRec h with len := max (x.seqRec h).len (pos0 + n) } else x
          ∃ t, exec (.kvAppend g q) s₀ = .next t ∧ ∃ b,
            t = (y.kvSettled d).workDone d (fun _ => 16 + ceilDiv (n * if r.latent then r.dim else 2 * r.hkv * r.dim) 32) b) ∧
        (r.mmu = true → ∃ x, done = (.got 0, x)))) ∧
    (code = 0x0320 → s.seqOk d h = true → r.mmu = false → r.len = 0 →
      let toks := refAt (s.opRefs d 2) 0
      let out := refAt (s.opRefs d 2) 1
      toks.legal false = true → toks.elem = .int32 → out.outLegal = true → zeros [2, 3, 8, 9, 10, 11, 12, 13, 14, 15] →
      s.kvReady d true 64 (toks.runs 0) [(15, out.base, 4)] →
      let found := State.lookupPages d c h toks (toks.dim0 / 16 + 1) 0 none s
      (∀ cause u, found = (.fault cause, u) → exec (.kvPfxLookup g q) s₀ = .next (u.kvHalt d cause 0)) ∧
      ∀ n u, found = (.got n, u) →
        n ≤ toks.dim0 / 16 ∧ (u.rd Reg.SEQ_PFX_HIT_CNT).toNat = min (2 ^ 32 - 1) ((s.rd Reg.SEQ_PFX_HIT_CNT).toNat + n) ∧
        ∃ t, exec (.kvPfxLookup g q) s₀ = .next t ∧ ∃ b,
          t = ((u.setSeqRec c h { u.seqRec h with len := 16 * n }).vaWrite d.loom0 d.tenant out.base (leBytes 4 n) c).kvDone d b) ∧
    (code = 0x0321 → s.seqOk d h = true → r.mmu = false →
      let toks := refAt (s.opRefs d 1) 0
      let p := d.inl 4 4
      let l := s.leafAt r p
      toks.legal false = true → toks.elem = .int32 → zeros [2, 3, 8, 9, 10, 11, 12, 13, 14, 15] → s.kvReady d true 32 (toks.runs 0) [] →
      let made := State.insertPages d c h toks (toks.dim0 / 16 + 1) p s
      (∃ t, exec (.kvPfxInsert g q) s₀ = .next t ∧ ∃ b, t = made.kvDone d b) ∧
      (l.state ≠ 1 ∨ l.fill ≠ 16 ∨ s.pageParent h p = none ∨ toks.dim0 < 16 * p + 16 → made = s) ∧
      (∀ parent, s.pageParent h p = some parent → l.state = 1 → l.fill = 16 → l.shared = false → 16 * p + 16 ≤ toks.dim0 →
        let w := s.pfxWanted r parent (s.vaBytes d.loom0 d.tenant (toks.base + 64 * p) 64)
        s.pfxFind w = none →
        (s.pfxWay w.hash = none → made = s.bump Reg.SEQ_PFX_FULL_CNT) ∧
        (∀ e, s.pfxWay w.hash = some e → (s.pfx e).resident = false → toks.dim0 < 16 * p + 32 →
          made = (((((s.setPfx c e { w with gen := (s.pfx e).gen, refs := 1, pool := r.pool, frame := l.frame }).setFld Reg.SEQ_PFX_USED
            Reg.SEQ_PFX_USED_COUNT (s.fld Reg.SEQ_PFX_USED Reg.SEQ_PFX_USED_COUNT + 1)).loseFrame c h).setLeaf c h p
              { l with shared := true, pfx := e }).noteLastShared c h)))) ∧
    (code = 0x0328 → s.seqOk d h = true → zeros [2, 3, 10, 11, 12, 13, 14, 15] → s.kvReady d true 0 [] [] →
      let first := d.inl 4 4
      let n := d.inl 8 2
      ((∃ i, i < n ∧ r.cap ≤ 16 * (first + i)) → ∃ t, exec (.kvPrefetch g q) s₀ = .next t ∧ s.ends t d.ring d.seq 0x11 2) ∧
      ((∀ i, i < n → 16 * (first + i) < r.cap) →
        (r.mmu = true ∨ (∀ i, i < n → (s.leafAt r (first + i)).state ≤ 1) → ∃ t u : State, exec (.kvPrefetch g q) s₀ = .next t ∧
          t = u.kvDone d false ∧ u = { s with regs := u.regs, kv := u.kv, sht := u.sht } ∧ u.kv.moves = s.kv.moves) ∧
        (n = 1 → r.mmu = false → (s.leafAt r first).state = 2 → ∀ f, s.canTake r.tenant r.pool = some f →
          s.moveOf h first false = none → ∃ t m, exec (.kvPrefetch g q) s₀ = .next t ∧ t.moveOf h first false = some m ∧
            m.frame = f ∧ r.pool * 65536 + f ∈ t.kv.used ∧ t.ten = s.ten ∧ t = { s with mem := t.mem, regs := t.regs, kv := t.kv, sht := t.sht })))

/-- Attention: ATTN writes O, and STATS where asked, over the keys of R554 with the blocks of R555 left out, or its ranks' partials (R556, R557, R564,
R565); a page that is not there makes it wait (R547); rank 0 merges the partials (R566); ATTN_BWD writes dQ, dK and dV (R568 to R570). A row without keys
gives zeros (R557). Rows ATTN, SPLIT_DECODE_MERGE and ATTN_BWD. -/
def Obligations.AttentionRuns : Prop :=
  (∀ (s₀ : State) (g : Fin 1024) (q : Nat) (d : Desc) (s : State), s₀.kvOpReady g q 0x0300 = some (d, s) →
    (∀ m ∈ s.kv.merges, ¬(m.ring = d.ring ∧ m.seq = d.seq)) →
    let a := s.attn d
    let runs := s.attnRuns a (leNat (s.vaBytes d.loom0 d.tenant (d.argPtr + 292) 2)) (refAt (s.opRefs d 9) 8).base
    let outs := if a.split then [(10, a.sbuf.base, a.looms * a.partialBytes)]
      else a.o.runs 1 ++ (if a.wantSt then a.stats.runs 2 else []) ++ [(3, a.sbuf.base, a.sbufNeed d.l1q)]
    let fits := a.dense = true ∨ ∀ e ∈ a.entries, e.nkv ≤ (s.seqRec e.handle).cap
    let read := State.readPages d a (s.descClass d) a.pages s
    (a.dense = true ∨ (s.kvOn = true ∧ s.kvInit = false) → s.attnLegal d a = false → s.firstFault d.loom0 d.tenant false [(0, d.argPtr, 320)] = none →
      ∃ t, exec (.attn g q) s₀ = .next t ∧ s.completes t d 0x32 0) ∧
    (s.attnLegal d a = true → ¬fits → s.kvReady d (!a.dense) 320 [] [] → ∃ t, exec (.attn g q) s₀ = .next t ∧ s.ends t d.ring d.seq 0x11 2) ∧
    (s.attnLegal d a = true → fits → s.kvReady d (!a.dense) 320 runs outs →
      (a.dense = true → read = (.got 0, s)) ∧
      (∀ u, read = (.wait, u) → exec (.attn g q) s₀ = .next u) ∧
      (∀ x u, read = (.fault x, u) → exec (.attn g q) s₀ = .next (u.kvHalt d x 0)) ∧
      ∀ i u, read = (.got i, u) → s.pagesDarned a = false →
        let u1 := (u.bumps Reg.SEQ_SKIP_BLK_CNT a.skipped).kvSettled d
        (a.split = false →
          let u2 := u1.writeRuns d d.loom0 (s.attnOutputs d a)
          let u3 := if a.sbufNeed d.l1q = 0 then u2 else u2.scribble d a.sbuf.base (a.sbufNeed d.l1q)
          ∃ t, exec (.attn g q) s₀ = .next t ∧ t = u3.workDone d (s.attnCycles a) ((s.attnOutputs d a).any fun x => x.darn)) ∧
        (a.split = true →
          let parts := a.ranks.flatMap fun k => u1.partials d a k
          let u2 := u1.writeRuns d d.loom0 parts
          ∀ e, u2.desc? d.ring d.seq = some e → ∃ t f m, exec (.attn g q) s₀ = .next t ∧ t.mem = u2.mem ∧ t.desc? d.ring d.seq = some f ∧
            f.work = (e.work.map fun w => if w.rank = 0 then w
              else { w with ended := true, endsAt := max u2.trd.cclk (w.began + u2.attnCycles a w.rank) }) ∧
            t.kv.merges = u2.kv.merges ++ [m] ∧ m.ring = d.ring ∧ m.seq = d.seq ∧
            (∀ w ∈ e.work, a.ranks.contains w.rank = true → max u2.trd.cclk (w.began + u2.attnCycles a w.rank) ≤ m.ready) ∧
            t = { u2 with ten := t.ten, kv := t.kv }))) ∧
  (∀ (s : State) (d : Desc) (a : Attn),
    (∀ b i kp, a.takes b i kp = true ↔
      i < (a.entry b).nq ∧ kp < (a.entry b).nkv ∧ (a.causal = true → kp ≤ (a.entry b).qpos + i)) ∧
    (∀ b hl i x, (∀ kp, a.takes b i kp = false) → s.attnOut d a b hl i x = a.o.code d.profile (.fin false 0 0)) ∧
    (∀ b t j, a.blockUsed b t j = false ↔ ∀ i kp, i < t.2 → kp / 64 = j → a.takes b (t.1 + i) kp = false) ∧
    (0 < a.looms → ∀ j, j < a.blocks → ∃ r, r < a.looms ∧ (a.rankBlocks r).1 ≤ j ∧ j < (a.rankBlocks r).2) ∧
    ∀ r r', r < r' → (a.rankBlocks r).2 ≤ (a.rankBlocks r').1) ∧
  (∀ (s : State) (g : Fin 1024) (q : Nat),
    ((s.kv.merges.find? fun m => m.ring == g.val && m.seq == q) = none → exec (.splitDecodeMerge g q) s = .next s) ∧
    ∀ m, (s.kv.merges.find? fun m => m.ring == g.val && m.seq == q) = some m →
      let s0 := (s.elapseTo (m.ready + 1)).onKv fun k => { k with merges := k.merges.erase m }
      ∀ d, s0.desc? g q = some d → d.phase = .running → d.opcode = 0x0300 →
      let a := s0.attn d
      let row := fun (i k : Nat) => mergeRow a.hd (a.ranks.map fun r => s0.partialAt d a r (k * a.nq + i))
      let darn := fun (i k : Nat) => a.ranks.any fun r =>
        s0.vaPoison d.loom0 d.tenant (a.sbuf.base + r * a.partialBytes + (k * a.nq + i) * (a.hd + 2) * 4) ((a.hd + 2) * 4)
      let outs := (a.o.outRuns fun x i k => (a.o.code d.profile ((row i k).2.2.getD x (.fin false 0 0)), darn i k)) ++
        if a.wantSt = true then a.stats.outRuns fun x i k => (if x = 0 then (row i k).1.code32 else (row i k).2.1.code32, darn i k) else []
      s0.firstFault d.loom0 d.tenant true (a.o.runs 1 ++ if a.wantSt then a.stats.runs 2 else []) = none →
      ∃ t e, exec (.splitDecodeMerge g q) s = .next t ∧ t.mem = (s0.writeRuns d d.loom0 outs).mem ∧ t.desc? g q = some e ∧
        (∀ w ∈ e.work, w.rank = 0 → w.ended = true ∧
          w.endsAt = s0.trd.cclk + 64 + ceilDiv (a.looms * (a.entries.length * a.nh * a.nq) * (a.hd + 2)) 16) ∧
        t = { s0 with mem := t.mem, regs := t.regs, ten := t.ten, free := t.free }) ∧
  ∀ (s₀ : State) (g : Fin 1024) (q : Nat) (d : Desc) (s : State), s₀.opReady g q 0x0308 = some (d, s) →
    let a := (s.attnBwd d).1
    let r := (s.attnBwd d).2
    let like := fun (x y : TRef) => x.legal false = true ∧ x.elem.float.isSome = true ∧ x.sameShape y = true
    let qs := List.range a.nq
    let ks := List.range (min a.nkv a.k.dim1)
    let outs :=
      (r.dq.outRuns fun x i hl => (r.dq.code d.profile (mul32 a.scale (sum32 (ks.map fun kp =>
        (s.bwdDs d a r hl i kp, s.value32 d a.k x kp (a.kvHead hl))))), ks.any fun kp => s.bwdDarn d a r true hl i kp)) ++
      (r.dk.outRuns fun x kp h => (r.dk.code d.profile (a.overHeads h fun hl => mul32 a.scale (sum32 (qs.map fun i =>
        (s.bwdDs d a r hl i kp, s.value32 d a.q x i hl)))), (a.headsOf h).any fun hl => qs.any fun i => s.bwdDarn d a r true hl i kp)) ++
      r.dv.outRuns fun x kp h => (r.dv.code d.profile (a.overHeads h fun hl => sum32 (qs.map fun i =>
        (s.bwdP d a hl i kp, s.value32 d r.dout x i hl))), (a.headsOf h).any fun hl => qs.any fun i => s.bwdDarn d a r false hl i kp)
    let legal := a.q.legal false = true ∧ (a.q.elem = .fp16 ∨ a.q.elem = .bf16) ∧ s.attnSource d a = true ∧ a.q.dim2 = a.nh ∧ like a.o a.q ∧
      like r.dout a.q ∧ like r.dq a.q ∧ like r.dk a.k ∧ like r.dv a.v ∧ a.stats.base ≠ 0 ∧ a.stats.legal false = true ∧ a.stats.elem = .fp32 ∧
      a.stats.dim0 = 2 ∧ a.stats.dim1 = a.nq ∧ a.stats.dim2 = a.nh ∧ d.inl 3 1 < 16 ∧ d.inl 15 1 = 0 ∧
      (∀ b ∈ (s.vaBytes d.loom0 d.tenant (d.argPtr + 320) 32).drop 4, b = 0#8) ∧ a.footprint ≤ scratchBytes d.l1q
    (¬legal → s.firstFault d.loom0 d.tenant false [(0, d.argPtr, 352)] = none → a.sbuf.base = 0 → ∃ t, exec (.attnBwd g q) s₀ = .next t ∧
      s.completes t d 0x32 0) ∧
    (legal → s.operandsReady d 352 (a.q.runs 0 ++ a.k.runs 1 ++ a.v.runs 2 ++ a.o.runs 3 ++ r.dout.runs 4 ++ a.stats.runs 5) outs →
      ∃ u : State, (s.operatorRuns u d outs fun k =>
        (a.units.zipIdx.map fun x => if x.2 % a.looms = k then 3 * a.unitCycles none x.1.1 0 a.blocks else 0).sum) ∧
      exec (.attnBwd g q) s₀ = .next (if a.sbuf.base = 0 then u else u.scribble d a.sbuf.base a.sbuf.room))


/-! Chapter 11: composition and scan-out. -/

/-- The composer: a layer's row is fetched four lines ahead by requests of requester 35 in the RASTER class (R605, R612), a line is composed with its
underruns (R619, R644 to R649), a layer that was off is drawn again (R650), and a commit takes every shadow at its stamp (R610, R614).
That a row's lines are all asked for in one CCLK is the model's (log 148). Rows LAYER_FETCH, LINE_COMPOSE, LAYER_OFF_CLEAR, CMP_COMMIT and
COMMIT_COPY. -/
def Obligations.LayersAreFetchedComposedAndCommitted : Prop :=
  ∀ s : State,
    (∀ k : Fin 8,
      let due := s.fetchLines.filter (s.fetches k)
      let s0 := State.elapse (s.toAction ⟨s.trd.now.frame, s.trd.now.line, 0, 0⟩) s
      (due = [] ∨ s.trd.now.pick ≠ 0 → exec (.layerFetch k) s = .next s) ∧
      (due ≠ [] → s.trd.now.pick = 0 → exec (.layerFetch k) s = .next ((due.map (s0.layerRow k)).foldl State.fetchRow s0)) ∧
      (∀ (u : State) (r : LayerRow), let v := { u with scn := { u.scn with rows := u.scn.rows ++ [r] } }
        u.fetchRow r = (linesFrom r.pa0 r.len0 ++ linesFrom r.pa1 r.len1).foldl
          (fun w pa => (w.takeAt pa 35).spoolRead 35 r.tag pa .raster) v) ∧
      (s.trd.now.line = 0 → 4 < s.trd.timing.vTotal → s.fetchLines = [(s.trd.now.frame, 3), (s.trd.now.frame, 4)]) ∧
      (0 < s.trd.now.line → s.trd.now.line + 4 < s.trd.timing.vTotal → s.fetchLines = [(s.trd.now.frame, s.trd.now.line + 4)]) ∧
      (s.trd.timing.vTotal ≤ s.trd.now.line + 4 → s.trd.now.line < s.trd.timing.vTotal →
        s.fetchLines = [(s.nextFrame, s.trd.now.line + 4 - s.trd.timing.vTotal)]) ∧
      ∀ x, let r := s0.layerRow k x
        let l := s0.layer k
        r.layer = k ∧ r.frame = x.1 ∧ r.line = x.2 ∧ r.pa0 = l.base0 + (x.2 - l.y) * l.s0 ∧
        (∀ n, packedSize l.fmt = some n → r.len0 = n * s0.shownCols l ∧ r.len1 = 0) ∧
        (l.fmt = 1 → r.len0 = s0.shownCols l ∧ r.len1 = 2 * ((s0.shownCols l + 1) / 2) ∧
          (0 < s0.shownCols l → r.pa1 = l.base1 + (x.2 - l.y) / 2 * l.s1))) ∧
    (∀ late,
      let c := s.composeLine
      let ur := s.underruns c.1 c.2 late
      (s.darkFrame c.1 = true ∨ s.trd.timing.vActive ≤ c.2 ∨ (∃ l ∈ s.scn.lines, l.frame = c.1 ∧ l.line = c.2) ∨
        (s.scn.sending = false ∧ s.boot.switchAt ≠ some c.1) → exec (.lineCompose late) s = .next s) ∧
      (∀ k, 0 < k → k < 8 → s.drawn c.1 k = true → 0 < s.shownCols (s.layer k) → (s.layer k).y ≤ c.2 → c.2 < (s.layer k).y + (s.layer k).h →
        (s.rowFor c.1 c.2 k = none → s.underrunGroup c.1 c.2 k late = some ((s.layer k).x / 8)) ∧
        ∀ r, s.rowFor c.1 c.2 k = some r → late = [] →
          (∀ g, (s.layer k).x / 8 ≤ g → 8 * g < (s.layer k).x + s.shownCols (s.layer k) → s.groupHere (s.layer k) r g = true) → s.underrunGroup c.1 c.2 k late = none) ∧
      (s.darkFrame c.1 = false → c.2 < s.trd.timing.vActive → (∀ l ∈ s.scn.lines, ¬(l.frame = c.1 ∧ l.line = c.2)) →
        s.scn.sending = true ∨ s.boot.switchAt = some c.1 →
        ∃ t, exec (.lineCompose late) s = .next t ∧
          t = { s with regs := t.regs, scn := t.scn, trd := t.trd, mem := { s.mem with arrived := t.mem.arrived } } ∧
          (∀ r, r ∈ t.scn.rows ↔ r ∈ s.scn.rows ∧ ¬(r.frame = c.1 ∧ r.line = c.2)) ∧
          ((∃ u ∈ ur, s.abortsAt (8 * u.1) = true) → .underrun ∈ t.trd.abortWant ∧ t.scn.lines = s.scn.lines) ∧
          ((∀ u ∈ ur, s.abortsAt (8 * u.1) = false) → t.trd = s.trd ∧ t.scn.off = s.scn.off ++ ur.map (fun u => (u.2, c.1)) ∧
            t.scn.lines = s.scn.lines ++ [{ frame := c.1, line := c.2, pixels := s.composed c.1 c.2 ur }]) ∧
          (ur = [] → (∀ o, o ∉ [Reg.PIC_DARN_GRP_CNT, Reg.PIC_DARN_BOTH_CNT] → t.rd o = s.rd o) ∧
            ((∀ k, k < 8 → s.drawn c.1 k = false) → s.composed c.1 c.2 [] = List.replicate s.trd.timing.hActive s.background) ∧
            ((∀ k, k < 8 → (s.drawn c.1 k = true ↔ k = 0)) → (s.layer 0).alpha = 255 →
              s.composed c.1 c.2 [] = (List.range s.trd.timing.hActive).map (s.l0Pixel (s.shedOf c.1 c.2) c.2))) ∧
          (∀ g k, ur = [(g, k)] → s.trd.now.frame < 65536 →
            t.rd Reg.CMP_UR_LO = s.trd.now.low ∧ t.fld Reg.CMP_UR_HI Reg.CMP_UR_HI_FRAME = s.trd.now.frame ∧
            t.fld Reg.CMP_UR_HI Reg.CMP_UR_HI_LAYER = k ∧
            t.fld Reg.CMP_UR_HI Reg.CMP_UR_HI_ABORT = (if s.abortsAt (8 * g) then 1 else 0) ∧
            t.rd (Reg.CMP_UR_CNT k) = counted (s.rd (Reg.CMP_UR_CNT k)) ∧
            (s.abortsAt (8 * g) = true → t.scn.off = s.scn.off) ∧
            (s.abortsAt (8 * g) = false → t.drawn c.1 k = false ∧ t.fld Reg.CMP_STATUS ⟨8 + k, 1⟩ = 1)))) ∧
    (∃ t, exec .layerOffClear s = .next t ∧ t = { s with regs := t.regs, scn := { s.scn with off := t.scn.off } } ∧
      (∀ x, x ∈ t.scn.off ↔ x ∈ s.scn.off ∧ frameAfter s.trd.now.frame x.2 = false) ∧
      (∀ k, k < 8 → (∃ f, (k, f) ∈ s.scn.off) → (∀ f, (k, f) ∈ s.scn.off → frameAfter s.trd.now.frame f = true) →
        t.fld Reg.CMP_STATUS ⟨8 + k, 1⟩ = 0) ∧ ∀ o, o ≠ Reg.CMP_STATUS → t.rd o = s.rd o) ∧
    (∃ t, exec .cmpCommit s = .next t ∧ t.fld Reg.CMP_COMMIT Reg.CMP_COMMIT_PENDING = 1 ∧
      (s.scn.commitAt = none → t.scn.commitAt =
        some (if s.trd.now.atOrAfter ⟨s.trd.now.frame % 65536, s.trd.timing.vTotal - 4, 0, 0⟩ = true then s.nextFrame else s.trd.now.frame)) ∧
      (s.prState = 0 ∨ s.prState = 3 → t = { s with regs := t.regs, scn := { s.scn with commitAt := t.scn.commitAt } } ∧
        ∀ o, o ≠ Reg.CMP_COMMIT → t.rd o = s.rd o) ∧
      (s.prState = 1 ∨ s.prState = 2 → t.prState = 3 ∧ t.scn = { s.scn with commitAt := t.scn.commitAt, prWaking := true } ∧
        (∀ o, o ∉ [Reg.CMP_COMMIT, Reg.SCN_PR_STATUS, Reg.PWR_STATUS] → t.rd o = s.rd o) ∧
        t = { s with regs := t.regs, scn := t.scn, pwr := t.pwr, looms := t.looms })) ∧
    (s.scn.commitAt = none → exec .commitCopy s = .next s) ∧
    ∀ f, s.scn.commitAt = some f →
      let s0 := State.elapse (s.toAction (s.commitStamp f)) s
      (s.trd.now.atOrAfter (s.commitStamp f) = false → exec .commitCopy s = .next s) ∧
      (s.trd.now.atOrAfter (s.commitStamp f) = true → ∃ t, exec .commitCopy s = .next t ∧ t = { s0 with regs := t.regs, scn := t.scn } ∧
        (∀ o ∈ cmpShadows, t.inUse o = s0.rd o) ∧ (∀ o, o ∉ cmpShadows → t.inUse o = s0.inUse o) ∧ t.scn.commitAt = none ∧
        t.fld Reg.CMP_COMMIT Reg.CMP_COMMIT_PENDING = 0 ∧
        (∀ k, k ∈ t.scn.undrawn ↔ 0 < k ∧ k < 8 ∧ (layerOf s0.rd k).bad = true) ∧
        (∀ k, 0 < k → k < 8 → (layerOf s0.rd k).bad = true → t.fld Reg.CMP_STATUS Reg.CMP_STATUS_CFG_ERR = 1 ∧ ∀ g, t.drawn g k = false) ∧
        ∀ o, o ∉ [Reg.CMP_COMMIT, Reg.CMP_STATUS] → t.rd o = s0.rd o)

/-- Ports: a hot plug and a RETRAIN train the link, within what SCN_PORT_CTL permits (R635, R637 to R639, R654); AUX transactions (R642, R643); the
UNDERRUN mode changes at a frame start (R641). Rows HPD_RISE, HPD_FALL, HPD_IRQ, RETRAIN, LINK_TRAINED, UNDERRUN_MODE_CHANGE, AUX_TRANSACTION,
AUX_REPLY and AUX_TIMEOUT. -/
def Obligations.PortsTrainAndTalk : Prop :=
  ∀ s : State,
    (∀ (p : Fin 2),
      let trains := fun (u t : State) =>
        (∀ f ∈ [Reg.SCN_PORT_STATUS_TRAINED, Reg.SCN_PORT_STATUS_CODING, Reg.SCN_PORT_STATUS_RATE, Reg.SCN_PORT_STATUS_LANES,
          Reg.SCN_PORT_STATUS_VIDEO], t.port p f = 0) ∧
        t.rd (Reg.SCN_TRAIN_CNT p) = counted (u.rd (Reg.SCN_TRAIN_CNT p)) ∧ (∀ q, q ∈ t.scn.training ↔ q ∈ u.scn.training ∨ q = p.val) ∧
        t.out = u.out ++ [⟨u.trd.cclk, .linkTrain p⟩] ∧
        t = { u with regs := t.regs, out := t.out, scn := { u.scn with training := t.scn.training } }
      (∃ t, exec (.hpdRise p) s = .next t ∧ t.port p Reg.SCN_PORT_STATUS_HPD = 1 ∧ trains s t ∧
        ∀ o, o ∉ [Reg.SCN_PORT_STATUS p, Reg.SCN_TRAIN_CNT p] → t.rd o = s.rd o) ∧
      (∃ t, exec (.hpdFall p) s = .next t ∧
        (∀ f ∈ [Reg.SCN_PORT_STATUS_HPD, Reg.SCN_PORT_STATUS_TRAINED, Reg.SCN_PORT_STATUS_CODING, Reg.SCN_PORT_STATUS_RATE,
          Reg.SCN_PORT_STATUS_LANES, Reg.SCN_PORT_STATUS_VIDEO], t.port p f = 0) ∧ t.scn.training = s.scn.training.filter (· ≠ p.val) ∧
        t.out = s.out ++ [⟨s.trd.cclk, .lanesIdle p⟩] ∧
        t = { s with regs := t.regs, out := t.out, scn := t.scn, pwr := t.pwr, looms := t.looms } ∧
        (s.portActive p = true → s.prState = 1 ∨ s.prState = 2 → t.prState = 3 ∧
          t.scn = { s.scn with training := t.scn.training, prWaking := true } ∧
          ∀ o, o ∉ [Reg.SCN_PORT_STATUS p, Reg.SCN_PR_STATUS, Reg.PWR_STATUS] → t.rd o = s.rd o) ∧
        (s.portActive p = false ∨ s.prState = 0 ∨ s.prState = 3 →
          t = { s with regs := t.regs, out := t.out, scn := { s.scn with training := t.scn.training } } ∧
          ∀ o, o ≠ Reg.SCN_PORT_STATUS p → t.rd o = s.rd o)) ∧
      (∃ t, exec (.hpdIrq p false) s = .next t ∧ t.rd (Reg.SCN_HPD_IRQ_CNT p) = counted (s.rd (Reg.SCN_HPD_IRQ_CNT p)) ∧
        t = { s with regs := t.regs } ∧ ∀ o, o ≠ Reg.SCN_HPD_IRQ_CNT p → t.rd o = s.rd o) ∧
      (s.port p Reg.SCN_PORT_STATUS_HPD = 0 → exec (.retrain p) s = .next s) ∧
      (s.port p Reg.SCN_PORT_STATUS_HPD = 1 →
        (∃ t, exec (.retrain p) s = .next t ∧ trains s t ∧ ∀ o, o ∉ [Reg.SCN_PORT_STATUS p, Reg.SCN_TRAIN_CNT p] → t.rd o = s.rd o) ∧
        ∃ t, exec (.hpdIrq p true) s = .next t ∧ trains s t ∧ t.rd (Reg.SCN_HPD_IRQ_CNT p) = counted (s.rd (Reg.SCN_HPD_IRQ_CNT p))) ∧
      ∀ (link : Option (Nat × Nat)) (pr : Bool),
        (p.val ∉ s.scn.training → exec (.linkTrained p link pr) s = .next s) ∧
        (p.val ∈ s.scn.training → ∃ t, exec (.linkTrained p link pr) s = .next t ∧ p.val ∉ t.scn.training ∧
          t.port p Reg.SCN_PORT_STATUS_PR_CAP = (if pr then 1 else 0) ∧
          t = { s with regs := t.regs, scn := { s.scn with training := t.scn.training } } ∧
          (∀ o, o ≠ Reg.SCN_PORT_STATUS p → t.rd o = s.rd o) ∧
          (∀ rate lanes, link = some (rate, lanes) → 1 ≤ rate → lanes ∈ [1, 2, 4] →
            rate ≤ Reg.SCN_PORT_CTL_MAX_RATE.get (s.inUse (Reg.SCN_PORT_CTL p)) →
            (Reg.SCN_PORT_CTL_MAX_LANES.get (s.inUse (Reg.SCN_PORT_CTL p)) ∈ [1, 2] →
              lanes ≤ Reg.SCN_PORT_CTL_MAX_LANES.get (s.inUse (Reg.SCN_PORT_CTL p))) →
            t.port p Reg.SCN_PORT_STATUS_TRAINED = 1 ∧ t.port p Reg.SCN_PORT_STATUS_RATE = rate ∧
            t.port p Reg.SCN_PORT_STATUS_LANES = lanes ∧ t.port p Reg.SCN_PORT_STATUS_CODING = (if 5 ≤ rate then 1 else 0) ∧
            t.port p Reg.SCN_PORT_STATUS_BW_ERR =
              (if streamFits s.trd.timing s.portMode s.depth rate lanes = true then 0 else 1)) ∧
          (link = none ∨ (∃ rate lanes, link = some (rate, lanes) ∧ s.linkAllowed p rate lanes = false) → t.port p Reg.SCN_PORT_STATUS_TRAIN_FAIL = 1 ∧
            t.port p Reg.SCN_PORT_STATUS_TRAINED = s.port p Reg.SCN_PORT_STATUS_TRAINED))) ∧
    (s.scn.urNext = none → exec .underrunModeChange s = .next s) ∧
    (∀ f, s.scn.urNext = some f →
      (s.trd.now.frame ≠ f → frameAfter s.trd.now.frame f = false → exec .underrunModeChange s = .next s) ∧
      (s.trd.now.frame = f ∨ frameAfter s.trd.now.frame f = true → ∃ t, exec .underrunModeChange s = .next t ∧ t.scn.urNext = none ∧
        t = { s with scn := { s.scn with urNext := none, inUse := t.scn.inUse } } ∧
        ∀ p, p < 2 → Reg.SCN_PORT_CTL_UNDERRUN.get (t.inUse (Reg.SCN_PORT_CTL p)) =
            Reg.SCN_PORT_CTL_UNDERRUN.get (s.rd (Reg.SCN_PORT_CTL p)) ∧
          portSettings (t.inUse (Reg.SCN_PORT_CTL p)) = portSettings (s.inUse (Reg.SCN_PORT_CTL p)))) ∧
    (s.scn.aux ≠ none → exec .auxTransaction s = .next s) ∧
    (s.scn.aux = none → ∃ t x, exec .auxTransaction s = .next t ∧ t.scn = { s.scn with aux := some x } ∧
      x.port = s.fld Reg.SCN_AUX_CTL Reg.SCN_AUX_CTL_PORT ∧ x.cmd = s.fld Reg.SCN_AUX_CTL Reg.SCN_AUX_CTL_CMD ∧
      x.addr = s.fld Reg.SCN_AUX_ADDR Reg.SCN_AUX_ADDR_ADDR ∧ x.len = s.fld Reg.SCN_AUX_CTL Reg.SCN_AUX_CTL_LEN + 1 ∧
      x.data = s.auxData.take x.len ∧ x.defers = 0 ∧ x.sent = s.trd.time ∧ t.fld Reg.SCN_AUX_STATUS Reg.SCN_AUX_STATUS_BUSY = 1 ∧
      t.out = s.out ++ [⟨s.trd.cclk, .auxRequest x.port x.cmd x.addr x.len x.data⟩] ∧
      t = { s with regs := t.regs, out := t.out, scn := t.scn } ∧ ∀ o, o ≠ Reg.SCN_AUX_STATUS → t.rd o = s.rd o) ∧
    (∀ r, s.scn.aux = none → exec (.auxReply r) s = .next s ∧ exec .auxTimeout s = .next s) ∧
    ∀ x, s.scn.aux = some x →
      let closes := fun (t : State) (reply count : Nat) => t.scn = { s.scn with aux := none } ∧ t = { s with regs := t.regs, scn := t.scn } ∧
        t.fld Reg.SCN_AUX_STATUS Reg.SCN_AUX_STATUS_BUSY = 0 ∧ t.fld Reg.SCN_AUX_STATUS Reg.SCN_AUX_STATUS_REPLY = reply ∧
        t.fld Reg.SCN_AUX_STATUS Reg.SCN_AUX_STATUS_COUNT = count
      (∀ n data, x.len ≤ 16 → ∃ t, exec (.auxReply (.ack n data)) s = .next t ∧ closes t 0 (min n x.len) ∧
        (x.cmd % 2 = 0 → ∀ o, o ≠ Reg.SCN_AUX_STATUS → t.rd o = s.rd o) ∧
        (x.cmd % 2 = 1 → data.length = n → n ≤ x.len → t.auxData = data ++ s.auxData.drop n)) ∧
      (∃ t, exec (.auxReply .nack) s = .next t ∧ closes t 1 0 ∧ t.auxData = s.auxData) ∧
      (7 ≤ x.defers → ∃ t, exec (.auxReply .defer) s = .next t ∧ closes t 2 0) ∧
      (x.defers < 7 → ∃ t, exec (.auxReply .defer) s = .next t ∧ t.scn = { s.scn with aux := some { x with defers := x.defers + 1, sent := s.trd.time } } ∧
        t.out = s.out ++ [⟨s.trd.cclk, .auxRequest x.port x.cmd x.addr x.len x.data⟩] ∧ t = { s with out := t.out, scn := t.scn }) ∧
      (s.trd.time < x.sent + 400 * usTime → exec .auxTimeout s = .next s) ∧
      (x.sent + 400 * usTime ≤ s.trd.time → ∃ t, exec .auxTimeout s = .next t ∧ closes t 3 0)

/-- Scan-out: a timing is applied at a frame start (R628, R629, R640), lines are sent and read back (R644, R661, R662), the freeze detector compares
signatures (R665), and Panel Replay is entered and left (R654 to R659). The pixels a port's pads decode where they are not those sent are
operands of LINE_SEND (log 99). Rows APPLY, TIMING_CHANGE, LINE_SEND, FREEZE_CHECK, ENTER, PR_ACTIVE, EXIT and PR_EXIT_FRAME. -/
def Obligations.ScanOutSendsFrames : Prop :=
  ∀ s : State,
    (let ok := legalTiming s.timingRegs (Reg.SCN_CFG_MODE.get (s.rd Reg.SCN_CFG) % 3) = true ∧ s.applyFits s.timingRegs = true
     ∃ t, exec .apply s = .next t ∧
      (ok → t.fld Reg.SCN_STATUS Reg.SCN_STATUS_TIM_PEND = 1 ∧ t.scn.timNext = some (s.timingRegs, s.nextFrame) ∧ s.nextFrame ∈ t.scn.blank ∧
        t.fld Reg.SCN_STATUS Reg.SCN_STATUS_TIM_ERR = s.fld Reg.SCN_STATUS Reg.SCN_STATUS_TIM_ERR) ∧
      (¬ok → t.fld Reg.SCN_STATUS Reg.SCN_STATUS_TIM_ERR = 1 ∧ t.scn.timNext = s.scn.timNext ∧ t.scn.blank = s.scn.blank) ∧
      t.scn = { s.scn with timNext := t.scn.timNext, blank := t.scn.blank, prWaking := t.scn.prWaking } ∧
      t = { s with regs := t.regs, scn := t.scn, pwr := t.pwr, looms := t.looms } ∧
      (∀ o, o ∉ [Reg.SCN_STATUS, Reg.SCN_PR_STATUS, Reg.PWR_STATUS] → t.rd o = s.rd o) ∧
      (s.prState = 1 ∨ s.prState = 2 → t.prState = 3 ∧ t.scn.prWaking = true) ∧
      (s.prState = 0 ∨ s.prState = 3 → t = { s with regs := t.regs, scn := t.scn } ∧ ∀ o, o ≠ Reg.SCN_STATUS → t.rd o = s.rd o)) ∧
    (s.scn.timNext = none → exec .timingChange s = .next s) ∧
    (∀ tm f, s.scn.timNext = some (tm, f) → s.trd.now.frame = f ∨ frameAfter s.trd.now.frame f = true → s.trd.now.line = 0 → s.trd.now.pick = 0 →
      ∃ t, exec .timingChange s = .next t ∧ t.trd.timing = tm ∧ t.trd = { (s.takeTiming tm).trd with restart := true } ∧
        (∀ o, o ∉ [Reg.SCN_STATUS, Reg.DMC_REF_CFG, Reg.PIC_STATUS, Reg.SCN_PORT_STATUS 0, Reg.SCN_PORT_STATUS 1, Reg.SCN_TRAIN_CNT 0,
          Reg.SCN_TRAIN_CNT 1] → t.rd o = s.rd o) ∧ t.scn.timNext = none ∧
        t.fld Reg.SCN_STATUS Reg.SCN_STATUS_TIM_PEND = 0 ∧ t.bit Reg.PIC_STATUS Reg.PIC_STATUS_ADMIT_BUSY = true ∧
        t.portMode = Reg.SCN_CFG_MODE.get (s.rd Reg.SCN_CFG) % 3 ∧
        (∀ p, p < 2 → portSettings (t.inUse (Reg.SCN_PORT_CTL p)) = portSettings (s.rd (Reg.SCN_PORT_CTL p)) ∧
          Reg.SCN_PORT_CTL_UNDERRUN.get (t.inUse (Reg.SCN_PORT_CTL p)) =
            Reg.SCN_PORT_CTL_UNDERRUN.get (s.inUse (Reg.SCN_PORT_CTL p)) ∧
          (s.portChanges p = true → t.portActive p = true → s.port p Reg.SCN_PORT_STATUS_HPD = 1 → p ∈ t.scn.training)) ∧
        t = { s with regs := t.regs, out := t.out, trd := t.trd, scn := t.scn }) ∧
    (∀ decoded lanes, (s.scn.lines.find? fun l => l.frame == s.trd.now.frame && l.line == s.trd.now.line) = none ∨
      s.darkFrame s.trd.now.frame = true ∨ s.scn.sending = false → exec (.lineSend decoded lanes) s = .next s) ∧
    (∀ l decoded lanes, (s.scn.lines.find? fun l => l.frame == s.trd.now.frame && l.line == s.trd.now.line) = some l →
      s.darkFrame s.trd.now.frame = false → s.scn.sending = true → lanes.Nodup →
      let n := s.trd.now
      let video := fun p => s.port p Reg.SCN_PORT_STATUS_VIDEO = 1
      let out := l.pixels.zipIdx.map fun x => x.1.dithered (s.cmp Reg.CMP_DITHER) n.frame x.2 n.line
      ∃ t, exec (.lineSend decoded lanes) s = .next t ∧
        t.out = s.out ++ ((List.range 2).filter fun p => decide (video p)).map (fun p =>
          ⟨s.trd.cclk, .videoLine p n.frame n.line (s.prState == 1) (s.portPart p out)⟩) ∧
        (∀ p : Fin 2, video p →
          tblGet 0 t.scn.lineCrc p = crc16 ((s.portPart p out).flatMap fun v =>
            (leBytes 2 v.1).reverse ++ (leBytes 2 v.2.1).reverse ++ (leBytes 2 v.2.2).reverse) ∧
          (∀ v, (decoded.find? fun x => x.1.val == p.val) = some (p, v) → lineCrc v ≠ lineCrc (s.portPart p out) →
            t.rd (Reg.SCN_RB_ERR_CNT p) = counted (s.rd (Reg.SCN_RB_ERR_CNT p)) ∧
            t.holdsStamp (Reg.SCN_RB_LO p) (Reg.SCN_RB_HI p) ⟨n.frame, n.line, 0, 0⟩) ∧
          ((decoded.find? fun x => x.1.val == p.val) = none ∨
            (∃ v, (decoded.find? fun x => x.1.val == p.val) = some (p, v) ∧ lineCrc v = lineCrc (s.portPart p out)) →
            ∀ o ∈ [Reg.SCN_RB_ERR_CNT p, Reg.SCN_RB_LO p, Reg.SCN_RB_HI p], t.rd o = s.rd o) ∧
          ∀ i : Fin 4, t.rd (Reg.SCN_RB_LANE_CNT p i) =
            if (p, i) ∈ lanes then counted (s.rd (Reg.SCN_RB_LANE_CNT p i)) else s.rd (Reg.SCN_RB_LANE_CNT p i)) ∧
        (∀ o, (∀ p : Fin 2, video p → o ∉ [Reg.SCN_RB_ERR_CNT p, Reg.SCN_RB_LO p, Reg.SCN_RB_HI p] ∧
          ∀ i : Fin 4, o ≠ Reg.SCN_RB_LANE_CNT p i) → t.rd o = s.rd o) ∧
        (∀ x, x ∈ t.scn.lines ↔ x ∈ s.scn.lines ∧ ¬(x.frame = n.frame ∧ x.line = n.line)) ∧
        t.scn.sigFrame = some n.frame ∧
        t.scn.sigState = crc32On (if n.line = 0 then 0xFFFFFFFF else s.scn.sigState) (lineBytes l.pixels) ∧
        t = { s with regs := t.regs, out := t.out, scn := { s.scn with
          lines := t.scn.lines, lineCrc := t.scn.lineCrc, sigState := t.scn.sigState, sigFrame := t.scn.sigFrame } }) ∧
    (s.scn.sigFrame = none → exec .freezeCheck s = .next s) ∧
    (∀ f, s.scn.sigFrame = some f →
      (s.trd.now.frame = f → s.trd.now.line + 1 < s.trd.timing.vActive → exec .freezeCheck s = .next s) ∧
      (¬(s.trd.now.frame = f ∧ s.trd.now.line + 1 < s.trd.timing.vActive) →
        let out := s.scn.sigState ^^^ 0xFFFFFFFF
        let inp := ((s.pic.sigs.find? fun x => x.1 == f).map fun x => x.2).getD 0
        let run := s.fld Reg.CMP_FRZ_RUN Reg.CMP_FRZ_RUN_RUN
        let limit := Reg.CMP_FRZ_CFG_N.get (s.cmp Reg.CMP_FRZ_CFG)
        ∃ t, exec .freezeCheck s = .next t ∧ t.rd Reg.CMP_OUT_SIG = BitVec.ofNat 32 out ∧ t.rd Reg.CMP_IN_SIG = BitVec.ofNat 32 inp ∧
          t.scn = { s.scn with sigFrame := none, sigState := 0xFFFFFFFF, prevOut := some out, prevIn := some inp } ∧
          t = { s with regs := t.regs, scn := t.scn } ∧
          (∀ o, o ∉ [Reg.CMP_OUT_SIG, Reg.CMP_IN_SIG, Reg.CMP_FRZ_RUN, Reg.CMP_STATUS, Reg.CMP_FROZEN_CNT] → t.rd o = s.rd o) ∧
          (limit = 0 ∨ s.scn.prevOut = none ∨ (s.scn.prevOut = some out ∧ s.scn.prevIn = some inp) →
            t.rd Reg.CMP_FRZ_RUN = s.rd Reg.CMP_FRZ_RUN ∧ t.rd Reg.CMP_STATUS = s.rd Reg.CMP_STATUS) ∧
          ∀ po pi, s.scn.prevOut = some po → s.scn.prevIn = some pi → limit ≠ 0 →
            (po ≠ out → t.fld Reg.CMP_FRZ_RUN Reg.CMP_FRZ_RUN_RUN = 0) ∧
            (po = out → pi ≠ inp → t.fld Reg.CMP_FRZ_RUN Reg.CMP_FRZ_RUN_RUN = min 255 (run + 1) ∧
              (run + 1 = limit → t.fld Reg.CMP_STATUS Reg.CMP_STATUS_FROZEN = 1 ∧
                t.rd Reg.CMP_FROZEN_CNT = counted (s.rd Reg.CMP_FROZEN_CNT)) ∧
              (run + 1 ≠ limit → t.rd Reg.CMP_FROZEN_CNT = s.rd Reg.CMP_FROZEN_CNT ∧ t.rd Reg.CMP_STATUS = s.rd Reg.CMP_STATUS)))) ∧
    (s.prState = 0 → s.scn.prCapture = none →
      ((∃ p, p < 2 ∧ s.portActive p = true) → (∀ p, p < 2 → s.portActive p = true → s.port p Reg.SCN_PORT_STATUS_PR_CAP = 1) →
        ∃ t, exec .enter s = .next t ∧ t = { s with scn := { s.scn with prCapture := some s.nextFrame, prFrom := none, prWaking := false } }) ∧
      ((∃ p, p < 2 ∧ s.portActive p = true ∧ s.port p Reg.SCN_PORT_STATUS_PR_CAP = 0) → exec .enter s = .next s)) ∧
    (∀ f, s.scn.prCapture = some f → s.prState = 1 →
      (frameAfter s.trd.now.frame f = false → exec .prActive s = .next s) ∧
      (frameAfter s.trd.now.frame f = true → ∃ t, exec .prActive s = .next t ∧ t.prState = 2 ∧
        t.rd Reg.SCN_PR_CNT = counted (s.rd Reg.SCN_PR_CNT) ∧ (∀ l ∈ t.looms, l.raster = true → l.gated = true) ∧
        t.scn = { s.scn with lines := [], rows := [] } ∧
        t = { s with regs := t.regs, scn := t.scn, looms := t.looms, pwr := t.pwr, mem := { s.mem with arrived := t.mem.arrived } } ∧
        ∀ o, o ∉ [Reg.SCN_PR_STATUS, Reg.SCN_PR_CNT, Reg.PWR_STATUS] → t.rd o = s.rd o)) ∧
    (∀ i, s.prState = 0 ∨ s.prState = 3 → exec (.exit i) s = .next s) ∧
    (s.prState = 1 ∨ s.prState = 2 →
      let left := fun (t : State) => t.prState = 3 ∧ t.scn = { s.scn with prWaking := true } ∧
        t = { s with regs := t.regs, scn := t.scn, pwr := t.pwr, looms := t.looms } ∧ ∀ o, o ∉ [Reg.SCN_PR_STATUS, Reg.PWR_STATUS] → t.rd o = s.rd o
      (∃ t, exec (.exit false) s = .next t ∧ left t) ∧
      (s.bit Reg.SCN_PR_CTL Reg.SCN_PR_CTL_EXIT_ON_INTAKE = false → exec (.exit true) s = .next s) ∧
      (s.bit Reg.SCN_PR_CTL Reg.SCN_PR_CTL_EXIT_ON_INTAKE = true → (∃ r ∈ s.pic.fifo, s.frameEligible r = true) →
        ∃ t, exec (.exit true) s = .next t ∧ left t)) ∧
    ∀ g, s.scn.prFrom = some g → s.prState = 3 → s.trd.now.frame = g ∨ frameAfter s.trd.now.frame g = true → ∃ t, exec .prExitFrame s = .next t ∧ t.prState = 0 ∧
      t.scn = { s.scn with prCapture := none, prFrom := none } ∧ t = { s with regs := t.regs, scn := t.scn } ∧
      ∀ o, o ∉ [Reg.SCN_PR_STATUS, Reg.SCN_PORT_STATUS 0, Reg.SCN_PORT_STATUS 1] → t.rd o = s.rd o

/-! Chapter 12: power and health. -/

/-- Steering and limits: the lowest valid report moves the setpoint (R674 to R676), points change (R677, R678), polls are taken and phases
flagged (R680, R681, R688, R690, R691, R695), host transactions run (R682), and the limits move the ladder (R700 to R704). The grid of the
ticks is the model's (log 149). Rows STEERING_TICK, OP_CHANGE_DOWN, OP_CHANGE_UP, POLL_GROUP, PMBUS_HOST_TRANSACTION and LIMIT_TICK. -/
def Obligations.TheRailIsSteeredAndLimited : Prop :=
  ∀ s : State,
    let status := fun (t : State) (f : Field) => t.fld Reg.PWR_STATUS f
    let down := fun (t : State) => t.pwr.ladder = s.pwr.ladder + 1 ∧ status t Reg.PWR_STATUS_POS = s.pwr.ladder + 1 ∧
      status t Reg.PWR_STATUS_ALLOW = s.fullPool.length - (s.pwr.ladder + 1) * s.stepLooms ∧
      t.rd Reg.PWR_STEP_CNT = counted (s.rd Reg.PWR_STEP_CNT)
    (∀ (reports : List Nat) (iest vadc : Nat) (ok : Bool),
      (s.boot.fusesRead = false ∨ s.boot.tripped = true ∨ s.trd.time < s.pwr.steerAt → exec (.steeringTick reports iest vadc ok) s = .next s) ∧
      (s.boot.fusesRead = true → s.boot.tripped = false → s.pwr.steerAt ≤ s.trd.time →
        let v := fun (n : Nat) => s.droopReport n (reports.getD n 0)
        let valid := fun (n : Nat) => n < 256 ∧ s.underCal n = false ∧ 450 ≤ v n ∧ v n ≤ 1000
        ∃ (t : State) (smin : Nat), exec (.steeringTick reports iest vadc ok) s = .next t ∧
          ((∀ n, ¬valid n) → smin = 0) ∧ ((∃ n, valid n) → (∃ n, valid n ∧ v n = smin) ∧ ∀ n, valid n → (smin : Int) ≤ v n) ∧
          t.fld Reg.PWR_SETPT Reg.PWR_SETPT_SMIN = smin ∧
          (∀ n, valid n → v n = smin → (∀ m, m < n → valid m → v m ≠ smin) → t.fld Reg.PWR_SETPT Reg.PWR_SETPT_REGION = n / 16) ∧
          t.fld Reg.PWR_CUR Reg.PWR_CUR_IEST = iest % 65536 ∧ t.pwr.steerAt = s.pwr.steerAt + 10 * usTime ∧
          (let opf := s.fld Reg.PWR_STATUS Reg.PWR_STATUS_OP
           let steer := fun (f : Field) => s.fld Reg.PWR_STEER f
           let err : Int := (s.vfloor s.pwr.target + steer Reg.PWR_STEER_GUARD : Nat) - (smin : Int)
           let up : Nat := if s.pwr.target ≠ opf then steer Reg.PWR_STEER_OP_SLEW else steer Reg.PWR_STEER_STEP_UP
           let old : Int := s.fld Reg.PWR_SETPT Reg.PWR_SETPT_SET
           t.fld Reg.PWR_SETPT Reg.PWR_SETPT_SET = (min 850 (max (s.vfloor opf : Int)
             (if 0 < err then old + min err up else old - min (-err) (steer Reg.PWR_STEER_STEP_DN)))).toNat) ∧
          (∃ more, t.out = s.out ++ ⟨s.trd.cclk, .avsWrite (t.fld Reg.PWR_SETPT Reg.PWR_SETPT_SET)⟩ :: more) ∧
          t.rd Reg.PWR_AVS_ERR_CNT = (if ok then s.rd Reg.PWR_AVS_ERR_CNT else counted (s.rd Reg.PWR_AVS_ERR_CNT)) ∧
          t.pwr.vadc = vadc ∧
          (∀ n, n < 256 → (s.underCal n = true → t.rd (Reg.PWR_SENS n) = s.rd (Reg.PWR_SENS n)) ∧
            (s.underCal n = false → t.fld (Reg.PWR_SENS n) Reg.PWR_SENS_BAD = (if v n < 450 ∨ 1000 < v n then 1 else 0)) ∧
            (valid n → (t.fld (Reg.PWR_SENS n) Reg.PWR_SENS_MV : Int) = v n)) ∧
          (iest * 8 ≤ s.edcA * 10 * s.frac → status t ⟨24, 1⟩ = 0 ∧ t.pwr.ladder = s.pwr.ladder ∧
            t.pwr = { s.pwr with
              vadc := vadc
              regions := t.pwr.regions
              calTick := []
              steerAt := t.pwr.steerAt
              upAt := (if s.pwr.target < s.op ∧ s.vfloor s.pwr.target + s.fld Reg.PWR_STEER Reg.PWR_STEER_GUARD ≤ smin ∧ s.pwr.upAt = none
                then some s.trd.cclk else s.pwr.upAt) } ∧
            t = { s with regs := t.regs, out := t.out, pwr := t.pwr }) ∧
          (s.edcA * 10 * s.frac < iest * 8 → status t ⟨24, 1⟩ = 1 ∧
            (s.pwr.stepped ≠ some s.trd.cclk → s.pwr.ladder ≤ s.ladderN → down t) ∧
            (s.pwr.stepped = some s.trd.cclk → t.pwr.ladder = s.pwr.ladder)))) ∧
    (s.pwr.target ≤ s.op → exec .opChangeDown s = .next s) ∧
    (s.op < s.pwr.target → s.pwr.target ≤ 2 → ∃ t, exec .opChangeDown s = .next t ∧ t.op = s.pwr.target ∧
      status t Reg.PWR_STATUS_OP_PEND = 0 ∧
      t = { s with regs := t.regs, trd := { s.trd with late := t.trd.late }, mem := { s.mem with flights := t.mem.flights } } ∧
      ∀ o, o ≠ Reg.PWR_STATUS → t.rd o = s.rd o) ∧
    (s.pwr.upAt = none → exec .opChangeUp s = .next s) ∧
    (∀ c, s.pwr.upAt = some c →
     let s0 := s.elapseTo (c + 1)
     (s.op ≤ s.pwr.target → exec .opChangeUp s = .next s) ∧
     (s.pwr.target < s.op → s.op ≤ 2 → ∃ t, exec .opChangeUp s = .next t ∧ t.op = s.pwr.target ∧ status t Reg.PWR_STATUS_OP_PEND = 0 ∧
      (s.scn.prWaking = false → t = { s0 with regs := t.regs, pwr := { s0.pwr with upAt := none }, mem := { s0.mem with flights := t.mem.flights } }) ∧
      t = { s0 with regs := t.regs, pwr := t.pwr, looms := t.looms, mem := { s0.mem with flights := t.mem.flights } } ∧
      ∀ o, o ≠ Reg.PWR_STATUS → t.rd o = s0.rd o)) ∧
    (∀ p l, (s.boot.tripped = true ∨ s.trd.time < s.pwr.pollAt ∨ (s.pwr.hostCmd = true ∧ s.pwr.hostLeft ≠ 0) → exec (.pollGroup p) s = .next s) ∧
      (s.boot.tripped = true ∨ s.trd.time < s.pwr.limitAt → exec (.limitTick l) s = .next s)) ∧
    (∀ p : PollGroup, s.boot.tripped = false → s.pwr.pollAt ≤ s.trd.time → (s.pwr.hostCmd = false ∨ s.pwr.hostLeft = 0) →
      ∃ t, exec (.pollGroup p) s = .next t ∧ t.pwr.pollAt = s.pwr.pollAt + 1000 * usTime ∧ t.pwr.hostLeft = s.pollList.length ∧
      t.out = s.out ++ s.pollList.map (fun x => ⟨s.trd.cclk, .pmbus (s.fld Reg.PWR_PMB_CFG Reg.PWR_PMB_CFG_ADDR) x.1 x.2.isNone
        ((x.2.map (leBytes 1)).getD [])⟩) ∧
      (∀ x, p.vout = some x → t.fld Reg.PWR_PKG Reg.PWR_PKG_VOUT = x % 1024) ∧
      (p.vout = none → t.fld Reg.PWR_PKG Reg.PWR_PKG_VOUT = s.fld Reg.PWR_PKG Reg.PWR_PKG_VOUT) ∧
      (∀ x, p.iout = some x → t.fld Reg.PWR_CUR Reg.PWR_CUR_IOUT = x % 65536) ∧
      (p.iout = none → t.fld Reg.PWR_CUR Reg.PWR_CUR_IOUT = s.fld Reg.PWR_CUR Reg.PWR_CUR_IOUT) ∧
      t.pwr.iout = (t.fld Reg.PWR_CUR Reg.PWR_CUR_IOUT :: s.pwr.iout).take 10 ∧
      t.fld Reg.PWR_PKG Reg.PWR_PKG_POWER = t.powerSum / (1000 * t.pwr.power.length) % 65536 ∧
      t.fld Reg.PWR_FAULT Reg.PWR_FAULT_FRAC = faultFrac (t.rd Reg.PWR_FAULT) ∧
      (∀ m, p.fault = some m → s.fld Reg.PWR_PMB_CFG Reg.PWR_PMB_CFG_FAULT_CMD ≠ 0 → ∀ k, k < 8 → m.testBit k = true →
        t.phaseOpen k = true ∧ (s.phaseOpen k = false → s.ladderN ≤ t.pwr.ladder)) ∧
      (∀ r g, r < 16 → s.baseline r = some g → 0 < (s.pwr.regions.getD r (0, 0)).2 → 100 ≤ s.pwr.pathRun.getD r 0 →
        let m := s.pwr.regions.getD r (0, 0)
        120000 * (m.2 : Int) < ((s.pwr.vadc : Int) * m.2 - m.1) * 10000 - g * (t.fld Reg.PWR_CUR Reg.PWR_CUR_IOUT : Int) * m.2 →
        t.fld Reg.PWR_PATH ⟨r, 1⟩ = 1) ∧
      t.rd Reg.RIN_PMB_LATE_CNT =
        (if s.pwr.pollAt + 500 * usTime < s.trd.time then counted (s.rd Reg.RIN_PMB_LATE_CNT) else s.rd Reg.RIN_PMB_LATE_CNT) ∧
      t.trd = s.trd ∧ t.mem = s.mem) ∧
    (∀ err data, (s.pwr.hostCmd = false ∨ s.pwr.hostLeft = 0 → exec (.pmbusHostTransaction err data) s = .next s) ∧
      (s.pwr.hostCmd = true → s.pwr.hostLeft ≠ 0 →
        let n := min 4 (s.fld Reg.PWR_PMB_CMD Reg.PWR_PMB_CMD_LEN)
        let read := s.bit Reg.PWR_PMB_CMD Reg.PWR_PMB_CMD_RD
        ∃ t, exec (.pmbusHostTransaction err data) s = .next t ∧ t.fld Reg.PWR_PMB_STATUS Reg.PWR_PMB_STATUS_BUSY = 0 ∧
          t.fld Reg.PWR_PMB_STATUS Reg.PWR_PMB_STATUS_ERR = err.val ∧
          t.out = s.out ++ [⟨s.trd.cclk, .pmbus (s.fld Reg.PWR_PMB_CFG Reg.PWR_PMB_CFG_ADDR) (s.fld Reg.PWR_PMB_CMD Reg.PWR_PMB_CMD_CODE) read
            (if read then [] else leBytes n (s.rd Reg.PWR_PMB_DATA).toNat)⟩] ∧
          t.rd Reg.PWR_PMB_DATA = (if read = true ∧ err.val = 0 then BitVec.ofNat 32 (data.toNat % 2 ^ (8 * n)) else s.rd Reg.PWR_PMB_DATA) ∧
          t = { s with regs := t.regs, out := t.out, pwr := { s.pwr with hostCmd := false, hostLeft := s.pwr.hostLeft - 1 } } ∧
          ∀ o, o ∉ [Reg.PWR_PMB_STATUS, Reg.PWR_PMB_DATA] → t.rd o = s.rd o)) ∧
    ∀ temps : List Int, s.boot.tripped = false → s.pwr.limitAt ≤ s.trd.time →
      let hot := ((List.range 40).foldl (State.noteThermal temps) s).hottest temps
      let tj := match hot with
        | some x => x.2
        | none => signed8 (s.fld Reg.PWR_TJ Reg.PWR_TJ_TJ)
      let n := max 1 s.pwr.iout.length
      let m := max 1 s.pwr.power.length
      let tdc := s.tdcA * 10 * s.frac * n
      let cap := s.capW * 10000 * m
      let edc := s.edcA * 10 * s.frac
      let sum := s.pwr.iout.sum * 8
      let iest := s.fld Reg.PWR_CUR Reg.PWR_CUR_IEST * 8
      let tripped := tdc < sum ∨ cap < s.powerSum ∨ s.thrTemp ≤ tj
      let low := iest * 16 < edc * 15 ∧ sum * 16 < tdc * 15 ∧ s.powerSum * 16 < cap * 15 ∧ tj < s.thrTemp - 3
      let limit := orElse0 (s.fld Reg.PWR_THR_CFG Reg.PWR_THR_CFG_RELEASE) 1
      let next := s.pwr.limitAt + 1000 * usTime
      ∃ t, exec (.limitTick temps) s = .next t ∧ t.pwr.limitAt = next ∧
        status t ⟨25, 1⟩ = (if tdc < sum then 1 else 0) ∧ status t ⟨26, 1⟩ = (if cap < s.powerSum then 1 else 0) ∧
        status t ⟨27, 1⟩ = (if s.thrTemp ≤ tj then 1 else 0) ∧
        (∀ x, hot = some x → t.fld Reg.PWR_TJ Reg.PWR_TJ_SENSOR = x.1) ∧
        (∀ k x, hot = some x → k < 40 → s.pwr.calUnit ≠ some (256 + k) →
          let v := temps.getD k (-128) + signed8 (s.fld (Reg.PWR_TSENS k) Reg.PWR_TSENS_OFF)
          v ≤ 150 → -40 ≤ v → v ≤ x.2) ∧
        (tripped → t.pwr.release = 0 ∧
          (s.pwr.stepped ≠ some s.trd.cclk → s.pwr.ladder ≤ s.ladderN → down t) ∧
          (s.pwr.stepped ≠ some s.trd.cclk → s.pwr.ladder = s.ladderN + 1 → s.p1Allowed = false →
            t.pwr.ladder = s.pwr.ladder ∧ status t Reg.PWR_STATUS_HELD = 1) ∧
          (s.pwr.stepped ≠ some s.trd.cclk → s.pwr.ladder = s.ladderN + 1 → s.p1Allowed = true → t.pwr.ladder = s.pwr.ladder + 1) ∧
          (s.pwr.stepped ≠ some s.trd.cclk → s.pwr.ladder = s.ladderN + 2 → tj < s.p2Temp → t.pwr.ladder = s.pwr.ladder) ∧
          (s.pwr.stepped ≠ some s.trd.cclk → s.pwr.ladder = s.ladderN + 2 → s.p2Temp ≤ tj → t.pwr.ladder = s.pwr.ladder + 1) ∧
          (s.pwr.stepped = some s.trd.cclk ∨ s.ladderN + 3 ≤ s.pwr.ladder → t.pwr.ladder = s.pwr.ladder)) ∧
        (¬tripped → low → limit ≤ s.pwr.release + 1 → 0 < s.pwr.ladder → s.pwr.stepped ≠ some s.trd.cclk →
          t.pwr.ladder = s.pwr.ladder - 1 ∧ t.pwr.release = 0 ∧ t.rd Reg.PWR_STEP_CNT = s.rd Reg.PWR_STEP_CNT) ∧
        (¬tripped → low → (s.pwr.release + 1 < limit ∨ s.pwr.ladder = 0 ∨ s.pwr.stepped = some s.trd.cclk) →
          t.pwr = { s.pwr with release := s.pwr.release + 1, limitAt := next }) ∧
        (¬tripped → ¬low → t.pwr = { s.pwr with release := 0, limitAt := next } ∧ t = { s with regs := t.regs, pwr := t.pwr })

/-- Press, gates and Rinse: an injector fires and recharges (R683, R684), the stretcher engages (R685, R686), looms are gated and woken
(R711, R713), a Rinse slot starts its units (R714 to R718), and the snapshot bank is filled (R719). The free value of a baseline that is neither
set nor learned (log 152) and the span of a Rinse pass (log 153) are the model's. Rows PRESS_FIRE, PRESS_RELEASE, STRETCHER_ENGAGE,
STRETCHER_DISENGAGE, IDLE_GATE, WAKE_COMPLETE, RINSE_SLOT, CALIBRATION_UNIT, FLASH_PATROL_UNIT, PASS_STARVE and FRAME_SNAPSHOT. -/
def Obligations.PressGatesAndRinseRun : Prop :=
  ∀ s : State,
    (∀ r g, s.baseline r = some g → s.railTarget r = (s.fld Reg.PWR_SETPT Reg.PWR_SETPT_SET : Int) * 10000 - g * (s.fld Reg.PWR_CUR Reg.PWR_CUR_IEST : Int)) ∧
    (∀ (i : Fin 64) (rail : Nat),
      let thresh : Int := s.fld Reg.PWR_PRESS_CFG Reg.PWR_PRESS_CFG_THRESH
      let ready := s.bit Reg.PWR_PRESS_CFG Reg.PWR_PRESS_CFG_EN = true ∧ i.val ∉ s.pwr.firing ∧
        (∀ c, tblFind s.pwr.rearm i = some c → c ≤ s.trd.time) ∧ (rail : Int) * 10000 < s.railTarget (i.val / 4) - thresh * 10000
      (¬ready → exec (.pressFire ⟨i, rail⟩) s = .next s) ∧
      (ready → ∃ t, exec (.pressFire ⟨i, rail⟩) s = .next t ∧ i.val ∈ t.pwr.firing ∧
        t.rd (Reg.PWR_PRESS_CNT i) = counted (s.rd (Reg.PWR_PRESS_CNT i)) ∧
        t.rd Reg.PWR_PRESS_TOT_CNT = counted (s.rd Reg.PWR_PRESS_TOT_CNT) ∧ i.val / 4 ∈ t.pwr.pressed ∧
        t = { s with regs := t.regs, pwr := { s.pwr with firing := t.pwr.firing, rearm := t.pwr.rearm, pressed := t.pwr.pressed } } ∧
        ∀ o, o ∉ [Reg.PWR_PRESS_CNT i, Reg.PWR_PRESS_TOT_CNT] → t.rd o = s.rd o) ∧
      ∀ spent : Bool,
        (i.val ∉ s.pwr.firing ∨ (spent = false ∧ (rail : Int) * 10000 ≤ s.railTarget (i.val / 4) - thresh * 5000) →
          exec (.pressRelease ⟨⟨i, rail⟩, spent⟩) s = .next s) ∧
        (i.val ∈ s.pwr.firing → (spent = true ∨ s.railTarget (i.val / 4) - thresh * 5000 < (rail : Int) * 10000) →
          ∃ t, exec (.pressRelease ⟨⟨i, rail⟩, spent⟩) s = .next t ∧ i.val ∉ t.pwr.firing ∧
            tblFind t.pwr.rearm i = some (s.trd.time + usTime / 5) ∧
            t = { s with pwr := { s.pwr with firing := t.pwr.firing, rearm := t.pwr.rearm } } ∧ exec (.pressFire ⟨i, rail⟩) t = .next t)) ∧
    (∀ (n : Fin 256) (mv : Nat),
      let under := fun (x : Nat) => (mv : Int) * 10000 < s.railTarget (n.val / 16) - (x : Int) * 10000
      let s1 := { s with pwr := { s.pwr with lowAt := if under (s.fld Reg.PWR_PRESS_CFG Reg.PWR_PRESS_CFG_THRESH) then s.trd.cclk else s.pwr.lowAt } }
      let s0 := s1.tick
      (¬under (s.fld Reg.PWR_STR_CFG Reg.PWR_STR_CFG_THRESH) → exec (.stretcherEngage ⟨n, mv⟩) s = .next s1) ∧
      (under (s.fld Reg.PWR_STR_CFG Reg.PWR_STR_CFG_THRESH) → ∃ t, exec (.stretcherEngage ⟨n, mv⟩) s = .next t ∧
        t.fld Reg.PWR_STATUS Reg.PWR_STATUS_STR = 1 ∧ n.val / 16 ∈ t.pwr.pressed ∧
        t.rd Reg.PWR_STR_CNT = (if s0.bit Reg.PWR_STATUS Reg.PWR_STATUS_STR then s0.rd Reg.PWR_STR_CNT else counted (s0.rd Reg.PWR_STR_CNT)) ∧
        t = { s0 with regs := t.regs, pwr := { s0.pwr with pressed := t.pwr.pressed } } ∧
        ∀ o, o ∉ [Reg.PWR_STATUS, Reg.PWR_STR_CNT] → t.rd o = s0.rd o)) ∧
    (let hold := s.fld Reg.PWR_STR_CFG Reg.PWR_STR_CFG_HOLD
     (s.bit Reg.PWR_STR_CFG Reg.PWR_STR_CFG_FORCE = true ∨ s.pwr.ladderN < s.pwr.ladder ∨ s.trd.cclk ≤ s.pwr.lowAt + hold →
      exec .stretcherDisengage s = .next s) ∧
     (s.bit Reg.PWR_STR_CFG Reg.PWR_STR_CFG_FORCE = false → s.pwr.ladder ≤ s.pwr.ladderN → s.pwr.lowAt + hold < s.trd.cclk →
      ∃ t, exec .stretcherDisengage s = .next t ∧ t.fld Reg.PWR_STATUS Reg.PWR_STATUS_STR = 0 ∧ t = { s with regs := t.regs } ∧
        ∀ o, o ≠ Reg.PWR_STATUS → t.rd o = s.rd o)) ∧
    (∀ p : Fin 34,
      let picks := s.fld Reg.PWR_PR_CFG Reg.PWR_PR_CFG_IDLE_PICKS
      let free := (s.loom p).inService = true ∧ (s.loom p).logical ∈ s.freePool
      (picks = 0 ∨ ¬free ∨ (s.loom p).idle < picks → exec (.idleGate p) s = .next s) ∧
      (picks ≠ 0 → free → picks ≤ (s.loom p).idle → ∃ t, exec (.idleGate p) s = .next t ∧ (t.loom p).gated = true ∧
        (t.loom p).owner = .nobody ∧ (∀ j, j ≠ p.val → t.loom j = s.loom j) ∧ t = { s with looms := t.looms })) ∧
    (∀ failed : List (Fin 34),
      let bist := s.bit Reg.PWR_PR_CFG Reg.PWR_PR_CFG_WAKE_BIST
      let depth := s.bit Reg.PWR_PR_CFG Reg.PWR_PR_CFG_DEPTH
      (s.scn.prWaking = false ∨ (depth = true ∧ s.op ≠ s.pwr.target) ∨ s.trd.cclk < s.wakeEnd → exec (.wakeComplete failed) s = .next s) ∧
      (s.scn.prWaking = true → (depth = false ∨ s.op = s.pwr.target) → s.wakeEnd ≤ s.trd.cclk →
        ∃ (t : State) (g : Nat), exec (.wakeComplete failed) s = .next t ∧
          t.scn = { s.scn with prWaking := false, prFrom := some g } ∧
          g = (if (s.launchStamp s.nextFrame 0).after s.trd.now = true then s.nextFrame else (s.nextFrame + 1) % 65536) ∧
          ((bist = false ∨ failed = []) →
            (∀ p, p < s.looms.length → p < 34 → (s.loom p).raster = true → (t.loom p).owner = .picture) ∧
            (∀ p, (s.loom p).raster = false → t.loom p = s.loom p) ∧
            (∀ p, (s.loom p).raster = true → (s.loom p).owner ≠ .picture → p < s.looms.length → p < 34 →
              (t.loom p).scratch = [] ∧ (t.loom p).consts = none ∧ ∀ x ∈ t.mem.l1, x.loom ≠ (s.loom p).logical) ∧
            t = { s with looms := t.looms, scn := t.scn, mem := t.mem }) ∧
          ∀ p : Fin 34, failed = [p] → bist = true → p.val < s.looms.length → (s.loom p).raster = true → (s.loom p).state = .active →
            (s.loom p).work = none → (t.loom p).state = .failing ∧ (t.loom p).cause = 2)) ∧
    (let n := s.trd.now
     let due := n.pick = s.fld Reg.RIN_CFG Reg.RIN_CFG_SLOT_PICK ∧ s.pwr.slotDone ≠ some (n.frame, n.line)
     let s0 := State.elapse (s.toAction ⟨n.frame, n.line, n.pick, 0⟩) s
     let busy := s0.boot.flCmd ≠ none ∨ (1 ≤ s0.loadState ∧ s0.loadState ≤ 4)
     (¬due → exec .rinseSlot s = .next s) ∧
     (due → ∃ t, exec .rinseSlot s = .next t ∧ t.pwr.slotDone = some (n.frame, n.line) ∧ t = { s0 with regs := t.regs, pwr := t.pwr, out := t.out } ∧
      (∀ k, s0.pwr.calUnit = some k → t.pwr.calUnit = some k) ∧
      (s0.pwr.calUnit = none → (s0.blankingLine = true ∨ ∀ r ∈ s0.unitRegions s0.pwr.calNext, r ∉ s0.pwr.pressedPrev) →
        t.pwr.calUnit = some s0.pwr.calNext ∧ t.pwr.calAt = s0.trd.time ∧ s0.pwr.calNext ∈ t.pwr.calTick ∧
        (s0.pwr.calNext < 256 → t.fld (Reg.PWR_SENS s0.pwr.calNext) Reg.PWR_SENS_CAL = 1)) ∧
      (s0.pwr.calUnit = none → s0.blankingLine = false → (∃ r ∈ s0.unitRegions s0.pwr.calNext, r ∈ s0.pwr.pressedPrev) →
        t.pwr.calUnit = none) ∧
      (∀ k, s0.pwr.patrol = some k → t.pwr.patrol = some k) ∧
      (s0.pwr.patrol = none → s0.bit Reg.RIN_CFG Reg.RIN_CFG_FLASH_EN = true → (s0.blankingLine = true ∨ ¬busy) →
        t.pwr.patrol = some s0.pwr.patrolNext ∧
        t.out = s0.out ++ [⟨s0.trd.cclk, .flash s0.flashOctal (.read (s0.patrolAddr s0.pwr.patrolNext) 256)⟩]) ∧
      (s0.pwr.patrol = none → (s0.bit Reg.RIN_CFG Reg.RIN_CFG_FLASH_EN = false ∨ (s0.blankingLine = false ∧ busy)) → t.pwr.patrol = none ∧ t.out = s0.out))) ∧
    (∀ reading reference : Int,
      (s.pwr.calUnit = none → exec (.calibrationUnit reading reference) s = .next s) ∧
      (s.trd.time < s.pwr.calAt + usTime → exec (.calibrationUnit reading reference) s = .next s) ∧
      ∀ n, s.pwr.calUnit = some n → n < 296 → s.pwr.calAt + usTime ≤ s.trd.time → ∃ t, exec (.calibrationUnit reading reference) s = .next t ∧ t.pwr.calUnit = none ∧
        t.pwr.calNext = (n + 1) % 296 ∧ t = { s with regs := t.regs, pwr := t.pwr } ∧
        t.rd Reg.RIN_CAL_PASS_CNT = (if n = 295 then counted (s.rd Reg.RIN_CAL_PASS_CNT) else s.rd Reg.RIN_CAL_PASS_CNT) ∧
        (n = 295 → t.pwr.calStarved = false ∧ t.pwr.calFrom = s.trd.time) ∧
        (n < 256 → t.fld (Reg.PWR_SENS n) Reg.PWR_SENS_CAL = 0 ∧
          (let off := signed8 (s.fld (Reg.PWR_SENS n) Reg.PWR_SENS_OFF)
           ∀ g, s.baseline (n / 16) = some g →
            let want := (reference * 10000 - g * (s.fld Reg.PWR_CUR Reg.PWR_CUR_IOUT : Int)) / 10000
            signed8 (t.fld (Reg.PWR_SENS n) Reg.PWR_SENS_OFF) = max (-128) (min 127 (off + max (-4) (min 4 (want - (reading + off))))))) ∧
        (256 ≤ n →
          let off := signed8 (s.fld (Reg.PWR_TSENS (n - 256)) Reg.PWR_TSENS_OFF)
          signed8 (t.fld (Reg.PWR_TSENS (n - 256)) Reg.PWR_TSENS_OFF) =
            max (-128) (min 127 (off + max (-1) (min 1 (reference - (reading + off))))))) ∧
    (s.pwr.patrol = none → exec .flashPatrolUnit s = .next s) ∧
    (∀ n, s.pwr.patrol = some n → ∃ t, exec .flashPatrolUnit s = .next t ∧ t.pwr.patrol = none ∧ t.boot = s.boot ∧
      t.pwr.patrolNext = (if s.patrolUnits ≤ n + 1 then 0 else n + 1) ∧ t = { s with regs := t.regs, pwr := t.pwr } ∧
      t.rd Reg.RIN_FLASH_PASS_CNT = (if s.patrolUnits ≤ n + 1 then counted (s.rd Reg.RIN_FLASH_PASS_CNT) else s.rd Reg.RIN_FLASH_PASS_CNT) ∧
      (s.patrolUnits ≤ n + 1 → t.pwr.patFrom = s.trd.time ∧ t.pwr.patStarved = false) ∧
      (n < 32 → n ≠ 15 → n ≠ 31 → t.rd Reg.RIN_FLASH_BAD_CNT = s.rd Reg.RIN_FLASH_BAD_CNT) ∧
      (∀ k, s.boot.slot = some k → 32 ≤ n →
        let ends := fun (x : Nat × Section) => (x.2.offset + (x.2.length - 1)) / 256 = n - 32
        ((∀ x ∈ s.indexed k, ends x → s.hashOk k x.1 x.2 = true) → t.rd Reg.RIN_FLASH_BAD_CNT = s.rd Reg.RIN_FLASH_BAD_CNT) ∧
        ((∃ x ∈ s.indexed k, ends x ∧ s.hashOk k x.1 x.2 = false) → t.fld Reg.RIN_STATUS Reg.RIN_STATUS_FLASH_BAD = 1)) ∧
      (n = 15 ∨ n = 31 →
        let b := s.flashBytes (0x1000 * (n / 16)) 48
        (bytesAt b 0x2C 4 = crc32 (b.take 0x2C) → t.rd Reg.RIN_FLASH_BAD_CNT = s.rd Reg.RIN_FLASH_BAD_CNT) ∧
        (bytesAt b 0x2C 4 ≠ crc32 (b.take 0x2C) → t.fld Reg.RIN_STATUS Reg.RIN_STATUS_FLASH_BAD = 1 ∧
          t.rd Reg.RIN_FLASH_BAD_CNT = counted (s.rd Reg.RIN_FLASH_BAD_CNT)))) ∧
    (let secs := s.fld Reg.RIN_TARGET Reg.RIN_TARGET_FLASH_S
     (secs = 0 ∨ s.pwr.patStarved = true ∨ s.trd.time < s.pwr.patFrom + secs * 1000000 * usTime → exec (.passStarve true) s = .next s) ∧
     (secs ≠ 0 → s.pwr.patStarved = false → s.pwr.patFrom + secs * 1000000 * usTime ≤ s.trd.time → ∃ t, exec (.passStarve true) s = .next t ∧
      t.rd Reg.RIN_FLASH_STARVE_CNT = counted (s.rd Reg.RIN_FLASH_STARVE_CNT) ∧
      t = { s with regs := t.regs, pwr := { s.pwr with patStarved := true } } ∧ ∀ o, o ≠ Reg.RIN_FLASH_STARVE_CNT → t.rd o = s.rd o)) ∧
    (let ms := s.fld Reg.RIN_TARGET Reg.RIN_TARGET_CAL_MS
     (ms = 0 ∨ s.pwr.calStarved = true ∨ s.trd.time < s.pwr.calFrom + ms * 1000 * usTime → exec (.passStarve false) s = .next s) ∧
     (ms ≠ 0 → s.pwr.calStarved = false → s.pwr.calFrom + ms * 1000 * usTime ≤ s.trd.time → ∃ t, exec (.passStarve false) s = .next t ∧
      t.rd Reg.RIN_CAL_STARVE_CNT = counted (s.rd Reg.RIN_CAL_STARVE_CNT) ∧
      t = { s with regs := t.regs, pwr := { s.pwr with calStarved := true } } ∧ ∀ o, o ≠ Reg.RIN_CAL_STARVE_CNT → t.rd o = s.rd o)) ∧
    (let n := s.trd.now
     let due := s.bit Reg.RIN_CFG Reg.RIN_CFG_SNAP_EN = true ∧ n.line = s.fld Reg.RIN_CFG Reg.RIN_CFG_SNAP_LINE ∧ n.pick = 0 ∧
      s.pwr.snapDone ≠ some n.frame
     let s0 := State.elapse (s.toAction ⟨n.frame, n.line, 0, 0⟩) s
     (¬due → exec .frameSnapshot s = .next s) ∧
     (due → ∃ t, exec .frameSnapshot s = .next t ∧ t.pwr = { s0.pwr with snapDone := some n.frame } ∧
      (∀ x ∈ [(0, Reg.PWR_STATUS), (1, Reg.PWR_SETPT), (2, Reg.PWR_TJ), (3, Reg.PWR_CUR), (4, Reg.PWR_PKG), (5, Reg.PWR_FAULT),
        (6, Reg.PWR_PRESS_TOT_CNT), (7, Reg.PWR_STR_CNT), (8, Reg.PWR_STR_CCLK_CNT), (9, Reg.PWR_STEP_CNT), (10, Reg.DMC_FORCED_REF_CNT),
        (11, Reg.DMC_SCRUB_STARVE_CNT)], t.rd (Reg.RIN_SNAP x.1) = s0.rd x.2) ∧
      t.holdsStamp Reg.RIN_SNAP_STAMP_LO Reg.RIN_SNAP_STAMP_HI s0.trd.now ∧ t.rd Reg.RIN_SNAP_CNT = counted (s0.rd Reg.RIN_SNAP_CNT) ∧
      t = { s0 with regs := t.regs, pwr := t.pwr }))

/-! Chapter 13: the Selvage link and walls. -/

/-- Selvage ports: training through lock, deskew, HELLO and eight echoes (R736, R737), the loss of a port (R738), flits sent by priority and credit
(R728, R730, R731), received, acknowledged and sent again (R729, R734), and routed messages (R735). Rows PORT_TRAINING, TRAINING_RETRY, HELLO,
ECHO, ECHO_REPLY, PORT_UP, PORT_DOWN, FLIT_SLOT, FLIT_RECEIVE and RESEND_TIMEOUT. -/
def Obligations.SelvagePortsTrainAndCarryFlits : Prop :=
  ∀ (s : State) (p : Fin 4),
    let x := s.selPort p
    let sends := fun (u t : State) (type : Nat) =>
      ∃ m, (t.selPort p).queue = (u.selPort p).queue ++ [m] ∧ m.cls = 3 ∧ m.src = 4 ∧ bytesAt m.data 0 1 = type
    let failed := fun (t : State) (reason : Nat) => t.slvState p = 0 ∧ t.fld (Reg.SLV_PORT p) Reg.SLV_PORT_REASON = reason ∧
      t.selPort p = { SelPort.fresh with failAt := s.trd.time } ∧ t = { s with regs := t.regs, slv := t.slv } ∧
      ((∀ q, q < 4 → q ≠ p.val → s.slvState q = 0 ∨ s.slvState q = 5) → t.slv.island = false) ∧
      ((∃ q, q < 4 ∧ q ≠ p.val ∧ s.slvState q ≠ 0 ∧ s.slvState q ≠ 5) → t.slv.island = s.slv.island)
    (∀ f, s.slvState p ≠ 1 → s.slvState p ≠ 2 → exec (.portTraining p f) s = .next s) ∧
    (let limit := x.startAt + 1000 * usTime
     s.slvState p = 1 →
      (s.trd.time ≤ limit → ∃ t, exec (.portTraining p .locked) s = .next t ∧ t.slvState p = 2 ∧ t = { s with regs := t.regs } ∧
        ∀ o, o ≠ Reg.SLV_PORT p → t.rd o = s.rd o) ∧
      (limit < s.trd.time → ∃ t, exec (.portTraining p .locked) s = .next t ∧ failed t 1) ∧
      (limit ≤ s.trd.time → ∃ t, exec (.portTraining p .lockTimeout) s = .next t ∧ failed t 1) ∧
      (s.trd.time < limit → exec (.portTraining p .lockTimeout) s = .next s) ∧
      exec (.portTraining p .skewed) s = .next s ∧ ∀ swap pol, exec (.portTraining p (.deskewed swap pol)) s = .next s) ∧
    (s.slvState p = 2 → exec (.portTraining p .locked) s = .next s ∧ exec (.portTraining p .lockTimeout) s = .next s ∧
      (∃ t, exec (.portTraining p .skewed) s = .next t ∧ failed t 2) ∧
      ∀ (swap : Bool) (pol : Fin 4), ∃ t, exec (.portTraining p (.deskewed swap pol)) s = .next t ∧ t.slvState p = 3 ∧
        t.fld (Reg.SLV_PORT p) Reg.SLV_PORT_SWAP = (if swap then 1 else 0) ∧ t.fld (Reg.SLV_PORT p) Reg.SLV_PORT_POL = pol.val ∧ sends s t 1 ∧
        t = { s with regs := t.regs, slv := { s.slv with ports := t.slv.ports } } ∧ ∀ o, o ≠ Reg.SLV_PORT p → t.rd o = s.rd o) ∧
    (s.slvState p ≠ 0 ∨ s.hasCoord = false ∨ s.trd.time < x.failAt + 10000 * usTime → exec (.trainingRetry p) s = .next s) ∧
    (s.slvState p = 0 → s.hasCoord = true → x.failAt + 10000 * usTime ≤ s.trd.time → ∃ t, exec (.trainingRetry p) s = .next t ∧
      t.slvState p = (if s.slvDisabled p then 5 else 1) ∧
      t.selPort p = (if s.slvDisabled p then SelPort.fresh else { SelPort.fresh with startAt := s.trd.time, slotAt := 125 * s.trd.time }) ∧
      t.slv.island = (s.slv.island || !s.slvDisabled p) ∧
      t = { s with regs := t.regs, slv := { s.slv with ports := t.slv.ports, island := t.slv.island } } ∧
      ∀ o, o ≠ Reg.SLV_PORT p → t.rd o = s.rd o) ∧
    (∀ (c : Fin 16) (px py : Nat) (wall : Bool) (w h : Nat),
      (s.takeCtrl p 1 = none → exec (.hello p c px py wall w h) s = .next s) ∧
      (∀ m u, s.takeCtrl p 1 = some (m, u) → s.slvState p ≠ 3 → exec (.hello p c px py wall w h) s = .next u) ∧
      ∀ m u e v, s.takeCtrl p 1 = some (m, u) → s.slvState p = 3 → s.neighbour p = some e → s.boot.wall = some v →
        (e.chip = c.val → e.x = px → e.y = py → wall = true → w = v.width → h = v.height → ∃ t, exec (.hello p c px py wall w h) s = .next t ∧
          t.fld (Reg.SLV_NEIGH p) Reg.SLV_NEIGH_CHIP_ID = c.val ∧ (t.selPort p).hello = true ∧ (t.selPort p).echoAt = some s.trd.time ∧
          sends s t 2 ∧ t = { u with regs := t.regs, slv := t.slv } ∧ ∀ o, o ≠ Reg.SLV_NEIGH p → t.rd o = s.rd o) ∧
        (¬(e.chip = c.val ∧ e.x = px ∧ e.y = py) → ∃ t, exec (.hello p c px py wall w h) s = .next t ∧ failed t 3) ∧
        (e.chip = c.val → e.x = px → e.y = py → ¬(wall = true ∧ w = v.width ∧ h = v.height) →
          ∃ t, exec (.hello p c px py wall w h) s = .next t ∧ failed t 4)) ∧
    (s.takeCtrl p 2 = none → exec (.echo p) s = .next s) ∧
    (∀ m u, s.takeCtrl p 2 = some (m, u) → ∃ t, exec (.echo p) s = .next t ∧ sends s t 3 ∧ u = { s with slv := { s.slv with inbox := s.slv.inbox.erase m } } ∧
      t = { u with slv := { u.slv with ports := t.slv.ports } }) ∧
    (s.takeCtrl p 3 = none → exec (.echoReply p) s = .next s) ∧
    (∀ m u, s.takeCtrl p 3 = some (m, u) → x.echoAt = none → exec (.echoReply p) s = .next u) ∧
    (∀ m u at_, s.takeCtrl p 3 = some (m, u) → x.echoAt = some at_ → ∃ t, exec (.echoReply p) s = .next t ∧
      (t.selPort p).trips = x.trips ++ [(s.trd.time - at_) / 88] ∧ (x.trips.length + 1 < 8 → sends s t 2) ∧
      (8 ≤ x.trips.length + 1 → (t.selPort p).queue = x.queue) ∧ t = { u with slv := { u.slv with ports := t.slv.ports } }) ∧
    (let d := channelDelay x.trips
     let done := s.slvState p = 3 ∧ x.hello = true ∧ 8 ≤ x.trips.length
     (¬done → exec (.portUp p) s = .next s) ∧
     (done → d ≤ 200 → ∃ t, exec (.portUp p) s = .next t ∧ t.slvState p = 4 ∧
      (t.fld (Reg.SLV_PORT_DELAY p) Reg.SLV_PORT_DELAY_D : Int) = max 0 d ∧ t.selPort p = { x with lastRx := s.trd.time } ∧
      t = { s with regs := t.regs, slv := { s.slv with ports := t.slv.ports } } ∧
      (let n : Int := x.trips.length
       2 * n * d ≤ (x.trips.sum : Int) - 448 * n + n ∧ (x.trips.sum : Int) - 448 * n + n < 2 * n * (d + 1)) ∧
      ∀ o, o ∉ [Reg.SLV_PORT p, Reg.SLV_PORT_DELAY p] → t.rd o = s.rd o) ∧
     (done → 200 < d → ∃ t, exec (.portUp p) s = .next t ∧ failed t 5)) ∧
    (∀ c, s.slvUp p = false → exec (.portDown p c) s = .next s) ∧
    (s.slvUp p = true →
      let lost := fun (t : State) (reason : Nat) => t.slvState p = 0 ∧ t.fld (Reg.SLV_PORT p) Reg.SLV_PORT_REASON = reason ∧
        t.selPort p = { SelPort.fresh with failAt := s.trd.time } ∧ t.rd (Reg.SLV_DOWN_CNT p) = counted (s.rd (Reg.SLV_DOWN_CNT p)) ∧
        (∀ w ∈ t.slv.mapWaits, w.edge ≠ p.val) ∧ t.mem = s.mem ∧
        ∀ c ∈ s.slv.colls, ∀ d, s.desc? c.ring c.seq = some d →
          (∃ m e, m ∈ s.peers d ∧ s.entryOf m = some e ∧ s.nextPort (e.x, e.y) = some p.val) → t.desc? c.ring c.seq = none ∧
          ∃ r ∈ t.ten.recs, r.ring = c.ring ∧ r.seq = c.seq ∧ bytesAt r.data 8 1 = 0x12 ∧ bytesAt r.data 9 1 = 2
      (∃ t, exec (.portDown p .lockLost) s = .next t ∧ lost t 7) ∧
      ((∃ f ∈ x.sent, 8 ≤ f.again) → ∃ t, exec (.portDown p .resends) s = .next t ∧ lost t 6) ∧
      ((∀ f ∈ x.sent, f.again < 8) → exec (.portDown p .resends) s = .next s) ∧
      (x.lastRx + usTime ≤ s.trd.time → ∃ t, exec (.portDown p .silence) s = .next t ∧ lost t 7) ∧
      (s.trd.time < x.lastRx + usTime → exec (.portDown p .silence) s = .next s)) ∧
    (s.slvState p ≠ 3 → s.slvState p ≠ 4 → exec (.flitSlot p) s = .next s ∧ ∀ f b, exec (.flitReceive p f b) s = .next s) ∧
    (125 * s.trd.time < x.slotAt → exec (.flitSlot p) s = .next s) ∧
    (s.slvState p = 3 ∨ s.slvState p = 4 →
      (x.slotAt ≤ 125 * s.trd.time → x.resend = none → (∀ y ∈ x.queue, y.src < 5) → ∃ t f b, exec (.flitSlot p) s = .next t ∧ t.out = s.out ++ [⟨s.trd.cclk, .flit p f b⟩] ∧
        f.length = 32 ∧ bytesAt f 30 2 = crc16 (f.take 30) ∧ bytesAt f 2 1 = x.txSeq % 256 ∧ bytesAt f 3 1 = x.rxSeq % 256 ∧
        (bytesAt f 0 1).testBit 5 = x.nak ∧ (t.selPort p).txSeq = (x.txSeq + 1) % 256 ∧
        (t.selPort p).slotAt = max (x.slotAt + 78848) (125 * s.trd.time) ∧ (t.selPort p).sent.length ≤ 64 ∧
        (t.selPort p).sent.getLast? = some { seq := x.txSeq, cclk := s.trd.cclk, again := 0, flit := f, darn := b } ∧
        t = { s with out := t.out, slv := { s.slv with ports := t.slv.ports } } ∧ (∀ q, q ≠ p.val → t.selPort q = s.selPort q) ∧
        ((∀ y ∈ x.queue, x.credits.getD y.cls 0 = 0) → bytesAt f 0 1 % 8 = 0 ∧ bytesAt f 5 1 = 0 ∧ (t.selPort p).queue = x.queue ∧
          (t.selPort p).credits = x.credits) ∧
        ((∃ y ∈ x.queue, 1 ≤ y.cls ∧ y.cls ≤ 5 ∧ 0 < x.credits.getD y.cls 0) → ∃ m ∈ x.queue,
          bytesAt f 0 1 % 8 = m.cls ∧ 0 < x.credits.getD m.cls 0 ∧
          (∀ y ∈ x.queue, 1 ≤ y.cls → y.cls < m.cls → x.credits.getD y.cls 0 = 0) ∧
          (t.selPort p).credits.getD m.cls 0 = x.credits.getD m.cls 0 - 1 ∧ ((bytesAt f 0 1).testBit 3 = true ↔ m.sent = 0) ∧
          ((bytesAt f 0 1).testBit 4 = true ↔ m.data.length ≤ m.sent + 24) ∧
          (f.drop 6).take (bytesAt f 5 1) = (m.data.drop m.sent).take 24)) ∧
      (∀ k f, x.slotAt ≤ 125 * s.trd.time → x.resend = some k → x.sent[k]? = some f → ∃ t, exec (.flitSlot p) s = .next t ∧
        t.rd (Reg.SLV_REPLAY_CNT p) = counted (s.rd (Reg.SLV_REPLAY_CNT p)) ∧
        (∃ fl, t.out = s.out ++ [⟨s.trd.cclk, .flit p fl f.darn⟩] ∧ (t.selPort p).sent = x.sent.set k { f with
          cclk := s.trd.cclk, again := f.again + 1, flit := fl }) ∧
        (t.selPort p).resend = (if k + 1 < x.sent.length then some (k + 1) else none)) ∧
      ∀ (f : List Byte) (b : Bool),
        let good := f.length = 32 ∧ bytesAt f 30 2 = crc16 (f.take 30)
        let cls := bytesAt f 0 1 % 8
        let dest := (bytesAt f 1 1 % 4, bytesAt f 1 1 / 4 % 4)
        (¬good → ∃ t, exec (.flitReceive p f b) s = .next t ∧ t.selPort p = { x with lastRx := s.trd.time, nak := true } ∧
          t.rd (Reg.SLV_CRC_ERR_CNT p) = counted (s.rd (Reg.SLV_CRC_ERR_CNT p)) ∧ t.slv.inbox = s.slv.inbox) ∧
        (good → bytesAt f 2 1 ≠ (x.rxSeq + 1) % 256 → ∃ t, exec (.flitReceive p f b) s = .next t ∧
          t = { s with slv := { s.slv with ports := t.slv.ports } } ∧ t.selPort p = { x with lastRx := s.trd.time, nak := true }) ∧
        (good → bytesAt f 2 1 = (x.rxSeq + 1) % 256 → ∃ t, exec (.flitReceive p f b) s = .next t ∧ (t.selPort p).rxSeq = bytesAt f 2 1 ∧
          (t.selPort p).sent = ackTo (bytesAt f 3 1) x.sent ∧
          (6 ≤ cls → t.rd Reg.SLV_BAD_FLIT_CNT = counted (s.rd Reg.SLV_BAD_FLIT_CNT) ∧ t.slv.inbox = s.slv.inbox) ∧
          (cls = 0 → t = { s with slv := { s.slv with ports := t.slv.ports } }) ∧
          (1 ≤ cls → cls ≤ 5 → x.owed.length = 6 → (t.selPort p).owed.getD cls 0 = x.owed.getD cls 0 + 1) ∧
          (1 ≤ cls → cls ≤ 5 → (bytesAt f 0 1).testBit 3 = true → (bytesAt f 0 1).testBit 4 = true →
            let data := (f.drop 6).take (min 24 (bytesAt f 5 1))
            let far := (cls = 3 ∨ cls = 5) ∧ s.slvUp p = true ∧ dest ≠ s.coord
            (¬far → ∃ m, t.slv.inbox = s.slv.inbox ++ [m] ∧ m.port = p.val ∧ m.cls = cls ∧ m.data = data) ∧
            (∀ q, far → s.nextPort dest = some q → s.slvUp q = true → t.slv.inbox = s.slv.inbox ∧
              ∃ m, (t.selPort q).queue = (s.selPort q).queue ++ [m] ∧ m.cls = cls ∧ m.src = p.val ∧ m.data = data) ∧
            (∀ q, far → s.nextPort dest = some q → s.slvUp q = false → t.slv.inbox = s.slv.inbox ∧
              t.rd Reg.SLV_BAD_FLIT_CNT = counted (s.rd Reg.SLV_BAD_FLIT_CNT))))) ∧
    (x.sent = [] → exec (.resendTimeout p) s = .next s) ∧
    ∀ f fs, x.sent = f :: fs →
      (s.trd.cclk < f.cclk + 512 → exec (.resendTimeout p) s = .next s) ∧
      (f.cclk + 512 ≤ s.trd.cclk → ∃ t, exec (.resendTimeout p) s = .next t ∧ t.selPort p = { x with resend := some 0 } ∧
        t = { s with slv := { s.slv with ports := t.slv.ports } } ∧ ∀ q, q ≠ p.val → t.selPort q = s.selPort q)

/-- Walls share time, strips and reachability: TIME messages go out on every sixteenth line and steer a follower (R742 to R747), the master changes at a
frame start (R767), strips are sent, stored and waited for (R749, R750, R754 to R756), and PINGs find who answers (R766). The grid of PING_TICK
is the model's (log 149). Rows TIME_SEND, TIME_MESSAGE, MASTER_CHANGE, INPUT_STRIP_SEND, ISTRIP, MAP_STRIP_SEND, MSTRIP, PING, PONG and
PING_TICK. -/
def Obligations.WallsShareTimeAndStrips : Prop :=
  ∀ s : State,
    let queued := fun (u t : State) (q cls type : Nat) =>
      ∃ m, (t.selPort q).queue = (u.selPort q).queue ++ [m] ∧ m.cls = cls ∧ bytesAt m.data 0 1 = type
    let taken := fun (m : InMsg) (u : State) => u = { s with slv := { s.slv with inbox := s.slv.inbox.erase m } }
    (let n := s.trd.now
     let due := n.line % 16 = 0 ∧ n.pick = 0 ∧ s.slv.timeSent ≠ some (n.frame, n.line) ∧
      (s.timeMaster = true ∨ (s.follower = true ∧ s.lock = 2))
     let s0 := State.elapse (s.toAction ⟨n.frame, n.line, 0, 0⟩) s
     let hops := if s.timeMaster then 0 else s.fld Reg.SLV_TIME Reg.SLV_TIME_HOPS
     (¬due → exec .timeSend s = .next s) ∧
     (due → ∃ t, exec .timeSend s = .next t ∧ t.slv.timeSent = some (n.frame, n.line) ∧ t = { s0 with slv := t.slv } ∧
      ∀ p, p < 4 →
        (s0.slvUp p = true → ∃ m, (t.selPort p).queue = (s0.selPort p).queue ++ [m] ∧ m.cls = 1 ∧ m.data.length = 12 ∧
          bytesAt m.data 0 6 = Stamp.bits ⟨n.frame, n.line, 0, 0⟩ ∧ bytesAt m.data 6 1 = hops % 256 ∧
          bytesAt m.data 8 2 = s.trd.timing.hTotal % 65536 ∧ bytesAt m.data 10 2 = s.trd.timing.vTotal % 65536) ∧
        (s0.slvUp p = false → t.selPort p = s0.selPort p))) ∧
    (∀ (p : Fin 4) (count : Nat),
      ((s.takeMsg p 1 fun _ => true) = none → exec (.timeMessage p count) s = .next s) ∧
      ∀ m u, (s.takeMsg p 1 fun _ => true) = some (m, u) → taken m u ∧
        (s.follower = false ∨ s.slvUp p = false → exec (.timeMessage p count) s = .next u) ∧
        (s.follower = true → s.slvUp p = true →
          let same := bytesAt m.data 8 2 = s.trd.timing.hTotal ∧ bytesAt m.data 10 2 = s.trd.timing.vTotal
          (¬same → ∃ t, exec (.timeMessage p count) s = .next t ∧ t.fld Reg.SLV_STATUS Reg.SLV_STATUS_GEOM_ERR = 1 ∧
            t = { u with regs := t.regs } ∧ ∀ o, o ≠ Reg.SLV_STATUS → t.rd o = s.rd o) ∧
          (same → ∃ t, exec (.timeMessage p count) s = .next t ∧ tblFind t.slv.time p = some { hops := bytesAt m.data 6 1, lines := 0 } ∧
            (∃ h, (t.fld Reg.SLV_TIME Reg.SLV_TIME_PARENT, h) ∈ t.timePorts ∧
              ∀ q k, (q, k) ∈ t.timePorts → h ≤ k ∧ (h = k → t.fld Reg.SLV_TIME Reg.SLV_TIME_PARENT ≤ q)) ∧
            (t.fld Reg.SLV_TIME Reg.SLV_TIME_PARENT = p.val →
              t.fld Reg.SLV_TIME Reg.SLV_TIME_HOPS = (bytesAt m.data 6 1 + 1) % 16 ∧
              (s.heardBoundary (Stamp.ofBits (bytesAt m.data 0 6)) = true →
                let e : Int := (count : Int) - (226 + (s.fld (Reg.SLV_PORT_DELAY p) Reg.SLV_PORT_DELAY_D : Int))
                t.fld Reg.SLV_TIME_ERR Reg.SLV_TIME_ERR_ERR = codeOf 16 e ∧ t.trd = s.trd ∧
                t.slv.good = (if -4 ≤ e ∧ e ≤ 4 then s.slv.good + 1 else 0) ∧
                (s.trd.refUse = 2 → 16 ≤ t.slv.good → t.lock = 2) ∧ (t.slv.good < 16 → t.lock = s.lock)) ∧
              (s.heardBoundary (Stamp.ofBits (bytesAt m.data 0 6)) = false → s.trd.refUse = 2 →
                t.slv.good = 0 ∧ t.lock ≠ 2 ∧
                (s.bit Reg.TRD_CTL Reg.TRD_CTL_REALIGN = true →
                  t.trd.realign = some (s.trd.timing.vTotal - (Stamp.ofBits (bytesAt m.data 0 6)).line)) ∧
                (s.bit Reg.TRD_CTL Reg.TRD_CTL_REALIGN = false →
                  (s.trd.now.line + s.trd.timing.vTotal - (Stamp.ofBits (bytesAt m.data 0 6)).line % s.trd.timing.vTotal) %
                    s.trd.timing.vTotal ≠ 0 → t.trd.lineFix ≠ .none)))))) ∧
    (s.slv.masterAt = none → exec .masterChange s = .next s) ∧
    (∀ f, s.slv.masterAt = some f → s.trd.now.frame ≠ f → frameAfter s.trd.now.frame f = false → exec .masterChange s = .next s) ∧
    (∀ f, s.slv.masterAt = some f → s.trd.now.frame = f ∨ frameAfter s.trd.now.frame f = true →
      let c := s.fld Reg.SLV_CFG Reg.SLV_CFG_MASTER
      ∃ t, exec .masterChange s = .next t ∧ t.slv.master = c ∧ t.slv.masterAt = none ∧ t.trd.now = s.trd.now ∧
        (s.hasCoord = true → t.fld Reg.SLV_STATUS Reg.SLV_STATUS_ROLE = (if c = s.chip then 1 else 2) ∧
          (c = s.chip → t.fld Reg.SLV_TIME Reg.SLV_TIME_PARENT = 7)) ∧
        t = { s with regs := t.regs, trd := t.trd, slv := t.slv }) ∧
    (∀ (g : Fin 1024) (q : Nat),
      (s.frame? (some (g.val, q)) = none → exec (.inputStripSend g q) s = .next s) ∧
      ∀ f, s.frame? (some (g.val, q)) = some f →
        (s.frameEligible f = false ∨ (g.val, q) ∈ s.slv.stripSent → exec (.inputStripSend g q) s = .next s) ∧
        (s.frameEligible f = true → (g.val, q) ∉ s.slv.stripSent → ∃ t, exec (.inputStripSend g q) s = .next t ∧
          (g.val, q) ∈ t.slv.stripSent ∧ t = { s with regs := t.regs, slv := t.slv } ∧ (∀ o, o ≠ Reg.SLV_STATUS → t.rd o = s.rd o) ∧
          ∀ p, p < 4 →
            (s.slvUp p = false → t.selPort p = s.selPort p) ∧
            (s.slvUp p = true →
              let l := s.stripOut f 0 p
              let c := s.stripOut f 1 p
              (262144 < l.length + c.length → t.selPort p = s.selPort p ∧ t.fld Reg.SLV_STATUS Reg.SLV_STATUS_CFG_ERR = 1) ∧
              (l ≠ [] → l.length + c.length ≤ 262144 → ∃ a b, (t.selPort p).queue = (s.selPort p).queue ++ [a, b] ∧ a.cls = 4 ∧ b.cls = 4 ∧
                a.data = leBytes 6 f.pstamp.bits ++ leBytes 1 ((p + 2) % 4) ++ [0#8] ++ l.map (fun y => y.1) ∧
                b.data = leBytes 6 f.pstamp.bits ++ leBytes 1 ((p + 2) % 4 + 4) ++ [0#8] ++ c.map fun y => y.1)))) ∧
    (∀ (p : Fin 4),
      ((s.takeMsg p 4 fun _ => true) = none → exec (.istrip p) s = .next s) ∧
      (∀ m u, (s.takeMsg p 4 fun _ => true) = some (m, u) →
        let b := bytesAt m.data 6 1
        let x : Strip := { edge := b % 4, pstamp := Stamp.ofBits (bytesAt m.data 0 6), plane := b / 4 % 2, data := m.data.drop 8, darned := m.darned }
        ∃ t, exec (.istrip p) s = .next t ∧ x ∈ t.slv.strips ∧ (∀ y ∈ t.slv.strips, y = x ∨ y ∈ s.slv.strips) ∧
          (∀ y ∈ s.slv.strips, y.edge ≠ x.edge → y ∈ t.slv.strips) ∧
          (∀ a c, (∀ y ∈ s.slv.strips, y.edge = x.edge → y.pstamp ≠ x.pstamp) →
            ((s.slv.strips.filter fun y => y.edge == x.edge).map fun y => y.pstamp).eraseDups = [a, c] →
            ∀ y ∈ t.slv.strips, y.edge = x.edge → y.pstamp = c ∨ y.pstamp = x.pstamp) ∧
          t = { u with slv := { u.slv with strips := t.slv.strips } }) ∧
      ((s.takeMsg p 2 fun _ => true) = none → exec (.mstrip p) s = .next s) ∧
      ∀ m u, (s.takeMsg p 2 fun _ => true) = some (m, u) →
        let i := bytesAt m.data 0 2
        let f := bytesAt m.data 2 1
        let layer := bytesAt m.data 3 1
        (s.shedRuns i f = false → ∃ t, exec (.mstrip p) s = .next t ∧ t.rd Reg.SLV_STRIP_LATE_CNT = counted (s.rd Reg.SLV_STRIP_LATE_CNT) ∧
          t = { u with regs := t.regs } ∧ ∀ o, o ≠ Reg.SLV_STRIP_LATE_CNT → t.rd o = s.rd o) ∧
        (s.shedRuns i f = true → ∃ t, exec (.mstrip p) s = .next t ∧
          { edge := p.val, shed := i, frame := f, layer := layer, data := (m.data.drop 8).take (bytesAt m.data 4 4), darned := m.darned } ∈ t.slv.maps ∧
          (∀ w, w ∈ t.slv.mapWaits ↔ w ∈ s.slv.mapWaits ∧ ¬(w.edge = p.val ∧ w.shed = i ∧ w.frame = f ∧ w.layer = layer)) ∧
          t = { u with slv := { u.slv with maps := t.slv.maps, mapWaits := t.slv.mapWaits } })) ∧
    (∀ (i layer : Nat) (west east : List (Byte × Bool)),
      let mapOn := s.bit Reg.SLV_STRIP_CFG Reg.SLV_STRIP_CFG_MAP_EN
      let shed := s.pic.sheds.find? fun y => y.index == i && y.nets && !y.ended
      (shed = none ∨ mapOn = false ∨ s.hasCoord = false → exec (.mapStripSend i layer west east) s = .next s) ∧
      ∀ x, shed = some x → mapOn = true → s.hasCoord = true → ∃ t,
        exec (.mapStripSend i layer west east) s = .next (if s.mapBoundary layer = true then t else s) ∧
        t = { s with regs := t.regs, slv := { s.slv with ports := t.slv.ports, mapWaits := t.slv.mapWaits } } ∧
        (∀ o, o ≠ Reg.SLV_STRIP_PAD_CNT → t.rd o = s.rd o) ∧
        (s.slvUp 1 = true → s.slvUp 3 = true → t.regs = s.regs ∧
          ∀ (q : Nat) (data : List (Byte × Bool)), (q, data) ∈ [(3, west), (1, east)] →
            (∃ m, (t.selPort q).queue = (s.selPort q).queue ++ [m] ∧ m.cls = 2 ∧
              m.data = leBytes 2 i ++ leBytes 1 (x.frame % 256) ++ leBytes 1 layer ++ leBytes 4 data.length ++ data.map (fun y => y.1) ∧
              m.darned = darnedFlits data) ∧
            ((∃ w ∈ t.slv.mapWaits, w.edge = q ∧ w.shed = i ∧ w.frame = x.frame % 256 ∧ w.layer = layer) ∨
              ∃ w ∈ s.slv.maps, w.edge = q ∧ w.shed = i ∧ w.frame = x.frame % 256 ∧ w.layer = layer)) ∧
        (s.slvUp 1 = false → s.slvUp 3 = false → t.slv = s.slv ∧
          ((s.neighbour 1).isSome = true → (s.neighbour 3).isSome = true →
            t.rd Reg.SLV_STRIP_PAD_CNT = counted (counted (s.rd Reg.SLV_STRIP_PAD_CNT))) ∧
          ((s.neighbour 1).isSome = true → (s.neighbour 3).isSome = false →
            t.rd Reg.SLV_STRIP_PAD_CNT = counted (s.rd Reg.SLV_STRIP_PAD_CNT)) ∧
          ((s.neighbour 1).isSome = false → (s.neighbour 3).isSome = false → t = s))) ∧
    (∀ p : Fin 4, (s.takeCtrl p 4 = none → exec (.ping p) s = .next s) ∧ (s.takeCtrl p 5 = none → exec (.pong p) s = .next s)) ∧
    (∀ (p : Fin 4) (m : InMsg) (u : State) (c : Nat),
      (s.takeCtrl p 4 = some (m, u) → s.sender m = some c → ∀ e q, s.entryOf c = some e → e.x < 4 → e.y < 4 → s.nextPort (e.x, e.y) = some q →
          s.slvUp q = true →
        ∃ t, exec (.ping p) s = .next t ∧ queued s t q 3 5 ∧ t = { u with slv := { u.slv with ports := t.slv.ports } }) ∧
      (s.takeCtrl p 5 = some (m, u) → s.sender m = some c → ∀ at_, (s.slv.pings.find? fun x => x.1 == c) = some (c, at_) →
        (s.trd.time ≤ at_ + 100 * usTime → c < 16 → ∃ t, exec (.pong p) s = .next t ∧ t.fld Reg.SLV_REACH ⟨c, 1⟩ = 1 ∧
          (∀ x ∈ t.slv.pings, x.1 ≠ c) ∧ (∀ o, o ≠ Reg.SLV_REACH → t.rd o = s.rd o) ∧
          t = { u with regs := t.regs, slv := { u.slv with pings := t.slv.pings } }) ∧
        (at_ + 100 * usTime < s.trd.time → exec (.pong p) s = .next u))) ∧
    (s.hasCoord = false ∨ s.trd.time < s.slv.pingAt → exec .pingTick s = .next s) ∧
    (s.hasCoord = true → s.slv.pingAt ≤ s.trd.time →
      let asked := fun (c : Nat) => c < 16 ∧ c ≠ s.chip ∧ ∃ g, g < 16 ∧ s.chip ∈ s.members g ∧ c ∈ s.members g
      ∃ t, exec .pingTick s = .next t ∧ (∀ c at_, (c, at_) ∈ t.slv.pings ↔ asked c ∧ at_ = s.trd.time) ∧
        t.slv.pingAt = (s.trd.time / (1000 * usTime) + 1) * (1000 * usTime) ∧
        (∀ x ∈ s.slv.pings, x.1 < 16 → t.fld Reg.SLV_REACH ⟨x.1, 1⟩ = 0) ∧
        (s.slv.colls = [] → t = { s with regs := t.regs, slv := { s.slv with
          ports := t.slv.ports, pings := t.slv.pings, pingAt := t.slv.pingAt } } ∧
          ∀ o, o ∉ [Reg.SLV_REACH, Reg.SLV_BAD_FLIT_CNT] → t.rd o = s.rd o) ∧
        (∀ c ∈ s.slv.colls, ∀ d, s.desc? c.ring c.seq = some d →
          (∃ m ∈ s.peers d, (s.fld Reg.SLV_REACH Reg.SLV_REACH_CHIPS).testBit m = false ∨ ∃ x ∈ s.slv.pings, x.1 = m) →
          t.desc? c.ring c.seq = none ∧
          ∃ r ∈ t.ten.recs, r.ring = c.ring ∧ r.seq = c.seq ∧ bytesAt r.data 8 1 = 0x12 ∧ bytesAt r.data 9 1 = 2) ∧
        ∀ c e q, asked c → s.entryOf c = some e → e.x < 4 → e.y < 4 → s.nextPort (e.x, e.y) = some q →
          s.slvUp q = true →
          ∃ m ∈ (t.selPort q).queue, m.cls = 3 ∧ m.route = s.routeTo (e.x, e.y) ∧ bytesAt m.data 0 1 = 4)

/-- Collectives: a record asks every member to be READY (R761), its block goes out once they are, and blocks that come are written (R762); with every
block DST is final, summed in rank order for REDUCE_SUM (R763), and every DONE ends the record (R764, R765); what cannot succeed ends by
Table 13.7. Rows ALL_GATHER, REDUCE_SUM, READY, READY_RESEND, COLL and DONE. -/
def Obligations.CollectivesJoinChips : Prop :=
  ∀ s : State,
    (∀ (g : Fin 1024) (q op : Nat) (d : Desc), op < 2 → s.collDesc? g q = some d → d.collOp = op →
      let cmd : Instr := if op = 0 then .allGather g q else .reduceSum g q
      let agree := ∀ r ∈ s.readyFor d, r.op = d.collOp ∧ r.bytes = d.collBytes
      let asks := fun (t : State) => ∀ c ∈ s.peers d, ∀ e p, s.entryOf c = some e → e.x < 4 → e.y < 4 → s.nextPort (e.x, e.y) = some p →
        s.slvUp p = true →
        ∃ m ∈ (t.selPort p).queue, m.cls = 3 ∧ m.route = s.routeTo (e.x, e.y) ∧ bytesAt m.data 0 1 = 6
      (s.coll? d = none → ¬agree → ∃ t, exec cmd s = .next t ∧ s.completes t d 0x32 0) ∧
      (s.coll? d = none → agree → s.unreachable d = true → ∃ t, exec cmd s = .next t ∧ s.completes t d 0x12 2) ∧
      (s.coll? d = none → s.unreachable d = false → agree → s.allReady d = false → ∃ t c, exec cmd s = .next t ∧
        t.slv.colls = s.slv.colls ++ [c] ∧ c.ring = d.ring ∧ c.seq = d.seq ∧ c.sent = false ∧ c.final = false ∧ c.blocks = [] ∧ c.done = [] ∧
        c.readyAt = s.trd.time ∧
        asks t ∧ t = { s with regs := t.regs, slv := t.slv } ∧ ∀ o, o ≠ Reg.SLV_BAD_FLIT_CNT → t.rd o = s.rd o) ∧
      (s.coll? d = none → exec (.readyResend g q) s = .next s) ∧
      ∀ c, s.coll? d = some c →
        let due := c.readyAt + 100 * usTime
        (s.allReady d = true ∨ s.trd.time < due → exec (.readyResend g q) s = .next s) ∧
        (s.allReady d = false → due ≤ s.trd.time → ∃ t, exec (.readyResend g q) s = .next t ∧ asks t ∧
          t.coll? d = some { c with readyAt := due } ∧ t = { s with regs := t.regs, slv := t.slv } ∧
          ∀ o, o ≠ Reg.SLV_BAD_FLIT_CNT → t.rd o = s.rd o) ∧
        (agree → s.allReady d = false → exec cmd s = .next s) ∧
        (¬agree → ∃ t, exec cmd s = .next t ∧ s.completes t d 0x32 0) ∧
        (agree → s.allReady d = true → c.sent = false →
          let rank := s.rankOf d.collGroup s.chip
          s.runFault d.loom0 d.tenant false d.collSrc d.collBytes = none →
          s.runFault d.loom0 d.tenant true (d.collDst + rank * d.collBytes) d.collBytes = none →
          s.vaPoison d.loom0 d.tenant d.collSrc d.collBytes = false →
          (∃ m ∈ s.members d.collGroup, s.rankOf d.collGroup m ≠ rank ∧
            tblGet (fun _ => 0) c.blocks (s.rankOf d.collGroup m) ≠ d.collBytes) →
          ∃ (t u : State) (e : Coll), exec cmd s = .next t ∧ u = { s with regs := u.regs, slv := u.slv } ∧
            (∀ o, o ≠ Reg.SLV_BAD_FLIT_CNT → u.rd o = s.rd o) ∧
            t.mem = (u.vaWrite d.loom0 d.tenant (d.collDst + rank * d.collBytes)
              (s.vaBytes d.loom0 d.tenant d.collSrc d.collBytes) (u.ringClass d.ring)).mem ∧
            t.coll? d = some e ∧ e.sent = true ∧ tblGet (fun _ => 0) e.blocks rank = d.collBytes ∧ t.desc? d.ring d.seq = some d) ∧
        (agree → s.allReady d = true → c.sent = true → c.final = false → s.blocksIn d c = true → (∀ m ∈ s.peers d, m ∈ c.done) →
          ∃ t e, exec cmd s = .next t ∧ t.coll? d = none ∧ t.desc? d.ring d.seq = some e ∧ (∀ w ∈ e.work, w.ended = true) ∧
            t.mem = (if op = 0 then s else s.vaWrite d.loom0 d.tenant d.collDst (s.collSum d) (s.ringClass d.ring)).mem)) ∧
    (∀ (g : Fin 1024) (q : Nat), s.collDesc? g q = none → exec (.allGather g q) s = .next s ∧ exec (.reduceSum g q) s = .next s ∧
      exec (.readyResend g q) s = .next s) ∧
    (∀ (p : Fin 4) (grp : Fin 16) (id op bytes : Nat),
      (s.takeCtrl p 6 = none → exec (.ready p grp id op bytes) s = .next s) ∧ (s.takeCtrl p 7 = none → exec (.done p grp id) s = .next s) ∧
      ((s.takeMsg p 5 fun _ => true) = none → exec (.collData p) s = .next s)) ∧
    (∀ (p : Fin 4) (grp : Fin 16) (id op bytes : Nat) (m : InMsg) (u : State) (from_ : Nat),
      s.takeCtrl p 6 = some (m, u) → s.sender m = some from_ →
      let r : Ready := { chip := from_, group := grp, collId := id, op := op, bytes := bytes }
      (s.collOf grp id = none → ∃ t, exec (.ready p grp id op bytes) s = .next t ∧ r ∈ t.slv.ready ∧
        (∀ x ∈ s.slv.ready, x.chip ≠ from_ → x ∈ t.slv.ready) ∧ t = { u with slv := { u.slv with ready := t.slv.ready } }) ∧
      (∀ d, s.collOf grp id = some d → s.collDesc? d.ring d.seq = some d → op ≠ d.collOp ∨ bytes ≠ d.collBytes →
        ∃ t x, exec (.ready p grp id op bytes) s = .next t ∧ t.desc? d.ring d.seq = none ∧ t.ten.recs = s.ten.recs ++ [x] ∧ x.ring = d.ring ∧
          x.seq = d.seq ∧ bytesAt x.data 8 1 = 0x32 ∧ t.rd Reg.SLV_COLL_FAIL_CNT = counted (s.rd Reg.SLV_COLL_FAIL_CNT))) ∧
    (∀ (p : Fin 4) (grp : Fin 16) (id : Nat) (m : InMsg) (u : State) (from_ : Nat) (d : Desc) (c : Coll),
      s.takeCtrl p 7 = some (m, u) → s.sender m = some from_ → s.collOf grp id = some d → s.coll? d = some c →
      s.collDesc? d.ring d.seq = some d → (∀ r ∈ s.readyFor d, r.op = d.collOp ∧ r.bytes = d.collBytes) → s.allReady d = false →
      ∃ t e, exec (.done p grp id) s = .next t ∧ t.coll? d = some e ∧ from_ ∈ e.done ∧ e.blocks = c.blocks ∧ e.sent = c.sent ∧
        t = { u with slv := { u.slv with colls := t.slv.colls } }) ∧
    ∀ (p : Fin 4) (m : InMsg) (u : State), (s.takeMsg p 5 fun _ => true) = some (m, u) →
      (s.collOf (bytesAt m.data 0 1) (bytesAt m.data 4 4) = none → exec (.collData p) s = .next u) ∧
      ∀ d c, s.collOf (bytesAt m.data 0 1) (bytesAt m.data 4 4) = some d → s.coll? d = some c → s.collDesc? d.ring d.seq = some d →
        let rank := bytesAt m.data 1 1
        let data := m.data.drop 12
        let va := d.collDst + rank * d.collBytes + bytesAt m.data 8 4
        (∀ cause at_, s.runFault d.loom0 d.tenant true va data.length = some (cause, at_) → ∃ t, exec (.collData p) s = .next t ∧
          t = s.opFault d d.loom0 15 cause at_ true ∧ t.slv.inbox = s.slv.inbox) ∧
        (s.runFault d.loom0 d.tenant true va data.length = none → (∀ r ∈ s.readyFor d, r.op = d.collOp ∧ r.bytes = d.collBytes) →
          s.allReady d = false → ∃ t e, exec (.collData p) s = .next t ∧
            t.mem = (u.vaWrite d.loom0 d.tenant va data (u.ringClass d.ring)).mem ∧ t.coll? d = some e ∧
            tblGet (fun _ => 0) e.blocks rank = tblGet (fun _ => 0) c.blocks rank + data.length ∧
            (tblGet (fun _ => 0) e.blocks rank = d.collBytes → ∀ from_ z k, s.sender m = some from_ → s.entryOf from_ = some z → z.x < 4 → z.y < 4 →
              s.nextPort (z.x, z.y) = some k → s.slvUp k = true → ∃ y ∈ (t.selPort k).queue, y.cls = 3 ∧ bytesAt y.data 0 1 = 7))

/-- The test access port: its controller moves with TMS, registers capture, shift and update (R818 to R820). Row JTAG_TCK. -/
def Obligations.TheTestPortShifts : Prop :=
  ∀ (s : State) (tms tdi : Bool) (balls : List Bool),
    let j := s.jtag
    s.idcode.toNat = s.boot.fuses.step % 16 * 2 ^ 28 + 0x1640 * 2 ^ 12 + 0x2B5 * 2 + 1 ∧
    ∃ t, exec (.jtagTck tms tdi balls) s = .next t ∧ t.jtag.tap = j.tap.next tms ∧ t = { s with jtag := t.jtag, free := t.free } ∧
      (j.tap = .reset → t.jtag.op = .idcode ∧ (tms = true → t.jtag.tap = .reset)) ∧
      (j.tap = .captureDr → j.op = .idcode → t.jtag.dr = (List.range 32).map s.idcode.toNat.testBit) ∧
      (j.tap = .captureDr → j.op = .bypass → t.jtag.dr = [false]) ∧
      (j.tap = .captureDr → j.op = .sample → t.jtag.dr.length = Config.bsrLength ∧
        ∀ k, k < Config.bsrLength → k < balls.length → t.jtag.dr[k]? = balls[k]?) ∧
      (j.tap = .shiftDr → j.op ≠ .device → t.jtag.dr = j.dr.drop 1 ++ [tdi]) ∧
      (j.tap = .updateDr → j.op = .extest → t.jtag.bsr = j.dr) ∧
      (j.tap = .shiftIr → t.jtag.ir = j.ir.drop 1 ++ [tdi]) ∧
      (j.tap = .updateIr → s.testMode = false → t.jtag.op = .bypass ∨ t.jtag.op = .idcode ∨ t.jtag.op = .sample) ∧
      (j.tap ≠ .updateIr → j.tap ≠ .reset → t.jtag.op = j.op) ∧
      (t.jtag.tap = .shiftDr → t.jtag.tdo = t.jtag.dr.head?) ∧ (t.jtag.tap = .shiftIr → t.jtag.tdo = t.jtag.ir.head?) ∧
      (t.jtag.tap ≠ .shiftDr → t.jtag.tap ≠ .shiftIr → t.jtag.tdo = none)

/-! The block as a machine. -/

/-- A step runs the front of the queue: the command there is run with the queue's rest; on an empty queue one CCLK passes. The command's effect is on
everything but the queue. That an empty queue lets a CCLK pass is the model's choice (log entry 2). -/
def Obligations.AStepRunsTheFrontCommand : Prop :=
  ∀ (c : Instr) (rest : List Instr) (s : State),
    step { s with pending := c :: rest } = exec c { s with pending := rest } ∧
    step { s with pending := [] } = .next ({ s with pending := [] } : State).tick

/-- After reset the block stands as the spec says: boot timing stamps from zero, no command waits, PICK_STAT and PWR_SETPT and the parent at their reset
values, DRAM and flash with nothing listed, and every table in canonical form. -/
def Obligations.ResetLeavesTheBlockInForm : Prop :=
  State.reset.wf = true ∧ State.reset.pending = [] ∧ State.reset.trd.now = ⟨0, 0, 0, 0⟩ ∧ State.reset.mem.dram = [] ∧
  State.reset.boot.flash = [] ∧ State.reset.fld Reg.PWR_SETPT Reg.PWR_SETPT_SET = 0x2EE ∧ State.reset.fld Reg.PWR_FAULT Reg.PWR_FAULT_FRAC = 8 ∧
  State.reset.fld Reg.SLV_TIME Reg.SLV_TIME_PARENT = 7 ∧ State.reset.fld Reg.TRD_PICK_STAT Reg.TRD_PICK_STAT_MIN = 0xFFF ∧
  State.reset.op = 0 ∧ State.reset.prState = 0

/-- Every step keeps the canonical form of the registers, DRAM and flash, and takes exactly the front of the queue. -/
def Obligations.EveryStepKeepsTheForm : Prop :=
  ∀ s t : State, s.wf = true → step s = .next t → t.wf = true ∧ t.pending = s.pending.tail
end

