-- ==== Sys2Proof/Laws/Table.lean ====
section
/-! SUPPORT. What reading, writing and the canonical form of a sparse table do to each other. -/

namespace Sys2Proof.Machine

variable {α : Type}

theorem tblGet_tblPut (d : Nat → α) (t : Tbl α) (k j : Nat) (v : α) :
    tblGet d (tblPut t k v) j = if j = k then v else tblGet d t j := by
  induction t with
  | nil => grind [tblPut, tblGet]
  | cons e t ih => grind [tblPut, tblGet]

theorem tblDel_cons (e : Nat × α) (t : Tbl α) (k : Nat) :
    tblDel (e :: t) k = if e.1 = k then tblDel t k else e :: tblDel t k := by
  by_cases h : e.1 = k <;> simp [tblDel, h]

theorem tblGet_tblDel (d : Nat → α) (t : Tbl α) (k j : Nat) :
    tblGet d (tblDel t k) j = if j = k then d k else tblGet d t j := by
  induction t with
  | nil => grind [tblDel, tblGet]
  | cons e t ih => rw [tblDel_cons]; grind [tblGet]

/-- A read after a write: the value written at its key, and every other key as before. -/
theorem tblGet_tblSet [DecidableEq α] (d : Nat → α) (t : Tbl α) (k j : Nat) (v : α) :
    tblGet d (tblSet d t k v) j = if j = k then v else tblGet d t j := by
  unfold tblSet
  split
  · rename_i h; rw [tblGet_tblDel, h]
  · exact tblGet_tblPut d t k j v

theorem tblFind_tblPut (t : Tbl α) (k j : Nat) (v : α) :
    tblFind (tblPut t k v) j = if j = k then some v else tblFind t j := by
  induction t with
  | nil => grind [tblPut, tblFind]
  | cons e t ih => grind [tblPut, tblFind]

theorem tblFind_tblDel (t : Tbl α) (k j : Nat) :
    tblFind (tblDel t k) j = if j = k then none else tblFind t j := by
  induction t with
  | nil => grind [tblDel, tblFind]
  | cons e t ih => rw [tblDel_cons]; grind [tblFind]

theorem mem_tblPut (t : Tbl α) (k : Nat) (v : α) (e : Nat × α) (h : e ∈ tblPut t k v) : e = (k, v) ∨ e ∈ t := by
  induction t with
  | nil => grind [tblPut]
  | cons x t ih => grind [tblPut]

theorem sorted_tblPut (t : Tbl α) (k : Nat) (v : α) (h : t.Pairwise fun a b => a.1 < b.1) :
    (tblPut t k v).Pairwise fun a b => a.1 < b.1 := by
  induction t with
  | nil => simp [tblPut]
  | cons x t ih =>
    obtain ⟨j, w⟩ := x
    simp only [List.pairwise_cons] at h
    simp only [tblPut]
    split
    · rename_i hk
      simp only [List.pairwise_cons, List.mem_cons]
      refine ⟨?_, h.1, h.2⟩
      rintro e (rfl | he)
      · exact hk
      · exact Nat.lt_trans hk (h.1 e he)
    · split
      · subst_vars; simpa only [List.pairwise_cons] using h
      · rename_i h1 h2
        simp only [List.pairwise_cons]
        refine ⟨?_, ih h.2⟩
        intro e he
        rcases mem_tblPut t k v e he with rfl | he
        · exact Nat.lt_of_le_of_ne (Nat.le_of_not_lt h1) (Ne.symm h2)
        · exact h.1 e he

theorem sorted_tblDel (t : Tbl α) (k : Nat) (h : t.Pairwise fun a b => a.1 < b.1) :
    (tblDel t k).Pairwise fun a b => a.1 < b.1 :=
  h.sublist List.filter_sublist

theorem tblWf_iff [DecidableEq α] (d : Nat → α) (t : Tbl α) :
    tblWf d t = true ↔ t.Pairwise (fun a b => a.1 < b.1) ∧ ∀ e ∈ t, e.2 ≠ d e.1 := by
  simp [tblWf]

/-- A write keeps the canonical form. -/
theorem tblWf_tblSet [DecidableEq α] (d : Nat → α) (t : Tbl α) (k : Nat) (v : α) (h : tblWf d t = true) :
    tblWf d (tblSet d t k v) = true := by
  rw [tblWf_iff] at h ⊢
  unfold tblSet
  split
  · refine ⟨sorted_tblDel t k h.1, fun e he => h.2 e ?_⟩
    exact (List.mem_filter.mp he).1
  · rename_i hv
    refine ⟨sorted_tblPut t k v h.1, fun e he => ?_⟩
    rcases mem_tblPut t k v e he with rfl | he
    · exact hv
    · exact h.2 e he

theorem tblWf_tblSetList [DecidableEq α] (d : Nat → α) (l : List α) (t : Tbl α) (k : Nat) (h : tblWf d t = true) :
    tblWf d (tblSetList d t k l) = true := by
  induction l generalizing t k with
  | nil => exact h
  | cons v l ih => exact ih _ _ (tblWf_tblSet d t k v h)

/-- Two canonical tables that read alike at every key are equal. -/
theorem tblWf_ext [DecidableEq α] (d : Nat → α) (t u : Tbl α) (ht : tblWf d t = true) (hu : tblWf d u = true)
    (h : ∀ k, tblGet d t k = tblGet d u k) : t = u := by
  rw [tblWf_iff] at ht hu
  induction t generalizing u with
  | nil =>
    cases u with
    | nil => rfl
    | cons e u => have := h e.1; simp [tblGet] at this; exact absurd this.symm (hu.2 e (by simp))
  | cons e t ih =>
    have hlow : ∀ (l : Tbl α) (k : Nat), (∀ x ∈ l, k < x.1) → tblGet d l k = d k := by
      intro l k hl
      induction l with
      | nil => rfl
      | cons x l ihl =>
        have hx := hl x (by simp)
        simp only [tblGet]
        rw [if_neg (by omega)]
        exact ihl fun y hy => hl y (by simp [hy])
    obtain ⟨j, v⟩ := e
    simp only [List.pairwise_cons] at ht
    cases u with
    | nil => have := h j; simp [tblGet] at this; exact absurd this (ht.2 (j, v) (by simp))
    | cons e' u =>
      obtain ⟨j', v'⟩ := e'
      simp only [List.pairwise_cons] at hu
      have hj : j = j' := by
        rcases Nat.lt_trichotomy j j' with hlt | heq | hgt
        · have := h j
          simp only [tblGet, ↓reduceIte] at this
          rw [if_neg (by omega), hlow u j (fun x hx => Nat.lt_trans hlt (hu.1.1 x hx))] at this
          exact absurd this (ht.2 (j, v) (by simp))
        · exact heq
        · have := h j'
          simp only [tblGet, ↓reduceIte] at this
          rw [if_neg (by omega), hlow t j' (fun x hx => Nat.lt_trans hgt (ht.1.1 x hx))] at this
          exact absurd this.symm (hu.2 (j', v') (by simp))
      subst hj
      have hv : v = v' := by have := h j; simpa [tblGet] using this
      subst hv
      congr 1
      refine ih u ⟨ht.1.2, fun e he => ht.2 e (by simp [he])⟩ ⟨hu.1.2, fun e he => hu.2 e (by simp [he])⟩ fun k => ?_
      by_cases hk : j = k
      · subst hk; rw [hlow t j ht.1.1, hlow u j hu.1.1]
      · have := h k; simpa [tblGet, hk] using this

end Sys2Proof.Machine
end

