-- ==== Sys2Proof/Laws/Field.lean ====
section
/-! SUPPORT. What reading and writing a register or one of its fields does (R14, R16): the laws of `rd`, `wr`, `fld`, `setFld` and
`bump`, and that a register write keeps the register table canonical. -/

namespace Sys2Proof.Machine

theorem Field.testBit_get (f : Field) (v : Word) (i : Nat) :
    (f.get v).testBit i = (decide (i < f.w) && v.getLsbD (f.lo + i)) := by
  simp [Field.get, Nat.testBit_mod_two_pow, Nat.testBit_shiftRight, BitVec.getLsbD]

theorem Field.getLsbD_mask (f : Field) (j : Nat) :
    f.mask.getLsbD j = (decide (j < 32) && decide (f.lo ≤ j) && decide (j - f.lo < f.w)) := by
  simp only [Field.mask, BitVec.getLsbD_ofNat, Nat.testBit_shiftLeft, Nat.testBit_two_pow_sub_one]
  grind

theorem Field.getLsbD_put (f : Field) (v : Word) (x j : Nat) :
    (f.put v x).getLsbD j = (decide (j < 32) && if f.lo ≤ j ∧ j - f.lo < f.w then x.testBit (j - f.lo) else v.getLsbD j) := by
  simp only [Field.put, BitVec.getLsbD_or, BitVec.getLsbD_and, BitVec.getLsbD_not, Field.getLsbD_mask, BitVec.getLsbD_ofNat,
    Nat.testBit_shiftLeft, Nat.testBit_mod_two_pow]
  by_cases h : j < 32 <;> by_cases h1 : f.lo ≤ j <;> by_cases h2 : j - f.lo < f.w <;> simp [h, h1, h2]

/-- A field reads what was put into it, cut to its width. -/
theorem Field.get_put (f : Field) (v : Word) (x : Nat) (h : f.lo + f.w ≤ 32) : f.get (f.put v x) = x % 2 ^ f.w := by
  apply Nat.eq_of_testBit_eq
  intro i
  rw [Field.testBit_get, Field.getLsbD_put, Nat.testBit_mod_two_pow]
  by_cases hi : i < f.w
  · have h1 : f.lo + i < 32 := by omega
    simp [hi, h1]
  · simp [hi]

/-- A field put leaves the other fields alone. -/
theorem Field.get_put_ne (f g : Field) (v : Word) (x : Nat) (h : g.lo + g.w ≤ f.lo ∨ f.lo + f.w ≤ g.lo) :
    g.get (f.put v x) = g.get v := by
  apply Nat.eq_of_testBit_eq
  intro i
  rw [Field.testBit_get, Field.testBit_get, Field.getLsbD_put]
  by_cases hi : i < g.w
  · have h1 : ¬(f.lo ≤ g.lo + i ∧ g.lo + i - f.lo < f.w) := by omega
    simp only [hi, h1, if_false, decide_true, Bool.true_and]
    by_cases h3 : g.lo + i < 32
    · simp [h3]
    · simp [h3, BitVec.getLsbD_of_ge _ _ (Nat.le_of_not_lt h3)]
  · simp [hi]

theorem Field.get_lt (f : Field) (v : Word) : f.get v < 2 ^ f.w := Nat.mod_lt _ (Nat.two_pow_pos _)

/-- A read after a write of a register. -/
theorem State.rd_wr (s : State) (o p : Nat) (v : Word) : (s.wr o v).rd p = if p = o then v else s.rd p :=
  tblGet_tblSet regDef s.regs o p v

@[simp] theorem State.rd_wr_self (s : State) (o : Nat) (v : Word) : (s.wr o v).rd o = v := by simp [State.rd_wr]

theorem State.rd_wr_ne (s : State) (o p : Nat) (v : Word) (h : p ≠ o) : (s.wr o v).rd p = s.rd p := by simp [State.rd_wr, h]

theorem State.rd_setFld_ne (s : State) (o p x : Nat) (f : Field) (h : p ≠ o) : (s.setFld o f x).rd p = s.rd p :=
  State.rd_wr_ne s o p _ h

theorem State.rd_setFld_self (s : State) (o x : Nat) (f : Field) : (s.setFld o f x).rd o = f.put (s.rd o) x :=
  State.rd_wr_self s o _

theorem State.fld_setFld_ne (s : State) (o p x : Nat) (f g : Field) (h : p ≠ o) : (s.setFld o f x).fld p g = s.fld p g := by
  simp [State.fld, State.rd_setFld_ne s o p x f h]

/-- The field that was set. -/
theorem State.fld_setFld_self (s : State) (o x : Nat) (f : Field) (h : f.lo + f.w ≤ 32) :
    (s.setFld o f x).fld o f = x % 2 ^ f.w := by
  simp [State.fld, State.rd_setFld_self, Field.get_put f _ x h]

/-- Another field of the register. -/
theorem State.fld_setFld_other (s : State) (o x : Nat) (f g : Field) (h : g.lo + g.w ≤ f.lo ∨ f.lo + f.w ≤ g.lo) :
    (s.setFld o f x).fld o g = s.fld o g := by
  simp [State.fld, State.rd_setFld_self, Field.get_put_ne f g _ x h]

theorem State.rd_bump (s : State) (o p : Nat) :
    (s.bump o).rd p = if p = o ∧ s.rd o ≠ 0xFFFFFFFF#32 then s.rd o + 1#32 else s.rd p := by
  unfold State.bump; split
  · rename_i h; simp [h]
  · rename_i h; simp only [State.rd_wr, h, ne_eq, not_false_eq_true, and_true]

theorem State.rd_bump_ne (s : State) (o p : Nat) (h : p ≠ o) : (s.bump o).rd p = s.rd p := by simp [State.rd_bump, h]

theorem State.fld_bump_ne (s : State) (o p : Nat) (g : Field) (h : p ≠ o) : (s.bump o).fld p g = s.fld p g := by
  simp [State.fld, State.rd_bump_ne s o p h]

/-- A register write keeps the register table canonical. -/
theorem State.regs_wf_wr (s : State) (o : Nat) (v : Word) (h : tblWf regDef s.regs = true) : tblWf regDef (s.wr o v).regs = true :=
  tblWf_tblSet regDef s.regs o v h

theorem State.regs_wf_setFld (s : State) (o x : Nat) (f : Field) (h : tblWf regDef s.regs = true) :
    tblWf regDef (s.setFld o f x).regs = true := State.regs_wf_wr s o _ h

theorem State.regs_wf_bump (s : State) (o : Nat) (h : tblWf regDef s.regs = true) : tblWf regDef (s.bump o).regs = true := by
  unfold State.bump; split
  · exact h
  · exact State.regs_wf_wr s o _ h

theorem State.regs_wf_bumps (s : State) (o n : Nat) (h : tblWf regDef s.regs = true) :
    tblWf regDef (s.bumps o n).regs = true := by
  induction n generalizing s with
  | zero => exact h
  | succ n ih => exact ih (s.bump o) (State.regs_wf_bump s o h)

theorem State.regs_wf_plainWrite (s : State) (o : Nat) (v : Word) (h : tblWf regDef s.regs = true) :
    tblWf regDef (s.plainWrite o v).regs = true := by
  unfold State.plainWrite; split
  · exact State.regs_wf_wr s o _ h
  · exact h

end Sys2Proof.Machine
end

