-- ==== Sys2Proof/Laws/Memory.lean ====
section
/-! SUPPORT. The canonical form of device DRAM, of the registers and of the flash: the reset state has it, and every operation that
writes one of them keeps it; and what a read of DRAM gives after a store. -/

namespace Sys2Proof.Machine

/-- An operation that keeps the canonical form and leaves the queue of commands alone. -/
def State.Keeps (s t : State) : Prop := (s.wf = true → t.wf = true) ∧ t.pending = s.pending

theorem State.Keeps.refl (s : State) : State.Keeps s s := ⟨id, rfl⟩

theorem State.Keeps.trans {s t u : State} (h : State.Keeps s t) (g : State.Keeps t u) : State.Keeps s u :=
  ⟨fun x => g.1 (h.1 x), g.2.trans h.2⟩

/-- A fold of operations that each keep the form keeps it. -/
theorem State.Keeps.foldl {α : Type} (f : State → α → State) (h : ∀ s a, State.Keeps s (f s a)) (l : List α) (s : State) :
    State.Keeps s (l.foldl f s) := by
  induction l generalizing s with
  | nil => exact .refl s
  | cons a l ih => exact (h s a).trans (ih (f s a))

theorem State.wf_iff (s : State) :
    s.wf = true ↔ tblWf regDef s.regs = true ∧ Memory.wf s.mem = true ∧ tblWf (fun _ => 0xFF#8) s.boot.flash = true := by
  simp [State.wf, and_assoc]

/-- An operation that leaves registers, DRAM, flash and the queue as they were keeps the form. -/
theorem State.Keeps.same {s t : State} (hr : t.regs = s.regs) (hm : t.mem.dram = s.mem.dram) (hf : t.boot.flash = s.boot.flash)
    (hp : t.pending = s.pending) : State.Keeps s t :=
  ⟨fun h => by simpa only [State.wf, Memory.wf, hr, hm, hf] using h, hp⟩

/-! Registers. -/

theorem State.keeps_wr (s : State) (o : Nat) (v : Word) : State.Keeps s (s.wr o v) :=
  ⟨fun h => (State.wf_iff _).2 ⟨State.regs_wf_wr s o v ((State.wf_iff s).1 h).1, ((State.wf_iff s).1 h).2⟩, rfl⟩

theorem State.keeps_setFld (s : State) (o x : Nat) (f : Field) : State.Keeps s (s.setFld o f x) := State.keeps_wr s o _

theorem State.keeps_bump (s : State) (o : Nat) : State.Keeps s (s.bump o) := by
  unfold State.bump; split
  · exact .refl s
  · exact State.keeps_wr s o _

theorem State.keeps_plainWrite (s : State) (o : Nat) (v : Word) : State.Keeps s (s.plainWrite o v) := by
  unfold State.plainWrite; split
  · exact State.keeps_wr s o _
  · exact .refl s

/-! Device memory. -/

/-- Taking entries out of a canonical table leaves it canonical. -/
theorem tblWf_filter {α : Type} [DecidableEq α] (d : Nat → α) (t : Tbl α) (p : Nat × α → Bool) (h : tblWf d t = true) :
    tblWf d (t.filter p) = true := by
  rw [tblWf_iff] at h ⊢
  exact ⟨h.1.sublist List.filter_sublist, fun e he => h.2 e (List.mem_filter.mp he).1⟩

/-- A change of the memory's bookkeeping that leaves DRAM as it was. -/
theorem State.keeps_onMem (s : State) (f : Mem → Mem) (h : (f s.mem).dram = s.mem.dram) : State.Keeps s (s.onMem f) :=
  .same rfl h rfl rfl

theorem State.keeps_setGranule (s : State) (g : Nat) : State.Keeps s (s.setGranule g) := State.keeps_onMem s _ rfl

theorem State.keeps_clearGranule (s : State) (g : Nat) : State.Keeps s (s.clearGranule g) :=
  ⟨fun h => have w := (State.wf_iff s).1 h; (State.wf_iff _).2 ⟨w.1, tblWf_filter _ s.mem.dram _ w.2.1, w.2.2⟩, rfl⟩

theorem State.keeps_dramStore (s : State) (pa : Nat) (l : List Byte) : State.Keeps s (s.dramStore pa l) := by
  induction l generalizing s pa with
  | nil => exact .refl s
  | cons b l ih =>
    rw [State.dramStore]
    refine State.Keeps.trans ?_ (ih _ _)
    refine ⟨fun h => ?_, rfl⟩
    have w := (State.wf_iff s).1 h
    exact (State.wf_iff _).2 ⟨w.1, tblWf_tblSet _ s.mem.dram pa b w.2.1, w.2.2⟩

theorem State.keeps_putLine (s : State) (way : Nat) (l : SLine) : State.Keeps s (s.putLine way l) := State.keeps_onMem s _ rfl

/-- What DRAM lists after a store: the stored bytes, and every other byte as before. -/
theorem State.dram_dramStore (s : State) (pa a : Nat) (l : List Byte) :
    tblGet (fun _ => 0#8) (s.dramStore pa l).mem.dram a =
      if h : pa ≤ a ∧ a < pa + l.length then l[a - pa]'(by omega) else tblGet (fun _ => 0#8) s.mem.dram a := by
  induction l generalizing s pa with
  | nil => simp only [List.length_nil, Nat.add_zero]; rw [dif_neg (by omega)]; rfl
  | cons b l ih =>
    rw [State.dramStore, ih]
    simp only [List.length_cons]
    by_cases h1 : a = pa
    · subst h1
      rw [dif_neg (by omega), dif_pos (by omega)]
      simpa [State.onMem, State.setGranule] using tblGet_tblSet (fun _ => 0#8) s.mem.dram a a b
    · by_cases h2 : pa + 1 ≤ a ∧ a < pa + 1 + l.length
      · rw [dif_pos h2, dif_pos (by omega)]
        obtain ⟨k, rfl⟩ : ∃ k, a = pa + 1 + k := ⟨a - (pa + 1), by omega⟩
        have e : pa + 1 + k - pa = k + 1 := by omega
        simp [e]
      · rw [dif_neg h2, dif_neg (by omega)]
        simpa [State.onMem, State.setGranule, h1] using tblGet_tblSet (fun _ => 0#8) s.mem.dram pa a b

/-- The SRAM clear of start-up leaves an empty memory (R319), except in TEST mode, which has stopped before it. -/
theorem State.keeps_sramZeroed (s t : State) (h : execSramZeroed s = .next t) : State.Keeps s t := by
  unfold execSramZeroed at h
  split at h
  · rw [← Host.Outcome.next.inj h]; exact .refl s
  · rw [← Host.Outcome.next.inj h]
    refine State.Keeps.trans (t := (s.onMem fun m => { m with dram := [] })) ⟨fun w => ?_, rfl⟩ ?_
    · have w := (State.wf_iff s).1 w
      exact (State.wf_iff _).2 ⟨w.1, rfl, w.2.2⟩
    · dsimp only
      split
      · exact State.Keeps.trans (.same rfl rfl rfl rfl) (State.keeps_setFld _ _ _ _)
      · exact .same rfl rfl rfl rfl

/-! Writes through the Spool. -/

theorem State.keeps_onLine (s : State) (pa : Nat) (f : SLine → SLine) : State.Keeps s (s.onLine pa f) := by
  unfold State.onLine
  split
  · split
    · exact State.keeps_putLine _ _ _
    · exact .refl s
  · exact .same rfl rfl rfl rfl

theorem State.keeps_touch (s : State) (pa : Nat) : State.Keeps s (s.touch pa) :=
  State.Keeps.trans (t := s.onMem fun m => { m with use := m.use + 1 }) (.same rfl rfl rfl rfl) (State.keeps_onLine _ _ _)

theorem State.keeps_touchCheck (s : State) (pa : Nat) : State.Keeps s (s.touchCheck pa) := by
  unfold State.touchCheck; exact .same rfl rfl rfl rfl

theorem State.keeps_enqueueReq (s : State) (q : DramReq) : State.Keeps s (s.enqueueReq q) := by
  unfold State.enqueueReq; exact .same rfl rfl rfl rfl

theorem State.keeps_enqueueData (s : State) (kind : DramKind) (pa : Nat) (cls : MemClass) (req : Nat) (d : List Byte) (p : Bool) (a : Option Nat) :
    State.Keeps s (s.enqueueData kind pa cls req d p a) := by
  unfold State.enqueueData
  split
  · exact (State.keeps_touchCheck s _).trans (State.keeps_enqueueReq _ _)
  · dsimp only
    split
    · exact State.keeps_enqueueReq _ _
    · exact (State.keeps_enqueueReq _ _).trans (State.keeps_enqueueReq _ _)

theorem State.keeps_zeroOthers (s : State) (l : SLine) : State.Keeps s (s.zeroOthers l) :=
  State.Keeps.foldl _ (fun t _ => State.keeps_enqueueData t _ _ _ _ _ _ _) _ _

/-- A write-back moves a line on its way and leaves DRAM as it is. -/
theorem State.keeps_writeBack (s : State) (l : SLine) : State.Keeps s (s.writeBack l) := by
  unfold State.writeBack
  dsimp only
  have leave : State.Keeps s (s.onMem fun m => { m with leaving := m.leaving ++ [l] }) := .same rfl rfl rfl rfl
  split
  · exact leave.trans (State.keeps_enqueueData _ _ _ _ _ _ _ _)
  · split
    · exact .same rfl rfl rfl rfl
    · refine State.Keeps.trans ?_ (State.keeps_bump _ _)
      refine State.Keeps.trans ?_ (State.keeps_zeroOthers _ _)
      exact .same rfl rfl rfl rfl

theorem State.keeps_evictWay (s : State) (pa way : Nat) (r : Option (List Byte)) : State.Keeps s (s.evictWay pa way r) := by
  unfold State.evictWay
  split
  · exact .refl s
  · rename_i l _
    dsimp only
    have gone : State.Keeps s (s.onMem fun m => { m with
      spool := tblDel m.spool (spoolKey pa way)
      l1 := m.l1.filter fun x => !(x.coh && x.pa == l.pa) }) := .same rfl rfl rfl rfl
    have out : ∀ l1 : SLine, State.Keeps s (if l1.dirty = true
        then (s.onMem fun m => { m with
          spool := tblDel m.spool (spoolKey pa way)
          l1 := m.l1.filter fun x => !(x.coh && x.pa == l.pa) }).writeBack { l1 with dir := .inv, holders := [] }
        else s.onMem fun m => { m with
          spool := tblDel m.spool (spoolKey pa way)
          l1 := m.l1.filter fun x => !(x.coh && x.pa == l.pa) }) := fun l1 => by
      split
      · exact gone.trans (State.keeps_writeBack _ _)
      · exact gone
    split <;> exact out _

theorem State.keeps_allocate (s : State) (l : SLine) (ws : List Nat) (r : Option (List Byte)) : State.Keeps s (s.allocate l ws r) := by
  unfold State.allocate
  split
  · exact .refl s
  · exact (State.keeps_evictWay s _ _ _).trans (.same rfl rfl rfl rfl)

theorem State.keeps_takeBack (s : State) (pa : Nat) : State.Keeps s (s.takeBack pa) := by
  have free : State.Keeps s s.nextFree.2 := .same rfl rfl rfl rfl
  unfold State.takeBack
  split
  · split
    · split
      · exact free.trans (State.keeps_onLine _ _ _)
      · exact free
    · split
      · exact free.trans (State.keeps_onLine _ _ _)
      · exact free
    · exact .refl s
  · exact .refl s

theorem State.keeps_allocateNow (s : State) (l : SLine) (cls : MemClass) : State.Keeps s (s.allocateNow l cls) := by
  unfold State.allocateNow
  dsimp only
  split
  · exact (State.keeps_takeBack s _).trans (State.keeps_allocate _ _ _ _)
  · exact State.keeps_allocate s _ _ _

/-- A write of one line's bytes keeps the form, wherever it goes. -/
theorem State.keeps_memWriteIn (s : State) (pa : Nat) (d : List Byte) (cls : MemClass) (req : Nat) :
    State.Keeps s (s.memWriteIn pa d cls req) := by
  have own : State.Keeps s (s.dropOwn req pa) := .same rfl rfl rfl rfl
  unfold State.memWriteIn
  split
  · exact .refl s
  · split
    · split
      · refine State.Keeps.trans ?_ (State.keeps_onLine _ _ _)
        refine State.Keeps.trans ?_ (State.keeps_touch _ _)
        refine State.Keeps.trans ?_ (.same rfl rfl rfl rfl)
        split
        · exact State.keeps_takeBack s _
        · exact .refl s
      · exact (own.trans (State.keeps_touch _ _)).trans (State.keeps_onLine _ _ _)
    · dsimp only
      split
      · have w := own.trans (State.keeps_dramStore _ pa d)
        split
        · exact w.trans (.same rfl rfl rfl rfl)
        · exact w.trans (.same rfl rfl rfl rfl)
      · exact own.trans (State.keeps_allocateNow _ _ _)

/-- A write of a run keeps the form. -/
theorem State.keeps_memWrite (s : State) (pa : Nat) (d : List Byte) (cls : MemClass) (req : Nat) : State.Keeps s (s.memWrite pa d cls req) := by
  unfold State.memWrite
  generalize d.length / 128 + 2 = n
  induction n generalizing s pa d with
  | zero => exact .refl s
  | succ n ih =>
    unfold State.memWriteFuel
    split
    · exact .refl s
    · exact (State.keeps_memWriteIn s _ _ _ _).trans (ih _ _ _)

/-! The flash. -/

theorem State.keeps_flashStore (s : State) (a : Nat) (l : List Byte) : State.Keeps s (s.flashStore a l) :=
  ⟨fun h => have w := (State.wf_iff s).1 h; (State.wf_iff _).2 ⟨w.1, w.2.1, tblWf_tblSetList _ l s.boot.flash a w.2.2⟩, rfl⟩

theorem State.keeps_flashEffect (s : State) (c : FlashCmd) (failed : Bool) : State.Keeps s (s.flashEffect c failed) := by
  unfold State.flashEffect
  generalize (if c.op = 3 then 4096 else if c.op = 4 then 65536 else 256) = n
  dsimp only
  by_cases h1 : c.op = 1
  · rw [if_pos h1]; exact State.Keeps.foldl _ (fun t k => State.keeps_wr t _ _) _ s
  · rw [if_neg h1]
    by_cases h2 : failed = true
    · rw [if_pos h2]
      exact State.Keeps.trans (.same rfl rfl rfl rfl) (State.keeps_flashStore s.nextFree.2 _ _)
    · rw [if_neg h2]
      by_cases h3 : c.op = 2
      · rw [if_pos h3]; exact State.keeps_flashStore s _ _
      · rw [if_neg h3]
        exact ⟨fun h => have w := (State.wf_iff s).1 h
          (State.wf_iff _).2 ⟨w.1, w.2.1, tblWf_filter _ s.boot.flash _ w.2.2⟩, rfl⟩

/-! Reset. -/

/-- The state after reset has the form. -/
theorem State.wf_reset : State.reset.wf = true := by decide

/-- A flash command that a reset cuts off keeps it. -/
theorem State.keeps_cutFlash (s : State) : State.Keeps s s.cutFlash := by
  unfold State.cutFlash
  split
  · split
    · exact .refl s
    · exact State.keeps_flashEffect s _ _
  · exact .refl s

/-- A state with the registers and memory of reset keeps the form of the flash it is given. -/
theorem State.Keeps.fresh {s t : State} (hr : t.regs = State.reset.regs) (hm : t.mem = State.reset.mem)
    (hf : t.boot.flash = s.boot.flash) (hp : t.pending = s.pending) : State.Keeps s t :=
  ⟨fun h => (State.wf_iff _).2 ⟨hr ▸ ((State.wf_iff _).1 State.wf_reset).1, hm ▸ ((State.wf_iff _).1 State.wf_reset).2.1,
    hf ▸ ((State.wf_iff s).1 h).2.2⟩, hp⟩

/-- A restart of the device keeps it. -/
theorem State.keeps_restart (s : State) (bootMode : BitVec 3) (chipId : BitVec 4) (failed : Nat → Bool) :
    State.Keeps s (s.restart bootMode chipId failed) := by
  refine (State.keeps_cutFlash s).trans ?_
  unfold State.restart
  dsimp only
  split
  · exact .fresh rfl rfl rfl rfl
  · refine State.Keeps.trans ?_ (State.keeps_setFld _ _ _ _)
    exact .fresh rfl rfl rfl rfl

end Sys2Proof.Machine
end

