-- ==== Sys2Proof/Laws/Operands.lean ====
section
/-! SUPPORT. Where an operator's output runs lie, and how long each is, does not depend on the codes it writes. -/

namespace Sys2Proof.Machine

theorem length_leBytes (n x : Nat) : (leBytes n x).length = n := by
  induction n generalizing x with
  | zero => rfl
  | succ n ih => simp [leBytes, ih]

theorem length_packCodes_eq (e : Elem) : ∀ (a b : List Nat), a.length = b.length → (packCodes e a).length = (packCodes e b).length
  | [], [], _ => rfl
  | [x], [y], _ => by simp only [packCodes]; split <;> simp [length_leBytes]
  | x :: y :: t, u :: v :: w, h => by
    simp only [packCodes]
    split
    · simp [length_packCodes_eq e t w (by simpa using h)]
    · simp [length_leBytes, length_packCodes_eq e (y :: t) (v :: w) (by simpa using h)]

/-- The places of output runs. -/
def runPlaces (l : List OutRun) : List (Nat × Nat × Nat) := l.map fun o => (15, o.va, o.data.length)

theorem runPlaces_outRuns (z : TRef) (f g : Nat → Nat → Nat → Nat × Bool) : runPlaces (z.outRuns f) = runPlaces (z.outRuns g) := by
  simp only [runPlaces, TRef.outRuns, List.map_flatMap, List.map_map]
  congr 1
  funext x
  apply List.map_congr_left
  intro c _
  simp only [Function.comp_apply, Prod.mk.injEq, true_and]
  exact length_packCodes_eq _ _ _ (by simp)

theorem runPlaces_outRunsIn (z : TRef) (f g : Nat → Nat → Nat → Nat × Bool) : runPlaces (z.outRunsIn f) = runPlaces (z.outRunsIn g) := by
  unfold TRef.outRunsIn
  split
  · simp only [runPlaces, List.map_flatMap, List.map_map]
    congr 1
    funext x
    apply List.map_congr_left
    intro c _
    simp only [Function.comp_apply, Prod.mk.injEq, true_and]
    exact length_packCodes_eq _ _ _ (by simp)
  · exact runPlaces_outRuns z f g

/-- An operator is ready whatever it writes to its output runs. -/
theorem operandsReady_congr (s : State) (d : Desc) (n : Nat) (ins : List (Nat × Nat × Nat)) (a b : List OutRun) (h : runPlaces a = runPlaces b)
    (hr : s.operandsReady d n ins a) : s.operandsReady d n ins b := by
  unfold State.operandsReady at hr ⊢
  unfold runPlaces at h
  rwa [← h]

end Sys2Proof.Machine
end

