-- ==== Sys2Proof/Laws/State.lean ====
section
/-! SUPPORT. One lemma per field per update of the state, so that no later proof unfolds a record update. -/

namespace Sys2Proof.Machine

@[simp] theorem State.wr_pending (s : State) (o : Nat) (v : Word) : (s.wr o v).pending = s.pending := rfl
@[simp] theorem State.wr_free (s : State) (o : Nat) (v : Word) : (s.wr o v).free = s.free := rfl
@[simp] theorem State.wr_out (s : State) (o : Nat) (v : Word) : (s.wr o v).out = s.out := rfl
@[simp] theorem State.wr_regs (s : State) (o : Nat) (v : Word) : (s.wr o v).regs = tblSet regDef s.regs o v := rfl
@[simp] theorem State.wr_trd (s : State) (o : Nat) (v : Word) : (s.wr o v).trd = s.trd := rfl
@[simp] theorem State.wr_boot (s : State) (o : Nat) (v : Word) : (s.wr o v).boot = s.boot := rfl
@[simp] theorem State.wr_hif (s : State) (o : Nat) (v : Word) : (s.wr o v).hif = s.hif := rfl
@[simp] theorem State.wr_ten (s : State) (o : Nat) (v : Word) : (s.wr o v).ten = s.ten := rfl
@[simp] theorem State.wr_looms (s : State) (o : Nat) (v : Word) : (s.wr o v).looms = s.looms := rfl
@[simp] theorem State.wr_mem (s : State) (o : Nat) (v : Word) : (s.wr o v).mem = s.mem := rfl
@[simp] theorem State.wr_sht (s : State) (o : Nat) (v : Word) : (s.wr o v).sht = s.sht := rfl
@[simp] theorem State.wr_pic (s : State) (o : Nat) (v : Word) : (s.wr o v).pic = s.pic := rfl
@[simp] theorem State.wr_kv (s : State) (o : Nat) (v : Word) : (s.wr o v).kv = s.kv := rfl
@[simp] theorem State.wr_scn (s : State) (o : Nat) (v : Word) : (s.wr o v).scn = s.scn := rfl
@[simp] theorem State.wr_pwr (s : State) (o : Nat) (v : Word) : (s.wr o v).pwr = s.pwr := rfl
@[simp] theorem State.wr_slv (s : State) (o : Nat) (v : Word) : (s.wr o v).slv = s.slv := rfl
@[simp] theorem State.wr_jtag (s : State) (o : Nat) (v : Word) : (s.wr o v).jtag = s.jtag := rfl

@[simp] theorem State.setFld_pending (s : State) (o : Nat) (f : Field) (x : Nat) : (s.setFld o f x).pending = s.pending := rfl
@[simp] theorem State.setFld_free (s : State) (o : Nat) (f : Field) (x : Nat) : (s.setFld o f x).free = s.free := rfl
@[simp] theorem State.setFld_out (s : State) (o : Nat) (f : Field) (x : Nat) : (s.setFld o f x).out = s.out := rfl
@[simp] theorem State.setFld_regs (s : State) (o : Nat) (f : Field) (x : Nat) : (s.setFld o f x).regs = tblSet regDef s.regs o (f.put (s.rd o) x) := rfl
@[simp] theorem State.setFld_trd (s : State) (o : Nat) (f : Field) (x : Nat) : (s.setFld o f x).trd = s.trd := rfl
@[simp] theorem State.setFld_boot (s : State) (o : Nat) (f : Field) (x : Nat) : (s.setFld o f x).boot = s.boot := rfl
@[simp] theorem State.setFld_hif (s : State) (o : Nat) (f : Field) (x : Nat) : (s.setFld o f x).hif = s.hif := rfl
@[simp] theorem State.setFld_ten (s : State) (o : Nat) (f : Field) (x : Nat) : (s.setFld o f x).ten = s.ten := rfl
@[simp] theorem State.setFld_looms (s : State) (o : Nat) (f : Field) (x : Nat) : (s.setFld o f x).looms = s.looms := rfl
@[simp] theorem State.setFld_mem (s : State) (o : Nat) (f : Field) (x : Nat) : (s.setFld o f x).mem = s.mem := rfl
@[simp] theorem State.setFld_sht (s : State) (o : Nat) (f : Field) (x : Nat) : (s.setFld o f x).sht = s.sht := rfl
@[simp] theorem State.setFld_pic (s : State) (o : Nat) (f : Field) (x : Nat) : (s.setFld o f x).pic = s.pic := rfl
@[simp] theorem State.setFld_kv (s : State) (o : Nat) (f : Field) (x : Nat) : (s.setFld o f x).kv = s.kv := rfl
@[simp] theorem State.setFld_scn (s : State) (o : Nat) (f : Field) (x : Nat) : (s.setFld o f x).scn = s.scn := rfl
@[simp] theorem State.setFld_pwr (s : State) (o : Nat) (f : Field) (x : Nat) : (s.setFld o f x).pwr = s.pwr := rfl
@[simp] theorem State.setFld_slv (s : State) (o : Nat) (f : Field) (x : Nat) : (s.setFld o f x).slv = s.slv := rfl
@[simp] theorem State.setFld_jtag (s : State) (o : Nat) (f : Field) (x : Nat) : (s.setFld o f x).jtag = s.jtag := rfl

@[simp] theorem State.emit_pending (s : State) (n : Nat) (m : OutMsg) : (s.emit n m).pending = s.pending := rfl
@[simp] theorem State.emit_free (s : State) (n : Nat) (m : OutMsg) : (s.emit n m).free = s.free := rfl
@[simp] theorem State.emit_out (s : State) (n : Nat) (m : OutMsg) : (s.emit n m).out = s.out ++ [⟨s.trd.cclk + n, m⟩] := rfl
@[simp] theorem State.emit_regs (s : State) (n : Nat) (m : OutMsg) : (s.emit n m).regs = s.regs := rfl
@[simp] theorem State.emit_trd (s : State) (n : Nat) (m : OutMsg) : (s.emit n m).trd = s.trd := rfl
@[simp] theorem State.emit_boot (s : State) (n : Nat) (m : OutMsg) : (s.emit n m).boot = s.boot := rfl
@[simp] theorem State.emit_hif (s : State) (n : Nat) (m : OutMsg) : (s.emit n m).hif = s.hif := rfl
@[simp] theorem State.emit_ten (s : State) (n : Nat) (m : OutMsg) : (s.emit n m).ten = s.ten := rfl
@[simp] theorem State.emit_looms (s : State) (n : Nat) (m : OutMsg) : (s.emit n m).looms = s.looms := rfl
@[simp] theorem State.emit_mem (s : State) (n : Nat) (m : OutMsg) : (s.emit n m).mem = s.mem := rfl
@[simp] theorem State.emit_sht (s : State) (n : Nat) (m : OutMsg) : (s.emit n m).sht = s.sht := rfl
@[simp] theorem State.emit_pic (s : State) (n : Nat) (m : OutMsg) : (s.emit n m).pic = s.pic := rfl
@[simp] theorem State.emit_kv (s : State) (n : Nat) (m : OutMsg) : (s.emit n m).kv = s.kv := rfl
@[simp] theorem State.emit_scn (s : State) (n : Nat) (m : OutMsg) : (s.emit n m).scn = s.scn := rfl
@[simp] theorem State.emit_pwr (s : State) (n : Nat) (m : OutMsg) : (s.emit n m).pwr = s.pwr := rfl
@[simp] theorem State.emit_slv (s : State) (n : Nat) (m : OutMsg) : (s.emit n m).slv = s.slv := rfl
@[simp] theorem State.emit_jtag (s : State) (n : Nat) (m : OutMsg) : (s.emit n m).jtag = s.jtag := rfl

@[simp] theorem State.onTrd_pending (s : State) (f : Trd → Trd) : (s.onTrd f).pending = s.pending := rfl
@[simp] theorem State.onTrd_free (s : State) (f : Trd → Trd) : (s.onTrd f).free = s.free := rfl
@[simp] theorem State.onTrd_out (s : State) (f : Trd → Trd) : (s.onTrd f).out = s.out := rfl
@[simp] theorem State.onTrd_regs (s : State) (f : Trd → Trd) : (s.onTrd f).regs = s.regs := rfl
@[simp] theorem State.onTrd_trd (s : State) (f : Trd → Trd) : (s.onTrd f).trd = f s.trd := rfl
@[simp] theorem State.onTrd_boot (s : State) (f : Trd → Trd) : (s.onTrd f).boot = s.boot := rfl
@[simp] theorem State.onTrd_hif (s : State) (f : Trd → Trd) : (s.onTrd f).hif = s.hif := rfl
@[simp] theorem State.onTrd_ten (s : State) (f : Trd → Trd) : (s.onTrd f).ten = s.ten := rfl
@[simp] theorem State.onTrd_looms (s : State) (f : Trd → Trd) : (s.onTrd f).looms = s.looms := rfl
@[simp] theorem State.onTrd_mem (s : State) (f : Trd → Trd) : (s.onTrd f).mem = s.mem := rfl
@[simp] theorem State.onTrd_sht (s : State) (f : Trd → Trd) : (s.onTrd f).sht = s.sht := rfl
@[simp] theorem State.onTrd_pic (s : State) (f : Trd → Trd) : (s.onTrd f).pic = s.pic := rfl
@[simp] theorem State.onTrd_kv (s : State) (f : Trd → Trd) : (s.onTrd f).kv = s.kv := rfl
@[simp] theorem State.onTrd_scn (s : State) (f : Trd → Trd) : (s.onTrd f).scn = s.scn := rfl
@[simp] theorem State.onTrd_pwr (s : State) (f : Trd → Trd) : (s.onTrd f).pwr = s.pwr := rfl
@[simp] theorem State.onTrd_slv (s : State) (f : Trd → Trd) : (s.onTrd f).slv = s.slv := rfl
@[simp] theorem State.onTrd_jtag (s : State) (f : Trd → Trd) : (s.onTrd f).jtag = s.jtag := rfl

@[simp] theorem State.onBoot_pending (s : State) (f : Boot → Boot) : (s.onBoot f).pending = s.pending := rfl
@[simp] theorem State.onBoot_free (s : State) (f : Boot → Boot) : (s.onBoot f).free = s.free := rfl
@[simp] theorem State.onBoot_out (s : State) (f : Boot → Boot) : (s.onBoot f).out = s.out := rfl
@[simp] theorem State.onBoot_regs (s : State) (f : Boot → Boot) : (s.onBoot f).regs = s.regs := rfl
@[simp] theorem State.onBoot_trd (s : State) (f : Boot → Boot) : (s.onBoot f).trd = s.trd := rfl
@[simp] theorem State.onBoot_boot (s : State) (f : Boot → Boot) : (s.onBoot f).boot = f s.boot := rfl
@[simp] theorem State.onBoot_hif (s : State) (f : Boot → Boot) : (s.onBoot f).hif = s.hif := rfl
@[simp] theorem State.onBoot_ten (s : State) (f : Boot → Boot) : (s.onBoot f).ten = s.ten := rfl
@[simp] theorem State.onBoot_looms (s : State) (f : Boot → Boot) : (s.onBoot f).looms = s.looms := rfl
@[simp] theorem State.onBoot_mem (s : State) (f : Boot → Boot) : (s.onBoot f).mem = s.mem := rfl
@[simp] theorem State.onBoot_sht (s : State) (f : Boot → Boot) : (s.onBoot f).sht = s.sht := rfl
@[simp] theorem State.onBoot_pic (s : State) (f : Boot → Boot) : (s.onBoot f).pic = s.pic := rfl
@[simp] theorem State.onBoot_kv (s : State) (f : Boot → Boot) : (s.onBoot f).kv = s.kv := rfl
@[simp] theorem State.onBoot_scn (s : State) (f : Boot → Boot) : (s.onBoot f).scn = s.scn := rfl
@[simp] theorem State.onBoot_pwr (s : State) (f : Boot → Boot) : (s.onBoot f).pwr = s.pwr := rfl
@[simp] theorem State.onBoot_slv (s : State) (f : Boot → Boot) : (s.onBoot f).slv = s.slv := rfl
@[simp] theorem State.onBoot_jtag (s : State) (f : Boot → Boot) : (s.onBoot f).jtag = s.jtag := rfl

@[simp] theorem State.onHif_pending (s : State) (f : Hif → Hif) : (s.onHif f).pending = s.pending := rfl
@[simp] theorem State.onHif_free (s : State) (f : Hif → Hif) : (s.onHif f).free = s.free := rfl
@[simp] theorem State.onHif_out (s : State) (f : Hif → Hif) : (s.onHif f).out = s.out := rfl
@[simp] theorem State.onHif_regs (s : State) (f : Hif → Hif) : (s.onHif f).regs = s.regs := rfl
@[simp] theorem State.onHif_trd (s : State) (f : Hif → Hif) : (s.onHif f).trd = s.trd := rfl
@[simp] theorem State.onHif_boot (s : State) (f : Hif → Hif) : (s.onHif f).boot = s.boot := rfl
@[simp] theorem State.onHif_hif (s : State) (f : Hif → Hif) : (s.onHif f).hif = f s.hif := rfl
@[simp] theorem State.onHif_ten (s : State) (f : Hif → Hif) : (s.onHif f).ten = s.ten := rfl
@[simp] theorem State.onHif_looms (s : State) (f : Hif → Hif) : (s.onHif f).looms = s.looms := rfl
@[simp] theorem State.onHif_mem (s : State) (f : Hif → Hif) : (s.onHif f).mem = s.mem := rfl
@[simp] theorem State.onHif_sht (s : State) (f : Hif → Hif) : (s.onHif f).sht = s.sht := rfl
@[simp] theorem State.onHif_pic (s : State) (f : Hif → Hif) : (s.onHif f).pic = s.pic := rfl
@[simp] theorem State.onHif_kv (s : State) (f : Hif → Hif) : (s.onHif f).kv = s.kv := rfl
@[simp] theorem State.onHif_scn (s : State) (f : Hif → Hif) : (s.onHif f).scn = s.scn := rfl
@[simp] theorem State.onHif_pwr (s : State) (f : Hif → Hif) : (s.onHif f).pwr = s.pwr := rfl
@[simp] theorem State.onHif_slv (s : State) (f : Hif → Hif) : (s.onHif f).slv = s.slv := rfl
@[simp] theorem State.onHif_jtag (s : State) (f : Hif → Hif) : (s.onHif f).jtag = s.jtag := rfl

@[simp] theorem State.onTen_pending (s : State) (f : Ten → Ten) : (s.onTen f).pending = s.pending := rfl
@[simp] theorem State.onTen_free (s : State) (f : Ten → Ten) : (s.onTen f).free = s.free := rfl
@[simp] theorem State.onTen_out (s : State) (f : Ten → Ten) : (s.onTen f).out = s.out := rfl
@[simp] theorem State.onTen_regs (s : State) (f : Ten → Ten) : (s.onTen f).regs = s.regs := rfl
@[simp] theorem State.onTen_trd (s : State) (f : Ten → Ten) : (s.onTen f).trd = s.trd := rfl
@[simp] theorem State.onTen_boot (s : State) (f : Ten → Ten) : (s.onTen f).boot = s.boot := rfl
@[simp] theorem State.onTen_hif (s : State) (f : Ten → Ten) : (s.onTen f).hif = s.hif := rfl
@[simp] theorem State.onTen_ten (s : State) (f : Ten → Ten) : (s.onTen f).ten = f s.ten := rfl
@[simp] theorem State.onTen_looms (s : State) (f : Ten → Ten) : (s.onTen f).looms = s.looms := rfl
@[simp] theorem State.onTen_mem (s : State) (f : Ten → Ten) : (s.onTen f).mem = s.mem := rfl
@[simp] theorem State.onTen_sht (s : State) (f : Ten → Ten) : (s.onTen f).sht = s.sht := rfl
@[simp] theorem State.onTen_pic (s : State) (f : Ten → Ten) : (s.onTen f).pic = s.pic := rfl
@[simp] theorem State.onTen_kv (s : State) (f : Ten → Ten) : (s.onTen f).kv = s.kv := rfl
@[simp] theorem State.onTen_scn (s : State) (f : Ten → Ten) : (s.onTen f).scn = s.scn := rfl
@[simp] theorem State.onTen_pwr (s : State) (f : Ten → Ten) : (s.onTen f).pwr = s.pwr := rfl
@[simp] theorem State.onTen_slv (s : State) (f : Ten → Ten) : (s.onTen f).slv = s.slv := rfl
@[simp] theorem State.onTen_jtag (s : State) (f : Ten → Ten) : (s.onTen f).jtag = s.jtag := rfl

@[simp] theorem State.onMem_pending (s : State) (f : Mem → Mem) : (s.onMem f).pending = s.pending := rfl
@[simp] theorem State.onMem_free (s : State) (f : Mem → Mem) : (s.onMem f).free = s.free := rfl
@[simp] theorem State.onMem_out (s : State) (f : Mem → Mem) : (s.onMem f).out = s.out := rfl
@[simp] theorem State.onMem_regs (s : State) (f : Mem → Mem) : (s.onMem f).regs = s.regs := rfl
@[simp] theorem State.onMem_trd (s : State) (f : Mem → Mem) : (s.onMem f).trd = s.trd := rfl
@[simp] theorem State.onMem_boot (s : State) (f : Mem → Mem) : (s.onMem f).boot = s.boot := rfl
@[simp] theorem State.onMem_hif (s : State) (f : Mem → Mem) : (s.onMem f).hif = s.hif := rfl
@[simp] theorem State.onMem_ten (s : State) (f : Mem → Mem) : (s.onMem f).ten = s.ten := rfl
@[simp] theorem State.onMem_looms (s : State) (f : Mem → Mem) : (s.onMem f).looms = s.looms := rfl
@[simp] theorem State.onMem_mem (s : State) (f : Mem → Mem) : (s.onMem f).mem = f s.mem := rfl
@[simp] theorem State.onMem_sht (s : State) (f : Mem → Mem) : (s.onMem f).sht = s.sht := rfl
@[simp] theorem State.onMem_pic (s : State) (f : Mem → Mem) : (s.onMem f).pic = s.pic := rfl
@[simp] theorem State.onMem_kv (s : State) (f : Mem → Mem) : (s.onMem f).kv = s.kv := rfl
@[simp] theorem State.onMem_scn (s : State) (f : Mem → Mem) : (s.onMem f).scn = s.scn := rfl
@[simp] theorem State.onMem_pwr (s : State) (f : Mem → Mem) : (s.onMem f).pwr = s.pwr := rfl
@[simp] theorem State.onMem_slv (s : State) (f : Mem → Mem) : (s.onMem f).slv = s.slv := rfl
@[simp] theorem State.onMem_jtag (s : State) (f : Mem → Mem) : (s.onMem f).jtag = s.jtag := rfl

@[simp] theorem State.onSht_pending (s : State) (f : Sht → Sht) : (s.onSht f).pending = s.pending := rfl
@[simp] theorem State.onSht_free (s : State) (f : Sht → Sht) : (s.onSht f).free = s.free := rfl
@[simp] theorem State.onSht_out (s : State) (f : Sht → Sht) : (s.onSht f).out = s.out := rfl
@[simp] theorem State.onSht_regs (s : State) (f : Sht → Sht) : (s.onSht f).regs = s.regs := rfl
@[simp] theorem State.onSht_trd (s : State) (f : Sht → Sht) : (s.onSht f).trd = s.trd := rfl
@[simp] theorem State.onSht_boot (s : State) (f : Sht → Sht) : (s.onSht f).boot = s.boot := rfl
@[simp] theorem State.onSht_hif (s : State) (f : Sht → Sht) : (s.onSht f).hif = s.hif := rfl
@[simp] theorem State.onSht_ten (s : State) (f : Sht → Sht) : (s.onSht f).ten = s.ten := rfl
@[simp] theorem State.onSht_looms (s : State) (f : Sht → Sht) : (s.onSht f).looms = s.looms := rfl
@[simp] theorem State.onSht_mem (s : State) (f : Sht → Sht) : (s.onSht f).mem = s.mem := rfl
@[simp] theorem State.onSht_sht (s : State) (f : Sht → Sht) : (s.onSht f).sht = f s.sht := rfl
@[simp] theorem State.onSht_pic (s : State) (f : Sht → Sht) : (s.onSht f).pic = s.pic := rfl
@[simp] theorem State.onSht_kv (s : State) (f : Sht → Sht) : (s.onSht f).kv = s.kv := rfl
@[simp] theorem State.onSht_scn (s : State) (f : Sht → Sht) : (s.onSht f).scn = s.scn := rfl
@[simp] theorem State.onSht_pwr (s : State) (f : Sht → Sht) : (s.onSht f).pwr = s.pwr := rfl
@[simp] theorem State.onSht_slv (s : State) (f : Sht → Sht) : (s.onSht f).slv = s.slv := rfl
@[simp] theorem State.onSht_jtag (s : State) (f : Sht → Sht) : (s.onSht f).jtag = s.jtag := rfl

@[simp] theorem State.onPic_pending (s : State) (f : Pic → Pic) : (s.onPic f).pending = s.pending := rfl
@[simp] theorem State.onPic_free (s : State) (f : Pic → Pic) : (s.onPic f).free = s.free := rfl
@[simp] theorem State.onPic_out (s : State) (f : Pic → Pic) : (s.onPic f).out = s.out := rfl
@[simp] theorem State.onPic_regs (s : State) (f : Pic → Pic) : (s.onPic f).regs = s.regs := rfl
@[simp] theorem State.onPic_trd (s : State) (f : Pic → Pic) : (s.onPic f).trd = s.trd := rfl
@[simp] theorem State.onPic_boot (s : State) (f : Pic → Pic) : (s.onPic f).boot = s.boot := rfl
@[simp] theorem State.onPic_hif (s : State) (f : Pic → Pic) : (s.onPic f).hif = s.hif := rfl
@[simp] theorem State.onPic_ten (s : State) (f : Pic → Pic) : (s.onPic f).ten = s.ten := rfl
@[simp] theorem State.onPic_looms (s : State) (f : Pic → Pic) : (s.onPic f).looms = s.looms := rfl
@[simp] theorem State.onPic_mem (s : State) (f : Pic → Pic) : (s.onPic f).mem = s.mem := rfl
@[simp] theorem State.onPic_sht (s : State) (f : Pic → Pic) : (s.onPic f).sht = s.sht := rfl
@[simp] theorem State.onPic_pic (s : State) (f : Pic → Pic) : (s.onPic f).pic = f s.pic := rfl
@[simp] theorem State.onPic_kv (s : State) (f : Pic → Pic) : (s.onPic f).kv = s.kv := rfl
@[simp] theorem State.onPic_scn (s : State) (f : Pic → Pic) : (s.onPic f).scn = s.scn := rfl
@[simp] theorem State.onPic_pwr (s : State) (f : Pic → Pic) : (s.onPic f).pwr = s.pwr := rfl
@[simp] theorem State.onPic_slv (s : State) (f : Pic → Pic) : (s.onPic f).slv = s.slv := rfl
@[simp] theorem State.onPic_jtag (s : State) (f : Pic → Pic) : (s.onPic f).jtag = s.jtag := rfl

@[simp] theorem State.onKv_pending (s : State) (f : Kv → Kv) : (s.onKv f).pending = s.pending := rfl
@[simp] theorem State.onKv_free (s : State) (f : Kv → Kv) : (s.onKv f).free = s.free := rfl
@[simp] theorem State.onKv_out (s : State) (f : Kv → Kv) : (s.onKv f).out = s.out := rfl
@[simp] theorem State.onKv_regs (s : State) (f : Kv → Kv) : (s.onKv f).regs = s.regs := rfl
@[simp] theorem State.onKv_trd (s : State) (f : Kv → Kv) : (s.onKv f).trd = s.trd := rfl
@[simp] theorem State.onKv_boot (s : State) (f : Kv → Kv) : (s.onKv f).boot = s.boot := rfl
@[simp] theorem State.onKv_hif (s : State) (f : Kv → Kv) : (s.onKv f).hif = s.hif := rfl
@[simp] theorem State.onKv_ten (s : State) (f : Kv → Kv) : (s.onKv f).ten = s.ten := rfl
@[simp] theorem State.onKv_looms (s : State) (f : Kv → Kv) : (s.onKv f).looms = s.looms := rfl
@[simp] theorem State.onKv_mem (s : State) (f : Kv → Kv) : (s.onKv f).mem = s.mem := rfl
@[simp] theorem State.onKv_sht (s : State) (f : Kv → Kv) : (s.onKv f).sht = s.sht := rfl
@[simp] theorem State.onKv_pic (s : State) (f : Kv → Kv) : (s.onKv f).pic = s.pic := rfl
@[simp] theorem State.onKv_kv (s : State) (f : Kv → Kv) : (s.onKv f).kv = f s.kv := rfl
@[simp] theorem State.onKv_scn (s : State) (f : Kv → Kv) : (s.onKv f).scn = s.scn := rfl
@[simp] theorem State.onKv_pwr (s : State) (f : Kv → Kv) : (s.onKv f).pwr = s.pwr := rfl
@[simp] theorem State.onKv_slv (s : State) (f : Kv → Kv) : (s.onKv f).slv = s.slv := rfl
@[simp] theorem State.onKv_jtag (s : State) (f : Kv → Kv) : (s.onKv f).jtag = s.jtag := rfl

@[simp] theorem State.onScn_pending (s : State) (f : Scn → Scn) : (s.onScn f).pending = s.pending := rfl
@[simp] theorem State.onScn_free (s : State) (f : Scn → Scn) : (s.onScn f).free = s.free := rfl
@[simp] theorem State.onScn_out (s : State) (f : Scn → Scn) : (s.onScn f).out = s.out := rfl
@[simp] theorem State.onScn_regs (s : State) (f : Scn → Scn) : (s.onScn f).regs = s.regs := rfl
@[simp] theorem State.onScn_trd (s : State) (f : Scn → Scn) : (s.onScn f).trd = s.trd := rfl
@[simp] theorem State.onScn_boot (s : State) (f : Scn → Scn) : (s.onScn f).boot = s.boot := rfl
@[simp] theorem State.onScn_hif (s : State) (f : Scn → Scn) : (s.onScn f).hif = s.hif := rfl
@[simp] theorem State.onScn_ten (s : State) (f : Scn → Scn) : (s.onScn f).ten = s.ten := rfl
@[simp] theorem State.onScn_looms (s : State) (f : Scn → Scn) : (s.onScn f).looms = s.looms := rfl
@[simp] theorem State.onScn_mem (s : State) (f : Scn → Scn) : (s.onScn f).mem = s.mem := rfl
@[simp] theorem State.onScn_sht (s : State) (f : Scn → Scn) : (s.onScn f).sht = s.sht := rfl
@[simp] theorem State.onScn_pic (s : State) (f : Scn → Scn) : (s.onScn f).pic = s.pic := rfl
@[simp] theorem State.onScn_kv (s : State) (f : Scn → Scn) : (s.onScn f).kv = s.kv := rfl
@[simp] theorem State.onScn_scn (s : State) (f : Scn → Scn) : (s.onScn f).scn = f s.scn := rfl
@[simp] theorem State.onScn_pwr (s : State) (f : Scn → Scn) : (s.onScn f).pwr = s.pwr := rfl
@[simp] theorem State.onScn_slv (s : State) (f : Scn → Scn) : (s.onScn f).slv = s.slv := rfl
@[simp] theorem State.onScn_jtag (s : State) (f : Scn → Scn) : (s.onScn f).jtag = s.jtag := rfl

@[simp] theorem State.onPwr_pending (s : State) (f : Pwr → Pwr) : (s.onPwr f).pending = s.pending := rfl
@[simp] theorem State.onPwr_free (s : State) (f : Pwr → Pwr) : (s.onPwr f).free = s.free := rfl
@[simp] theorem State.onPwr_out (s : State) (f : Pwr → Pwr) : (s.onPwr f).out = s.out := rfl
@[simp] theorem State.onPwr_regs (s : State) (f : Pwr → Pwr) : (s.onPwr f).regs = s.regs := rfl
@[simp] theorem State.onPwr_trd (s : State) (f : Pwr → Pwr) : (s.onPwr f).trd = s.trd := rfl
@[simp] theorem State.onPwr_boot (s : State) (f : Pwr → Pwr) : (s.onPwr f).boot = s.boot := rfl
@[simp] theorem State.onPwr_hif (s : State) (f : Pwr → Pwr) : (s.onPwr f).hif = s.hif := rfl
@[simp] theorem State.onPwr_ten (s : State) (f : Pwr → Pwr) : (s.onPwr f).ten = s.ten := rfl
@[simp] theorem State.onPwr_looms (s : State) (f : Pwr → Pwr) : (s.onPwr f).looms = s.looms := rfl
@[simp] theorem State.onPwr_mem (s : State) (f : Pwr → Pwr) : (s.onPwr f).mem = s.mem := rfl
@[simp] theorem State.onPwr_sht (s : State) (f : Pwr → Pwr) : (s.onPwr f).sht = s.sht := rfl
@[simp] theorem State.onPwr_pic (s : State) (f : Pwr → Pwr) : (s.onPwr f).pic = s.pic := rfl
@[simp] theorem State.onPwr_kv (s : State) (f : Pwr → Pwr) : (s.onPwr f).kv = s.kv := rfl
@[simp] theorem State.onPwr_scn (s : State) (f : Pwr → Pwr) : (s.onPwr f).scn = s.scn := rfl
@[simp] theorem State.onPwr_pwr (s : State) (f : Pwr → Pwr) : (s.onPwr f).pwr = f s.pwr := rfl
@[simp] theorem State.onPwr_slv (s : State) (f : Pwr → Pwr) : (s.onPwr f).slv = s.slv := rfl
@[simp] theorem State.onPwr_jtag (s : State) (f : Pwr → Pwr) : (s.onPwr f).jtag = s.jtag := rfl

@[simp] theorem State.onSlv_pending (s : State) (f : Slv → Slv) : (s.onSlv f).pending = s.pending := rfl
@[simp] theorem State.onSlv_free (s : State) (f : Slv → Slv) : (s.onSlv f).free = s.free := rfl
@[simp] theorem State.onSlv_out (s : State) (f : Slv → Slv) : (s.onSlv f).out = s.out := rfl
@[simp] theorem State.onSlv_regs (s : State) (f : Slv → Slv) : (s.onSlv f).regs = s.regs := rfl
@[simp] theorem State.onSlv_trd (s : State) (f : Slv → Slv) : (s.onSlv f).trd = s.trd := rfl
@[simp] theorem State.onSlv_boot (s : State) (f : Slv → Slv) : (s.onSlv f).boot = s.boot := rfl
@[simp] theorem State.onSlv_hif (s : State) (f : Slv → Slv) : (s.onSlv f).hif = s.hif := rfl
@[simp] theorem State.onSlv_ten (s : State) (f : Slv → Slv) : (s.onSlv f).ten = s.ten := rfl
@[simp] theorem State.onSlv_looms (s : State) (f : Slv → Slv) : (s.onSlv f).looms = s.looms := rfl
@[simp] theorem State.onSlv_mem (s : State) (f : Slv → Slv) : (s.onSlv f).mem = s.mem := rfl
@[simp] theorem State.onSlv_sht (s : State) (f : Slv → Slv) : (s.onSlv f).sht = s.sht := rfl
@[simp] theorem State.onSlv_pic (s : State) (f : Slv → Slv) : (s.onSlv f).pic = s.pic := rfl
@[simp] theorem State.onSlv_kv (s : State) (f : Slv → Slv) : (s.onSlv f).kv = s.kv := rfl
@[simp] theorem State.onSlv_scn (s : State) (f : Slv → Slv) : (s.onSlv f).scn = s.scn := rfl
@[simp] theorem State.onSlv_pwr (s : State) (f : Slv → Slv) : (s.onSlv f).pwr = s.pwr := rfl
@[simp] theorem State.onSlv_slv (s : State) (f : Slv → Slv) : (s.onSlv f).slv = f s.slv := rfl
@[simp] theorem State.onSlv_jtag (s : State) (f : Slv → Slv) : (s.onSlv f).jtag = s.jtag := rfl

@[simp] theorem State.onJtag_pending (s : State) (f : Jtag → Jtag) : (s.onJtag f).pending = s.pending := rfl
@[simp] theorem State.onJtag_free (s : State) (f : Jtag → Jtag) : (s.onJtag f).free = s.free := rfl
@[simp] theorem State.onJtag_out (s : State) (f : Jtag → Jtag) : (s.onJtag f).out = s.out := rfl
@[simp] theorem State.onJtag_regs (s : State) (f : Jtag → Jtag) : (s.onJtag f).regs = s.regs := rfl
@[simp] theorem State.onJtag_trd (s : State) (f : Jtag → Jtag) : (s.onJtag f).trd = s.trd := rfl
@[simp] theorem State.onJtag_boot (s : State) (f : Jtag → Jtag) : (s.onJtag f).boot = s.boot := rfl
@[simp] theorem State.onJtag_hif (s : State) (f : Jtag → Jtag) : (s.onJtag f).hif = s.hif := rfl
@[simp] theorem State.onJtag_ten (s : State) (f : Jtag → Jtag) : (s.onJtag f).ten = s.ten := rfl
@[simp] theorem State.onJtag_looms (s : State) (f : Jtag → Jtag) : (s.onJtag f).looms = s.looms := rfl
@[simp] theorem State.onJtag_mem (s : State) (f : Jtag → Jtag) : (s.onJtag f).mem = s.mem := rfl
@[simp] theorem State.onJtag_sht (s : State) (f : Jtag → Jtag) : (s.onJtag f).sht = s.sht := rfl
@[simp] theorem State.onJtag_pic (s : State) (f : Jtag → Jtag) : (s.onJtag f).pic = s.pic := rfl
@[simp] theorem State.onJtag_kv (s : State) (f : Jtag → Jtag) : (s.onJtag f).kv = s.kv := rfl
@[simp] theorem State.onJtag_scn (s : State) (f : Jtag → Jtag) : (s.onJtag f).scn = s.scn := rfl
@[simp] theorem State.onJtag_pwr (s : State) (f : Jtag → Jtag) : (s.onJtag f).pwr = s.pwr := rfl
@[simp] theorem State.onJtag_slv (s : State) (f : Jtag → Jtag) : (s.onJtag f).slv = s.slv := rfl
@[simp] theorem State.onJtag_jtag (s : State) (f : Jtag → Jtag) : (s.onJtag f).jtag = f s.jtag := rfl

@[simp] theorem State.onLooms_pending (s : State) (f : Loom → Loom) : (s.onLooms f).pending = s.pending := rfl
@[simp] theorem State.onLooms_free (s : State) (f : Loom → Loom) : (s.onLooms f).free = s.free := rfl
@[simp] theorem State.onLooms_out (s : State) (f : Loom → Loom) : (s.onLooms f).out = s.out := rfl
@[simp] theorem State.onLooms_regs (s : State) (f : Loom → Loom) : (s.onLooms f).regs = s.regs := rfl
@[simp] theorem State.onLooms_trd (s : State) (f : Loom → Loom) : (s.onLooms f).trd = s.trd := rfl
@[simp] theorem State.onLooms_boot (s : State) (f : Loom → Loom) : (s.onLooms f).boot = s.boot := rfl
@[simp] theorem State.onLooms_hif (s : State) (f : Loom → Loom) : (s.onLooms f).hif = s.hif := rfl
@[simp] theorem State.onLooms_ten (s : State) (f : Loom → Loom) : (s.onLooms f).ten = s.ten := rfl
@[simp] theorem State.onLooms_looms (s : State) (f : Loom → Loom) : (s.onLooms f).looms = s.looms.map f := rfl
@[simp] theorem State.onLooms_mem (s : State) (f : Loom → Loom) : (s.onLooms f).mem = s.mem := rfl
@[simp] theorem State.onLooms_sht (s : State) (f : Loom → Loom) : (s.onLooms f).sht = s.sht := rfl
@[simp] theorem State.onLooms_pic (s : State) (f : Loom → Loom) : (s.onLooms f).pic = s.pic := rfl
@[simp] theorem State.onLooms_kv (s : State) (f : Loom → Loom) : (s.onLooms f).kv = s.kv := rfl
@[simp] theorem State.onLooms_scn (s : State) (f : Loom → Loom) : (s.onLooms f).scn = s.scn := rfl
@[simp] theorem State.onLooms_pwr (s : State) (f : Loom → Loom) : (s.onLooms f).pwr = s.pwr := rfl
@[simp] theorem State.onLooms_slv (s : State) (f : Loom → Loom) : (s.onLooms f).slv = s.slv := rfl
@[simp] theorem State.onLooms_jtag (s : State) (f : Loom → Loom) : (s.onLooms f).jtag = s.jtag := rfl

@[simp] theorem State.onLoom_pending (s : State) (p : Nat) (f : Loom → Loom) : (s.onLoom p f).pending = s.pending := rfl
@[simp] theorem State.onLoom_free (s : State) (p : Nat) (f : Loom → Loom) : (s.onLoom p f).free = s.free := rfl
@[simp] theorem State.onLoom_out (s : State) (p : Nat) (f : Loom → Loom) : (s.onLoom p f).out = s.out := rfl
@[simp] theorem State.onLoom_regs (s : State) (p : Nat) (f : Loom → Loom) : (s.onLoom p f).regs = s.regs := rfl
@[simp] theorem State.onLoom_trd (s : State) (p : Nat) (f : Loom → Loom) : (s.onLoom p f).trd = s.trd := rfl
@[simp] theorem State.onLoom_boot (s : State) (p : Nat) (f : Loom → Loom) : (s.onLoom p f).boot = s.boot := rfl
@[simp] theorem State.onLoom_hif (s : State) (p : Nat) (f : Loom → Loom) : (s.onLoom p f).hif = s.hif := rfl
@[simp] theorem State.onLoom_ten (s : State) (p : Nat) (f : Loom → Loom) : (s.onLoom p f).ten = s.ten := rfl
@[simp] theorem State.onLoom_looms (s : State) (p : Nat) (f : Loom → Loom) : (s.onLoom p f).looms = s.looms.modify p f := rfl
@[simp] theorem State.onLoom_mem (s : State) (p : Nat) (f : Loom → Loom) : (s.onLoom p f).mem = s.mem := rfl
@[simp] theorem State.onLoom_sht (s : State) (p : Nat) (f : Loom → Loom) : (s.onLoom p f).sht = s.sht := rfl
@[simp] theorem State.onLoom_pic (s : State) (p : Nat) (f : Loom → Loom) : (s.onLoom p f).pic = s.pic := rfl
@[simp] theorem State.onLoom_kv (s : State) (p : Nat) (f : Loom → Loom) : (s.onLoom p f).kv = s.kv := rfl
@[simp] theorem State.onLoom_scn (s : State) (p : Nat) (f : Loom → Loom) : (s.onLoom p f).scn = s.scn := rfl
@[simp] theorem State.onLoom_pwr (s : State) (p : Nat) (f : Loom → Loom) : (s.onLoom p f).pwr = s.pwr := rfl
@[simp] theorem State.onLoom_slv (s : State) (p : Nat) (f : Loom → Loom) : (s.onLoom p f).slv = s.slv := rfl
@[simp] theorem State.onLoom_jtag (s : State) (p : Nat) (f : Loom → Loom) : (s.onLoom p f).jtag = s.jtag := rfl

@[simp] theorem State.bump_pending (s : State) (o : Nat) : (s.bump o).pending = s.pending := by unfold State.bump; split <;> rfl
@[simp] theorem State.bump_free (s : State) (o : Nat) : (s.bump o).free = s.free := by unfold State.bump; split <;> rfl
@[simp] theorem State.bump_out (s : State) (o : Nat) : (s.bump o).out = s.out := by unfold State.bump; split <;> rfl
@[simp] theorem State.bump_trd (s : State) (o : Nat) : (s.bump o).trd = s.trd := by unfold State.bump; split <;> rfl
@[simp] theorem State.bump_boot (s : State) (o : Nat) : (s.bump o).boot = s.boot := by unfold State.bump; split <;> rfl
@[simp] theorem State.bump_hif (s : State) (o : Nat) : (s.bump o).hif = s.hif := by unfold State.bump; split <;> rfl
@[simp] theorem State.bump_ten (s : State) (o : Nat) : (s.bump o).ten = s.ten := by unfold State.bump; split <;> rfl
@[simp] theorem State.bump_looms (s : State) (o : Nat) : (s.bump o).looms = s.looms := by unfold State.bump; split <;> rfl
@[simp] theorem State.bump_mem (s : State) (o : Nat) : (s.bump o).mem = s.mem := by unfold State.bump; split <;> rfl
@[simp] theorem State.bump_sht (s : State) (o : Nat) : (s.bump o).sht = s.sht := by unfold State.bump; split <;> rfl
@[simp] theorem State.bump_pic (s : State) (o : Nat) : (s.bump o).pic = s.pic := by unfold State.bump; split <;> rfl
@[simp] theorem State.bump_kv (s : State) (o : Nat) : (s.bump o).kv = s.kv := by unfold State.bump; split <;> rfl
@[simp] theorem State.bump_scn (s : State) (o : Nat) : (s.bump o).scn = s.scn := by unfold State.bump; split <;> rfl
@[simp] theorem State.bump_pwr (s : State) (o : Nat) : (s.bump o).pwr = s.pwr := by unfold State.bump; split <;> rfl
@[simp] theorem State.bump_slv (s : State) (o : Nat) : (s.bump o).slv = s.slv := by unfold State.bump; split <;> rfl
@[simp] theorem State.bump_jtag (s : State) (o : Nat) : (s.bump o).jtag = s.jtag := by unfold State.bump; split <;> rfl

@[simp] theorem State.plainWrite_pending (s : State) (o : Nat) (v : Word) : (s.plainWrite o v).pending = s.pending := by unfold State.plainWrite; split <;> rfl
@[simp] theorem State.plainWrite_free (s : State) (o : Nat) (v : Word) : (s.plainWrite o v).free = s.free := by unfold State.plainWrite; split <;> rfl
@[simp] theorem State.plainWrite_out (s : State) (o : Nat) (v : Word) : (s.plainWrite o v).out = s.out := by unfold State.plainWrite; split <;> rfl
@[simp] theorem State.plainWrite_trd (s : State) (o : Nat) (v : Word) : (s.plainWrite o v).trd = s.trd := by unfold State.plainWrite; split <;> rfl
@[simp] theorem State.plainWrite_boot (s : State) (o : Nat) (v : Word) : (s.plainWrite o v).boot = s.boot := by unfold State.plainWrite; split <;> rfl
@[simp] theorem State.plainWrite_hif (s : State) (o : Nat) (v : Word) : (s.plainWrite o v).hif = s.hif := by unfold State.plainWrite; split <;> rfl
@[simp] theorem State.plainWrite_ten (s : State) (o : Nat) (v : Word) : (s.plainWrite o v).ten = s.ten := by unfold State.plainWrite; split <;> rfl
@[simp] theorem State.plainWrite_looms (s : State) (o : Nat) (v : Word) : (s.plainWrite o v).looms = s.looms := by unfold State.plainWrite; split <;> rfl
@[simp] theorem State.plainWrite_mem (s : State) (o : Nat) (v : Word) : (s.plainWrite o v).mem = s.mem := by unfold State.plainWrite; split <;> rfl
@[simp] theorem State.plainWrite_sht (s : State) (o : Nat) (v : Word) : (s.plainWrite o v).sht = s.sht := by unfold State.plainWrite; split <;> rfl
@[simp] theorem State.plainWrite_pic (s : State) (o : Nat) (v : Word) : (s.plainWrite o v).pic = s.pic := by unfold State.plainWrite; split <;> rfl
@[simp] theorem State.plainWrite_kv (s : State) (o : Nat) (v : Word) : (s.plainWrite o v).kv = s.kv := by unfold State.plainWrite; split <;> rfl
@[simp] theorem State.plainWrite_scn (s : State) (o : Nat) (v : Word) : (s.plainWrite o v).scn = s.scn := by unfold State.plainWrite; split <;> rfl
@[simp] theorem State.plainWrite_pwr (s : State) (o : Nat) (v : Word) : (s.plainWrite o v).pwr = s.pwr := by unfold State.plainWrite; split <;> rfl
@[simp] theorem State.plainWrite_slv (s : State) (o : Nat) (v : Word) : (s.plainWrite o v).slv = s.slv := by unfold State.plainWrite; split <;> rfl
@[simp] theorem State.plainWrite_jtag (s : State) (o : Nat) (v : Word) : (s.plainWrite o v).jtag = s.jtag := by unfold State.plainWrite; split <;> rfl

@[simp] theorem State.bumps_pending (s : State) (o n : Nat) : (s.bumps o n).pending = s.pending := by
  induction n generalizing s with
  | zero => rfl
  | succ n ih => rw [State.bumps, ih, State.bump_pending]
@[simp] theorem State.bumps_free (s : State) (o n : Nat) : (s.bumps o n).free = s.free := by
  induction n generalizing s with
  | zero => rfl
  | succ n ih => rw [State.bumps, ih, State.bump_free]
@[simp] theorem State.bumps_out (s : State) (o n : Nat) : (s.bumps o n).out = s.out := by
  induction n generalizing s with
  | zero => rfl
  | succ n ih => rw [State.bumps, ih, State.bump_out]
@[simp] theorem State.bumps_trd (s : State) (o n : Nat) : (s.bumps o n).trd = s.trd := by
  induction n generalizing s with
  | zero => rfl
  | succ n ih => rw [State.bumps, ih, State.bump_trd]
@[simp] theorem State.bumps_boot (s : State) (o n : Nat) : (s.bumps o n).boot = s.boot := by
  induction n generalizing s with
  | zero => rfl
  | succ n ih => rw [State.bumps, ih, State.bump_boot]
@[simp] theorem State.bumps_hif (s : State) (o n : Nat) : (s.bumps o n).hif = s.hif := by
  induction n generalizing s with
  | zero => rfl
  | succ n ih => rw [State.bumps, ih, State.bump_hif]
@[simp] theorem State.bumps_ten (s : State) (o n : Nat) : (s.bumps o n).ten = s.ten := by
  induction n generalizing s with
  | zero => rfl
  | succ n ih => rw [State.bumps, ih, State.bump_ten]
@[simp] theorem State.bumps_looms (s : State) (o n : Nat) : (s.bumps o n).looms = s.looms := by
  induction n generalizing s with
  | zero => rfl
  | succ n ih => rw [State.bumps, ih, State.bump_looms]
@[simp] theorem State.bumps_mem (s : State) (o n : Nat) : (s.bumps o n).mem = s.mem := by
  induction n generalizing s with
  | zero => rfl
  | succ n ih => rw [State.bumps, ih, State.bump_mem]
@[simp] theorem State.bumps_sht (s : State) (o n : Nat) : (s.bumps o n).sht = s.sht := by
  induction n generalizing s with
  | zero => rfl
  | succ n ih => rw [State.bumps, ih, State.bump_sht]
@[simp] theorem State.bumps_pic (s : State) (o n : Nat) : (s.bumps o n).pic = s.pic := by
  induction n generalizing s with
  | zero => rfl
  | succ n ih => rw [State.bumps, ih, State.bump_pic]
@[simp] theorem State.bumps_kv (s : State) (o n : Nat) : (s.bumps o n).kv = s.kv := by
  induction n generalizing s with
  | zero => rfl
  | succ n ih => rw [State.bumps, ih, State.bump_kv]
@[simp] theorem State.bumps_scn (s : State) (o n : Nat) : (s.bumps o n).scn = s.scn := by
  induction n generalizing s with
  | zero => rfl
  | succ n ih => rw [State.bumps, ih, State.bump_scn]
@[simp] theorem State.bumps_pwr (s : State) (o n : Nat) : (s.bumps o n).pwr = s.pwr := by
  induction n generalizing s with
  | zero => rfl
  | succ n ih => rw [State.bumps, ih, State.bump_pwr]
@[simp] theorem State.bumps_slv (s : State) (o n : Nat) : (s.bumps o n).slv = s.slv := by
  induction n generalizing s with
  | zero => rfl
  | succ n ih => rw [State.bumps, ih, State.bump_slv]
@[simp] theorem State.bumps_jtag (s : State) (o n : Nat) : (s.bumps o n).jtag = s.jtag := by
  induction n generalizing s with
  | zero => rfl
  | succ n ih => rw [State.bumps, ih, State.bump_jtag]

@[simp] theorem State.emit_rd (s : State) (n : Nat) (m : OutMsg) (q : Nat) : (s.emit n m).rd q = s.rd q := rfl
@[simp] theorem State.emit_fld (s : State) (n : Nat) (m : OutMsg) (q : Nat) (g : Field) : (s.emit n m).fld q g = s.fld q g := rfl
@[simp] theorem State.emit_bit (s : State) (n : Nat) (m : OutMsg) (q : Nat) (g : Field) : (s.emit n m).bit q g = s.bit q g := rfl
@[simp] theorem State.onTrd_rd (s : State) (f : Trd → Trd) (q : Nat) : (s.onTrd f).rd q = s.rd q := rfl
@[simp] theorem State.onTrd_fld (s : State) (f : Trd → Trd) (q : Nat) (g : Field) : (s.onTrd f).fld q g = s.fld q g := rfl
@[simp] theorem State.onTrd_bit (s : State) (f : Trd → Trd) (q : Nat) (g : Field) : (s.onTrd f).bit q g = s.bit q g := rfl
@[simp] theorem State.onBoot_rd (s : State) (f : Boot → Boot) (q : Nat) : (s.onBoot f).rd q = s.rd q := rfl
@[simp] theorem State.onBoot_fld (s : State) (f : Boot → Boot) (q : Nat) (g : Field) : (s.onBoot f).fld q g = s.fld q g := rfl
@[simp] theorem State.onBoot_bit (s : State) (f : Boot → Boot) (q : Nat) (g : Field) : (s.onBoot f).bit q g = s.bit q g := rfl
@[simp] theorem State.onHif_rd (s : State) (f : Hif → Hif) (q : Nat) : (s.onHif f).rd q = s.rd q := rfl
@[simp] theorem State.onHif_fld (s : State) (f : Hif → Hif) (q : Nat) (g : Field) : (s.onHif f).fld q g = s.fld q g := rfl
@[simp] theorem State.onHif_bit (s : State) (f : Hif → Hif) (q : Nat) (g : Field) : (s.onHif f).bit q g = s.bit q g := rfl
@[simp] theorem State.onTen_rd (s : State) (f : Ten → Ten) (q : Nat) : (s.onTen f).rd q = s.rd q := rfl
@[simp] theorem State.onTen_fld (s : State) (f : Ten → Ten) (q : Nat) (g : Field) : (s.onTen f).fld q g = s.fld q g := rfl
@[simp] theorem State.onTen_bit (s : State) (f : Ten → Ten) (q : Nat) (g : Field) : (s.onTen f).bit q g = s.bit q g := rfl
@[simp] theorem State.onMem_rd (s : State) (f : Mem → Mem) (q : Nat) : (s.onMem f).rd q = s.rd q := rfl
@[simp] theorem State.onMem_fld (s : State) (f : Mem → Mem) (q : Nat) (g : Field) : (s.onMem f).fld q g = s.fld q g := rfl
@[simp] theorem State.onMem_bit (s : State) (f : Mem → Mem) (q : Nat) (g : Field) : (s.onMem f).bit q g = s.bit q g := rfl
@[simp] theorem State.onSht_rd (s : State) (f : Sht → Sht) (q : Nat) : (s.onSht f).rd q = s.rd q := rfl
@[simp] theorem State.onSht_fld (s : State) (f : Sht → Sht) (q : Nat) (g : Field) : (s.onSht f).fld q g = s.fld q g := rfl
@[simp] theorem State.onSht_bit (s : State) (f : Sht → Sht) (q : Nat) (g : Field) : (s.onSht f).bit q g = s.bit q g := rfl
@[simp] theorem State.onPic_rd (s : State) (f : Pic → Pic) (q : Nat) : (s.onPic f).rd q = s.rd q := rfl
@[simp] theorem State.onPic_fld (s : State) (f : Pic → Pic) (q : Nat) (g : Field) : (s.onPic f).fld q g = s.fld q g := rfl
@[simp] theorem State.onPic_bit (s : State) (f : Pic → Pic) (q : Nat) (g : Field) : (s.onPic f).bit q g = s.bit q g := rfl
@[simp] theorem State.onKv_rd (s : State) (f : Kv → Kv) (q : Nat) : (s.onKv f).rd q = s.rd q := rfl
@[simp] theorem State.onKv_fld (s : State) (f : Kv → Kv) (q : Nat) (g : Field) : (s.onKv f).fld q g = s.fld q g := rfl
@[simp] theorem State.onKv_bit (s : State) (f : Kv → Kv) (q : Nat) (g : Field) : (s.onKv f).bit q g = s.bit q g := rfl
@[simp] theorem State.onScn_rd (s : State) (f : Scn → Scn) (q : Nat) : (s.onScn f).rd q = s.rd q := rfl
@[simp] theorem State.onScn_fld (s : State) (f : Scn → Scn) (q : Nat) (g : Field) : (s.onScn f).fld q g = s.fld q g := rfl
@[simp] theorem State.onScn_bit (s : State) (f : Scn → Scn) (q : Nat) (g : Field) : (s.onScn f).bit q g = s.bit q g := rfl
@[simp] theorem State.onPwr_rd (s : State) (f : Pwr → Pwr) (q : Nat) : (s.onPwr f).rd q = s.rd q := rfl
@[simp] theorem State.onPwr_fld (s : State) (f : Pwr → Pwr) (q : Nat) (g : Field) : (s.onPwr f).fld q g = s.fld q g := rfl
@[simp] theorem State.onPwr_bit (s : State) (f : Pwr → Pwr) (q : Nat) (g : Field) : (s.onPwr f).bit q g = s.bit q g := rfl
@[simp] theorem State.onSlv_rd (s : State) (f : Slv → Slv) (q : Nat) : (s.onSlv f).rd q = s.rd q := rfl
@[simp] theorem State.onSlv_fld (s : State) (f : Slv → Slv) (q : Nat) (g : Field) : (s.onSlv f).fld q g = s.fld q g := rfl
@[simp] theorem State.onSlv_bit (s : State) (f : Slv → Slv) (q : Nat) (g : Field) : (s.onSlv f).bit q g = s.bit q g := rfl
@[simp] theorem State.onJtag_rd (s : State) (f : Jtag → Jtag) (q : Nat) : (s.onJtag f).rd q = s.rd q := rfl
@[simp] theorem State.onJtag_fld (s : State) (f : Jtag → Jtag) (q : Nat) (g : Field) : (s.onJtag f).fld q g = s.fld q g := rfl
@[simp] theorem State.onJtag_bit (s : State) (f : Jtag → Jtag) (q : Nat) (g : Field) : (s.onJtag f).bit q g = s.bit q g := rfl
@[simp] theorem State.onLooms_rd (s : State) (f : Loom → Loom) (q : Nat) : (s.onLooms f).rd q = s.rd q := rfl
@[simp] theorem State.onLooms_fld (s : State) (f : Loom → Loom) (q : Nat) (g : Field) : (s.onLooms f).fld q g = s.fld q g := rfl
@[simp] theorem State.onLooms_bit (s : State) (f : Loom → Loom) (q : Nat) (g : Field) : (s.onLooms f).bit q g = s.bit q g := rfl
@[simp] theorem State.onLoom_rd (s : State) (p : Nat) (f : Loom → Loom) (q : Nat) : (s.onLoom p f).rd q = s.rd q := rfl
@[simp] theorem State.onLoom_fld (s : State) (p : Nat) (f : Loom → Loom) (q : Nat) (g : Field) : (s.onLoom p f).fld q g = s.fld q g := rfl
@[simp] theorem State.onLoom_bit (s : State) (p : Nat) (f : Loom → Loom) (q : Nat) (g : Field) : (s.onLoom p f).bit q g = s.bit q g := rfl

end Sys2Proof.Machine
end

