-- ==== Sys2Proof/WellFormed.lean ====
section
/-! DEFINITION. The commands whose operands lie in the ranges the spec gives them: addresses inside their space, lengths a packet or a line can
have, and lists of the lengths their tables fix. -/

namespace Sys2Proof

/-- PF BAR0 (Table 3.5). -/
def barSize : Nat := 2 ^ 21

/-- The largest BAR2 (R135). -/
def apertureTop : Nat := 2 ^ 36

/-- Device physical addresses have 40 bits. -/
def paTop : Nat := 2 ^ 40

/-- A ring sequence number, a COLL_ID or a byte count of 32 bits. -/
def seqWf (seq : Nat) : Bool := decide (seq < 2 ^ 32)

/-- A page of a sequence: 16 tokens of a 32-bit length. -/
def pageWf (page : Nat) : Bool := decide (page < 2 ^ 28)

/-- A register access lies in its window (R129, Table 3.5). -/
def regAddrWf : RegAddr → Bool
  | .bar0 off => decide (off < barSize)
  | .window _ off => decide (off < 65536)

/-- A register access is aligned to 4 bytes. -/
def regAligned : RegAddr → Bool
  | .bar0 off => off % 4 == 0
  | .window _ off => off % 4 == 0

/-- A configuration request names what its capability can hold (Table 3.1). -/
def configWf : ConfigOp → Bool
  | .read off => decide (off < 4096)
  | .numVfs n => decide (n < 65536)
  | .pageSize v => decide (v < 2 ^ 32)
  | .bar off _ => [0x10, 0x14, 0x18, 0x1C, 0x20, 0x24, 0x224, 0x228].contains off
  | .maxPayload b => [128, 256, 512].contains b
  | .maxReadRequest b => [128, 256, 512, 1024, 2048, 4096].contains b
  | .busMaster _ | .memorySpace _ | .msix _ _ | .ariHierarchy _ | .vfMemorySpace _ | .ptmEnable _ | .ecrc _ _ | .clearPoisoned => true

/-- Bytes inside one 128-byte line. -/
def inLine (pa : Nat) (data : List Byte) : Bool := decide (1 ≤ data.length ∧ pa % 128 + data.length ≤ 128)

/-- No line, or a whole one. -/
def lineOpt : Option (List Byte) → Bool
  | some d => d.length == 128
  | none => true

/-- A timing whose lengths its registers can hold (Table 11.9). -/
def timingWf (t : Timing) : Bool :=
  [t.hActive, t.hFp, t.hSync, t.hBp, t.vActive, t.vFp, t.vSync, t.vBp].all (fun x => decide (x < 65536)) && decide (t.refresh < 2 ^ 18)

/-- What a poll group can read (R680). -/
def pollWf (p : PollGroup) : Bool :=
  p.phases.length == 4 && (match p.vout with
    | some v => decide (v < 1024)
    | none => true) && (match p.iout with
    | some v => decide (v < 65536)
    | none => true) && match p.fault with
    | some m => decide (m < 256)
    | none => true

/-- The well-formed commands. -/
def wellFormed : Instr → Bool
  | .pickBoundary => true
  | .cycSaturation => true
  | .hsyncInEdge _ => true
  | .vsyncInEdge => true
  | .holdoverEntry => true
  | .referenceChange => true
  | .frameAbort => true
  | .catchupFire => true
  | .gpioEdge _ _ => true
  | .slotArm _ _ => true
  | .slotDisarm _ _ => true
  | .fireNone _ => true
  | .fireFsyncSet _ => true
  | .fireFsyncClr _ => true
  | .fireFsyncPulse _ => true
  | .fsyncPulseEnd => true
  | .fireGpioSet _ => true
  | .fireGpioClr _ => true
  | .fireGpioToggle _ => true
  | .fireSnapshot _ => true
  | .fireCapture _ => true
  | .firePfMsix _ => true
  | .trdNowLoRead read => regAddrWf read.target && regAligned read.target
  | .pickStatClear => true
  | .gpioOwnChange _ => true
  | .fsyncIdleWrite _ => true
  | .doorbell _ _ _ => true
  | .ringEnable _ _ => true
  | .ringDisable _ _ => true
  | .descriptorReadIssue _ => true
  | .descriptorFetch _ ok bytes => !ok || bytes.length == 64
  | .dispatch => true
  | .deadlineMiss _ seq => seqWf seq
  | .executionStart _ seq _ => seqWf seq
  | .executionCap _ seq => seqWf seq
  | .descriptorComplete _ seq => seqWf seq
  | .completionRecord => true
  | .moderationTimerExpiry _ => true
  | .msixMessage _ => true
  | .msixUnmask _ => true
  | .heldMessageRelease _ => true
  | .tenStop _ => true
  | .tenStart _ => true
  | .drainComplete _ => true
  | .nop _ seq => seqWf seq
  | .fence _ seq => seqWf seq
  | .waitStamp _ seq => seqWf seq
  | .loomCfg _ seq => seqWf seq
  | .loomBist _ seq _ => seqWf seq
  | .loomFailure _ _ => true
  | .reexecution _ seq => seqWf seq
  | .loomRetire => true
  | .lomDenyWrite _ _ => true
  | .registerWrite _ target _ => regAddrWf target && regAligned target
  | .oddSizeAccess _ target len => regAddrWf target && decide (1 ≤ len ∧ len ≤ 4096) && (len != 4 || !regAligned target)
  | .counterClear off => decide (off < barSize) && off % 4 == 0
  | .configurationRequest fn what => decide (fn < 256) && configWf what
  | .unsupportedRequest _ => true
  | .poisonedWrite fn => decide (fn < 256)
  | .bar2Read off len => decide (off < apertureTop) && decide (1 ≤ len ∧ len ≤ 4096)
  | .bar2Completion => true
  | .bar2Write off data => decide (off < apertureTop) && decide (1 ≤ data.length ∧ data.length ≤ 512)
  | .resizableBarWrite size => decide (size < 64)
  | .vfEnableSet => true
  | .vfEnableClear => true
  | .perstAssert => true
  | .perstRelease => true
  | .d3hotEntry => true
  | .d0Return => true
  | .pfFlr => true
  | .vfFlr _ => true
  | .ptmDialogue => true
  | .ptmReq => true
  | .ptmResponse masterTime delay => decide (masterTime < 2 ^ 64) && decide (delay < 2 ^ 32)
  | .ptmTimeout => true
  | .sbWrite addr _ crc => decide (addr < 2 ^ 32) && decide (crc < 256)
  | .sbRead addr crc => decide (addr < 2 ^ 32) && decide (crc < 256)
  | .sbStatus => true
  | .sbUnknown cmd => decide (cmd < 256)
  | .sbEarlyEnd cmd readDone => (match cmd with
    | some c => decide (c < 256)
    | none => readDone.isNone) && match readDone with
    | some x => decide (x.1 < 2 ^ 32)
    | none => true
  | .hostInterfaceReady => true
  | .pcieLinkTrained speed width => decide (1 ≤ speed ∧ speed ≤ 4) && [1, 4, 8].contains width
  | .flowControlCredit _ => true
  | .sramZeroed => true
  | .dramTrained _ _ => true
  | .spoolRequest _ _ pa _ _ => decide (pa < paTop)
  | .spoolWrite _ _ pa data _ _ => decide (pa < paTop) && inLine pa data
  | .spoolFill pa recalled => decide (pa < paTop) && lineOpt recalled
  | .granuleZeroFill granule => decide (granule < paTop / 4096)
  | .directoryRead _ _ pa => decide (pa < paTop)
  | .directoryReadForWrite _ _ pa => decide (pa < paTop)
  | .directoryUpgrade _ pa => decide (pa < paTop)
  | .directoryEviction _ pa modified => decide (pa < paTop) && lineOpt modified
  | .snoop _ pa modified => decide (pa < paTop) && lineOpt modified
  | .evictionAck _ pa => decide (pa < paTop)
  | .slotGrant _ _ => true
  | .dramReturn _ _ => true
  | .refreshWindow _ _ => true
  | .forcedRefresh _ _ => true
  | .scrubStarve _ => true
  | .translation _ _ _ => true
  | .mmuInv _ => true
  | .mmuInvDone => true
  | .lineIssue _ => true
  | .bucketRefill => true
  | .channelHalt _ _ => true
  | .channelHeld _ seq => seqWf seq
  | .faultRecordWrite _ _ => true
  | .resume _ _ => true
  | .abortRecord _ _ => true
  | .chainForward _ _ => true
  | .farTierRead _ _ _ len pa ring seq => decide (ring < 1024) && seqWf seq && decide (pa < paTop) && decide (1 ≤ len ∧ len ≤ 4096)
  | .farTierWrite _ _ _ len pa ring seq => decide (ring < 1024) && seqWf seq && decide (pa < paTop) && decide (1 ≤ len ∧ len ≤ 4096)
  | .farTierCompletion _ _ data => decide (data.length ≤ 4096)
  | .matmul _ seq => seqWf seq
  | .eltwise _ seq => seqWf seq
  | .activate _ seq => seqWf seq
  | .reduce _ seq => seqWf seq
  | .softmax _ seq => seqWf seq
  | .norm _ seq => seqWf seq
  | .convert _ seq => seqWf seq
  | .copy _ seq => seqWf seq
  | .fill _ seq => seqWf seq
  | .gather _ seq => seqWf seq
  | .scatter _ seq => seqWf seq
  | .resetAssert _ => true
  | .resetRelease _ _ bistFailed => bistFailed.all fun p => decide (p < 34)
  | .powerDetect _ _ _ bistFailed => bistFailed.all fun p => decide (p < 34)
  | .thermalTrip => true
  | .fuseReadDone => true
  | .flashProbe answer _ => answer.octal.length == 48
  | .slotVerify _ => true
  | .configCommit edid => match edid with
    | some t => timingWf t
    | none => true
  | .bootTimingSwitch => true
  | .networkSectionLoaded _ => true
  | .enhancedSwitch => true
  | .devReset _ => true
  | .loaderRestart => true
  | .flashRead => true
  | .flashProgram => true
  | .flashErase4k => true
  | .flashErase64k => true
  | .flashCommandDone _ => true
  | .frameRecord _ ok bytes => !ok || bytes.length == 64
  | .selection => true
  | .recordRelease _ seq => seqWf seq
  | .readmit => true
  | .admissionComplete => true
  | .shedLaunch => true
  | .shedEnd darned => darned.all fun x => decide (x.1 < 16 ∧ x.2 < 960)
  | .shedDeadline => true
  | .tackShedComplete => true
  | .boxListBuild => true
  | .conv _ seq => seqWf seq
  | .convT _ seq => seqWf seq
  | .toPlanar _ seq => seqWf seq
  | .toPacked _ seq => seqWf seq
  | .pool _ seq => seqWf seq
  | .cropResize _ seq => seqWf seq
  | .paste _ seq => seqWf seq
  | .boxDecode _ seq => seqWf seq
  | .nms _ seq => seqWf seq
  | .attn _ seq => seqWf seq
  | .splitDecodeMerge _ seq => seqWf seq
  | .attnBwd _ seq => seqWf seq
  | .kvAppend _ seq => seqWf seq
  | .kvSeqOpen _ seq => seqWf seq
  | .kvSeqClose _ seq => seqWf seq
  | .kvSeqTruncate _ seq => seqWf seq
  | .kvPfxLookup _ seq => seqWf seq
  | .kvPfxInsert _ seq => seqWf seq
  | .kvPrefetch _ seq => seqWf seq
  | .kvWalk _ page => pageWf page
  | .spill _ page _ => pageWf page
  | .bringBack _ page => pageWf page
  | .seqEnable _ => true
  | .seqDisable _ => true
  | .seqInitDone => true
  | .seqKvtlbInv _ => true
  | .layerFetch _ => true
  | .lineCompose late => late.all fun x => decide (x.1 < 8 ∧ x.2 < 960)
  | .layerOffClear => true
  | .lineSend _ _ => true
  | .cmpCommit => true
  | .commitCopy => true
  | .apply => true
  | .timingChange => true
  | .underrunModeChange => true
  | .hpdRise _ => true
  | .hpdFall _ => true
  | .hpdIrq _ _ => true
  | .retrain _ => true
  | .linkTrained _ link _ => match link with
    | some x => decide (1 ≤ x.1 ∧ x.1 ≤ 7) && [1, 2, 4].contains x.2
    | none => true
  | .auxTransaction => true
  | .auxReply reply => match reply with
    | .ack count data => decide (count ≤ 16 ∧ data.length ≤ 16)
    | .nack | .defer => true
  | .auxTimeout => true
  | .enter => true
  | .prActive => true
  | .exit _ => true
  | .prExitFrame => true
  | .freezeCheck => true
  | .steeringTick reports iest vadc _ => reports.length == 256 && decide (iest < 65536 ∧ vadc < 1024)
  | .opChangeDown => true
  | .opChangeUp => true
  | .pollGroup poll => pollWf poll
  | .pmbusHostTransaction _ _ => true
  | .limitTick temps => temps.length == 40
  | .pressFire rail => decide (rail.mv < 1024)
  | .pressRelease injector => decide (injector.rail.mv < 1024)
  | .stretcherEngage reading => decide (reading.mv < 1024)
  | .stretcherDisengage => true
  | .idleGate _ => true
  | .wakeComplete _ => true
  | .rinseSlot => true
  | .calibrationUnit reading reference => decide (-4096 ≤ reading ∧ reading ≤ 4095) && decide (-4096 ≤ reference ∧ reference ≤ 4095)
  | .flashPatrolUnit => true
  | .passStarve _ => true
  | .frameSnapshot => true
  | .portTraining _ _ => true
  | .trainingRetry _ => true
  | .portUp _ => true
  | .portDown _ _ => true
  | .flitSlot _ => true
  | .flitReceive _ flit _ => flit.length == 32
  | .resendTimeout _ => true
  | .timeSend => true
  | .timeMessage _ _ => true
  | .inputStripSend _ seq => seqWf seq
  | .istrip _ => true
  | .mapStripSend shed layer west east => decide (shed < 65536 ∧ layer < 256) && west.length == east.length && decide (west.length < 2 ^ 32)
  | .mstrip _ => true
  | .hello _ _ x y _ meshW meshH => decide (x < 4 ∧ y < 4) && decide (1 ≤ meshW ∧ meshW ≤ 4) && decide (1 ≤ meshH ∧ meshH ≤ 4)
  | .echo _ => true
  | .echoReply _ => true
  | .ping _ => true
  | .pong _ => true
  | .pingTick => true
  | .allGather _ seq => seqWf seq
  | .reduceSum _ seq => seqWf seq
  | .ready _ _ collId op bytes => seqWf collId && decide (op < 256) && seqWf bytes
  | .readyResend _ seq => seqWf seq
  | .collData _ => true
  | .done _ _ collId => seqWf collId
  | .masterChange => true
  | .jtagTck _ _ _ => true

end Sys2Proof
end

