-- ==== Sys2Proof/Tests/Slice0.lean ====
section
/-! SUPPORT. Tests: an ill-formed command for each check, the spec's worked cases, and for each statement with hypotheses a state and
operands that meet them. -/

set_option Elab.async false

namespace Sys2Proof.Tests
open Sys2Proof Sys2Proof.Machine

/-! Ill-formed commands are refused. -/

theorem test_illformed_sequence_number : wellFormed (.nop 0 (2 ^ 32)) = false := by decide
theorem test_illformed_page : wellFormed (.kvWalk 0 (2 ^ 28)) = false := by decide
theorem test_illformed_offset : wellFormed (.registerWrite .pcie (.bar0 0x200000) 0) = false := by decide
theorem test_illformed_window_offset : wellFormed (.registerWrite .pcie (.window 0 0x10000) 0) = false := by decide
theorem test_illformed_alignment : wellFormed (.registerWrite .pcie (.bar0 6) 0) = false := by decide
theorem test_illformed_odd_size : wellFormed (.oddSizeAccess true (.bar0 0) 4) = false := by decide
theorem test_illformed_counter : wellFormed (.counterClear 2) = false := by decide
theorem test_illformed_function : wellFormed (.poisonedWrite 256) = false := by decide
theorem test_illformed_max_payload : wellFormed (.configurationRequest 0 (.maxPayload 1024)) = false := by decide
theorem test_illformed_max_read : wellFormed (.configurationRequest 0 (.maxReadRequest 8192)) = false := by decide
theorem test_illformed_aperture_length : wellFormed (.bar2Read 0 0) = false := by decide
theorem test_illformed_aperture_write : wellFormed (.bar2Write 0 []) = false := by decide
theorem test_illformed_bar_size : wellFormed (.resizableBarWrite 64) = false := by decide
theorem test_illformed_ptm_time : wellFormed (.ptmResponse (2 ^ 64) 0) = false := by decide
theorem test_illformed_sideband_address : wellFormed (.sbWrite (2 ^ 32) 0 0) = false := by decide
theorem test_illformed_sideband_crc : wellFormed (.sbRead 0 256) = false := by decide
theorem test_illformed_sideband_command : wellFormed (.sbUnknown 256) = false := by decide
theorem test_illformed_link_speed : wellFormed (.pcieLinkTrained 5 8) = false := by decide
theorem test_illformed_link_width : wellFormed (.pcieLinkTrained 4 2) = false := by decide
theorem test_illformed_address : wellFormed (.spoolRequest 0 0 (2 ^ 40) .live .none) = false := by decide
theorem test_illformed_line_write : wellFormed (.spoolWrite 0 0 127 [0, 0] .live false) = false := by decide
theorem test_illformed_snoop_line : wellFormed (.snoop 0 0 (some [])) = false := by decide
theorem test_illformed_granule : wellFormed (.granuleZeroFill (2 ^ 28)) = false := by decide
theorem test_illformed_far_length : wellFormed (.farTierRead 0 0 0 4097 0 0 0) = false := by decide
theorem test_illformed_descriptor : wellFormed (.descriptorFetch 0 true []) = false := by decide
theorem test_illformed_frame_record : wellFormed (.frameRecord 0 true []) = false := by decide
theorem test_illformed_bist : wellFormed (.resetRelease 0 0 [34]) = false := by decide
theorem test_illformed_edid : wellFormed (.configCommit (some { Timing.boot with hActive := 65536 })) = false := by decide
theorem test_illformed_darn_row : wellFormed (.shedEnd [(16, 0)]) = false := by decide
theorem test_illformed_late_layer : wellFormed (.lineCompose [(8, 0)]) = false := by decide
theorem test_illformed_port_link : wellFormed (.linkTrained 0 (some (8, 4)) false) = false := by decide
theorem test_illformed_aux : wellFormed (.auxReply (.ack 17 [])) = false := by decide
theorem test_illformed_reports : wellFormed (.steeringTick [] 0 0 true) = false := by decide
theorem test_illformed_temps : wellFormed (.limitTick []) = false := by decide
theorem test_illformed_poll : wellFormed (.pollGroup ⟨true, none, none, true, none, []⟩) = false := by decide
theorem test_illformed_press : wellFormed (.pressFire ⟨0, 1024⟩) = false := by decide
theorem test_illformed_release : wellFormed (.pressRelease ⟨⟨0, 1024⟩, true⟩) = false := by decide
theorem test_illformed_stretcher : wellFormed (.stretcherEngage ⟨0, 1024⟩) = false := by decide
theorem test_illformed_read : wellFormed (.trdNowLoRead ⟨.pcie, .bar0 2⟩) = false := by decide
theorem test_illformed_probe : wellFormed (.flashProbe ⟨[], []⟩ true) = false := by decide
theorem test_illformed_bar_offset : wellFormed (.configurationRequest 0 (.bar 0x12 0)) = false := by decide
theorem test_illformed_early_end : wellFormed (.sbEarlyEnd none (some (0, false))) = false := by decide
theorem test_illformed_calibration : wellFormed (.calibrationUnit 5000 0) = false := by decide
theorem test_illformed_flit : wellFormed (.flitReceive 0 [] true) = false := by decide
theorem test_illformed_strip : wellFormed (.mapStripSend 0 0 [0] []) = false := by decide
theorem test_illformed_mesh : wellFormed (.hello 0 1 0 4 true 4 4) = false := by decide
theorem test_illformed_collective : wellFormed (.ready 0 0 0 256 0) = false := by decide

/-! The spec's worked cases. -/

/-- W8K60 of Table 0.4. -/
def w8k60 : Timing :=
  { hActive := 7680, hFp := 48, hSync := 32, hBp := 240, vActive := 4320, vFp := 16, vSync := 8, vBp := 56, refresh := 60000, hsPol := false,
    vsPol := false }

/-- W8K120 of Table 0.4. -/
def w8k120 : Timing := { w8k60 with refresh := 120000 }

/-- The state after a command. -/
def after (c : Instr) (s : State) : State := match exec c s with
  | .next t => t
  | _ => s

/-- Worked case 1.1. -/
theorem test_stamp_bits : (⟨0x12, 2645, 17, 38⟩ : Stamp).bits = 0x001229551026 := by decide

/-- Worked case 1.2: 21 frames ahead is after, 32,768 with lower bits 0 is past. -/
theorem test_stamp_after : (⟨5, 0, 0, 0⟩ : Stamp).after ⟨0xFFF0, 0, 0, 0⟩ = true ∧ (⟨0x7FF0, 0, 0, 0⟩ : Stamp).after ⟨0xFFF0, 0, 0, 0⟩ = false := by
  decide

/-- Worked case 3.1: the second of two masters' writes stands. -/
theorem test_lost_update : (after (.registerWrite .sideband (.bar0 Reg.TRD_GPIO_OWN) 0x1F0#32)
    (after (.registerWrite .pcie (.bar0 Reg.TRD_GPIO_OWN) 0xF1#32) { State.reset with hif := { State.reset.hif with
      perstIn := false
      fns := [(0, { State.reset.fnCfg 0 with mse := true })] } })).rd Reg.TRD_GPIO_OWN = 0x1F0#32 := by decide +kernel

/-- Worked case 5.1: CCLK and footprint of a masked FP16 tile. -/
theorem test_tile_cycles : mxCycles 4 4 98 62 300 = 2005 := by decide
theorem test_tile_footprint : tileFootprint .fp16 .fp16 .fp16 98 62 300 = 136800 ∧ scratchBytes 1 = 1179648 := by decide

/-- Worked case 6.1. -/
theorem test_slice_of_address : sliceOf 0x234567880 = 5 ∧ chanLine 0x234567880 = 6164073 ∧ setOf 0x234567880 = 617 := by decide

/-- A dense reference of a format and shape. -/
def dense (fmt d0 d1 d2 : Nat) : TRef :=
  { base := 0, fmt := fmt, layout := 0, dim0 := d0, dim1 := d1, dim2 := d2, stride1 := 0, stride2 := 0, reserved := false }

/-- Worked case 8.2: the networks of Table 8.7 on W8K60 with 12 reserved looms. -/
def admitState : State :=
  ({ State.reset with
    boot := { State.reset.boot with
      networks := [⟨0, 1, 0, 1, 0, 200000, 150000, 0, 0, 0⟩, ⟨1, 1, 1, 1, 0, 120000, 150000, 0, 0, 0⟩, ⟨2, 2, 0, 1, 2, 320000, 260000, 0, 0, 0⟩,
        ⟨3, 2, 1, 1, 2, 260000, 260000, 0, 0, 0⟩, ⟨4, 3, 0, 1, 0, 200000, 900000, 0, 0, 0⟩] }
    trd := { State.reset.trd with timing := w8k60 } } : State)
    |>.setFld Reg.PIC_CFG Reg.PIC_CFG_RES_LOOMS 12 |>.setFld Reg.PIC_CFG Reg.PIC_CFG_DN_EN 1
    |>.setFld Reg.PIC_CFG Reg.PIC_CFG_RT_EN 1 |>.setFld Reg.DMC_CFG Reg.DMC_CFG_RAS_SLOTS 6
    |>.setFld Reg.SHT_RAS_BKT Reg.SHT_RAS_BKT_RATE 4096
theorem test_admission_levels : (admitState.checkLevel 0).need = 60240 ∧ (admitState.checkLevel 0).capP0 = 83968 ∧
    (admitState.checkLevel 0).capP1 = 66560 ∧ (admitState.checkLevel 0).p0Ok = true ∧ (admitState.checkLevel 0).p1Ok = false ∧
    (admitState.checkLevel 1).need = 48574 ∧ (admitState.checkLevel 1).p1Ok = true ∧ (admitState.checkLevel 1).bytesNeed = 1448240 ∧
    9 * (admitState.checkLevel 1).bytesNeed = 13034160 ∧ (admitState.checkLevel 1).bytesOk = true ∧ admitState.rSlot = 7070 := by decide +kernel

/-- Worked case 9.1: a dense 3 x 3 tile. -/
def conv91 : ConvProblem :=
  ⟨⟨3, 3, 1, 1, 1, 1, 1, 1, false, 0, 0, 1, 0, true⟩, false, dense 2 16 16 64, dense 2 64 576 1, dense 8 64 1 1, dense 2 16 16 64, 1⟩
theorem test_conv_cycles : conv91.cycles 0 = 3461 ∧ conv91.footprint 0 = 286976 := by decide

/-- Worked case 9.2: a 7 x 7 kernel in five sweeps. -/
def conv92 : ConvProblem :=
  ⟨⟨7, 7, 1, 1, 1, 1, 3, 3, false, 0, 0, 1, 0, true⟩, false, dense 6 16 16 48, dense 6 32 2352 1, dense 8 32 1 1, dense 6 16 16 32, 1⟩
theorem test_conv_sweeps : conv92.cycles 0 = 24005 ∧ conv92.footprint 0 = 1255808 := by decide

/-- Worked case 10.1: the latent Q8 page of DIM 256 over 12 layers, and one block's scale and codes (3.175 is 13317964 * 2^-22 in FP32). -/
def seq101 : SeqRec :=
  { valid := true, mmu := false, tenant := 0, domain := 0, kvfmt := 3, model := 0, layers := 12, hkv := 1, dim := 256, lb := 4352, len := 0,
    cap := 0, dir := 0, farOff := 0, pfxLast := 0, pfxGen := 0, frames := 0 }
theorem test_page_geometry : seq101.elems = 4096 ∧ seq101.dataBytes = 4096 ∧ seq101.sliceBytes = 4352 ∧ seq101.pageBytes = 52224 := by decide
theorem test_quantised_block :
    let q := quantBlock 1 [.fin false 13316915 (-22), .fin true 1 0]
    q.1 = [127, 256 - 40] ∧ (fp16.decode false q.2) = .fin false 1639 (-16) := by decide +kernel

/-- Worked case 11.1: at 8 bits only the offsets 14 and 15 raise 2,050 to 129. -/
theorem test_dither : ((List.range 4).flatMap fun y => (List.range 4).filterMap fun x =>
    if dither (Reg.CMP_DITHER_EN.put (Reg.CMP_DITHER_TEMPORAL.put (Reg.CMP_DITHER_DEPTH.put 0#32 1) 1) 1) 5 x y 0 0 2050 = 129 then some (x, y)
    else none) = [(0, 1), (2, 3)] := by decide +kernel

/-- Worked case 11.2: the link fit of W8K120 in split mode. -/
theorem test_link_fit : streamFits w8k120 1 10 7 4 = true ∧ streamFits w8k120 1 10 6 4 = false ∧ streamFits w8k120 1 12 7 4 = true ∧
    streamFits w8k120 1 8 6 4 = true := by decide

/-- Hashes and checks on the published vectors of their standards: SHA-384 of abc, CRC-32 and CRC-8 of 123456789. -/
theorem test_sha384 : (sha384 [0x61#8, 0x62#8, 0x63#8]).take 8 = [0xcb#8, 0x00#8, 0x75#8, 0x3f#8, 0x45#8, 0xa3#8, 0x5e#8, 0x8b#8] := by decide +kernel
theorem test_crc : crc32 ((List.range 9).map fun i => BitVec.ofNat 8 (0x31 + i)) = 0xCBF43926 ∧
    crc8 ((List.range 9).map fun i => BitVec.ofNat 8 (0x31 + i)) = 0xF4 := by decide +kernel


/-! Builders of small states for the witnesses below. -/

def base : State := State.reset
/-- Fields of registers set. -/
def on (s : State) (l : List (Nat × Field × Nat)) : State := l.foldl (fun t x => t.setFld x.1 x.2.1 x.2.2) s
def onB (f : Boot → Boot) (s : State) : State := { s with boot := f s.boot }
def onT (f : Trd → Trd) (s : State) : State := { s with trd := f s.trd }
def bs (l : List Nat) : List Byte := l.map (BitVec.ofNat 8)
def ramp (n : Nat) : List Byte := (List.range n).map fun i => BitVec.ofNat 8 (i * 7 + 3)


/-! Witnesses: for each statement with hypotheses, states and operands that meet those of each of its clauses. -/

def cmpOf (a n : Nat) : Comparator :=
  { target := ⟨0, 0, 0, 0⟩, mode := .once, period := 1, action := a, arg := n, line0 := 0, pick0 := 0, cyc0 := 0, matched := true }
def dueOf (a : Nat) : Due := ⟨1, 100, cmpOf a 0x1FF, none⟩
/-- Slot 1 is due with an action. -/
def dueState (a : Nat) : State :=
  onT (fun t => { t with cclk := 100, fsyncFree := true, due := [dueOf a], comps := [(1, cmpOf a 0x1FF)], pulseEnd := some 90 }) base
/-- House sync in use, with counts of good and bad lines. -/
def houseSync (lock good bad : Nat) : State :=
  on (onT (fun t => { t with now := ⟨5, 0, 0, 9⟩, refUse := 1, hsAge := 1, hsGood := good, hsBad := bad, vsOk := true, refPend := some 5 }) base)
    [(Reg.TRD_STATUS, Reg.TRD_STATUS_LOCK, lock), (Reg.TRD_CTL, Reg.TRD_CTL_REF_SEL, 1)]

theorem witness_PickBoundaryMovesTheStamp : base.rasterRuns = true ∧ base.trd.realign ≠ some 1 ∧ base.slv.frameTo = none := by decide +kernel
theorem witness_CycCountsAndSaturates : base.rasterRuns = true ∧ base.pending = [] ∧ base.trd.now.cyc < 4095 ∧ base.trd.realign ≠ some 1 ∧
    (onT (fun t => { t with now := ⟨0, 0, 0, 4094⟩ }) base).trd.now.cyc = 4094 := by decide +kernel
theorem witness_FrameAbortRestartsTheFrame : let s := onT (fun t => { t with abortWant := [.underrun] }) base
    s.rasterRuns = true ∧ s.trd.abortWant ≠ [] ∧ s.trd.abortAt ≤ s.trd.cclk ∧ s.slv.frameTo = none := by decide +kernel
theorem witness_SlotCtlArmsAndStops : Reg.TRD_SLOT_CTL_MODE.get 0#32 = 0 ∧ Reg.TRD_SLOT_CTL_MODE.get (Reg.TRD_SLOT_CTL_MODE.put 1#32 3) = 3 := by
  decide +kernel
theorem firesNow_dueState (a : Nat) (h : a ∈ [0, 1, 2, 3, 4, 5, 6, 7, 8, 9, 16]) : (dueState a).firesNow 1 (dueOf a) := by
  unfold State.firesNow
  revert a
  decide +kernel
theorem witness_SlotActionsDriveOutputs : ∀ a ∈ [0, 1, 2, 3, 4, 5, 6, 7], (dueState a).firesNow (1 : Fin 256) (dueOf a) ∧ (dueOf a).comp.action = a ∧
    (dueState a).trd.fsyncFree = true :=
  fun a h => ⟨firesNow_dueState a (by revert a; decide), rfl, rfl⟩
theorem witness_SlotActionsRecord :
    (∀ a ∈ [8, 9, 16], (dueState a).firesNow (1 : Fin 256) (dueOf a) ∧ (dueOf a).comp.action = a ∧ ((dueState a).vector (0x1FF % 32)).due = none) ∧
    base.trd.pulseEnd = none ∧ (dueState 8).trd.pulseEnd = some 90 ∧ 90 ≤ (dueState 8).trd.cclk :=
  ⟨fun a h => ⟨firesNow_dueState a (by revert a; decide), rfl, by revert a; decide +kernel⟩, by decide +kernel⟩
theorem witness_CatchupFiresTheHead :
    let s := onT (fun t => { t with catchq := [⟨255, 1, cmpOf 16 0, none⟩, ⟨4, 1, cmpOf 0 0, none⟩], catchNext := 0 }) base
    s.trd.catchq = ⟨255, 1, cmpOf 16 0, none⟩ :: [⟨4, 1, cmpOf 0 0, none⟩] ∧ s.trd.catchNext ≤ s.trd.cclk ∧ (255 : Nat) < 256 := by
  decide +kernel
theorem witness_EdgesAreCapturedAndLock :
    (base.leadingEdge Reg.TRD_CTL_HS_POL (!base.boot.hsyncIn) = true ∧ base.leadingEdge Reg.TRD_CTL_VS_POL (!base.boot.vsyncIn) = true ∧
      base.trd.refUse ≠ 1) ∧
    (let s : State := { base with boot := { base.boot with hsyncIn := true, vsyncIn := true } }
     s.leadingEdge Reg.TRD_CTL_HS_POL (!s.boot.hsyncIn) = false ∧ s.leadingEdge Reg.TRD_CTL_VS_POL (!s.boot.vsyncIn) = false) ∧
    ((houseSync 1 15 0).trd.refUse = 1 ∧ (houseSync 1 15 0).trd.hsAge = 1 ∧ (houseSync 1 15 0).lock ≠ 2 ∧ 15 ≤ (houseSync 1 15 0).trd.hsGood ∧
      (houseSync 1 15 0).trd.vsOk = true ∧ (houseSync 1 15 0).leadingEdge Reg.TRD_CTL_HS_POL (!(houseSync 1 15 0).boot.hsyncIn) = true) ∧
    ((houseSync 2 0 15).lock = 2 ∧ 15 ≤ (houseSync 2 0 15).trd.hsBad ∧ (houseSync 2 0 15).trd.refUse = 1 ∧ (houseSync 2 0 15).trd.hsAge = 1) ∧
    (let s := on (houseSync 1 16 0) [(Reg.TRD_VS_LINE, Reg.TRD_VS_LINE_LINE, 0)]
     s.trd.refUse = 1 ∧ s.trd.now.line = s.fld Reg.TRD_VS_LINE Reg.TRD_VS_LINE_LINE ∧ s.leadingEdge Reg.TRD_CTL_VS_POL (!s.boot.vsyncIn) = true ∧
     16 ≤ s.trd.hsGood) ∧
    (let s := onT (fun t => { t with vsAge := 1, vsBad := 1 }) (on (houseSync 2 16 0) [(Reg.TRD_VS_LINE, Reg.TRD_VS_LINE_LINE, 7)])
     s.trd.refUse = 1 ∧ s.trd.now.line ≠ s.fld Reg.TRD_VS_LINE Reg.TRD_VS_LINE_LINE ∧ s.leadingEdge Reg.TRD_CTL_VS_POL (!s.boot.vsyncIn) = true ∧
     s.lock = 2 ∧ s.trd.vsAge = 1 ∧ 1 ≤ s.trd.vsBad) ∧
    (let s := on base [(Reg.TRD_GPIO_CAP_SEL, Reg.TRD_GPIO_CAP_SEL_PIN, 15), (Reg.TRD_GPIO_CAP_SEL, Reg.TRD_GPIO_CAP_SEL_EDGE, 3)]
     s.fld Reg.TRD_GPIO_CAP_SEL Reg.TRD_GPIO_CAP_SEL_PIN = (15 : Fin 16) ∧ base.fld Reg.TRD_GPIO_CAP_SEL Reg.TRD_GPIO_CAP_SEL_PIN ≠ (15 : Fin 16) ∧
     ∀ r : Bool, (s.fld Reg.TRD_GPIO_CAP_SEL Reg.TRD_GPIO_CAP_SEL_EDGE).testBit (if r then 0 else 1) = true) := by decide +kernel
theorem witness_ReferencesAreLostAndTaken :
    ((houseSync 1 0 0).trd.refUse = 1 ∧ (houseSync 1 0 0).lock = 1) ∧ (houseSync 2 0 0).lock = 2 ∧
    ((houseSync 1 0 0).trd.refPend = some (houseSync 1 0 0).trd.now.frame ∧ (houseSync 1 0 0).fld Reg.TRD_CTL Reg.TRD_CTL_REF_SEL = 1 ∧
      (houseSync 1 0 0).trd.refUse = 1) ∧
    (let s := onT (fun t => { t with refUse := 2 }) (houseSync 1 0 0)
     s.trd.refPend = some s.trd.now.frame ∧ s.fld Reg.TRD_CTL Reg.TRD_CTL_REF_SEL = 1 ∧ s.trd.refUse ≠ 1) ∧
    (let s : State := { on (onT (fun t => { t with refUse := 2 }) (houseSync 1 0 0)) [(Reg.SLV_STATUS, Reg.SLV_STATUS_ROLE, 2)] with
       slv := { Slv.reset with waited := 64 } }
     s.trd.refUse = 2 ∧ s.lock = 1 ∧ s.timePorts = [] ∧ 64 ≤ s.slv.waited ∧ s.follower = true) ∧
    (let s := onT (fun t => { t with refPend := some 0, refUse := 1 }) base
     s.trd.refPend = some s.trd.now.frame ∧ s.fld Reg.TRD_CTL Reg.TRD_CTL_REF_SEL = 0 ∧ s.trd.refUse ≠ 0) := by decide +kernel
/-- A link that is up with credit, and memory space enabled. -/
def linked (s : State) : State := on { s with hif := { s.hif with perstIn := false, credit := 4, fns := tblPut s.hif.fns 0 { s.fnCfg 0 with mse := true, bme := true } } }
    [(Reg.HIF_STATUS, Reg.HIF_STATUS_LINK_UP, 1)]
theorem witness_TreadleRegistersAct :
    (0x8001#16)[(15 : Fin 16)] = true ∧ (base.fld Reg.TRD_GPIO_OWN Reg.TRD_GPIO_OWN_OWN).testBit 15 = false ∧ (0x8001#16)[(1 : Fin 16)] = false ∧
    ((linked base).hif.rdAt ≠ some (linked base).trd.cclk ∧ (linked base).barOpen (.bar0 Reg.TRD_NOW_LO) = true ∧
      (∀ y ∈ (linked base).hif.pcieAt, y + 2 ≤ (linked base).trd.cclk) ∧ (linked base).linkUp = true ∧ 0 < (linked base).hif.credit) ∧
    (let s := (linked base).setFld Reg.HIF_STATUS Reg.HIF_STATUS_DSTATE 3
     s.barOpen (.bar0 Reg.TRD_NOW_LO) = false ∧ s.hif.perstIn = false ∧ s.linkUp = true ∧ 0 < s.hif.credit) := by
  decide +kernel


/-! Chapter 2. -/

def registersSection : List Byte := leBytes 4 0x20000 ++ leBytes 4 5 ++ leBytes 4 0xF
def networkSection (stage level : Nat) : List Byte := bs [71, 78, 69, 84, stage, level, 0, 0] ++ leBytes 8 120000 ++ leBytes 8 150000 ++ leBytes 8 0
def sectionEntry (type offset len load : Nat) : List Byte :=
  leBytes 2 type ++ leBytes 2 0 ++ leBytes 4 offset ++ leBytes 4 len ++ leBytes 4 0 ++ leBytes 8 load ++ leBytes 8 0
/-- An image of Table 2.6 in slot A with a REGISTERS section and two NETWORK sections, the second with a bad hash. -/
def imageBytes : List (Nat × List Byte) :=
  [(0, bs [71, 76, 83, 76] ++ leBytes 2 1 ++ leBytes 2 0x100 ++ leBytes 4 0x400 ++ leBytes 4 7 ++ leBytes 8 0 ++ bs [3, 0] ++ leBytes 2 3 ++
      leBytes 4 0x100 ++ leBytes 4 0x180 ++ leBytes 4 0x240 ++ leBytes 4 12),
    (0x100, sectionEntry 1 0x340 12 0 ++ sectionEntry 0x10 0x380 32 0 ++ sectionEntry 0x10 0x3C0 32 4096),
    (0x180, leBytes 48 0xefae2af24b5b45bd91f4db4039f1627470ec2f85dafd1b23028512a2deeb837df492b7e5f68620882dc589c63e6482f1 ++
      leBytes 48 0x119af6f2737ff0ab692c4dfd0217b95b96438f83e71377dfbbf27cc471b088dce981182b2d2edbe700148a8d91d1bb46 ++ List.replicate 48 0),
    (0x340, registersSection), (0x380, networkSection 2 0), (0x3C0, networkSection 1 1)]
def imageFlash : Tbl Byte := imageBytes.flatMap fun x => (x.2.zipIdx.map fun y => (0x100000 + x.1 + y.2, y.1)).filter fun e => e.2 ≠ 0xFF#8
def withImage : State := onB (fun b => { b with flash := imageFlash, fusesRead := true }) base
def loaderAt (n : Nat) (s : State) : State := s.setLoadState n
/-- The networks of slot A are being loaded. -/
def loadingNets : State := on (loaderAt 4 (onB (fun b => { b with slot := some 0 }) withImage)) [(Reg.DMC_STATUS, Reg.DMC_STATUS_TRAINED, 1)]

theorem witness_ResetsRestartTheDevice :
    base.boot.powerLow = false ∧ base.boot.inReset = false ∧ base.pending = [] ∧ base.boot.flCmd = none ∧
    (onB (fun b => { b with inReset := true }) base).boot.inReset = true ∧
    (let s := onB (fun b => { b with powerLow := true, fuses := { b.fuses with wall := true } }) base
     s.boot.inReset = false ∧ s.boot.powerLow = true ∧ s.boot.fuses.wall = true) := by decide +kernel
theorem witness_BootStepsAdvance :
    (onB (fun b => { b with bootMode := 7#3 }) base).boot.bootMode = 7#3 ∧
    (withImage.boot.fusesRead = true ∧ withImage.boot.bootMode ≠ 7#3 ∧ withImage.loadState = 0) ∧
    ((loaderAt 1 base).loadState = 1 ∧ (loaderAt 1 base).boot.bootMode ≠ 2#3) := by decide +kernel
theorem witness_SlotsAreTriedInOrder :
    let next := fun (s : State) => s.candidates[s.boot.tried.length]?
    let tried := onB (fun b => { b with tried := [0] }) (loaderAt 2 withImage)
    ((loaderAt 2 withImage).loadState = 2 ∧ next (loaderAt 2 withImage) = some (0, none) ∧ (loaderAt 2 withImage).slotCode 0 none true = 0) ∧
    ((loaderAt 2 base).loadState = 2 ∧ next (loaderAt 2 base) = some (0, none) ∧ (loaderAt 2 base).slotCode 0 none true ≠ 0) ∧
    (tried.loadState = 2 ∧ next tried = some (1, none) ∧ tried.slotCode 1 none true ≠ 0) ∧
    next (onB (fun b => { b with tried := [0, 1] }) (loaderAt 2 base)) = none := by decide +kernel
theorem witness_CommitAndDevReset :
    (∀ n ∈ [3, 6], let s := on (loaderAt n withImage) [(Reg.DMC_STATUS, Reg.DMC_STATUS_TRAINED, 1)]
      s.bit Reg.HIF_STATUS Reg.HIF_STATUS_READY = false ∧ s.trained = true ∧ s.loadState = n ∧ s.boot.restartWait = false ∧ s.boot.tripped = false) ∧
    (Reg.DEV_RESET_KEY.get (0x5A5A0001#32) = 0x5A5A ∧ Reg.DEV_RESET_GO.get (0x5A5A0001#32) = 1 ∨
      Reg.DEV_RESET_KEY.get (0x00015A5A#32) = 0x5A5A ∧ Reg.DEV_RESET_GO.get (0x00015A5A#32) = 1) ∧
    (onB (fun b => { b with flCmd := some ⟨3, 0x101000, []⟩ }) base).boot.flCmd ≠ none ∧ Reg.DEV_RESET_KEY.get 1#32 ≠ 0x5A5A ∧
    (∀ m ∈ [0#3, 2#3], let s := loaderAt 3 (onB (fun b => { b with restartWait := true, bootMode := m }) withImage)
     s.boot.restartWait = true ∧ s.boot.flCmd = none ∧ 2 ≤ s.loadState ∧ s.loadState ≠ 7 ∧ s.boot.bootMode = m) ∧
    base.boot.restartWait = false ∧
    (let s := onB (fun b => { b with switchAt := some 0 }) base
     s.boot.switchAt = some s.trd.now.frame ∧ s.trd.now.line = 0 ∧ s.trd.now.pick = 0) ∧
    (let s := on base [(Reg.SCN_HTIM0, ⟨0, 32⟩, (base.rd Reg.SCN_HTIM0).toNat)]
     legalTiming s.timingRegs (Reg.SCN_CFG_MODE.get (s.rd Reg.SCN_CFG) % 3) = true) := by decide +kernel
theorem witness_NetworkSectionsLoad :
    (loadingNets.trained = true ∧ loadingNets.loadState = 4 ∧ loadingNets.boot.slot = some 0) ∧
    (∃ x rest, loadingNets.netSections.drop 0 = (1, x) :: rest ∧ (true && loadingNets.hashOk 0 1 x) = true) ∧
    (∃ x, loadingNets.netSections.drop 1 = (2, x) :: [] ∧ (true && loadingNets.hashOk 0 2 x) = false) :=
  ⟨by decide +kernel, ⟨_, _, rfl, by decide +kernel⟩, ⟨_, rfl, by decide +kernel⟩⟩
theorem witness_FlashCommandsAct :
    ((Instr.flashErase64k, 4, 65536) ∈ [(Instr.flashRead, 1, 256), (.flashProgram, 2, 256), (.flashErase4k, 3, 4096), (.flashErase64k, 4, 65536)]) ∧
    (withImage.boot.held = false ∧ (onB (fun b => { b with tripped := true }) withImage).boot.held = true ∧ base.boot.flCmd = none) ∧
    (∀ f ∈ [(⟨1, 0x101000, []⟩ : FlashCmd), ⟨2, 0x101000, ramp 256⟩, ⟨3, 0x101000, []⟩, ⟨4, 0x100000, []⟩],
      let s := onB (fun b => { b with flCmd := some f }) withImage
      s.boot.flCmd = some f ∧ s.pwr.patrol = none ∧ (f.op = 1 ∨ f.op = 2 ∧ f.data.length = 256 ∨ f.op = 3 ∨ f.op = 4)) := by decide +kernel


/-! Chapter 3. -/

def onH (f : Hif → Hif) (s : State) : State := { s with hif := f s.hif }
/-- The link is up with credit. -/
def linkOn (s : State) : State :=
  on (onH (fun h => { h with hostReady := true, perstIn := false, credit := 5 }) s) [(Reg.HIF_STATUS, Reg.HIF_STATUS_LINK_UP, 1)]

theorem witness_RegisterAccessesFollowTheirCodes :
    let s := linked base
    (s.hif.wrAt ≠ some s.trd.cclk ∧ s.barOpen (.bar0 0x70000) = true ∧ ∀ y ∈ s.hif.pcieAt, y + 2 ≤ s.trd.cclk) ∧
    base.barOpen (.bar0 0x70000) = false ∧
    ((0x70005 : Nat) % 4 ≠ 0) ∧ regRow? 0xFC = none ∧ (0x120000 ≤ 0x1FFFFC ∧ 0x1FFFFC ≤ 0x1FFFFC) ∧
    (∃ r, 0x70000 % 4 = 0 ∧ regRow? 0x70000 = some r ∧ 0x70000 / 0x10000 ∈ [5, 7, 8, 17]) ∧
    (∃ r, regRow? Reg.TRD_LATE_CNT = some r ∧ r.cnt = true) ∧ (s.linkUp = true ∧ 0 < s.hif.credit ∧ s.hif.perstIn = false) ∧
    (∀ y ∈ s.hif.pcieAt, y + 2 ≤ s.trd.cclk + 24) :=
  ⟨by decide +kernel, by decide +kernel, by decide, by decide +kernel, by decide, ⟨_, by decide, rfl, by decide⟩, ⟨_, rfl, rfl⟩, by decide +kernel,
    by decide +kernel⟩
theorem witness_SidebandFramesReportStatus :
    ((255 : Nat) < 256 ∧ 255 ∉ [2, 3, 5]) ∧ (crc8 ([2#8] ++ beBytes 4 0x70000 ++ beBytes 4 0) == 256) = false ∧ (0xFFFFFFFF : Nat) % 4 ≠ 0 ∧
    (∃ r, regRow? 0x70000 = some r ∧ 0x70000 % 4 = 0 ∧ 0x70000 / 0x10000 ∈ [7, 17]) ∧ (crc8 ([3#8] ++ beBytes 4 0x70000) == 256) = false ∧
    (base.boot.tripped = false ∧ base.hif.wrAt ≠ some (base.trd.cclk + 27) ∧ base.hif.rdAt ≠ some (base.trd.cclk + 27)) :=
  ⟨by decide, by decide +kernel, by decide, ⟨_, rfl, by decide, by decide⟩, by decide +kernel, by decide +kernel⟩
theorem witness_TheHostInterfaceAnswers :
    base.hif.perstIn = true ∧ ((linkOn base).hif.perstIn = false ∧ (linkOn base).hif.hostReady = true ∧ 0 ≤ (linkOn base).hif.vfsOn) ∧
    (onH (fun h => { h with hostReady := false }) (linkOn base)).hif.hostReady = false ∧ (linkOn base).hif.vfsOn < 1 ∧
    (∀ v ∈ vectorsOf 0, ((linkOn base).vector v).pending = false) ∧
    (let s := onB (fun b => { b with fusesRead := true }) (linkOn base)
     s.hif.perstIn = false ∧ s.boot.fusesRead = true ∧ s.hif.held = [] ∧ (1 : Nat) ≤ 4 ∧ 8 ∈ [1, 4, 8] ∧ s.hif.vfEnable = false) := by
  decide +kernel
/-- PTM is enabled, with a dialogue under way or not. -/
def ptmState (at_ : Option Stamp) : State :=
  on (onT (fun t => { t with now := ⟨4, 0, 0, 2⟩ }) (onH (fun h => { h with ptmEnable := true, ptm := at_ }) (linkOn base)))
    [(Reg.HIF_PTM_CTL, Reg.HIF_PTM_CTL_EN, 1), (Reg.HIF_PTM_CTL, Reg.HIF_PTM_CTL_PERIOD, 2)]
theorem witness_PtmDialoguesRecordTime :
    (let s := ptmState none
     s.bit Reg.HIF_PTM_CTL Reg.HIF_PTM_CTL_EN = true ∧ s.hif.ptmEnable = true ∧ s.d3hot = false ∧
     0 < s.fld Reg.HIF_PTM_CTL Reg.HIF_PTM_CTL_PERIOD ∧ s.trd.now.frame % s.fld Reg.HIF_PTM_CTL Reg.HIF_PTM_CTL_PERIOD = 0 ∧
     s.trd.now.line = 0 ∧ s.trd.now.pick = 0 ∧ s.trd.now.cyc = 2 ∧ s.boot.tripped = false ∧ s.linkUp = true ∧ 2 ≤ s.hif.credit ∧ s.hif.ptm = none) ∧
    (onH (fun h => { h with ptmEnable := false }) (ptmState none)).hif.ptmEnable = false ∧
    ((ptmState (some ⟨3, 4, 5, 6⟩)).hif.ptm = some ⟨3, 4, 5, 6⟩ ∧ 2 ^ 64 - 1 < 2 ^ 64 ∧ 7 ≤ 2 ^ 64 - 1) := by decide +kernel
/-- A BAR2 read at the front, whose line has come. -/
def apertureState : State :=
  { onH (fun h => { h with bar2 := [⟨256 + 64, 64, 0⟩] }) (linkOn base) with
    mem := { base.mem with arrived := [⟨30, 32, 0, 256, List.replicate 128 7#8, false⟩] } }
theorem witness_TheApertureReachesDram :
    ((linked base).bar2Open 0 = true ∧ 0 < 64 ∧ (linked base).bar2Addr 0 % 128 + 64 ≤ 128 ∧ (linked base).boot.tripped = false ∧
      (linked base).bar2Open (2 ^ 28) = false ∧ (linked base).hif.perstIn = false ∧ (linked base).linkUp = true ∧ 0 < (linked base).hif.credit) ∧
    (apertureState.hif.bar2 = ⟨256 + 64, 64, 0⟩ :: [] ∧ 0 < 64 ∧ 128 ≤ apertureState.hif.mps ∧ apertureState.linkUp = true ∧ 0 < apertureState.hif.credit ∧
      ∀ l ∈ linesFrom 320 (apertureState.bar2Chunk ⟨256 + 64, 64, 0⟩), apertureState.hostLine l ≠ none) ∧
    ((linked base).bar2Addr 0 % 128 + (List.replicate 64 0#8).length ≤ 128 ∧ 128 - (linked base).bar2Addr 0 % 128 < (ramp 200).length ∧
      (linked base).bar2Open 128 = true) := by decide +kernel


/-! Chapter 4. -/

/-- A descriptor: opcode, flags, looms, ARG_PTR and inline bytes. -/
def dbytes (op flags looms arg : Nat) (inl : List Nat) : List Byte :=
  leBytes 2 op ++ leBytes 2 flags ++ leBytes 4 0x7766 ++ leBytes 6 0 ++ leBytes 1 looms ++ leBytes 1 1 ++ leBytes 24 0 ++ leBytes 8 arg ++
    (bs inl ++ List.replicate 16 0).take 16
def mkD (ring seq ten : Nat) (bytes : List Byte) : Desc :=
  { ring := ring, seq := seq, tenant := ten, order := seq, bytes := bytes, profile := Profile.zero, coll := false, phase := .waiting, late := false
    hit := false, waitHit := none, dispAt := none, start := ⟨0, 0, 0, 0⟩, since := 0, picks := 0, work := [], stop := none, stopAt := 0, used := 0
    cleared := false, stopped := false, darned := false, status := 0, detail := 0 }
/-- Ring 1 of tenant 1 is enabled, and the link is up. -/
def ring1 : State :=
  on base [(Reg.QRG_CFG 1, Reg.QRG_CFG_EN, 1), (Reg.QRG_CFG 1, Reg.QRG_CFG_TENANT, 1), (Reg.QRG_CFG 1, Reg.QRG_CFG_DEPTH, 8),
    (Reg.QRG_BASE_LO 1, ⟨0, 32⟩, 0x10000), (Reg.QRG_CQ_LO 1, ⟨0, 32⟩, 0x20000), (Reg.TEN_CFG 1, Reg.TEN_CFG_EN, 1),
    (Reg.TEN_CFG 1, Reg.TEN_CFG_MAX_LOOMS, 8), (Reg.HED_CFG, Reg.HED_CFG_TEN_SB_MAX, 64), (Reg.HIF_STATUS, Reg.HIF_STATUS_LINK_UP, 1)]
def withDescs (s : State) (l : List Desc) : State := { s with ten := { s.ten with descs := l, order := 100 } }
/-- A descriptor under way on loom 1 (its ring's number). -/
def running (d : Desc) (s : State) (begun ended : Bool) : State :=
  let d' := { d with phase := .running, used := 1, work := [⟨d.ring % 32, 0, 0, false, begun, 0, ended, 0⟩], dispAt := some 0 }
  let s1 := withDescs s [d']
  { s1 with looms := s1.looms.set (d.ring % 32) { s1.loom (d.ring % 32) with work := some (d.ring, d.seq), owner := .tenant d.tenant, served := some d.tenant } }
def descOf (op flags looms : Nat) : Desc := mkD 1 0 1 (dbytes op flags looms 0 [])
def readyD (d : Desc) : Desc := { d with dispAt := some 0, hit := true }
def withRecs (l : List Rec) (s : State) : State := { s with ten := { s.ten with recs := l } }
def recOf (write event : Bool) : Rec := ⟨1, 0, 1, 0x20000, List.replicate 32 1, 10, write, event, false⟩
def withVec (v : Nat) (x : Vector) (s : State) : State := { s with ten := { s.ten with vectors := tblSet (fun _ => Vector.idle) s.ten.vectors v x } }
/-- Function 1 may send. -/
def credited (s : State) : State := onH (fun h => { h with perstIn := false, credit := 5, vfsOn := 3, vfMse := true, fns := [(1, { FnCfg.reset with bme := true, msixEn := true })] }) s
/-- Every descriptor is to stop in the present CCLK. -/
def stopping (w : Stop) (s : State) : State := { s with ten := { s.ten with descs := s.ten.descs.map fun d => { d with stop := some w, stopAt := s.trd.cclk } } }
def pointersAt (s : State) : State := on s [(Reg.QRG_PTR 1, Reg.QRG_PTR_TAIL, 3)]

theorem witness_RingsAreEnabledAndFed :
    ((base.ringEn 1023 = false) ∧ base.bit (Reg.QRG_CFG 1023) Reg.QRG_CFG_DRAINING = false) ∧
    (let s := on base [(Reg.QRG_CFG 1, Reg.QRG_CFG_DRAINING, 1)]
     s.ringEn 1 = false ∧ s.bit (Reg.QRG_CFG 1) Reg.QRG_CFG_DRAINING = true) ∧ ring1.ringEn 1 = true ∧
    (let s := withDescs ring1 [descOf 0x110 0 1]
     s.ringEn 1 = true ∧ descOf 0x110 0 1 ∈ s.ten.descs ∧ (descOf 0x110 0 1).ring = 1 ∧ (descOf 0x110 0 1).phase = .waiting) ∧
    ((credited ring1).barOpen (.window 1 0) = true ∧ ring1.barOpen (.window 1 0) = false ∧ ∀ y ∈ (credited ring1).hif.pcieAt, y + 2 ≤ ring1.trd.cclk + 21) ∧
    (∀ v ∈ [0, 15], ring1.tenEn 1 = true ∧ ring1.draining 1 = false ∧ ring1.ringTenant 1 = 1 ∧ ring1.ringEn 1 = true ∧ (ring1.ring 1).err = false ∧
      (BitVec.ofNat 32 v).toNat < 65536 ∧ (BitVec.ofNat 32 v).toNat < ring1.ringSize 1) ∧
    ¬(ring1.ringTenant 1 = 1 ∧ ring1.ringEn 1 = true ∧ (ring1.ring 1).err = false ∧ (16#32).toNat < 65536 ∧ (16#32).toNat < ring1.ringSize 1) := by
  decide +kernel
theorem witness_DescriptorsAreFetched :
    (let s := pointersAt ring1
     (s.elapseTo (s.ring 1).readAt).wantsRead 1 = true ∧ (s.elapseTo (s.ring 1).readAt).entryFree 1 = true ∧
     (s.elapseTo (s.ring 1).readAt).offeredFirst 1 = some 1 ∧ (s.elapseTo (s.ring 1).readAt).isIntake 1 = false) ∧
    (let s := on (pointersAt ring1) [(Reg.PIC_INTAKE, Reg.PIC_INTAKE_EN, 1), (Reg.PIC_INTAKE, Reg.PIC_INTAKE_RING, 1)]
     (s.elapseTo (s.ring 1).readAt).intakeForeign 1 = true ∧ s.isIntake 1 = true) ∧
    ring1.intakeForeign 1 = false ∧ ring1.wantsRead 1 = false ∧
    (let s := withDescs (on (pointersAt ring1) [(Reg.HED_CFG, Reg.HED_CFG_TEN_SB_MAX, 1)]) [descOf 0x110 0 1]
     (s.elapseTo (s.ring 1).readAt).wantsRead 1 = true ∧ (s.elapseTo (s.ring 1).readAt).entryFree 1 = false) ∧
    (let s := ring1.setRing 1 { Ring.idle with reads := 1 }
     0 < (s.ring 1).reads ∧ s.isIntake 1 = false ∧ (s.ring 1).err = false ∧ s.tenEn (s.ringTenant 1) = true ∧
     (on s [(Reg.TEN_CFG 1, Reg.TEN_CFG_EN, 0)]).tenEn 1 = false ∧
     (let d := s.fetched 1 (dbytes 0xF00 0 1 64 [])
      (if d.coll then (s.badColl d).isNone else (s.badDesc d).isNone) = true) ∧
     (∀ b ∈ [dbytes 0xF00 512 1 64 [], dbytes 0xF00 0 1 63 [], dbytes 0xF00 0 33 64 []],
       let d := s.fetched 1 b
       d.coll = false ∧ (d.num 2 2 ≥ 512 ∨ d.num 0x0E 1 ≥ 64 ∨ d.num 0x0F 1 ≥ 8 ∨ d.num 0x16 2 ≥ 1024 ∨ d.num 0x1C 2 ≥ 1024 ∨ d.num 0x1E 2 ≠ 0 ∨ d.num 0x24 4 ≠ 0 ∨ d.looms > 32 ∨ d.looms > s.maxLooms d.tenant ∨
          (∃ x ∈ d.deps, s.ringTenant x.1 ≠ d.tenant) ∨ (d.launchEn = true ∧ d.deadlineEn = true ∧ d.deadline.after d.launch = false) ∨
          (d.lockstep = true ∧ d.launchEn = false) ∨ d.argPtr % 64 ≠ 0))) ∧
    (let d := descOf 0x110 2 1
     let s := withDescs ring1 [d]
     s.desc? 1 0 = some d ∧ d.phase = .waiting ∧ d.deadlineEn = true ∧ s.trd.now.atOrAfter d.deadline = true) ∧ base.desc? 1 0 = none ∧
    (let s := on (ring1.setRing 1 { Ring.idle with reads := 1 }) [(Reg.SLV_COLL_RING 0, Reg.SLV_COLL_RING_EN, 1), (Reg.SLV_COLL_RING 0, Reg.SLV_COLL_RING_RING, 1)]
     (s.fetched 1 (dbytes 1 0 1 0 [])).coll = true ∧ s.badColl (s.fetched 1 (dbytes 1 0 1 0 [])) = some (0x31, 1)) := by decide +kernel
theorem witness_DescriptorsRunAndComplete :
    (let s := withDescs ring1 [readyD (descOf 0x999 0 1)]
     let s0 := s.elapseTo s.nextDispatch
     (s0.ten.descs.find? fun d => s0.dispatchable d && d.badOp.isSome) = some (readyD (descOf 0x999 0 1))) ∧
    (let s := withDescs ring1 [readyD (descOf 0x110 0 1)]
     let s0 := s.elapseTo s.nextDispatch
     (s0.ten.descs.find? fun d => s0.dispatchable d && d.badOp.isSome) = none ∧ (s0.pickDesc s0.classOrder).1 = some (readyD (descOf 0x110 0 1))) ∧
    (∀ fl ∈ [0, 0x40], let s := running (descOf 0x110 fl 1) ring1 false false
      ∃ d ∈ s.ten.descs, s.desc? 1 0 = some d ∧ d.phase = .running ∧ ∃ w ∈ d.work, (d.work.find? fun w => w.loom == (1 : Fin 32).val && !w.begun) = some w ∧
        ((s.elapseTo w.ready).desc? 1 0).isSome = true) ∧
    (let s := running (descOf 0x110 0 1) ring1 true true
     ∃ d ∈ s.ten.descs, s.desc? 1 0 = some d ∧ s.endComes d = true ∧ (s.elapseTo d.endAt).desc? 1 0 = some d ∧ d.stop = none) ∧
    (let s := stopping (.ends 0x20 2) (running (descOf 0x110 0 1) ring1 true false)
     ∃ d ∈ s.ten.descs, s.desc? 1 0 = some d ∧ s.endComes d = true ∧ (s.elapseTo d.endAt).desc? 1 0 = some d ∧ d.stop = some (.ends 0x20 2)) ∧
    (∀ b : Bool, let s := onT (fun t => { t with time := 40000 * usTime }) (running (descOf 0x110 0 1) ring1 b false)
     ∃ d ∈ s.ten.descs, s.desc? 1 0 = some d ∧ d.phase = .running ∧ d.since + s.capTime d ≤ s.trd.time ∧ d.stop = none ∧ ∀ w ∈ d.work, w.begun = b) ∧
    (∃ d ∈ (running (descOf 0x110 0 1) ring1 true false).ten.descs, (0 : Nat) < d.since + ring1.capTime d) ∧
    (let s := withRecs [recOf false false] ring1
     s.ten.recs = [recOf false false] ∧ (recOf false false).write = false ∧ (recOf false false).event = false) ∧
    (∀ e : Bool, let s := credited (withRecs [recOf true e] ring1)
      let s0 := (s.elapseTo 10).onTen fun x => { x with recs := [] }
      s.ten.recs = recOf true e :: [] ∧ (recOf true e).write = true ∧ s0.linkUp = true ∧ 0 < s0.hif.credit ∧ s0.d3hot = false ∧
        (s0.fnCfg 1).bme = true ∧ ∀ u ∈ s0.hif.held, u.fn ≠ some 1) ∧
    (let s := on (withRecs [recOf true true] ring1) [(Reg.HIF_STATUS, Reg.HIF_STATUS_LINK_UP, 0)]
     let s0 := (s.elapseTo 10).onTen fun x => { x with recs := [] }
     s.ten.recs = recOf true true :: [] ∧ s0.linkUp = false) := by decide +kernel
theorem witness_MessagesAreModerated :
    ((withVec 33 { Vector.idle with timer := some 0 } ring1).vector (33 : Fin 2072)).timer = some 0 ∧
    (∀ m : Bool, let s := credited (withVec 33 { Vector.idle with due := some 4, masked := m } ring1)
      (s.vector 33).due = some 4 ∧ s.tenEn (vecFn 33) = true ∧ (s.elapseTo 4).vecStopped 33 = m ∧
      (s.elapseTo 4).fld (Reg.TEN_MSG (vecFn 33)) Reg.TEN_MSG_CAP = 0) ∧
    (let s := (credited (withVec 33 { Vector.idle with due := some 4, masked := false } (on ring1 [(Reg.TEN_MSG 1, Reg.TEN_MSG_CAP, 1)]))).setTenant 1
       { Tenant.idle with sent := 1 }
     let s0 := s.elapseTo 4
     (s.vector 33).due = some 4 ∧ s.tenEn (vecFn 33) = true ∧ s0.vecStopped 33 = false ∧ s0.fld (Reg.TEN_MSG (vecFn 33)) Reg.TEN_MSG_CAP ≠ 0 ∧
     s0.fld (Reg.TEN_MSG (vecFn 33)) Reg.TEN_MSG_CAP ≤ s0.sentNow (vecFn 33)) ∧
    ((ring1.vector 33).pending = false) ∧
    (let s := credited (withVec 33 { Vector.idle with pending := true, count := 2 } ring1)
     (s.vector 33).pending = true ∧ (s.vector 33).held = false ∧ (s.fnCfg (vecFn 33)).msixEn = true ∧ (s.fnCfg (vecFn 33)).msixMask = false ∧
     s.tenEn (vecFn 33) = true ∧ s.fld (Reg.TEN_MSG (vecFn 33)) Reg.TEN_MSG_CAP = 0) ∧
    (let s := credited (withVec 33 { Vector.idle with pending := true, held := true, masked := false } ring1)
     let s0 := State.elapse s.toTick s
     let vs := (s0.ten.vectors.filter fun e => e.2.held && vecFn e.1 == 1).map fun e => e.1
     s.atFrameStart = true ∧ s.tenEn 1 = true ∧ s0.fld (Reg.TEN_MSG 1) Reg.TEN_MSG_CAP = 0 ∧ (∀ v ∈ vs, s0.vecStopped v = false) ∧ vs ≠ [] ∧
       tblWf (fun _ => Vector.idle) s0.ten.vectors = true) := by
  decide +kernel
theorem witness_ResetsDrainTenants :
    (let s := running (descOf 0x110 0 1) ring1 false false
     s.draining 1 = false ∧ (∃ d ∈ s.ten.descs, d.tenant = 1 ∧ s.desc? d.ring d.seq = some d ∧ ∀ w ∈ d.work, w.begun = false) ∧ 1 ∈ s.ringsOf 1 ∧
     ∃ l ∈ s.looms, s.looms[1]? = some l ∧ l.work = some (1, 0) ∧ s.ringTenant 1 = 1) ∧
    (let s := ({ ring1 with looms := ring1.looms.set 1 { ring1.loom 1 with withheld := some 1 } } : State).setTenant 1 { Tenant.idle with drain := some .tenStop }
     s.draining 1 = true ∧ (s.tenant 1).drain = some .tenStop ∧ 1 ∈ s.ringsOf 1 ∧ s.boot.tripped = false ∧ ∃ l ∈ s.looms.take 34, l.withheld = some 1) ∧
    ring1.hif.perstIn = true ∧
    (let s := onH (fun h => { h with vfsOn := 3, vfEnable := true, perstIn := false }) ring1
     s.hif.vfsOn < (4 : Fin 256).val ∧ 0 < (3 : Fin 256).val ∧ (3 : Fin 256).val ≤ s.hif.vfsOn ∧ s.draining 3 = false ∧ s.hif.perstIn = false) := by decide +kernel


/-! Chapter 5. -/

def refB (r : TRef) : List Byte :=
  leBytes 8 r.base ++ leBytes 1 r.fmt ++ leBytes 1 r.layout ++ leBytes 2 0 ++ leBytes 2 r.dim0 ++ leBytes 2 r.dim1 ++ leBytes 2 r.dim2 ++
    leBytes 2 0 ++ leBytes 4 r.stride1 ++ leBytes 4 r.stride2 ++ leBytes 4 0
def tref (b f d0 d1 d2 s1 s2 : Nat) : TRef := ⟨b, f, 0, d0, d1, d2, s1, s2, false⟩
def noref : TRef := tref 0 0 0 0 0 0 0
/-- Tenant 1's first 2 MiB are mapped. -/
def mapped (s : State) : State :=
  { on s [(Reg.MMU_CTX_LO 1, Reg.MMU_CTX_LO_EN, 1)] with mem := { s.mem with tlb := [⟨none, 1, 0, 21, 0x1000000, true, 0⟩] } }
def onM (f : Mem → Mem) (s : State) : State := { s with mem := f s.mem }
/-- Bytes at rising offsets of the mapped page. -/
def poke (l : List (Nat × List Byte)) (s : State) : State :=
  onM (fun m => { m with
    wmap := (List.range 16).map fun k => 0x1000 + k
    dram := (l.flatMap fun x => x.2.zipIdx.map fun y => (0x1000000 + x.1 + y.2, y.1)).filter fun e => e.2 ≠ 0#8 }) s
/-- An operator under way on loom 1 for descriptor 0 of ring 1. -/
def opStateWith (flags code : Nat) (inl : List Nat) (refs : List TRef) (data : List (Nat × List Byte)) : State :=
  poke ((0x1000, refs.flatMap refB) :: data) (mapped (running (mkD 1 0 1 (dbytes code flags 1 0x1000 inl)) ring1 true false))
def opState (code : Nat) (inl : List Nat) (refs : List TRef) (data : List (Nat × List Byte)) : State := opStateWith 0 code inl refs data
def theDesc (s : State) : Desc := (s.ten.descs.head?).getD (mkD 1 0 1 [])
/-- An operator writes nothing but codes at its output runs. -/
def blank : Nat → Nat → Nat → Nat × Bool := fun _ _ _ => (0, false)

def mmState (fmtZ n shift : Nat) : State :=
  opState 0x100 [4, 0, n, 0, 4, 0, 0, shift] [tref 0x2000 2 4 4 1 64 0, tref 0x3000 2 4 4 1 64 0, noref, tref 0x4000 fmtZ 4 4 1 64 0]
    []
theorem witness_MatmulComputesItsTile :
    (let s := mmState 2 4 3
     let d := theDesc s
     let refs := s.opRefs d 4
     s.opReady 1 0 0x0100 = some (d, s) ∧ (refAt refs 0).elem.float = none ∧ (refAt refs 3).elem.float = none ∧
     mxPair (refAt refs 0).elem (refAt refs 1).elem = some (4, 1) ∧ matmulLegal d refs = true ∧
     ∀ f, s.operandsReady d 128 ((refAt refs 0).runs 0 ++ (refAt refs 1).runs 1) ((refAt refs 3).outRuns f)) ∧
    (let s := mmState 2 0 3
     let d := theDesc s
     s.opReady 1 0 0x0100 = some (d, s) ∧ d.inl 2 2 = 0 ∧ d.work ≠ [] ∧ s.firstFault d.loom0 d.tenant false [(0, d.argPtr, 128)] = none) :=
  ⟨⟨by decide +kernel, by decide +kernel, by decide +kernel, by decide +kernel, by decide +kernel,
    fun f => operandsReady_congr _ _ _ _ _ _ (runPlaces_outRuns _ blank f) (by unfold State.operandsReady; decide +kernel)⟩, by decide +kernel⟩

/-- FP32 references of 4 by 2, a row of 4, and one column of 2. -/
def fIn : TRef := tref 0x2000 9 4 2 1 64 0
def fRow : TRef := tref 0x3000 9 4 1 1 64 0
def fOut : TRef := tref 0x4000 9 4 2 1 64 0
def fCol : TRef := tref 0x4000 9 1 2 1 64 0
def bobbin (code : Nat) (refs : List TRef) : State := opState code [0, 0] refs []
/-- The operator's references are legal and it is ready. -/
def bobbinMeets (s : State) (code n args : Nat) (ins : Nat) : Prop :=
  s.opReady 1 0 code = some (theDesc s, s) ∧ (∀ x ∈ s.opRefs (theDesc s) n, x.legal false = true) ∧
    ∀ f, s.operandsReady (theDesc s) args ((List.range ins).flatMap fun k => (refAt (s.opRefs (theDesc s) n) k).runs k)
      ((refAt (s.opRefs (theDesc s) n) (n - 1)).outRuns f)
theorem bobbinMeets_of (s : State) (code n args ins : Nat) (a : s.opReady 1 0 code = some (theDesc s, s))
    (b : ∀ x ∈ s.opRefs (theDesc s) n, x.legal false = true)
    (c : s.firstFault (theDesc s).loom0 (theDesc s).tenant false [(0, (theDesc s).argPtr, args)] = none ∧
      s.firstFault (theDesc s).loom0 (theDesc s).tenant false ((List.range ins).flatMap fun k => (refAt (s.opRefs (theDesc s) n) k).runs k) = none ∧
      s.firstFault (theDesc s).loom0 (theDesc s).tenant true (runPlaces ((refAt (s.opRefs (theDesc s) n) (n - 1)).outRuns blank)) = none ∧
      s.fed (theDesc s) = true ∧ ∀ x ∈ (List.range ins).flatMap fun k => (refAt (s.opRefs (theDesc s) n) k).runs k,
        s.vaPoison (theDesc s).loom0 (theDesc s).tenant x.2.1 x.2.2 = false) : bobbinMeets s code n args ins :=
  ⟨a, b, fun f => operandsReady_congr _ _ _ _ _ _ (runPlaces_outRuns _ blank f) c⟩
theorem witness_BobbinOperatorsRun :
    bobbinMeets (bobbin 0x110 [fIn, fRow, fOut]) 0x110 3 96 2 ∧
    bobbinMeets (bobbin 0x118 [fIn, fOut]) 0x118 2 64 1 ∧ bobbinMeets (bobbin 0x120 [fIn, fCol]) 0x120 2 64 1 ∧
    bobbinMeets (bobbin 0x128 [fIn, fOut]) 0x128 2 64 1 ∧ bobbinMeets (bobbin 0x130 [fIn, fRow, fRow, fOut]) 0x130 4 128 3 ∧
    bobbinMeets (bobbin 0x138 [fIn, fOut]) 0x138 2 64 1 :=
  ⟨bobbinMeets_of _ _ _ _ _ (by decide +kernel) (by decide +kernel) (by decide +kernel),
    bobbinMeets_of _ _ _ _ _ (by decide +kernel) (by decide +kernel) (by decide +kernel),
    bobbinMeets_of _ _ _ _ _ (by decide +kernel) (by decide +kernel) (by decide +kernel),
    bobbinMeets_of _ _ _ _ _ (by decide +kernel) (by decide +kernel) (by decide +kernel),
    bobbinMeets_of _ _ _ _ _ (by decide +kernel) (by decide +kernel) (by decide +kernel),
    bobbinMeets_of _ _ _ _ _ (by decide +kernel) (by decide +kernel) (by decide +kernel)⟩
/-- The shapes those operators ask for. -/
theorem witness_bobbin_shapes :
    (∀ k ∈ [fIn, fRow], (k.dim0 = fOut.dim0 ∨ k.dim0 = 1) ∧ (k.dim1 = fOut.dim1 ∨ k.dim1 = 1) ∧ (k.dim2 = fOut.dim2 ∨ k.dim2 = 1)) ∧
    fIn.sameShape fOut = true ∧ fCol.dim0 = 1 ∧ fIn.dim1 = fCol.dim1 ∧ fIn.dim2 = fCol.dim2 ∧ fRow.dim0 = fIn.dim0 ∧
    (∀ c ∈ [0x110, 0x118, 0x120, 0x128, 0x130, 0x138], (theDesc (bobbin c [])).inl 0 2 = 0) := by decide +kernel

/-- A list of two indices, and INT8 rows. -/
def listRef : TRef := tref 0x3000 8 2 1 1 64 0
def rows3 : TRef := tref 0x2000 2 4 3 1 64 0
def rows2 : TRef := tref 0x4000 2 4 2 1 64 0
def moverWith (flags code : Nat) (refs : List TRef) : State :=
  opStateWith flags code [0, 0, 0, 0, 1, 2, 3, 4] refs [(0x3000, bs [2, 0, 0, 0, 1, 0, 0, 0])]
def mover (code : Nat) (refs : List TRef) : State := moverWith 0 code refs
theorem witness_DataMovementOperatorsRun :
    bobbinMeets (mover 0x400 [rows2, { rows2 with base := 0x5000 }]) 0x400 2 64 1 ∧
    (∀ fl ∈ [0, 256], let s := moverWith fl 0x400 [rows2, { rows2 with base := 0x5000 }]
     let t := onM (fun m => { m with bad := [0x1004000] }) s
     t.opReady 1 0 0x400 = some (theDesc t, t) ∧ t.vaPoison (theDesc t).loom0 1 0x4000 4 = true ∧ (theDesc t).darnOk = decide (fl = 256) ∧
     t.fed (theDesc t) = true ∧
     (0, 0x4000, 4) ∈ (refAt (t.opRefs (theDesc t) 2) 0).runs 0) ∧
    (let s := mover 0x401 [rows2]
     s.opReady 1 0 0x401 = some (theDesc s, s) ∧ s.fed (theDesc s) = true ∧ (∀ x ∈ s.opRefs (theDesc s) 1, x.legal false = true) ∧ (theDesc s).inl 0 2 = 0 ∧
     s.firstFault (theDesc s).loom0 1 false [(0, (theDesc s).argPtr, 32)] = none ∧
     s.firstFault (theDesc s).loom0 1 true ((refAt (s.opRefs (theDesc s) 1) 0).rows.map fun x => (15, rows2.rowVa x.1 x.2, 4)) = none) ∧
    (∀ c ∈ [(0x402, [rows3, listRef, rows2]), (0x403, [rows2, listRef, rows3])],
      let s := mover c.1 c.2
      let d := theDesc s
      s.opReady 1 0 c.1 = some (d, s) ∧ s.fed d = true ∧ (∀ x ∈ s.opRefs d 3, x.legal false = true) ∧ (refAt (s.opRefs d 3) 1).elem = .int32 ∧ d.inl 0 2 = 0 ∧
      (∀ x ∈ rows2.rows, 0 ≤ s.listIndex d (refAt (s.opRefs d 3) 1) x.1 x.2 ∧ s.listIndex d (refAt (s.opRefs d 3) 1) x.1 x.2 < 3) ∧
      s.firstFault d.loom0 1 false [(0, d.argPtr, 96)] = none ∧
      (∀ k ∈ [0, 1, 2], s.firstFault d.loom0 1 false ((refAt (s.opRefs d 3) k).runs k) = none ∧
        s.firstFault d.loom0 1 true ((refAt (s.opRefs d 3) k).runs 15) = none ∧
        ∀ x ∈ (refAt (s.opRefs d 3) k).runs k, s.vaPoison d.loom0 1 x.2.1 x.2.2 = false)) :=
  ⟨bobbinMeets_of _ _ _ _ _ (by decide +kernel) (by decide +kernel) (by decide +kernel), by decide +kernel, by decide +kernel, by decide +kernel⟩

/-- A descriptor dispatched at CCLK 5. -/
def dispatched (op flags : Nat) (inl : List Nat) : State := withDescs ring1 [{ mkD 1 0 1 (dbytes op flags 1 0 inl) with dispAt := some 5, hit := true }]
/-- A loom test whose time has come. -/
def bisting : State := onT (fun t => { t with cclk := 2000000 }) (running (descOf 0xF10 0 1) ring1 true false)
theorem witness_ControlOperatorsComplete :
    (∀ op ∈ [0xF00, 0xF01, 0xF03], let s := dispatched op 0 []
      let d := theDesc s
      let s0 := s.elapseTo 5
      s.desc? 1 0 = some d ∧ d.dispAt = some 5 ∧ d.phase = .waiting ∧ d.coll = false ∧ s0.desc? 1 0 = some d ∧ d.deadlineEn = false ∧
      d.stopped = false ∧ d.darned = false ∧ d.opcode = op) ∧
    (∀ op ∈ [0xF00, 0xF01, 0xF03], let s := dispatched op 2 []
     let d := theDesc s
     let s0 := s.elapseTo 5
     s.desc? 1 0 = some d ∧ d.dispAt = some 5 ∧ d.phase = .waiting ∧ d.coll = false ∧ d.opcode = op ∧ s0.desc? 1 0 = some d ∧
     d.deadlineEn = true ∧ s0.trd.now.atOrAfter d.deadline = true) ∧
    (∀ fl ∈ [0, 2], let s := dispatched 0xF02 fl []
     let d := theDesc s
     let s0 := s.elapseTo 5
     ∃ e ∈ s0.ten.descs, s.desc? 1 0 = some d ∧ d.dispAt = some 5 ∧ d.opcode = 0x0F02 ∧ s0.desc? 1 0 = some e ∧ ∃ h ∈ e.waitHit.toList,
       let u := s0.elapseTo (h + 2)
       ∃ w ∈ u.ten.descs, u.desc? 1 0 = some w ∧ w.dispAt = some 5 ∧ 5 ≤ u.trd.cclk ∧ w.phase = .waiting ∧ w.coll = false ∧
         w.opcode = 0x0F02 ∧ w.stopped = false ∧ w.darned = false ∧ (w.deadlineEn = decide (fl = 2)) ∧ u.trd.now.atOrAfter w.deadline = true) ∧
    (let s := dispatched 0xF02 0 [0, 0, 0, 0, 1]
     ∃ e ∈ (s.elapseTo 5).ten.descs, s.desc? 1 0 = some (theDesc s) ∧ (s.elapseTo 5).desc? 1 0 = some e ∧ e.waitHit = none) ∧
    (let d := theDesc bisting
     bisting.opDesc? 1 0 0x0F10 = some d ∧ bisting.looms.length = 34 ∧
       (bisting.elapseTo ((d.work.map fun w => w.began).foldl max 0 + 2000000)).desc? 1 0 = some d ∧
       ∃ p ∈ bisting.bistLooms d, p < 34 ∧ (bisting.loom p).state = .active ∧ ((bisting.completeDesc d 0 0).loom p).work = none) :=
  ⟨by decide +kernel, by decide +kernel, by decide +kernel, by decide +kernel, by decide +kernel⟩
/-- Loom 4 is failing, at a shed launch. -/
def retiring (deny : Nat) : State :=
  let s := on (onT (fun t => { t with now := ⟨3, 0, 0, 5⟩, cclk := 1000 }) base) [(Reg.LOM_DENY_LO, ⟨0, 32⟩, deny)]
  { s with looms := s.looms.set 4 { s.loom 4 with state := .failing, cause := 3, failedAt := 900 } }
theorem witness_LoomsFailAndRetire :
    (base.looms.length = 34 ∧ (base.loom 0).state = .active ∧ (base.loom 33).state = .spare ∧ (base.loom 0).work = none ∧
      base.fld Reg.LOM_RETIRE_CFG Reg.LOM_RETIRE_CFG_CE_LIMIT = 0 ∧ ((retiring 0).loom 4).state = .failing) ∧
    (let s := on base [(Reg.LOM_RETIRE_CFG, Reg.LOM_RETIRE_CFG_CE_LIMIT, 1)]
     s.fld Reg.LOM_RETIRE_CFG Reg.LOM_RETIRE_CFG_CE_LIMIT ≤ (s.loom 0).ceFrame + 1 ∧ (s.loom 0).state = .active) ∧
    (∀ b : Bool, let s := running { descOf 0x110 0 1 with stopped := b } ring1 true false
      s.looms.length = 34 ∧ (s.loom 1).state = .active ∧ (s.loom 1).work = some (1, 0) ∧ s.desc? 1 0 = some (theDesc s) ∧
      (theDesc s).stopped = b ∧ (theDesc s).phase ≠ .rerun) ∧
    (let s := { ring1 with looms := (running (descOf 0x110 0 1) ring1 true false).looms }
     (s.loom 1).state = .active ∧ (s.loom 1).work = some (1, 0) ∧ s.desc? 1 0 = none) ∧
    (let s := withDescs ring1 [{ descOf 0x110 0 1 with phase := .rerun }]
     s.desc? 1 0 = some (theDesc s) ∧ (theDesc s).phase = .rerun ∧ (theDesc s).looms ≤ s.freeFor (s.ringLive (theDesc s).ring)) ∧
    (∀ deny ∈ [0, 4], let s := retiring deny
      s.shedNow = some (3, 3) ∧ s.darkFrame 3 = false ∧ s.toAction (s.launchStamp 3 3) = 0 ∧
        (s.loom 4).state = .failing ∧ (s.loom 4).logical = 4 ∧ (s.loom 4).failedAt < s.trd.cclk - s.trd.now.cyc ∧ (s.loom 32).state = .spare ∧
        (deny = 4 → (s.loom 2).state = .active ∧ s.denied 2 = true ∧ (s.loom 2).work = none ∧ (s.loom 2).logical = 2)) ∧
    (onT (fun t => { t with now := ⟨3, 1, 0, 5⟩ }) base).shedNow = none ∧
    (let s := { retiring 0 with scn := { base.scn with blank := [3] } }
     s.shedNow = some (3, 3) ∧ s.darkFrame 3 = true) :=
  ⟨by decide +kernel, by decide +kernel, by decide +kernel, by decide +kernel, by decide +kernel, by decide +kernel, by decide +kernel,
    by decide +kernel⟩


/-! Chapter 6. -/

/-- The line address of the states below. -/
def pa0 : Nat := 0x1000000
def trained : State := on base [(Reg.DMC_STATUS, Reg.DMC_STATUS_TRAINED, 1)]
/-- The window of `pa0` is coherent. -/
def inWindow (s : State) : State :=
  on s [(Reg.SPL_REGION_BASE_LO 0, Reg.SPL_REGION_BASE_LO_EN, 1), (Reg.SPL_REGION_BASE_LO 0, Reg.SPL_REGION_BASE_LO_COH, 1),
    (Reg.SPL_REGION_LIMIT_LO 0, Reg.SPL_REGION_LIMIT_LO_LIMIT, 100)]
/-- The local arrays of looms 1 and 3 have an L1 portion. -/
def withL1 (s : State) : State := { s with looms := (s.looms.set 1 { s.loom 1 with l1q := 1 }).set 3 { s.loom 3 with l1q := 1 } }
def lineAt (dir : DirState) (hs : List Nat) : SLine :=
  { pa := pa0, dirty := false, data := ramp 128, poison := false, cls := .bulk, writer := 0, lru := 1, dir := dir, holders := hs }
def spoolWith (l : SLine) (s : State) : State := onM (fun m => { m with spool := [(spoolKey pa0 0, l)], wmap := [4096] }) s
def inSpool (dir : DirState) (hs : List Nat) : State := spoolWith (lineAt dir hs) trained
/-- The same in a coherent window, for the L1s of looms 1 and 3. -/
def cohSpool (dir : DirState) (hs : List Nat) : State := withL1 (inWindow (inSpool dir hs))
def waiterOf (req tag : Nat) (want : L1Want) : Waiter := { req := req, tag := tag, write := none, darned := false, cls := .live, want := want }
def missOf (data : Option (List Byte)) : Mshr :=
  { pa := pa0, cls := .live, waiters := [waiterOf 2 7 .no], rasWays := 0, data := data, poison := false, fillAt := 5 }
def missing (l : List Mshr) : State := onM (fun m => { m with wmap := [4096], mshrs := l }) trained
def transOf (k : DirKind) : DirTrans := { pa := pa0, kind := k, holder := 1, waiter := waiterOf 3 7 .read }
def wtrans : DirTrans := { pa := pa0, kind := .recallWrite, holder := 1, waiter := { waiterOf 3 7 .no with write := some (4, [1#8]) } }
def transiting (x : DirTrans) (s : State) : State := onM (fun m => { m with trans := [x] }) s

theorem witness_EverySliceHoldsOneLineOfABlock : (11 : Nat) < 12 ∧ (1535 : Nat) < 1536 := by decide
theorem witness_TheSpoolServesReadsAndWrites :
    (tblFind trained.mem.taken (sliceOf pa0) = none ∧
      (onM (fun m => { m with taken := [(sliceOf pa0, 0, 9)] }) trained).trd.cclk = 0 ∧
      tblFind (onM (fun m => { m with taken := [(sliceOf pa0, 0, 9)] }) trained).mem.taken (sliceOf pa0) = some (0, 9) ∧ (1 : Fin 38).val < 9) ∧
    (trained.takeAt 24159191040 1).dramTop ≤ 24159191040 ∧ (trained.takeAt pa0 1).dramTop = 24159191040 ∧
    (let u := (inSpool .inv []).takeAt pa0 37
     u.line? pa0 = some (lineAt .inv []) ∧ u.cohAccess (37 : Fin 38) pa0 .live = false ∧ (lineAt .inv []).poison = false ∧
     u.wayOf pa0 = some 0 ∧ (lineAt .inv []).dirty = false ∧ ({ u with mem := { u.mem with spool := tblDel u.mem.spool (spoolKey pa0 0) } } : State).line? pa0 = none ∧
     (∀ m ∈ u.mem.mshrs, m.pa ≠ lineOf pa0) ∧ u.granuleSet pa0 = true ∧ u.mshrFree (sliceOf pa0) .live = true ∧
     (lineAt .inv []).pa = lineOf pa0 ∧ (lineAt .inv []).data.length = 128 ∧ (pa0 + 127) % 128 + [0#8].length ≤ 128) ∧
    ((spoolWith { lineAt .inv [] with dirty := true } trained).takeAt pa0 0).line? pa0 = some { lineAt .inv [] with dirty := true } ∧
    (∀ x ∈ [(DirState.inv, []), (.shared, [1, 3]), (.excl, [1]), (.modified, [1])], let u := (cohSpool x.1 x.2).takeAt pa0 2
      u.line? pa0 = some (lineAt x.1 x.2) ∧ u.cohAccess (2 : Fin 38) pa0 .live = true ∧ (u.mem.trans.any fun x => x.pa == lineOf pa0) = false) ∧
    (let u := (transiting (transOf .read) (cohSpool .modified [1])).takeAt pa0 2
     u.line? pa0 = some (lineAt .modified [1]) ∧ u.cohAccess (2 : Fin 38) pa0 .live = true ∧ (u.mem.trans.any fun x => x.pa == lineOf pa0) = true) ∧
    (let u := trained.takeAt pa0 2
     u.line? pa0 = none ∧ u.granuleSet pa0 = false ∧ ∀ m ∈ u.mem.mshrs, m.pa ≠ lineOf pa0) ∧
    (let u := (missing []).takeAt pa0 2
     u.line? pa0 = none ∧ u.granuleSet pa0 = true ∧ (∀ m ∈ u.mem.mshrs, m.pa ≠ lineOf pa0) ∧ u.mshrFree (sliceOf pa0) .live = true ∧
     pa0 % 128 + (ramp 128).length ≤ 128 ∧ (ramp 128).length = 128 ∧ MemClass.live ≠ .raster ∧ pa0 % 128 + (ramp 5).length ≤ 128 ∧
     (ramp 5).length ≠ 128 ∧ ∃ w ∈ waysFor .live u.rasWays, tblFind u.mem.spool (spoolKey pa0 w) = none) ∧
    (let u := (missing ((List.range 64).map fun i => { missOf none with pa := pa0 + 1536 * (i % 14 + 1) })).takeAt pa0 2
     u.line? pa0 = none ∧ u.granuleSet pa0 = true ∧ (∀ m ∈ u.mem.mshrs, m.pa ≠ lineOf pa0) ∧ u.mshrFree (sliceOf pa0) .live = false) ∧
    (let u := (missing [missOf none]).takeAt pa0 2
     u.line? pa0 = none ∧ ∃ m ∈ u.mem.mshrs, m.pa = lineOf pa0) :=
  ⟨by decide +kernel, by decide +kernel, by decide +kernel, by decide +kernel,
    by decide +kernel, by decide +kernel, by decide +kernel, by decide +kernel, by decide +kernel, by decide +kernel, by decide +kernel⟩
def dramReq (c : Nat) (kind : DramKind) (cls : MemClass) (age req : Nat) (slot : Option Nat) : DramReq :=
  { chan := c, kind := kind, pa := pa0 + 128 * age, cls := cls, req := req, cclk := age, age := age, slot := slot, waits := none, data := [], poison := false
    ack := none }
def zfill : ZeroFill := ⟨4096, [dramReq 0 .write .bulk 3 1 none]⟩
theorem witness_FillsServeTheirWaiters :
    (∀ w ∈ [waiterOf 2 7 .no, waiterOf 1 70 .read, waiterOf 1 70 .own, { waiterOf 2 7 .no with write := some (4, [1#8]) }],
      let m := { missOf (some (ramp 128)) with waiters := [w] }
      let s := missing [m]
      (s.mem.mshrs.find? fun m => m.pa == lineOf pa0) = some m ∧ m.data = some (ramp 128) ∧ m.poison = false ∧
      (∀ w ∈ m.waiters, w.darned = false) ∧ (s.elapseTo m.fillAt).line? pa0 = none ∧ waysFor m.cls m.rasWays ≠ [] ∧
      ∀ h ∈ (s.elapseTo m.fillAt).mem.heldMiss, sliceOf h.pa ≠ sliceOf pa0) ∧
    (let s := onM (fun m => { m with zeroing := [zfill] }) trained
     (s.mem.zeroing.find? fun z => z.granule == 4096) = some zfill ∧ ∀ q ∈ s.mem.queue, q.kind = .zero → q.pa / 4096 ≠ 4096) ∧
    (let s := onM (fun m => { m with zeroing := [zfill], queue := [dramReq 0 .zero .bulk 3 1 none] }) trained
     ∃ q ∈ s.mem.queue, q.kind = .zero ∧ q.pa / 4096 = 4096) := by decide +kernel
/-- Loom 3's L1 asks and it may. -/
def l1Asks (s : State) : Prop :=
  pa0 < (s.takeAt pa0 3).dramTop ∧ (s.takeAt pa0 3).l1qOf 3 ≠ 0 ∧ (s.takeAt pa0 3).cohL1 3 pa0 = true ∧ (s.takeAt pa0 3).l1Room 3 pa0 = true
theorem witness_TheDirectoryMakesItsTransitions :
    (trained.takeAt 24159191040 3).dramTop ≤ 24159191040 ∧
    (pa0 < (trained.takeAt pa0 3).dramTop ∧ (trained.takeAt pa0 3).l1qOf 3 = 0) ∧
    (let u := (withL1 (inSpool .inv [])).takeAt pa0 3
     u.l1qOf 3 ≠ 0 ∧ u.cohL1 3 pa0 = false ∧ (u.mem.l1.find? fun x => x.loom == 3 && x.pa == lineOf pa0) = none ∧ u.line? pa0 = some (lineAt .inv []) ∧
      u.l1Room 3 pa0 = true) ∧
    (let u := (onM (fun m => { m with l1 := [⟨3, pa0, false, ramp 128, false⟩] }) (withL1 trained)).takeAt pa0 3
     u.l1qOf 3 ≠ 0 ∧ u.cohL1 3 pa0 = false ∧ (u.mem.l1.find? fun x => x.loom == 3 && x.pa == lineOf pa0) = some ⟨3, pa0, false, ramp 128, false⟩) ∧
    (l1Asks (transiting (transOf .read) (cohSpool .modified [1])) ∧ ((transiting (transOf .read) (cohSpool .modified [1])).takeAt pa0 3).dirBusy pa0 = true) ∧
    (let s := withL1 (inWindow trained)
     l1Asks s ∧ (s.takeAt pa0 3).dirBusy pa0 = false ∧ (s.takeAt pa0 3).line? pa0 = none ∧ (s.takeAt pa0 3).granuleSet pa0 = false ∧
       (∀ m ∈ (s.takeAt pa0 3).mem.mshrs, m.pa ≠ lineOf pa0) ∧ waysFor ((s.takeAt pa0 3).loomClass 3) (s.takeAt pa0 3).rasWays ≠ []) ∧
    (∀ x ∈ [(DirState.inv, []), (.shared, [1, 3]), (.excl, [1]), (.modified, [1]), (.excl, [3])], let u := (cohSpool x.1 x.2).takeAt pa0 3
      l1Asks (cohSpool x.1 x.2) ∧ u.wayOf pa0 = some 0 ∧ u.line? pa0 = some (lineAt x.1 x.2) ∧ u.dirBusy pa0 = false ∧
      ((cohSpool x.1 x.2).mem.wb.filter fun y => y.loom == (3 : Fin 32).val).length < 16) ∧
    ((1 : Nat) ≠ (3 : Fin 32).val ∧ (3 : Fin 32).val ∈ (lineAt .shared [1, 3]).holders ∧ (3 : Fin 32).val ∉ (lineAt .excl [1]).holders) ∧
    (let s := onM (fun m => { m with wb := (List.range 16).map fun i => ⟨3, 128 * i, none⟩ }) trained
     16 ≤ (s.mem.wb.filter fun y => y.loom == (3 : Fin 32).val).length) ∧
    ((transiting { transOf .evict with waiter := waiterOf 3 0 .no } trained).mem.trans.any fun x => x.kind == .evict && x.pa == lineOf pa0 && x.waiter.req == 3) = true ∧
    (trained.mem.trans.any fun x => x.kind == .evict && x.pa == lineOf pa0 && x.waiter.req == 3) = false ∧
    (∀ x ∈ [transOf .read, transOf .readForWrite, transOf .recall, wtrans], let s := transiting x (cohSpool .modified [1])
      s.wayOf pa0 = some 0 ∧ s.line? pa0 = some (lineAt .modified [1]) ∧
      (s.mem.trans.filter fun t => t.pa == lineOf pa0) = [x] ∧ x.holder = (1 : Fin 32).val ∧
      (x.kind = .recallWrite → x.waiter.write = some (4, [1#8]) ∧ 4 + [1#8].length ≤ 128 ∧ (lineAt .modified [1]).pa = lineOf pa0 ∧
        s.cohAccess x.waiter.req pa0 x.waiter.cls = true)) := by
  unfold l1Asks
  exact ⟨by decide +kernel, by decide +kernel, by decide +kernel, by decide +kernel, by decide +kernel, by decide +kernel, by decide +kernel,
    by decide +kernel, by decide +kernel, by decide +kernel, by decide +kernel, by decide +kernel⟩
/-- Channel 5 is at slot `k` with requests waiting, and a window from slot `b`. -/
def atSlot (k b line : Nat) (q : List DramReq) : State :=
  onM (fun m => { m with queue := q, bound := some 0 })
    ((on (onT (fun t => { t with now := ⟨0, line, 0, 0⟩, time := 1100 * k }) trained) [(Reg.DMC_CFG, Reg.DMC_CFG_RAS_SLOTS, 4)]).setChannel 5
      { trained.channel 5 with slot := k, blockFrom := b, blockUntil := b + 10, next := 5 })
/-- The state in which that slot is granted. -/
def slotTime (s : State) (k : Nat) : State :=
  State.elapse ((2 * s.mem.slotZero + 2079 * k - 2 * s.trd.time + 2 * s.cclkTime - 1) / (2 * s.cclkTime)) s
def waiting : List DramReq := [dramReq 5 .read .live 4 1 none, dramReq 5 .write .bulk 2 1 none]
def rasterAt (k : Nat) : DramReq := dramReq 5 .read .raster 9 7 (some k)
def flight5 (k : DramKind) : Flight := { chan := 5, kind := k, age := 3, pa := pa0, grantAt := 0, count := 3, penalty := false }
theorem witness_DramSlotsAreGranted :
    let mine := fun (s : State) => s.mem.queue.filter fun q => q.chan == 5 && q.waits.isNone
    let live := fun (s : State) => (mine s).filter fun q => q.cls == .live || (q.cls == .raster && q.slot.isNone)
    let bulk := fun (s : State) => (mine s).filter fun q => q.cls == .bulk
    base.trained = false ∧
    (∀ k ∈ [0, 9], let s := atSlot k 0 0 waiting
      let ch := s.channel 5
      s.trained = true ∧ ch.blockFrom ≤ ch.slot ∧ ch.slot < ch.blockUntil ∧ ch.slot = k ∧ ∀ q ∈ mine (slotTime s k), q.slot ≠ some ch.slot) ∧
    (∀ k ∈ [0, 10, 62, 126], let s := atSlot k 1000 5000 waiting
      let ch := s.channel 5
      let s0 := slotTime s k
      s.trained = true ∧ ch.slot = k ∧ ¬(ch.blockFrom ≤ k ∧ k < ch.blockUntil) ∧ (∀ q ∈ mine s0, q.slot ≠ some k) ∧ live s0 ≠ [] ∧ bulk s0 ≠ [] ∧
      (k < 62 → ¬(s0.rasSlots ≤ 6 ∧ k % 8 = 6 ∧ (k / 8 % 16 = 15 ∨ k / 8 % 16 = 7))) ∧ (k = 126 → k % 8 = 6 ∧ k / 8 % 16 = 15) ∧
      (k = 62 → k % 8 = 6 ∧ k / 8 % 16 = 7 ∧ s0.blankingLine = true)) ∧
    (let s := slotTime (atSlot 0 1000 0 []) 0
     live s = [] ∧ bulk s = [] ∧ ¬((s.channel 5).blockFrom ≤ 0 ∧ 0 < (s.channel 5).blockUntil)) ∧
    (∀ k ∈ [0, 3], let s := slotTime (atSlot k 1000 0 (rasterAt k :: waiting)) k
      ((mine s).filter fun x => x.slot == some k) = [rasterAt k] ∧ k % 8 < s.rasSlots) ∧
    (let s := atSlot 0 1000 0 waiting
     dramReq 5 .read .live 4 1 none ∈ s.mem.queue ∧ dramReq 5 .write .bulk 2 1 none ∈ s.mem.queue ∧ ∀ l ∈ s.mem.leaving, l.pa ≠ pa0 + 256) ∧
    (trained.mem.flights.find? fun f => f.chan == 5) = none ∧
    (∀ k ∈ [DramKind.read, .checkRead], let s := onM (fun m => { m with flights := [flight5 k], mshrs := [missOf none] }) trained
     (s.mem.flights.find? fun f => f.chan == 5) = some (flight5 k) ∧ (flight5 k).kind = k ∧ (flight5 k).penalty = false ∧
     missOf none ∈ (s.elapseTo 3).mem.mshrs ∧ (missOf none).pa = (flight5 k).pa) ∧
    (∀ x ∈ [(none, 24), (none, 25), (some 7, 4), (some 7, 5), (some 0, 5)],
      let s0 := atSlot 0 0 0 []
      let s := onM (fun m => { m with bound := some x.2 }) (s0.setChannel 5 { s0.channel 5 with frame := x.1 })
      s.mem.bound = some x.2 ∧ (s.channel 5).next = 5 ∧ (s.channel 5).frame = x.1 ∧ s.refreshOwed 5 = false ∧
        5 * s.fld Reg.DMC_REF_CFG Reg.DMC_REF_CFG_STAGGER = 25) ∧
    (onT (fun t => { t with time := 4 * usTime }) (atSlot 0 0 0 [])).refreshOwed 5 = true ∧
    (let s := on (onT (fun t => { t with now := ⟨5, 0, 0, 0⟩ }) trained) [(Reg.DMC_SCRUB_CFG, Reg.DMC_SCRUB_CFG_TARGET, 5)]
     s.fld Reg.DMC_SCRUB_CFG Reg.DMC_SCRUB_CFG_TARGET ≠ 0 ∧ (s.channel 5).starved = false ∧
     s.fld Reg.DMC_SCRUB_CFG Reg.DMC_SCRUB_CFG_TARGET ≤ (s.trd.now.frame + 65536 - (s.channel 5).passFrom) % 65536) ∧
    ¬((on (onT (fun t => { t with now := ⟨5, 0, 0, 0⟩ }) trained) [(Reg.DMC_SCRUB_CFG, Reg.DMC_SCRUB_CFG_TARGET, 6)]).fld Reg.DMC_SCRUB_CFG
      Reg.DMC_SCRUB_CFG_TARGET ≤ 5) :=
  ⟨by decide +kernel, by decide +kernel, by decide +kernel, by decide +kernel, by decide +kernel, by decide +kernel, by decide +kernel,
    by decide +kernel, by decide +kernel, by decide +kernel, by decide +kernel, by decide +kernel⟩
/-- Channel 3 of loom 1 runs, physical or for tenant 1 at a virtual address. -/
def channelRun (va dir : Nat) (phys : Bool) (s : State) : State :=
  s.setChan 1 3 { base.chan 1 3 with
    state := .run, ring := 1, seq := 0, tenant := 1, src := va, dst := va, rowBytes := 256, rows := 1, dir := dir, phys := phys, raster := false, pos := 0
    xlated := none, fault := none, retry := false }
/-- A walk of three levels from tenant 1's root ends in an entry. -/
def tables (e : Nat) : State :=
  onM (fun m => { m with
    wmap := [0x2000, 0x2001, 0x2002]
    dram := ([(0x2000000, 0x2001001), (0x2001000, 0x2002001), (0x2002000, e)].flatMap fun x =>
      (leBytes 8 x.2).zipIdx.map fun y => (x.1 + y.2, y.1)).filter fun y => y.2 ≠ 0#8 })
    (on (withDescs ring1 [descOf 0 0 1]) [(Reg.MMU_CTX_LO 1, Reg.MMU_CTX_LO_EN, 1), (Reg.MMU_CTX_LO 1, Reg.MMU_CTX_LO_ROOT, 0x2000)])
/-- The state in which channel 3's translation is made, begun at once. -/
def xlateTime (s : State) (va : Nat) : State := s.nextFree.2.elapseTo (max 0 (s.xlateFrom (s.chan 1 3)) + s.xlateCclk 1 (s.chan 1 3).tenant va)
/-- The same channel resumes from a fault. -/
def resuming (kind : Nat) (s : State) : State :=
  s.setChan 1 3 { s.chan 1 3 with state := .halted, retry := true, slot := some 0, fault := some { kind := kind, cause := 1, write := false, va := 0x40, cclk := 0, stamp := ⟨0, 0, 0, 0⟩ } }
theorem witness_TheMmuTranslates :
    (∀ b : Bool, let s := channelRun 0 0 b (mapped ring1)
      let ch := s.chan (1 : Fin 32) (3 : Fin 16)
      ch.state = .run ∧ ch.xlated = none ∧ ch.pos < ch.total ∧ ch.fault = none ∧ ch.retry = false ∧ ch.phys = b ∧ ch.raster = false) ∧
    (∃ pa v b p w, (xlateTime (channelRun 0 0 false (mapped ring1)) 0).xlate 1 1 0 false = .ok pa v b p w) ∧
    (base.chan 1 3).state ≠ .run ∧
    (let s := channelRun 0x40 0 false (on (withDescs ring1 [descOf 0 0 1]) [(Reg.MMU_CTX_LO 1, Reg.MMU_CTX_LO_EN, 1), (Reg.MMU_CTX_LO 1, Reg.MMU_CTX_LO_ROOT, 0x2000)])
     (s.chan 1 3).lineVa = 0x40 ∧ (xlateTime s 0x40).xlate 1 1 0x40 false = .fault 1) ∧
    (let s := channelRun 0x40 0 false (withDescs ring1 [descOf 0 0 1])
     (xlateTime s 0x40).xlate 1 1 0x40 false = .fault 6 ∧ (s.chan 1 3).raster = false ∧
     (xlateTime s 0x40).desc? (s.chan 1 3).ring (s.chan 1 3).seq = some (descOf 0 0 1)) ∧
    (∃ pa v b p w, (xlateTime (resuming 0 (channelRun 0 0 false (mapped ring1))) 0x40).xlate 1 1 0x40 false = .ok pa v b p w) ∧
    (let s := resuming 0 (channelRun 0 0 false (on ring1 [(Reg.MMU_CTX_LO 1, Reg.MMU_CTX_LO_EN, 1), (Reg.MMU_CTX_LO 1, Reg.MMU_CTX_LO_ROOT, 0x2000)]))
     (s.chan 1 3).fault = some ⟨0, 1, false, 0x40, 0, ⟨0, 0, 0, 0⟩⟩ ∧ (s.chan 1 3).xlated = none ∧ (s.chan 1 3).retry = true ∧ (s.chan 1 3).phys = false ∧
       (s.chan 1 3).raster = false ∧ (xlateTime s 0x40).xlate 1 1 0x40 false = .fault 1) ∧
    ring1.bit (Reg.MMU_CTX_LO 1) Reg.MMU_CTX_LO_EN = false ∧
    (Reg.MMU_INV_GO.get 0#32 = 0 ∧ Reg.MMU_INV_GO.get 1#32 = 1 ∧ (mapped ring1).mem.inval = none ∧ Reg.MMU_INV_SCOPE.get 1#32 = 0 ∧
      (∀ k ∈ [1, 2, 3], Reg.MMU_INV_GO.get (Reg.MMU_INV_SCOPE.put 1#32 k) = 1 ∧ Reg.MMU_INV_SCOPE.get (Reg.MMU_INV_SCOPE.put 1#32 k) = k)) ∧
    (onM (fun m => { m with inval := some ⟨0, 0, 0, 5⟩ }) ring1).mem.inval = some ⟨0, 0, 0, 5⟩ :=
  ⟨by decide +kernel, ⟨0x1000000, 0, 21, 0x1000000, true, by decide +kernel⟩, by decide +kernel, by decide +kernel, by decide +kernel, ⟨0x1000040, 0, 21, 0x1000000, true, by decide +kernel⟩,
    by decide +kernel, by decide +kernel, by decide +kernel, rfl⟩


/-! Chapter 7. -/

def onS (f : Sht → Sht) (s : State) : State := { s with sht := f s.sht }
def chanOf : Chan :=
  { Chan.idle with state := .run, ring := 1, seq := 0, tenant := 1, rowBytes := 256, rows := 2, bufLen := 1024, fill := 256, xlated := some 0x1000040 }
/-- Loom, tenant and RASTER buckets are regulated, with levels for loom 1 and tenant 1. -/
def buckets (loom tenant : Nat) : State :=
  onS (fun t => { t with loomLvl := [(1, loom), (7, 200)], tenLvl := [(1, tenant)], rasLvl := some 5, refilled := 9 })
    (on ring1 [(Reg.SHT_LOOM_BKT, ⟨0, 32⟩, 0x00020080), (Reg.SHT_TEN_BKT 1, ⟨0, 32⟩, 0x00020080), (Reg.SHT_RAS_BKT, ⟨0, 32⟩, 0x00020040)])
/-- The channels of loom 1 when it may issue. -/
def issueState (s : State) : State := (s.issueTurn 1).moveLines 1
def empty3 : Chan := { chanOf with fill := 0 }
def outbound : Chan := { chanOf with dir := 2 }
/-- Channel 3 of loom 1 has room, and its consumer nothing to release. -/
def inbound (level : Nat) : State := (buckets level 200).setChan 1 3 empty3
/-- Where every channel's other side has nothing to move, only the free value is taken. -/
theorem moveLines_still (s : State) (loom : Nat) (h : ∀ e ∈ s.sht.chans, ∀ k, e.2.moved k = e.2) : s.moveLines loom = s.nextFree.2 := by
  have hm : s.sht.chans.map (fun e => if e.1 / 16 = loom ∧ (e.2.state = .run ∨ e.2.state = .held ∨ e.2.state = .done)
      then (e.1, e.2.moved (Config.linesMoved s.free (e.1 % 16))) else e) = s.sht.chans := by
    conv => rhs; rw [← List.map_id s.sht.chans]
    apply List.map_congr_left
    intro e he
    split
    · rw [h e he]; rfl
    · rfl
  show ({ s.nextFree.2 with sht := { s.sht with chans := _ } } : State) = s.nextFree.2
  rw [show s.nextFree.2.sht.chans = s.sht.chans from rfl, hm]
  rfl
theorem issueState_inbound (n : Nat) : issueState (inbound n) = ((inbound n).issueTurn 1).nextFree.2 := by
  apply moveLines_still
  intro e he k
  have hc : ((inbound n).issueTurn 1).sht.chans = [(19, empty3)] := rfl
  rw [hc, List.mem_singleton] at he
  subst he
  simp [Chan.moved, empty3, chanOf, Chan.idle]
theorem witness_TheRegulatorGatesLines :
    (∃ x, (onS (fun t => { t with issuer := some (0, 1) }) (buckets 128 128)).sht.issuer = some x ∧ x.1 = (0 : Nat) ∧ (1 : Fin 32).val ≤ x.2) ∧
    ((buckets 128 128).sht.issuer = none) ∧
    (∀ x ∈ [(inbound 127, none), (inbound 128, some 3)], (issueState x.1).turn 1 = x.2) ∧
    (∀ x ∈ [(inbound 128).chan 1 3, ((buckets 128 128).setChan 1 3 outbound).chan 1 3], x.xlated = some 0x1000040) ∧
    (let u := issueState ((buckets 128 128).setChan 1 3 outbound)
     u.turn 1 = some 3 ∧ (u.chan 1 3).xlated = some 0x1000040 ∧ (u.chan 1 3).writes = true) ∧
    ring1.sht.refilled = ring1.ten.picks ∧
    (let s := buckets 127 128
     let s0 := State.elapse (2 - s.trd.now.cyc) s
     s.sht.refilled ≠ s.ten.picks ∧ (s0.sht.loomLvl.map fun e => e.1).Nodup ∧ (s0.sht.tenLvl.map fun e => e.1).Nodup) :=
  ⟨⟨(0, 1), by decide +kernel, by decide, by decide⟩, by decide +kernel, by
    simp only [List.mem_cons, List.not_mem_nil, or_false, forall_eq_or_imp, forall_eq, issueState_inbound]
    decide +kernel, by decide +kernel, by decide +kernel, by decide +kernel, by decide +kernel⟩
def faultOf (kind : Nat) : Fault7 := { kind := kind, cause := 1, write := false, va := 0x123456789, cclk := 0, stamp := ⟨0, 0, 0, 0⟩ }
def faultRec (res : Option Nat) (kind : Nat) : FaultRec :=
  { resuming := res, tag := 0x7766, seq := 0, ring := 1, loom := 1, chan := 3, pos := 128, fault := faultOf kind }
def haltedChan (kind : Nat) (slot : Option Nat) : Chan := { chanOf with state := .halted, fault := some (faultOf kind), pos := 128, slot := slot }
def haltedDesc : Desc := { descOf 0 0 1 with phase := .halted }
theorem witness_FaultsHaltAndResume :
    (let s := (withDescs ring1 [descOf 0 0 1]).setChan 1 3 { chanOf with fault := some (faultOf 0) }
     (s.chan (1 : Fin 32) (3 : Fin 16)).fault = some (faultOf 0) ∧ (s.chan 1 3).raster = false ∧ (s.chan 1 3).state ≠ .halted ∧
     s.desc? 1 0 = some (descOf 0 0 1) ∧ s.anyHalted 1 0 = false ∧ (s.chan 1 4).fault = none) ∧
    (let s := (withDescs ring1 [haltedDesc]).setChan 1 3 (haltedChan 0 none)
     (s.chan 1 3).fault = some (faultOf 0) ∧ (s.chan 1 3).state = .halted ∧ (s.chan 1 3).slot = none ∧ (s.chan 1 3).owed = false ∧
     s.desc? 1 0 = some haltedDesc ∧ (s.elapseTo 8).freeSlot 1 = some 0 ∧ s.anyHalted 1 0 = true) ∧
    (∀ o : Bool, let s := (withDescs ring1 [haltedDesc]).setChan 1 3 { haltedChan 0 (some 0) with owed := o }
     (s.chan 1 3).fault = some (faultOf 0) ∧ (s.chan 1 3).state = .halted ∧ (s.chan 1 3).slot.isSome = true ∧ (s.chan 1 3).owed = o ∧
     s.desc? 1 0 = some haltedDesc) ∧
    (let s := onS (fun t => { t with recs := (List.range 64).map fun i => (64 + i, { faultRec none 0 with seq := 5 }) })
       ((withDescs ring1 [haltedDesc]).setChan 1 3 (haltedChan 2 none))
     (s.elapseTo 8).freeSlot 1 = none ∧ s.desc? 1 0 = some haltedDesc ∧ (s.chan 1 3).slot = none ∧ (s.chan 1 3).owed = false) ∧
    (∀ r ∈ [none, some 0, some 7], let s := onS (fun t => { t with recs := [(127, faultRec r 1)] }) ((withDescs ring1 [haltedDesc]).setChan 1 3 (haltedChan 1 (some 63)))
      tblFind s.sht.recs ((1 : Fin 256).val * 64 + (0 : Fin 64).val) = none ∧
      tblFind s.sht.recs ((1 : Fin 256).val * 64 + (63 : Fin 64).val) = some (faultRec r 1) ∧ (r = some 7 ∨ r = none ∨ r = some s.trd.cclk) ∧
      s.desc? 1 0 = some haltedDesc) := by decide +kernel
def chainLine (darn : Bool) : ChainLine := ⟨1, 3, 0, ramp 128, darn⟩
def farState (s : State) : State := on s [(Reg.SHT_FAR_SIZE 1, Reg.SHT_FAR_SIZE_SIZE, 1), (Reg.SHT_FAR_BASE_LO 1, ⟨0, 32⟩, 0x4000)]
def farRead (page : Bool) : FarRead := ⟨0, 1, 128, 256, 0x1000000, 1, 0, page⟩
theorem witness_ChainsAndTheFarTierMoveLines :
    ((ring1.sht.chain.find? fun x => x.loom == (1 : Fin 32).val && x.chan == (3 : Fin 16).val) = none) ∧
    (let s := onS (fun t => { t with chain := [chainLine false] }) (ring1.setChan 1 3 { chanOf with chain := true })
     let s0 := (s.elapseTo 12).onSht fun t => { t with chain := t.chain.erase (chainLine false) }
     (s.sht.chain.find? fun x => x.loom == (1 : Fin 32).val && x.chan == (3 : Fin 16).val) = some (chainLine false) ∧ s0.nextRank 1 3 = none) ∧
    (∀ st ∈ [ChanState.run, .done], ∀ b : Bool,
     let s := onS (fun t => { t with chain := [chainLine b] })
       ((ring1.setChan 1 3 { chanOf with chain := true }).setChan 2 3 { chanOf with rank := 1, chain := true, state := st })
     let s0 := (s.elapseTo 12).onSht fun t => { t with chain := t.chain.erase (chainLine b) }
     (s.sht.chain.find? fun x => x.loom == (1 : Fin 32).val && x.chan == (3 : Fin 16).val) = some (chainLine b) ∧ s0.nextRank 1 3 = some 2 ∧
     (s0.chan 2 3).state = st ∧ (s0.chan 2 3).chain = true ∧ (chainLine b).data ≠ [] ∧ s0.physOf 2 = some 2) ∧
    (∀ l ∈ [[], [descOf 0 0 1]], let s := farState (withDescs ring1 l)
     ∀ m ∈ [s.hif.mrrs, s.hif.mps], 4096 / 128 * 128 ≤ s.farSize 1 ∧ s.farSize (1 : Fin 256) < 4096 / 128 * 128 + max (min m ((1 + 127) / 128 * 128)) 128 ∧ s.desc? 1 0 = l.head?) ∧
    (∀ x ∈ [(0, 0), (100, 0), (300, 256)], let s := onS (fun t => { t with tenLvl := [(1, x.1)] }) (on (farState ring1) [(Reg.SHT_TEN_BKT 1, ⟨0, 16⟩, 64)])
      let bs := if (s.moveAt 0x1000000).isSome then [Bucket.tenant 1] else [.loom 0, .tenant 1]
      s.freeTag = some 0 ∧ s.bucketRate (.tenant 1) ≠ 0 ∧
      ∀ m ∈ [s.hif.mrrs, s.hif.mps], 0 / 128 * 128 + max (min m ((256 + 127) / 128 * 128)) 128 ≤ s.farSize 1 ∧
        128 * s.linesHeld bs (min m ((256 + 127) / 128 * 128) / 128) = min m x.2) ∧
    (onS (fun t => { t with far := (List.range 256).map fun k => { farRead false with tag := k } }) (farState ring1)).freeTag = none ∧
    ((farState ring1).sht.far.find? fun f => f.tag == (0 : Fin 256).val) = none ∧
    (∀ b : Bool, ∀ l ∈ [[], [descOf 0 0 1]], let s := onS (fun t => { t with far := [farRead b] }) (withDescs (farState ring1) l)
      (s.sht.far.find? fun f => f.tag == (0 : Fin 256).val) = some (farRead b) ∧ (farRead b).page = b ∧ s.desc? 1 0 = l.head?) := by decide +kernel


/-! Chapter 8. -/

/-- A timing of 64 by 40 with 100 lines a frame. -/
def tiny : Timing :=
  { hActive := 64, hFp := 16, hSync := 16, hBp := 32, vActive := 40, vFp := 4, vSync := 4, vBp := 52, refresh := 60000, hsPol := false, vsPol := false }
def frameBytes (flags : Nat) (a : Stamp) (w : Nat) : List Byte :=
  leBytes 2 1 ++ leBytes 2 flags ++ leBytes 4 0x5566 ++ leBytes 6 a.bits ++ leBytes 1 1 ++ leBytes 1 1 ++ leBytes 2 w ++ leBytes 2 64 ++ leBytes 2 0 ++
    leBytes 2 0 ++ leBytes 4 0 ++ leBytes 4 0 ++ leBytes 8 0x2000 ++ leBytes 8 0x4000 ++ leBytes 4 128 ++ leBytes 4 128 ++ leBytes 8 0
def frameRec (q : Nat) (a : Stamp) (w : Nat) : FrameRec :=
  { ring := 1, seq := q, tenant := 1, bytes := frameBytes 0 a w, uses := 0, first := none, darned := false, passed := false, status := 0 }
def frame1 : FrameRec := frameRec 1 ⟨9, 0, 0, 0⟩ 64
def frame2 : FrameRec := frameRec 2 ⟨9, 30, 0, 0⟩ 64
def frameWide : FrameRec := frameRec 1 ⟨9, 0, 0, 0⟩ 640
def at_ (a : Stamp) (s : State) : State := onT (fun t => { t with now := a }) s
def onP (f : Pic → Pic) (s : State) : State := { s with pic := f s.pic }
/-- Ring 1 is the intake, 48 lines before frame 10. -/
def picture : State :=
  on (at_ ⟨9, 52, 0, 0⟩ (onT (fun t => { t with timing := tiny }) (mapped ring1))) [(Reg.PIC_INTAKE, Reg.PIC_INTAKE_EN, 1), (Reg.PIC_INTAKE, Reg.PIC_INTAKE_RING, 1)]
def withFifo (l : List FrameRec) (s : State) : State := onP (fun p => { p with fifo := l }) s
def shedOf (f i : Nat) (nets : Bool) : Shed :=
  { frame := f, index := i, launch := picture.launchStamp f i, deadline := picture.deadlineStamp f i, recA := some (1, 1), recB := none, phase := 0
    nets := nets, begun := some 0, ended := false, late := false, net := none, tack := none, halo := [], mat := 0 }
def admitted : Admission := { Admission.reset with tackOnly := false, level := 2, looms := 12, factor := 1, cfg := 0x80000000 }
/-- Re-time is on. -/
def retiming (s : State) : State :=
  onP (fun p => { p with admitNow := { admitted with cfg := Reg.PIC_CFG_RT_EN.put 0 1 } })
    (onB (fun b => { b with networks := [⟨2, 2, 0, 1, 1, 320, 260, 0, 128, 0⟩, ⟨4, 3, 0, 1, 0, 200, 900, 0, 128, 0⟩] }) s)

/-- A record of Table 8.4's kinds on ring 1, as the fetch would read it in a state. -/
def fetched (s : State) (b : List Byte) : FrameRec := { frame1 with seq := (s.rd (Reg.QRG_FETCH_SEQ 1)).toNat, tenant := s.ringTenant 1, bytes := b }
def overtaken (l : List Shed) : State := onP (fun p => { p with sheds := l }) (withFifo [{ frame1 with passed := true }] picture)
theorem witness_RecordsAreTakenAndLevelsAdmitted :
    ((picture.ring 1).reads = 0 ∧
     (∀ b : Bool, let s := picture.setRing 1 { picture.ring 1 with reads := 1, err := b }
      0 < (s.ring 1).reads ∧ s.isIntake 1 = true ∧ (s.ring 1).err = b) ∧
     let s := picture.setRing 1 { picture.ring 1 with reads := 1 }
     s.recordFault (fetched s frame1.bytes) = none ∧ ∀ w ∈ [0, 7681], s.recordFault (fetched s (frameBytes 0 ⟨9, 0, 0, 0⟩ w)) = some (0x32, 0)) ∧
    (let s := overtaken []
     s.frame? (some ((1 : Fin 1024).val, 1)) = some { frame1 with passed := true } ∧ s.pic.sel.recA ≠ some (1, 1) ∧ s.pic.sel.recB ≠ some (1, 1) ∧
     s.frame? (some ((1 : Fin 1024).val, 2)) = none) ∧
    (∃ x ∈ (overtaken [shedOf 10 0 false]).pic.sheds, x.recA = some (1, 1) ∧ (overtaken []).trd.now.atOrAfter x.deadline = false) ∧
    (let s := at_ ⟨9, 98, 0, 0⟩ (overtaken [shedOf 10 0 false])
     ∀ x ∈ s.pic.sheds, s.trd.now.atOrAfter x.deadline = true ∧ s.toAction x.deadline ≠ 0) ∧
    (picture.bit Reg.PIC_STATUS Reg.PIC_STATUS_ADMIT_BUSY = false ∧ let s := on picture [(Reg.PIC_STATUS, Reg.PIC_STATUS_ADMIT_BUSY, 1)]
     s.bit Reg.PIC_STATUS Reg.PIC_STATUS_ADMIT_BUSY = true ∧ s.admission.tackOnly = true) ∧
    (let s := on admitState [(Reg.PIC_STATUS, Reg.PIC_STATUS_ADMIT_BUSY, 1), (Reg.PIC_CFG, Reg.PIC_CFG_LADDER_MIN, 1)]
     s.bit Reg.PIC_STATUS Reg.PIC_STATUS_ADMIT_BUSY = true ∧ s.admission.tackOnly = false ∧ 0 < (s.checkLevel 1).looms ∧ (s.checkLevel 1).need = 48574 ∧
     (s.netAt 2 1 (s.checkLevel 1).factor).isSome = true) ∧
    (picture.loadState ≠ 5 ∧ let s := on picture [(Reg.IMG_STATUS, Reg.IMG_STATUS_STATE, 5)]
     s.loadState = 5 ∧ s.atLine (s.launchStamp s.nextFrame 0) = true ∧ s.pic.next = none) ∧
    (admitted.level < 8 ∧ admitted.looms < 32 ∧ admitted.factor < 8) :=
  ⟨by decide +kernel, by decide +kernel, by decide +kernel, by decide +kernel, by decide +kernel, by decide +kernel, by decide +kernel, by decide +kernel⟩
def nowAt10 (s : State) : State := (State.elapse (s.toAction (s.launchStamp s.nextFrame 0)) s).adopt
theorem witness_FramesSelectTheirRecords :
    (∀ l ∈ [[], [frame1], [frame1, frame2], [frameWide, frame2]], ∀ s ∈ [withFifo l picture, retiming (withFifo l picture)],
      s.atLine (s.launchStamp s.nextFrame 0) = true ∧ s.darkFrame s.nextFrame = false ∧ (nowAt10 s).pic.selected = false ∧
      ((nowAt10 s).pic.fifo.map fun r => r.key).Nodup ∧ (nowAt10 s).pic.fifo.length ≤ 8 ∧ (nowAt10 s).pic.sel.phase < 64) ∧
    (let s := { picture with scn := { picture.scn with blank := [10] } }
     s.darkFrame s.nextFrame = true) ∧
    (let s := withFifo [frameWide] picture
     (nowAt10 s).frame? ((nowAt10 s).choose 10).1.recA = some frameWide ∧ (nowAt10 s).usable frameWide = false) ∧
    (let s := withFifo [frame1, frame2] picture
     (∀ r ∈ s.pic.fifo, s.usable r = true) ∧ s.retiming = false ∧ s.frameEligible frame1 = true ∧ s.frameEligible frame2 = true ∧
     (s.choose 10).1.recA = some frame2.key) ∧
    (let s := onP (fun p => { p with sel := { p.sel with recA := some (1, 2) } }) (withFifo [frame2] picture)
     (s.choose 10).1.recA = some frame2.key ∧ (s.choose 10).2 = true) ∧
    (let s := onP (fun p => { p with sel := { p.sel with recA := some (1, 1), recB := some (1, 2), phase := 63 } }) (retiming (withFifo [frame1, frame2] picture))
     s.retiming = true ∧ s.pic.sel.recA ≠ none ∧ s.pic.sel.recB ≠ none ∧ (s.choose 10).1.hold = true) ∧
    (let s := retiming (withFifo [frame1, frameRec 2 ⟨10, 30, 0, 0⟩ 64] picture)
     (s.choose 10).1.recA = some frame1.key ∧ (s.choose 10).1.recB = some (1, 2) ∧
     0 < s.picksBetween (frameRec 2 ⟨10, 30, 0, 0⟩ 64).pstamp frame1.pstamp) ∧
    (let s := onP (fun p => { p with boxNext := some ⟨(1, 1), []⟩ }) (withFifo [frame1, frame2] picture)
     (nowAt10 s).pic.boxNext = some ⟨(1, 1), []⟩ ∧ (s.choose 10).1.recA ≠ some (1, 1)) :=
  ⟨by decide +kernel, by decide +kernel, by decide +kernel, by decide +kernel, by decide +kernel, by decide +kernel, by decide +kernel, by decide +kernel⟩
/-- Frame 10's pair is selected. -/
def chosen (l : List Shed) : State :=
  onP (fun p => { p with selected := true, sel := { p.sel with frame := 10, recA := some (1, 1) }, sheds := l }) (withFifo [frame1] picture)
theorem witness_ShedsRunAndEnd :
    (∀ x ∈ [(52, 0), (68, 1), (84, 2)], let s := at_ ⟨9, x.1, 0, 0⟩ (chosen [])
      s.shedNow = some (10, x.2) ∧ s.darkFrame 10 = false ∧ s.pic.last ≠ some (10, x.2)) ∧
    (let s := at_ ⟨9, 68, 0, 0⟩ (chosen [])
     let s0 := State.elapse (s.toAction (s.launchStamp 10 1)) s
     (s0.pic.selected && s0.pic.sel.frame == 10) = true ∧ (∀ y ∈ s0.pic.sheds, y.ended = true) ∧
     (at_ ⟨9, 68, 0, 0⟩ picture).pic.selected = false ∧ (at_ ⟨9, 53, 0, 0⟩ picture).shedNow = none) ∧
    (let s := at_ ⟨9, 68, 0, 3⟩ (chosen [shedOf 10 0 false])
     (∀ y ∈ s.pic.sheds, y.isAt 10 1 = false) ∧ ∃ y ∈ s.pic.sheds.drop (s.pic.sheds.length - 3), y.ended = false) ∧
    (∀ b : Bool, let s := chosen [shedOf 10 1 b]
      (s.pic.sheds.map fun x => (x.frame, x.index)).Nodup ∧ (s.pic.sheds.find? fun x => !x.ended) = some (shedOf 10 1 b) ∧
      s.pastDeadline (shedOf 10 1 b) = false ∧ (shedOf 10 1 b).begun ≠ none ∧ (shedOf 10 1 b).nets = b ∧ s.weightsHere = true ∧
      s.stripWaits (shedOf 10 1 b) = false ∧ s.trd.now.atOrAfter (shedOf 10 1 b).deadline = false ∧
      (s.pic.sheds.find? fun x => x.tack.isNone && !s.pastDeadline x) = some (shedOf 10 1 b) ∧ (s.shedLines 1).length = 16 ∧
      (s.shedLines 1)[15]? = some 31 ∧ s.frame? (shedOf 10 1 b).recA = some frame1) ∧
    (let s := chosen [{ shedOf 10 1 false with tack := some [] }]
     (s.pic.sheds.find? fun x => !x.ended) = some { shedOf 10 1 false with tack := some [] }) ∧
    (let s := at_ ⟨9, 98, 0, 0⟩ (chosen [shedOf 10 0 true])
     (s.pic.sheds.find? fun x => !x.ended) = some (shedOf 10 0 true) ∧ s.trd.now.atOrAfter (shedOf 10 0 true).deadline = true) ∧
    (∀ e : Bool, let s := onP (fun p => { p with detect := some (10, 1, 1) }) (chosen [{ shedOf 10 2 true with ended := e }])
      s.pic.detect = some (10, 1, 1) ∧ ∃ x ∈ s.pic.sheds, x.isAt 10 (s.shedCount - 1) = true ∧ x.ended = e) ∧
    (chosen []).pic.detect = none ∧ ((chosen []).pic.sheds.find? fun x => !x.ended) = none :=
  ⟨by decide +kernel, by decide +kernel, by decide +kernel, by decide +kernel, by decide +kernel, by decide +kernel, by decide +kernel, by decide +kernel⟩


/-! Chapter 9. -/

def planarX : TRef := tref 0x2000 2 2 2 4 4 8
def packedX : TRef := { planarX with layout := 1, stride1 := 8 }
def weights : TRef := tref 0x3000 2 2 8 1 2 0
def convZ : TRef := tref 0x4000 2 1 2 2 2 4
/-- An operator on INT8 with its operand block, and a box list with one box at 0x5000. -/
def imageOp (code : Nat) (inl : List Nat) (refs : List TRef) : State :=
  opState code inl refs [(0x5000, leBytes 2 1 ++ leBytes 2 1 ++ leBytes 2 64 ++ leBytes 2 64 ++ leBytes 8 1 ++ bs [0, 0, 0, 0, 2, 0, 2, 0, 7, 0])]
def convOf (s : State) (tr : Bool) : ConvProblem :=
  let refs := s.opRefs (theDesc s) 4
  ⟨(theDesc s).convArgs, tr, refAt refs 0, refAt refs 1, refAt refs 2, refAt refs 3, (theDesc s).work.length⟩
/-- An operator is ready, whatever it writes to some reference. -/
theorem ready_of (s : State) (n : Nat) (ins : List (Nat × Nat × Nat)) (z : TRef) (f : Nat → Nat → Nat → Nat × Bool)
    (h : s.operandsReady (theDesc s) n ins (z.outRunsIn blank)) : s.operandsReady (theDesc s) n ins (z.outRunsIn f) :=
  operandsReady_congr _ _ _ _ _ _ (runPlaces_outRunsIn _ blank f) h
theorem witness_ConvolutionsRun :
    (∀ x ∈ [(false, [1, 2, 0x11, 0x11, 0, 0, 0, 1, 1, 0, 2], [planarX, weights, tref 0x5000 8 2 1 1 8 0, convZ]),
        (false, [1, 2, 0x11, 0x11, 1, 1, 0, 0, 1, 0, 1], [packedX, weights, noref, convZ]),
        (true, [1, 2, 0x22, 0x11, 0, 0, 0, 0, 1, 0, 1], [planarX, weights, noref, tref 0x4000 2 2 2 2 2 4])],
      let s := imageOp (if x.1 then 0x201 else 0x200) x.2.1 x.2.2
      s.opReady 1 0 (if x.1 then 0x0201 else 0x0200) = some (theDesc s, s) ∧ (convOf s x.1).legal (theDesc s).l1q = true) ∧
    (let s := imageOp 0x200 [1, 2, 0x11, 0x11, 0, 0, 0, 1, 1, 0, 2] [planarX, weights, tref 0x5000 8 2 1 1 8 0, convZ]
     let c := convOf s false
     (∀ f, s.operandsReady (theDesc s) 128 (c.x.runsIn 0 ++ c.w.runs 1 ++ c.bias.runs 2) (c.z.outRunsIn f)) ∧
     1 ≤ c.args.kh ∧ c.args.kh ≤ 5 ∧ 1 ≤ c.args.kw ∧ c.args.kw ≤ 5 ∧ c.args.groups = 1 ∧ 4 ≤ c.x.dim2 ∧ c.x.dim2 * (c.args.kh * c.args.kw) ≤ 1024 ∧
     c.x.layout = 0 ∧ convPair c.x.elem c.w.elem = some (4, 1) ∧ (rankRows c.z.dim1 c.looms 0).1 < (rankRows c.z.dim1 c.looms 0).2 ∧
     c.x.elem.float = none ∧ c.x.elem ≠ .uint16 ∧ 1 < c.z.dim2) ∧
    (let s := imageOp 0x200 [0, 2, 0x11, 0x11, 1, 1, 1, 0, 1, 0, 1] [planarX, weights, noref, convZ]
     (convOf s false).legal (theDesc s).l1q = false ∧ s.opReady 1 0 0x0200 = some (theDesc s, s) ∧
     s.firstFault (theDesc s).loom0 (theDesc s).tenant false [(0, (theDesc s).argPtr, 128)] = none) ∧
    ((0 : Int) ≤ 1 ∧ (1 : Int) < planarX.dim0 ∧ ¬((0 : Int) ≤ -1)) :=
  ⟨by decide +kernel,
    ⟨fun f => ready_of _ _ _ _ f (by unfold State.operandsReady; decide +kernel), by decide +kernel⟩,
    by decide +kernel, by decide⟩
def pooling : State := imageOp 0x210 [2, 1, 0x22, 0x00, 1, 1, 0, 0] [planarX, { convZ with dim2 := 4 }]
def cropping : State := imageOp 0x220 [0, 0, 1, 0, 64, 0, 0, 0] [planarX, tref 0x5000 3 32 1 1 0 0, tref 0x4000 2 2 2 4 2 4]
def pasting : State := imageOp 0x221 [0, 0, 1, 0, 64, 0, 0, 0] [tref 0x2000 2 2 2 4 2 4, tref 0x5000 3 32 1 1 0 0, { planarX with base := 0x4000 }]
def decoding : State :=
  imageOp 0x228 [0, 0, 0, 0x3c, 0, 0x3c, 0, 0, 64, 0, 64, 0] [tref 0x2000 6 4 3 1 8 0, tref 0x3000 6 4 3 1 8 0, tref 0x2100 6 2 3 1 4 0, tref 0x6000 3 48 1 1 0 0]
def suppressing : State := imageOp 0x229 [0, 0x40, 0, 0, 0] [tref 0x5000 3 32 1 1 0 0, tref 0x6000 3 48 1 1 0 0]
theorem witness_ImageOperatorsRun :
    (∀ x ∈ [(0x208, packedX, { planarX with base := 0x4000 }, true), (0x209, planarX, { packedX with base := 0x4000 }, false)],
      let s := imageOp x.1 [] [x.2.1, x.2.2.1]
      let d := theDesc s
      s.opReady 1 0 x.1 = some (d, s) ∧ (refAt (s.opRefs d 2) 0).legal x.2.2.2 = true ∧ (refAt (s.opRefs d 2) 1).legal (!x.2.2.2) = true ∧
      (refAt (s.opRefs d 2) 0).sameShape (refAt (s.opRefs d 2) 1) = true ∧ d.inl 0 16 = 0) ∧
    (∀ f, (imageOp 0x208 [] [packedX, { planarX with base := 0x4000 }]).operandsReady (theDesc (imageOp 0x208 [] [packedX, { planarX with base := 0x4000 }]))
      64 (packedX.runsIn 0) (({ planarX with base := 0x4000 } : TRef).outRunsIn f)) ∧
    (∀ f, (imageOp 0x209 [] [planarX, { packedX with base := 0x4000 }]).operandsReady (theDesc (imageOp 0x209 [] [planarX, { packedX with base := 0x4000 }]))
      64 (planarX.runsIn 0) (({ packedX with base := 0x4000 } : TRef).outRunsIn f)) ∧
    (let s := pooling
     let d := theDesc s
     let a := d.convArgs
     s.opReady 1 0 0x0210 = some (d, s) ∧ (refAt (s.opRefs d 2) 0).legal true = true ∧ (refAt (s.opRefs d 2) 1).legal false = true ∧ a.clean = true ∧
     (refAt (s.opRefs d 2) 0).dim2 = (refAt (s.opRefs d 2) 1).dim2 ∧ 1 ≤ a.kh ∧ a.kh ≤ 31 ∧ 1 ≤ a.kw ∧ a.kw ≤ 31 ∧ 1 ≤ a.sh ∧ 1 ≤ a.sw ∧ a.dh = 0 ∧
     a.dw = 0) ∧
    (∀ f, pooling.operandsReady (theDesc pooling) 64 (planarX.runsIn 0) (({ convZ with dim2 := 4 } : TRef).outRunsIn f)) ∧
    (let s := cropping
     let d := theDesc s
     let r := fun k => refAt (s.opRefs d 3) k
     s.opReady 1 0 0x0220 = some (d, s) ∧ cropLegal d (r 0) (r 1) (r 2) (r 2) true = true ∧ d.inl 2 2 = 1 ∧ (boxAt (s.boxListBytes d (r 1)) 0).empty = false) ∧
    (∀ f, cropping.operandsReady (theDesc cropping) 96 (planarX.runsIn 0 ++ (tref 0x5000 3 32 1 1 0 0).runs 1) ((tref 0x4000 2 2 2 4 2 4).outRuns f)) ∧
    (let s := pasting
     let d := theDesc s
     let r := fun k => refAt (s.opRefs d 3) k
     s.opReady 1 0 0x0221 = some (d, s) ∧ cropLegal d (r 0) (r 1) (r 2) (r 0) false = true ∧
     s.operandsReady d 96 ((r 0).runs 0 ++ (r 1).runs 1) ((r 2).rows.flatMap fun x => s.pasteRow d (r 0) (r 2) (s.boxListBytes d (r 1)) x.1 x.2)) ∧
    (let s := decoding
     let d := theDesc s
     let r := fun k => refAt (s.opRefs d 4) k
     s.opReady 1 0 0x0228 = some (d, s) ∧ (∀ x ∈ s.opRefs d 4, x.legal false = true) ∧ (r 0).elem = .fp16 ∧ (r 1).elem = .fp16 ∧ (r 2).elem = .fp16 ∧
     (r 3).boxLegal = true ∧ (r 0).dim0 = 4 ∧ (r 1).dim0 = 4 ∧ (r 1).dim1 = (r 0).dim1 ∧ (r 2).dim1 = (r 0).dim1 ∧ 1 ≤ (r 3).boxCapacity ∧
     (r 3).boxCapacity ≤ 1024 ∧ d.inl 7 1 = 0 ∧ d.inl 12 4 = 0 ∧
     s.operandsReady d 128 ((r 0).runs 0 ++ (r 1).runs 1 ++ (r 2).runs 2) [⟨(r 3).base, List.replicate 48 0, false⟩]) ∧
    (let s := suppressing
     let d := theDesc s
     let r := fun k => refAt (s.opRefs d 2) k
     s.opReady 1 0 0x0229 = some (d, s) ∧ (r 0).boxLegal = true ∧ (r 1).boxLegal = true ∧ 1 ≤ (r 0).boxCapacity ∧ (r 0).boxCapacity ≤ 1024 ∧
     1 ≤ (r 1).boxCapacity ∧ (r 1).boxCapacity ≤ 1024 ∧ d.inl 2 2 ≤ (r 1).boxCapacity ∧ d.inl 4 1 < 2 ∧ d.inl 5 11 = 0 ∧
     ∀ n ∈ [16, 32, 48], s.operandsReady d 64 ((r 0).runs 0) [⟨(r 1).base, List.replicate n 0, false⟩]) :=
  ⟨by decide +kernel, fun f => ready_of _ _ _ _ f (by unfold State.operandsReady; decide +kernel),
    fun f => ready_of _ _ _ _ f (by unfold State.operandsReady; decide +kernel), by decide +kernel,
    fun f => ready_of _ _ _ _ f (by unfold State.operandsReady; decide +kernel), by decide +kernel,
    fun f => operandsReady_congr _ _ _ _ _ _ (runPlaces_outRuns _ blank f) (by unfold State.operandsReady; decide +kernel),
    by unfold State.operandsReady; decide +kernel, by unfold State.operandsReady; decide +kernel, by unfold State.operandsReady; decide +kernel⟩


/-! Chapter 10. -/

def onK (f : Kv → Kv) (s : State) : State := { s with kv := f s.kv }
/-- More bytes of DRAM, at rising addresses in granules that are written. -/
def stored (l : List (Nat × List Byte)) (s : State) : State :=
  onM (fun m => { m with
    wmap := m.wmap ++ [0x2000, 0x3000, 0x3001] ++ (List.range 128).map fun k => 0x4000 + k
    dram := m.dram ++ (l.flatMap fun x => x.2.zipIdx.map fun y => (x.1 + y.2, y.1)).filter fun e => e.2 ≠ 0#8 }) s
/-- The engine is on: records at 0x2000000, page tables at 0x3000000, prefixes at 0x4000000, pool 0 at 0x5000000. -/
def engineOn (s : State) : State :=
  on s [(Reg.SEQ_CFG, Reg.SEQ_CFG_EN, 1), (Reg.SEQ_STATUS, Reg.SEQ_STATUS_INIT, 0), (Reg.SEQ_STAB_LO, ⟨0, 32⟩, 0x2000000),
    (Reg.SEQ_PT_LO, ⟨0, 32⟩, 0x3000000), (Reg.SEQ_PT_SIZE, Reg.SEQ_PT_SIZE_FRAMES, 4), (Reg.SEQ_PFX_LO, ⟨0, 32⟩, 0x4000000),
    (Reg.SEQ_POOL_BASE_LO 0, ⟨0, 32⟩, 0x5000000), (Reg.SEQ_POOL_CFG 0, Reg.SEQ_POOL_CFG_FRAMES, 4),
    (Reg.SEQ_POOL_CFG 0, Reg.SEQ_POOL_CFG_LOG2_FRAME, 12), (Reg.SEQ_POOL_FREE 0, Reg.SEQ_POOL_FREE_FREE, 4)]
def kvOp (code : Nat) (inl : List Nat) (refs : List TRef) (data : List (Nat × List Byte)) : State := engineOn (opState code inl refs data)
def seqOf : SeqRec :=
  { valid := true, mmu := false, tenant := 1, domain := 0, kvfmt := 1, model := 0, layers := 1, hkv := 1, dim := 64, lb := 2048, len := 0
    cap := 4194304, dir := 0, farOff := 0, pfxLast := 0xFFFF, pfxGen := 0, frames := 0 }
/-- Sequence 0 has a record, its leaf table in frame 1, and page `p` a leaf; frames in use are listed. -/
def withSeq (r : SeqRec) (p : Nat) (l : Leaf) (used : List Nat) (s : State) : State :=
  onK (fun k => { k with used := used })
    (stored [(0x2000000, r.bytes), (0x3000000, leBytes 8 0x101), (0x3001000 + 8 * p, leBytes 8 l.toNat)] s)
def leafOf (state fill : Nat) : Leaf := { Leaf.invalid with state := state, fill := fill, frame := 2 }
def tableFrames : List Nat := [4 * 65536, 4 * 65536 + 1]
def outRef : TRef := tref 0x2000 8 1 1 1 0 0
def opening (mmu dim : Nat) : State := kvOp 0x318 [0, mmu, 1, 1, dim, 0, 1, 0, 0, 0, 0, 0] [outRef] []
def subOp (sub len : Nat) (r : SeqRec) : State :=
  withSeq r 3 (leafOf 1 16) tableFrames (kvOp 0x318 [sub, 0, 0, 0, 0, 0, 0, 0, 0, 0, 0, 0, len, 0, 0, 0] [outRef] [])
/-- Every record of the sequence table is valid. -/
def fullTable : State :=
  onM (fun m => { m with
    wmap := m.wmap ++ (List.range 256).map fun k => 0x2000 + k
    dram := m.dram ++ (List.range 16384).map fun h => (0x2000000 + 64 * h, 1#8) }) (opening 0 64)

theorem tblGet_append {α : Type} (d : Nat → α) (a b : Tbl α) (k : Nat) (h : ∀ e ∈ a, e.1 ≠ k) : tblGet d (a ++ b) k = tblGet d b k := by
  induction a with
  | nil => rfl
  | cons e a ih =>
    have := h e (by simp)
    simp [tblGet, this, ih fun x hx => h x (by simp [hx])]
theorem tblGet_records (l : List Nat) (h : Nat) (hm : h ∈ l) :
    tblGet (fun _ => 0#8) (l.map fun h => (0x2000000 + 64 * h, 1#8)) (0x2000000 + 64 * h) = 1#8 := by
  induction l with
  | nil => simp at hm
  | cons x l ih =>
    simp only [List.map_cons, tblGet]
    split
    · rfl
    · rename_i hne
      rcases List.mem_cons.1 hm with rfl | hm
      · exact absurd rfl hne
      · exact ih hm
theorem fullTable_valid (h : Nat) (hh : h < 16384) : (fullTable.seqRec h).valid = true := by
  have ha : fullTable.seqAddr h = 0x2000000 + 64 * h := by
    have : fullTable.seqAddr 0 = 0x2000000 := by decide +kernel
    simp only [State.seqAddr] at this ⊢
    omega
  have hb : fullTable.memByte (0x2000000 + 64 * h) = 1#8 := by
    have h1 : fullTable.dramTop = 24159191040 := by decide +kernel
    have h2 : fullTable.line? (0x2000000 + 64 * h) = none := by
      have : fullTable.mem.spool = [] ∧ fullTable.mem.leaving = [] := by decide +kernel
      have hw : fullTable.wayOf (0x2000000 + 64 * h) = none := by
        simp only [State.wayOf, this, tblFind]
        decide
      simp [State.line?, hw, this]
    have h3 : fullTable.granuleSet (0x2000000 + 64 * h) = true := by
      have : (0x2000000 + 64 * h) / 4096 ∈ (List.range 256).map fun k => 0x2000 + k :=
        List.mem_map.2 ⟨h / 64, List.mem_range.2 (by omega), by omega⟩
      simp only [State.granuleSet, fullTable, onM, List.contains_iff_mem]
      exact List.mem_append_right _ this
    have h4 : ∀ e ∈ (opening 0 64).mem.dram, e.1 ≠ 0x2000000 + 64 * h := by
      have : ∀ e ∈ (opening 0 64).mem.dram, e.1 < 0x2000000 := by decide +kernel
      intro e he
      have := this e he
      omega
    simp only [State.memByte, h1, h2, State.dramByte, h3, if_true]
    rw [if_neg (by omega)]
    exact (tblGet_append _ _ _ _ h4).trans (tblGet_records _ h (List.mem_range.2 hh))
  have hc : (fullTable.memBytes (0x2000000 + 64 * h) 64).take 1 = [1#8] := by simp [State.memBytes, hb]
  simp only [State.seqRec, ha, SeqRec.ofBytes, bytesAt, List.drop_zero, hc]
  decide

/-- A state of a sequence operator, once the walker has turned to its loom. -/
def turned (s : State) : State := { s with kv := { s.kv with taken := some (s.trd.cclk, (theDesc s).loom0) } }
/-- The sequence operator of a state that the walker has turned to is ready. -/
def kvMeets (s : State) (code : Nat) : Prop := s.kvOpReady 1 0 code = some (theDesc s, s)
/-- The engine stops while a walker operator runs on a loom, and while another waits. -/
def stoppingKv (begun : Bool) : State :=
  let s := (kvOp 0x318 [0, 0, 1, 1, 64, 0, 1, 0, 0, 0, 0, 0] [outRef] [])
  { s with ten := { s.ten with descs := s.ten.descs.map fun d => { d with work := d.work.map fun w => { w with begun := begun } } } }
theorem witness_SequencesOpenAndClose :
    (∀ x ∈ [(1, opening 1 64), (0, opening 0 64), (0, onK (fun k => { k with used := (List.range 4).map fun i => 4 * 65536 + i }) (opening 0 64)), (2, opening 0 63)],
      let s := turned x.2
      let d := theDesc s
      let out := refAt (s.opRefs d 1) 0
      kvMeets s 0x318 ∧ s.kvRetrying d = [] ∧ d.inl 0 1 = 0 ∧ out.outLegal = true ∧ d.inl 1 1 ≤ 1 ∧ d.inl 7 1 = 0 ∧ d.inl 10 1 = 0 ∧
      d.inl 11 1 = 0 ∧ d.inl 6 1 < 32 ∧ s.kvReady d true 56 [] [(15, out.base, 4)] ∧ (s.openRec d).legal = decide (x.1 ≠ 2) ∧
      (x.1 = 1 ↔ (s.openRec d).mmu = true) ∧ (x.1 = 0 → (s.openRec d).pageBytes ≤ s.frameSize (s.openRec d).pool) ∧ (s.seqRec 0).valid = false) ∧
    (turned (opening 0 64)).freeFrame 4 = some 0 ∧ (onK (fun k => { k with used := (List.range 4).map fun i => 4 * 65536 + i }) (opening 0 64)).freeFrame 4 = none ∧
    (∀ h, h < 16384 → (fullTable.seqRec h).valid = true) ∧
    (let s := turned (on (opening 0 64) [(Reg.SEQ_CFG, Reg.SEQ_CFG_EN, 0)])
     kvMeets s 0x318 ∧ s.kvOn = false) ∧
    (let s := turned (on (opening 0 64) [(Reg.SEQ_STATUS, Reg.SEQ_STATUS_INIT, 1)])
     kvMeets s 0x318 ∧ s.kvOn = true ∧ s.kvInit = true) ∧
    (∀ x ∈ [subOp 1 0 seqOf, subOp 2 4 { seqOf with cap := 3 }, subOp 2 4194304 seqOf, subOp 2 5 { seqOf with mmu := true }],
      let s := turned x
      let d := theDesc x
      kvMeets s 0x318 ∧ s.kvRetrying d = [] ∧ s.seqOk d (d.inl 8 2) = true ∧ d.inl 7 1 = 0 ∧ d.inl 10 1 = 0 ∧ d.inl 11 1 = 0 ∧
      s.kvReady d true 32 [] []) ∧
    (let s := turned (subOp 1 0 { seqOf with valid := false })
     kvMeets s 0x318 ∧ s.seqOk (theDesc s) 0 = false ∧ s.firstFault (theDesc s).loom0 (theDesc s).tenant false [(0, (theDesc s).argPtr, 32)] = none) ∧
    (base.kvOn = false ∧ (engineOn ring1).kvOn = true ∧ (engineOn ring1).kvInit = false ∧ (on base [(Reg.SEQ_STATUS, Reg.SEQ_STATUS_INIT, 0)]).kvInit = false) ∧
    (∀ b : Bool, let s := stoppingKv b
     s.kvOn = true ∧ (s.ten.descs.map fun d => (d.ring, d.seq)).Nodup ∧ ∃ d ∈ s.ten.descs, d.usesKv = true ∧ d.phase = .running ∧ d.stop = none ∧
       (b = true → ∃ w ∈ d.work, w.begun = true) ∧ (b = false → ∀ w ∈ d.work, w.begun = false)) ∧
    (let s := onK (fun k => { k with init := some true }) base
     s.kv.init = some true ∧ s.kv.moves = [] ∧ (onK (fun k => { k with init := none }) base).kv.init = none) :=
  ⟨by unfold State.kvReady kvMeets; decide +kernel, by decide +kernel, by decide +kernel, fullTable_valid, by unfold kvMeets; decide +kernel,
    by unfold kvMeets; decide +kernel, by unfold State.kvReady kvMeets; decide +kernel, by unfold kvMeets; decide +kernel, by decide +kernel, by decide +kernel,
    by decide +kernel⟩


def moving (out failed : Bool) (left : Nat) : KvMove := ⟨0, 3, 1, 0, 2, 0x5002000, 2048, left, out, failed⟩
def movingState (m : KvMove) : State :=
  onK (fun k => { k with moves := [m], waits := [⟨1, 0, 0, 3⟩] })
    (withSeq seqOf 3 (leafOf 3 16) [2] (engineOn (withDescs ring1 [{ descOf 0x310 0 1 with phase := .running }])))
def keyRef : TRef := tref 0x2000 6 64 1 1 128 0
def appending (r : SeqRec) (l : Leaf) : State := withSeq r 0 l tableFrames (kvOp 0x310 [0, 0, 0, 1, 3, 0, 0, 0, 1, 0] [keyRef, noref] [])
def tokenRef : TRef := tref 0x2000 8 16 1 1 64 0
def lookingUp : State := withSeq seqOf 0 Leaf.invalid [4 * 65536] (kvOp 0x320 [0, 0] [tokenRef, tref 0x2100 8 1 1 1 4 0] [])
def inserting (l : Leaf) : State := withSeq seqOf 0 l (2 :: tableFrames) (kvOp 0x321 [0, 0, 0, 0, 0] [tokenRef] [])
/-- The entry the insertion of page 0 wants, and a table whose set holds eight others. -/
def wantedPfx : PfxEntry := (inserting (leafOf 1 16)).pfxWanted seqOf none (List.replicate 64 0#8)
def fullSet : State :=
  stored ((List.range 8).map fun w => (0x4000000 + 128 * (wantedPfx.hash % 512 * 8 + w), { wantedPfx with model := 5, refs := 1 }.bytes)) (inserting (leafOf 1 16))
def prefetching (n : Nat) (l : Leaf) : State := withSeq seqOf 3 l tableFrames (kvOp 0x328 [0, 0, 0, 0, 3, 0, 0, 0, n, 0] [] [])
theorem witness_TheWalkerMovesPages :
    (∀ t ∈ [[], [(⟨5, 0, 3, 0, 1⟩ : KvTlb)]], let s := onK (fun k => { k with tlb := t }) (withSeq seqOf 3 (leafOf 1 16) tableFrames (engineOn ring1))
      s.kvInit = false ∧ s.kvOn = true ∧ (s.seqRec 0).valid = true ∧ (s.seqRec 0).mmu = false ∧ (s.kvHit (0 : Fin 16384) 3 = none ↔ t = [])) ∧
    (∀ x ∈ [(0, 0, true), (64, 383, false), (64, 384, true)],
      let s := { on (withSeq seqOf 3 (leafOf 1 16) tableFrames (engineOn ring1)) [(Reg.SHT_TEN_BKT 1, ⟨0, 16⟩, x.1), (Reg.SHT_TEN_BKT 1, ⟨16, 16⟩, 4)] with
        sht := { base.sht with tenLvl := [(1, x.2.1)] } }
      let b := Bucket.tenant (s.seqRec 0).tenant
      s.kvInit = false ∧ s.kvOn = true ∧ (s.seqRec 0).valid = true ∧ (s.seqRec 0).mmu = false ∧ s.kvHit (0 : Fin 16384) 3 = none ∧
      ((s.bucketRate b = 0 ∨ min 384 (s.bucketCap b) ≤ s.bucketLevel b) ↔ x.2.2 = true)) ∧
    (∀ m ∈ [moving true false 0, moving true false 5, moving false false 0, moving false false 5, moving false true 5], let s := movingState m
      s.moveOf (0 : Fin 16384) 3 m.out = some m ∧ s.kvInit = false ∧ (s.desc? 1 0).isSome = true) ∧
    (∀ x ∈ [appending seqOf Leaf.invalid, appending { seqOf with cap := 3 } Leaf.invalid, appending { seqOf with mmu := true, dir := 0x8000 } Leaf.invalid,
        appending seqOf (leafOf 2 16)].map turned,
      let d := theDesc x
      let r := x.seqRec 0
      let k := refAt (x.opRefs d 2) 0
      kvMeets x 0x310 ∧ x.seqOk d (d.inl 0 2) = true ∧ d.inl 2 1 < r.layers ∧ d.inl 8 2 = 1 ∧ d.inl 3 1 ≤ 1 ∧
      (∀ o ∈ [10, 11, 12, 13, 14, 15], d.inl o 1 = 0) ∧ k.legal false = true ∧ k.dim0 = r.dim ∧ r.latent = true ∧ k.dim1 = 1 ∧
      x.kvReady d true 64 (k.runs 0 ++ []) (if r.mmu then (touchedPages 3 1).map fun p => (15, r.dir + p * r.pageBytes + d.inl 2 1 * r.lb, r.lb) else []) ∧
      d.inl 4 4 = 3) ∧
    ((State.appendPages (theDesc (appending seqOf (leafOf 2 16))) .bulk 0 keyRef noref 0 3 1 (touchedPages 3 1) (appending seqOf (leafOf 2 16))).1 = .wait ∧
      (State.appendPages (theDesc (appending seqOf Leaf.invalid)) .bulk 0 keyRef noref 0 3 1 (touchedPages 3 1) (appending seqOf Leaf.invalid)).1 = .got 0) ∧
    (let s := turned lookingUp
     let d := theDesc s
     let toks := refAt (s.opRefs d 2) 0
     let out := refAt (s.opRefs d 2) 1
     kvMeets s 0x0320 ∧ s.seqOk d 0 = true ∧ (s.seqRec 0).mmu = false ∧ (s.seqRec 0).len = 0 ∧ toks.legal false = true ∧ toks.elem = .int32 ∧
     out.outLegal = true ∧ (∀ o ∈ [2, 3, 8, 9, 10, 11, 12, 13, 14, 15], d.inl o 1 = 0) ∧ s.kvReady d true 64 (toks.runs 0) [(15, out.base, 4)] ∧
     (State.lookupPages d .bulk 0 toks (toks.dim0 / 16 + 1) 0 none s).1 = .got 0) ∧
    (∀ x ∈ [(0, 16, inserting (leafOf 0 16)), (1, 15, inserting (leafOf 1 15)), (1, 16, inserting (leafOf 1 16)), (1, 16, fullSet)], let s := turned x.2.2
      let d := theDesc s
      let toks := refAt (s.opRefs d 1) 0
      let l := s.leafAt (s.seqRec 0) 0
      kvMeets s 0x0321 ∧ s.seqOk d (d.inl 0 2) = true ∧ (s.seqRec 0).mmu = false ∧ toks.legal false = true ∧ toks.elem = .int32 ∧
      (∀ o ∈ [2, 3, 8, 9, 10, 11, 12, 13, 14, 15], d.inl o 1 = 0) ∧ s.kvReady d true 32 (toks.runs 0) [] ∧ d.inl 4 4 = 0 ∧ l.state = x.1 ∧ l.fill = x.2.1 ∧
      s.pageParent 0 0 = some none ∧ l.shared = false ∧ 16 * 0 + 16 ≤ toks.dim0 ∧ toks.dim0 < 16 * 0 + 32 ∧ s.pfxFind wantedPfx = none) ∧
    (fullSet.pfxWay wantedPfx.hash = none ∧ ∃ e ∈ ((inserting (leafOf 1 16)).pfxWay wantedPfx.hash).toList,
      (inserting (leafOf 1 16)).pfxWay wantedPfx.hash = some e ∧ ((inserting (leafOf 1 16)).pfx e).resident = false) ∧
    (∀ x ∈ [(1, prefetching 1 (leafOf 1 16)), (2, prefetching 1 (leafOf 2 16))], let s := turned x.2
      let d := theDesc s
      kvMeets s 0x0328 ∧ s.seqOk d (d.inl 0 2) = true ∧ (∀ o ∈ [2, 3, 10, 11, 12, 13, 14, 15], d.inl o 1 = 0) ∧ s.kvReady d true 0 [] [] ∧
      d.inl 8 2 = 1 ∧ 16 * (d.inl 4 4 + 0) < (s.seqRec 0).cap ∧ (s.leafAt (s.seqRec 0) 3).state = x.1 ∧ s.canTake 1 0 = some 0 ∧
      s.moveOf 0 3 false = none) :=
  ⟨by decide +kernel, by decide +kernel, by decide +kernel, by unfold State.kvReady kvMeets; decide +kernel, by decide +kernel,
    by unfold State.kvReady kvMeets; decide +kernel,
    by unfold State.kvReady kvMeets; decide +kernel, by decide +kernel, by unfold State.kvReady kvMeets; decide +kernel⟩


/-- FP16 tensors of one head: 2 queries and 3 keys of 4. -/
def qRef : TRef := tref 0x2000 6 4 2 1 8 0
def kRef : TRef := tref 0x2100 6 4 3 1 8 0
def vRef : TRef := tref 0x2200 6 4 3 1 8 0
def oRef : TRef := tref 0x4000 6 4 2 1 8 0
def statRef : TRef := tref 0x4100 9 2 2 1 8 0
def partRef : TRef := tref 0x5000 9 64 1 1 256 0
/-- An ATTN record with its SCALE of 1, for some flags and N_KV. -/
def attnOp (flags nkv : Nat) (refs : List TRef) : State :=
  kvOp 0x300 [0, 0, 0, flags, nkv, 0, 0, 0, 0, 0, 0, 0, 0, 1, 1, 0] refs [(0x1000 + 288, leBytes 4 0x3F800000)]
def denseRefs (part : TRef) : List TRef := [qRef, oRef, statRef, part, noref, noref, kRef, vRef, noref]
def paged (l : Leaf) : State :=
  withSeq { seqOf with kvfmt := 0, dim := 32 } 0 l tableFrames
    (attnOp 0 5 [tref 0x2000 6 32 1 1 64 0, tref 0x4000 6 32 1 1 64 0, noref, noref, noref, noref, noref, noref, noref])
def attnArgs (s : State) : Attn := s.attn (theDesc s)
def attnRunsOf (s : State) : List (Nat × Nat × Nat) :=
  s.attnRuns (attnArgs s) (leNat (s.vaBytes (theDesc s).loom0 (theDesc s).tenant ((theDesc s).argPtr + 292) 2)) (refAt (s.opRefs (theDesc s) 9) 8).base
theorem witness_AttentionRuns :
    (∀ x ∈ [(true, attnOp 2 3 (denseRefs noref)), (true, attnOp 3 3 (denseRefs noref)), (false, paged (leafOf 1 16))], let s := x.2
      let d := theDesc s
      let a := attnArgs s
      s.kvOpReady 1 0 0x300 = some (d, s) ∧ s.kv.merges = [] ∧ s.attnLegal d a = true ∧ a.dense = x.1 ∧ (∀ e ∈ a.entries, e.nkv ≤ (s.seqRec e.handle).cap ∨ a.dense = true) ∧
      (State.readPages d a (s.descClass d) a.pages s).1 = .got 0 ∧ s.pagesDarned a = false ∧ a.split = false ∧ a.sbufNeed d.l1q = 0 ∧
      s.kvReady d (!a.dense) 320 (attnRunsOf s) (a.o.runs 1 ++ (if a.wantSt then a.stats.runs 2 else []) ++ [(3, a.sbuf.base, 0)])) ∧
    (let s := attnOp 6 3 (denseRefs partRef)
     let d := theDesc s
     let a := attnArgs s
     s.kvOpReady 1 0 0x300 = some (d, s) ∧ s.kv.merges = [] ∧ s.attnLegal d a = true ∧ a.dense = true ∧ a.split = true ∧
     (State.readPages d a (s.descClass d) a.pages s).1 = .got 0 ∧ s.pagesDarned a = false ∧
     s.kvReady d (!a.dense) 320 (attnRunsOf s) [(10, a.sbuf.base, a.looms * a.partialBytes)]) ∧
    (let a := attnArgs (attnOp 3 3 (denseRefs noref))
     (∀ kp < 3, a.takes 1 0 kp = false) ∧ 0 < a.looms ∧ 0 < a.blocks) ∧
    (let s := onK (fun k => { k with merges := [⟨1, 0, 4⟩] }) (attnOp 6 3 (denseRefs partRef))
     let s0 := (s.elapseTo 5).onKv fun k => { k with merges := k.merges.erase ⟨1, 0, 4⟩ }
     let d := theDesc s
     let a := s0.attn d
     (s.kv.merges.find? fun m => m.ring == (1 : Fin 1024).val && m.seq == 0) = some ⟨1, 0, 4⟩ ∧ s0.desc? 1 0 = some d ∧ d.phase = .running ∧
     d.opcode = 0x0300 ∧ s0.firstFault d.loom0 d.tenant true (a.o.runs 1 ++ if a.wantSt then a.stats.runs 2 else []) = none) :=
  ⟨by unfold State.kvReady; decide +kernel, by unfold State.kvReady; decide +kernel, by decide +kernel, by decide +kernel⟩
def backward : State :=
  kvOp 0x308 [0, 0, 0, 0, 3, 0, 0, 0, 0, 0, 0, 0, 0, 1, 1, 0]
    [qRef, kRef, vRef, { qRef with base := 0x2300 }, { qRef with base := 0x2400 }, { statRef with base := 0x2500 }, { qRef with base := 0x4000 },
      { kRef with base := 0x4100 }, { vRef with base := 0x4200 }, noref] [(0x1000 + 320, leBytes 4 0x3F800000)]
theorem witness_attention_backward :
    let s := backward
    let d := theDesc s
    let a := (s.attnBwd d).1
    let r := (s.attnBwd d).2
    let like := fun (x y : TRef) => x.legal false = true ∧ x.elem.float.isSome = true ∧ x.sameShape y = true
    s.opReady 1 0 0x0308 = some (d, s) ∧ a.q.legal false = true ∧ a.q.elem = .fp16 ∧ s.attnSource d a = true ∧ a.q.dim2 = a.nh ∧ like a.o a.q ∧ like r.dout a.q ∧
    like r.dq a.q ∧ like r.dk a.k ∧ like r.dv a.v ∧ a.stats.base ≠ 0 ∧ a.stats.legal false = true ∧ a.stats.elem = .fp32 ∧ a.stats.dim0 = 2 ∧
    a.stats.dim1 = a.nq ∧ a.stats.dim2 = a.nh ∧ d.inl 3 1 < 16 ∧ d.inl 15 1 = 0 ∧
    (∀ b ∈ (s.vaBytes d.loom0 d.tenant (d.argPtr + 320) 32).drop 4, b = 0#8) ∧ a.footprint ≤ scratchBytes d.l1q ∧ a.sbuf.base = 0 ∧
    s.operandsReady d 352 (a.q.runs 0 ++ a.k.runs 1 ++ a.v.runs 2 ++ a.o.runs 3 ++ r.dout.runs 4 ++ a.stats.runs 5)
      (r.dq.outRuns blank ++ r.dk.outRuns blank ++ r.dv.outRuns blank) := by
  unfold State.operandsReady
  decide +kernel

/-! Chapter 11: composition and scan-out. -/

def onScn (f : Scn → Scn) (s : State) : State := { s with scn := f s.scn }
/-- A small legal timing whose frame 9 stands at line 10. -/
def scanned : State :=
  { ring1 with trd := { ring1.trd with timing := { tiny with hBp := 48 }, now := ⟨9, 10, 0, 0⟩ } }
/-- A layer's shadow registers, 20 columns by 16 rows at (8, 4). -/
def layer (k fmt : Nat) : List (Nat × Field × Nat) :=
  [(Reg.CMP_L_CTL k, Reg.CMP_L_CTL_EN, 1), (Reg.CMP_L_CTL k, Reg.CMP_L_CTL_FMT, fmt), (Reg.CMP_L_CTL k, Reg.CMP_L_CTL_ALPHA, 200),
   (Reg.CMP_L_POS k, Reg.CMP_L_POS_X, 8), (Reg.CMP_L_POS k, Reg.CMP_L_POS_Y, 4), (Reg.CMP_L_SIZE k, Reg.CMP_L_SIZE_W, 20),
   (Reg.CMP_L_SIZE k, Reg.CMP_L_SIZE_H, 16), (Reg.CMP_L_BASE0_LO k, ⟨0, 32⟩, 0x1000000), (Reg.CMP_L_BASE1_LO k, ⟨0, 32⟩, 0x1001000),
   (Reg.CMP_L_STRIDE k, Reg.CMP_L_STRIDE_S0, 128), (Reg.CMP_L_STRIDE k, Reg.CMP_L_STRIDE_S1, 128)]
def committed (s : State) : State := s.copyShadows false
def sendingOf (s : State) : State := onScn (fun c => { c with sending := true }) (committed s)
def packed : State := committed (on scanned (layer 3 0x11))
def planar : State := committed (on scanned (layer 2 1))
def onlyL0 : State :=
  sendingOf (on scanned [(Reg.CMP_L_CTL 0, Reg.CMP_L_CTL_EN, 1), (Reg.CMP_L_CTL 0, Reg.CMP_L_CTL_ALPHA, 255)])
def noLayer : State := sendingOf (on scanned [(Reg.CMP_L_CTL 0, Reg.CMP_L_CTL_EN, 0)])
/-- Layer 3 in use with no row fetched: it underruns. -/
def starved : State := sendingOf (on scanned (layer 3 0x11))
/-- The row of layer 3 on line 11 has been delivered. -/
def rowOfLine : LayerRow := starved.layerRow 3 (9, 11)
def delivered : State :=
  let s := onScn (fun c => { c with rows := [rowOfLine] }) starved
  { s with mem := { s.mem with arrived := rowOfLine.lines.map fun pa => ⟨0, 35, rowOfLine.tag, pa, ramp 128, false⟩ } }
/-- The first frame that scan-out sends is in progress. -/
def switching : State := onB (fun b => { b with switchAt := some 9 }) scanned
def aborting : State := starved.setInUse (Reg.SCN_PORT_CTL 0) (Reg.SCN_PORT_CTL_UNDERRUN.put 0 1)
def replay (n : Nat) (s : State) : State := on s [(Reg.SCN_PR_STATUS, Reg.SCN_PR_STATUS_STATE, n)]
def asked (s : State) (k : Fin 8) : List (Nat × Nat) := s.fetchLines.filter (s.fetches k)
theorem witness_LayersAreFetchedComposedAndCommitted :
    (asked packed 3 ≠ [] ∧ packed.trd.now.pick = 0 ∧ packedSize (packed.layer 3).fmt = some 3 ∧ 0 < packed.shownCols (packed.layer 3) ∧
      asked planar 2 ≠ [] ∧ (planar.layer 2).fmt = 1 ∧ 0 < planar.shownCols (planar.layer 2) ∧ asked packed 0 = [] ∧
      0 < packed.trd.now.line ∧ packed.trd.now.line + 4 < packed.trd.timing.vTotal) ∧
    (let s := at_ ⟨9, 98, 0, 0⟩ packed
     s.trd.timing.vTotal ≤ s.trd.now.line + 4 ∧ s.trd.now.line < s.trd.timing.vTotal) ∧
    ((at_ ⟨9, 0, 0, 0⟩ packed).trd.now.line = 0 ∧ 4 < packed.trd.timing.vTotal) ∧
    (0 < 3 ∧ starved.drawn 9 3 = true ∧ 0 < starved.shownCols (starved.layer 3) ∧ (starved.layer 3).y ≤ starved.composeLine.2 ∧
      starved.composeLine.2 < (starved.layer 3).y + (starved.layer 3).h ∧ starved.rowFor 9 11 3 = none) ∧
    (delivered.rowFor 9 11 3 = some rowOfLine ∧ delivered.composeLine = (9, 11) ∧ (delivered.layer 3).x / 8 = 1 ∧
      (delivered.layer 3).x + delivered.shownCols (delivered.layer 3) = 28 ∧ ∀ g < 4, delivered.groupHere (delivered.layer 3) rowOfLine g = true) ∧
    (switching.scn.sending = false ∧ switching.boot.switchAt = some 9 ∧ switching.underruns 9 11 [] = []) ∧
    ((onScn (fun c => { c with blank := [9] }) onlyL0).darkFrame 9 = true ∧ scanned.scn.sending = false ∧ scanned.boot.switchAt = none) ∧
    (∀ s ∈ [onlyL0, noLayer, starved, aborting], let c := s.composeLine
      s.darkFrame c.1 = false ∧ c.2 < s.trd.timing.vActive ∧ s.scn.lines = [] ∧ s.scn.sending = true ∧ s.trd.now.frame < 65536) ∧
    (∀ s ∈ [onlyL0, noLayer], s.underruns s.composeLine.1 s.composeLine.2 [] = []) ∧
    ((∀ k < 8, noLayer.drawn 9 k = false) ∧ (∀ k < 8, (onlyL0.drawn 9 k = true ↔ k = 0)) ∧ (onlyL0.layer 0).alpha = 255) ∧
    (∀ s ∈ [starved, aborting], s.underruns s.composeLine.1 s.composeLine.2 [] = [(1, 3)]) ∧ (starved.abortsAt 8 = false ∧ aborting.abortsAt 8 = true) ∧
    (let s := onScn (fun c => { c with off := [(3, 8), (3, 10), (2, 8)] }) scanned
     (3, 10) ∈ s.scn.off ∧ (2, 8) ∈ s.scn.off ∧ frameAfter s.trd.now.frame 8 = true ∧ frameAfter s.trd.now.frame 10 = false ∧
     ∀ x ∈ s.scn.off, x.1 = 2 → frameAfter s.trd.now.frame x.2 = true) ∧
    (scanned.scn.commitAt = none ∧ scanned.prState = 0 ∧ (replay 1 scanned).prState = 1 ∧ (replay 2 scanned).prState = 2) ∧
    (let s := onScn (fun c => { c with commitAt := some 9 }) (on scanned (layer 3 0x15))
     s.scn.commitAt = some 9 ∧ s.trd.now.atOrAfter (s.commitStamp 9) = false ∧
     (at_ ⟨9, 97, 0, 0⟩ s).trd.now.atOrAfter ((at_ ⟨9, 97, 0, 0⟩ s).commitStamp 9) = true ∧ (layerOf (at_ ⟨9, 97, 0, 0⟩ s).rd 3).bad = true) := by
  refine ⟨?_, ?_, ?_, ?_, ?_, ?_, ?_, ?_, ?_, ?_, ?_, ?_, ?_, ?_, ?_⟩ <;> decide +kernel

def trainingOn (s : State) : State := onScn (fun c => { c with training := [0] }) s
/-- Both ports' controls in use: port 0 enabled to rate 7, port 1 to rate 4 and two lanes. -/
def portsOf (s : State) : State :=
  (s.setInUse (Reg.SCN_PORT_CTL 0) (Reg.SCN_PORT_CTL_MAX_RATE.put (Reg.SCN_PORT_CTL_EN.put 0 1) 7)).setInUse (Reg.SCN_PORT_CTL 1)
    (Reg.SCN_PORT_CTL_MAX_LANES.put (Reg.SCN_PORT_CTL_MAX_RATE.put 0 4) 2)
def plugged (s : State) : State := on s [(Reg.SCN_PORT_STATUS 0, Reg.SCN_PORT_STATUS_HPD, 1), (Reg.SCN_PORT_STATUS 0, Reg.SCN_PORT_STATUS_TRAINED, 1)]
/-- An AUX transaction in progress. -/
def talking (cmd len defers : Nat) : State := onScn (fun c => { c with aux := some ⟨0, cmd, 0x100, bs [1, 2, 3], len, defers, 0⟩ }) scanned
theorem witness_PortsTrainAndTalk :
    ((portsOf scanned).portActive 0 = true ∧ (replay 1 (portsOf scanned)).portActive 0 = true ∧ (replay 1 (portsOf scanned)).prState = 1 ∧
      (replay 2 (portsOf scanned)).prState = 2 ∧ scanned.portActive 1 = false) ∧
    (scanned.port 0 Reg.SCN_PORT_STATUS_HPD = 0 ∧ (plugged scanned).port 0 Reg.SCN_PORT_STATUS_HPD = 1) ∧
    (let s := trainingOn (portsOf scanned)
     (0 ∈ s.scn.training ∧ 1 ∉ s.scn.training) ∧ 7 ≤ Reg.SCN_PORT_CTL_MAX_RATE.get (s.inUse (Reg.SCN_PORT_CTL 0)) ∧
     Reg.SCN_PORT_CTL_MAX_LANES.get (s.inUse (Reg.SCN_PORT_CTL 1)) ∈ [1, 2] ∧ 4 ≤ Reg.SCN_PORT_CTL_MAX_RATE.get (s.inUse (Reg.SCN_PORT_CTL 1))) ∧
    ((onScn (fun c => { c with urNext := some 9 }) scanned).trd.now.frame = 9 ∧ scanned.scn.urNext = none ∧ scanned.trd.now.frame ≠ 10 ∧
      frameAfter scanned.trd.now.frame 10 = false) ∧
    (scanned.scn.aux = none ∧ (talking 9 3 0).scn.aux = some ⟨0, 9, 0x100, bs [1, 2, 3], 3, 0, 0⟩ ∧ (talking 8 16 7).scn.aux = some ⟨0, 8, 0x100, bs [1, 2, 3], 16, 7, 0⟩ ∧
      (let s := onT (fun t => { t with time := 400 * usTime }) (talking 9 3 0); 0 + 400 * usTime ≤ s.trd.time) ∧ scanned.trd.time < 0 + 400 * usTime ∧
      (portsOf scanned).linkAllowed 1 3 4 = false) := by
  decide +kernel

def sentLine (n : Nat) : RasterLine := ⟨9, n, (List.range 64).map fun i => ⟨i * 60, 4095 - i, i⟩⟩
/-- A 1920 by 1080 timing in the registers, as CVT-RB writes it. -/
def timed (s : State) : State :=
  on s [(Reg.SCN_HTIM0, Reg.SCN_HTIM0_ACTIVE, 1920), (Reg.SCN_HTIM0, Reg.SCN_HTIM0_FP, 48), (Reg.SCN_HTIM1, Reg.SCN_HTIM1_SYNC, 32),
    (Reg.SCN_HTIM1, Reg.SCN_HTIM1_BP, 80), (Reg.SCN_VTIM0, Reg.SCN_VTIM0_ACTIVE, 1080), (Reg.SCN_VTIM0, Reg.SCN_VTIM0_FP, 3),
    (Reg.SCN_VTIM1, Reg.SCN_VTIM1_SYNC, 5), (Reg.SCN_VTIM1, Reg.SCN_VTIM1_BP, 23), (Reg.SCN_TIM_CTL, Reg.SCN_TIM_CTL_REFRESH, 60000)]
/-- Frame 8's signature is complete, equal to the frame's before it; the inputs' were 5. -/
def signed (n run : Nat) : State :=
  onScn (fun c => { c with sigFrame := some 8, sigState := 0x1234, prevOut := some (0x1234 ^^^ 0xFFFFFFFF), prevIn := some 5 })
    (committed (on scanned [(Reg.CMP_FRZ_CFG, Reg.CMP_FRZ_CFG_N, n), (Reg.CMP_FRZ_RUN, Reg.CMP_FRZ_RUN_RUN, run)]))
def showing (s : State) : State := on s [(Reg.SCN_PORT_STATUS 0, Reg.SCN_PORT_STATUS_VIDEO, 1), (Reg.SCN_PORT_STATUS 0, Reg.SCN_PORT_STATUS_PR_CAP, 1)]
def waking : State :=
  let s := replay 2 (on scanned [(Reg.SCN_PR_CTL, Reg.SCN_PR_CTL_EXIT_ON_INTAKE, 1)])
  { s with pic := { s.pic with fifo := [⟨1, 1, 1, [], 0, none, false, false, 0⟩] } }
/-- A line of one pixel, which the pads decode as another. -/
def dotLine : RasterLine := ⟨9, 10, [⟨4095, 0, 0⟩]⟩
theorem witness_ScanOutSendsFrames_crc :
    (let s := onScn (fun c => { c with lines := [dotLine], sending := true }) (showing scanned)
     (s.scn.lines.find? fun l => l.frame == s.trd.now.frame && l.line == s.trd.now.line) = some dotLine ∧ s.darkFrame s.trd.now.frame = false ∧
     s.port 0 Reg.SCN_PORT_STATUS_VIDEO = 1 ∧
     lineCrc [(1, 2, 3)] ≠ lineCrc (s.portPart 0 (dotLine.pixels.zipIdx.map fun x => x.1.dithered (s.cmp Reg.CMP_DITHER) 9 x.2 10))) := by
  decide +kernel
theorem witness_ScanOutSendsFrames :
    (let s := timed scanned
     legalTiming s.timingRegs (Reg.SCN_CFG_MODE.get (s.rd Reg.SCN_CFG) % 3) = true ∧ s.applyFits s.timingRegs = true ∧ s.prState = 0 ∧
     (replay 1 s).prState = 1 ∧ legalTiming (on scanned [(Reg.SCN_HTIM0, Reg.SCN_HTIM0_ACTIVE, 8)]).timingRegs (Reg.SCN_CFG_MODE.get (scanned.rd Reg.SCN_CFG) % 3) = false) ∧
    (let s := at_ ⟨9, 0, 0, 0⟩ (onScn (fun c => { c with timNext := some (scanned.trd.timing, 9) }) (plugged (on scanned [(Reg.SCN_PORT_CTL 0, Reg.SCN_PORT_CTL_MAX_RATE, 3)])))
     s.scn.timNext = some (scanned.trd.timing, 9) ∧ s.trd.now.frame = 9 ∧ s.trd.now.line = 0 ∧ s.trd.now.pick = 0 ∧ s.portChanges 0 = true ∧
     s.port 0 Reg.SCN_PORT_STATUS_HPD = 1 ∧ (match exec .timingChange s with | .next t => t.portActive 0 | _ => false) = true) ∧
    (let s := onScn (fun c => { c with lines := [sentLine 10], sending := true }) (showing scanned)
     (s.scn.lines.find? fun l => l.frame == s.trd.now.frame && l.line == s.trd.now.line) = some (sentLine 10) ∧ s.darkFrame s.trd.now.frame = false ∧
     s.scn.sending = true ∧ s.port 0 Reg.SCN_PORT_STATUS_VIDEO = 1 ∧ [((0 : Fin 2), (1 : Fin 4)), (1, 2)].Nodup) ∧
    (let s := onScn (fun c => { c with lines := [sentLine 0], sending := true }) (at_ ⟨9, 0, 0, 0⟩ scanned)
     (s.scn.lines.find? fun l => l.frame == s.trd.now.frame && l.line == s.trd.now.line) = some (sentLine 0) ∧ s.darkFrame s.trd.now.frame = false) ∧
    (scanned.scn.sigFrame = none ∧ (let s := onScn (fun c => { c with sigFrame := some 9 }) scanned
      s.trd.now.frame = 9 ∧ s.trd.now.line + 1 < s.trd.timing.vActive)) ∧
    (∀ n ∈ [3, 4], let s := signed n 2
      s.scn.sigFrame = some 8 ∧ s.trd.now.frame ≠ 8 ∧ s.scn.prevOut = some (s.scn.sigState ^^^ 0xFFFFFFFF) ∧
      s.scn.prevIn = some 5 ∧ ((s.pic.sigs.find? fun x => x.1 == 8).map fun x => x.2).getD 0 = 0 ∧
      s.fld Reg.CMP_FRZ_RUN Reg.CMP_FRZ_RUN_RUN = 2 ∧ Reg.CMP_FRZ_CFG_N.get (s.cmp Reg.CMP_FRZ_CFG) = n) ∧
    ((signed 0 2).scn.sigFrame = some 8 ∧ Reg.CMP_FRZ_CFG_N.get ((signed 0 2).cmp Reg.CMP_FRZ_CFG) = 0 ∧
      (onScn (fun c => { c with sigState := 4 }) (signed 3 2)).scn.prevOut ≠ some (4 ^^^ 0xFFFFFFFF)) ∧
    (let s := showing (portsOf scanned)
     s.prState = 0 ∧ s.scn.prCapture = none ∧ s.portActive 0 = true ∧ (∀ p < 2, s.portActive p = true → s.port p Reg.SCN_PORT_STATUS_PR_CAP = 1) ∧
     (portsOf scanned).portActive 0 = true ∧ (portsOf scanned).port 0 Reg.SCN_PORT_STATUS_PR_CAP = 0) ∧
    ((replay 1 scanned).prState = 1 ∧ frameAfter (replay 1 scanned).trd.now.frame 8 = true ∧ frameAfter (replay 1 scanned).trd.now.frame 9 = false) ∧
    (waking.prState = 2 ∧ waking.bit Reg.SCN_PR_CTL Reg.SCN_PR_CTL_EXIT_ON_INTAKE = true ∧ (∃ r ∈ waking.pic.fifo, waking.frameEligible r = true) ∧
      (replay 2 scanned).bit Reg.SCN_PR_CTL Reg.SCN_PR_CTL_EXIT_ON_INTAKE = false ∧ (replay 3 scanned).prState = 3) := by
  refine ⟨?_, ?_, ?_, ?_, ?_, ?_, ?_, ?_, ?_, ?_⟩ <;> decide +kernel

/-! Chapter 12: power and health. -/

def onPwr (f : Pwr → Pwr) (s : State) : State := { s with pwr := f s.pwr }
/-- Limits of 30 W, 100 A and 60 A in the registers, and the fuses read, 700 s after the release of RESET_N. -/
def powered : State :=
  onT (fun t => { t with time := 700000000 * usTime }) <| onB (fun b => { b with fusesRead := true })
    (on ring1 [(Reg.PWR_LIMIT, Reg.PWR_LIMIT_CAP_W, 30), (Reg.PWR_LIMIT, Reg.PWR_LIMIT_EDC_A, 100), (Reg.PWR_LIMIT, Reg.PWR_LIMIT_TDC_A, 60)])
def atStep (n : Nat) : State := onPwr (fun p => { p with ladder := n }) powered
def slow (smin : Nat) : State :=
  onPwr (fun p => { p with target := 0, upAt := some 3 }) (on powered [(Reg.PWR_STATUS, Reg.PWR_STATUS_OP, 2), (Reg.PWR_SETPT, Reg.PWR_SETPT_SMIN, smin)])
def hostWaits (f : Field) : State := onPwr (fun p => { p with hostCmd := true, hostLeft := 3 }) (on powered [(Reg.PWR_PMB_CMD, Reg.PWR_PMB_CMD_LEN, 2), (Reg.PWR_PMB_CMD, f, 1)])
/-- Region 1 averages 600 mV of 700 mV for its hundredth poll. -/
def falling : State :=
  onPwr (fun p => { p with regions := p.regions.set 1 (600, 1), vadc := 700, pathRun := p.pathRun.set 1 100 }) (on powered [(Reg.PWR_BASE 1, Reg.PWR_BASE_G, 10)])
def even (v : Int) : List Int := (List.range 40).map fun (_ : Nat) => v
/-- The limits of a tick as the rules compare them: over, or under by a sixteenth. -/
def limitOver (s : State) (tj : Int) : Bool :=
  decide (s.tdcA * 10 * s.frac * max 1 s.pwr.iout.length < s.pwr.iout.sum * 8 ∨ s.capW * 10000 * max 1 s.pwr.power.length < s.powerSum ∨ s.thrTemp ≤ tj)
def limitUnder (s : State) (tj : Int) : Bool :=
  decide (s.fld Reg.PWR_CUR Reg.PWR_CUR_IEST * 8 * 16 < s.edcA * 10 * s.frac * 15 ∧
    s.pwr.iout.sum * 8 * 16 < s.tdcA * 10 * s.frac * max 1 s.pwr.iout.length * 15 ∧
    s.powerSum * 16 < s.capW * 10000 * max 1 s.pwr.power.length * 15 ∧ tj < s.thrTemp - 3)
def hottestNow (temps : List Int) (s : State) : Option (Nat × Int) := ((List.range 40).foldl (State.noteThermal temps) s).hottest temps
def released (n r : Nat) : State := onPwr (fun p => { p with ladder := n, release := r }) (on powered [(Reg.PWR_THR_CFG, Reg.PWR_THR_CFG_RELEASE, 10)])
theorem witness_TheRailIsSteeredAndLimited :
    (powered.boot.fusesRead = true ∧ powered.boot.tripped = false ∧ base.boot.fusesRead = false ∧ powered.underCal 16 = false ∧
      (onPwr (fun p => { p with calUnit := some 16 }) powered).underCal 16 = true ∧ powered.droopReport 16 700 = 700 ∧
      powered.droopReport 16 1200 = 1200 ∧ powered.droopReport 16 0 = 0 ∧ 100 * 8 ≤ powered.edcA * 10 * powered.frac ∧
      powered.edcA * 10 * powered.frac < 2000 * 8 ∧ powered.pwr.stepped ≠ some powered.trd.cclk ∧ powered.pwr.ladder ≤ powered.ladderN) ∧
    (let s := onPwr (fun p => { p with target := 2 }) powered
     s.op < s.pwr.target ∧ s.pwr.target ≤ 2 ∧ powered.pwr.target ≤ powered.op) ∧
    ((slow 900).pwr.target < (slow 900).op ∧ (slow 900).op ≤ 2 ∧ (slow 900).pwr.upAt = some 3 ∧ (slow 900).scn.prWaking = false ∧
      powered.pwr.upAt = none ∧
      (let s := onPwr (fun p => { p with upAt := some 3 }) powered
       s.pwr.upAt = some 3 ∧ s.op ≤ s.pwr.target)) ∧
    (powered.pwr.steerAt ≤ powered.trd.time ∧ powered.pwr.pollAt + 500 * usTime < powered.trd.time ∧ powered.pwr.limitAt ≤ powered.trd.time ∧
      ring1.trd.time < ring1.pwr.steerAt ∧ ring1.trd.time < ring1.pwr.pollAt ∧ ring1.trd.time < ring1.pwr.limitAt ∧
      powered.pwr.hostCmd = false ∧ (hostWaits Reg.PWR_PMB_CMD_RD).pwr.hostLeft ≠ 0 ∧
      (onPwr (fun p => { p with hostLeft := 0 }) (hostWaits Reg.PWR_PMB_CMD_RD)).pwr.hostLeft = 0) ∧
    ((on powered [(Reg.PWR_PMB_CFG, Reg.PWR_PMB_CFG_FAULT_CMD, 0x81)]).fld Reg.PWR_PMB_CFG Reg.PWR_PMB_CFG_FAULT_CMD ≠ 0 ∧
      Nat.testBit 0x105 2 = true ∧ powered.phaseOpen 2 = false) ∧
    (falling.baseline 1 = some 10 ∧ 0 < (falling.pwr.regions.getD 1 (0, 0)).2 ∧ 100 ≤ falling.pwr.pathRun.getD 1 0 ∧
      120000 * (1 : Int) < ((falling.pwr.vadc : Int) * 1 - 600) * 10000 - 10 * (300 : Int) * 1) ∧
    ((hostWaits Reg.PWR_PMB_CMD_RD).pwr.hostCmd = true ∧ (hostWaits Reg.PWR_PMB_CMD_RD).bit Reg.PWR_PMB_CMD Reg.PWR_PMB_CMD_RD = true ∧
      (hostWaits Reg.PWR_PMB_CMD_LEN).bit Reg.PWR_PMB_CMD Reg.PWR_PMB_CMD_RD = false ∧ powered.pwr.hostCmd = false) ∧
    (hottestNow (even 200) powered = none ∧ hottestNow (even 110) powered = some (0, 110) ∧ hottestNow (even 40) powered = some (0, 40)) ∧
    ((∀ n ∈ [0, 8, 9], limitOver (atStep n) 110 = true ∧ (atStep n).pwr.stepped ≠ some (atStep n).trd.cclk) ∧
      (atStep 0).pwr.ladder ≤ (atStep 0).ladderN ∧ (atStep 9).pwr.ladder = (atStep 9).ladderN + 1 ∧
      (on (atStep 9) [(Reg.PIC_ADMIT, Reg.PIC_ADMIT_P1_OK, 0), (Reg.PIC_ADMIT, Reg.PIC_ADMIT_TACK_ONLY, 0)]).p1Allowed = false ∧
      (atStep 10).pwr.ladder = (atStep 10).ladderN + 2 ∧ limitOver (atStep 10) 102 = true ∧ (102 : Int) < (atStep 10).p2Temp ∧
      (atStep 10).p2Temp ≤ (110 : Int) ∧ limitOver (atStep 10) 110 = true ∧ (atStep 11).ladderN + 3 ≤ (atStep 11).pwr.ladder ∧
      (on (atStep 9) [(Reg.PIC_ADMIT, Reg.PIC_ADMIT_P1_OK, 1)]).p1Allowed = true ∧
      (let s := onPwr (fun p => { p with stepped := some p.calAt }) (onT (fun t => { t with cclk := 0 }) (atStep 9))
       s.pwr.stepped = some s.trd.cclk)) ∧
    (∀ r ∈ [3, 9], limitOver (released 4 r) 40 = false ∧ limitUnder (released 4 r) 40 = true ∧
      orElse0 ((released 4 r).fld Reg.PWR_THR_CFG Reg.PWR_THR_CFG_RELEASE) 1 = 10) ∧
    (limitOver (released 4 3) 98 = false ∧ limitUnder (released 4 3) 98 = false ∧ hottestNow (even 98) powered = some (0, 98)) := by
  refine ⟨?_, ?_, ?_, ?_, ?_, ?_, ?_, ?_, ?_, ?_, ?_⟩ <;> decide +kernel

/-- Region 1 stands at 700 mV with no load; injector 5 fires, and 7 still recharges. -/
def pressing : State :=
  onPwr (fun p => { p with firing := [5], rearm := [(6, 100), (7, 2000)] }) (onT (fun x => { x with cclk := 1000, time := 1000 })
    (on powered [(Reg.PWR_PRESS_CFG, Reg.PWR_PRESS_CFG_EN, 1), (Reg.PWR_PRESS_CFG, Reg.PWR_PRESS_CFG_THRESH, 30), (Reg.PWR_STR_CFG, Reg.PWR_STR_CFG_THRESH, 45),
      (Reg.PWR_STR_CFG, Reg.PWR_STR_CFG_HOLD, 100), (Reg.PWR_BASE 1, Reg.PWR_BASE_G, 10), (Reg.PWR_SETPT, Reg.PWR_SETPT_SET, 700)]))
def idleAt (n : Nat) : State :=
  let s := on powered [(Reg.PWR_PR_CFG, Reg.PWR_PR_CFG_IDLE_PICKS, 50)]
  { s with looms := s.looms.map fun l => { l with idle := n } }
def wakingUp (depth : Nat) : State := onScn (fun c => { c with prWaking := true }) (on powered [(Reg.PWR_PR_CFG, Reg.PWR_PR_CFG_DEPTH, depth), (Reg.PWR_PR_CFG, Reg.PWR_PR_CFG_WAKE_BIST, depth)])
def rasterLoom : State :=
  let s := wakingUp 1
  { s with looms := s.looms.map fun l => { l with raster := true } }
/-- A reserved loom's island is on in CCLK 5000. -/
def wakeLater : State := { rasterLoom with looms := rasterLoom.looms.map fun l => { l with wakeAt := 5000 } }
/-- The instant a Rinse slot is due at, in an active line or a blanking line. -/
def slotAt (line : Nat) (f : Pwr → Pwr) : State :=
  onPwr f (on { scanned with trd := { scanned.trd with now := ⟨9, line, 5, 0⟩ } } [(Reg.RIN_CFG, Reg.RIN_CFG_SLOT_PICK, 5), (Reg.RIN_CFG, Reg.RIN_CFG_FLASH_EN, 1)])
def slotNow (s : State) : State := State.elapse (s.toAction ⟨s.trd.now.frame, s.trd.now.line, s.trd.now.pick, 0⟩) s
def flashBusy : State := onB (fun b => { b with flCmd := some ⟨0x9F, 0, []⟩ }) (slotAt 10 fun p => { p with pressedPrev := [0] })
def snapAt (line : Nat) : State :=
  on (at_ ⟨9, line, 0, 0⟩ scanned) [(Reg.RIN_CFG, Reg.RIN_CFG_SNAP_EN, 1), (Reg.RIN_CFG, Reg.RIN_CFG_SNAP_LINE, 10)]
/-- Slot descriptor A with its CRC: 44 bytes of zero. -/
def goodSlot : State := onB (fun b => { b with flash := (List.replicate 44 0#8 ++ leBytes 4 (crc32 (List.replicate 44 0#8))).zipIdx.map fun x => (x.2, x.1) }) powered
theorem witness_PressGatesAndRinseRun :
    (pressing.bit Reg.PWR_PRESS_CFG Reg.PWR_PRESS_CFG_EN = true ∧ 5 ∈ pressing.pwr.firing ∧ 6 ∉ pressing.pwr.firing ∧
      tblFind pressing.pwr.rearm 6 = some 100 ∧ 100 ≤ pressing.trd.time ∧ tblFind pressing.pwr.rearm 7 = some 2000 ∧ ¬(2000 ≤ pressing.trd.time) ∧
      pressing.baseline 1 = some 10 ∧ (600 : Int) * 10000 < pressing.railTarget 1 - 30 * 10000 ∧ pressing.railTarget 1 - 30 * 5000 < (690 : Int) * 10000 ∧
      (680 : Int) * 10000 ≤ pressing.railTarget 1 - 30 * 5000 ∧ (600 : Int) * 10000 < pressing.railTarget 1 - 45 * 10000 ∧
      ¬((690 : Int) * 10000 < pressing.railTarget 1 - 45 * 10000) ∧ pressing.pwr.lowAt + 100 < pressing.trd.cclk ∧
      (onPwr (fun p => { p with lowAt := 990 }) pressing).trd.cclk ≤ 990 + 100) ∧
    ((on powered [(Reg.PWR_STR_CFG, Reg.PWR_STR_CFG_FORCE, 1)]).bit Reg.PWR_STR_CFG Reg.PWR_STR_CFG_FORCE = true ∧
      powered.bit Reg.PWR_STR_CFG Reg.PWR_STR_CFG_FORCE = false ∧ powered.pwr.ladder ≤ powered.ladderN ∧ (atStep 9).ladderN < (atStep 9).pwr.ladder) ∧
    ((idleAt 60).fld Reg.PWR_PR_CFG Reg.PWR_PR_CFG_IDLE_PICKS = 50 ∧ ((idleAt 60).loom 3).inService = true ∧
      ((idleAt 60).loom 3).logical ∈ (idleAt 60).freePool ∧ ((idleAt 60).loom 3).idle = 60 ∧ ((idleAt 40).loom 3).idle < 50 ∧
      ¬(((idleAt 60).loom 33).inService = true ∧ ((idleAt 60).loom 33).logical ∈ (idleAt 60).freePool)) ∧
    (powered.scn.prWaking = false ∧ (wakingUp 0).scn.prWaking = true ∧ (wakingUp 0).bit Reg.PWR_PR_CFG Reg.PWR_PR_CFG_DEPTH = false ∧
      (wakingUp 0).bit Reg.PWR_PR_CFG Reg.PWR_PR_CFG_WAKE_BIST = false ∧ (wakingUp 1).bit Reg.PWR_PR_CFG Reg.PWR_PR_CFG_DEPTH = true ∧
      (let s := onPwr (fun p => { p with target := 2 }) (wakingUp 1)
       s.op ≠ s.pwr.target)) ∧
    (rasterLoom.scn.prWaking = true ∧ rasterLoom.op = rasterLoom.pwr.target ∧ rasterLoom.bit Reg.PWR_PR_CFG Reg.PWR_PR_CFG_WAKE_BIST = true ∧
      3 < rasterLoom.looms.length ∧ (rasterLoom.loom 3).raster = true ∧ (rasterLoom.loom 3).state = .active ∧ (rasterLoom.loom 3).work = none ∧
      (rasterLoom.loom 3).owner ≠ .picture ∧ powered.trd.cclk < (wakeLater).wakeEnd ∧ rasterLoom.wakeEnd ≤ (onT (fun t => { t with cclk := 3000000 }) rasterLoom).trd.cclk) ∧
    (let due := fun (s : State) => s.trd.now.pick = s.fld Reg.RIN_CFG Reg.RIN_CFG_SLOT_PICK ∧ s.pwr.slotDone ≠ some (s.trd.now.frame, s.trd.now.line)
     due (slotAt 10 id) ∧ due (slotAt 60 id) ∧ due flashBusy ∧ ¬due (slotAt 10 fun p => { p with slotDone := some (9, 10) })) ∧
    ((slotNow (slotAt 60 id)).blankingLine = true ∧ (slotNow (slotAt 60 id)).pwr.calUnit = none ∧ (slotNow (slotAt 60 id)).pwr.patrol = none ∧
      (slotNow (slotAt 60 id)).bit Reg.RIN_CFG Reg.RIN_CFG_FLASH_EN = true ∧ (slotNow (slotAt 60 id)).pwr.calNext < 256) ∧
    ((slotNow flashBusy).blankingLine = false ∧ (slotNow flashBusy).pwr.calUnit = none ∧ (slotNow flashBusy).pwr.patrol = none ∧
      (∃ r ∈ (slotNow flashBusy).unitRegions (slotNow flashBusy).pwr.calNext, r ∈ (slotNow flashBusy).pwr.pressedPrev) ∧
      (slotNow flashBusy).boot.flCmd = some ⟨0x9F, 0, []⟩) ∧
    ((slotNow (slotAt 10 fun p => { p with calUnit := some 16, patrol := some 3 })).pwr.calUnit = some 16 ∧
      (slotNow (slotAt 10 fun p => { p with calUnit := some 16, patrol := some 3 })).pwr.patrol = some 3) ∧
    (falling.baseline (16 / 16) = some 10 ∧ falling.pwr.calAt + usTime ≤ falling.trd.time ∧ ring1.trd.time < ring1.pwr.calAt + usTime) ∧
    (let s := onB (fun b => { b with slot := some 0 }) withImage
     s.boot.slot = some 0 ∧ (∀ x ∈ s.indexed 0, (x.2.offset + (x.2.length - 1)) / 256 ≠ 40 - 32) ∧
     ∃ x ∈ s.indexed 0, (x.2.offset + (x.2.length - 1)) / 256 = 35 - 32 ∧ x.1 = 2) ∧
    (powered.pwr.patFrom + 600 * 1000000 * usTime ≤ powered.trd.time ∧ powered.pwr.calFrom + 100 * 1000 * usTime ≤ powered.trd.time ∧
      ring1.trd.time < ring1.pwr.patFrom + 600 * 1000000 * usTime ∧ ring1.trd.time < ring1.pwr.calFrom + 100 * 1000 * usTime) ∧
    (let s := goodSlot
     let b := s.flashBytes (0x1000 * (15 / 16)) 48
     let c := s.flashBytes (0x1000 * (31 / 16)) 48
     bytesAt b 0x2C 4 = crc32 (b.take 0x2C) ∧ bytesAt c 0x2C 4 ≠ crc32 (c.take 0x2C) ∧ s.patrolUnits = 32) ∧
    (powered.fld Reg.RIN_TARGET Reg.RIN_TARGET_FLASH_S = 600 ∧ powered.pwr.patStarved = false ∧ powered.fld Reg.RIN_TARGET Reg.RIN_TARGET_CAL_MS = 100 ∧
      powered.pwr.calStarved = false ∧ (on powered [(Reg.RIN_TARGET, Reg.RIN_TARGET_FLASH_S, 0)]).fld Reg.RIN_TARGET Reg.RIN_TARGET_FLASH_S = 0) ∧
    (let due := fun (s : State) => s.bit Reg.RIN_CFG Reg.RIN_CFG_SNAP_EN = true ∧ s.trd.now.line = s.fld Reg.RIN_CFG Reg.RIN_CFG_SNAP_LINE ∧
      s.trd.now.pick = 0 ∧ s.pwr.snapDone ≠ some s.trd.now.frame
     due (snapAt 10) ∧ ¬due (snapAt 11)) := by
  refine ⟨?_, ?_, ?_, ?_, ?_, ?_, ?_, ?_, ?_, ?_, ?_, ?_, ?_, ?_, ?_⟩ <;> decide +kernel
/-- Section 2 of the image, which ends in unit 35, has a bad hash. -/
theorem witness_PressGatesAndRinseRun_hash :
    ∃ x, loadingNets.netSections.drop 1 = (2, x) :: [] ∧ loadingNets.hashOk 0 2 x = false := ⟨_, rfl, by decide +kernel⟩

/-! Chapter 13: the Selvage link and walls. -/

def onV (f : Slv → Slv) (s : State) : State := { s with slv := f s.slv }
/-- Chip 5 in the middle of a row of three, a follower; port 3 faces chip 4 and port 1 chip 6. -/
def walled : State :=
  onB (fun b => { b with
    chipId := BitVec.ofNat _ 5
    fuses := { b.fuses with wall := true }
    wall := some ⟨3, 1, 4, [⟨4, 0, 0, true⟩, ⟨5, 1, 0, true⟩, ⟨6, 2, 0, true⟩]⟩ })
    (on ring1 [(Reg.SLV_STATUS, Reg.SLV_STATUS_ROLE, 2), (Reg.SLV_STATUS, Reg.SLV_STATUS_X, 1), (Reg.SLV_CFG, Reg.SLV_CFG_PORT_EN, 15),
      (Reg.SLV_GROUP 0, Reg.SLV_GROUP_MEMBERS, 0x70), (Reg.SLV_REACH, Reg.SLV_REACH_CHIPS, 0x50)])
/-- Port 3 in some state. -/
def portIn (n : Nat) : State := on walled [(Reg.SLV_PORT 3, Reg.SLV_PORT_STATE, n)]
def bothUp : State := on walled [(Reg.SLV_PORT 3, Reg.SLV_PORT_STATE, 4), (Reg.SLV_PORT 1, Reg.SLV_PORT_STATE, 4)]
def withMsg (m : InMsg) (s : State) : State := onV (fun v => { v with inbox := [m] }) s
/-- A CTRL message from chip 4. -/
def ctrl4 (type : Nat) : InMsg := ⟨3, 3, 1, bs [type, 0, 0, 0, 0, 0, 0, 0], []⟩
/-- A CTRL message from chip 6, come by way of port 3. -/
def ctrl6 (type : Nat) : InMsg := ⟨3, 3, 33, bs [type, 0, 0, 0, 0, 0, 0, 0], []⟩
def fresh : SelPort := SelPort.fresh
def selAt (x : SelPort) (s : State) : State := s.setSel 3 x
def waitMsg (cls sent : Nat) : SelMsg := ⟨cls, 4, 1, ramp 30, [], sent⟩
/-- A good flit in sequence after a port has begun, for some destination. -/
def flitOf (ctl route seq : Nat) : List Byte :=
  let body := bs [ctl, route, seq, 255, 0, 5, 1, 2, 3, 4, 5] ++ List.replicate 19 0#8
  body ++ leBytes 2 (crc16 body)
def kept (seq again at_ : Nat) : SentFlit := ⟨seq, at_, again, flitOf 0 0 seq, false⟩
def gather (op : Nat) : Desc :=
  let body := bs [0, 0, 0, 0, 0, 0, 0, 0, op, 0, 0, 0, 0, 0, 0, 0] ++ leBytes 4 16 ++ leBytes 4 77 ++ leBytes 8 0x2000 ++ leBytes 8 0x4000
  { mkD 1 0 1 ((body ++ List.replicate 64 0#8).take 64) with coll := true }
/-- A collective is at work on loom 1. -/
def collWork (op : Nat) (s : State) : State := running (gather op) s true false
def collAt (sent final : Bool) (blocks : Tbl Nat) (done : List Nat) : Coll :=
  { ring := 1, seq := 0, blocks := blocks, done := done, sent := sent, final := final, readyAt := 0 }
theorem witness_SelvagePortsTrainAndCarryFlits :
    ((∀ n < 6, (portIn n).slvState 3 = n) ∧ (portIn 0).hasCoord = true ∧ (portIn 0).slvDisabled 3 = false ∧ (portIn 0).slvDisabled 0 = true ∧
      ((portIn 0).selPort 3).failAt + 10000 * usTime ≤ (onT (fun t => { t with time := 10000 * usTime }) (portIn 0)).trd.time ∧
      (portIn 0).trd.time < ((portIn 0).selPort 3).failAt + 10000 * usTime ∧ (portIn 1).trd.time < ((portIn 1).selPort 3).startAt + 1000 * usTime ∧
      ((portIn 1).selPort 3).startAt + 1000 * usTime < (onT (fun t => { t with time := 1001 * usTime }) (portIn 1)).trd.time ∧
      (∀ q < 4, q ≠ 3 → (portIn 1).slvState q = 0 ∨ (portIn 1).slvState q = 5) ∧ bothUp.slvState 1 ≠ 0 ∧ bothUp.slvState 1 ≠ 5 ∧
      ((portIn 4).selPort 3).slotAt ≤ 125 * (portIn 4).trd.time ∧
      (let s := selAt { fresh with slotAt := 78848 } (portIn 4)
       125 * s.trd.time < (s.selPort 3).slotAt) ∧
      (withMsg (ctrl4 1) (portIn 2)).slvState 3 ≠ 3) ∧
    (let s := withMsg (ctrl4 1) (portIn 3)
     (s.takeCtrl 3 1).map (fun x => x.1) = some (ctrl4 1) ∧ s.neighbour 3 = some ⟨4, 0, 0, true⟩ ∧
     s.boot.wall = some ⟨3, 1, 4, [⟨4, 0, 0, true⟩, ⟨5, 1, 0, true⟩, ⟨6, 2, 0, true⟩]⟩ ∧ ((portIn 3).takeCtrl 3 1).isNone = true) ∧
    (((withMsg (ctrl4 2) (portIn 3)).takeCtrl 3 2).isSome = true ∧ ((withMsg (ctrl4 3) (portIn 3)).takeCtrl 3 3).isSome = true ∧
      ((selAt { fresh with echoAt := some 0, trips := [500] } (withMsg (ctrl4 3) (portIn 3))).selPort 3).echoAt = some 0 ∧
      ([500].length + 1 < 8) ∧ 8 ≤ (List.replicate 7 500).length + 1) ∧
    (∀ t ∈ [500, 900], let s := selAt { fresh with hello := true, trips := List.replicate 8 t } (portIn 3)
      s.slvState 3 = 3 ∧ (s.selPort 3).hello = true ∧ 8 ≤ (s.selPort 3).trips.length ∧
      (channelDelay (s.selPort 3).trips ≤ 200 ↔ t = 500)) ∧
    (let s := onT (fun t => { t with time := 5 * usTime }) (selAt { fresh with sent := [kept 0 8 0], lastRx := 100 } (onV (fun v => { v with colls := [collAt false false [] []] }) (collWork 0 bothUp)))
     s.slvUp 3 = true ∧ (∃ f ∈ (s.selPort 3).sent, 8 ≤ f.again) ∧ (s.selPort 3).lastRx + usTime ≤ s.trd.time ∧
     (onT (fun t => { t with time := 200 }) s).trd.time < (s.selPort 3).lastRx + usTime ∧ (∀ f ∈ [kept 0 7 0], f.again < 8) ∧
     (s.desc? 1 0).isSome = true ∧ (∃ m ∈ s.peers (gather 0), m = 4) ∧ (s.entryOf 4) = some ⟨4, 0, 0, true⟩ ∧ s.nextPort (0, 0) = some 3) ∧
    (∀ x ∈ [{ fresh with queue := [waitMsg 3 0, waitMsg 2 24] }, { fresh with queue := [waitMsg 1 0], credits := [0, 0, 0, 0, 0, 0] }],
      let s := selAt x (portIn 4)
      s.slvState 3 = 4 ∧ (s.selPort 3).resend = none ∧ ∀ y ∈ (s.selPort 3).queue, y.src < 5) ∧
    ((∃ y ∈ [waitMsg 3 0, waitMsg 2 24], 1 ≤ y.cls ∧ y.cls ≤ 5 ∧ 0 < fresh.credits.getD y.cls 0) ∧
      (∀ y ∈ [waitMsg 1 0], [0, 0, 0, 0, 0, 0].getD y.cls 0 = 0)) ∧
    (let s := selAt { fresh with sent := [kept 0 0 0, kept 1 0 0], resend := some 0 } (portIn 4)
     (s.selPort 3).resend = some 0 ∧ (s.selPort 3).sent[0]? = some (kept 0 0 0) ∧ s.trd.cclk < (kept 0 0 0).cclk + 512 ∧
     (kept 0 0 0).cclk + 512 ≤ (onT (fun t => { t with cclk := 600 }) s).trd.cclk) ∧
    (∀ f ∈ [flitOf 0x1B 1 0, flitOf 0x1F 1 0, flitOf 0x00 1 0, flitOf 0x1B 2 0, flitOf 0x1B 1 3], f.length = 32 ∧ bytesAt f 30 2 = crc16 (f.take 30)) ∧
    ((fresh.rxSeq + 1) % 256 = bytesAt (flitOf 0x1B 1 0) 2 1 ∧ (fresh.rxSeq + 1) % 256 ≠ bytesAt (flitOf 0x1B 1 3) 2 1 ∧
      ¬(bytesAt (List.replicate 32 0#8) 30 2 = crc16 ((List.replicate 32 0#8).take 30))) ∧
    (bytesAt (flitOf 0x1B 1 0) 0 1 % 8 = 3 ∧ 6 ≤ bytesAt (flitOf 0x1F 1 0) 0 1 % 8 ∧ (bytesAt (flitOf 0x1B 1 0) 0 1).testBit 3 = true ∧
      (bytesAt (flitOf 0x1B 1 0) 0 1).testBit 4 = true ∧ (portIn 4).coord = (1, 0) ∧
      (let dest := (bytesAt (flitOf 0x1B 2 0) 1 1 % 4, bytesAt (flitOf 0x1B 2 0) 1 1 / 4 % 4)
       dest ≠ (portIn 4).coord ∧ (portIn 4).nextPort dest = some 1 ∧ (portIn 4).slvUp 1 = false ∧ bothUp.nextPort dest = some 1 ∧ bothUp.slvUp 1 = true)) := by
  refine ⟨?_, ?_, ?_, ?_, ?_, ?_, ?_, ?_, ?_, ?_, ?_⟩ <;> decide +kernel

/-- A follower at line 16 of frame 9 with the small timing, both ports UP, following port 3's time. -/
def follow (line : Nat) : State :=
  onT (fun t => { t with timing := tiny, now := ⟨9, line, 0, 0⟩, refUse := 2 }) (on bothUp [(Reg.TRD_STATUS, Reg.TRD_STATUS_LOCK, 2)])
def timeMsg (t : Stamp) (v : Nat) : InMsg := ⟨3, 1, 1, leBytes 6 t.bits ++ bs [1, 4] ++ leBytes 2 tiny.hTotal ++ leBytes 2 v, []⟩
def framed (s : State) : State := { s with pic := { picture.pic with fifo := [frame1] } }
def strip4 (line : Nat) : Strip := ⟨3, ⟨9, line, 0, 0⟩, 0, bs [1], []⟩
def stripMsg : InMsg := ⟨3, 4, 1, leBytes 6 (Stamp.bits ⟨9, 30, 0, 0⟩) ++ bs [3, 0, 1, 2, 3], []⟩
def mapMsg (shed : Nat) : InMsg := ⟨3, 2, 1, leBytes 2 shed ++ bs [9, 1] ++ leBytes 4 4 ++ bs [1, 2, 3, 4], []⟩
def shedding (s : State) : State :=
  on { s with pic := { s.pic with sheds := [shedOf 9 2 true] } } [(Reg.SLV_STRIP_CFG, Reg.SLV_STRIP_CFG_MAP_EN, 1)]
/-- The chip at the west end of the row. -/
def at0 (s : State) : State := on s [(Reg.SLV_STATUS, Reg.SLV_STATUS_X, 0)]
/-- A record of 4320 rows: 63 columns of it are more than an edge's 256 KiB. -/
def tall : FrameRec := { frame1 with bytes := frame1.bytes.take 18 ++ leBytes 2 4320 ++ frame1.bytes.drop 20 }
def tallWall : State :=
  on { follow 10 with pic := { picture.pic with fifo := [tall] } } [(Reg.SLV_STRIP_CFG, Reg.SLV_STRIP_CFG_HCOLS, 63)]
theorem length_stripOut_west (s : State) (f : FrameRec) (plane : Nat) :
    (s.stripOut f plane 3).length =
      (f.planeSize plane).2 * (min (s.stripDepth f plane 3) (f.planeSize plane).1 * (fmtBytes f.fmt * (if plane = 0 then 1 else 2))) := by
  simp [State.stripOut, State.planeRun, List.length_flatMap, List.map_const']
theorem witness_strips_too_long :
    tallWall.frame? (some (1, 1)) = some tall ∧ tallWall.frameEligible tall = true ∧ (1, 1) ∉ tallWall.slv.stripSent ∧ tallWall.slvUp 3 = true ∧
      262144 < (tallWall.stripOut tall 0 3).length + (tallWall.stripOut tall 1 3).length := by
  rw [length_stripOut_west, length_stripOut_west]
  decide +kernel
theorem witness_WallsShareTimeAndStrips :
    (let due := fun (s : State) => s.trd.now.line % 16 = 0 ∧ s.trd.now.pick = 0 ∧ s.slv.timeSent ≠ some (s.trd.now.frame, s.trd.now.line) ∧
      (s.timeMaster = true ∨ (s.follower = true ∧ s.lock = 2))
     due (follow 16) ∧ due (on (follow 16) [(Reg.SLV_STATUS, Reg.SLV_STATUS_ROLE, 1)]) ∧ ¬due (follow 17) ∧
     (let s0 := State.elapse ((follow 16).toAction ⟨9, 16, 0, 0⟩) (follow 16)
      s0.slvUp 3 = true ∧ s0.slvUp 0 = false)) ∧
    (let s := withMsg (timeMsg ⟨9, 10, 0, 0⟩ tiny.vTotal) (follow 16)
     (s.takeMsg 3 1 fun _ => true).map (fun x => x.1) = some (timeMsg ⟨9, 10, 0, 0⟩ tiny.vTotal) ∧ s.follower = true ∧ s.slvUp 3 = true ∧
     bytesAt (timeMsg ⟨9, 10, 0, 0⟩ tiny.vTotal).data 8 2 = s.trd.timing.hTotal ∧ bytesAt (timeMsg ⟨9, 10, 0, 0⟩ tiny.vTotal).data 10 2 = s.trd.timing.vTotal ∧
     bytesAt (timeMsg ⟨9, 10, 0, 0⟩ 7).data 10 2 ≠ s.trd.timing.vTotal ∧
     s.heardBoundary (Stamp.ofBits (bytesAt (timeMsg ⟨9, 10, 0, 0⟩ tiny.vTotal).data 0 6)) = true ∧ s.trd.refUse = 2 ∧
     s.heardBoundary (Stamp.ofBits (bytesAt (timeMsg ⟨9, 40, 0, 0⟩ tiny.vTotal).data 0 6)) = false ∧ (portIn 4).follower = true ∧ (portIn 3).slvUp 3 = false ∧
     (match exec (.timeMessage 3 230) (onV (fun v => { v with good := 15 }) s) with
      | .next t => decide (t.fld Reg.SLV_TIME Reg.SLV_TIME_PARENT = 3 ∧ 16 ≤ t.slv.good)
      | _ => false) = true ∧
     (on s [(Reg.TRD_CTL, Reg.TRD_CTL_REALIGN, 1)]).bit Reg.TRD_CTL Reg.TRD_CTL_REALIGN = true ∧
     (on s [(Reg.TRD_CTL, Reg.TRD_CTL_REALIGN, 0)]).bit Reg.TRD_CTL Reg.TRD_CTL_REALIGN = false ∧
     (s.trd.now.line + s.trd.timing.vTotal - (Stamp.ofBits (bytesAt (timeMsg ⟨9, 40, 0, 0⟩ tiny.vTotal).data 0 6)).line % s.trd.timing.vTotal) %
       s.trd.timing.vTotal ≠ 0) ∧
    (let s := onV (fun v => { v with masterAt := some 9 }) (follow 0)
     s.slv.masterAt = some 9 ∧ s.trd.now.frame = 9 ∧ s.hasCoord = true ∧ walled.slv.masterAt = none ∧ s.chip = 5) ∧
    (let s := framed (follow 10)
     s.frame? (some (1, 1)) = some frame1 ∧ s.frameEligible frame1 = true ∧ (1, 1) ∉ s.slv.stripSent ∧ s.slvUp 3 = true ∧ s.slvUp 0 = false ∧
     s.frame? (some (1, 2)) = none) ∧
    (let s := on (framed (follow 10)) [(Reg.SLV_STRIP_CFG, Reg.SLV_STRIP_CFG_HCOLS, 2)]
     s.stripOut frame1 0 3 ≠ [] ∧ (s.stripOut frame1 0 3).length + (s.stripOut frame1 1 3).length ≤ 262144) ∧
    (let s := withMsg stripMsg (onV (fun v => { v with strips := [strip4 10, strip4 20] }) (follow 10))
     (s.takeMsg 3 4 fun _ => true).map (fun x => x.1) = some stripMsg ∧ (∀ y ∈ s.slv.strips, y.edge = 3 → y.pstamp ≠ Stamp.ofBits (bytesAt stripMsg.data 0 6)) ∧
     ((s.slv.strips.filter fun y => y.edge == 3).map fun y => y.pstamp).eraseDups = [⟨9, 10, 0, 0⟩, ⟨9, 20, 0, 0⟩]) ∧
    (let s := withMsg (mapMsg 2) (shedding (follow 10))
     (s.takeMsg 3 2 fun _ => true).map (fun x => x.1) = some (mapMsg 2) ∧ s.shedRuns (bytesAt (mapMsg 2).data 0 2) (bytesAt (mapMsg 2).data 2 1) = true ∧
     s.shedRuns (bytesAt (mapMsg 5).data 0 2) (bytesAt (mapMsg 5).data 2 1) = false ∧
     (s.pic.sheds.find? fun y => y.index == 2 && y.nets && !y.ended) = some (shedOf 9 2 true) ∧
     s.bit Reg.SLV_STRIP_CFG Reg.SLV_STRIP_CFG_MAP_EN = true ∧ s.hasCoord = true ∧ s.slvUp 1 = true ∧ s.slvUp 3 = true) ∧
    (let s := shedding (portIn 3)
     s.slvUp 1 = false ∧ s.slvUp 3 = false ∧ (s.neighbour 1).isSome = true ∧ (s.neighbour 3).isSome = true ∧
     s.bit Reg.SLV_STRIP_CFG Reg.SLV_STRIP_CFG_MAP_EN = true ∧ s.hasCoord = true) ∧
    (let s := at0 (shedding (portIn 3))
     s.slvUp 1 = false ∧ s.slvUp 3 = false ∧ (s.neighbour 1).isSome = true ∧ (s.neighbour 3).isSome = false ∧ s.hasCoord = true) ∧
    (let s := at0 (onB (fun b => { b with wall := none }) (shedding (portIn 3)))
     (s.neighbour 1).isSome = false ∧ (s.neighbour 3).isSome = false ∧ s.hasCoord = true) ∧
    (let s := onV (fun v => { v with pings := [(4, 0), (6, 0)] }) (withMsg (ctrl4 5) bothUp)
     (s.takeCtrl 3 5).map (fun x => x.1) = some (ctrl4 5) ∧ s.sender (ctrl4 5) = some 4 ∧ (s.slv.pings.find? fun x => x.1 == 4) = some (4, 0) ∧
     s.trd.time ≤ 0 + 100 * usTime ∧ 0 + 100 * usTime < (onT (fun t => { t with time := 200 * usTime }) s).trd.time ∧
     ((withMsg (ctrl6 4) bothUp).takeCtrl 3 4).map (fun x => x.1) = some (ctrl6 4) ∧ s.sender (ctrl6 4) = some 6 ∧ s.entryOf 6 = some ⟨6, 2, 0, true⟩ ∧
     s.nextPort (2, 0) = some 1 ∧ s.slvUp 1 = true) ∧
    ((onT (fun t => { t with time := 1000 * usTime }) walled).slv.pingAt ≤ 1000 * usTime ∧ walled.trd.time < walled.slv.pingAt ∧ walled.slv.colls = [] ∧
      (let s := onV (fun v => { v with colls := [collAt false false [] []], pings := [(4, 0)] }) (collWork 0 bothUp)
       (s.desc? 1 0).isSome = true ∧ 4 ∈ s.peers (gather 0)) ∧ Nat.testBit 0x40 4 = false) ∧
    (walled.hasCoord = true ∧ base.hasCoord = false ∧ (4 : Nat) ≠ walled.chip ∧ walled.chip ∈ walled.members 0 ∧ 4 ∈ walled.members 0) := by
  refine ⟨?_, ?_, ?_, ?_, ?_, ?_, ?_, ?_, ?_, ?_, ?_, ?_, ?_⟩ <;> decide +kernel

/-- The record of `gather` at work, its operands mapped. -/
def collecting (op : Nat) (up : State) (l : List Coll) (r : List Ready) : State :=
  onV (fun v => { v with colls := l, ready := r }) (poke [(0x2000, ramp 16), (0x4000, ramp 48)] (mapped (collWork op up)))
def readies (op : Nat) : List Ready := [⟨4, 0, 77, op, 16⟩, ⟨6, 0, 77, op, 16⟩]
def theColl (s : State) : Desc := (s.desc? 1 0).getD (gather 0)
/-- A COLL message of rank 0 with data for the record. -/
def collMsg (id n : Nat) : InMsg := ⟨3, 5, 1, bs [0, 0, 0, 0] ++ leBytes 4 id ++ leBytes 4 0 ++ ramp n, []⟩
theorem witness_CollectivesJoinChips :
    (∀ op < 2, let s := collecting op bothUp [] []
      let d := theColl s
      s.collDesc? 1 0 = some d ∧ d.collOp = op ∧ s.coll? d = none ∧ s.unreachable d = false ∧ s.allReady d = false ∧ s.readyFor d = [] ∧
      (∀ c ∈ [4, 6], c ∈ s.peers d) ∧ s.trd.time < 0 + 100 * usTime ∧
      0 + 100 * usTime ≤ (onT (fun t => { t with time := 100 * usTime }) s).trd.time ∧
      ¬(∀ r ∈ (collecting op bothUp [] [⟨4, 0, 77, 1 - op, 16⟩]).readyFor d, r.op = d.collOp ∧ r.bytes = d.collBytes) ∧ s.entryOf 4 = some ⟨4, 0, 0, true⟩ ∧ s.nextPort (0, 0) = some 3 ∧ s.slvUp 3 = true ∧
      (let u := collecting op walled [] []
       u.collDesc? 1 0 = some (theColl u) ∧ u.coll? (theColl u) = none ∧ u.unreachable (theColl u) = true)) ∧
    (∀ op < 2, let s := collecting op bothUp [collAt false false [] []] (readies op)
      let d := theColl s
      s.collDesc? 1 0 = some d ∧ d.collOp = op ∧ s.coll? d = some (collAt false false [] []) ∧ s.allReady d = true ∧
      (∀ r ∈ s.readyFor d, r.op = d.collOp ∧ r.bytes = d.collBytes) ∧
      s.runFault d.loom0 d.tenant false d.collSrc d.collBytes = none ∧
      s.runFault d.loom0 d.tenant true (d.collDst + s.rankOf d.collGroup s.chip * d.collBytes) d.collBytes = none ∧
      s.vaPoison d.loom0 d.tenant d.collSrc d.collBytes = false ∧
      (∃ m ∈ s.members d.collGroup, s.rankOf d.collGroup m ≠ s.rankOf d.collGroup s.chip ∧
        tblGet (fun _ => 0) (collAt false false [] []).blocks (s.rankOf d.collGroup m) ≠ d.collBytes)) ∧
    (let s := collecting 0 bothUp [collAt false false [] []] [⟨4, 0, 77, 1, 16⟩]
     let d := theColl s
     s.coll? d = some (collAt false false [] []) ∧ s.allReady d = false ∧ ¬(∀ r ∈ s.readyFor d, r.op = d.collOp ∧ r.bytes = d.collBytes)) ∧
    (∀ op < 2, let c := collAt true false [(0, 16), (1, 16), (2, 16)] [4, 6]
      let s := collecting op bothUp [c] (readies op)
      let d := theColl s
      s.collDesc? 1 0 = some d ∧ s.coll? d = some c ∧ s.allReady d = true ∧ c.sent = true ∧ c.final = false ∧ s.blocksIn d c = true ∧
      ∀ m ∈ s.peers d, m ∈ c.done) ∧
    bothUp.collDesc? 1 0 = none ∧
    (let s := withMsg (ctrl4 6) (collecting 0 bothUp [collAt false false [] []] [])
     (s.takeCtrl 3 6).map (fun x => x.1) = some (ctrl4 6) ∧ s.sender (ctrl4 6) = some 4 ∧ s.collOf 0 5 = none ∧ s.collOf 0 77 = some (theColl s) ∧
     s.collDesc? (theColl s).ring (theColl s).seq = some (theColl s) ∧ 1 ≠ (theColl s).collOp) ∧
    (let s := withMsg (ctrl4 7) (collecting 0 bothUp [collAt true false [] []] [⟨4, 0, 77, 0, 16⟩])
     let d := theColl s
     (s.takeCtrl 3 7).map (fun x => x.1) = some (ctrl4 7) ∧ s.sender (ctrl4 7) = some 4 ∧ s.collOf 0 77 = some d ∧
     s.coll? d = some (collAt true false [] []) ∧ s.collDesc? d.ring d.seq = some d ∧
     (∀ r ∈ s.readyFor d, r.op = d.collOp ∧ r.bytes = d.collBytes) ∧ s.allReady d = false) ∧
    (let s := withMsg (collMsg 77 16) (collecting 0 bothUp [collAt true false [] []] [])
     let d := theColl s
     let m := collMsg 77 16
     (s.takeMsg 3 5 fun _ => true).map (fun x => x.1) = some m ∧ s.collOf (bytesAt m.data 0 1) (bytesAt m.data 4 4) = some d ∧
     s.coll? d = some (collAt true false [] []) ∧ s.collDesc? d.ring d.seq = some d ∧ s.readyFor d = [] ∧ s.allReady d = false ∧
     s.runFault d.loom0 d.tenant true (d.collDst + bytesAt m.data 1 1 * d.collBytes + bytesAt m.data 8 4) (m.data.drop 12).length = none ∧
     (m.data.drop 12).length = d.collBytes ∧ s.sender m = some 4 ∧ s.entryOf 4 = some ⟨4, 0, 0, true⟩ ∧ s.nextPort (0, 0) = some 3 ∧ s.slvUp 3 = true ∧
     s.collOf (bytesAt (collMsg 5 16).data 0 1) (bytesAt (collMsg 5 16).data 4 4) = none ∧
     (({ s with mem := { s.mem with tlb := [] } } : State).runFault d.loom0 d.tenant true
       (d.collDst + bytesAt m.data 1 1 * d.collBytes + bytesAt m.data 8 4) (m.data.drop 12).length).isSome = true) := by
  refine ⟨?_, ?_, ?_, ?_, ?_, ?_, ?_, ?_⟩ <;> decide +kernel

/-- The controller in some state, with some data register selected. -/
def tapIn (t : TapState) (o : TapOp) : State := { base with jtag := { base.jtag with tap := t, op := o } }
theorem witness_TheTestPortShifts :
    (tapIn .captureDr .idcode).jtag.tap = .captureDr ∧ (tapIn .captureDr .idcode).jtag.op = .idcode ∧ (tapIn .captureDr .bypass).jtag.op = .bypass ∧
    (tapIn .captureDr .sample).jtag.op = .sample ∧ (tapIn .shiftDr .bypass).jtag.op ≠ .device ∧ (tapIn .shiftDr .bypass).jtag.tap = .shiftDr ∧
    (tapIn .updateDr .extest).jtag.op = .extest ∧ (tapIn .updateDr .extest).jtag.tap = .updateDr ∧ (tapIn .shiftIr .bypass).jtag.tap = .shiftIr ∧
    (tapIn .updateIr .bypass).testMode = false ∧ (tapIn .reset .bypass).jtag.tap = .reset ∧
    ((tapIn .captureDr .bypass).jtag.tap.next false = .shiftDr ∧ (tapIn .captureIr .bypass).jtag.tap.next false = .shiftIr) := by
  decide +kernel

/-! The block as a machine. -/

theorem witness_EveryStepKeepsTheForm : State.reset.wf = true ∧ step State.reset = .next State.reset.tick := ⟨by decide +kernel, rfl⟩

end Sys2Proof.Tests
end

section
/-! SUPPORT. Laws of the registers and of the Treadle's operations that the statements of chapter 1 rest on: plain writes, counters and stamp
pairs, the passing of CCLK, and a write that touches nothing but the Treadle and the registers. -/

namespace Sys2Proof.Machine

/-! Registers. -/

/-- A counter that counts once more stands, or takes another value (R139). -/
theorem State.bump_eq_wr (s : State) (o : Nat) : s.bump o = s ∨ ∃ v, s.bump o = s.wr o v := by
  unfold State.bump
  split
  · exact .inl rfl
  · exact .inr ⟨_, rfl⟩

theorem State.rd_bump_self (s : State) (o : Nat) : (s.bump o).rd o = counted (s.rd o) := by
  by_cases h : s.rd o = 0xFFFFFFFF#32 <;> simp [State.rd_bump, counted, h]

theorem State.rd_plainWrite_of_row (s : State) (o : Nat) (v : Word) (r : RegRow) (h : regRow? o = some r) :
    (s.plainWrite o v).rd o = r.written (s.rd o) v := by
  simp [State.plainWrite, h]

theorem State.rd_plainWrite_ne (s : State) (o p : Nat) (v : Word) (h : p ≠ o) : (s.plainWrite o v).rd p = s.rd p := by
  unfold State.plainWrite
  split
  · exact State.rd_wr_ne s o p _ h
  · rfl

/-- A field whose bits are all plainly writable takes the written ones (R14). -/
theorem RegRow.get_written (r : RegRow) (f : Field) (old v : Word) (hc : r.cnt = false)
    (hrw : ∀ i < f.w, r.rw.testBit (f.lo + i) = true) (hw1c : ∀ i < f.w, r.w1c.testBit (f.lo + i) = false) :
    f.get (r.written old v) = f.get v := by
  apply Nat.eq_of_testBit_eq
  intro i
  rw [Field.testBit_get, Field.testBit_get]
  by_cases hi : i < f.w
  · by_cases h32 : f.lo + i < 32
    · have h1 : (BitVec.ofNat 32 r.rw).getLsbD (f.lo + i) = true := by simp only [BitVec.getLsbD_ofNat, h32, hrw i hi]; rfl
      have h2 : (BitVec.ofNat 32 r.w1c).getLsbD (f.lo + i) = false := by simp only [BitVec.getLsbD_ofNat, h32, hw1c i hi]; rfl
      simp only [RegRow.written, hc, Bool.false_eq_true, if_false, BitVec.getLsbD_and, BitVec.getLsbD_or, BitVec.getLsbD_not, h1, h2,
        h32]
      simp
    · simp [BitVec.getLsbD_of_ge _ _ (Nat.le_of_not_lt h32)]
  · simp [hi]

/-- A stamp written to a register pair is held by it. -/
theorem State.holdsStamp_wrStamp (s : State) (lo hi : Nat) (a : Stamp) (h : lo ≠ hi) : (s.wrStamp lo hi a).holdsStamp lo hi a := by
  refine ⟨?_, ?_⟩
  · rw [State.wrStamp, State.rd_setFld_ne _ _ _ _ _ h, State.rd_wr_self]
  · rw [State.wrStamp, State.fld_setFld_self _ _ _ _ (by decide)]
    exact Nat.mod_mod _ _

theorem State.rd_wrStamp_ne (s : State) (lo hi o : Nat) (a : Stamp) (hlo : o ≠ lo) (hhi : o ≠ hi) :
    (s.wrStamp lo hi a).rd o = s.rd o := by
  rw [State.wrStamp, State.rd_setFld_ne _ _ _ _ _ hhi, State.rd_wr_ne _ _ _ _ hlo]

/-- A register pair that nothing after its write touches still holds the stamp. -/
theorem State.holdsStamp_congr {s t : State} {lo hi : Nat} {a : Stamp} (hlo : t.rd lo = s.rd lo) (hhi : t.rd hi = s.rd hi)
    (h : s.holdsStamp lo hi a) : t.holdsStamp lo hi a := by
  obtain ⟨h1, h2⟩ := h
  exact ⟨hlo.trans h1, by rw [State.fld, hhi]; exact h2⟩

@[simp] theorem State.wrStamp_trd (s : State) (lo hi : Nat) (a : Stamp) : (s.wrStamp lo hi a).trd = s.trd := by
  rw [State.wrStamp, State.setFld_trd, State.wr_trd]
@[simp] theorem State.wrStamp_boot (s : State) (lo hi : Nat) (a : Stamp) : (s.wrStamp lo hi a).boot = s.boot := by
  rw [State.wrStamp, State.setFld_boot, State.wr_boot]

/-! What changes nothing but the Treadle and the registers. -/

/-- From `s` to `t` nothing but the Treadle and the registers has changed. -/
def State.TreadleOnly (s t : State) : Prop := t = { s with trd := t.trd, regs := t.regs }

namespace State.TreadleOnly

variable {s t u : State}

theorem refl (s : State) : s.TreadleOnly s := rfl

theorem trans (h : s.TreadleOnly t) (h' : t.TreadleOnly u) : s.TreadleOnly u := by
  unfold State.TreadleOnly at *
  rw [h', h]

theorem wr (h : s.TreadleOnly t) (o : Nat) (v : Word) : s.TreadleOnly (t.wr o v) := h.trans rfl
theorem setFld (h : s.TreadleOnly t) (o : Nat) (f : Field) (x : Nat) : s.TreadleOnly (t.setFld o f x) := h.trans rfl
theorem onTrd (h : s.TreadleOnly t) (f : Trd → Trd) : s.TreadleOnly (t.onTrd f) := h.trans rfl
theorem setComp (h : s.TreadleOnly t) (n : Nat) (c : Option Comparator) : s.TreadleOnly (t.setComp n c) := h.trans rfl
theorem wrStamp (h : s.TreadleOnly t) (lo hi : Nat) (a : Stamp) : s.TreadleOnly (t.wrStamp lo hi a) := (h.wr lo _).setFld hi _ _

theorem bump (h : s.TreadleOnly t) (o : Nat) : s.TreadleOnly (t.bump o) := by
  rcases t.bump_eq_wr o with h' | ⟨v, h'⟩ <;> rw [h']
  · exact h
  · exact h.wr o v

theorem plainWrite (h : s.TreadleOnly t) (o : Nat) (v : Word) : s.TreadleOnly (t.plainWrite o v) :=
  h.trans (by unfold State.plainWrite; split <;> rfl)

/-- Where the Treadle has not changed either, the registers alone have. -/
theorem regsOnly (h : s.TreadleOnly t) (ht : t.trd = s.trd) : t = { s with regs := t.regs } := by
  unfold State.TreadleOnly at h
  rw [ht] at h
  exact h

end State.TreadleOnly

/-! The passing of CCLK. -/

/-- The clock does not run to a CCLK that is not ahead. -/
theorem State.elapseTo_of_le (s : State) (c : Nat) (h : c ≤ s.trd.cclk) : s.elapseTo c = s := by
  rw [State.elapseTo, Nat.sub_eq_zero_of_le h]; rfl

/-! Comparators. -/

theorem State.comp?_setComp (s : State) (n m : Nat) (c : Option Comparator) :
    (s.setComp n c).comp? m = if m = n then c else s.comp? m := by
  cases c with
  | none => exact tblFind_tblDel s.trd.comps n m
  | some c => exact tblFind_tblPut s.trd.comps n m c

@[simp] theorem State.comp?_setFld (s : State) (o x m : Nat) (f : Field) : (s.setFld o f x).comp? m = s.comp? m := rfl

@[simp] theorem State.comp?_bump (s : State) (o m : Nat) : (s.bump o).comp? m = s.comp? m := by simp [State.comp?]

@[simp] theorem State.comp?_plainWrite (s : State) (o m : Nat) (v : Word) : (s.plainWrite o v).comp? m = s.comp? m := by simp [State.comp?]

@[simp] theorem State.rd_setComp (s : State) (n o : Nat) (c : Option Comparator) : (s.setComp n c).rd o = s.rd o := rfl

@[simp] theorem State.fld_setComp (s : State) (n o : Nat) (c : Option Comparator) (f : Field) : (s.setComp n c).fld o f = s.fld o f := rfl

end Sys2Proof.Machine
end

section
/-! PROOF. Arming and stopping a slot (R45, R47, R49). -/

namespace Sys2Proof.Machine

/-- The row of SLOT_CTL (Table 1.15): ARM, MODE and ACTION are written, FIRED is cleared by writing 1, LATE is read only. -/
theorem regRow?_TRD_SLOT_CTL : ∀ n : Fin 256, regRow? (Reg.TRD_SLOT_CTL n) = some ⟨0x21008, 16, 256, 0xFF07, 0xFF07, 0x10, 0x0, false⟩ := by
  decide +kernel

/-- A SLOT_CTL write puts the written ARM into the register. -/
theorem State.arm_plainWrite_slotCtl (s : State) (n : Fin 256) (v : Word) :
    (s.plainWrite (Reg.TRD_SLOT_CTL n) v).fld (Reg.TRD_SLOT_CTL n) Reg.TRD_SLOT_CTL_ARM = Reg.TRD_SLOT_CTL_ARM.get v := by
  rw [State.fld, State.rd_plainWrite_of_row _ _ _ _ (regRow?_TRD_SLOT_CTL n), RegRow.get_written _ _ _ _ rfl (by decide) (by decide)]

theorem Reg.TRD_LATE_CNT_ne_TRD_SLOT_CTL (n : Nat) : Reg.TRD_LATE_CNT ≠ Reg.TRD_SLOT_CTL n := by
  simp only [Reg.TRD_LATE_CNT, Reg.TRD_SLOT_CTL]; omega

theorem Reg.TRD_STATUS_ne_TRD_SLOT_CTL (n : Nat) : Reg.TRD_STATUS ≠ Reg.TRD_SLOT_CTL n := by
  simp only [Reg.TRD_STATUS, Reg.TRD_SLOT_CTL]; omega

theorem Reg.TRD_LATE_CNT_ne_TRD_STATUS : Reg.TRD_LATE_CNT ≠ Reg.TRD_STATUS := by decide

/-- The target in a slot's STAMP registers (R45). -/
abbrev State.slotTarget (s : State) (n : Nat) : Stamp :=
  Stamp.ofBits ((s.rd (Reg.TRD_SLOT_STAMP_LO n)).toNat + 2 ^ 32 * s.fld (Reg.TRD_SLOT_STAMP_HI n) Reg.TRD_SLOT_STAMP_HI_FRAME)

/-- The modes whose target is the stamp that the registers hold (Table 1.3). -/
theorem SlotMode.ofCode_stampArmed (k : Nat) (h : k = 0 ∨ k = 3) :
    SlotMode.ofCode k ≠ .perLine ∧ SlotMode.ofCode k ≠ .perFrame := by
  rcases h with rfl | rfl <;> exact ⟨nofun, nofun⟩

/-- In ONCE and EVERY_N mode the loaded comparator has the registers' stamp as its target (R45). -/
theorem State.loadSlot_target (s : State) (n : Nat) (v : Word) (h : Reg.TRD_SLOT_CTL_MODE.get v = 0 ∨ Reg.TRD_SLOT_CTL_MODE.get v = 3) :
    (s.loadSlot n v).target = s.slotTarget n := by
  simp only [State.loadSlot]
  rcases h with h | h <;> rw [h] <;> rfl

/-- What a SLOT_CTL write does before it arms or stops the slot: the register takes the written bits, and the slot's entry leaves the
catch-up queue (R835). -/
def State.slotCtlTaken (s : State) (n : Nat) (v : Word) : State := (s.plainWrite (Reg.TRD_SLOT_CTL n) v).leaveQueue n

theorem State.slotCtlTaken_treadleOnly (s : State) (n : Nat) (v : Word) : s.TreadleOnly (s.slotCtlTaken n v) := by
  rw [State.slotCtlTaken, State.leaveQueue]
  exact ((State.TreadleOnly.refl s).plainWrite _ _).onTrd _

@[simp] theorem State.slotCtlTaken_comp? (s : State) (n m : Nat) (v : Word) : (s.slotCtlTaken n v).comp? m = s.comp? m :=
  State.comp?_plainWrite s (Reg.TRD_SLOT_CTL n) m v

@[simp] theorem State.slotCtlTaken_rd_ne (s : State) (n o : Nat) (v : Word) (h : o ≠ Reg.TRD_SLOT_CTL n) :
    (s.slotCtlTaken n v).rd o = s.rd o := State.rd_plainWrite_ne s _ o v h

@[simp] theorem State.slotCtlTaken_arm (s : State) (n : Fin 256) (v : Word) :
    (s.slotCtlTaken n v).fld (Reg.TRD_SLOT_CTL n) Reg.TRD_SLOT_CTL_ARM = Reg.TRD_SLOT_CTL_ARM.get v := State.arm_plainWrite_slotCtl s n v

@[simp] theorem State.slotCtlTaken_due (s : State) (n : Nat) (v : Word) : (s.slotCtlTaken n v).trd.due = s.trd.due := by
  simp [State.slotCtlTaken, State.leaveQueue]

/-- ARM 0 stops the slot (R49). -/
theorem State.landSlotCtl_stop (s : State) (n : Nat) (v : Word) (h : Reg.TRD_SLOT_CTL_ARM.get v = 0) :
    s.landSlotCtl n v = (s.slotCtlTaken n v).setComp n none := by
  simp only [State.landSlotCtl, h, if_true]; rfl

/-- The state in which an arming write that comes too late leaves a slot (R47). -/
def State.slotLate (s : State) (n : Nat) : State :=
  ((((s.setComp n none).setFld (Reg.TRD_SLOT_CTL n) Reg.TRD_SLOT_CTL_ARM 0).setFld (Reg.TRD_SLOT_CTL n) Reg.TRD_SLOT_CTL_LATE 1).bump
    Reg.TRD_LATE_CNT).setFld Reg.TRD_STATUS Reg.TRD_STATUS_SLOT_LATE 1

/-- ARM 1 in ONCE or EVERY_N mode: the slot is armed with the stamp of its registers (R45), or refused where that is not after the present
one (R47). -/
theorem State.landSlotCtl_stampArmed (s : State) (n : Nat) (v : Word) (harm : Reg.TRD_SLOT_CTL_ARM.get v ≠ 0)
    (hm : Reg.TRD_SLOT_CTL_MODE.get v = 0 ∨ Reg.TRD_SLOT_CTL_MODE.get v = 3) :
    ((s.slotTarget n).after s.trd.now = true → s.landSlotCtl n v =
      ((s.slotCtlTaken n v).setComp n (some (s.loadSlot n v))).setFld (Reg.TRD_SLOT_CTL n) Reg.TRD_SLOT_CTL_LATE 0) ∧
    ((s.slotTarget n).after s.trd.now = false → s.landSlotCtl n v = (s.slotCtlTaken n v).slotLate n) := by
  have hmode : (s.loadSlot n v).mode ≠ .perLine ∧ (s.loadSlot n v).mode ≠ .perFrame := SlotMode.ofCode_stampArmed _ hm
  simp only [State.landSlotCtl, harm, if_false, State.loadSlot_target s n v hm, beq_eq_false_iff_ne.mpr hmode.1,
    beq_eq_false_iff_ne.mpr hmode.2]
  exact ⟨fun h => by rw [h]; rfl, fun h => by rw [h]; rfl⟩

section
variable (s : State) (n : Nat)

theorem State.slotLate_treadleOnly : s.TreadleOnly (s.slotLate n) :=
  (((((State.TreadleOnly.refl s).setComp _ _).setFld _ _ _).setFld _ _ _).bump _).setFld _ _ _

@[simp] theorem State.slotLate_comp? (m : Nat) : (s.slotLate n).comp? m = if m = n then none else s.comp? m := by
  simp [State.slotLate, State.comp?_setComp]

theorem State.slotLate_arm : (s.slotLate n).fld (Reg.TRD_SLOT_CTL n) Reg.TRD_SLOT_CTL_ARM = 0 := by
  rw [State.slotLate, State.fld_setFld_ne _ _ _ _ _ _ (Reg.TRD_STATUS_ne_TRD_SLOT_CTL n).symm,
    State.fld_bump_ne _ _ _ _ (Reg.TRD_LATE_CNT_ne_TRD_SLOT_CTL n).symm, State.fld_setFld_other _ _ _ _ _ (by decide),
    State.fld_setFld_self _ _ _ _ (by decide), Nat.zero_mod]

theorem State.slotLate_late : (s.slotLate n).fld (Reg.TRD_SLOT_CTL n) Reg.TRD_SLOT_CTL_LATE = 1 := by
  rw [State.slotLate, State.fld_setFld_ne _ _ _ _ _ _ (Reg.TRD_STATUS_ne_TRD_SLOT_CTL n).symm,
    State.fld_bump_ne _ _ _ _ (Reg.TRD_LATE_CNT_ne_TRD_SLOT_CTL n).symm, State.fld_setFld_self _ _ _ _ (by decide)]
  rfl

theorem State.slotLate_status : (s.slotLate n).fld Reg.TRD_STATUS Reg.TRD_STATUS_SLOT_LATE = 1 :=
  State.fld_setFld_self _ _ _ _ (by decide)

theorem State.slotLate_lateCnt : (s.slotLate n).rd Reg.TRD_LATE_CNT = counted (s.rd Reg.TRD_LATE_CNT) := by
  rw [State.slotLate, State.rd_setFld_ne _ _ _ _ _ Reg.TRD_LATE_CNT_ne_TRD_STATUS, State.rd_bump_self,
    State.rd_setFld_ne _ _ _ _ _ (Reg.TRD_LATE_CNT_ne_TRD_SLOT_CTL n), State.rd_setFld_ne _ _ _ _ _ (Reg.TRD_LATE_CNT_ne_TRD_SLOT_CTL n),
    State.rd_setComp]

theorem State.slotLate_rd_ne (o : Nat) (h1 : o ≠ Reg.TRD_SLOT_CTL n) (h2 : o ≠ Reg.TRD_LATE_CNT) (h3 : o ≠ Reg.TRD_STATUS) :
    (s.slotLate n).rd o = s.rd o := by
  rw [State.slotLate, State.rd_setFld_ne _ _ _ _ _ h3, State.rd_bump_ne _ _ _ h2, State.rd_setFld_ne _ _ _ _ _ h1,
    State.rd_setFld_ne _ _ _ _ _ h1, State.rd_setComp]

end

/-- The write's ARM bit, as SLOT_ARM and SLOT_DISARM set it, leaves MODE and ACTION as written. -/
theorem slotCtl_arm_put (v : Word) (x : Nat) :
    Reg.TRD_SLOT_CTL_ARM.get (Reg.TRD_SLOT_CTL_ARM.put v x) = x % 2 ∧
    Reg.TRD_SLOT_CTL_MODE.get (Reg.TRD_SLOT_CTL_ARM.put v x) = Reg.TRD_SLOT_CTL_MODE.get v ∧
    Reg.TRD_SLOT_CTL_ACTION.get (Reg.TRD_SLOT_CTL_ARM.put v x) = Reg.TRD_SLOT_CTL_ACTION.get v :=
  ⟨Field.get_put _ v x (by decide), Field.get_put_ne _ _ v x (by decide), Field.get_put_ne _ _ v x (by decide)⟩

/-- Settles O4: an arming write is split by whether the target still lies ahead. -/
theorem slotCtlArmsAndStops : Obligations.SlotCtlArmsAndStops := by
  intro s n v
  refine ⟨fun hm => ⟨_, rfl, ?_⟩, _, rfl, ?_⟩
  · obtain ⟨harm, hmode, hact⟩ := slotCtl_arm_put v 1
    obtain ⟨harmed, hrefused⟩ := State.landSlotCtl_stampArmed s n _ (by rw [harm]; decide) (by rwa [hmode])
    dsimp only
    cases hafter : (s.slotTarget n).after s.trd.now
    case true =>
      rw [harmed hafter, if_pos rfl]
      refine ⟨⟨⟨s.loadSlot n (Reg.TRD_SLOT_CTL_ARM.put v 1), ?_, s.loadSlot_target n _ (by rwa [hmode]), rfl, hact, rfl⟩, ?_, ?_⟩,
        ((s.slotCtlTaken_treadleOnly n _).setComp _ _).setFld _ _ _, fun m hmn => ?_, fun o ho _ _ => ?_⟩
      · rw [State.comp?_setFld, State.comp?_setComp, if_pos rfl]
      · rw [State.fld_setFld_other _ _ _ _ _ (by decide), State.fld_setComp, State.slotCtlTaken_arm, harm]
      · exact State.fld_setFld_self _ _ _ _ (by decide)
      · rw [State.comp?_setFld, State.comp?_setComp, if_neg hmn, State.slotCtlTaken_comp?]
      · rw [State.rd_setFld_ne _ _ _ _ _ ho, State.rd_setComp, State.slotCtlTaken_rd_ne _ _ _ _ ho]
    case false =>
      rw [hrefused hafter, if_neg nofun]
      refine ⟨⟨by simp, State.slotLate_arm _ n, State.slotLate_late _ n, ?_, State.slotLate_status _ n⟩,
        (s.slotCtlTaken_treadleOnly n _).trans (State.slotLate_treadleOnly _ n), fun m hmn => by simp [hmn], fun o h1 h2 h3 => ?_⟩
      · rw [State.slotLate_lateCnt, State.slotCtlTaken_rd_ne _ _ _ _ (Reg.TRD_LATE_CNT_ne_TRD_SLOT_CTL n)]
      · rw [State.slotLate_rd_ne _ _ _ h1 h2 h3, State.slotCtlTaken_rd_ne _ _ _ _ h1]
  · obtain ⟨harm, -, -⟩ := slotCtl_arm_put v 0
    rw [State.landSlotCtl_stop s n _ harm]
    refine ⟨by simp [State.comp?_setComp], ?_, s.slotCtlTaken_due n _, (s.slotCtlTaken_treadleOnly n _).setComp _ _,
      fun m hmn => by simp [State.comp?_setComp, hmn], fun o ho => ?_⟩
    · rw [State.fld_setComp, State.slotCtlTaken_arm, harm]
    · rw [State.rd_setComp, State.slotCtlTaken_rd_ne _ _ _ _ ho]

end Sys2Proof.Machine
end

section
/-! PROOF. The firing of a slot, from its comparator's match or from the catch-up queue (R51 to R55, R59, R837). -/

namespace Sys2Proof.Machine

theorem Reg.TRD_CATCHUP_CNT_ne_TRD_SLOT_CTL (n : Nat) : Reg.TRD_CATCHUP_CNT ≠ Reg.TRD_SLOT_CTL n := by
  simp only [Reg.TRD_CATCHUP_CNT, Reg.TRD_SLOT_CTL]; omega

/-! What a firing does beside its action. -/

/-- The state `u` that a firing's action has left, with the slot noted as fired and FIRED set. -/
def State.markFired (u : State) (d : Due) : State :=
  (u.onTrd fun t => { t with fired := t.fired ++ [(d.slot, d.comp)] }).setFld (Reg.TRD_SLOT_CTL d.slot) Reg.TRD_SLOT_CTL_FIRED 1

theorem State.markFired_fired (u : State) (d : Due) : (u.markFired d).fld (Reg.TRD_SLOT_CTL d.slot) Reg.TRD_SLOT_CTL_FIRED = 1 :=
  State.fld_setFld_self _ _ _ _ (by decide)

theorem State.markFired_rd_ne (u : State) (d : Due) (o : Nat) (ho : o ≠ Reg.TRD_SLOT_CTL d.slot) : (u.markFired d).rd o = u.rd o :=
  State.rd_setFld_ne _ _ _ _ _ ho

/-- After its action a firing leaves the slot's comparator, takes it away and clears ARM, or gives it another (R43, R44, R53). -/
theorem State.fire_cases (s : State) (d : Due) : ∃ u, u = s.openFiring.act d.slot d.comp ∧
    (s.fire d = u.markFired d ∨ s.fire d = ((u.markFired d).setComp d.slot none).setFld (Reg.TRD_SLOT_CTL d.slot) Reg.TRD_SLOT_CTL_ARM 0 ∨
      ∃ c, s.fire d = (u.markFired d).setComp d.slot (some c)) := by
  refine ⟨_, rfl, ?_⟩
  unfold State.fire
  extract_lets s0 s1 off s2
  change (_ = s2 ∨ _ = (s2.setComp _ _).setFld _ _ _ ∨ ∃ c, _ = s2.setComp _ _)
  split
  · exact .inl rfl
  · split
    · exact .inl rfl
    · split
      · exact .inr (.inl rfl)
      · exact .inr (.inr ⟨_, rfl⟩)

/-- A firing sets FIRED. -/
theorem State.fire_fired (s : State) (d : Due) : (s.fire d).fld (Reg.TRD_SLOT_CTL d.slot) Reg.TRD_SLOT_CTL_FIRED = 1 := by
  obtain ⟨u, -, h | h | ⟨c, h⟩⟩ := s.fire_cases d <;> rw [h]
  · exact u.markFired_fired d
  · rw [State.fld_setFld_other _ _ _ _ _ (by decide)]; exact u.markFired_fired d
  · exact u.markFired_fired d

/-- Beside its action a firing writes no register but SLOT_CTL. -/
theorem State.fire_rd_ne (s : State) (d : Due) (o : Nat) (ho : o ≠ Reg.TRD_SLOT_CTL d.slot) :
    (s.fire d).rd o = (s.openFiring.act d.slot d.comp).rd o := by
  obtain ⟨u, hu, h⟩ := s.fire_cases d
  rw [← hu]
  rcases h with h | h | ⟨c, h⟩ <;> rw [h]
  · exact u.markFired_rd_ne d o ho
  · rw [State.rd_setFld_ne _ _ _ _ _ ho]; exact u.markFired_rd_ne d o ho
  · exact u.markFired_rd_ne d o ho

/-- Beside its action a firing changes nothing but the list of the slots that have fired, the comparators and SLOT_CTL. -/
theorem State.fire_eq_act (s : State) (d : Due) : ∃ u fired comps regs, u = s.openFiring.act d.slot d.comp ∧
    s.fire d = { u with trd := { u.trd with fired := fired, comps := comps }, regs := regs } := by
  obtain ⟨u, hu, h | h | ⟨c, h⟩⟩ := s.fire_cases d <;> rw [h] <;> exact ⟨u, _, _, _, hu, rfl⟩

/-! Actions (Table 1.4). -/

/-- A code that Table 1.4 does not list, or NONE, does nothing. -/
theorem State.act_unlisted (s : State) (n : Nat) (c : Comparator) (h : c.action ∉ [1, 2, 3, 4, 5, 6, 8, 9, 16]) : s.act n c = s := by
  unfold State.act
  split
  case h_10 => rfl
  all_goals simp_all

/-- An FSYNC action drives FSYNC_OUT where no slot has fired before it in the CCLK (R52). -/
theorem State.act_fsync (s : State) (n : Nat) (c : Comparator) (h : c.action = 1 ∨ c.action = 2 ∨ c.action = 3) (hf : s.trd.fired = []) :
    s.act n c = s.driveFsync c.action := by
  rcases h with h | h | h <;> simp [State.act, h, State.lowerFired, hf]

theorem State.act_gpio (s : State) (n : Nat) (c : Comparator) (h : c.action = 4 ∨ c.action = 5 ∨ c.action = 6) :
    s.act n c = s.driveGpio n c := by
  rcases h with h | h | h <;> simp [State.act, h]

/-- What an action does, whatever its code and whatever has fired before it. -/
theorem State.act_cases (s : State) (n : Nat) (c : Comparator) :
    s.act n c = s ∨ s.act n c = s.driveFsync c.action ∨ s.act n c = s.driveGpio n c ∨ s.act n c = s.snapshot ∨
    s.act n c = s.captureFire n ∨ ∃ v, s.act n c = s.event v := by
  unfold State.act
  split <;> (try split) <;> simp

/-- From the first commit on FSYNC_OUT takes the action's state, and a pulse its end (R54, R837). -/
theorem State.driveFsync_of_free (s : State) (a : Nat) (h : s.trd.fsyncFree = true) :
    s.driveFsync a = s.onTrd fun t => { t with
      fsync := a != 2
      pulseEnd := if a = 3 then some (t.cclk + max 1 (s.fld Reg.TRD_FSYNC_CTL Reg.TRD_FSYNC_CTL_PULSE_W)) else none } := by
  have hw : ∀ w, orElse0 w 1 = max 1 w := by intro w; unfold orElse0; split <;> omega
  simp [State.driveFsync, h, hw]

/-! A slot that fires alone in its CCLK. -/

/-- The state in which the action of a slot's match is taken that fires alone in its CCLK: the match is no longer due, and nothing has fired. -/
def State.firingAlone (s : State) (d : Due) : State :=
  s.onTrd fun t => { t with due := t.due.erase d, firedCclk := t.cclk, fired := [], gpioBase := t.gpioLevel }

theorem State.fireDue_of_firesNow (s : State) (n : Nat) (d : Due) (code : Nat → Bool) (h : s.firesNow n d) (hc : code d.comp.action = true) :
    s.fireDue n code = (s.onTrd fun t => { t with due := t.due.erase d }).fire d := by
  obtain ⟨hmem, hslot, hcclk, huniq, -⟩ := h
  have hfind : (s.trd.due.find? fun e => e.slot == n && code e.comp.action) = some d := by
    obtain ⟨e, he⟩ := Option.isSome_iff_exists.mp (List.find?_isSome (p := fun e => e.slot == n && code e.comp.action) |>.mpr
      ⟨d, hmem, by simp [hslot, hc]⟩)
    have hes : e.slot = n := by have := List.find?_some he; simp at this; exact this.1
    rw [he, huniq e (List.mem_of_find?_eq_some he) hes]
  rw [State.fireDue, hfind]
  simp only [State.elapseTo_of_le s _ hcclk]

theorem State.openFiring_of_firesNow (s : State) (n : Nat) (d : Due) (h : s.firesNow n d) :
    (s.onTrd fun t => { t with due := t.due.erase d }).openFiring = s.firingAlone d := by
  obtain ⟨-, -, -, -, hfirst⟩ := h
  rw [State.openFiring, if_neg fun hc => hfirst hc.1]
  rfl

/-- A slot that fires alone, with an action that acts on the Treadle by `f`, sets FIRED, leaves the outputs as `f` does, and changes nothing
but the Treadle and its SLOT_CTL. -/
theorem State.fireDue_alone (s : State) (n : Nat) (d : Due) (code : Nat → Bool) (f : Trd → Trd) (h : s.firesNow n d)
    (hc : code d.comp.action = true) (hact : (s.firingAlone d).act n d.comp = (s.firingAlone d).onTrd f) :
    let t := s.fireDue n code
    (t.fld (Reg.TRD_SLOT_CTL n) Reg.TRD_SLOT_CTL_FIRED = 1 ∧ s.TreadleOnly t ∧ ∀ o, o ≠ Reg.TRD_SLOT_CTL n → t.rd o = s.rd o) ∧
      t.trd.fsync = (f (s.firingAlone d).trd).fsync ∧ t.trd.pulseEnd = (f (s.firingAlone d).trd).pulseEnd ∧
      t.trd.gpioLevel = (f (s.firingAlone d).trd).gpioLevel := by
  obtain ⟨-, rfl, -⟩ := id h
  rw [State.fireDue_of_firesNow s d.slot d code h hc]
  obtain ⟨u, fired, comps, regs, hu, hframe⟩ := (s.onTrd fun t => { t with due := t.due.erase d }).fire_eq_act d
  rw [State.openFiring_of_firesNow s _ d h, hact] at hu
  rw [hu] at hframe
  refine ⟨⟨State.fire_fired _ d, ?_, fun o ho => ?_⟩, ?_, ?_, ?_⟩
  · rw [hframe]; rfl
  · rw [State.fire_rd_ne _ d o ho, State.openFiring_of_firesNow s _ d h, hact]; rfl
  all_goals rw [hframe]; rfl

/-- The level of the GPIO pins after an action on those of a mask (Table 1.4): GPIO_SET, GPIO_CLR, and else GPIO_TOGGLE. -/
def gpioAfter (action : Nat) (level mask : BitVec 16) : BitVec 16 :=
  if action = 4 then level ||| mask else if action = 5 then level &&& ~~~mask else level ^^^ mask

theorem gpioAfter_eq (level mask : BitVec 16) :
    (level &&& ~~~mask) ||| (0xFFFF#16 &&& mask) = gpioAfter 4 level mask ∧ (level &&& ~~~mask) ||| (0#16 &&& mask) = gpioAfter 5 level mask ∧
    (level &&& ~~~mask) ||| (~~~level &&& mask) = gpioAfter 6 level mask := by
  rw [show (0xFFFF#16) = BitVec.allOnes 16 from rfl, BitVec.allOnes_and, BitVec.zero_and, BitVec.or_zero]
  refine ⟨?_, rfl, ?_⟩ <;> ext i hi <;> simp [gpioAfter] <;> cases level[i] <;> cases mask[i] <;> rfl

/-- A GPIO action drives the owned pins of its mask, where no slot has fired before it in the CCLK (R52, R55). -/
theorem State.driveGpio_alone (s : State) (n : Nat) (c : Comparator) (h : c.action = 4 ∨ c.action = 5 ∨ c.action = 6)
    (hf : s.trd.fired = []) (hb : s.trd.gpioBase = s.trd.gpioLevel) :
    s.driveGpio n c = s.onTrd fun t => { t with gpioLevel := gpioAfter c.action s.trd.gpioLevel (s.ownedPins c.arg) } := by
  have hpins : c.pins = BitVec.ofNat 16 c.arg := if_pos h
  have htaken : s.pinsTaken n = 0#16 := by rw [State.pinsTaken, hf]; rfl
  have hmask : c.pins &&& BitVec.ofNat 16 (s.fld Reg.TRD_GPIO_OWN Reg.TRD_GPIO_OWN_OWN) &&& ~~~(s.pinsTaken n) = s.ownedPins c.arg := by
    rw [hpins, htaken, State.ownedPins, BitVec.not_zero, BitVec.and_allOnes]
  obtain ⟨hset, hclr, htog⟩ := gpioAfter_eq s.trd.gpioLevel (s.ownedPins c.arg)
  rw [State.driveGpio, hmask, hb]
  rcases h with h | h | h <;> simp only [h, State.onTrd, hset, hclr, htog]

/-- Settles O5: the match's firing is a firing alone in its CCLK, whose action drives FSYNC_OUT, the owned pins, or nothing. -/
theorem slotActionsDriveOutputs : Obligations.SlotActionsDriveOutputs := by
  intro s n d h done m
  have hnone (hact : d.comp.action ∉ [1, 2, 3, 4, 5, 6, 8, 9, 16]) :
      let t := s.fireDue n fun a => !([1, 2, 3, 4, 5, 6, 8, 9, 0x10].contains a)
      done t ∧ t.trd.fsync = s.trd.fsync ∧ t.trd.gpioLevel = s.trd.gpioLevel := by
    obtain ⟨hdone, hfs, -, hlevel⟩ := s.fireDue_alone n d (fun a => !([1, 2, 3, 4, 5, 6, 8, 9, 0x10].contains a)) id h
      (by simpa using hact) (State.act_unlisted _ _ _ hact)
    exact ⟨hdone, hfs, hlevel⟩
  have hfsync (a : Nat) (ha : a = 1 ∨ a = 2 ∨ a = 3) (hfree : s.trd.fsyncFree = true) (hact : d.comp.action = a) :
      let t := s.fireDue n (· == a)
      done t ∧ t.trd.fsync = (a != 2) ∧ t.trd.pulseEnd =
        if a = 3 then some (s.trd.cclk + max 1 (s.fld Reg.TRD_FSYNC_CTL Reg.TRD_FSYNC_CTL_PULSE_W)) else none := by
    obtain ⟨hdone, hfs, hend, -⟩ := s.fireDue_alone n d (· == a) _ h (beq_iff_eq.mpr hact)
      (((s.firingAlone d).act_fsync n d.comp (by rwa [hact]) rfl).trans (State.driveFsync_of_free _ _ hfree))
    exact ⟨hdone, hfs.trans (by rw [hact]), hend.trans (by rw [hact]; rfl)⟩
  have hgpio (a : Nat) (ha : a = 4 ∨ a = 5 ∨ a = 6) (hact : d.comp.action = a) :
      let t := s.fireDue n (· == a)
      done t ∧ t.trd.gpioLevel = gpioAfter a s.trd.gpioLevel m := by
    obtain ⟨hdone, -, -, hlevel⟩ := s.fireDue_alone n d (· == a) _ h (beq_iff_eq.mpr hact)
      (((s.firingAlone d).act_gpio n d.comp (by rwa [hact])).trans (State.driveGpio_alone _ _ _ (by rwa [hact]) rfl rfl))
    exact ⟨hdone, hlevel.trans (by rw [hact]; rfl)⟩
  exact ⟨fun hact => ⟨_, rfl, hnone hact⟩,
    fun hfree => ⟨fun hact => ⟨_, rfl, hfsync 1 (by decide) hfree hact⟩, fun hact => ⟨_, rfl, hfsync 2 (by decide) hfree hact⟩,
      fun hact => ⟨_, rfl, hfsync 3 (by decide) hfree hact⟩⟩,
    fun hact => ⟨_, rfl, hgpio 4 (by decide) hact⟩, fun hact => ⟨_, rfl, hgpio 5 (by decide) hact⟩,
    fun hact => ⟨_, rfl, hgpio 6 (by decide) hact⟩⟩

/-! The catch-up queue. -/

/-- What no action touches: from `s` to `t` the catch-up queue and its counter stay, and so does everything but the Treadle, the registers and
the PF's vectors. -/
structure State.ActionFrame (s t : State) : Prop where
  rest : t = { s with trd := t.trd, regs := t.regs, ten := { s.ten with vectors := t.ten.vectors } }
  catchq : t.trd.catchq = s.trd.catchq
  catchNext : t.trd.catchNext = s.trd.catchNext
  count : t.rd Reg.TRD_CATCHUP_CNT = s.rd Reg.TRD_CATCHUP_CNT

namespace State.ActionFrame

variable {s t u : State}

theorem refl (s : State) : s.ActionFrame s := ⟨rfl, rfl, rfl, rfl⟩

theorem trans (h : s.ActionFrame t) (h' : t.ActionFrame u) : s.ActionFrame u :=
  ⟨by rw [h'.rest, h.rest], h'.catchq.trans h.catchq, h'.catchNext.trans h.catchNext, h'.count.trans h.count⟩

theorem wr (h : s.ActionFrame t) (o : Nat) (v : Word) (ho : Reg.TRD_CATCHUP_CNT ≠ o) : s.ActionFrame (t.wr o v) :=
  h.trans ⟨rfl, rfl, rfl, State.rd_wr_ne _ _ _ _ ho⟩

theorem setFld (h : s.ActionFrame t) (o : Nat) (f : Field) (x : Nat) (ho : Reg.TRD_CATCHUP_CNT ≠ o) : s.ActionFrame (t.setFld o f x) :=
  h.wr o _ ho

theorem wrStamp (h : s.ActionFrame t) (lo hi : Nat) (a : Stamp) (hlo : Reg.TRD_CATCHUP_CNT ≠ lo) (hhi : Reg.TRD_CATCHUP_CNT ≠ hi) :
    s.ActionFrame (t.wrStamp lo hi a) :=
  (h.wr lo _ hlo).setFld hi _ _ hhi

theorem bump (h : s.ActionFrame t) (o : Nat) (ho : Reg.TRD_CATCHUP_CNT ≠ o) : s.ActionFrame (t.bump o) := by
  rcases t.bump_eq_wr o with h' | ⟨v, h'⟩ <;> rw [h']
  · exact h
  · exact h.wr o v ho

end State.ActionFrame

theorem State.actionFrame_openFiring (s : State) : s.ActionFrame s.openFiring := by
  unfold State.openFiring
  split
  · exact .refl s
  · exact ⟨rfl, rfl, rfl, rfl⟩

theorem State.actionFrame_driveFsync (s : State) (a : Nat) : s.ActionFrame (s.driveFsync a) := by
  unfold State.driveFsync
  split
  · exact .refl s
  · exact ⟨rfl, rfl, rfl, rfl⟩

theorem State.actionFrame_snapshot (s : State) : s.ActionFrame s.snapshot := by
  unfold State.snapshot
  refine State.ActionFrame.bump (.wrStamp ?_ _ _ _ (by decide) (by decide)) _ (by decide)
  refine List.foldlRecOn _ _ (.refl s) fun t h x _ => h.wr _ _ ?_
  simp only [Reg.TRD_CATCHUP_CNT, Reg.RIN_SNAP]
  omega

theorem State.actionFrame_captureFire (s : State) (n : Nat) : s.ActionFrame (s.captureFire n) :=
  ((State.ActionFrame.refl s).wrStamp _ _ _ (by decide) (by decide)).setFld _ _ _ (by decide)

theorem State.actionFrame_event (s : State) (v : Nat) : s.ActionFrame (s.event v) := ⟨rfl, rfl, rfl, rfl⟩

theorem State.actionFrame_act (s : State) (n : Nat) (c : Comparator) : s.ActionFrame (s.act n c) := by
  rcases s.act_cases n c with h | h | h | h | h | ⟨v, h⟩ <;> rw [h]
  · exact .refl s
  · exact s.actionFrame_driveFsync _
  · exact ⟨rfl, rfl, rfl, rfl⟩
  · exact s.actionFrame_snapshot
  · exact s.actionFrame_captureFire n
  · exact s.actionFrame_event v

theorem State.actionFrame_fire (s : State) (d : Due) : s.ActionFrame (s.fire d) := by
  have hact := s.actionFrame_openFiring.trans (s.openFiring.actionFrame_act d.slot d.comp)
  have hcount := s.fire_rd_ne d _ (Reg.TRD_CATCHUP_CNT_ne_TRD_SLOT_CTL d.slot)
  obtain ⟨u, fired, comps, regs, hu, h⟩ := s.fire_eq_act d
  rw [← hu] at hact hcount
  refine hact.trans ⟨?_, ?_, ?_, hcount⟩ <;> rw [h]

/-- Settles O7: no action touches the queue or its counter, so the entry leaves the queue and is counted once. -/
theorem catchupFiresTheHead : Obligations.CatchupFiresTheHead := by
  intro s d ds hq hnext _
  have hexec : exec .catchupFire s =
      .next (((s.onTrd fun t => { t with catchq := ds, catchNext := t.cclk + 1 }).fire d).bump Reg.TRD_CATCHUP_CNT) := by
    change execCatchupFire s = _
    simp only [execCatchupFire, State.elapseTo_of_le s _ hnext, hq]
  have hfire := (s.onTrd fun t => { t with catchq := ds, catchNext := t.cclk + 1 }).actionFrame_fire d
  refine ⟨_, hexec, ?_, ?_, ?_, ?_, ?_⟩
  · rw [State.bump_trd, hfire.catchq]; rfl
  · rw [State.bump_trd, hfire.catchNext]; rfl
  · rw [State.fld_bump_ne _ _ _ _ (Reg.TRD_CATCHUP_CNT_ne_TRD_SLOT_CTL d.slot).symm, State.fire_fired]
  · rw [State.rd_bump_self, hfire.count]; rfl
  · rw [((State.TreadleOnly.refl _).bump Reg.TRD_CATCHUP_CNT).regsOnly (State.bump_trd _ _), hfire.rest]
    rfl

end Sys2Proof.Machine
end

section
/-! PROOF. Edges of the house sync inputs and of GPIO: captures and the lock state (R22, R41, R831, R832). -/

namespace Sys2Proof.Machine

/-- From `s` to `t` nothing but the Treadle and TRD_STATUS has changed. -/
structure State.LockOnly (s t : State) : Prop where
  rest : s.TreadleOnly t
  rd : ∀ o, o ≠ Reg.TRD_STATUS → t.rd o = s.rd o

namespace State.LockOnly

variable {s t : State}

theorem refl (s : State) : s.LockOnly s := ⟨.refl s, fun _ _ => rfl⟩
theorem onTrd (h : s.LockOnly t) (f : Trd → Trd) : s.LockOnly (t.onTrd f) := ⟨h.rest.onTrd f, h.rd⟩
theorem setLock (h : s.LockOnly t) (x : Nat) : s.LockOnly (t.setLock x) :=
  ⟨h.rest.setFld _ _ _, fun o ho => (State.rd_setFld_ne _ _ _ _ _ ho).trans (h.rd o ho)⟩

end State.LockOnly

theorem State.setLock_lock (s : State) (x : Nat) (h : x < 4) : (s.setLock x).lock = x := by
  rw [State.lock, State.setLock, State.fld_setFld_self _ _ _ _ (by decide)]
  exact Nat.mod_eq_of_lt h

/-! LOCKED and ACQUIRE. -/

theorem State.lockOnly_tryLock {s t : State} (h : s.LockOnly t) : s.LockOnly t.tryLock := by
  unfold State.tryLock
  split
  · exact (h.onTrd _).setLock 2
  · exact h

theorem State.lockOnly_reacquire {s t : State} (h : s.LockOnly t) : s.LockOnly t.reacquire := (h.onTrd _).setLock 1

/-- Both conditions of R22 give LOCKED. -/
theorem State.tryLock_lock (s : State) (hr : s.trd.refUse = 1) (hg : 16 ≤ s.trd.hsGood) (hv : s.trd.vsOk = true) : s.tryLock.lock = 2 := by
  unfold State.tryLock
  split
  · exact State.setLock_lock _ _ (by decide)
  · by_contra hl
    simp_all

@[simp] theorem State.tryLock_hsGood (s : State) : s.tryLock.trd.hsGood = s.trd.hsGood := by
  unfold State.tryLock
  split <;> rfl

theorem State.reacquire_lock (s : State) : s.reacquire.lock = 1 := State.setLock_lock _ _ (by decide)

/-- The correction of the vertical phase lies in the Treadle alone. -/
theorem State.correctPhase_eq_onTrd (s : State) : ∃ f, s.correctPhase = s.onTrd f := by
  unfold State.correctPhase State.fixLine
  split <;> exact ⟨_, rfl⟩

theorem State.lockOnly_correctPhase {s t : State} (h : s.LockOnly t) : s.LockOnly t.correctPhase := by
  obtain ⟨f, hf⟩ := t.correctPhase_eq_onTrd
  rw [hf]
  exact h.onTrd f

@[simp] theorem State.correctPhase_lock (s : State) : s.correctPhase.lock = s.lock := by
  obtain ⟨f, hf⟩ := s.correctPhase_eq_onTrd
  rw [hf]
  rfl

/-! The house sync inputs. -/

/-- HSYNC_IN has changed its level. -/
def State.hsyncMoved (s : State) : State := { s with boot := { s.boot with hsyncIn := !s.boot.hsyncIn } }

/-- VSYNC_IN has changed its level. -/
def State.vsyncMoved (s : State) : State := { s with boot := { s.boot with vsyncIn := !s.boot.vsyncIn } }

/-- A line's edge counts in the runs of good and bad lines (R22, R832), where `b` says that it lies below one pick. -/
def State.hsCounted (s : State) (b : Bool) : State :=
  s.onTrd fun t => { t with
    hsGood := if b then runOf t.hsAge t.hsGood else 0
    hsBad := if b then 0 else runOf t.hsAge t.hsBad
    hsAge := 0 }

/-- What a counted line does to the lock: a sixteenth bad line in a row while LOCKED loses it, and else it may be gained. -/
def State.hsJudged (s : State) : State := if s.lock = 2 ∧ 16 ≤ s.trd.hsBad then s.reacquire else s.tryLock

/-- HSYNC_IN_EDGE at the pin's new level: a leading edge is captured, and under house sync its line is counted and judged. -/
theorem execHsyncInEdge_eq (s : State) (b : Bool) : execHsyncInEdge b s = .next (
    let p := s.hsyncMoved
    let u := p.wrStamp Reg.TRD_HS_CAP_LO Reg.TRD_HS_CAP_HI p.trd.now
    if p.leadingEdge Reg.TRD_CTL_HS_POL p.boot.hsyncIn = false then p
    else if p.trd.refUse ≠ 1 then u
    else (u.hsCounted b).hsJudged) := by
  unfold execHsyncInEdge
  extract_lets bt p u v
  have hp : p = s.hsyncMoved := rfl
  clear_value p
  subst hp
  cases s.hsyncMoved.leadingEdge Reg.TRD_CTL_HS_POL s.hsyncMoved.boot.hsyncIn
  case false => rfl
  case true =>
    simp only [Bool.not_true, Bool.false_eq_true, Bool.true_eq_false, if_false]
    by_cases hr : s.hsyncMoved.trd.refUse ≠ 1
    · rw [if_pos hr, if_pos hr]
    · rw [if_neg hr, if_neg hr]; rfl

/-- A vertical edge on the line that the register names has been seen. -/
def State.vsHit (s : State) : State := s.onTrd fun t => { t with vsOk := true, lineFix := .none, dropNext := false }

/-- A vertical edge on another line while LOCKED counts in its run (R832). -/
def State.vsMissed (s : State) : State := s.onTrd fun t => { t with vsBad := runOf t.vsAge t.vsBad, vsAge := 0 }

/-- VSYNC_IN_EDGE at the pin's new level: a leading edge is captured, and under house sync one on TRD_VS_LINE may give LOCKED, and one on another
line is corrected, or while LOCKED ignored until the next frame's is wrong too. -/
theorem execVsyncInEdge_eq (s : State) : execVsyncInEdge s = .next (
    let p := s.vsyncMoved
    let u := p.wrStamp Reg.TRD_VS_CAP_LO Reg.TRD_VS_CAP_HI p.trd.now
    if p.leadingEdge Reg.TRD_CTL_VS_POL p.boot.vsyncIn = false then p
    else if p.trd.refUse ≠ 1 then u
    else if p.trd.now.line = p.fld Reg.TRD_VS_LINE Reg.TRD_VS_LINE_LINE then u.vsHit.tryLock
    else if p.lock = 2 then (if 2 ≤ u.vsMissed.trd.vsBad then u.vsMissed.reacquire.correctPhase else u.vsMissed)
    else (u.onTrd fun t => { t with vsOk := false }).correctPhase) := by
  unfold execVsyncInEdge
  extract_lets bt p u v
  have hp : p = s.vsyncMoved := rfl
  clear_value p
  subst hp
  cases s.vsyncMoved.leadingEdge Reg.TRD_CTL_VS_POL s.vsyncMoved.boot.vsyncIn
  case false => rfl
  case true =>
    simp only [Bool.not_true, Bool.false_eq_true, Bool.true_eq_false, if_false]
    by_cases hr : s.vsyncMoved.trd.refUse ≠ 1
    · rw [if_pos hr, if_pos hr]
    rw [if_neg hr, if_neg hr]
    by_cases hl : s.vsyncMoved.trd.now.line = s.vsyncMoved.fld Reg.TRD_VS_LINE Reg.TRD_VS_LINE_LINE
    · rw [if_pos hl, if_pos hl]; rfl
    rw [if_neg hl, if_neg hl]
    by_cases hk : s.vsyncMoved.lock = 2
    · rw [if_pos hk, if_pos hk]; rfl
    · rw [if_neg hk, if_neg hk]

/-- A capture stands after whatever the lock makes of it. -/
theorem State.capture_lockOnly {p t : State} {lo hi : Nat} {a : Stamp} (h : (p.wrStamp lo hi a).LockOnly t) (hne : lo ≠ hi)
    (hlo : lo ≠ Reg.TRD_STATUS) (hhi : hi ≠ Reg.TRD_STATUS) :
    t.holdsStamp lo hi a ∧ p.TreadleOnly t ∧ ∀ o, o ≠ lo → o ≠ hi → o ≠ Reg.TRD_STATUS → t.rd o = p.rd o :=
  ⟨State.holdsStamp_congr (h.rd lo hlo) (h.rd hi hhi) (p.holdsStamp_wrStamp lo hi a hne), ((State.TreadleOnly.refl p).wrStamp _ _ _).trans h.rest,
    fun o h1 h2 h3 => (h.rd o h3).trans (State.rd_wrStamp_ne _ _ _ _ _ h1 h2)⟩

theorem State.lock_wrStamp (s : State) (lo hi : Nat) (a : Stamp) (hlo : lo ≠ Reg.TRD_STATUS) (hhi : hi ≠ Reg.TRD_STATUS) :
    (s.wrStamp lo hi a).lock = s.lock := by
  rw [State.lock, State.fld, State.rd_wrStamp_ne _ _ _ _ _ hlo.symm hhi.symm]
  rfl

theorem State.lockOnly_hsJudged {s t : State} (h : s.LockOnly t) : s.LockOnly t.hsJudged := by
  unfold State.hsJudged
  split
  · exact lockOnly_reacquire h
  · exact lockOnly_tryLock h

/-- A good line is counted, and the sixteenth in a row with the vertical condition met gives LOCKED (R22). -/
theorem State.hsJudged_good (u : State) (hr : u.trd.refUse = 1) (ha : u.trd.hsAge = 1) :
    ((u.hsCounted true).hsJudged).trd.hsGood = u.trd.hsGood + 1 ∧
      (15 ≤ u.trd.hsGood → u.trd.vsOk = true → ((u.hsCounted true).hsJudged).lock = 2) := by
  have hjudged : (u.hsCounted true).hsJudged = (u.hsCounted true).tryLock := if_neg fun h => absurd h.2 (by decide : ¬ 16 ≤ 0)
  have hgood : (u.hsCounted true).trd.hsGood = u.trd.hsGood + 1 := by
    change runOf u.trd.hsAge u.trd.hsGood = _
    rw [ha]; rfl
  rw [hjudged]
  exact ⟨by rw [State.tryLock_hsGood, hgood], fun hg hv => State.tryLock_lock _ hr (by omega) hv⟩

/-- A bad line ends the run of good ones, and the sixteenth in a row loses the lock (R832). -/
theorem State.hsJudged_bad (u : State) (ha : u.trd.hsAge = 1) :
    ((u.hsCounted false).hsJudged).trd.hsGood = 0 ∧
      (15 ≤ u.trd.hsBad → u.lock = 2 → ((u.hsCounted false).hsJudged).lock = 1) := by
  refine ⟨?_, fun hb hl => ?_⟩
  · unfold State.hsJudged
    split
    · rfl
    · rw [State.tryLock_hsGood]; rfl
  · have hbad : (u.hsCounted false).trd.hsBad = u.trd.hsBad + 1 := by
      change runOf u.trd.hsAge u.trd.hsBad = _
      rw [ha]; rfl
    have hjudged : (u.hsCounted false).hsJudged = (u.hsCounted false).reacquire := if_pos ⟨hl, by omega⟩
    rw [hjudged, State.reacquire_lock]

/-! Settling. -/

/-- A leading edge of HSYNC_IN writes its capture pair, and under house sync the line is judged besides (R41, R831). -/
theorem exec_hsyncInEdge_leading (s : State) (b : Bool) (h : s.leadingEdge Reg.TRD_CTL_HS_POL (!s.boot.hsyncIn) = true) :
    ∃ t, exec (.hsyncInEdge b) s = .next t ∧ (s.hsyncMoved.wrStamp Reg.TRD_HS_CAP_LO Reg.TRD_HS_CAP_HI s.trd.now).LockOnly t ∧
      (s.trd.refUse ≠ 1 → t = s.hsyncMoved.wrStamp Reg.TRD_HS_CAP_LO Reg.TRD_HS_CAP_HI s.trd.now) ∧
      (s.trd.refUse = 1 → t = ((s.hsyncMoved.wrStamp Reg.TRD_HS_CAP_LO Reg.TRD_HS_CAP_HI s.trd.now).hsCounted b).hsJudged) := by
  refine ⟨_, execHsyncInEdge_eq s b, ?_⟩
  have h' : ¬ s.hsyncMoved.leadingEdge Reg.TRD_CTL_HS_POL s.hsyncMoved.boot.hsyncIn = false := ne_false_of_eq_true h
  dsimp only
  rw [if_neg h']
  by_cases hr : s.trd.refUse ≠ 1
  · rw [if_pos (show s.hsyncMoved.trd.refUse ≠ 1 from hr)]
    exact ⟨.refl _, fun _ => rfl, fun h1 => absurd h1 hr⟩
  · rw [if_neg (show ¬ s.hsyncMoved.trd.refUse ≠ 1 from hr)]
    exact ⟨State.lockOnly_hsJudged ((State.LockOnly.refl _).onTrd _), fun h1 => absurd h1 hr, fun _ => rfl⟩

/-- A leading edge of VSYNC_IN writes its capture pair, and under house sync may give LOCKED or lose it (R22, R41, R832). -/
theorem exec_vsyncInEdge_leading (s : State) (h : s.leadingEdge Reg.TRD_CTL_VS_POL (!s.boot.vsyncIn) = true) :
    ∃ t, exec .vsyncInEdge s = .next t ∧ (s.vsyncMoved.wrStamp Reg.TRD_VS_CAP_LO Reg.TRD_VS_CAP_HI s.trd.now).LockOnly t ∧
      (s.trd.refUse = 1 → s.trd.now.line = s.fld Reg.TRD_VS_LINE Reg.TRD_VS_LINE_LINE → 16 ≤ s.trd.hsGood → t.lock = 2) ∧
      (s.trd.refUse = 1 → s.trd.now.line ≠ s.fld Reg.TRD_VS_LINE Reg.TRD_VS_LINE_LINE → s.lock = 2 → s.trd.vsAge = 1 → 1 ≤ s.trd.vsBad →
        t.lock = 1) := by
  refine ⟨_, execVsyncInEdge_eq s, ?_⟩
  have h' : ¬ s.vsyncMoved.leadingEdge Reg.TRD_CTL_VS_POL s.vsyncMoved.boot.vsyncIn = false := ne_false_of_eq_true h
  have hmoved : s.vsyncMoved.trd = s.trd ∧ s.vsyncMoved.lock = s.lock ∧
      s.vsyncMoved.fld Reg.TRD_VS_LINE Reg.TRD_VS_LINE_LINE = s.fld Reg.TRD_VS_LINE Reg.TRD_VS_LINE_LINE := ⟨rfl, rfl, rfl⟩
  have htrd := State.wrStamp_trd s.vsyncMoved Reg.TRD_VS_CAP_LO Reg.TRD_VS_CAP_HI s.trd.now
  obtain ⟨hmtrd, hmlock, hmline⟩ := hmoved
  dsimp only
  rw [if_neg h', hmlock, hmline, hmtrd]
  rw [hmtrd] at htrd
  generalize s.vsyncMoved.wrStamp Reg.TRD_VS_CAP_LO Reg.TRD_VS_CAP_HI s.trd.now = u at htrd
  by_cases hr : s.trd.refUse ≠ 1
  · rw [if_pos hr]
    exact ⟨.refl _, fun h1 => absurd h1 hr, fun h1 => absurd h1 hr⟩
  rw [if_neg hr]
  by_cases hl : s.trd.now.line = s.fld Reg.TRD_VS_LINE Reg.TRD_VS_LINE_LINE
  · rw [if_pos hl]
    have hhit : u.vsHit.trd = { s.trd with vsOk := true, lineFix := .none, dropNext := false } := by rw [State.vsHit, State.onTrd_trd, htrd]
    exact ⟨State.lockOnly_tryLock ((State.LockOnly.refl _).onTrd _),
      fun h1 _ hg => u.vsHit.tryLock_lock (by rw [hhit]; exact h1) (by rw [hhit]; exact hg) (by rw [hhit]), fun _ h2 => absurd hl h2⟩
  rw [if_neg hl]
  by_cases hk : s.lock = 2
  · rw [if_pos hk]
    have hmissed : u.LockOnly u.vsMissed := (State.LockOnly.refl u).onTrd _
    refine ⟨?_, fun _ h2 => absurd h2 hl, fun _ _ _ ha hb => ?_⟩
    · split
      · exact State.lockOnly_correctPhase (State.lockOnly_reacquire hmissed)
      · exact hmissed
    · have hbad : u.vsMissed.trd.vsBad = u.trd.vsBad + 1 := by
        change runOf u.trd.vsAge u.trd.vsBad = _
        rw [htrd, ha]; rfl
      rw [if_pos (by rw [hbad, htrd]; omega), State.correctPhase_lock, State.reacquire_lock]
  · rw [if_neg hk]
    exact ⟨State.lockOnly_correctPhase ((State.LockOnly.refl _).onTrd _), fun _ h2 => absurd h2 hl, fun _ _ h3 => absurd h3 hk⟩

/-- Settles O8: a leading edge writes the capture pair, and what follows it lies in the Treadle and TRD_STATUS. -/
theorem edgesAreCapturedAndLock : Obligations.EdgesAreCapturedAndLock := by
  intro s
  refine ⟨fun b h => ?_, fun b h => ?_, fun h => ?_, fun h => ?_, fun p r => ⟨fun hsel => if_neg hsel, fun hsel => ?_⟩⟩
  · have h' : s.hsyncMoved.leadingEdge Reg.TRD_CTL_HS_POL s.hsyncMoved.boot.hsyncIn = false := h
    exact (execHsyncInEdge_eq s b).trans (congrArg _ (if_pos h'))
  · obtain ⟨t, hexec, hlock, hother, hsync⟩ := exec_hsyncInEdge_leading s b h
    obtain ⟨hheld, hrest, hrd⟩ := State.capture_lockOnly hlock (by decide) (by decide) (by decide)
    refine ⟨t, hexec, hheld, fun hr => ?_, fun hr ha => ?_, hrest, hrd⟩
    · rw [hother hr, State.lock_wrStamp _ _ _ _ (by decide) (by decide)]
      exact ⟨State.wrStamp_trd _ _ _ _, rfl⟩
    · have htrd := State.wrStamp_trd s.hsyncMoved Reg.TRD_HS_CAP_LO Reg.TRD_HS_CAP_HI s.trd.now
      rw [show s.hsyncMoved.trd = s.trd from rfl] at htrd
      have hl := State.lock_wrStamp s.hsyncMoved Reg.TRD_HS_CAP_LO Reg.TRD_HS_CAP_HI s.trd.now (by decide) (by decide)
      rw [hsync hr]
      generalize s.hsyncMoved.wrStamp Reg.TRD_HS_CAP_LO Reg.TRD_HS_CAP_HI s.trd.now = u at htrd hl
      have hgood := u.hsJudged_good (by rw [htrd]; exact hr) (by rw [htrd]; exact ha)
      have hbad := u.hsJudged_bad (by rw [htrd]; exact ha)
      rw [htrd, hl] at hbad
      rw [htrd] at hgood
      exact ⟨fun hb _ hg hv => hb ▸ hgood.2 hg hv, fun hb hk hn => hb ▸ hbad.2 hn hk, fun hb => hb ▸ hgood.1, fun hb => hb ▸ hbad.1⟩
  · have h' : s.vsyncMoved.leadingEdge Reg.TRD_CTL_VS_POL s.vsyncMoved.boot.vsyncIn = false := h
    exact (execVsyncInEdge_eq s).trans (congrArg _ (if_pos h'))
  · obtain ⟨t, hexec, hlock, hgain, hlose⟩ := exec_vsyncInEdge_leading s h
    obtain ⟨hheld, hrest, hrd⟩ := State.capture_lockOnly hlock (by decide) (by decide) (by decide)
    exact ⟨t, hexec, hheld, hgain, hlose, hrest, hrd⟩
  · exact ⟨_, if_pos hsel, State.holdsStamp_wrStamp _ _ _ _ (by decide),
      ((State.TreadleOnly.refl s).wrStamp _ _ _).regsOnly (State.wrStamp_trd _ _ _ _), fun o h1 h2 => State.rd_wrStamp_ne _ _ _ _ _ h1 h2⟩

end Sys2Proof.Machine
end

section
/-! PROOF. Reads and writes of Treadle registers (R56, R64, R138 to R145, R837). -/

namespace Sys2Proof.Machine

/-! Completions of reads. -/

/-- A completion for which there is credit on a link that is up begins at its CCLK, but not before the one before it (R140, R142). -/
theorem State.completeRead_sent (s : State) (later : Nat) (m : OutMsg) (hp : s.hif.perstIn = false) (hl : s.linkUp = true)
    (hc : 0 < s.hif.credit) (hm : ∀ b, m ≠ .ptmRequest b) :
    ∃ h, s.completeRead later m =
      { s with out := s.out ++ [⟨max (s.trd.cclk + later) (s.hif.lastRead + 1), m⟩], hif := h } := by
  have hptm : Tlp.isPtm { msg := m, fn := none, after := s.trd.cclk + later, event := none, chain := .register } = false := by
    unfold Tlp.isPtm
    split
    · rename_i b hb; exact absurd hb (hm b)
    · rfl
  have hsend : s.maySend { msg := m, fn := none, after := s.trd.cclk + later, event := none, chain := .register } = true := by
    simp [State.maySend, hl, hc, hptm]
  refine ⟨s.hif.sent { msg := m, fn := none, after := s.trd.cclk + later, event := none, chain := .register }
    (max (s.trd.cclk + later) (s.hif.lastRead + 1)) s.trd.now, ?_⟩
  rw [State.completeRead, if_neg (by simp [hp]), State.send, if_pos hsend, State.transmit, State.beginAt,
    Nat.max_eq_left (Nat.le_add_right s.trd.cclk later)]
  rfl

/-- A CCLK that lies two or more after every one of a list is spaced from it. -/
theorem spaced_of_all_before (l : List Nat) (fuel x : Nat) (h : ∀ y ∈ l, y + 2 ≤ x) : spaced l fuel x = x := by
  cases fuel with
  | zero => rfl
  | succ fuel =>
    rw [spaced, if_neg]
    simp only [List.any_eq_true, decide_eq_true_eq, not_exists, not_and]
    intro y hy _
    have := h y hy
    omega

/-- A request that needs no spacing emerges in the present CCLK (R839). -/
theorem State.pcieTurn_of_spaced (s : State) (h : ∀ y ∈ s.hif.pcieAt, y + 2 ≤ s.trd.cclk) :
    ∃ l, s.pcieTurn 0 = s.onHif fun x => { x with pcieAt := l } := by
  have hx : spaced s.hif.pcieAt 64 (s.trd.cclk + 0) = s.trd.cclk := spaced_of_all_before _ _ _ h
  refine ⟨s.trd.cclk :: s.hif.pcieAt.filter fun y => decide (s.trd.cclk ≤ y + 1), ?_⟩
  rw [State.pcieTurn, hx]
  simp only [State.elapseTo_of_le s (s.trd.cclk - 0) (Nat.sub_le _ _)]
  rfl

theorem State.portFree_of_idle (s : State) (h : s.hif.rdAt ≠ some s.trd.cclk) : s.portFree false = s := by
  rw [State.portFree, if_neg]
  simpa [State.portBusy] using h

/-- The read port serves an access in the present CCLK where none has used it (R160, R161). -/
theorem State.takePort_of_idle (s : State) (h : s.hif.rdAt ≠ some s.trd.cclk) :
    s.takePort false = s.onHif fun x => { x with rdAt := some s.trd.cclk } := by
  simp only [State.takePort, State.portFree_of_idle s h]
  rfl

/-- A read of TRD_NOW_LO is the one that latches (R64). -/
theorem State.readReg_nowLo (s : State) (m : Master) : s.readReg m Reg.TRD_NOW_LO = s.readNow m := by
  have hrow : ¬(Reg.TRD_NOW_LO % 4 ≠ 0 ∨ (regRow? Reg.TRD_NOW_LO).isNone = true) := by decide
  unfold State.readReg
  rw [if_neg hrow, if_pos rfl]

theorem exec_trdNowLoRead (r : RegRead) (s : State) : exec (.trdNowLoRead r) s = execTrdNowLoRead r s := rfl

/-- The sideband's read of TRD_NOW_LO. -/
theorem execTrdNowLoRead_sideband (s : State) (h : s.hif.rdAt ≠ some s.trd.cclk) :
    execTrdNowLoRead ⟨.sideband, .bar0 Reg.TRD_NOW_LO⟩ s = .next
      { s with trd := { s.trd with nowHiSb := s.trd.now.frame },
               out := s.out ++ [⟨s.trd.cclk, .readDone .sideband (.bar0 Reg.TRD_NOW_LO) s.trd.now.low⟩],
               hif := { s.hif with rdAt := some s.trd.cclk } } := by
  simp only [execTrdNowLoRead, State.takePort_of_idle s h, State.readReg_nowLo]
  rfl

/-- The read of TRD_NOW_LO over PCI Express, where it waits for nothing. -/
theorem execTrdNowLoRead_pcie (s : State) (hport : s.hif.rdAt ≠ some s.trd.cclk) (hopen : s.barOpen (.bar0 Reg.TRD_NOW_LO) = true)
    (hsp : ∀ y ∈ s.hif.pcieAt, y + 2 ≤ s.trd.cclk) (hl : s.linkUp = true) (hc : 0 < s.hif.credit) :
    ∃ h, execTrdNowLoRead ⟨.pcie, .bar0 Reg.TRD_NOW_LO⟩ s = .next
      { s with trd := { s.trd with nowHiPcie := s.trd.now.frame },
               out := s.out ++ [⟨max (s.trd.cclk + 32) (s.hif.lastRead + 1), .readDone .pcie (.bar0 Reg.TRD_NOW_LO) s.trd.now.low⟩],
               hif := h } := by
  obtain ⟨l, hturn⟩ := s.pcieTurn_of_spaced hsp
  have hperst : s.hif.perstIn = false := by
    have : s.linkTakes = true := (Bool.and_eq_true_iff.mp hopen).1
    simpa using (Bool.and_eq_true_iff.mp this).1
  have htake := State.takePort_of_idle (s.onHif fun x => { x with pcieAt := l }) hport
  have hnow : (((s.onHif fun x => { x with pcieAt := l }).onHif fun x => { x with rdAt := some s.trd.cclk }).readNow .pcie) =
      (s.trd.now.low, { s with trd := { s.trd with nowHiPcie := s.trd.now.frame },
                               hif := { s.hif with pcieAt := l, rdAt := some s.trd.cclk } }) := rfl
  have hlat : readLatency (.bar0 Reg.TRD_NOW_LO) - 24 = 32 := by decide
  obtain ⟨h, hsent⟩ := State.completeRead_sent
    { s with trd := { s.trd with nowHiPcie := s.trd.now.frame }, hif := { s.hif with pcieAt := l, rdAt := some s.trd.cclk } } 32
    (.readDone .pcie (.bar0 Reg.TRD_NOW_LO) s.trd.now.low) hperst hl hc nofun
  refine ⟨h, ?_⟩
  simp only [execTrdNowLoRead, hopen, if_true, State.portFree_of_idle s hport, hturn, htake, State.readReg_nowLo, hlat, State.onHif_trd,
    hnow, hsent]

/-! Values in force. -/

/-- What is in force of a register stays so in the CCLK of its write (R833, R837). -/
theorem State.inForce_plainWrite (s : State) (o : Nat) (v : Word) : ((s.keepInForce o).plainWrite o v).inForce o = s.inForce o := by
  rw [State.inForce, State.plainWrite_trd, State.keepInForce, State.onTrd_trd]
  cases h : tblFind s.trd.late o with
  | none => simp [State.inForce, h, tblFind_tblPut]
  | some w => simp [State.inForce, h]

/-- From the next CCLK the written value is in force. -/
theorem State.inForce_cclkBegins (s : State) (now : Stamp) (o : Nat) : (s.cclkBegins now).inForce o = s.rd o := rfl

theorem State.fsyncIdle_landFsyncCtl (s : State) (v : Word) :
    (s.landFsyncCtl v).fld Reg.TRD_FSYNC_CTL Reg.TRD_FSYNC_CTL_IDLE = v.toNat % 2 := by
  have hrow : regRow? Reg.TRD_FSYNC_CTL = some ⟨Reg.TRD_FSYNC_CTL, 0, 1, 0xFFF1, 0xFFF1, 0x0, 0x0, false⟩ := by decide
  rw [State.landFsyncCtl, State.fld, State.rd_plainWrite_of_row _ _ _ _ hrow, RegRow.get_written _ _ _ _ rfl (by decide) (by decide)]
  rfl

/-! GPIO ownership. -/

/-- A pin newly owned is driven low, and every other pin keeps its level (R56). -/
theorem gpioLevel_newlyOwned (level own : BitVec 16) (old : Nat) (k : Fin 16) :
    (level &&& ~~~(own &&& ~~~(BitVec.ofNat 16 old)))[k] = (level[k] && !(own[k] && !old.testBit k)) := by
  have hk : k.val < 16 := k.isLt
  have hold : (BitVec.ofNat 16 old)[k.val] = old.testBit k := by
    rw [BitVec.getElem_eq_testBit_toNat, BitVec.toNat_ofNat, Nat.testBit_mod_two_pow]
    simp
  simp [hold]

theorem State.treadleOnly_landGpioOwn (s : State) (own : BitVec 16) : s.TreadleOnly (s.landGpioOwn own) := by
  unfold State.landGpioOwn
  exact ((State.TreadleOnly.refl s).setFld _ _ _).onTrd _

theorem State.rd_landGpioOwn_ne (s : State) (own : BitVec 16) (o : Nat) (h : o ≠ Reg.TRD_GPIO_OWN) : (s.landGpioOwn own).rd o = s.rd o := by
  rw [State.landGpioOwn, State.onTrd_rd, State.rd_setFld_ne _ _ _ _ _ h]

theorem State.treadleOnly_landFsyncCtl (s : State) (v : Word) : s.TreadleOnly (s.landFsyncCtl v) := by
  unfold State.landFsyncCtl State.keepInForce
  exact ((State.TreadleOnly.refl s).onTrd _).plainWrite _ _

theorem State.rd_landFsyncCtl_ne (s : State) (v : Word) (o : Nat) (h : o ≠ Reg.TRD_FSYNC_CTL) : (s.landFsyncCtl v).rd o = s.rd o := by
  rw [State.landFsyncCtl, State.rd_plainWrite_ne _ _ _ _ h, State.keepInForce, State.onTrd_rd]

/-- Settles O10: the read of the stamp, and the landing of each register write. -/
theorem treadleRegistersAct : Obligations.TreadleRegistersAct := by
  intro s
  refine ⟨fun hport => ⟨?_, fun hopen hsp hl hc => ?_⟩, fun hshut hp hl hc => ?_, ?_,
    fun own => ?_, fun v => ?_⟩
  · exact ⟨_, (exec_trdNowLoRead _ s).trans (execTrdNowLoRead_sideband s hport), rfl, rfl, rfl⟩
  · obtain ⟨h, hexec⟩ := execTrdNowLoRead_pcie s hport hopen hsp hl hc
    exact ⟨_, (exec_trdNowLoRead _ s).trans hexec, rfl, rfl, rfl⟩
  · obtain ⟨h, hsent⟩ := s.completeRead_sent 32 .unsupported hp hl hc nofun
    have hexec : exec (.trdNowLoRead ⟨.pcie, .bar0 Reg.TRD_NOW_LO⟩) s = .next (s.completeRead 32 .unsupported) := by
      rw [exec_trdNowLoRead]
      simp [execTrdNowLoRead, hshut]
    exact ⟨_, hexec.trans (congrArg _ hsent), rfl, rfl⟩
  · refine ⟨_, rfl, ?_, ?_, rfl, fun o ho => State.rd_wr_ne _ _ _ _ ho⟩ <;> rw [State.fld, State.clearPickStat, State.rd_wr_self] <;> rfl
  · have hown : (s.landGpioOwn own).fld Reg.TRD_GPIO_OWN Reg.TRD_GPIO_OWN_OWN = own.toNat :=
      (State.fld_setFld_self s _ _ _ (by decide)).trans (Nat.mod_eq_of_lt own.isLt)
    refine ⟨_, rfl, hown, fun k hk hold => ⟨?_, ?_⟩, fun k hk => ?_, fun now => ?_, s.treadleOnly_landGpioOwn own,
      s.rd_landGpioOwn_ne own⟩
    · exact (gpioLevel_newlyOwned _ _ _ k).trans (by simp [hk, hold])
    · exact (BitVec.getElem_or ..).trans (Bool.or_eq_true_iff.mpr (.inr hk))
    · exact (gpioLevel_newlyOwned _ _ _ k).trans (by rcases hk with h | h <;> simp [h])
    · change BitVec.ofNat 16 ((s.landGpioOwn own).fld Reg.TRD_GPIO_OWN Reg.TRD_GPIO_OWN_OWN) = own
      rw [hown, BitVec.ofNat_toNat, BitVec.setWidth_eq]
  · have htrd : (s.landFsyncCtl v).trd = (s.keepInForce Reg.TRD_FSYNC_CTL).trd := State.plainWrite_trd _ _ _
    refine ⟨_, rfl, s.fsyncIdle_landFsyncCtl v, ?_, fun now => ?_, s.treadleOnly_landFsyncCtl v, s.rd_landFsyncCtl_ne v⟩
    · rw [State.fsyncPin, State.fsyncPin, htrd, State.landFsyncCtl, State.inForce_plainWrite]
      rfl
    · rw [State.fsyncPin, State.inForce_cclkBegins]
      change ((s.landFsyncCtl v).trd.fsyncFree && (((s.landFsyncCtl v).fld Reg.TRD_FSYNC_CTL Reg.TRD_FSYNC_CTL_IDLE != 0) !=
        (s.landFsyncCtl v).trd.fsync)) = _
      rw [htrd, s.fsyncIdle_landFsyncCtl v]
      have hbit : (v.toNat % 2 != 0) = decide (v.toNat % 2 = 1) := by
        rcases Nat.mod_two_eq_zero_or_one v.toNat with h | h <;> rw [h] <;> rfl
      rw [hbit]
      rfl

end Sys2Proof.Machine
end

section
/-! PROOF. The raster: CYC within a pick, pick boundaries, and frame-aborts (R26 to R31, R57, R62). -/

namespace Sys2Proof.Machine

/-! What the bookkeeping of a CCLK or a boundary leaves alone. -/

/-- From `s` to `t` the parts of the block that no boundary changes stand. -/
structure State.StoresKept (s t : State) : Prop where
  boot : t.boot = s.boot
  hif : t.hif = s.hif
  kv : t.kv = s.kv
  jtag : t.jtag = s.jtag
  free : t.free = s.free
  pending : t.pending = s.pending
  dram : t.mem.dram = s.mem.dram
  pic : t.pic = s.pic

theorem State.StoresKept.refl (s : State) : s.StoresKept s := ⟨rfl, rfl, rfl, rfl, rfl, rfl, rfl, rfl⟩

theorem State.StoresKept.trans {s t u : State} (h : s.StoresKept t) (h' : t.StoresKept u) : s.StoresKept u :=
  ⟨h'.boot.trans h.boot, h'.hif.trans h.hif, h'.kv.trans h.kv, h'.jtag.trans h.jtag, h'.free.trans h.free, h'.pending.trans h.pending,
    h'.dram.trans h.dram, h'.pic.trans h.pic⟩

theorem State.StoresKept.onTrd {s t : State} (h : s.StoresKept t) (f : Trd → Trd) : s.StoresKept (t.onTrd f) :=
  h.trans ⟨rfl, rfl, rfl, rfl, rfl, rfl, rfl, rfl⟩

/-- The stores, the stamp, the time and what a frame-abort leaves in the Treadle stand. -/
structure State.StampKept (s t : State) : Prop extends s.StoresKept t where
  now : t.trd.now = s.trd.now
  cclk : t.trd.cclk = s.trd.cclk
  restart : t.trd.restart = s.trd.restart
  lineFix : t.trd.lineFix = s.trd.lineFix
  abortWant : t.trd.abortWant = s.trd.abortWant

theorem State.StampKept.refl (s : State) : s.StampKept s := ⟨.refl s, rfl, rfl, rfl, rfl, rfl⟩

theorem State.StampKept.trans {s t u : State} (h : s.StampKept t) (h' : t.StampKept u) : s.StampKept u :=
  ⟨h.toStoresKept.trans h'.toStoresKept, h'.now.trans h.now, h'.cclk.trans h.cclk, h'.restart.trans h.restart,
    h'.lineFix.trans h.lineFix, h'.abortWant.trans h.abortWant⟩

/-- A change of the Treadle beside these. -/
theorem State.StampKept.onTrd {s t : State} (h : s.StampKept t) (f : Trd → Trd) (hnow : (f t.trd).now = t.trd.now)
    (hcclk : (f t.trd).cclk = t.trd.cclk) (hrestart : (f t.trd).restart = t.trd.restart) (hfix : (f t.trd).lineFix = t.trd.lineFix)
    (hwant : (f t.trd).abortWant = t.trd.abortWant) : s.StampKept (t.onTrd f) :=
  h.trans ⟨⟨rfl, rfl, rfl, rfl, rfl, rfl, rfl, rfl⟩, hnow, hcclk, hrestart, hfix, hwant⟩

theorem State.StampKept.onSlv {s t : State} (h : s.StampKept t) (f : Slv → Slv) : s.StampKept (t.onSlv f) :=
  h.trans ⟨⟨rfl, rfl, rfl, rfl, rfl, rfl, rfl, rfl⟩, rfl, rfl, rfl, rfl, rfl⟩

/-- The stores, the Treadle and the Selvage link stand. -/
structure State.TreadleKept (s t : State) : Prop extends s.StoresKept t where
  trd : t.trd = s.trd
  slv : t.slv = s.slv

namespace State.TreadleKept

variable {s t u : State}

theorem refl (s : State) : s.TreadleKept s := ⟨.refl s, rfl, rfl⟩

theorem trans (h : s.TreadleKept t) (h' : t.TreadleKept u) : s.TreadleKept u :=
  ⟨h.toStoresKept.trans h'.toStoresKept, h'.trd.trans h.trd, h'.slv.trans h.slv⟩

theorem stampKept (h : s.TreadleKept t) : s.StampKept t :=
  ⟨h.toStoresKept, by rw [h.trd], by rw [h.trd], by rw [h.trd], by rw [h.trd], by rw [h.trd]⟩

theorem wr (h : s.TreadleKept t) (o : Nat) (v : Word) : s.TreadleKept (t.wr o v) :=
  h.trans ⟨⟨rfl, rfl, rfl, rfl, rfl, rfl, rfl, rfl⟩, rfl, rfl⟩

theorem setFld (h : s.TreadleKept t) (o : Nat) (f : Field) (x : Nat) : s.TreadleKept (t.setFld o f x) := h.wr o _

theorem bump (h : s.TreadleKept t) (o : Nat) : s.TreadleKept (t.bump o) := by
  rcases t.bump_eq_wr o with h' | ⟨v, h'⟩ <;> rw [h']
  · exact h
  · exact h.wr o v

theorem emit (h : s.TreadleKept t) (n : Nat) (m : OutMsg) : s.TreadleKept (t.emit n m) :=
  h.trans ⟨⟨rfl, rfl, rfl, rfl, rfl, rfl, rfl, rfl⟩, rfl, rfl⟩

theorem onTen (h : s.TreadleKept t) (f : Ten → Ten) : s.TreadleKept (t.onTen f) :=
  h.trans ⟨⟨rfl, rfl, rfl, rfl, rfl, rfl, rfl, rfl⟩, rfl, rfl⟩

theorem onLooms (h : s.TreadleKept t) (f : Loom → Loom) : s.TreadleKept (t.onLooms f) :=
  h.trans ⟨⟨rfl, rfl, rfl, rfl, rfl, rfl, rfl, rfl⟩, rfl, rfl⟩

theorem onScn (h : s.TreadleKept t) (f : Scn → Scn) : s.TreadleKept (t.onScn f) :=
  h.trans ⟨⟨rfl, rfl, rfl, rfl, rfl, rfl, rfl, rfl⟩, rfl, rfl⟩

theorem onMem (h : s.TreadleKept t) (f : Mem → Mem) (hf : (f t.mem).dram = t.mem.dram) : s.TreadleKept (t.onMem f) :=
  h.trans ⟨⟨rfl, rfl, rfl, rfl, rfl, rfl, hf, rfl⟩, rfl, rfl⟩

theorem foldl {α : Type} (f : State → α → State) (hf : ∀ (u : State) x, u.TreadleKept (f u x)) (l : List α) (h : s.TreadleKept t) :
    s.TreadleKept (l.foldl f t) :=
  List.foldlRecOn l f h fun u hu x _ => hu.trans (hf u x)

end State.TreadleKept

/-! The parts of a CCLK and of a boundary. -/

theorem State.countStretch_kept (s : State) : s.TreadleKept s.countStretch := by
  unfold State.countStretch
  split
  · exact (State.TreadleKept.refl s).bump _
  · exact .refl s

theorem State.pickStat_kept (s : State) : s.TreadleKept s.pickStat := by
  unfold State.pickStat
  extract_lets len lo hi
  split
  · exact .refl s
  · exact ((State.TreadleKept.refl s).setFld _ _ _).setFld _ _ _

theorem State.refreshReady_kept (s : State) : s.TreadleKept s.refreshReady := (State.TreadleKept.refl s).onTen _

theorem State.modPick_kept (s : State) : s.TreadleKept s.modPick := (State.TreadleKept.refl s).onTen _

theorem State.countAfresh_kept (s : State) : s.TreadleKept s.countAfresh := (State.TreadleKept.refl s).onTen _

theorem State.dmcPick_kept (s : State) : s.TreadleKept s.dmcPick := by
  unfold State.dmcPick
  split
  · exact (State.TreadleKept.refl s).onMem _ rfl
  · exact .refl s

theorem State.prFrameStart_kept (s : State) : s.TreadleKept s.prFrameStart := by
  unfold State.prFrameStart
  split
  · exact .refl s
  split
  · exact (State.TreadleKept.refl s).onScn _
  split
  · exact .refl s
  split
  · exact (State.TreadleKept.refl s).onScn _
  · exact (State.TreadleKept.refl s).setFld _ _ _

theorem State.portsFrameStart_kept (s : State) : s.TreadleKept s.portsFrameStart :=
  State.TreadleKept.foldl _ (fun u _ => ((State.TreadleKept.refl u).setFld _ _ _).setFld _ _ _) _ (.refl s)

theorem State.chooseParent_kept (s : State) : s.TreadleKept s.chooseParent := by
  have hops : s.TreadleKept (if s.bestParent.1 = 7 then s else s.setFld Reg.SLV_TIME Reg.SLV_TIME_HOPS (s.bestParent.2 + 1)) := by
    split
    · exact .refl s
    · exact (State.TreadleKept.refl s).setFld _ _ _
  unfold State.chooseParent
  extract_lets b old s1
  split
  · split
    · exact hops
    · exact (hops.setFld _ _ _).bump _
  · exact .refl s

theorem State.dropRows_kept (s : State) (p : LayerRow → Bool) : s.TreadleKept (s.dropRows p) := by
  unfold State.dropRows
  exact ((State.TreadleKept.refl s).onScn _).onMem _ rfl

theorem State.scanAbort_kept (s : State) : s.TreadleKept s.scanAbort := by
  unfold State.scanAbort
  extract_lets f s1 s2 again s3
  have h1 : s.TreadleKept s1 := by
    unfold s1
    split
    · exact (State.TreadleKept.refl s).bump _
    · exact .refl s
  have h2 : s.TreadleKept s2 := by
    unfold s2
    split
    · exact State.TreadleKept.foldl _ (fun u _ => (State.TreadleKept.refl u).emit _ _) _ h1
    · exact h1
  have h3 : s.TreadleKept s3 := (h2.trans (s2.dropRows_kept _)).onScn _
  split
  · exact h3.setFld _ _ _
  · exact h3

theorem State.compareSlots_kept (s : State) : s.StampKept s.compareSlots := by
  unfold State.compareSlots
  extract_lets hits dues comps
  refine State.StampKept.onTrd (.refl s) _ ?_ ?_ ?_ ?_ ?_ <;> split <;> rfl

theorem State.lineSeries_kept (s : State) (ended : Nat) : s.StampKept (s.lineSeries ended) :=
  State.StampKept.onTrd (.refl s) _ rfl rfl rfl rfl rfl

theorem State.pickBegun_kept (s : State) : s.StampKept s.pickBegun :=
  s.compareSlots_kept.trans
    ((((State.refreshReady_kept _).trans (State.dmcPick_kept _)).trans (State.modPick_kept _)).onTen _ |>.onLooms _).stampKept

theorem State.lineBegun_kept (s : State) (ended : Nat) : s.StampKept (s.lineBegun ended) := by
  unfold State.lineBegun
  extract_lets s1 x s2
  have h1 : s.StampKept s1 := (s.lineSeries_kept ended).onSlv _
  have h2 : s.StampKept s2 := h1.trans ⟨⟨rfl, rfl, rfl, rfl, rfl, rfl, rfl, rfl⟩, rfl, rfl, rfl, rfl, rfl⟩
  exact (h2.onTrd _ rfl rfl rfl rfl rfl).trans (State.chooseParent_kept _).stampKept

/-- A correction that came too late for the frame before is this frame's, which else has none (R26). -/
def State.lineFixTaken (s : State) : State := s.onTrd fun t => { t with lineFix := if t.dropNext then .drop else .none }

theorem State.frameBegun_kept (s : State) : s.lineFixTaken.StampKept s.frameBegun := by
  unfold State.frameBegun
  extract_lets s1 s2
  have h1 : s.lineFixTaken.StampKept s1 := ⟨⟨rfl, rfl, rfl, rfl, rfl, rfl, rfl, rfl⟩, rfl, rfl, rfl, rfl, rfl⟩
  have h2 : s1.TreadleKept s2 := (State.TreadleKept.refl s1).onScn _
  exact h1.trans (((h2.trans s2.countAfresh_kept).trans (State.prFrameStart_kept _)).trans (State.portsFrameStart_kept _)).stampKept

/-! A follower's FRAME (R746). -/

theorem State.alignFrame_of_none (s : State) (h : s.slv.frameTo = none) : s.alignFrame = s := by rw [State.alignFrame, h]

/-- A follower's correction of its FRAME changes no other part of the stamp. -/
theorem State.alignFrame_trd (s : State) : s.StoresKept s.alignFrame ∧ ∃ x, s.alignFrame.trd = { s.trd with now := { s.trd.now with frame := x } } := by
  unfold State.alignFrame
  split
  · exact ⟨.refl s, s.trd.now.frame, rfl⟩
  · exact ⟨⟨rfl, rfl, rfl, rfl, rfl, rfl, rfl, rfl⟩, _, rfl⟩

/-! Pick boundaries. -/

/-- The first CCLK of the next pick, before anything looks at it. -/
def State.pickEntered (s : State) : State := (s.pickStat.countStretch.onTrd fun x => { x with restart := false }).cclkBegins s.nextPick

/-- The first CCLK of the next pick, with what the start of a frame makes of FRAME and of the frame's lines. -/
def State.frameEntered (s : State) : State :=
  if s.nextPick.frame = s.trd.now.frame then s.pickEntered
  else ((s.pickEntered.onTrd fun x => { x with prevLines := s.frameLines }).alignFrameHere).lineFixTaken

theorem State.nextPickBegins_kept (s : State) : s.frameEntered.StampKept s.nextPickBegins := by
  unfold State.nextPickBegins
  extract_lets n t s1 s2
  have h2 : s.frameEntered.StampKept s2 := by
    unfold s2 State.frameEntered
    split
    · exact .refl _
    · exact State.frameBegun_kept _
  refine State.StampKept.trans ?_ (State.pickBegun_kept _)
  split
  · exact h2
  · exact h2.trans (State.lineBegun_kept _ _)

theorem State.pickEntered_kept (s : State) : s.StoresKept s.pickEntered ∧ s.pickEntered.slv = s.slv := by
  have h := s.pickStat_kept.trans s.pickStat.countStretch_kept
  exact ⟨h.toStoresKept.trans ⟨rfl, rfl, rfl, rfl, rfl, rfl, rfl, rfl⟩, h.slv⟩

theorem State.pickEntered_trd (s : State) :
    s.pickEntered.trd.now = s.nextPick ∧ s.pickEntered.trd.cclk = s.trd.cclk + 1 ∧ s.pickEntered.trd.restart = false := by
  have h := (s.pickStat_kept.trans s.pickStat.countStretch_kept).trd
  refine ⟨rfl, ?_, rfl⟩
  change s.pickStat.countStretch.trd.cclk + 1 = _
  rw [h]

theorem State.nextPick_cyc (s : State) : s.nextPick.cyc = 0 := by
  unfold State.nextPick
  extract_lets n
  split
  · rfl
  · split <;> rfl

theorem State.alignFrameHere_trd (s : State) :
    s.StoresKept s.alignFrameHere ∧ ∃ x, s.alignFrameHere.trd = { s.trd with now := { s.trd.now with frame := x } } := by
  unfold State.alignFrameHere
  split
  · exact s.alignFrame_trd
  · exact ⟨.refl s, s.trd.now.frame, rfl⟩

theorem State.alignFrameHere_of_none (s : State) (h : s.slv.frameTo = none) : s.alignFrameHere = s := by
  rw [State.alignFrameHere, s.alignFrame_of_none h, ite_self]

theorem State.frameEntered_kept (s : State) : s.StoresKept s.frameEntered ∧ s.frameEntered.trd.now.cyc = 0 ∧
    s.frameEntered.trd.cclk = s.trd.cclk + 1 ∧ s.frameEntered.trd.restart = false := by
  obtain ⟨hstores, -⟩ := s.pickEntered_kept
  obtain ⟨hnow, hcclk, hrestart⟩ := s.pickEntered_trd
  unfold State.frameEntered
  split
  · exact ⟨hstores, by rw [hnow, s.nextPick_cyc], hcclk, hrestart⟩
  · obtain ⟨halign, x, htrd⟩ := (s.pickEntered.onTrd fun x => { x with prevLines := s.frameLines }).alignFrameHere_trd
    refine ⟨((hstores.onTrd _).trans halign).onTrd _, ?_, ?_, ?_⟩ <;>
      rw [State.lineFixTaken, State.onTrd_trd, htrd, State.onTrd_trd]
    · exact (congrArg Stamp.cyc hnow).trans s.nextPick_cyc
    · exact hcclk
    · exact hrestart

/-- With no alignment due the new pick has the stamp that the raster gives it (R26, R27). -/
theorem State.frameEntered_now (s : State) (h : s.slv.frameTo = none) : s.frameEntered.trd.now = s.nextPick := by
  obtain ⟨hnow, -, -⟩ := s.pickEntered_trd
  unfold State.frameEntered
  split
  · exact hnow
  · rw [State.alignFrameHere_of_none _ (by rw [State.onTrd_slv, s.pickEntered_kept.2, h])]
    exact hnow

/-- Where no REALIGN abort is due a pick boundary starts the next pick. -/
theorem exec_pickBoundary (s : State) (hr : s.rasterRuns = true) (ha : s.trd.realign ≠ some 1) :
    exec .pickBoundary s = .next s.nextPickBegins := by
  change execPickBoundary s = _
  rw [execPickBoundary, if_neg (by simp [hr]), if_neg fun h => ha h.2]

/-- Settles O1: all that a boundary does once the stamp stands at the new pick leaves the stamp and the stores as they are. -/
theorem pickBoundaryMovesTheStamp : Obligations.PickBoundaryMovesTheStamp := by
  intro s hr ha hf
  have hkept := s.nextPickBegins_kept
  obtain ⟨hstores, -, hcclk, hrestart⟩ := s.frameEntered_kept
  have h := hstores.trans hkept.toStoresKept
  exact ⟨_, exec_pickBoundary s hr ha, hkept.cclk.trans hcclk, hkept.restart.trans hrestart, hkept.now.trans (s.frameEntered_now hf),
    h.boot, h.hif, h.kv, h.jtag, h.free, h.pending, h.dram⟩

/-! CYC within a pick. -/

/-- From `s` to `t` nothing but the Treadle, the registers and the scoreboard has changed. -/
def State.ClockOnly (s t : State) : Prop := t = { s with trd := t.trd, regs := t.regs, ten := t.ten }

theorem State.ClockOnly.trans {s t u : State} (h : s.ClockOnly t) (h' : t.ClockOnly u) : s.ClockOnly u := by
  unfold State.ClockOnly at *
  rw [h', h]

theorem State.TreadleOnly.clockOnly {s t : State} (h : s.TreadleOnly t) : s.ClockOnly t := by
  unfold State.TreadleOnly at h
  unfold State.ClockOnly
  rw [h]

theorem State.treadleOnly_countStretch (s : State) : s.TreadleOnly s.countStretch := by
  unfold State.countStretch
  split
  · exact (State.TreadleOnly.refl s).bump _
  · exact .refl s

/-- The next CCLK of the pick, before anything looks at it; CYC that reaches 4,095 sets CYC_SAT (R31). -/
def State.cycCounted (s : State) : State :=
  let u := s.countStretch.cclkBegins { s.trd.now with cyc := min 4095 (s.trd.now.cyc + 1) }
  if u.trd.now.cyc = 4095 ∧ s.trd.now.cyc < 4095 then u.setFld Reg.TRD_STATUS Reg.TRD_STATUS_CYC_SAT 1 else u

theorem State.tick_of_running (s : State) (h : s.boot.tripped = false) : s.tick = s.cycCounted.compareSlots.refreshReady := by
  unfold State.tick
  rw [if_neg (by simp [h])]
  rfl

theorem State.cycCounted_trd (s : State) : s.cycCounted.trd.now = { s.trd.now with cyc := min 4095 (s.trd.now.cyc + 1) } ∧
    s.cycCounted.trd.cclk = s.trd.cclk + 1 := by
  have hcclk : (s.countStretch.cclkBegins { s.trd.now with cyc := min 4095 (s.trd.now.cyc + 1) }).trd.cclk = s.trd.cclk + 1 := by
    change s.countStretch.trd.cclk + 1 = _
    rw [s.countStretch_kept.trd]
  unfold State.cycCounted
  extract_lets now u
  split
  · exact ⟨rfl, hcclk⟩
  · exact ⟨rfl, hcclk⟩

theorem State.cycCounted_cycSat (s : State) (h : s.trd.now.cyc = 4094) :
    s.cycCounted.fld Reg.TRD_STATUS Reg.TRD_STATUS_CYC_SAT = 1 := by
  unfold State.cycCounted
  extract_lets now u
  have hcyc : u.trd.now.cyc = 4095 := by
    change min 4095 (s.trd.now.cyc + 1) = 4095
    rw [h]; rfl
  rw [if_pos ⟨hcyc, by omega⟩, State.fld_setFld_self _ _ _ _ (by decide)]
  rfl

theorem State.treadleOnly_cycCounted (s : State) : s.TreadleOnly s.cycCounted := by
  unfold State.cycCounted
  extract_lets now u
  have hu : s.TreadleOnly u := s.treadleOnly_countStretch.onTrd _
  split
  · exact hu.setFld _ _ _
  · exact hu

theorem State.tick_trd (s : State) (h : s.boot.tripped = false) :
    s.tick.trd.now = { s.trd.now with cyc := min 4095 (s.trd.now.cyc + 1) } ∧ s.tick.trd.cclk = s.trd.cclk + 1 := by
  obtain ⟨hnow, hcclk⟩ := s.cycCounted_trd
  have hkept := s.cycCounted.compareSlots_kept.trans (State.refreshReady_kept _).stampKept
  rw [s.tick_of_running h]
  exact ⟨hkept.now.trans hnow, hkept.cclk.trans hcclk⟩

/-- The CCLK in which CYC reaches 4,095 sets CYC_SAT (R31). -/
theorem State.tick_cycSat (s : State) (h : s.boot.tripped = false) (hc : s.trd.now.cyc = 4094) :
    s.tick.fld Reg.TRD_STATUS Reg.TRD_STATUS_CYC_SAT = 1 := by
  rw [s.tick_of_running h]
  exact s.cycCounted_cycSat hc

theorem State.clockOnly_tick (s : State) : s.ClockOnly s.tick := by
  by_cases h : s.boot.tripped = true
  · rw [State.tick, if_pos h]; rfl
  · rw [s.tick_of_running (Bool.eq_false_iff.mpr h)]
    exact (s.treadleOnly_cycCounted.onTrd _).clockOnly.trans rfl

theorem State.clockOnly_elapse (n : Nat) (s : State) : s.ClockOnly (State.elapse n s) := by
  induction n generalizing s with
  | zero => rfl
  | succ n ih => exact s.clockOnly_tick.trans (ih s.tick)

theorem State.elapse_succ (n : Nat) (s : State) : State.elapse (n + 1) s = (State.elapse n s).tick := by
  induction n generalizing s with
  | zero => rfl
  | succ n ih => exact ih s.tick

theorem State.elapse_tripped (n : Nat) (s : State) : (State.elapse n s).boot.tripped = s.boot.tripped := by
  rw [s.clockOnly_elapse n]

/-- CYC counts the CCLK that pass, up to 4,095. -/
theorem State.elapse_trd (n : Nat) (s : State) (h : s.boot.tripped = false) (hc : s.trd.now.cyc ≤ 4095) :
    (State.elapse n s).trd.now = { s.trd.now with cyc := min 4095 (s.trd.now.cyc + n) } ∧
      (State.elapse n s).trd.cclk = s.trd.cclk + n := by
  induction n with
  | zero => exact ⟨by rw [Nat.add_zero, Nat.min_eq_right hc]; rfl, rfl⟩
  | succ n ih =>
    obtain ⟨hnow, hcclk⟩ := ih
    obtain ⟨hnow', hcclk'⟩ := (State.elapse n s).tick_trd (by rw [s.elapse_tripped n, h])
    rw [State.elapse_succ]
    refine ⟨hnow'.trans ?_, by omega⟩
    rw [hnow]
    dsimp only
    rw [show min 4095 (min 4095 (s.trd.now.cyc + n) + 1) = min 4095 (s.trd.now.cyc + (n + 1)) by omega]

/-- Settles O2: the clock's steps inside a pick, and the boundary that ends it. -/
theorem cycCountsAndSaturates : Obligations.CycCountsAndSaturates := by
  intro s hr
  have htrip : s.boot.tripped = false := by simpa using (Bool.and_eq_true_iff.mp hr).1
  refine ⟨fun hq => ⟨s.tick, by rw [step, hq]; rfl, (s.tick_trd htrip).1, s.tick_cycSat htrip⟩, fun hc => ⟨_, rfl, ?_⟩, fun ha => ?_⟩
  · obtain ⟨n, hn⟩ : ∃ n, 4095 - s.trd.now.cyc = n + 1 := ⟨4094 - s.trd.now.cyc, by omega⟩
    obtain ⟨hnow, hcclk⟩ := s.elapse_trd (n + 1) htrip (by omega)
    obtain ⟨hnow', -⟩ := s.elapse_trd n htrip (by omega)
    rw [hn]
    refine ⟨hnow.trans (by rw [show min 4095 (s.trd.now.cyc + (n + 1)) = 4095 by omega]), hcclk, ?_, ?_, ?_, ?_⟩
    · rw [State.elapse_succ]
      exact (State.elapse n s).tick_cycSat (by rw [s.elapse_tripped n, htrip]) (by rw [hnow']; dsimp only; omega)
    all_goals rw [s.clockOnly_elapse (n + 1)]
  · exact ⟨_, exec_pickBoundary s hr ha, by rw [s.nextPickBegins_kept.now, s.frameEntered_kept.2.1]⟩

/-! Frame-aborts. -/

/-- What a frame-abort discards before it cuts the frame: the sheds in flight, what scan-out has fetched and composed, and the strips. -/
def State.abortDiscards (s : State) : State :=
  (s.countStretch.scanAbort.onPic fun p => { p with sheds := [], last := none }).onSlv fun v => { v with maps := [], mapWaits := [] }

theorem State.abortDiscards_kept (s : State) : s.abortDiscards.trd = s.trd ∧ s.abortDiscards.slv.frameTo = s.slv.frameTo ∧
    s.abortDiscards.pic.sheds = [] ∧ s.abortDiscards.hif = s.hif ∧ s.abortDiscards.boot = s.boot ∧
    s.abortDiscards.mem.dram = s.mem.dram := by
  have h := s.countStretch_kept.trans s.countStretch.scanAbort_kept
  unfold State.abortDiscards
  generalize s.countStretch.scanAbort = u at h
  exact ⟨h.trd, by rw [← h.slv]; rfl, rfl, h.hif, h.boot, h.dram⟩

/-- The cut: the next CCLK is the first of the next frame, and the abort is no longer asked for (R57, R830). -/
theorem State.cutFrame_trd (s : State) : s.cutFrame.trd.now = ⟨(s.trd.now.frame + 1) % 65536, 0, 0, 0⟩ ∧
    s.cutFrame.trd.cclk = s.trd.cclk + 1 ∧ s.cutFrame.trd.restart = true ∧ s.cutFrame.trd.dropNext = false ∧ s.cutFrame.trd.abortWant = [] :=
  ⟨rfl, rfl, rfl, rfl, rfl⟩

theorem State.cutFrame_kept (s : State) : s.StoresKept s.cutFrame ∧ s.cutFrame.slv = s.slv :=
  ⟨⟨rfl, rfl, rfl, rfl, rfl, rfl, rfl, rfl⟩, rfl⟩

/-- With no alignment due an abort leaves FRAME as the cut made it. -/
theorem State.alignAborted_of_none (s : State) (realign : Bool) (h : s.slv.frameTo = none) :
    s.StoresKept (s.alignAborted realign) ∧ (s.alignAborted realign).trd = s.trd := by
  unfold State.alignAborted
  split
  · rw [s.alignFrame_of_none h]
    exact ⟨.refl s, rfl⟩
  · exact ⟨⟨rfl, rfl, rfl, rfl, rfl, rfl, rfl, rfl⟩, rfl⟩

/-- An abort that is asked for and due takes effect. -/
theorem exec_frameAbort (s : State) (hr : s.rasterRuns = true) (hw : s.trd.abortWant ≠ []) (hd : s.trd.abortAt ≤ s.trd.cclk) :
    exec .frameAbort s = .next s.abortFrame := by
  change execFrameAbort s = _
  rw [execFrameAbort, if_neg (by simp [hr, hw]), s.elapseTo_of_le _ hd, ite_self]

/-- Settles O3: the cut makes the new stamp, and what the new frame begins with leaves it. -/
theorem frameAbortRestartsTheFrame : Obligations.FrameAbortRestartsTheFrame := by
  intro s hr hw hd hf
  obtain ⟨htrd, hto, hsheds, hhif, hboot, hdram⟩ := s.abortDiscards_kept
  obtain ⟨hnow, hcclk, hrestart, hdrop, hwant⟩ := s.abortDiscards.cutFrame_trd
  obtain ⟨hcut, hslv⟩ := s.abortDiscards.cutFrame_kept
  obtain ⟨halign, hatrd⟩ := s.abortDiscards.cutFrame.alignAborted_of_none (s.trd.abortWant.contains .realign) (by rw [hslv, hto, hf])
  have hbegun := ((s.abortDiscards.cutFrame.alignAborted (s.trd.abortWant.contains .realign)).frameBegun_kept.trans
    (State.lineBegun_kept _ 65536)).trans (State.pickBegun_kept _)
  have hstores := hcut.trans (halign.trans (((State.StoresKept.refl _).onTrd _).trans hbegun.toStoresKept))
  rw [htrd] at hnow hcclk
  refine ⟨_, exec_frameAbort s hr hw hd, hbegun.now.trans ?_, hbegun.cclk.trans ?_, hbegun.restart.trans ?_, hbegun.lineFix.trans ?_,
    hbegun.abortWant.trans ?_, ?_, hstores.hif.trans hhif, hstores.boot.trans hboot, hstores.dram.trans hdram⟩
  · exact (congrArg Trd.now hatrd).trans hnow
  · exact (congrArg Trd.cclk hatrd).trans hcclk
  · exact (congrArg Trd.restart hatrd).trans hrestart
  · rw [State.lineFixTaken, State.onTrd_trd, hatrd, hdrop]; rfl
  · exact (congrArg Trd.abortWant hatrd).trans hwant
  · exact (congrArg Pic.sheds hstores.pic).trans hsheds

end Sys2Proof.Machine
end

section
/-! PROOF. The reset state: a register that the reset state does not list reads its reset value (R15, R28). -/

namespace Sys2Proof.Machine

theorem State.rd_reset (o : Nat) (h : o ≠ Reg.SEQ_STATUS) : State.reset.rd o = regDef o := if_neg h.symm

theorem State.fld_reset (o : Nat) (f : Field) (h : o ≠ Reg.SEQ_STATUS) : State.reset.fld o f = f.get (regDef o) := by
  rw [State.fld, State.rd_reset o h]

/-- Settles O59: the register fields by their reset values, and the rest as the reset state lists it. -/
theorem resetLeavesTheBlockInForm : Obligations.ResetLeavesTheBlockInForm := by
  refine ⟨State.wf_reset, rfl, rfl, rfl, rfl, ?_, ?_, ?_, ?_, ?_, ?_⟩
  · rw [State.fld_reset _ _ (by decide)]; decide
  · rw [State.fld_reset _ _ (by decide)]; decide
  · rw [State.fld_reset _ _ (by decide)]; decide
  · rw [State.fld_reset _ _ (by decide)]; decide
  · rw [State.op, State.fld_reset _ _ (by decide)]; decide
  · rw [State.prState, State.fld_reset _ _ (by decide)]; decide

end Sys2Proof.Machine
end

section
/-! PROOF. The registers that an operation writes, and the loader's state. -/

namespace Sys2Proof.Machine

theorem State.fld_wr_ne (s : State) (o p : Nat) (v : Word) (g : Field) (h : p ≠ o) : (s.wr o v).fld p g = s.fld p g := by
  rw [State.fld, State.rd_wr_ne s o p v h]; rfl

theorem State.fld_of_rd {s t : State} {o : Nat} (h : t.rd o = s.rd o) (g : Field) : t.fld o g = s.fld o g := congrArg g.get h

/-- From `s` to `t` nothing has changed but registers whose offsets `P` holds of. -/
structure State.WritesIn (P : Nat → Prop) (s t : State) : Prop where
  rest : t = { s with regs := t.regs }
  rd : ∀ o, ¬ P o → t.rd o = s.rd o

namespace State.WritesIn

variable {P : Nat → Prop} {s t u : State}

theorem refl (P : Nat → Prop) (s : State) : s.WritesIn P s := ⟨rfl, fun _ _ => rfl⟩

theorem trans (h : s.WritesIn P t) (h' : t.WritesIn P u) : s.WritesIn P u :=
  ⟨by rw [h'.rest, h.rest], fun o ho => (h'.rd o ho).trans (h.rd o ho)⟩

theorem wr (h : s.WritesIn P t) (o : Nat) (v : Word) (ho : P o) : s.WritesIn P (t.wr o v) :=
  h.trans ⟨rfl, fun _ hp => State.rd_wr_ne _ _ _ _ fun e => hp (e ▸ ho)⟩

theorem setFld (h : s.WritesIn P t) (o : Nat) (f : Field) (x : Nat) (ho : P o) : s.WritesIn P (t.setFld o f x) := h.wr o _ ho

theorem bump (h : s.WritesIn P t) (o : Nat) (ho : P o) : s.WritesIn P (t.bump o) := by
  rcases t.bump_eq_wr o with h' | ⟨v, h'⟩ <;> rw [h']
  · exact h
  · exact h.wr o v ho

theorem foldl {α : Type} (f : State → α → State) (l : List α) (hf : ∀ (u : State), ∀ x ∈ l, u.WritesIn P (f u x)) (h : s.WritesIn P t) :
    s.WritesIn P (l.foldl f t) :=
  List.foldlRecOn l f h fun u hu x hx => hu.trans (hf u x hx)

theorem fld (h : s.WritesIn P t) (o : Nat) (g : Field) (ho : ¬ P o) : t.fld o g = s.fld o g := State.fld_of_rd (h.rd o ho) g

end State.WritesIn

/-- A field takes a value that fits it. -/
theorem State.fld_setFld_of_lt (s : State) (o x : Nat) (f : Field) (h : f.lo + f.w ≤ 32) (hx : x < 2 ^ f.w) : (s.setFld o f x).fld o f = x :=
  (State.fld_setFld_self s o x f h).trans (Nat.mod_eq_of_lt hx)

/-- A field takes a truth value. -/
theorem State.fld_setFld_ite (s : State) (o : Nat) (f : Field) (c : Prop) [Decidable c] (h : f.lo + f.w ≤ 32) (hw : 0 < f.w) :
    (s.setFld o f (if c then 1 else 0)).fld o f = if c then 1 else 0 :=
  State.fld_setFld_of_lt s o _ f h (by have := Nat.one_lt_two_pow_iff.mpr hw.ne'; split <;> omega)

theorem State.setLoadState_loadState (s : State) (x : Nat) (h : x < 8) : (s.setLoadState x).loadState = x :=
  State.fld_setFld_of_lt _ _ _ _ (by decide) h

theorem State.fld_setLoadState (s : State) (x : Nat) (g : Field) (h : 3 ≤ g.lo) : (s.setLoadState x).fld Reg.IMG_STATUS g = s.fld Reg.IMG_STATUS g :=
  State.fld_setFld_other _ _ _ _ _ (.inr h)

/-! The factory defaults. -/

/-- The registers that the factory defaults set when no slot is left. -/
theorem State.toFactory_writes (s : State) :
    s.WritesIn (fun o => o = Reg.IMG_STATUS ∨ o = Reg.IMG_SEQ ∨ o = Reg.IMG_VERSION) s.toFactory := by
  unfold State.toFactory State.setLoadState
  refine .wr (.wr (.foldl _ _ (fun u x _ => .setFld (.refl _ u) _ _ _ (.inl rfl)) ?_) _ _ (.inr (.inl rfl))) _ _ (.inr (.inr rfl))
  exact ((State.WritesIn.refl _ s).setFld _ _ _ (.inl rfl)).setFld _ _ _ (.inl rfl)

theorem State.toFactory_loadState (s : State) : s.toFactory.loadState = 6 := by
  simp (disch := decide) only [State.loadState, State.toFactory, State.setLoadState, List.foldl, State.fld_wr_ne, State.fld_setFld_other,
    State.fld_setFld_self]
  rfl

theorem State.toFactory_oct (s : State) :
    s.toFactory.fld Reg.IMG_STATUS Reg.IMG_STATUS_OCT = s.fld Reg.IMG_STATUS Reg.IMG_STATUS_OCT := by
  simp (disch := decide) only [State.toFactory, State.setLoadState, List.foldl, State.fld_wr_ne, State.fld_setFld_other]

/-! The pointer blocks. -/

theorem State.pbCode_le (s : State) (k : Nat) : s.pbCode k ≤ 4 := by
  unfold State.pbCode
  extract_lets b
  repeat' split
  all_goals decide

theorem State.readPbs_eq (s : State) (ok : Bool) : s.readPbs ok = { s with
    regs := (s.readPbs ok).regs
    out := s.out ++ [⟨s.trd.cclk, .flash s.flashOctal (.read 0 48)⟩, ⟨s.trd.cclk, .flash s.flashOctal (.read 0x1000 48)⟩] } := by
  simp [State.readPbs, State.flashReq, State.emit, State.setFld, State.wr, State.flashOctal, State.bit, State.fld, State.rd]

theorem State.readPbs_rd (s : State) (ok : Bool) (o : Nat) (h : o ≠ Reg.IMG_FAIL) : (s.readPbs ok).rd o = s.rd o := by
  rw [State.readPbs, State.rd_setFld_ne _ _ _ _ _ h, State.rd_setFld_ne _ _ _ _ _ h]
  rfl

theorem State.readPbs_codes (s : State) (ok : Bool) :
    (s.readPbs ok).fld Reg.IMG_FAIL Reg.IMG_FAIL_PB0 = (if ok then s.pbCode 0 else 0xB) ∧
    (s.readPbs ok).fld Reg.IMG_FAIL Reg.IMG_FAIL_PB1 = if ok then s.pbCode 1 else 0xB := by
  have hcode (k : Nat) : (if ok then s.pbCode k else 0xB) < 2 ^ 4 := by
    have := s.pbCode_le k
    split <;> omega
  refine ⟨?_, State.fld_setFld_of_lt _ _ _ _ (by decide) (hcode 1)⟩
  rw [State.readPbs, State.fld_setFld_other _ _ _ _ _ (by decide)]
  exact State.fld_setFld_of_lt _ _ _ _ (by decide) (hcode 0)

end Sys2Proof.Machine
end

section
/-! PROOF. The boot steps before a slot is chosen (R65, R73, R75 to R78, R319, R335). -/

namespace Sys2Proof.Machine

/-! FLASH_PROBE. -/

/-- What the probe sends: the reset of the part, the read of its SFDP table, and where that declares octal DTR the two reads that are compared. -/
def State.probeRequests (s : State) (sfdp : List Byte) : List Out :=
  let req := fun (o : Bool) (r : FlashReq) => (⟨s.trd.cclk, .flash o r⟩ : Out)
  [req false .resetEnable, req false .reset, req false .sfdp] ++ if sfdpOctal sfdp then [req true (.read 0 48), req false (.read 0 48)] else []

theorem State.probeFlash_eq (s : State) (sfdp : List Byte) : s.probeFlash sfdp = { s with out := s.out ++ s.probeRequests sfdp } := by
  unfold State.probeFlash State.probeRequests
  extract_lets s1 req
  split
  · simp [s1, req, State.emit]
  · simp [s1, req, State.emit]

/-- The mode of the flash that the probe chooses (R77). -/
def State.octalChosen (s : State) (a : FlashAnswer) (ok : Bool) : Bool :=
  decide (s.boot.bootMode ≠ 1#3) && ok && sfdpOctal a.sfdp && a.octal == s.flashBytes 0 48

/-- The state once the mode of the flash is chosen. -/
def State.modeChosen (s : State) (a : FlashAnswer) (ok : Bool) : State :=
  State.setFld { s with out := s.out ++ if s.boot.bootMode = 1#3 then [] else s.probeRequests a.sfdp } Reg.IMG_STATUS Reg.IMG_STATUS_OCT
    (if s.octalChosen a ok then 1 else 0)

theorem exec_flashProbe (s : State) (a : FlashAnswer) (ok : Bool) (h : s.loadState = 1) : exec (.flashProbe a ok) s =
    .next (if s.boot.bootMode = 2#3 then (s.modeChosen a ok).toFactory else ((s.modeChosen a ok).readPbs ok).setLoadState 2) := by
  have hmode : (if s.boot.bootMode = 1#3 then s else s.probeFlash a.sfdp) =
      { s with out := s.out ++ if s.boot.bootMode = 1#3 then [] else s.probeRequests a.sfdp } := by
    split
    · rw [List.append_nil]
    · exact s.probeFlash_eq a.sfdp
  have hskip : (!(s.boot.bootMode == 1#3)) = decide (s.boot.bootMode ≠ 1#3) := by
    by_cases hb : s.boot.bootMode = 1#3 <;> simp [hb]
  change execFlashProbe a ok s = _
  simp only [execFlashProbe, h, ne_eq, not_true_eq_false, if_false, beq_iff_eq, hmode, hskip]
  rfl

theorem State.modeChosen_oct (s : State) (a : FlashAnswer) (ok : Bool) :
    (s.modeChosen a ok).fld Reg.IMG_STATUS Reg.IMG_STATUS_OCT = if s.octalChosen a ok then 1 else 0 :=
  State.fld_setFld_ite _ _ _ _ (by decide) (by decide)

theorem State.modeChosen_flashOctal (s : State) (a : FlashAnswer) (ok : Bool) : (s.modeChosen a ok).flashOctal = s.octalChosen a ok := by
  rw [State.flashOctal, State.bit, State.modeChosen_oct]
  cases s.octalChosen a ok <;> rfl

theorem Boot.test_iff (b : Boot) : b.test = true ↔ b.bootMode = 7#3 := beq_iff_eq

/-- Settles O12: each boot step on its own, and the probe by whether the straps skip the slots. -/
theorem bootStepsAdvance : Obligations.BootStepsAdvance := by
  intro s
  refine ⟨?_, fun htest => ?_, fun htest => ?_, fun hload sfdp octal ok => ?_, fun htest wide mixed => ?_⟩
  · refine ⟨_, rfl, ?_⟩
    split
    · exact ⟨rfl, rfl, fun _ => State.setLoadState_loadState _ 7 (by decide), fun h => absurd ‹_› h, rfl⟩
    · exact ⟨rfl, rfl, fun h => absurd h ‹_›, fun _ => rfl, rfl⟩
  · have ht := s.boot.test_iff.mpr htest
    exact ⟨if_pos ht, fun wide mixed => if_pos ht⟩
  · have ht := mt s.boot.test_iff.mp htest
    refine ⟨_, if_neg ht, ?_⟩
    have hlooms (l : Loom) (hl : l ∈ s.looms.map fun l => { l.wiped with firmware := false }) :
        ∃ m ∈ s.looms, l = { m.wiped with firmware := false } := by
      obtain ⟨m, hm, rfl⟩ := List.mem_map.mp hl
      exact ⟨m, hm, rfl⟩
    split
    · exact ⟨fun _ _ => State.setLoadState_loadState _ 1 (by decide), rfl, rfl, rfl, rfl, rfl, rfl, rfl, rfl, rfl, rfl, hlooms, rfl⟩
    · rename_i hstart
      exact ⟨fun hf hl => absurd ⟨hf, htest, hl⟩ hstart, rfl, rfl, rfl, rfl, rfl, rfl, rfl, rfl, rfl, rfl, hlooms, rfl⟩
  · refine ⟨_, exec_flashProbe s ⟨sfdp, octal⟩ ok hload, ?_⟩
    have hoct := s.modeChosen_oct ⟨sfdp, octal⟩ ok
    have hmode := s.modeChosen_flashOctal ⟨sfdp, octal⟩ ok
    by_cases hfactory : s.boot.bootMode = 2#3
    · have hw := (s.modeChosen ⟨sfdp, octal⟩ ok).toFactory_writes
      rw [if_pos hfactory]
      refine ⟨(State.toFactory_loadState _).trans (if_pos hfactory).symm, (State.toFactory_oct _).trans hoct, ?_, fun h => absurd hfactory h, ?_⟩
      · rw [hw.rest, if_pos hfactory, List.append_nil]
        rfl
      · rw [hw.rest]
        rfl
    · obtain ⟨hpb0, hpb1⟩ := (s.modeChosen ⟨sfdp, octal⟩ ok).readPbs_codes ok
      have hread := (s.modeChosen ⟨sfdp, octal⟩ ok).readPbs_eq ok
      have hrd := (s.modeChosen ⟨sfdp, octal⟩ ok).readPbs_rd ok
      rw [if_neg hfactory]
      refine ⟨(State.setLoadState_loadState _ 2 (by decide)).trans (if_neg hfactory).symm, ?_, ?_, fun _ => ⟨?_, ?_⟩, ?_⟩
      · rw [State.fld_setLoadState _ _ _ (by decide), State.fld_of_rd (hrd _ (by decide)), hoct]
        rfl
      · rw [State.setLoadState, State.setFld_out, hread, hmode, if_neg hfactory]
        rfl
      · rw [State.setLoadState, State.fld_setFld_ne _ _ _ _ _ _ (by decide), hpb0]
        rfl
      · rw [State.setLoadState, State.fld_setFld_ne _ _ _ _ _ _ (by decide), hpb1]
        rfl
      · rw [State.setLoadState, hread]
        rfl
  · have ht := mt s.boot.test_iff.mp htest
    refine ⟨_, if_neg ht, ?_, ?_, ?_, rfl, fun e he => ?_, rfl⟩
    · have htrained := State.fld_setFld_of_lt s Reg.DMC_STATUS 1 Reg.DMC_STATUS_TRAINED (by decide) (by decide)
      rw [State.trained, State.bit, State.onMem_fld, State.fld_setFld_other _ _ _ _ _ (by decide), State.fld_setFld_other _ _ _ _ _ (by decide),
        htrained]
      rfl
    · rw [State.onMem_fld, State.fld_setFld_other _ _ _ _ _ (by decide)]
      exact State.fld_setFld_ite _ _ _ _ (by decide) (by decide)
    · rw [State.onMem_fld]
      exact State.fld_setFld_ite _ _ _ _ (by decide) (by decide)
    · obtain ⟨x, -, rfl⟩ := List.mem_map.mp he
      rfl

end Sys2Proof.Machine
end

section
/-! PROOF. The choice of a slot (R96 to R101, R118). -/

namespace Sys2Proof.Machine

/-- What the loader reads of a candidate changes nothing but the requests sent. -/
theorem State.readSlot_eq (s : State) (slot code : Nat) : s.readSlot slot code = { s with out := (s.readSlot slot code).out } := by
  unfold State.readSlot
  extract_lets b n s1
  split
  · rfl
  · refine List.foldlRecOn (motive := fun t : State => t = { s with out := t.out }) _ _ rfl fun t ht a _ => ?_
    rw [ht]
    rfl

/-- Every reason code fits its field of IMG_FAIL (Table 2.17). -/
theorem State.slotCode_lt (s : State) (slot : Nat) (pb : Option Nat) (ok : Bool) : s.slotCode slot pb ok < 16 := by
  unfold State.slotCode
  extract_lets b bit
  iterate 10 refine iteInduction (motive := (· < 16)) (fun _ => by decide) fun _ => ?_
  decide

/-- The field of IMG_FAIL that holds a slot's reason code. -/
def slotFail (slot : Nat) : Field := if slot = 0 then Reg.IMG_FAIL_SLOT_A else Reg.IMG_FAIL_SLOT_B

/-- The state once a candidate has been read and its reason code is reported. -/
def State.slotJudged (s : State) (slot code : Nat) : State :=
  ((s.readSlot slot code).onBoot fun b => { b with tried := b.tried ++ [slot] }).setFld Reg.IMG_FAIL (slotFail slot) code

theorem State.slotJudged_eq (s : State) (slot code : Nat) : s.slotJudged slot code = { s with
    boot := { s.boot with tried := s.boot.tried ++ [slot] }
    out := (s.readSlot slot code).out
    regs := (s.setFld Reg.IMG_FAIL (slotFail slot) code).regs } := by
  rw [State.slotJudged, State.readSlot_eq]
  rfl

theorem exec_slotVerify (s : State) (ok : Bool) (slot : Nat) (pb : Option Nat) (h : s.loadState = 2)
    (hc : s.candidates[s.boot.tried.length]? = some (slot, pb)) : exec (.slotVerify ok) s =
      let u := s.slotJudged slot (s.slotCode slot pb ok)
      if s.slotCode slot pb ok = 0 then .next (u.acceptSlot slot pb)
      else if s.candidates.length ≤ u.boot.tried.length then .next u.toFactory else .next u := by
  change execSlotVerify ok s = _
  rw [execSlotVerify, if_neg (by simp [h]), hc]
  rfl

/-- The registers that report an accepted slot. -/
theorem State.acceptSlot_writes (s : State) (slot : Nat) (pb : Option Nat) :
    (s.onBoot fun b => { b with slot := some slot, netNext := 0, networks := [], loaded := false }).WritesIn
      (fun o => o = Reg.IMG_STATUS ∨ o = Reg.IMG_SEQ ∨ o = Reg.IMG_VERSION) (s.acceptSlot slot pb) :=
  .wr (.wr (.setFld (.setFld (.setFld (.setFld (.setFld (.refl _ _) _ _ _ (.inl rfl)) _ _ _ (.inl rfl)) _ _ _ (.inl rfl)) _ _ _ (.inl rfl))
    _ _ _ (.inl rfl)) _ _ (.inr (.inl rfl))) _ _ (.inr (.inr rfl))

theorem State.acceptSlot_reports (s : State) (slot : Nat) (pb : Option Nat) :
    (s.acceptSlot slot pb).loadState = 3 ∧ (s.acceptSlot slot pb).fld Reg.IMG_STATUS Reg.IMG_STATUS_SLOT = slot % 2 ∧
    (s.acceptSlot slot pb).fld Reg.IMG_STATUS Reg.IMG_STATUS_ORPHAN = (if pb = none then 1 else 0) ∧
    (s.acceptSlot slot pb).fld Reg.IMG_STATUS Reg.IMG_STATUS_SIG_OK = (if s.sigVerifies slot then 1 else 0) ∧
    (s.acceptSlot slot pb).rd Reg.IMG_VERSION = BitVec.ofNat 32 (s.hdr slot 0x0C 4) := by
  have hpb : (if pb.isNone then 1 else 0) = if pb = none then 1 else 0 := by cases pb <;> rfl
  have hother := fun (u : State) (f g : Field) (x : Nat) => State.fld_setFld_other u Reg.IMG_STATUS x f g
  unfold State.loadState State.acceptSlot
  refine ⟨?_, ?_, ?_, ?_, State.rd_wr_self _ _ _⟩ <;> rw [State.fld_wr_ne _ _ _ _ _ (by decide), State.fld_wr_ne _ _ _ _ _ (by decide)]
  · rw [hother _ _ _ _ (by decide), hother _ _ _ _ (by decide), hother _ _ _ _ (by decide), hother _ _ _ _ (by decide)]
    exact State.setLoadState_loadState _ 3 (by decide)
  · rw [hother _ _ _ _ (by decide), hother _ _ _ _ (by decide), hother _ _ _ _ (by decide), State.fld_setFld_self _ _ _ _ (by decide)]
    rfl
  · rw [hother _ _ _ _ (by decide), ← hpb]
    exact State.fld_setFld_ite _ _ _ _ (by decide) (by decide)
  · exact State.fld_setFld_ite _ _ _ _ (by decide) (by decide)

theorem State.slotJudged_fail (s : State) (slot : Nat) (pb : Option Nat) (ok : Bool) :
    (s.slotJudged slot (s.slotCode slot pb ok)).fld Reg.IMG_FAIL (slotFail slot) = s.slotCode slot pb ok := by
  refine State.fld_setFld_of_lt _ _ _ _ ?_ ?_
  · unfold slotFail; split <;> decide
  · unfold slotFail; split <;> exact s.slotCode_lt slot pb ok

theorem State.slotJudged_loadState (s : State) (slot code : Nat) : (s.slotJudged slot code).loadState = s.loadState := by
  rw [State.slotJudged_eq]
  exact State.fld_setFld_ne s _ _ _ _ _ (by decide)

/-- What holds of a judged slot whatever status registers are written next. -/
theorem State.WritesIn.of_slotJudged {s t : State} {slot code : Nat}
    (h : (s.slotJudged slot code).WritesIn (fun o => o = Reg.IMG_STATUS ∨ o = Reg.IMG_SEQ ∨ o = Reg.IMG_VERSION) t) :
    t.out = (s.readSlot slot code).out ∧ t.boot = { s.boot with tried := s.boot.tried ++ [slot] } ∧
    t.fld Reg.IMG_FAIL (slotFail slot) = (s.slotJudged slot code).fld Reg.IMG_FAIL (slotFail slot) ∧
    t = { s with boot := t.boot, regs := t.regs, out := t.out } := by
  refine ⟨?_, ?_, h.fld _ _ (by decide), ?_⟩ <;> rw [h.rest, s.slotJudged_eq]

/-- Settles O13: after its code is reported a candidate is accepted, or the defaults run, or the next one is to be tried. -/
theorem slotsAreTriedInOrder : Obligations.SlotsAreTriedInOrder := by
  intro s ok hload
  refine ⟨fun hnone => ?_, fun slot pb hsome => ?_⟩
  · have hexec : exec (.slotVerify ok) s = .next s.toFactory := by
      change execSlotVerify ok s = _
      rw [execSlotVerify, if_neg (by simp [hload]), hnone]
    exact ⟨_, hexec, s.toFactory_loadState, s.toFactory_writes.rest⟩
  · intro code
    have hjudged := s.slotJudged_eq slot code
    have hfail := s.slotJudged_fail slot pb ok
    have hexec := exec_slotVerify s ok slot pb hload hsome
    by_cases hcode : code = 0
    · have hw := (s.slotJudged slot code).acceptSlot_writes slot pb
      obtain ⟨hst, hslot, horphan, hsig, hversion⟩ := (s.slotJudged slot code).acceptSlot_reports slot pb
      refine ⟨_, hexec.trans (if_pos hcode), ?_, ?_, (hw.fld _ _ (by decide)).trans hfail, ?_,
        fun _ => ⟨hst, ?_, hslot, horphan, ?_, ?_⟩, fun h => absurd hcode h⟩
      · rw [hw.rest, hjudged]; rfl
      · rw [hw.rest, hjudged]; rfl
      · rw [hw.rest, hjudged]; rfl
      · rw [hw.rest, hjudged]; rfl
      · rw [hsig, hjudged]; rfl
      · rw [hversion, hjudged]; rfl
    · have hrejected := hexec.trans (if_neg hcode)
      rw [show (s.slotJudged slot code).boot.tried.length = s.boot.tried.length + 1 by rw [hjudged]; simp] at hrejected
      by_cases hlast : s.candidates.length ≤ s.boot.tried.length + 1
      · obtain ⟨hout, hboot, hfld, hrest⟩ := (s.slotJudged slot code).toFactory_writes.of_slotJudged
        exact ⟨_, hrejected.trans (if_pos hlast), hout, congrArg Boot.tried hboot, hfld.trans hfail, hrest, fun h => absurd h hcode,
          fun _ => ⟨by rw [hboot], by rw [if_pos hlast, State.toFactory_loadState]⟩⟩
      · obtain ⟨hout, hboot, -, hrest⟩ := (State.WritesIn.refl _ (s.slotJudged slot code)).of_slotJudged
        exact ⟨_, hrejected.trans (if_neg hlast), hout, congrArg Boot.tried hboot, hfail, hrest, fun h => absurd h hcode,
          fun _ => ⟨by rw [hboot], by rw [if_neg hlast, State.slotJudged_loadState, hload]⟩⟩

end Sys2Proof.Machine
end

section
/-! PROOF. Flash commands (R111, R116, Table 2.19). -/

namespace Sys2Proof.Machine

/-! Tables. -/

theorem tblGet_filter {α : Type} (d : Nat → α) (t : Tbl α) (p : Nat → Bool) (a : Nat) :
    tblGet d (t.filter fun e => p e.1) a = if p a then tblGet d t a else d a := by
  induction t with
  | nil => simp [tblGet]
  | cons e t ih =>
    rw [List.filter_cons]
    by_cases he : e.1 = a
    · subst he
      by_cases hp : p e.1 = true <;> simp_all [tblGet]
    · by_cases hp : p e.1 = true <;> simp_all [tblGet]

theorem tblGet_tblSetList {α : Type} [DecidableEq α] (d : Nat → α) (l : List α) (t : Tbl α) (k a : Nat) :
    tblGet d (tblSetList d t k l) a = if h : k ≤ a ∧ a < k + l.length then l[a - k]'(by omega) else tblGet d t a := by
  induction l generalizing t k with
  | nil => rw [dif_neg (by rw [List.length_nil]; omega)]; rfl
  | cons v l ih =>
    rw [tblSetList, ih, tblGet_tblSet]
    simp only [List.length_cons]
    rcases Nat.lt_trichotomy a k with h | rfl | h
    · rw [dif_neg (by omega), dif_neg (by omega), if_neg (by omega)]
    · rw [dif_neg (by omega), dif_pos (by omega), if_pos rfl]
      simp
    · rw [if_neg (by omega)]
      obtain ⟨n, rfl⟩ : ∃ n, a = k + 1 + n := ⟨a - (k + 1), by omega⟩
      have e : k + 1 + n - k = n + 1 := by omega
      by_cases hn : n < l.length
      · rw [dif_pos (by omega), dif_pos (by omega)]
        simp [e]
      · rw [dif_neg (by omega), dif_neg (by omega)]

theorem tblGetList_eq_map {α : Type} (d : Nat → α) (t : Tbl α) (k n : Nat) :
    tblGetList d t k n = (List.range n).map fun i => tblGet d t (k + i) := by
  induction n generalizing k with
  | zero => rfl
  | succ n ih =>
    rw [tblGetList, ih, List.range_succ_eq_map, List.map_cons, List.map_map]
    simp only [Function.comp_def, Nat.add_zero, Nat.succ_eq_add_one, Nat.add_assoc, Nat.add_comm 1]

/-- Registers written in a row, at offsets that differ: each reads what was written to it. -/
theorem State.rd_foldl_wr (f : Nat → Nat) (g : Nat → Word) (hf : Function.Injective f) (l : List Nat) (s : State) (k : Nat) (h : k ∈ l) :
    (l.foldl (fun t k => t.wr (f k) (g k)) s).rd (f k) = g k := by
  induction l generalizing s with
  | nil => exact absurd h (by simp)
  | cons x l ih =>
    by_cases hk : k ∈ l
    · exact ih _ hk
    · obtain rfl : k = x := by simpa [hk] using h
      have hw : ((s.wr (f k) (g k))).WritesIn (fun o => ∃ x ∈ l, o = f x) (l.foldl (fun t k => t.wr (f k) (g k)) (s.wr (f k) (g k))) :=
        .foldl _ _ (fun u x hx => .wr (.refl _ u) _ _ ⟨x, hx, rfl⟩) (.refl _ _)
      rw [List.foldl_cons, hw.rd _ fun ⟨x, hx, e⟩ => hk (hf e ▸ hx), State.rd_wr_self]

/-! What a completed command leaves. -/

theorem State.flashByte_flashStore (s : State) (b a : Nat) (l : List Byte) :
    (s.flashStore b l).flashByte a = if h : b ≤ a ∧ a < b + l.length then l[a - b]'(by omega) else s.flashByte a :=
  tblGet_tblSetList _ l s.boot.flash b a

/-- The bytes a command's block holds. -/
def FlashCmd.size (c : FlashCmd) : Nat := if c.op = 3 then 4096 else if c.op = 4 then 65536 else 256

section
variable (s : State) (c : FlashCmd)

theorem State.flashEffect_of_read (failed : Bool) (h : c.op = 1) : s.flashEffect c failed =
    (List.range 64).foldl (fun t k => t.wr (Reg.IMG_FL_DATA k) (BitVec.ofNat 32 (s.flashNat (c.addr + 4 * k) 4))) s := if_pos h

theorem State.flashEffect_of_failed (h : c.op ≠ 1) : s.flashEffect c true =
    s.nextFree.2.flashStore c.addr ((List.range c.size).map fun i => Config.flashFailed s.free (c.addr + i)) := if_neg h

theorem State.flashEffect_of_program (h : c.op = 2) : s.flashEffect c false =
    s.flashStore c.addr (((s.flashBytes c.addr 256).zip c.data).map fun x => x.1 &&& x.2) := by
  rw [State.flashEffect, if_neg (by omega), if_neg nofun, if_pos h]

theorem State.flashEffect_of_erase (h1 : c.op ≠ 1) (h2 : c.op ≠ 2) : s.flashEffect c false =
    s.onBoot fun b => { b with flash := b.flash.filter fun e => !(decide (c.addr ≤ e.1) && decide (e.1 < c.addr + c.size)) } := by
  rw [State.flashEffect, if_neg h1, if_neg nofun, if_neg h2]
  rfl

/-- The window takes what a read brings, and no other register changes. -/
theorem State.flashEffect_read_writes (failed : Bool) (h : c.op = 1) :
    s.WritesIn (fun o => ∃ k ∈ List.range 64, o = Reg.IMG_FL_DATA k) (s.flashEffect c failed) := by
  rw [State.flashEffect_of_read s c failed h]
  exact .foldl _ _ (fun u x hx => .wr (.refl _ u) _ _ ⟨x, hx, rfl⟩) (.refl _ s)

theorem State.flashEffect_read_rd (failed : Bool) (h : c.op = 1) (k : Nat) (hk : k < 64) :
    (s.flashEffect c failed).rd (Reg.IMG_FL_DATA k) = BitVec.ofNat 32 (s.flashNat (c.addr + 4 * k) 4) := by
  rw [State.flashEffect_of_read s c failed h]
  refine State.rd_foldl_wr Reg.IMG_FL_DATA _ (fun a b e => ?_) _ s k (List.mem_range.mpr hk)
  simp only [Reg.IMG_FL_DATA] at e
  omega

/-- A command changes the flash alone, and a read the window alone. -/
theorem State.flashEffect_eq (failed : Bool) : s.flashEffect c failed =
    { s with boot := { s.boot with flash := (s.flashEffect c failed).boot.flash }, regs := (s.flashEffect c failed).regs
             free := (s.flashEffect c failed).free } := by
  by_cases h1 : c.op = 1
  · rw [(s.flashEffect_read_writes c failed h1).rest]
  cases failed
  case true => rw [s.flashEffect_of_failed c h1]; rfl
  case false =>
    by_cases h2 : c.op = 2
    · rw [s.flashEffect_of_program c h2]; rfl
    · rw [s.flashEffect_of_erase c h1 h2]; rfl

/-- A program or an erase leaves the bytes outside its block as they were, whatever it leaves inside. -/
theorem State.flashByte_flashEffect_outside (failed : Bool) (h1 : c.op ≠ 1) (h2 : c.op = 2 → c.data.length = 256) (a : Nat)
    (ha : ¬(c.addr ≤ a ∧ a < c.addr + c.size)) : (s.flashEffect c failed).flashByte a = s.flashByte a := by
  cases failed
  case true =>
    rw [s.flashEffect_of_failed c h1, State.flashByte_flashStore, dif_neg (by simpa using ha)]
    rfl
  case false =>
    by_cases hp : c.op = 2
    · have hlen : (((s.flashBytes c.addr 256).zip c.data).map fun x => x.1 &&& x.2).length = 256 := by
        simp [State.flashBytes, tblGetList_eq_map, h2 hp]
      have hsize : c.size = 256 := by rw [FlashCmd.size, if_neg (by omega), if_neg (by omega)]
      rw [s.flashEffect_of_program c hp, State.flashByte_flashStore, dif_neg (by rw [hlen, ← hsize]; exact ha)]
    · rw [s.flashEffect_of_erase c h1 hp]
      refine (tblGet_filter _ s.boot.flash (fun b => !(decide (c.addr ≤ b) && decide (b < c.addr + c.size))) a).trans (if_pos ?_)
      rw [← Bool.decide_and, decide_eq_false ha]
      rfl

/-- A program clears bits. -/
theorem State.flashByte_program (h : c.op = 2) (hd : c.data.length = 256) (a : Nat) (h1 : c.addr ≤ a) (h2 : a < c.addr + 256) :
    (s.flashEffect c false).flashByte a = s.flashByte a &&& c.data.getD (a - c.addr) 0#8 := by
  rw [s.flashEffect_of_program c h, State.flashByte_flashStore, dif_pos (by simp [State.flashBytes, tblGetList_eq_map, hd]; omega)]
  have hi : a - c.addr < c.data.length := by omega
  simp [State.flashBytes, tblGetList_eq_map, State.flashByte, hi, Nat.add_sub_cancel' h1]

/-- An erase leaves 0xFF (log 13). -/
theorem State.flashByte_erase (h : c.op = 3 ∨ c.op = 4) (a : Nat) (h1 : c.addr ≤ a) (h2 : a < c.addr + c.size) :
    (s.flashEffect c false).flashByte a = 0xFF#8 := by
  rw [s.flashEffect_of_erase c (by omega) (by omega)]
  refine (tblGet_filter _ s.boot.flash (fun b => !(decide (c.addr ≤ b) && decide (b < c.addr + c.size))) a).trans (if_neg ?_)
  simp [h1, h2]

end

/-! FLASH_READ, FLASH_PROGRAM, FLASH_ERASE_4K and FLASH_ERASE_64K. -/

/-- A command that is refused sets REFUSED, and one that is taken sets BUSY and sends its request. -/
theorem State.flashCmd_taken (s : State) (op align : Nat) (hal : align = if op = 3 then 4096 else if op = 4 then 65536 else 256)
    (h : s.boot.held = false) :
    let t := s.flashCmd op
    let a := (s.rd Reg.IMG_FL_ADDR).toNat
    t.boot.flash = s.boot.flash ∧
    (if (1 ≤ s.loadState ∧ s.loadState ≤ 4) ∨ s.boot.flCmd ≠ none ∨ a % align ≠ 0 then
      t.fld Reg.IMG_FL_STATUS Reg.IMG_FL_STATUS_REFUSED = 1 ∧ t = { s with regs := t.regs }
    else t.fld Reg.IMG_FL_STATUS Reg.IMG_FL_STATUS_BUSY = 1 ∧
      t = { s with regs := t.regs, out := t.out, boot := { s.boot with flCmd := some ⟨op, a, s.flWindow⟩ } } ∧
      t.out = s.out ++ [⟨s.trd.cclk, .flash s.flashOctal
        (if op = 1 then .read a 256 else if op = 2 then .program a s.flWindow else .erase a align)⟩]) ∧
    ∀ o, o ≠ Reg.IMG_FL_STATUS → t.rd o = s.rd o := by
  intro t a
  have hcmd : t = if (1 ≤ s.loadState ∧ s.loadState ≤ 4) ∨ s.boot.flCmd.isSome = true ∨ a % align ≠ 0 then
      s.setFld Reg.IMG_FL_STATUS Reg.IMG_FL_STATUS_REFUSED 1
    else ((s.flashReq (if op = 1 then .read a 256 else if op = 2 then .program a s.flWindow else .erase a align)).onBoot fun b =>
      { b with flCmd := some ⟨op, a, s.flWindow⟩ }).setFld Reg.IMG_FL_STATUS Reg.IMG_FL_STATUS_BUSY 1 := by
    rw [hal]
    exact if_neg (by simp [h])
  simp only [Option.isSome_iff_ne_none] at hcmd
  by_cases hrefused : (1 ≤ s.loadState ∧ s.loadState ≤ 4) ∨ s.boot.flCmd ≠ none ∨ a % align ≠ 0
  · rw [if_pos hrefused] at hcmd ⊢
    rw [hcmd]
    exact ⟨rfl, ⟨State.fld_setFld_self _ _ _ _ (by decide), rfl⟩, fun o ho => State.rd_setFld_ne _ _ _ _ _ ho⟩
  · rw [if_neg hrefused] at hcmd ⊢
    rw [hcmd]
    exact ⟨rfl, ⟨State.fld_setFld_self _ _ _ _ (by decide), rfl, rfl⟩, fun o ho => State.rd_setFld_ne _ _ _ _ _ ho⟩

/-! FLASH_COMMAND_DONE. -/

/-- The state after the end of a command: its effect, with nothing under way, BUSY clear, and ERROR set where a program or an erase failed. -/
def State.flashCmdEnded (s : State) (c : FlashCmd) (failed : Bool) : State :=
  let u := ((s.flashEffect c failed).onBoot fun b => { b with flCmd := none }).setFld Reg.IMG_FL_STATUS Reg.IMG_FL_STATUS_BUSY 0
  if failed = true ∧ c.op ≠ 1 then u.setFld Reg.IMG_FL_STATUS Reg.IMG_FL_STATUS_ERROR 1 else u

theorem State.flashCmdEnded_writes (s : State) (c : FlashCmd) (failed : Bool) :
    ((s.flashEffect c failed).onBoot fun b => { b with flCmd := none }).WritesIn (· = Reg.IMG_FL_STATUS) (s.flashCmdEnded c failed) := by
  unfold State.flashCmdEnded
  extract_lets u
  have hu : ((s.flashEffect c failed).onBoot fun b => { b with flCmd := none }).WritesIn (· = Reg.IMG_FL_STATUS) u :=
    (State.WritesIn.refl _ _).setFld _ _ _ rfl
  split
  · exact hu.setFld _ _ _ rfl
  · exact hu

theorem State.flashCmdEnded_busy (s : State) (c : FlashCmd) (failed : Bool) :
    (s.flashCmdEnded c failed).fld Reg.IMG_FL_STATUS Reg.IMG_FL_STATUS_BUSY = 0 := by
  unfold State.flashCmdEnded
  extract_lets u
  have hu : u.fld Reg.IMG_FL_STATUS Reg.IMG_FL_STATUS_BUSY = 0 := State.fld_setFld_self _ _ _ _ (by decide)
  split
  · rw [State.fld_setFld_other _ _ _ _ _ (by decide), hu]
  · exact hu

theorem State.flashByte_flashCmdEnded (s : State) (c : FlashCmd) (failed : Bool) (a : Nat) :
    (s.flashCmdEnded c failed).flashByte a = (s.flashEffect c failed).flashByte a := by
  rw [(s.flashCmdEnded_writes c failed).rest]
  rfl

theorem exec_flashCommandDone (s : State) (c : FlashCmd) (failed : Bool) (hc : s.boot.flCmd = some c) (hp : s.pwr.patrol = none) :
    exec (.flashCommandDone failed) s = .next (s.flashCmdEnded c failed) := by
  change execFlashCommandDone failed s = _
  simp only [execFlashCommandDone, hc, hp]
  rfl

theorem exec_flashCommandDone_idle (s : State) (failed : Bool) (h : s.boot.flCmd = none ∨ s.pwr.patrol ≠ none) :
    exec (.flashCommandDone failed) s = .next s := by
  change execFlashCommandDone failed s = _
  unfold execFlashCommandDone
  split
  · rfl
  · have hp : s.pwr.patrol.isSome = true := Option.isSome_iff_ne_none.mpr (h.resolve_left (by simp [*]))
    exact congrArg _ (if_pos hp)

/-- Settles O16: a command at its write, and at its end by what it does to the flash. -/
theorem flashCommandsAct : Obligations.FlashCommandsAct := by
  intro s
  refine ⟨fun c op align hmem => ?_, fun h failed => exec_flashCommandDone_idle s failed h, fun f failed hc hp => ?_⟩
  · have hcmd : exec c s = .next (s.flashCmd op) ∧ align = if op = 3 then 4096 else if op = 4 then 65536 else 256 := by
      simp only [List.mem_cons, Prod.mk.injEq, List.not_mem_nil, or_false] at hmem
      rcases hmem with ⟨rfl, rfl, rfl⟩ | ⟨rfl, rfl, rfl⟩ | ⟨rfl, rfl, rfl⟩ | ⟨rfl, rfl, rfl⟩ <;> exact ⟨rfl, rfl⟩
    obtain ⟨hexec, halign⟩ := hcmd
    exact ⟨fun hheld => hexec.trans (congrArg _ (if_pos hheld)), fun hheld => ⟨_, hexec, s.flashCmd_taken op align halign hheld⟩⟩
  · have hw := s.flashCmdEnded_writes f failed
    have hbyte := s.flashByte_flashCmdEnded f failed
    have heff := s.flashEffect_eq f failed
    have hboot : (s.flashCmdEnded f failed).boot = { s.boot with flCmd := none, flash := (s.flashCmdEnded f failed).boot.flash } := by
      rw [hw.rest, heff]
      rfl
    have hsize (h : f.op = 2) : f.size = 256 := by rw [FlashCmd.size, if_neg (by omega), if_neg (by omega)]
    refine ⟨_, exec_flashCommandDone s f failed hc hp, hboot, s.flashCmdEnded_busy f failed, fun hf h1 => ?_, fun h1 => ⟨?_, fun k hk => ?_⟩,
      fun h2 hf hd a ha hb => ?_, fun h3 hf a ha hb => ?_, fun h2 hd a ha => ?_, fun h3 a ha => ?_, ?_⟩
    · rw [State.flashCmdEnded, if_pos ⟨hf, h1⟩]
      exact State.fld_setFld_self _ _ _ _ (by decide)
    · rw [hw.rest, (s.flashEffect_read_writes f failed h1).rest]
      rfl
    · rw [hw.rd _ (by simp only [Reg.IMG_FL_DATA, Reg.IMG_FL_STATUS]; omega)]
      exact s.flashEffect_read_rd f failed h1 k hk
    · rw [hbyte, hf]
      exact s.flashByte_program f h2 hd a ha hb
    · rw [hbyte, hf]
      exact s.flashByte_erase f h3 a ha hb
    · rw [hbyte]
      exact s.flashByte_flashEffect_outside f failed (by omega) (fun _ => hd) a (by rwa [hsize h2])
    · rw [hbyte]
      exact s.flashByte_flashEffect_outside f failed (by omega) (fun h2 => absurd h2 (by omega)) a ha
    · rw [hw.rest, heff]
      rfl

end Sys2Proof.Machine
end

section
/-! PROOF. The loading of NETWORK sections (R69, R102). -/

namespace Sys2Proof.Machine

/-! A store in DRAM. -/

theorem State.dramStore_eq (s : State) (pa : Nat) (l : List Byte) : s.dramStore pa l = { s with mem := (s.dramStore pa l).mem } := by
  induction l generalizing s pa with
  | nil => rfl
  | cons b l ih => rw [State.dramStore, ih]; rfl

/-- What a store leaves of the memory depends on the memory alone. -/
theorem State.dramStore_mem_congr {s t : State} (h : t.mem = s.mem) (pa : Nat) (l : List Byte) :
    (t.dramStore pa l).mem = (s.dramStore pa l).mem := by
  induction l generalizing s t pa with
  | nil => exact h
  | cons b l ih =>
    rw [State.dramStore, State.dramStore]
    exact ih (by simp only [State.onMem_mem, State.setGranule, h]) _

/-! The reports. -/

/-- The registers that report the networks by their stage and factor (Table 8.10). -/
abbrev netReport (o : Nat) : Prop := 0xB0100 ≤ o ∧ o ≤ 0xB0130

theorem netReport_valid (st : Nat) (h : st ≤ 5) : netReport (Reg.PIC_NET_VALID st) := by
  simp only [netReport, Reg.PIC_NET_VALID]; omega

theorem netReport_ups (f : Nat) (h : f ≤ 4) : netReport (Reg.PIC_UPS_VALID f) := by
  simp only [netReport, Reg.PIC_UPS_VALID]; omega

theorem State.reportNets_writes (s : State) (factor : Nat) : s.WritesIn netReport (s.reportNets factor) := by
  unfold State.reportNets
  extract_lets of_ s1
  have h1 : s.WritesIn netReport s1 :=
    .foldl _ _ (fun u st hst => .setFld (.refl _ u) _ _ _ (netReport_valid st (by simp at hst; omega))) (.refl _ s)
  exact h1.trans (.foldl _ _ (fun u f hf => .setFld (.refl _ u) _ _ _ (netReport_ups f (by simp at hf; omega))) (.refl _ s1))

theorem State.reportBad_writes (s : State) (n : Network) : s.WritesIn netReport (s.reportBad n) := by
  unfold State.reportBad
  extract_lets mark s1
  have h1 : s.WritesIn netReport s1 := by
    unfold s1
    split
    · exact (State.WritesIn.refl _ s).setFld _ _ _ (netReport_valid _ (by omega))
    · exact .refl _ s
  split
  · exact h1.setFld _ _ _ (netReport_ups _ (by omega))
  · exact h1

/-- A section whose hash fails is flagged and counted, and its network reported where it has a header (R102). -/
def State.flagBad (s : State) (h : Option Network) : State :=
  let u := (s.setFld Reg.IMG_STATUS Reg.IMG_STATUS_NET_BAD 1).bump Reg.IMG_NET_BAD_CNT
  match h with
  | some n => u.reportBad n
  | none => u

theorem State.flagBad_writes (s : State) (h : Option Network) :
    ((s.setFld Reg.IMG_STATUS Reg.IMG_STATUS_NET_BAD 1).bump Reg.IMG_NET_BAD_CNT).WritesIn netReport (s.flagBad h) := by
  cases h with
  | none => exact .refl _ _
  | some n => exact State.reportBad_writes _ n

theorem State.flagBad_netBad (s : State) (h : Option Network) : (s.flagBad h).fld Reg.IMG_STATUS Reg.IMG_STATUS_NET_BAD = 1 := by
  rw [(s.flagBad_writes h).fld _ _ (by decide), State.fld_bump_ne _ _ _ _ (by decide)]
  exact State.fld_setFld_self _ _ _ _ (by decide)

theorem State.flagBad_cnt (s : State) (h : Option Network) :
    (s.flagBad h).rd Reg.IMG_NET_BAD_CNT = counted (s.rd Reg.IMG_NET_BAD_CNT) := by
  rw [(s.flagBad_writes h).rd _ (by decide), State.rd_bump_self, State.rd_setFld_ne _ _ _ _ _ (by decide)]

theorem State.flagBad_loadState (s : State) (h : Option Network) : (s.flagBad h).loadState = s.loadState := by
  rw [State.loadState, (s.flagBad_writes h).fld _ _ (by decide), State.fld_bump_ne _ _ _ _ (by decide)]
  exact State.fld_setFld_other _ _ _ _ _ (by decide)

/-! NETWORK_SECTION_LOADED. -/

/-- The state once a section has streamed into DRAM, and is used where it is good. -/
def State.sectionStreamed (s : State) (slot i : Nat) (x : Section) (ok last : Bool) : State :=
  let bytes := s.streamed slot x ok
  (((if ok then s else s.nextFree.2).flashReq (.read (slotBase slot + x.offset) x.length)).dramStore x.load bytes).onBoot fun b => { b with
    netNext := b.netNext + 1
    networks := b.networks ++ (if ok && s.hashOk slot i x then (networkHeader i x.load bytes).toList else [])
    loaded := last }

/-- The state once the section's hash has been judged. -/
def State.sectionJudged (s : State) (slot i : Nat) (x : Section) (ok last : Bool) : State :=
  let u := s.sectionStreamed slot i x ok last
  if ok && s.hashOk slot i x then u.reportNets u.pic.admitNow.factor else u.flagBad (networkHeader i x.load (s.streamed slot x ok))

theorem exec_networkSectionLoaded (s : State) (ok : Bool) (slot i : Nat) (x : Section) (rest : List (Nat × Section)) (ht : s.trained = true)
    (hl : s.loadState = 3 ∨ s.loadState = 4) (hslot : s.boot.slot = some slot) (hnext : s.netSections.drop s.boot.netNext = (i, x) :: rest) :
    exec (.networkSectionLoaded ok) s = .next (
      let u := s.sectionJudged slot i x ok rest.isEmpty
      if rest.isEmpty = true ∧ u.loadState = 4 then u.loadDone else u) := by
  change execNetworkSectionLoaded ok s = _
  unfold execNetworkSectionLoaded
  rw [if_neg fun h => h.elim (by simp [ht]) fun ⟨h3, h4⟩ => hl.elim h3 h4, hnext, hslot]
  rfl

theorem State.sectionStreamed_eq (s : State) (slot i : Nat) (x : Section) (ok last : Bool) : s.sectionStreamed slot i x ok last = { s with
    boot := { s.boot with
      netNext := s.boot.netNext + 1
      networks := s.boot.networks ++ (if ok && s.hashOk slot i x then (networkHeader i x.load (s.streamed slot x ok)).toList else [])
      loaded := last }
    mem := (s.dramStore x.load (s.streamed slot x ok)).mem
    out := s.out ++ [⟨s.trd.cclk, .flash s.flashOctal (.read (slotBase slot + x.offset) x.length)⟩]
    free := s.free + if ok then 0 else 1 } := by
  unfold State.sectionStreamed
  extract_lets bytes
  rw [State.dramStore_eq, State.dramStore_mem_congr (s := s) (by cases ok <;> rfl)]
  cases ok <;> rfl

/-- The end of the load: LOADED, and an admission begins. -/
theorem State.loadDone_eq (s : State) : s.loadDone = { s with regs := s.loadDone.regs, pic := s.loadDone.pic } ∧ s.loadDone.loadState = 5 ∧
    (∀ g : Field, 3 ≤ g.lo → s.loadDone.fld Reg.IMG_STATUS g = s.fld Reg.IMG_STATUS g) ∧
    s.loadDone.rd Reg.IMG_NET_BAD_CNT = s.rd Reg.IMG_NET_BAD_CNT := by
  refine ⟨rfl, ?_, fun g hg => ?_, ?_⟩
  · rw [State.loadState, State.loadDone, State.fld_setFld_ne _ _ _ _ _ _ (by decide), State.onPic_fld]
    exact s.setLoadState_loadState 5 (by decide)
  · rw [State.loadDone, State.fld_setFld_ne _ _ _ _ _ _ (by decide), State.onPic_fld]
    exact s.fld_setLoadState 5 g hg
  · rw [State.loadDone, State.rd_setFld_ne _ _ _ _ _ (by decide), State.onPic_rd]
    exact State.rd_setFld_ne _ _ _ _ _ (by decide)

section
variable (s : State) (slot i : Nat) (x : Section) (ok last : Bool)

/-- Judging a section writes the reports alone. -/
theorem State.sectionJudged_rest : s.sectionJudged slot i x ok last =
    { s.sectionStreamed slot i x ok last with regs := (s.sectionJudged slot i x ok last).regs } := by
  unfold State.sectionJudged
  extract_lets u
  split
  · exact (State.reportNets_writes _ _).rest
  · rw [(State.flagBad_writes u _).rest, (((State.TreadleOnly.refl u).setFld _ _ _).bump _).regsOnly (by simp)]

theorem State.sectionJudged_loadState : (s.sectionJudged slot i x ok last).loadState = s.loadState := by
  have hstreamed : (s.sectionStreamed slot i x ok last).loadState = s.loadState := by rw [State.sectionStreamed_eq]; rfl
  unfold State.sectionJudged
  extract_lets u
  split
  · exact ((State.reportNets_writes u _).fld _ _ (by decide)).trans hstreamed
  · exact (State.flagBad_loadState u _).trans hstreamed

theorem State.sectionJudged_good (h : (ok && s.hashOk slot i x) = true) :
    (s.sectionJudged slot i x ok last).rd Reg.IMG_NET_BAD_CNT = s.rd Reg.IMG_NET_BAD_CNT := by
  rw [State.sectionJudged, if_pos h, (State.reportNets_writes _ _).rd _ (by decide), State.sectionStreamed_eq]
  rfl

theorem State.sectionJudged_bad (h : (ok && s.hashOk slot i x) = false) :
    (s.sectionJudged slot i x ok last).fld Reg.IMG_STATUS Reg.IMG_STATUS_NET_BAD = 1 ∧
    (s.sectionJudged slot i x ok last).rd Reg.IMG_NET_BAD_CNT = counted (s.rd Reg.IMG_NET_BAD_CNT) := by
  rw [State.sectionJudged, if_neg (by simp [h])]
  refine ⟨State.flagBad_netBad _ _, (State.flagBad_cnt _ _).trans ?_⟩
  rw [State.sectionStreamed_eq]
  rfl

end

/-- After the last section that streams the load is done, which leaves what the section's judging reports. -/
theorem State.loadDone_if (s : State) (c : Prop) [Decidable c] :
    let t := if c then s.loadDone else s
    t = { s with regs := t.regs, pic := t.pic } ∧ t.loadState = (if c then 5 else s.loadState) ∧
    t.fld Reg.IMG_STATUS Reg.IMG_STATUS_NET_BAD = s.fld Reg.IMG_STATUS Reg.IMG_STATUS_NET_BAD ∧
    t.rd Reg.IMG_NET_BAD_CNT = s.rd Reg.IMG_NET_BAD_CNT := by
  obtain ⟨hrest, hstate, hfld, hcnt⟩ := s.loadDone_eq
  dsimp only
  split
  · exact ⟨hrest, hstate, hfld _ (by decide), hcnt⟩
  · exact ⟨rfl, rfl, rfl, rfl⟩

/-- Settles O15: a section streams in, its hash is judged, and after the last one that follows the commit the load is done. -/
theorem networkSectionsLoad : Obligations.NetworkSectionsLoad := by
  intro s ok slot i x rest ht hl hslot hnext bytes good
  have hexec := exec_networkSectionLoaded s ok slot i x rest ht hl hslot hnext
  have hrest := s.sectionJudged_rest slot i x ok rest.isEmpty
  rw [s.sectionStreamed_eq] at hrest
  have hstate := s.sectionJudged_loadState slot i x ok rest.isEmpty
  have hgood := s.sectionJudged_good slot i x ok rest.isEmpty
  have hbad := s.sectionJudged_bad slot i x ok rest.isEmpty
  dsimp only at hexec
  generalize s.sectionJudged slot i x ok rest.isEmpty = u at *
  obtain ⟨hend, hload, hnetBad, hcnt⟩ := u.loadDone_if (rest.isEmpty = true ∧ u.loadState = 4)
  generalize (if rest.isEmpty = true ∧ u.loadState = 4 then u.loadDone else u) = t at *
  rw [hrest] at hend
  refine ⟨t, hexec, by rw [hend], by rw [hend], by rw [hend], by rw [hend], fun h => ⟨?_, hnetBad.trans (hbad h).1, hcnt.trans (hbad h).2⟩,
    fun h => ⟨?_, hcnt.trans (hgood h)⟩, ?_, by rw [hend]⟩
  · rw [hend]
    exact (congrArg (s.boot.networks ++ ·) (if_neg (Bool.eq_false_iff.mp h))).trans (List.append_nil _)
  · rw [hend]
    exact congrArg (s.boot.networks ++ ·) (if_pos h)
  · rw [hload, hstate]
    simp only [List.isEmpty_iff]

end Sys2Proof.Machine
end

section
/-! PROOF. The commit of a device whose sequence engine is enabled (R107, R591, R602). -/

namespace Sys2Proof.Machine

/-! The ladder and the reservation leave the Treadle as it is. -/

theorem State.TreadleKept.onPwr {s t : State} (h : s.TreadleKept t) (f : Pwr → Pwr) : s.TreadleKept (t.onPwr f) :=
  h.trans ⟨⟨rfl, rfl, rfl, rfl, rfl, rfl, rfl, rfl⟩, rfl, rfl⟩

theorem State.switchOn_kept (s : State) (ps : List Nat) : s.TreadleKept (s.switchOn ps) := by
  unfold State.switchOn
  extract_lets off start us s1
  have h1 : s.TreadleKept s1 := by
    refine State.TreadleKept.foldl _ (fun u x => ?_) _ (.refl s)
    exact ⟨⟨rfl, rfl, rfl, rfl, rfl, rfl, rfl, rfl⟩, rfl, rfl⟩
  split
  · exact .refl s
  · exact h1.trans ⟨⟨rfl, rfl, rfl, rfl, rfl, rfl, rfl, rfl⟩, rfl, rfl⟩

theorem State.engage_kept (s : State) : s.TreadleKept s.engage := by
  unfold State.engage
  split
  · exact .refl s
  · exact ((State.TreadleKept.refl s).setFld _ _ _).bump _

theorem State.retarget_kept (s : State) : s.TreadleKept s.retarget := ((State.TreadleKept.refl s).onPwr _).setFld _ _ _

theorem State.applyLadder_kept (s : State) : s.TreadleKept (s.applyLadder false) := by
  unfold State.applyLadder
  extract_lets keep back s1 s2 s3
  have h3 : s.TreadleKept s3 := ((((State.TreadleKept.refl s).onLooms _).trans (State.switchOn_kept _ _)).setFld _ _ _).setFld _ _ _
  refine State.TreadleKept.trans ?_ (State.retarget_kept _)
  split
  · exact h3.trans s3.engage_kept
  · exact h3

theorem State.refreshLadder_kept (s : State) : s.TreadleKept s.refreshLadder :=
  ((State.TreadleKept.refl s).onPwr _).trans (State.applyLadder_kept _)

/-- A reservation of no looms takes every loom out of it. -/
theorem State.reserve_zero_kept (s : State) : s.TreadleKept (s.reserve 0) := by
  unfold State.reserve
  rw [Nat.sub_zero, List.drop_length]
  exact (State.TreadleKept.refl s).onLooms _

/-! READY. -/

theorem State.landSlotCtl_cclk (s : State) (n : Nat) (v : Word) : (s.landSlotCtl n v).trd.cclk = s.trd.cclk := by
  have htaken : ((s.plainWrite (Reg.TRD_SLOT_CTL n) v).leaveQueue n).trd.cclk = s.trd.cclk := by
    rw [State.leaveQueue, State.onTrd_trd, State.plainWrite_trd]
  unfold State.landSlotCtl
  extract_lets off s1 c repeating c1
  split
  · exact htaken
  · split
    · rw [State.setFld_trd, State.bump_trd]
      exact htaken
    · exact htaken

theorem State.armSlots_cclk (s : State) : s.armSlots.trd.cclk = s.trd.cclk := by
  unfold State.armSlots
  refine List.foldlRecOn (motive := fun t : State => t.trd.cclk = s.trd.cclk) _ _ rfl fun t ht n _ => ?_
  split
  · rw [State.landSlotCtl_cclk, ht]
  · exact ht

/-- READY is set in the CCLK after the commit's (R107). -/
theorem State.becomeReady_cclk (s : State) (h : s.boot.tripped = false) : s.becomeReady.trd.cclk = s.trd.cclk + 1 := by
  obtain ⟨-, hcclk⟩ := s.tick_trd h
  unfold State.becomeReady
  extract_lets s1 s2
  rw [State.onBoot_trd, s2.armSlots_cclk, ← hcclk]
  unfold s2
  split <;> rfl

theorem State.afterCommit_cclk (s : State) : s.afterCommit.trd.cclk = s.trd.cclk := by
  unfold State.afterCommit
  split
  · exact congrArg Trd.cclk (s.reserve_zero_kept.trans (State.refreshLadder_kept _)).trd
  · split <;> rfl

/-! The commit in parts. -/

/-- Where no slot is armed and none waits there is none to disarm. -/
theorem State.disarmSlots_of_idle (s : State) (hc : s.trd.comps = []) (hq : s.trd.catchq = []) : s.disarmSlots = s := by
  unfold State.disarmSlots
  refine List.foldlRecOn (motive := fun t : State => t = s) _ _ rfl fun t ht n _ => ?_
  subst ht
  split
  · rfl
  · simp only [State.setComp, State.leaveQueue, State.onTrd, hc, hq, tblDel, List.filter_nil]
    rw [← hc, ← hq]

/-- What the commit does before it disarms slots: the registers, the looms, the image region and the wall. -/
def State.commitTaken (s : State) (edid : Option Timing) : State :=
  let recs := s.imageRecords
  let ref := imageBits recs Reg.DMC_REF_CFG
  let s1 := ((s.commitRegs recs edid).bumps Reg.IMG_REC_REJ_CNT (recs.filter RegRecord.rejected).length).onBoot fun b =>
    { b with refImage := (Reg.DMC_REF_CFG_PERIOD.get ref.1 != 0, Reg.DMC_REF_CFG_PERIOD_HOT.get ref.1 != 0) }
  (if s1.boot.committed then s1.denySpares else s1.renumberLooms).setRegion.applyWall

/-- What it does from then on, up to the sequence engine's enable; `s` is the state before the commit. -/
def State.commitSettled (u s : State) : State :=
  ((u.checkRoles.commitPic.startPorts (!s.boot.committed)).onSht fun t => { t with loomLvl := [], tenLvl := [], rasLvl := none }).commitSeq s.kvOn

theorem exec_configCommit (s : State) (edid : Option Timing) (hr : s.bit Reg.HIF_STATUS Reg.HIF_STATUS_READY = false) (ht : s.trained = true)
    (hl : s.loadState = 3 ∨ s.loadState = 6) (hw : s.boot.restartWait = false) : exec (.configCommit edid) s =
      .next ((State.commitSettled (s.commitTaken edid).disarmSlots s).refreshLadder.becomeReady.afterCommit) := by
  change execConfigCommit edid s = _
  rw [execConfigCommit, if_neg (by rcases hl with hl | hl <;> simp [hr, ht, hl, hw])]
  rfl

/-! A commit that stops the engine. -/

/-- A device on the factory defaults, with DRAM trained, whose SEQ_CFG.EN has been set before the commit, as a write of SEQ_CFG sets it. -/
def engineEnabled : State :=
  ((State.reset.setLoadState 6).setFld Reg.DMC_STATUS Reg.DMC_STATUS_TRAINED 1).setFld Reg.SEQ_CFG Reg.SEQ_CFG_EN 1

/-- The device waits for its commit. -/
theorem engineEnabled_waits : engineEnabled.bit Reg.HIF_STATUS Reg.HIF_STATUS_READY = false ∧ engineEnabled.trained = true ∧
    engineEnabled.loadState = 6 ∧ engineEnabled.boot.restartWait = false ∧ engineEnabled.boot.tripped = false ∧
    engineEnabled.trd.cclk = 0 := by decide +kernel

theorem engineEnabled_noSlots : (engineEnabled.commitTaken none).trd.comps = [] ∧ (engineEnabled.commitTaken none).trd.catchq = [] := by
  decide +kernel

/-- The commit gives SEQ_CFG.EN its factory value 0, which stops the engine: the CCLK in which its descriptors end passes (R591). -/
theorem engineEnabled_stops : (State.commitSettled (engineEnabled.commitTaken none) engineEnabled).trd.cclk = 1 ∧
    (State.commitSettled (engineEnabled.commitTaken none) engineEnabled).boot.tripped = false := by decide +kernel

/-- Refutes O14: a commit that takes SEQ_CFG.EN away ends the engine's descriptors in the CCLK after it, and READY is set in the second CCLK
after it, not in the first. -/
theorem not_commitAndDevReset : ¬ Obligations.CommitAndDevReset := by
  intro h
  obtain ⟨hready, htrained, hload, hwait, htrip, hstart⟩ := engineEnabled_waits
  obtain ⟨hcomps, hqueue⟩ := engineEnabled_noSlots
  obtain ⟨hstop, hrun⟩ := engineEnabled_stops
  obtain ⟨t, hexec, -, hcclk, -⟩ := (h engineEnabled).1 none hready htrained (.inr hload) hwait htrip
  have hcommit := exec_configCommit engineEnabled none hready htrained (.inr hload) hwait
  rw [State.disarmSlots_of_idle _ hcomps hqueue, hexec] at hcommit
  have hladder := (State.commitSettled (engineEnabled.commitTaken none) engineEnabled).refreshLadder_kept
  have hlasts : t.trd.cclk = 2 := by
    rw [Host.Outcome.next.inj hcommit, State.afterCommit_cclk, State.becomeReady_cclk _ (by rw [hladder.boot, hrun]), hladder.trd, hstop]
  rw [hcclk, hstart] at hlasts
  exact absurd hlasts (by decide)

end Sys2Proof.Machine
end

section
/-! PROOF. Configuration requests, readiness, link, credit and power states (R66, R126, R135, R143, R144, R164). -/

namespace Sys2Proof.Machine

/-! Functions. -/

theorem State.fnCfg_setFnCfg (s : State) (n m : Nat) (c : FnCfg) : (s.setFnCfg n c).fnCfg m = if m = n then c else s.fnCfg m :=
  tblGet_tblSet _ s.hif.fns n m c

theorem State.fnCfg_setFnCfg_self (s : State) (n : Nat) (c : FnCfg) : (s.setFnCfg n c).fnCfg n = c := by
  rw [State.fnCfg_setFnCfg, if_pos rfl]

theorem State.fnCfg_setFnCfg_ne (s : State) (n m : Nat) (c : FnCfg) (h : m ≠ n) : (s.setFnCfg n c).fnCfg m = s.fnCfg m := by
  rw [State.fnCfg_setFnCfg, if_neg h]

/-! What is held. -/

/-- Where nothing is held there is nothing to send. -/
theorem State.sendHeld_of_nil (s : State) (h : s.hif.held = []) : s.sendHeld = s := by
  rw [State.sendHeld, h, List.foldl_nil, State.onHif, ← h]

/-- A vector with no pending message has none to send when a stop ends. -/
theorem State.unstop_of_idle (s : State) (v : Nat) (h : (s.vector v).pending = false) : s.unstop v = s := if_neg (by simp [h])

theorem State.foldl_unstop_of_idle (s : State) (l : List Nat) (h : ∀ v ∈ l, (s.vector v).pending = false) : l.foldl State.unstop s = s :=
  List.foldlRecOn (motive := fun t : State => t = s) _ _ rfl fun t ht v hv => by rw [ht, s.unstop_of_idle v (h v hv)]

/-! Configuration requests. -/

theorem exec_configurationRequest_early (s : State) (fn : Nat) (op : ConfigOp) (hp : s.hif.perstIn = false) (hr : s.hif.hostReady = false) :
    exec (.configurationRequest fn op) s = .next ((s.bump Reg.HIF_CRS_CNT).emit 0 (.configDone fn (configOff op) 0#32 true)) := by
  change execConfigurationRequest fn op s = _
  unfold execConfigurationRequest
  rw [if_neg (by simp [hp]), if_pos (by simp [hr])]
  rfl

theorem exec_configurationRequest_absent (s : State) (fn : Nat) (op : ConfigOp) (hp : s.hif.perstIn = false) (hr : s.hif.hostReady = true)
    (hfn : s.hif.vfsOn < fn) : exec (.configurationRequest fn op) s = .next (s.emit 0 .unsupported) := by
  change execConfigurationRequest fn op s = _
  unfold execConfigurationRequest
  rw [if_neg (by simp [hp]), if_neg (by simp [hr]), if_pos hfn]

theorem exec_configurationRequest_read (s : State) (fn off : Nat) (hp : s.hif.perstIn = false) (hr : s.hif.hostReady = true)
    (hfn : fn ≤ s.hif.vfsOn) :
    exec (.configurationRequest fn (.read off)) s = .next (s.emit 0 (.configDone fn off (s.cfgWord fn (off / 4 * 4)) false)) := by
  change execConfigurationRequest fn (.read off) s = _
  rw [execConfigurationRequest, if_neg (by simp [hp]), if_neg (by simp [hr]), if_neg (by omega)]
  rfl

theorem exec_configurationRequest_write (s : State) (fn : Nat) (op : ConfigOp) (hp : s.hif.perstIn = false) (hr : s.hif.hostReady = true)
    (hfn : fn ≤ s.hif.vfsOn) (hop : ∀ off, op ≠ .read off) :
    exec (.configurationRequest fn op) s = .next ((s.cfgWrite fn op).emit 0 (.configDone fn 0 0#32 false)) := by
  change execConfigurationRequest fn op s = _
  unfold execConfigurationRequest
  rw [if_neg (by simp [hp]), if_neg (by simp [hr]), if_neg (by omega)]
  cases op with
  | read off => exact absurd rfl (hop off)
  | _ => rfl

/-! Writes of configuration space. -/

/-- From `s` to `t` nothing has changed but the host interface, and of the functions' configuration no function's but `fn`. -/
structure State.ConfigOnly (fn : Nat) (s t : State) : Prop where
  rest : t = { s with hif := t.hif }
  others : ∀ g, g ≠ fn → t.fnCfg g = s.fnCfg g

theorem State.configOnly_setFnCfg (s : State) (fn : Nat) (c : FnCfg) : s.ConfigOnly fn (s.setFnCfg fn c) :=
  ⟨rfl, fun g hg => s.fnCfg_setFnCfg_ne fn g c hg⟩

theorem State.configOnly_onHif (s : State) (fn : Nat) (f : Hif → Hif) (c : Prop) [Decidable c] (h : (f s.hif).fns = s.hif.fns) :
    s.ConfigOnly fn (if c then s.onHif f else s) := by
  split
  · exact ⟨rfl, fun g _ => by rw [State.fnCfg, State.onHif_hif, h]; rfl⟩
  · exact ⟨rfl, fun _ _ => rfl⟩

section
variable (s : State) (fn : Nat)

theorem State.cfgWrite_busMaster (x : Bool) (h : s.hif.held = []) :
    s.cfgWrite fn (.busMaster x) = s.setFnCfg fn { s.fnCfg fn with bme := x } :=
  State.sendHeld_of_nil _ h

theorem State.cfgWrite_msix (e m : Bool) (h : ∀ v ∈ vectorsOf fn, (s.vector v).pending = false) :
    s.cfgWrite fn (.msix e m) = s.setFnCfg fn { s.fnCfg fn with msixEn := e, msixMask := m } :=
  State.foldl_unstop_of_idle _ _ h

/-- A write acts on the host interface alone where nothing is held and no message of the function is pending. -/
theorem State.configOnly_cfgWrite (op : ConfigOp) (hh : s.hif.held = []) (hv : ∀ v ∈ vectorsOf fn, (s.vector v).pending = false) :
    s.ConfigOnly fn (s.cfgWrite fn op) := by
  cases op with
  | read off => exact ⟨rfl, fun _ _ => rfl⟩
  | busMaster x => rw [s.cfgWrite_busMaster fn x hh]; exact s.configOnly_setFnCfg fn _
  | memorySpace x => exact s.configOnly_setFnCfg fn _
  | msix e m => rw [s.cfgWrite_msix fn e m hv]; exact s.configOnly_setFnCfg fn _
  | ecrc x y =>
    change s.ConfigOnly fn (if fn = 0 then s.setFnCfg fn { s.fnCfg fn with ecrcGen := x, ecrcChk := y } else s)
    split
    · exact s.configOnly_setFnCfg fn _
    · exact ⟨rfl, fun _ _ => rfl⟩
  | clearPoisoned => exact s.configOnly_setFnCfg fn _
  | bar off v => exact s.configOnly_onHif fn _ _ rfl
  | numVfs n => exact s.configOnly_onHif fn _ _ rfl
  | pageSize x => exact s.configOnly_onHif fn _ _ rfl
  | ariHierarchy x => exact s.configOnly_onHif fn _ _ rfl
  | vfMemorySpace x => exact s.configOnly_onHif fn _ _ rfl
  | ptmEnable x => exact s.configOnly_onHif fn _ _ rfl
  | maxPayload x => exact s.configOnly_onHif fn _ _ rfl
  | maxReadRequest x => exact s.configOnly_onHif fn _ _ rfl

/-- NumVFs stays while VF Enable is set (log 25). -/
theorem State.cfgWrite_numVfs (n : Nat) :
    (s.cfgWrite 0 (.numVfs n)).hif.numVfs = if s.hif.vfEnable then s.hif.numVfs else min 255 n := by
  unfold State.cfgWrite
  cases s.hif.vfEnable <;> rfl

end

/-! The link. -/

/-- The partner's speed and width are reported once the link is up (R165). -/
theorem exec_pcieLinkTrained (s : State) (sp w : Nat) (hp : s.hif.perstIn = false) (hf : s.boot.fusesRead = true) (hh : s.hif.held = [])
    (hsp : 1 ≤ sp ∧ sp ≤ 4) (hw : w ∈ [1, 4, 8]) : exec (.pcieLinkTrained sp w) s = .next
      (((s.setFld Reg.HIF_STATUS Reg.HIF_STATUS_LINK_UP 1).setFld Reg.HIF_LINK Reg.HIF_LINK_SPEED sp).setFld Reg.HIF_LINK Reg.HIF_LINK_WIDTH w) := by
  have hspeed : max 1 (min 4 sp) = sp := by omega
  have hwidth : (if 8 ≤ w then 8 else if 4 ≤ w then 4 else 1) = w := by
    simp only [List.mem_cons, List.not_mem_nil, or_false] at hw
    rcases hw with rfl | rfl | rfl <;> rfl
  change execPcieLinkTrained sp w s = _
  rw [execPcieLinkTrained, if_neg (by simp [State.lanesIdle, hp, hf]), hspeed, hwidth]
  exact congrArg _ (State.sendHeld_of_nil _ hh)

/-- While PERST_N is asserted nothing of the host's side acts (R164). -/
theorem exec_hostSide_of_perst (s : State) (hp : s.hif.perstIn = true) :
    (∀ fn op, exec (.configurationRequest fn op) s = .next s) ∧ exec .hostInterfaceReady s = .next s ∧
    (∀ x w, exec (.pcieLinkTrained x w) s = .next s) ∧ (∀ n, exec (.flowControlCredit n) s = .next s) ∧ exec .d3hotEntry s = .next s ∧
    exec .d0Return s = .next s ∧ (∀ n, exec (.resizableBarWrite n) s = .next s) ∧ exec .vfEnableSet s = .next s ∧
    ∀ fn, exec (.poisonedWrite fn) s = .next s :=
  ⟨fun _ _ => if_pos hp, congrArg _ (if_pos hp), fun _ _ => if_pos (by simp [State.lanesIdle, hp]), fun _ => congrArg _ (if_pos hp),
    congrArg _ (if_pos hp), congrArg _ (if_pos hp), fun _ => congrArg _ (if_neg (by simp [hp])), if_pos (by simp [hp]),
    fun _ => congrArg _ (if_pos hp)⟩

theorem exec_flowControlCredit (s : State) (n : Nat) (hp : s.hif.perstIn = false) (hh : s.hif.held = []) :
    exec (.flowControlCredit n) s = .next (s.onHif fun h => { h with credit := h.credit + n }) :=
  congrArg Host.Outcome.next ((if_neg (by simp [hp])).trans (State.sendHeld_of_nil _ hh))

theorem exec_d3hotEntry (s : State) (hp : s.hif.perstIn = false) :
    exec .d3hotEntry s = .next (s.setFld Reg.HIF_STATUS Reg.HIF_STATUS_DSTATE 3) :=
  congrArg Host.Outcome.next (if_neg (by simp [hp]))

theorem exec_d0Return (s : State) (hp : s.hif.perstIn = false) (hh : s.hif.held = []) :
    exec .d0Return s = .next (s.setFld Reg.HIF_STATUS Reg.HIF_STATUS_DSTATE 0) :=
  congrArg Host.Outcome.next ((if_neg (by simp [hp])).trans (State.sendHeld_of_nil _ hh))

theorem exec_poisonedWrite (s : State) (fn : Nat) (hp : s.hif.perstIn = false) :
    exec (.poisonedWrite fn) s = .next (s.setFnCfg fn { s.fnCfg fn with poisoned := true }) :=
  congrArg Host.Outcome.next (if_neg (by simp [hp]))

/-- Settles O19: while PERST_N is asserted nothing acts, and else each request acts as it does once nothing is held. -/
theorem theHostInterfaceAnswers : Obligations.TheHostInterfaceAnswers := by
  intro s
  refine ⟨exec_hostSide_of_perst s, ⟨_, rfl, State.fld_setFld_self _ _ _ _ (by decide), rfl⟩, fun hp => ⟨fun fn op hr => ?_,
    fun fn op hr hfn => exec_configurationRequest_absent s fn op hp hr hfn, fun fn off hr hfn => exec_configurationRequest_read s fn off hp hr hfn,
    fun fn op hr hfn hh hv hop => ?_, ?_, fun hf hh sp w h1 h4 hw => ?_, fun hh n => ?_, ?_, fun hh => ?_, fun n => ?_, fun hvf => ?_,
    fun fn => ?_⟩⟩
  · refine ⟨_, exec_configurationRequest_early s fn op hp hr, State.rd_bump_self _ _, ?_, ?_⟩
    · rw [State.emit_out, State.bump_out, State.bump_trd]
      rfl
    · rw [((State.WritesIn.refl (· = Reg.HIF_CRS_CNT) s).bump _ rfl).rest]
      rfl
  · have hconfig := s.configOnly_cfgWrite fn op hh hv
    refine ⟨_, exec_configurationRequest_write s fn op hp hr hfn hop, ?_, hconfig.others, ?_, ?_, ?_, ?_, ?_, ?_⟩
    · rw [hconfig.rest]; rfl
    · rintro x rfl
      rw [s.cfgWrite_busMaster fn x hh]
      exact s.fnCfg_setFnCfg_self fn _
    · rintro x rfl
      exact s.fnCfg_setFnCfg_self fn _
    · rintro e m rfl
      rw [s.cfgWrite_msix fn e m hv]
      exact s.fnCfg_setFnCfg_self fn _
    · rintro rfl
      exact s.fnCfg_setFnCfg_self fn _
    · rintro rfl
      refine ⟨?_, ?_, ?_, ?_, ?_, ?_, ?_, ?_⟩
      · rintro x y rfl
        exact s.fnCfg_setFnCfg_self 0 _
      · rintro n rfl
        exact s.cfgWrite_numVfs n
      all_goals rintro x rfl; rfl
    · rw [hconfig.rest]; rfl
  · exact congrArg _ (if_neg (by simp [hp]))
  · refine ⟨_, exec_pcieLinkTrained s sp w hp hf hh ⟨h1, h4⟩ hw, ?_, ?_, ?_, rfl⟩
    · rw [State.linkUp, State.bit, State.fld_setFld_ne _ _ _ _ _ _ (by decide), State.fld_setFld_ne _ _ _ _ _ _ (by decide),
        State.fld_setFld_self _ _ _ _ (by decide)]
      rfl
    · rw [State.fld_setFld_other _ _ _ _ _ (by decide)]
      exact State.fld_setFld_of_lt _ _ _ _ (by decide) (Nat.lt_of_le_of_lt h4 (by decide))
    · refine State.fld_setFld_of_lt _ _ _ _ (by decide) ?_
      simp only [List.mem_cons, List.not_mem_nil, or_false] at hw
      rcases hw with rfl | rfl | rfl <;> decide
  · exact exec_flowControlCredit s n hp hh
  · refine ⟨_, exec_d3hotEntry s hp, ?_, rfl⟩
    rw [State.d3hot, State.bit, State.fld_setFld_self _ _ _ _ (by decide)]
    rfl
  · refine ⟨_, exec_d0Return s hp hh, ?_, rfl⟩
    rw [State.d3hot, State.bit, State.fld_setFld_self _ _ _ _ (by decide)]
    rfl
  · change Host.Outcome.next (if 8 ≤ n ∧ n ≤ 16 ∧ s.hif.perstIn = false then s.onHif fun h => { h with bar2Log := 20 + n } else s) = _
    by_cases hn : 8 ≤ n ∧ n ≤ 16
    · rw [if_pos ⟨hn.1, hn.2, hp⟩, if_pos hn]
      rfl
    · rw [if_neg fun h => hn ⟨h.1, h.2.1⟩, if_neg hn]
  · exact if_neg (by simp [hp, hvf])
  · exact ⟨_, exec_poisonedWrite s fn hp, s.fnCfg_setFnCfg_self fn _, fun g hg => s.fnCfg_setFnCfg_ne fn g _ hg, rfl⟩

end Sys2Proof.Machine
end

section
/-! PROOF. Register writes by their access codes, counters, and requests of an odd size or of no target (R16, R18, R128, R136, R139, R145). -/

namespace Sys2Proof.Machine

/-! Reserved and misaligned offsets. -/

/-- Table 16.1 has no block from 0x12_0000 on (R128). -/
theorem regRow?_of_beyond_blocks (off : Nat) (h : 0x120000 ≤ off) : regRow? off = none := by
  have hrows : regRowsOf (off / 0x10000) = [] := by
    unfold regRowsOf
    split
    case h_19 => rfl
    all_goals omega
  rw [regRow?, hrows, List.find?_nil]

theorem State.readReg_of_reserved (s : State) (m : Master) (off : Nat) (h : off % 4 ≠ 0 ∨ regRow? off = none) :
    s.readReg m off = (0#32, s) := by
  unfold State.readReg
  rw [if_pos (h.imp_right fun h => by rw [h]; rfl)]

theorem State.landWrite_of_reserved (s : State) (off : Nat) (v : Word) (h : off % 4 ≠ 0 ∨ regRow? off = none) : s.landWrite off v = s := by
  rw [State.landWrite, if_pos (h.imp_right fun h => by rw [h]; rfl)]

/-! Writes that land. -/

/-- The blocks whose registers only hold values: their writes are plain. -/
theorem State.landWrite_of_plain_block (s : State) (off : Nat) (v : Word) (r : RegRow) (hal : off % 4 = 0) (hr : regRow? off = some r)
    (hb : off / 0x10000 ∈ [5, 7, 8, 17]) : s.landWrite off v = s.plainWrite off v := by
  rw [State.landWrite, if_neg (by simp [hal, hr])]
  simp only [List.mem_cons, List.not_mem_nil, or_false] at hb
  rcases hb with hb | hb | hb | hb <;> rw [hb] <;> rfl

/-- Each bit that a plain write leaves, by its access code (R14, R139). -/
theorem RegRow.getElem_written (r : RegRow) (old v : Word) (i : Fin 32) : (r.written old v)[i] =
    if r.cnt then false else if r.w1c.testBit i && v[i] then false else if r.rw.testBit i then v[i] else old[i] := by
  have hmask (n : Nat) : (BitVec.ofNat 32 n)[i.val] = n.testBit i := by
    rw [← BitVec.getLsbD_eq_getElem, BitVec.getLsbD_ofNat, decide_eq_true i.isLt, Bool.true_and]
  unfold RegRow.written
  cases r.cnt
  case true => simp
  case false =>
    simp only [Bool.false_eq_true, if_false, Fin.getElem_fin, BitVec.getElem_and, BitVec.getElem_or, BitVec.getElem_not, hmask]
    cases r.w1c.testBit i <;> cases r.rw.testBit i <;> cases v[i.val] <;> simp

theorem State.plainWrite_eq (s : State) (o : Nat) (v : Word) : s.plainWrite o v = { s with regs := (s.plainWrite o v).regs } :=
  ((State.TreadleOnly.refl s).plainWrite o v).regsOnly (State.plainWrite_trd s o v)

/-- A request whose CCLK lies two or more after those of the requests before it emerges without waiting (R839). -/
theorem State.pcieTurn_of_clear (s : State) (ahead : Nat) (h : ∀ y ∈ s.hif.pcieAt, y + 2 ≤ s.trd.cclk + ahead) :
    s.pcieTurn ahead = s.onHif fun x => { x with
      pcieAt := (s.trd.cclk + ahead) :: x.pcieAt.filter fun y => decide (s.trd.cclk ≤ y + 1) } := by
  have hx : spaced s.hif.pcieAt 64 (s.trd.cclk + ahead) = s.trd.cclk + ahead := spaced_of_all_before _ _ _ h
  rw [State.pcieTurn, hx]
  simp only [Nat.add_sub_cancel, State.elapseTo_of_le s s.trd.cclk le_rfl]

/-- The write port serves an access in the present CCLK where none has used it (R160, R161). -/
theorem State.portFree_write_of_idle (s : State) (h : s.hif.wrAt ≠ some s.trd.cclk) : s.portFree true = s := by
  rw [State.portFree, if_neg]
  simpa [State.portBusy] using h

theorem State.portWrite_of_idle (s : State) (off : Nat) (v : Word) (h : s.hif.wrAt ≠ some s.trd.cclk) :
    s.portWrite off v = (s.onHif fun x => { x with wrAt := some s.trd.cclk }).landWrite off v := by
  simp only [State.portWrite, State.takePort, State.portFree_write_of_idle s h]
  rfl

/-- What the host interface notes of a register write that lands in the present CCLK: its port, and a request of PCI Express (R160, R839). -/
def State.writeNoted (s : State) (m : Master) : State :=
  s.onHif fun x => { x with wrAt := some s.trd.cclk, pcieAt := if m = .pcie then [s.trd.cclk] else x.pcieAt }

/-- A write whose port is free, and for PCI Express whose BAR is enabled and that needs no spacing, lands in the present CCLK. -/
theorem exec_registerWrite_lands (s : State) (m : Master) (off : Nat) (v : Word) (hport : s.hif.wrAt ≠ some s.trd.cclk)
    (hpcie : m = .pcie → s.barOpen (.bar0 off) = true ∧ ∀ y ∈ s.hif.pcieAt, y + 2 ≤ s.trd.cclk) :
    exec (.registerWrite m (.bar0 off) v) s = .next ((s.writeNoted m).landWrite off v) := by
  cases m with
  | sideband =>
    have hnoted : s.writeNoted .sideband = s.onHif fun x => { x with wrAt := some s.trd.cclk } := rfl
    change Host.Outcome.next (s.portWrite off v) = _
    rw [s.portWrite_of_idle off v hport, hnoted]
  | pcie =>
    obtain ⟨hopen, hclear⟩ := hpcie rfl
    have hgone : s.hif.pcieAt.filter (fun y => decide (s.trd.cclk ≤ y + 1)) = [] := by
      rw [List.filter_eq_nil_iff]
      intro y hy
      have := hclear y hy
      simp only [decide_eq_true_eq]
      omega
    have hturn : s.pcieTurn 0 = s.onHif fun x => { x with pcieAt := [s.trd.cclk] } := by
      rw [s.pcieTurn_of_clear 0 hclear]
      simp only [State.onHif, hgone, Nat.add_zero]
    have hwrite : (s.onHif fun x => { x with pcieAt := [s.trd.cclk] }).portWrite off v = (s.writeNoted .pcie).landWrite off v :=
      State.portWrite_of_idle _ off v hport
    change Host.Outcome.next (if s.barOpen (.bar0 off) then ((s.portFree true).pcieTurn 0).portWrite off v else s) = _
    rw [if_pos hopen, s.portFree_write_of_idle hport, hturn, hwrite]

/-! Odd sizes and no target. -/

/-- A read of an odd size: zeros from a BAR that is enabled, and a refusal else (R18, R138, R145). -/
theorem exec_oddSizeAccess_read (s : State) (a : RegAddr) (n : Nat) (hl : s.linkUp = true) (hc : 0 < s.hif.credit)
    (hp : s.hif.perstIn = false) (hsp : s.barOpen a = true → ∀ y ∈ s.hif.pcieAt, y + 2 ≤ s.trd.cclk + 24) :
    ∃ h, exec (.oddSizeAccess false a n) s = .next { s with
      out := s.out ++ [if s.barOpen a then ⟨max (s.trd.cclk + if isCounter a then 88 else 56) (s.hif.lastRead + 1), .zeroData n⟩
        else ⟨max (s.trd.cclk + 56) (s.hif.lastRead + 1), .unsupported⟩]
      hif := h } := by
  change ∃ h, execOddSizeAccess false a n s = _
  unfold execOddSizeAccess
  by_cases hopen : s.barOpen a = true
  · obtain ⟨h, hsent⟩ := State.completeRead_sent (s.pcieTurn 24) (readLatency a) (.zeroData n)
      (by rw [s.pcieTurn_of_clear 24 (hsp hopen)]; exact hp) (by rw [s.pcieTurn_of_clear 24 (hsp hopen)]; exact hl)
      (by rw [s.pcieTurn_of_clear 24 (hsp hopen)]; exact hc) nofun
    refine ⟨h, ?_⟩
    simp only [hopen, if_true, Bool.false_eq_true, if_false, hsent]
    rw [s.pcieTurn_of_clear 24 (hsp hopen)]
    rfl
  · obtain ⟨h, hsent⟩ := s.completeRead_sent 56 .unsupported hp hl hc nofun
    refine ⟨h, ?_⟩
    simp only [hopen, if_false, Bool.false_eq_true, hsent]

/-- Settles O17: the write that lands, by its offset, and each refused request on its own. -/
theorem registerAccessesFollowTheirCodes : Obligations.RegisterAccessesFollowTheirCodes := by
  intro s m off v lands noted
  have hlands (h : lands) : exec (.registerWrite m (.bar0 off) v) s = .next ((s.writeNoted m).landWrite off v) :=
    exec_registerWrite_lands s m off v h.1 h.2
  have hreserved (h : lands) (hoff : off % 4 ≠ 0 ∨ regRow? off = none) :
      exec (.registerWrite m (.bar0 off) v) s = .next { s with hif := noted } ∧ s.readReg m off = (0#32, s) := by
    refine ⟨?_, s.readReg_of_reserved m off hoff⟩
    rw [hlands h, State.landWrite_of_reserved _ off v hoff]
    rfl
  refine ⟨hreserved, fun h hlow _ => hreserved h (.inr (regRow?_of_beyond_blocks off hlow)), fun hshut => ?_, fun _ => rfl,
    fun r h hal hr hb => ⟨_, hlands h, ?_, fun o ho => ?_, fun i => ?_⟩, fun r hr hcnt => ?_, fun a n hopen hclear => ?_, fun a n hshut => ?_, rfl,
    fun hl hc hp => ⟨fun a n hsp => ?_, ?_⟩⟩
  · change Host.Outcome.next (if s.barOpen (.bar0 off) then ((s.portFree true).pcieTurn 0).portWrite off v else s) = _
    rw [hshut]; rfl
  · rw [State.landWrite_of_plain_block _ off v r hal hr hb]
    exact State.plainWrite_eq _ off v
  · rw [State.landWrite_of_plain_block _ off v r hal hr hb, State.rd_plainWrite_ne _ _ _ _ ho]
    rfl
  · rw [State.landWrite_of_plain_block _ off v r hal hr hb, State.rd_plainWrite_of_row _ _ _ r hr]
    exact r.getElem_written _ v i
  · have hclear : s.clearCounter off = s.wr off 0#32 := if_pos (by simp [isCounter, hr, hcnt])
    exact ⟨_, rfl, by rw [hclear, State.rd_wr_self], by rw [hclear]; rfl, fun o ho => by rw [hclear, State.rd_wr_ne _ _ _ _ ho]⟩
  · refine ⟨s.pcieTurn 24, congrArg _ ((if_pos hopen).trans rfl), ?_⟩
    rw [s.pcieTurn_of_clear 24 hclear]
    rfl
  · exact congrArg _ ((if_neg (by simp [hshut])).trans rfl)
  · obtain ⟨h, hexec⟩ := exec_oddSizeAccess_read s a n hl hc hp hsp
    exact ⟨_, hexec, rfl, rfl⟩
  · obtain ⟨h, hsent⟩ := s.completeRead_sent 56 .unsupported hp hl hc nofun
    exact ⟨_, congrArg Host.Outcome.next hsent, rfl, rfl⟩

end Sys2Proof.Machine
end

section
/-! SUPPORT. What the passing of CCLK leaves of the registers and of the Treadle (R30, R31, R686). -/

namespace Sys2Proof.Machine

/-- The registers that a CCLK inside a pick writes: CYC_SAT's and the stretcher's count. -/
abbrev clockWrites (o : Nat) : Prop := o = Reg.TRD_STATUS ∨ o = Reg.PWR_STR_CCLK_CNT

theorem State.rd_countStretch (s : State) (o : Nat) (h : ¬ clockWrites o) : s.countStretch.rd o = s.rd o := by
  unfold State.countStretch
  split
  · exact State.rd_bump_ne _ _ _ fun e => h (.inr e)
  · rfl

theorem State.rd_cycCounted (s : State) (o : Nat) (h : ¬ clockWrites o) : s.cycCounted.rd o = s.rd o := by
  have hu : (s.countStretch.cclkBegins { s.trd.now with cyc := min 4095 (s.trd.now.cyc + 1) }).rd o = s.rd o := s.rd_countStretch o h
  unfold State.cycCounted
  extract_lets now u
  split
  · exact (State.rd_setFld_ne _ _ _ _ _ fun e => h (.inl e)).trans hu
  · exact hu

theorem State.rd_tick (s : State) (o : Nat) (h : ¬ clockWrites o) : s.tick.rd o = s.rd o := by
  by_cases ht : s.boot.tripped = true
  · rw [State.tick, if_pos ht]
  · rw [s.tick_of_running (Bool.eq_false_iff.mpr ht)]
    exact s.rd_cycCounted o h

theorem State.rd_elapse (n : Nat) (s : State) (o : Nat) (h : ¬ clockWrites o) : (State.elapse n s).rd o = s.rd o := by
  induction n generalizing s with
  | zero => rfl
  | succ n ih => exact (ih s.tick).trans (s.rd_tick o h)

theorem State.cclk_elapse (n : Nat) (s : State) (h : s.boot.tripped = false) : (State.elapse n s).trd.cclk = s.trd.cclk + n := by
  induction n with
  | zero => rfl
  | succ n ih => rw [State.elapse_succ, ((State.elapse n s).tick_trd (by rw [s.elapse_tripped n, h])).2, ih, Nat.add_assoc]

end Sys2Proof.Machine
end

section
/-! PROOF. PTM dialogues (R146 to R150). -/

namespace Sys2Proof.Machine

/-! The two requests. -/

/-- A PTM Request has begun: it uses credit, and the second one records the stamp (R142, R148). -/
def State.ptmBegun (s : State) (second : Bool) : State :=
  { s with
    out := s.out ++ [⟨s.trd.cclk, .ptmRequest second⟩]
    hif := { s.hif with credit := s.hif.credit - 1, ptm := if second then some s.trd.now else s.hif.ptm } }

/-- A PTM Request for which there is credit on a link that is up begins at once. -/
theorem State.send_ptmTlp (s : State) (second : Bool) (hl : s.linkUp = true) (hc : 0 < s.hif.credit) (hd : s.d3hot = false) :
    s.send (ptmTlp second) = s.ptmBegun second := by
  have hmay : s.maySend (ptmTlp second) = true := by simp [State.maySend, ptmTlp, hl, hc, hd]
  have hat : s.beginAt (ptmTlp second) = s.trd.cclk := by simp [State.beginAt, ptmTlp]
  rw [State.send, if_pos hmay, State.transmit, hat]
  cases second <;> rfl

/-- The dialogue before has ended, and its requests are not sent (log 132). -/
def State.ptmCleared (s : State) : State := s.onHif fun h => { h with ptm := none, held := h.held.filter fun t => !t.isPtm }

/-- A dialogue starts where the link lets both requests begin (R148). -/
theorem State.startPtm_of_free (s : State) (hon : s.hif.ptmEnable = true) (hl : s.linkUp = true) (hc : 2 ≤ s.hif.credit)
    (hd : s.d3hot = false) : s.startPtm = (s.ptmCleared.ptmBegun false).ptmBegun true := by
  have hfirst : s.ptmCleared.send (ptmTlp false) = s.ptmCleared.ptmBegun false :=
    State.send_ptmTlp _ false hl (Nat.lt_of_lt_of_le Nat.two_pos hc) hd
  have hsecond : (s.ptmCleared.ptmBegun false).send (ptmTlp true) = (s.ptmCleared.ptmBegun false).ptmBegun true :=
    State.send_ptmTlp _ true hl (Nat.sub_pos_of_lt hc) hd
  rw [← hsecond, ← hfirst]
  exact if_pos hon

/-- What two requests leave. -/
theorem State.ptmBegun_both (s : State) (hc : 2 ≤ s.hif.credit) :
    let t := (s.ptmCleared.ptmBegun false).ptmBegun true
    t.hif.ptm = some s.trd.now ∧ t.out = s.out ++ [⟨s.trd.cclk, .ptmRequest false⟩, ⟨s.trd.cclk, .ptmRequest true⟩] ∧
      t.hif.credit + 2 = s.hif.credit ∧ t = { s with hif := t.hif, out := t.out } := by
  have hcredit : s.hif.credit - 1 - 1 + 2 = s.hif.credit := by omega
  exact ⟨rfl, List.append_assoc _ _ _, hcredit, rfl⟩

/-- The dialogue that is scheduled for a frame start begins in its tick (R146). -/
theorem exec_ptmDialogue_scheduled (s : State) (hen : s.bit Reg.HIF_PTM_CTL Reg.HIF_PTM_CTL_EN = true) (hd : s.d3hot = false)
    (hp : 0 < s.fld Reg.HIF_PTM_CTL Reg.HIF_PTM_CTL_PERIOD)
    (hf : s.trd.now.frame % s.fld Reg.HIF_PTM_CTL Reg.HIF_PTM_CTL_PERIOD = 0) (hl : s.trd.now.line = 0) (hk : s.trd.now.pick = 0)
    (hcyc : s.trd.now.cyc = 2) : exec .ptmDialogue s = .next s.startPtm := by
  change execPtmDialogue s = _
  rw [execPtmDialogue, if_pos (by simp [hen, hd, hp.ne', hf, hl, hk]), hcyc]
  rfl

/-! PTM_REQ. -/

/-- The word that PTM_REQ writes has REQ set. -/
theorem ptmCtl_req_put (v : Word) : Reg.HIF_PTM_CTL_REQ.get (Reg.HIF_PTM_CTL_REQ.put v 1) = 1 := Field.get_put _ v 1 (by decide)

/-- The state in which PTM_REQ's dialogue starts: HIF_PTM_CTL is written, and a CCLK has passed (R147). -/
def State.ptmAsked (s : State) : State := (s.plainWrite Reg.HIF_PTM_CTL (Reg.HIF_PTM_CTL_REQ.put (s.rd Reg.HIF_PTM_CTL) 1)).tick

theorem exec_ptmReq (s : State) (hd : s.d3hot = false) : exec .ptmReq s = .next s.ptmAsked.startPtm := by
  change Host.Outcome.next (s.landPtmCtl _) = _
  rw [State.landPtmCtl, if_pos ⟨ptmCtl_req_put _, hd⟩]
  rfl

theorem State.ptmAsked_clockOnly (s : State) : s.ClockOnly s.ptmAsked :=
  ((State.TreadleOnly.refl s).plainWrite _ _).clockOnly.trans (State.clockOnly_tick _)

theorem State.ptmAsked_status (s : State) : s.ptmAsked.rd Reg.HIF_STATUS = s.rd Reg.HIF_STATUS :=
  (State.rd_tick _ _ (by decide)).trans (s.rd_plainWrite_ne _ _ _ (by decide))

theorem State.ptmAsked_trd (s : State) (h : s.boot.tripped = false) :
    s.ptmAsked.trd.now = { s.trd.now with cyc := min 4095 (s.trd.now.cyc + 1) } ∧ s.ptmAsked.trd.cclk = s.trd.cclk + 1 := by
  have htick := State.tick_trd (s.plainWrite Reg.HIF_PTM_CTL (Reg.HIF_PTM_CTL_REQ.put (s.rd Reg.HIF_PTM_CTL) 1)) (by simpa using h)
  rwa [State.plainWrite_trd] at htick

/-! The end of a dialogue. -/

/-- The registers that a response writes: the stamp and the master time of the dialogue (R149). -/
def State.ptmRecorded (s : State) (a : Stamp) (x : Nat) : State :=
  (((s.onHif fun h => { h with ptm := none }).wrStamp Reg.HIF_PTM_STAMP_LO Reg.HIF_PTM_STAMP_HI a).wr Reg.HIF_PTM_MASTER_LO
    (BitVec.ofNat 32 x)).wr Reg.HIF_PTM_MASTER_HI (BitVec.ofNat 32 (x / 2 ^ 32))

/-- The response of a dialogue: what is recorded, SEQ counts, and VALID (R149). -/
def State.ptmAnswered (s : State) (a : Stamp) (x : Nat) : State :=
  ((s.ptmRecorded a x).setFld Reg.HIF_PTM_STATUS Reg.HIF_PTM_STATUS_SEQ (s.fld Reg.HIF_PTM_STATUS Reg.HIF_PTM_STATUS_SEQ + 1)).setFld
    Reg.HIF_PTM_STATUS Reg.HIF_PTM_STATUS_VALID 1

theorem State.ptmAnswered_writes (s : State) (a : Stamp) (x : Nat) :
    (s.onHif fun h => { h with ptm := none }).WritesIn (fun _ => True) (s.ptmAnswered a x) :=
  ((((((State.WritesIn.refl _ _).wr _ _ trivial).setFld _ _ _ trivial).wr _ _ trivial).wr _ _ trivial).setFld _ _ _ trivial).setFld _ _ _ trivial

theorem State.rd_ptmAnswered (s : State) (a : Stamp) (x o : Nat) (h : o ≠ Reg.HIF_PTM_STATUS) :
    (s.ptmAnswered a x).rd o = (s.ptmRecorded a x).rd o := by
  rw [State.ptmAnswered, State.rd_setFld_ne _ _ _ _ _ h, State.rd_setFld_ne _ _ _ _ _ h]

/-- The master time at the device: what the response carries, less the delay (R148). -/
theorem exec_ptmResponse (s : State) (a : Stamp) (m d : Nat) (ha : s.hif.ptm = some a) (hm : m < 2 ^ 64) (hd : d ≤ m) :
    exec (.ptmResponse m d) s = .next (s.ptmAnswered a (m - d)) := by
  have hx : (m + 2 ^ 64 - d % 2 ^ 64) % 2 ^ 64 = m - d := by omega
  change execPtmResponse m d s = _
  simp only [execPtmResponse, ha, hx]
  rfl

/-- A number below 2^64 in a pair of registers. -/
theorem word_pair_toNat (x : Nat) (h : x < 2 ^ 64) :
    (BitVec.ofNat 32 x).toNat + 2 ^ 32 * (BitVec.ofNat 32 (x / 2 ^ 32)).toNat = x := by
  rw [BitVec.toNat_ofNat, BitVec.toNat_ofNat]
  omega

/-- Settles O20: a dialogue starts, is answered, or times out. -/
theorem ptmDialoguesRecordTime : Obligations.PtmDialoguesRecordTime := by
  intro s starts scheduled
  refine ⟨fun ⟨hen, hd, hp, hf, hline, hpick⟩ hl hc hon hcyc => ?_, fun ⟨hen, hd, hp, hf, hline, hpick⟩ hoff hcyc => ?_,
    fun hl hc hon hd ht => ?_, fun a m d ha hm hdm => ?_, fun hnone => ⟨fun m d => ?_, ?_⟩, fun a ha => ?_⟩
  · refine ⟨_, exec_ptmDialogue_scheduled s hen hd hp hf hline hpick hcyc, ?_⟩
    rw [s.startPtm_of_free hon hl hc hd]
    exact s.ptmBegun_both hc
  · have hfail : s.startPtm = s.setFld Reg.HIF_PTM_STATUS Reg.HIF_PTM_STATUS_FAIL 1 := if_neg (by simp [hoff])
    refine ⟨_, exec_ptmDialogue_scheduled s hen hd hp hf hline hpick hcyc, ?_, ?_⟩
    · rw [hfail, State.fld_setFld_self _ _ _ _ (by decide)]; rfl
    · rw [hfail]; rfl
  · have hclock := s.ptmAsked_clockOnly
    obtain ⟨hnow, hcclk⟩ := s.ptmAsked_trd ht
    have hlink : s.ptmAsked.linkUp = true := (congrArg (· != 0) (State.fld_of_rd s.ptmAsked_status _)).trans hl
    have hd0 : s.ptmAsked.d3hot = false := (congrArg (· != 0) (State.fld_of_rd s.ptmAsked_status _)).trans hd
    have hhif : s.ptmAsked.hif = s.hif := by rw [hclock]
    have hout : s.ptmAsked.out = s.out := by rw [hclock]
    rw [← hhif] at hon hc
    obtain ⟨hptm, hsent, -, -⟩ := s.ptmAsked.ptmBegun_both hc
    refine ⟨_, exec_ptmReq s hd, ?_, ?_⟩
    · rw [s.ptmAsked.startPtm_of_free hon hlink hc hd0, ← hnow]
      exact hptm
    · rw [s.ptmAsked.startPtm_of_free hon hlink hc hd0, ← hcclk, ← hout]
      exact hsent
  · refine ⟨_, exec_ptmResponse s a m d ha hm hdm, ?_, ?_, ?_, State.fld_setFld_self _ _ _ _ (by decide), ?_⟩
    · refine State.holdsStamp_congr ?_ ?_ ((s.onHif fun h => { h with ptm := none }).holdsStamp_wrStamp _ _ a (by decide))
      all_goals
        rw [State.rd_ptmAnswered _ _ _ _ (by decide), State.ptmRecorded, State.rd_wr_ne _ _ _ _ (by decide),
          State.rd_wr_ne _ _ _ _ (by decide)]
    · rw [State.rd_ptmAnswered _ _ _ _ (by decide), State.rd_ptmAnswered _ _ _ _ (by decide), State.ptmRecorded,
        State.rd_wr_ne _ _ _ _ (by decide), State.rd_wr_self, State.rd_wr_self]
      exact word_pair_toNat _ (by omega)
    · rw [State.ptmAnswered, State.fld_setFld_other _ _ _ _ _ (by decide)]
      exact State.fld_setFld_self _ _ _ _ (by decide)
    · exact (s.ptmAnswered_writes a (m - d)).rest
  · change execPtmResponse m d s = _
    simp only [execPtmResponse, hnone]
  · change execPtmTimeout s = _
    simp only [execPtmTimeout, hnone]
  · have hexec : exec .ptmTimeout s =
        .next ((s.onHif fun h => { h with ptm := none }).setFld Reg.HIF_PTM_STATUS Reg.HIF_PTM_STATUS_FAIL 1) := by
      change execPtmTimeout s = _
      simp only [execPtmTimeout, ha]
    refine ⟨_, hexec, State.fld_setFld_self _ _ _ _ (by decide), State.fld_setFld_other _ _ _ _ _ (by decide), rfl, fun o ho => ?_⟩
    rw [State.rd_setFld_ne _ _ _ _ _ ho]
    rfl

end Sys2Proof.Machine
end

section
/-! PROOF. Frames of the sideband SPI (R151 to R158, R844, R845). -/

namespace Sys2Proof.Machine

/-! The begin and the end of a frame. -/

/-- The registers that a frame's end writes. -/
abbrev sbWrites (o : Nat) : Prop := o = Reg.HIF_SB_LAST ∨ o = Reg.HIF_STATUS ∨ o = Reg.HIF_SB_ERR_CNT

/-- SB_MISO is released, and the frame's status and command are noted, before an error is counted (R151, R156, R158). -/
def State.sbNoted (s : State) (cmd status : Nat) : State :=
  { s with
    out := s.out ++ [⟨s.trd.cclk, .sbMiso false⟩]
    hif := { s.hif with sbStatus := if cmd = 2 ∨ cmd = 3 then status else s.hif.sbStatus } }

theorem State.sbEnd_eq (s : State) (cmd status : Nat) : s.sbEnd cmd status =
    let u := (s.sbNoted cmd status).wr Reg.HIF_SB_LAST (BitVec.ofNat 32 (status % 256 + cmd % 256 * 256))
    if status = 0 then u else (u.setFld Reg.HIF_STATUS Reg.HIF_STATUS_SB_ERR 1).bump Reg.HIF_SB_ERR_CNT := by
  have hnoted : s.sbNoted cmd status = if cmd = 2 ∨ cmd = 3 then (s.emit 0 (.sbMiso false)).onHif fun h => { h with sbStatus := status }
      else s.emit 0 (.sbMiso false) := by
    unfold State.sbNoted
    split <;> rfl
  rw [hnoted]
  rfl

section
variable (s : State) (cmd status : Nat)

theorem State.sbEnd_writes : (s.sbNoted cmd status).WritesIn sbWrites (s.sbEnd cmd status) := by
  have hlast := (State.WritesIn.refl sbWrites (s.sbNoted cmd status)).wr Reg.HIF_SB_LAST
    (BitVec.ofNat 32 (status % 256 + cmd % 256 * 256)) (.inl rfl)
  rw [State.sbEnd_eq]
  extract_lets u
  split
  · exact hlast
  · exact (hlast.setFld _ _ _ (.inr (.inl rfl))).bump _ (.inr (.inr rfl))

theorem State.sbEnd_rd (o : Nat) (h : ¬ sbWrites o) : (s.sbEnd cmd status).rd o = s.rd o := (s.sbEnd_writes cmd status).rd o h

/-- The frame's end, beside the registers. -/
theorem State.sbEnd_rest : s.sbEnd cmd status = { s.sbNoted cmd status with regs := (s.sbEnd cmd status).regs } :=
  (s.sbEnd_writes cmd status).rest

theorem State.sbEnd_trd : (s.sbEnd cmd status).trd = s.trd := by rw [s.sbEnd_rest]; rfl

theorem State.sbEnd_out : (s.sbEnd cmd status).out = s.out ++ [⟨(s.sbEnd cmd status).trd.cclk, .sbMiso false⟩] := by
  rw [s.sbEnd_rest]; rfl

theorem State.sbEnd_sbStatus : (s.sbEnd cmd status).hif.sbStatus = if cmd = 2 ∨ cmd = 3 then status else s.hif.sbStatus := by
  rw [s.sbEnd_rest]; rfl

/-- HIF_SB_LAST holds the status and the command (Table 3.12). -/
theorem State.sbEnd_last : (s.sbEnd cmd status).rd Reg.HIF_SB_LAST = BitVec.ofNat 32 (status % 256 + cmd % 256 * 256) := by
  rw [State.sbEnd_eq]
  extract_lets u
  split
  · exact State.rd_wr_self _ _ _
  · rw [State.rd_bump_ne _ _ _ (by decide), State.rd_setFld_ne _ _ _ _ _ (by decide)]
    exact State.rd_wr_self _ _ _

/-- A frame that ends with an error sets SB_ERR and is counted (R156). -/
theorem State.sbEnd_error (h : status ≠ 0) : (s.sbEnd cmd status).fld Reg.HIF_STATUS Reg.HIF_STATUS_SB_ERR = 1 ∧
    (s.sbEnd cmd status).rd Reg.HIF_SB_ERR_CNT = counted (s.rd Reg.HIF_SB_ERR_CNT) := by
  rw [State.sbEnd_eq]
  extract_lets u
  rw [if_neg h]
  refine ⟨?_, ?_⟩
  · rw [State.fld_bump_ne _ _ _ _ (by decide)]
    exact State.fld_setFld_of_lt _ _ _ _ (by decide) (by decide)
  · rw [State.rd_bump_self, State.rd_setFld_ne _ _ _ _ _ (by decide), State.rd_wr_ne _ _ _ _ (by decide)]
    rfl

end

/-! The CCLK of a frame with an address. -/

/-- The state in which a WRITE or READ is performed, 27 CCLK after the frame began (R136, R153, R157). -/
abbrev State.sbReached (s : State) : State := State.elapse 27 s.sbBegin

theorem State.sbReached_clockOnly (s : State) : s.sbBegin.ClockOnly s.sbReached := s.sbBegin.clockOnly_elapse 27

theorem State.sbReached_out (s : State) : s.sbReached.out = s.out ++ [⟨s.trd.cclk, .sbMiso true⟩] := by
  rw [s.sbReached_clockOnly]; rfl

theorem State.sbReached_hif (s : State) : s.sbReached.hif = s.hif := by rw [s.sbReached_clockOnly]; rfl

theorem State.sbReached_cclk (s : State) (h : s.boot.tripped = false) : s.sbReached.trd.cclk = s.trd.cclk + 27 := s.sbBegin.cclk_elapse 27 h

theorem State.sbReached_rd (s : State) (o : Nat) (h : ¬ clockWrites o) : s.sbReached.rd o = s.rd o := s.sbBegin.rd_elapse 27 o h

/-- Nothing of what a read has latched changes as CCLK pass (R64). -/
theorem State.nowHiSb_tick (s : State) : s.tick.trd.nowHiSb = s.trd.nowHiSb := by
  by_cases ht : s.boot.tripped = true
  · rw [State.tick, if_pos ht]
  · have hcount : s.cycCounted.trd.nowHiSb = s.trd.nowHiSb := by
      have hstretch : s.countStretch.trd.nowHiSb = s.trd.nowHiSb := by rw [s.countStretch_kept.trd]
      unfold State.cycCounted
      extract_lets now u
      split <;> exact hstretch
    have hcompare : s.cycCounted.compareSlots.trd.nowHiSb = s.cycCounted.trd.nowHiSb := by
      unfold State.compareSlots
      rw [State.onTrd_trd]
      split <;> rfl
    rw [s.tick_of_running (Bool.eq_false_iff.mpr ht)]
    exact hcompare.trans hcount

theorem State.nowHiSb_elapse (n : Nat) (s : State) : (State.elapse n s).trd.nowHiSb = s.trd.nowHiSb := by
  induction n generalizing s with
  | zero => rfl
  | succ n ih => exact (ih s.tick).trans s.nowHiSb_tick

/-! Reads. -/

/-- A read leaves everything but the Treadle as it is (R64). -/
theorem State.readReg_state (s : State) (m : Master) (off : Nat) : (s.readReg m off).2 = { s with trd := (s.readReg m off).2.trd } := by
  unfold State.readReg
  split
  · rfl
  · split
    · rw [State.readNow]
      cases m <;> rfl
    · split
      · rfl
      · split <;> rfl

theorem State.takePort_out (s : State) (w : Bool) : (s.takePort w).out = s.out := by
  have hfree : (s.portFree w).out = s.out := by
    unfold State.portFree
    split
    · rw [s.clockOnly_tick]
    · rfl
  exact hfree

theorem State.sbPerform_out (s : State) (a : Nat) (good : Bool) : (s.sbPerform a good).2.out = s.out ++ [⟨s.trd.cclk, .sbMiso true⟩] := by
  unfold State.sbPerform
  extract_lets u
  split
  · rw [State.readReg_state]
    exact (u.takePort_out false).trans s.sbReached_out
  · exact s.sbReached_out

/-- A read that is not performed answers 0 (R154, R845). -/
theorem State.sbPerform_refused (s : State) (a : Nat) (good : Bool) (h : sbCode good a ≠ 0) : s.sbPerform a good = (0#32, s.sbReached) := if_neg h

theorem sbCode_refused (good : Bool) (a : Nat) (h : good = false ∨ a % 4 ≠ 0) : sbCode good a = if good then 4 else 1 := by
  cases good
  case false => rfl
  case true => exact if_pos (h.resolve_left Bool.noConfusion)

theorem sbCode_refused_ne (good : Bool) (a : Nat) (h : good = false ∨ a % 4 ≠ 0) : sbCode good a ≠ 0 := by
  rw [sbCode_refused good a h]
  split <;> decide

theorem sbCode_accepted (a : Nat) (h : a % 4 = 0) : sbCode true a = 0 := if_neg (not_not.mpr h)

/-- A register of the Spool's block shows what it holds. -/
theorem State.readReg_of_spool_block (s : State) (m : Master) (off : Nat) (r : RegRow) (hal : off % 4 = 0) (hr : regRow? off = some r)
    (hb : off / 0x10000 = 7) : s.readReg m off = (s.rd off, s) := by
  have hlo : off ≠ Reg.TRD_NOW_LO := by rintro rfl; exact absurd hb (by decide)
  have hhi : off ≠ Reg.TRD_NOW_HI := by rintro rfl; exact absurd hb (by decide)
  have hview : s.viewWord off = none := by
    unfold State.viewWord
    rw [hb]
    rfl
  unfold State.readReg
  rw [if_neg (by simp [hal, hr]), if_neg hlo, if_neg hhi, hview]

/-! The frames. -/

theorem exec_sbWrite (s : State) (a c : Nat) (v : Word) (good : Bool) (h : (crc8 ([2#8] ++ beBytes 4 a ++ beBytes 4 v.toNat) == c) = good) :
    exec (.sbWrite a v c) s = .next ((if sbCode good a = 0 then s.sbReached.portWrite a v else s.sbReached).sbEnd 2 (sbCode good a)) := by
  subst h
  rfl

theorem exec_sbRead (s : State) (a c : Nat) (good : Bool) (h : (crc8 ([3#8] ++ beBytes 4 a) == c) = good) :
    exec (.sbRead a c) s = .next (((s.sbPerform a good).2.emit 0 (.sbAnswer (sbCode good a) (s.sbPerform a good).1
      (crc8 (beBytes 1 (sbCode good a) ++ beBytes 4 (s.sbPerform a good).1.toNat)))).sbEnd 3 (sbCode good a)) := by
  subst h
  rfl

/-- A frame that takes no CCLK drives SB_MISO and releases it (R158). -/
theorem State.sbEnd_out_at_once (s u : State) (cmd status : Nat) (hout : u.out = s.out ++ [⟨s.trd.cclk, .sbMiso true⟩]) (htrd : u.trd = s.trd) :
    (u.sbEnd cmd status).out = s.out ++ [⟨s.trd.cclk, .sbMiso true⟩, ⟨s.trd.cclk, .sbMiso false⟩] := by
  rw [State.sbEnd_out, State.sbEnd_trd, hout, htrd, List.append_assoc]
  rfl

/-- The answer of a READ goes out before its frame ends (R157, R158). -/
theorem State.sbAnswered_out (s u : State) (m : OutMsg) (status : Nat) (hout : u.out = s.out ++ [⟨s.trd.cclk, .sbMiso true⟩]) :
    let t := (u.emit 0 m).sbEnd 3 status
    t.out = s.out ++ [⟨s.trd.cclk, .sbMiso true⟩, ⟨t.trd.cclk, m⟩, ⟨t.trd.cclk, .sbMiso false⟩] := by
  intro t
  have ht : t.trd.cclk = u.trd.cclk := congrArg Trd.cclk (State.sbEnd_trd _ _ _)
  rw [State.sbEnd_out, State.emit_out, hout, ht, List.append_assoc, List.append_assoc]
  rfl

/-- A frame without a status of its own leaves the last WRITE's or READ's (R151). -/
theorem State.sbNoted_other (s : State) (cmd status : Nat) (h : ¬(cmd = 2 ∨ cmd = 3)) :
    s.sbNoted cmd status = { s with out := s.out ++ [⟨s.trd.cclk, .sbMiso false⟩] } := by
  rw [State.sbNoted, if_neg h]

theorem exec_sbUnknown (s : State) (cmd : Nat) (hlt : cmd < 256) (h : cmd ∉ [2, 3, 5]) :
    exec (.sbUnknown cmd) s = .next (s.sbBegin.sbEnd cmd 3) := by
  simp only [List.mem_cons, List.not_mem_nil, or_false, not_or] at h
  refine congrArg Host.Outcome.next (if_neg ?_)
  rw [Nat.mod_eq_of_lt hlt]
  omega

/-- A frame that ends before its command byte is complete leaves a free value of that byte (log 135). -/
theorem exec_sbEarlyEnd_none (s : State) (r : Option (Nat × Bool)) :
    exec (.sbEarlyEnd none r) s = .next (s.sbBegin.nextFree.2.sbEnd (256 + Config.sbCmd s.free % 256) 2) := rfl

/-- A frame that ends early before a READ's request CRC is sampled performs nothing (R155). -/
theorem exec_sbEarlyEnd_some (s : State) (c : Nat) (r : Option (Nat × Bool)) (hlt : c < 256) (hr : c = 3 → r = none) :
    exec (.sbEarlyEnd (some c) r) s = .next (s.sbBegin.sbEnd c 2) := by
  cases r with
  | none => rfl
  | some x =>
    have hc : ¬ c % 256 = 3 := by
      rw [Nat.mod_eq_of_lt hlt]
      exact fun h => absurd (hr h) (by simp)
    exact congrArg (fun u : State => Host.Outcome.next (u.sbEnd c 2)) (if_neg hc)

/-- A WRITE that is accepted lands 27 CCLK after its frame began (R136, R153); in a block whose registers only hold values it is a plain write. -/
theorem State.sbWrite_lands (s : State) (a : Nat) (v : Word) (r : RegRow) (hr : regRow? a = some r) (hal : a % 4 = 0)
    (hb : a / 0x10000 ∈ [5, 7, 8, 17]) (ht : s.boot.tripped = false) (hport : s.hif.wrAt ≠ some (s.trd.cclk + 27)) :
    s.sbReached.portWrite a v = (s.sbReached.onHif fun x => { x with wrAt := some s.sbReached.trd.cclk }).plainWrite a v := by
  rw [State.portWrite_of_idle _ a v (by rw [s.sbReached_hif, s.sbReached_cclk ht]; exact hport),
    State.landWrite_of_plain_block _ a v r hal hr hb]

/-- A READ that is accepted reads 27 CCLK after its frame began (R137, R157). -/
theorem State.sbPerform_of_spool_block (s : State) (a : Nat) (r : RegRow) (hr : regRow? a = some r) (hal : a % 4 = 0) (hb : a / 0x10000 = 7)
    (ht : s.boot.tripped = false) (hport : s.hif.rdAt ≠ some (s.trd.cclk + 27)) :
    s.sbPerform a true = (s.rd a, s.sbReached.onHif fun x => { x with rdAt := some s.sbReached.trd.cclk }) := by
  have hclock : ¬ clockWrites a := by
    rintro (rfl | rfl) <;> revert hb <;> decide
  rw [← s.sbReached_rd a hclock]
  unfold State.sbPerform
  extract_lets u
  rw [if_pos (sbCode_accepted a hal), State.takePort_of_idle u (by rw [s.sbReached_hif, s.sbReached_cclk ht]; exact hport),
    State.readReg_of_spool_block _ _ a r hal hr hb]
  rfl

/-- Settles O18: each frame by its command, its CRC and its address. -/
theorem sidebandFramesReportStatus : Obligations.SidebandFramesReportStatus := by
  intro s drives
  refine ⟨fun cmd hlt hcmd => ?_, fun cmd r hc => ?_, fun a good => ?_, ?_, ?_, fun a v r hr hal hb ht hport => ?_,
    ?_, fun a r hr hal hb ht hport => ?_⟩
  · refine ⟨_, exec_sbUnknown s cmd hlt hcmd, ?_, (State.sbEnd_error _ _ _ (by decide)).1, (State.sbEnd_error _ _ _ (by decide)).2,
      s.sbEnd_out_at_once _ _ _ rfl rfl, ?_⟩
    · rw [State.sbEnd_last, Nat.mod_eq_of_lt hlt, Nat.mul_comm cmd]
    · have hother : ¬(cmd = 2 ∨ cmd = 3) := by
        rintro (rfl | rfl) <;> exact hcmd (by decide)
      rw [State.sbEnd_rest, State.sbNoted_other _ _ _ hother]
      rfl
  · cases cmd with
    | none =>
      refine ⟨_, exec_sbEarlyEnd_none s r, nofun, fun _ => ⟨⟨Config.sbCmd s.free % 256, Nat.mod_lt _ (by decide), ?_⟩, ?_⟩,
        (State.sbEnd_error _ _ _ (by decide)).1, (State.sbEnd_error _ _ _ (by decide)).2, s.sbEnd_out_at_once _ _ _ rfl rfl, ?_⟩
      · rw [State.sbEnd_last]
        congr 1
        omega
      · rw [State.sbEnd_sbStatus, if_neg (by omega)]
        rfl
      · rw [State.sbEnd_rest]
        rfl
    | some c =>
      obtain ⟨hlt, hr⟩ := hc c rfl
      refine ⟨_, exec_sbEarlyEnd_some s c r hlt hr, ?_, nofun, (State.sbEnd_error _ _ _ (by decide)).1,
        (State.sbEnd_error _ _ _ (by decide)).2, s.sbEnd_out_at_once _ _ _ rfl rfl, ?_⟩
      · rintro _ ⟨⟩
        refine ⟨?_, State.sbEnd_sbStatus _ _ _, ?_⟩
        · rw [State.sbEnd_last, Nat.mod_eq_of_lt hlt, Nat.mul_comm c]
        · rw [State.sbEnd_rest]
          rfl
      · rw [State.sbEnd_rest]
        rfl
  · refine ⟨_, rfl, State.sbEnd_last _ _ _, State.sbEnd_sbStatus _ _ _, State.sbEnd_trd _ _ _, ?_⟩
    rw [State.sbEnd_out]
    exact (congrArg (· ++ _) (s.sbPerform_out a good)).trans (List.append_assoc _ _ _)
  · refine ⟨_, rfl, ?_, State.sbEnd_last _ _ _, ?_⟩
    · rw [State.sbEnd_out, State.sbEnd_trd]
      simp [drives, State.sbBegin]
    · rw [State.sbEnd_rest, State.sbNoted_other _ _ _ (by decide)]
      rfl
  · intro a v c good hbad
    have hexec := exec_sbWrite s a c v good rfl
    rw [if_neg (sbCode_refused_ne good a hbad), sbCode_refused good a hbad] at hexec
    refine ⟨_, hexec, ?_, State.sbEnd_sbStatus _ _ _, ?_, ?_, ?_, ?_⟩
    · rw [State.sbEnd_last]
      cases good <;> rfl
    · rw [State.sbEnd_rest, s.sbReached_clockOnly]; rfl
    · rw [State.sbEnd_rest, s.sbReached_clockOnly]; rfl
    · rw [State.sbEnd_rest, s.sbReached_clockOnly]; rfl
    · rw [State.sbEnd_out, s.sbReached_out, List.append_assoc]; rfl
  · have hblock : ¬ clockWrites a ∧ ¬ sbWrites a ∧ a / 0x10000 ∈ [5, 7, 8, 17] := by
      simp only [List.mem_cons, List.not_mem_nil, or_false] at hb ⊢
      refine ⟨?_, ?_, by omega⟩
      · rintro (rfl | rfl) <;> revert hb <;> decide
      · rintro (rfl | rfl | rfl) <;> revert hb <;> decide
    obtain ⟨hclock, hframe, hplain⟩ := hblock
    have hexec := exec_sbWrite s a _ v true (beq_self_eq_true _)
    rw [if_pos (sbCode_accepted a hal), sbCode_accepted a hal, s.sbWrite_lands a v r hr hal hplain ht hport] at hexec
    refine ⟨_, hexec, ?_, ?_, State.sbEnd_last _ _ _, State.sbEnd_sbStatus _ _ _, ?_⟩
    · rw [State.sbEnd_trd, State.plainWrite_trd]
      exact s.sbReached_cclk ht
    · rw [State.sbEnd_rd _ _ _ a hframe, State.rd_plainWrite_of_row _ _ _ r hr, ← s.sbReached_rd a hclock]
      rfl
    · rw [State.sbEnd_out, State.plainWrite_out, State.onHif_out, s.sbReached_out, List.append_assoc]
      rfl
  · intro a c good st hbad
    have hexec := exec_sbRead s a c good rfl
    rw [s.sbPerform_refused a good (sbCode_refused_ne good a hbad), sbCode_refused good a hbad] at hexec
    refine ⟨_, hexec, State.sbEnd_sbStatus _ _ _, s.sbAnswered_out _ _ _ s.sbReached_out, ?_⟩
    rw [State.sbEnd_trd]
    exact s.sbBegin.nowHiSb_elapse 27
  · have hexec := exec_sbRead s a _ true (beq_self_eq_true _)
    rw [s.sbPerform_of_spool_block a r hr hal hb ht hport, sbCode_accepted a hal] at hexec
    refine ⟨_, hexec, ?_, State.sbEnd_sbStatus _ _ _, s.sbAnswered_out _ _ _ s.sbReached_out⟩
    rw [State.sbEnd_trd]
    exact s.sbReached_cclk ht

end Sys2Proof.Machine
end

section
/-! SUPPORT. What a request at the Spool leaves alone: everything but memory, its counters and the free values (R295 to R308, R321 to R328). -/

namespace Sys2Proof.Machine

/-- The blocks of the Spool's and of DRAM's registers, where the counters of memory stand. -/
abbrev memBlock (o : Nat) : Prop := o / 0x10000 = 7 ∨ o / 0x10000 = 8

/-- From `s` to `t` nothing but memory, its registers and the number of free values read has changed. -/
structure State.MemOnly (s t : State) : Prop where
  rest : t = { s with mem := t.mem, regs := t.regs, free := t.free }
  rd : ∀ o, ¬ memBlock o → t.rd o = s.rd o

namespace State.MemOnly

variable {s t u : State}

theorem refl (s : State) : s.MemOnly s := ⟨rfl, fun _ _ => rfl⟩

theorem trans (h : s.MemOnly t) (h' : t.MemOnly u) : s.MemOnly u :=
  ⟨by rw [h'.rest, h.rest], fun o ho => (h'.rd o ho).trans (h.rd o ho)⟩

theorem onMem (h : s.MemOnly t) (f : Mem → Mem) : s.MemOnly (t.onMem f) := h.trans ⟨rfl, fun _ _ => rfl⟩

theorem nextFree (h : s.MemOnly t) : s.MemOnly t.nextFree.2 := h.trans ⟨rfl, fun _ _ => rfl⟩

theorem bump (h : s.MemOnly t) (o : Nat) (ho : memBlock o) : s.MemOnly (t.bump o) := by
  refine h.trans ⟨?_, fun p hp => State.rd_bump_ne _ _ _ fun e => hp (e ▸ ho)⟩
  rcases t.bump_eq_wr o with h' | ⟨v, h'⟩
  · rw [h']
  · rw [h']; rfl

theorem foldl {α : Type} (f : State → α → State) (hf : ∀ (u : State) x, u.MemOnly (f u x)) (l : List α) (h : s.MemOnly t) :
    s.MemOnly (l.foldl f t) :=
  List.foldlRecOn l f h fun u hu x _ => hu.trans (hf u x)

theorem onLine (h : s.MemOnly t) (pa : Nat) (f : SLine → SLine) : s.MemOnly (t.onLine pa f) := by
  unfold State.onLine
  split
  · split
    · exact h.onMem _
    · exact h
  · exact h.onMem _

theorem touch (h : s.MemOnly t) (pa : Nat) : s.MemOnly (t.touch pa) := (h.onMem _).onLine pa _

theorem askFor (h : s.MemOnly t) (kind : DirKind) (holder pa : Nat) (w : Waiter) : s.MemOnly (t.askFor kind holder pa w) := h.onMem _

theorem dropOwn (h : s.MemOnly t) (req pa : Nat) : s.MemOnly (t.dropOwn req pa) := h.onMem _

theorem enqueueReq (h : s.MemOnly t) (q : DramReq) : s.MemOnly (t.enqueueReq q) := by
  unfold State.enqueueReq
  exact h.onMem _

theorem enqueueData (h : s.MemOnly t) (kind : DramKind) (pa : Nat) (cls : MemClass) (req : Nat) (d : List Byte) (p : Bool) (a : Option Nat) :
    s.MemOnly (t.enqueueData kind pa cls req d p a) := by
  unfold State.enqueueData
  extract_lets c base
  split
  · exact (h.onMem _).enqueueReq _
  · split
    · exact h.enqueueReq _
    · exact (h.enqueueReq _).enqueueReq _

theorem writeBack (h : s.MemOnly t) (l : SLine) : s.MemOnly (t.writeBack l) := by
  unfold State.writeBack
  extract_lets t1 g q
  split
  · exact (h.onMem _).enqueueData _ _ _ _ _ _ _
  · split
    · exact (h.onMem _).onMem _
    · exact (State.MemOnly.foldl _ (fun u _ => (refl u).enqueueData _ _ _ _ _ _ _) _ ((h.onMem _).onMem _)).bump _ (.inr (by decide))

theorem evictWay (h : s.MemOnly t) (pa way : Nat) (r : Option (List Byte)) : s.MemOnly (t.evictWay pa way r) := by
  unfold State.evictWay
  split
  · exact h
  · extract_lets l1 t1
    split
    · exact (h.onMem _).writeBack _
    · exact h.onMem _

theorem takeBack (h : s.MemOnly t) (pa : Nat) : s.MemOnly (t.takeBack pa) := by
  unfold State.takeBack
  split
  · split
    · split
      · exact h.nextFree.onLine _ _
      · exact h.nextFree
    · split
      · exact h.nextFree.onLine _ _
      · exact h.nextFree
    · exact h
  · exact h

theorem allocate (h : s.MemOnly t) (l : SLine) (ws : List Nat) (r : Option (List Byte)) : s.MemOnly (t.allocate l ws r) := by
  unfold State.allocate
  split
  · exact h
  · exact ((h.evictWay _ _ _).onMem _).onMem _

theorem allocateNow (h : s.MemOnly t) (l : SLine) (cls : MemClass) : s.MemOnly (t.allocateNow l cls) := by
  unfold State.allocateNow
  extract_lets ws
  split
  · exact (h.takeBack _).allocate _ _ _
  · exact h.allocate _ _ _

/-- A delivery to a unit that is no loom. -/
theorem deliver (h : s.MemOnly t) (later req tag pa : Nat) (d : List Byte) (darn : Bool) (hr : 32 ≤ req) :
    s.MemOnly (t.deliver later req tag pa d darn) := by
  rw [State.deliver, if_neg fun hc => absurd hc.1 (Nat.not_lt.mpr hr)]
  exact h.onMem _

theorem miss (h : s.MemOnly t) (pa : Nat) (w : Waiter) : s.MemOnly (t.miss pa w) := by
  unfold State.miss
  split
  · exact (h.onMem _).bump _ (.inl (by decide))
  · split
    · exact (h.onMem _).enqueueData _ _ _ _ _ _ _
    · exact (h.onMem _).bump _ (.inl (by decide))

end State.MemOnly

/-- A read of a line by a unit that is no loom. -/
theorem State.memOnly_spoolRead (s : State) (req tag pa : Nat) (cls : MemClass) (hr : 32 ≤ req) : s.MemOnly (s.spoolRead req tag pa cls) := by
  have hs := State.MemOnly.refl s
  unfold State.spoolRead
  extract_lets w
  split
  · exact hs.deliver _ _ _ _ _ _ hr
  · split
    · split
      · exact (hs.touch _).deliver _ _ _ _ _ _ hr
      · split
        · exact hs.askFor _ _ _ _
        · split
          · exact .foldl _ (fun u _ => (State.MemOnly.refl u).askFor _ _ _ _) _ hs
          · exact (hs.touch _).deliver _ _ _ _ _ _ hr
    · split
      · exact hs.miss _ _
      · exact (hs.deliver _ _ _ _ _ _ hr).bump _ (.inr (by decide))

theorem State.memOnly_mergeWrite (s : State) (req tag pa : Nat) (d : List Byte) (cls : MemClass) (darned : Bool) (l : SLine) (hr : 32 ≤ req) :
    s.MemOnly (s.mergeWrite req tag pa d cls darned l) := by
  have hmerged (f : Mem → Mem) (g : SLine → SLine) : s.MemOnly (((s.onMem f).touch pa).onLine pa g) :=
    (((State.MemOnly.refl s).onMem f).touch pa).onLine pa g
  unfold State.mergeWrite
  extract_lets coh s1 s2
  refine State.MemOnly.deliver ?_ _ _ _ _ _ _ hr
  split
  · exact (hmerged _ _).bump _ (.inl (by decide))
  · exact hmerged _ _

/-- A write inside a line by a unit that is no loom. -/
theorem State.memOnly_spoolWrite (s : State) (req tag pa : Nat) (data : List Byte) (cls : MemClass) (darned : Bool) (hr : 32 ≤ req) :
    s.MemOnly (s.spoolWrite req tag pa data cls darned) := by
  have hs := State.MemOnly.refl s
  have hown := hs.dropOwn req pa
  unfold State.spoolWrite
  extract_lets d w own fresh s1
  split
  · exact hs.deliver _ _ _ _ _ _ hr
  · split
    · split
      · exact hs.askFor _ _ _ _
      · split
        · exact .foldl _ (fun u _ => (State.MemOnly.refl u).askFor _ _ _ _) _ hs
        · exact s.memOnly_mergeWrite _ _ _ _ _ _ _ hr
    · split
      · exact hown.miss _ _
      · split
        · split
          · exact hown.enqueueData _ _ _ _ _ _ _
          · exact hown.miss _ _
        · split
          · refine State.MemOnly.deliver ?_ _ _ _ _ _ _ hr
            split
            · exact (hown.allocateNow _ _).bump _ (.inl (by decide))
            · exact hown.allocateNow _ _
          · exact hown.miss _ _

end Sys2Proof.Machine
end

section
/-! PROOF. The BAR2 aperture (R131 to R134, R145, R842). -/

namespace Sys2Proof.Machine

/-! The lines of a run of bytes. -/

theorem linesFrom_length_pos (a n : Nat) (h : 0 < n) : 0 < (linesFrom a n).length := by
  rw [linesFrom, List.length_map, List.length_range]
  omega

theorem linesFrom_inside (a n : Nat) (h : 0 < n) (hn : a % 128 + n ≤ 128) : linesFrom a n = [lineOf a] := by
  have hone : (a % 128 + n + 127) / 128 = 1 := by omega
  rw [linesFrom, hone]
  rfl

/-! Reads. -/

/-- A BAR2 read is in hand (R842). -/
def State.bar2Queued (s : State) (off n : Nat) : State :=
  { s with hif := { s.hif with bar2 := s.hif.bar2 ++ [{ addr := s.bar2Addr off, len := n, sent := 0 }] } }

theorem exec_bar2Read_open (s : State) (off n : Nat) (h : s.bar2Open off = true) :
    exec (.bar2Read off n) s = .next ((s.bar2Queued off n).bar2Lines (linesFrom (s.bar2Addr off) n)) := if_pos h

/-- The line requests of a read issue one in a CCLK, and change nothing of the host interface (R842). -/
theorem State.bar2Lines_kept (l : List Nat) (s : State) (hl : 0 < l.length) (ht : s.boot.tripped = false) :
    (s.bar2Lines l).hif = s.hif ∧ (s.bar2Lines l).trd.cclk + 1 = s.trd.cclk + l.length := by
  induction l generalizing s with
  | nil => exact absurd hl (Nat.lt_irrefl 0)
  | cons pa pas ih =>
    have hread := (s.memOnly_spoolRead 32 0 pa .bulk (by decide)).rest
    cases pas with
    | nil => exact ⟨by rw [State.bar2Lines, hread], by rw [State.bar2Lines, hread]; rfl⟩
    | cons pb rest =>
      have hboot : (s.spoolRead 32 0 pa .bulk).boot.tripped = false := by rw [hread]; exact ht
      have hlines : s.bar2Lines (pa :: pb :: rest) = (s.spoolRead 32 0 pa .bulk).tick.bar2Lines (pb :: rest) := rfl
      have htick := (s.spoolRead 32 0 pa .bulk).clockOnly_tick
      obtain ⟨hhif, hcclk⟩ := ih (s.spoolRead 32 0 pa .bulk).tick (Nat.succ_pos _) (by rw [htick]; exact hboot)
      refine ⟨?_, ?_⟩
      · rw [hlines, hhif, htick, hread]
      · rw [hlines, hcclk, ((s.spoolRead 32 0 pa .bulk).tick_trd hboot).2, hread]
        simp only [List.length_cons]
        omega

/-! Completions. -/

/-- The next completion of a read carries a byte or more, at most Max Payload Size, and ends the read or at a 128-byte boundary (R842). -/
theorem State.bar2Chunk_bounds (s : State) (r : Bar2Read) (hr : r.sent < r.len) (hm : 128 ≤ s.hif.mps) :
    0 < s.bar2Chunk r ∧ s.bar2Chunk r ≤ s.hif.mps ∧ r.sent + s.bar2Chunk r ≤ r.len ∧
      (r.sent + s.bar2Chunk r = r.len ∨ (r.addr + r.sent + s.bar2Chunk r) % 128 = 0) := by
  unfold State.bar2Chunk
  extract_lets a left
  have hleft : left = r.len - r.sent := rfl
  split
  · omega
  · omega

/-- The bytes that a completion takes from the lines that have arrived. -/
def State.bar2Got (s : State) (r : Bar2Read) : List Delivery :=
  (linesFrom (r.addr + r.sent) (s.bar2Chunk r)).filterMap fun l => s.hostLine l

/-- The completion that the bytes which have arrived make (R842). -/
def State.bar2Tlp (s : State) (r : Bar2Read) : Tlp where
  msg := .bar2Data ((((s.bar2Got r).flatMap fun d => d.data).drop ((r.addr + r.sent) % 128)).take (s.bar2Chunk r))
  fn := none
  after := ((s.bar2Got r).map fun d => d.cclk).foldl max 0 + 16
  event := none
  chain := .bar2 (r.sent == 0)

/-- What is left of the read in hand and of the lines that have arrived once the completion is made. -/
def State.bar2Taken (s : State) (r : Bar2Read) (rest : List Bar2Read) : State :=
  let gone := if r.len ≤ r.sent + s.bar2Chunk r then s.bar2Got r
    else (s.bar2Got r).filter fun d => d.pa + 128 ≤ r.addr + r.sent + s.bar2Chunk r
  { s with
    hif := { s.hif with
      bar2 := if r.len ≤ r.sent + s.bar2Chunk r then rest else { r with sent := r.sent + s.bar2Chunk r } :: rest }
    mem := { s.mem with arrived := gone.foldl (fun l d => l.erase d) s.mem.arrived } }

theorem exec_bar2Completion_arrived (s : State) (r : Bar2Read) (rest : List Bar2Read) (hq : s.hif.bar2 = r :: rest)
    (hin : ∀ l ∈ linesFrom (r.addr + r.sent) (s.bar2Chunk r), s.hostLine l ≠ none) :
    exec .bar2Completion s = .next ((s.bar2Taken r rest).send (s.bar2Tlp r)) := by
  have hall : ((linesFrom (r.addr + r.sent) (s.bar2Chunk r)).any fun l => (s.hostLine l).isNone) = false := by
    simpa [List.any_eq_false, Option.isSome_iff_ne_none] using hin
  change execBar2Completion s = _
  simp only [execBar2Completion, hq, hall]
  rfl

/-- A completion of a BAR2 read for which there is credit on a link that is up begins at its CCLK, but not before the one before it of the same
read (R142, R842). -/
theorem State.send_bar2Tlp (u s : State) (r : Bar2Read) (hl : u.linkUp = true) (hc : 0 < u.hif.credit) :
    u.send (s.bar2Tlp r) = { u with
      out := u.out ++ [⟨max (max (s.bar2Tlp r).after u.trd.cclk) (if r.sent = 0 then 0 else u.hif.lastBar2 + 1), (s.bar2Tlp r).msg⟩]
      hif := u.hif.sent (s.bar2Tlp r) (max (max (s.bar2Tlp r).after u.trd.cclk) (if r.sent = 0 then 0 else u.hif.lastBar2 + 1)) u.trd.now } := by
  have hmay : u.maySend (s.bar2Tlp r) = true := by simp [State.maySend, State.bar2Tlp, Tlp.isPtm, hl, hc]
  have hat : u.beginAt (s.bar2Tlp r) = max (max (s.bar2Tlp r).after u.trd.cclk) (if r.sent = 0 then 0 else u.hif.lastBar2 + 1) := by
    rw [State.beginAt]
    by_cases h : r.sent = 0
    · simp [State.bar2Tlp, h]
    · simp [State.bar2Tlp, beq_false_of_ne h, h]
  rw [State.send, if_pos hmay, State.transmit, hat]
  rfl

/-! Writes. -/

/-- A write inside a line of the aperture: none in the image region or beyond DRAM (R132, R133). -/
def State.apertureWrite (s : State) (pa : Nat) (d : List Byte) : State :=
  if pa < s.imageTop ∨ s.dramTop ≤ pa then s else s.spoolWrite 32 0 pa d .bulk false

theorem State.memOnly_apertureWrite (s : State) (pa : Nat) (d : List Byte) : s.MemOnly (s.apertureWrite pa d) := by
  unfold State.apertureWrite
  split
  · exact .refl s
  · exact s.memOnly_spoolWrite _ _ _ _ _ _ (by decide)

theorem State.spoolWriteRun_nil (n : Nat) (s : State) (pa : Nat) : State.spoolWriteRun n s pa [] = s := by
  cases n <;> rfl

theorem State.spoolWriteRun_succ (n : Nat) (s : State) (pa : Nat) (d : List Byte) (h : 0 < d.length) :
    State.spoolWriteRun (n + 1) s pa d = State.spoolWriteRun n (s.apertureWrite pa (d.take (128 - pa % 128))) (pa + (128 - pa % 128))
      (d.drop (128 - pa % 128)) :=
  if_neg (by simpa [List.isEmpty_iff, ← List.length_pos_iff] using h)

/-- A run inside a line is one write. -/
theorem State.spoolWriteRun_inside (n : Nat) (s : State) (pa : Nat) (d : List Byte) (h : 0 < d.length) (hin : d.length ≤ 128 - pa % 128) :
    State.spoolWriteRun (n + 1) s pa d = s.apertureWrite pa d := by
  rw [State.spoolWriteRun_succ n s pa d h, List.take_of_length_le hin, List.drop_eq_nil_of_le hin, State.spoolWriteRun_nil]

/-- Two bounds that both reach the end of a run from a line's first byte write the same. -/
theorem State.spoolWriteRun_fuel (n m : Nat) (s : State) (pa : Nat) (d : List Byte) (ha : pa % 128 = 0) (hn : d.length ≤ 128 * n)
    (hm : d.length ≤ 128 * m) : State.spoolWriteRun n s pa d = State.spoolWriteRun m s pa d := by
  induction n generalizing m s pa d with
  | zero =>
    obtain rfl : d = [] := List.length_eq_zero_iff.mp (by omega)
    exact (State.spoolWriteRun_nil m s pa).symm
  | succ n ih =>
    rcases Nat.eq_zero_or_pos d.length with h | h
    · obtain rfl : d = [] := List.length_eq_zero_iff.mp h
      rw [State.spoolWriteRun_nil, State.spoolWriteRun_nil]
    · obtain ⟨m, rfl⟩ : ∃ k, m = k + 1 := ⟨m - 1, by omega⟩
      rw [State.spoolWriteRun_succ n s pa d h, State.spoolWriteRun_succ m s pa d h]
      exact ih _ _ _ _ (by omega) (by rw [List.length_drop]; omega) (by rw [List.length_drop]; omega)

theorem exec_bar2Write_open (s : State) (off : Nat) (d : List Byte) (h : s.bar2Open off = true) :
    exec (.bar2Write off d) s = .next (State.spoolWriteRun (d.length / 128 + 2) s (s.bar2Addr off) d) := congrArg Host.Outcome.next (if_pos h)

/-- What writes through the aperture change is none of what the aperture depends on (R131, R135, R145). -/
theorem State.MemOnly.bar2Open {s t : State} (h : s.MemOnly t) (off : Nat) : t.bar2Open off = s.bar2Open off := by
  have hd3 : t.d3hot = s.d3hot := congrArg (· != 0) (State.fld_of_rd (h.rd Reg.HIF_STATUS (by decide)) _)
  have hhif : t.hif = s.hif := by rw [h.rest]
  simp only [State.bar2Open, State.linkTakes, State.fnCfg, hd3, hhif]

theorem State.MemOnly.bar2Addr {s t : State} (h : s.MemOnly t) (off : Nat) : t.bar2Addr off = s.bar2Addr off := by
  rw [State.bar2Addr, State.fld_of_rd (h.rd Reg.HIF_BAR2_WIN (by decide))]
  rfl

/-- Settles O21: a read by the lines it asks for, a completion by the lines that have come, and a write by the lines it crosses. -/
theorem theApertureReachesDram : Obligations.TheApertureReachesDram := by
  intro s
  refine ⟨fun off n hn hopen => ⟨fun hin => ?_, fun ht => ?_⟩, fun off n hshut hp hl hc => ?_, fun r rest hq hr hm hl hc => ?_,
    fun off d hshut => ?_, fun off d hopen hd => ⟨fun hin => ?_, ?_⟩⟩
  · rw [exec_bar2Read_open s off n hopen, linesFrom_inside _ n hn hin]
    rfl
  · obtain ⟨hhif, hcclk⟩ := State.bar2Lines_kept _ (s.bar2Queued off n) (linesFrom_length_pos (s.bar2Addr off) n hn) ht
    exact ⟨_, exec_bar2Read_open s off n hopen, by rw [hhif]; rfl, hcclk⟩
  · obtain ⟨h, hsent⟩ := s.completeRead_sent 32 .unsupported hp hl hc nofun
    refine ⟨_, (if_neg (by simp [hshut])).trans (congrArg Host.Outcome.next hsent), rfl, rfl⟩
  · intro a n got hin
    obtain ⟨hpos, hmps, hlen, hend⟩ := s.bar2Chunk_bounds r hr hm
    have hlast : r.len ≤ r.sent + n ↔ r.sent + n = r.len := ⟨fun h => Nat.le_antisymm hlen h, fun h => h.ge⟩
    have hsent := (s.bar2Taken r rest).send_bar2Tlp s r hl hc
    refine ⟨⟨hpos, hmps, hlen, hend⟩, _, exec_bar2Completion_arrived s r rest hq hin, ?_, ?_, ?_⟩
    · rw [hsent]
      exact if_congr hlast rfl rfl
    · rw [hsent]
      rfl
    · rw [hsent]
      rfl
  · exact congrArg Host.Outcome.next (if_neg (by simp [hshut]))
  · rw [exec_bar2Write_open s off d hopen, State.spoolWriteRun_inside _ _ _ _ hd (by omega)]
    rfl
  · intro k hk hopen'
    have htake : (d.take k).length = k := by rw [List.length_take]; omega
    have hmem := s.memOnly_apertureWrite (s.bar2Addr off) (d.take k)
    refine ⟨s.apertureWrite (s.bar2Addr off) (d.take k), ?_, ?_⟩
    · rw [exec_bar2Write_open s off _ hopen, State.spoolWriteRun_inside _ _ _ _ (by omega) (by omega)]
    · have haddr : s.bar2Addr (off + k) = s.bar2Addr off + k := (Nat.add_assoc _ _ _).symm
      rw [exec_bar2Write_open s off d hopen, exec_bar2Write_open _ (off + k) _ ((hmem.bar2Open _).trans hopen'), hmem.bar2Addr, haddr,
        State.spoolWriteRun_succ _ s _ d hd]
      exact congrArg Host.Outcome.next (State.spoolWriteRun_fuel _ _ _ _ _ (by omega) (by rw [List.length_drop]; omega)
        (by rw [List.length_drop]; omega))

end Sys2Proof.Machine
end

section
/-! PROOF. The end of a drain over a scoreboard in which two entries share a ring and SEQ (R228, Tables 4.8 and 4.9). -/

namespace Sys2Proof.Machine

/-! What the steps of a drain's end leave of the registers. -/

/-- Step D4 touches memory alone (R325). -/
theorem State.clearOwned_eq (s : State) (n : Nat) : s.clearOwned n = { s with mem := (s.clearOwned n).mem } := by
  unfold State.clearOwned
  extract_lets own mine
  exact List.foldlRecOn own State.clearGranule (motive := fun t : State => t = { s with mem := t.mem }) rfl
    fun t ht g _ => by rw [State.clearGranule, State.onMem, ht]

/-- With the sequence engine disabled step D5 releases the far-tier pages alone (R589). -/
theorem State.releasePages_of_kvOff (s : State) (n : Nat) (h : s.kvOn = false) : s.releasePages n = { s with sht := (s.releasePages n).sht } := by
  have hseqs : s.drainSeqs n = s := if_pos (.inl h)
  rw [State.releasePages, hseqs]
  rfl

/-- Steps D4 and D5 leave the registers and the tenants as they are where the engine is disabled. -/
theorem State.freed_kept (s : State) (n : Nat) (h : s.kvOn = false) :
    (∀ o, ((s.clearOwned n).releasePages n).rd o = s.rd o) ∧ ∀ m, ((s.clearOwned n).releasePages n).tenant m = s.tenant m := by
  have hoff : (s.clearOwned n).kvOn = false := by rw [s.clearOwned_eq n]; exact h
  rw [(s.clearOwned n).releasePages_of_kvOff n hoff, s.clearOwned_eq n]
  exact ⟨fun _ => rfl, fun _ => rfl⟩

/-- The end of a TEN_STOP's or a VF FLR's drain writes QRG_CFG of the tenant's rings and TEN_CFG (Table 4.8). -/
theorem State.rd_endDrain_of_narrow (s : State) (n : Nat) (k : DrainKind) (hk : k.rank ≤ 1) (o : Nat) (hring : ∀ g, o ≠ Reg.QRG_CFG g)
    (hten : o ≠ Reg.TEN_CFG n) : (s.endDrain n k).rd o = s.rd o := by
  have hrings : ((s.ringsOf n).foldl (fun t g =>
      ((t.setRing g Ring.idle).setFld (Reg.QRG_CFG g) Reg.QRG_CFG_EN 0).setFld (Reg.QRG_CFG g) Reg.QRG_CFG_DRAINING 0) s).rd o = s.rd o :=
    List.foldlRecOn _ _ (motive := fun t : State => t.rd o = s.rd o) rfl fun t ht g _ => by
      rw [State.rd_setFld_ne _ _ _ _ _ (hring g), State.rd_setFld_ne _ _ _ _ _ (hring g)]
      exact ht
  unfold State.endDrain
  extract_lets rings s1 s2 s3
  have hs2 : s2.rd o = s.rd o := by
    change (if k.rank ≤ 1 then s1 else s1.resetTenant n rings).rd o = _
    rw [if_pos hk]
    exact hrings
  exact (State.rd_setFld_ne s2 _ _ _ _ hten).trans hs2

/-- QRG_BASE_LO is no ring's QRG_CFG (Table 4.12). -/
theorem Reg.QRG_BASE_LO_ne_QRG_CFG (g h : Nat) : Reg.QRG_BASE_LO g ≠ Reg.QRG_CFG h := by
  simp only [Reg.QRG_BASE_LO, Reg.QRG_CFG]
  omega

/-- The end of a TEN_STOP's drain leaves a register that is no ring's QRG_CFG and not the tenant's TEN_CFG as step D3 has left it, where the
engine is disabled. -/
theorem exec_drainComplete_rd (s t : State) (n : Fin 256) (hd : s.draining n = true) (hexec : exec (.drainComplete n) s = .next t)
    (hk : (((s.finishDescs n).clearHeld n).tenant n).drain = some .tenStop) (hoff : ((s.finishDescs n).clearHeld n).kvOn = false) (o : Nat)
    (hring : ∀ g, o ≠ Reg.QRG_CFG g) (hten : o ≠ Reg.TEN_CFG n) : t.rd o = ((s.finishDescs n).clearHeld n).rd o := by
  obtain ⟨hrd, htenant⟩ := ((s.finishDescs n).clearHeld n).freed_kept n hoff
  have hdone : exec (.drainComplete n) s =
      .next (((((s.finishDescs n).clearHeld n).clearOwned n).releasePages n).endDrain n .tenStop) := by
    change execDrainComplete n s = _
    rw [execDrainComplete, if_pos hd]
    simp only [htenant, hk]
  rw [Host.Outcome.next.inj (hexec.symm.trans hdone), State.rd_endDrain_of_narrow _ _ _ (by decide) _ hring hten, hrd]

/-! The state. -/

/-- A descriptor of ring 0 with SEQ 0, of a tenant, that waits. -/
def waitingOf (tenant : Nat) : Desc :=
  { ring := 0, seq := 0, tenant := tenant, order := 0, bytes := [], profile := Profile.zero, coll := false, phase := .waiting, late := false,
    hit := false, waitHit := none, dispAt := none, start := Stamp.frameStart 0, since := 0, picks := 0, work := [], stop := none, stopAt := 0,
    used := 0, cleared := false, stopped := false, darned := false, status := 0, detail := 0 }

/-- Tenant 0 drains after a TEN_STOP, and its descriptor stands behind one of the same ring and SEQ whose tenant number, 0x5700, is none of the 256
tenants: what TEN_ABORT_CNT would be for that number is the offset of QRG_BASE_LO of ring 0. -/
def strayTenant : State :=
  ({ State.reset with ten := { Ten.reset with descs := [waitingOf 0x5700, waitingOf 0] } } : State).setTenant 0
    { Tenant.idle with drain := some .tenStop }

theorem strayTenant_drains : (strayTenant.tenant (0 : Fin 256).val).drain = some .tenStop ∧ strayTenant.draining (0 : Fin 256).val = true ∧
    0 ∈ strayTenant.ringsOf (0 : Fin 256).val ∧ strayTenant.rd (Reg.QRG_BASE_LO 0) = 0#32 := by
  decide +kernel

/-- The abort of the stray descriptor is counted in the ring's base address. -/
theorem strayTenant_counts :
    ((strayTenant.finishDescs (0 : Fin 256).val).clearHeld (0 : Fin 256).val).rd (Reg.QRG_BASE_LO 0) = 1#32 ∧
    (((strayTenant.finishDescs (0 : Fin 256).val).clearHeld (0 : Fin 256).val).tenant (0 : Fin 256).val).drain = some .tenStop ∧
    ((strayTenant.finishDescs (0 : Fin 256).val).clearHeld (0 : Fin 256).val).kvOn = false := by
  decide +kernel

/-- Refutes O26: two entries of the scoreboard share a ring and SEQ, and the first one's tenant number is out of range. As the drain of tenant 0
ends, the abort of that entry is counted at the offset which is QRG_BASE_LO of ring 0, and the base address does not stay as TEN_STOP leaves it. -/
theorem not_resetsDrainTenants : ¬ Obligations.ResetsDrainTenants := by
  intro h
  obtain ⟨hdrain, hdraining, hring, hbase⟩ := strayTenant_drains
  obtain ⟨hcount, hstop, hoff⟩ := strayTenant_counts
  obtain ⟨-, -, hend, -⟩ := h strayTenant
  obtain ⟨t, hexec, -, -, -, hrings, -⟩ := hend 0 .tenStop hdrain
  obtain ⟨-, -, -, hkept⟩ := hrings 0 hring
  have hcounted := (exec_drainComplete_rd strayTenant t 0 hdraining hexec hstop hoff _ (Reg.QRG_BASE_LO_ne_QRG_CFG 0) (by decide)).trans hcount
  rw [hcounted, if_pos (by decide), hbase] at hkept
  exact absurd hkept (by decide)

end Sys2Proof.Machine
end

section
/-! SUPPORT. Rings, tenants, vectors and scoreboard entries: what reading after a write gives, and what the scoreboard's second look leaves. -/

namespace Sys2Proof.Machine

/-! Rings, tenants and vectors. -/

theorem State.ring_setRing (s : State) (g h : Nat) (r : Ring) : (s.setRing g r).ring h = if h = g then r else s.ring h :=
  tblGet_tblSet _ s.ten.rings g h r

@[simp] theorem State.ring_setRing_self (s : State) (g : Nat) (r : Ring) : (s.setRing g r).ring g = r := by
  rw [State.ring_setRing, if_pos rfl]

theorem State.ring_setRing_ne (s : State) (g h : Nat) (r : Ring) (hne : h ≠ g) : (s.setRing g r).ring h = s.ring h := by
  rw [State.ring_setRing, if_neg hne]

theorem State.tenant_setTenant_self (s : State) (n : Nat) (x : Tenant) : (s.setTenant n x).tenant n = x :=
  (tblGet_tblSet _ s.ten.tenants n n x).trans (if_pos rfl)

theorem State.vector_setVector (s : State) (v u : Nat) (x : Vector) : (s.setVector v x).vector u = if u = v then x else s.vector u :=
  tblGet_tblSet _ s.ten.vectors v u x

@[simp] theorem State.vector_setVector_self (s : State) (v : Nat) (x : Vector) : (s.setVector v x).vector v = x := by
  rw [State.vector_setVector, if_pos rfl]

theorem State.vector_setVector_ne (s : State) (v u : Nat) (x : Vector) (hne : u ≠ v) : (s.setVector v x).vector u = s.vector u := by
  rw [State.vector_setVector, if_neg hne]

/-- A ring reads as the table of rings says. -/
theorem State.ring_congr {s t : State} (h : t.ten.rings = s.ten.rings) (g : Nat) : t.ring g = s.ring g := by
  rw [State.ring, h]; rfl

theorem State.vector_congr {s t : State} (h : t.ten.vectors = s.ten.vectors) (v : Nat) : t.vector v = s.vector v := by
  rw [State.vector, h]; rfl

/-- A count changes the registers alone. -/
theorem State.bump_rest (s : State) (o : Nat) : s.bump o = { s with regs := (s.bump o).regs } :=
  ((State.WritesIn.refl (· = o) s).bump o rfl).rest

@[simp] theorem State.ring_bump (s : State) (o g : Nat) : (s.bump o).ring g = s.ring g := State.ring_congr (by rw [State.bump_ten]) g

@[simp] theorem State.vector_bump (s : State) (o v : Nat) : (s.bump o).vector v = s.vector v := State.vector_congr (by rw [State.bump_ten]) v

/-! Entries of the scoreboard. -/

/-- What the scoreboard makes of an entry when it looks again (R259). -/
def State.relook (s : State) (d : Desc) : Desc := s.lookAt (s.noteWait d)

/-- A second look notes the launch, WAIT_STAMP's match and the dispatch CCLK, and nothing else. -/
theorem State.relook_eq (s : State) (d : Desc) : ∃ hit wait disp, s.relook d = { d with hit := hit, waitHit := wait, dispAt := disp } := by
  have hwait : ∃ wait, s.noteWait d = { d with waitHit := wait } := by
    unfold State.noteWait
    split <;> exact ⟨_, rfl⟩
  obtain ⟨wait, hwait⟩ := hwait
  unfold State.relook State.lookAt
  rw [hwait]
  split
  · exact ⟨_, _, _, rfl⟩
  · dsimp only
    split <;> exact ⟨_, _, _, rfl⟩

theorem State.refreshReady_descs (s : State) : s.refreshReady.ten.descs = s.ten.descs.map s.relook := rfl

/-- An entry that is found has the ring and SEQ asked for, and stands in the scoreboard. -/
theorem State.desc?_some {s : State} {g q : Nat} {d : Desc} (h : s.desc? g q = some d) : d ∈ s.ten.descs ∧ d.ring = g ∧ d.seq = q := by
  have hkey := List.find?_some h
  simp only [Bool.and_eq_true, beq_iff_eq] at hkey
  exact ⟨List.mem_of_find?_eq_some h, hkey⟩

/-- The entry of a ring and SEQ that one stands for. -/
theorem State.desc?_isSome {s : State} {d : Desc} (h : d ∈ s.ten.descs) : ∃ e, s.desc? d.ring d.seq = some e :=
  Option.isSome_iff_exists.mp (List.find?_isSome.mpr ⟨d, h, by simp⟩)

/-- An entry that takes the place of another is found under its ring and SEQ. -/
theorem State.desc?_setDesc {s : State} {d e : Desc} (h : s.desc? d.ring d.seq = some e) : (s.setDesc d).desc? d.ring d.seq = some d := by
  obtain ⟨hmem, hring, hseq⟩ := State.desc?_some h
  have hsome : ((s.setDesc d).desc? d.ring d.seq).isSome = true := by
    refine List.find?_isSome.mpr ⟨d, List.mem_map.mpr ⟨e, hmem, ?_⟩, by simp⟩
    rw [if_pos (by simp [hring, hseq])]
  obtain ⟨x, hx⟩ := Option.isSome_iff_exists.mp hsome
  obtain ⟨hx', hxr, hxq⟩ := State.desc?_some hx
  obtain ⟨y, -, hy⟩ := List.mem_map.mp hx'
  rw [hx]
  split at hy
  · rw [← hy]
  · rename_i hne
    subst hy
    simp [hxr, hxq] at hne

/-! Records. -/

theorem leNat_leBytes (n x : Nat) : leNat (leBytes n x) = x % 256 ^ n := by
  induction n generalizing x with
  | zero => simp [leBytes, leNat, Nat.mod_one]
  | succ n ih =>
    rw [leBytes, leNat, ih, BitVec.toNat_ofNat, show 256 ^ (n + 1) = 256 * 256 ^ n from pow_succ' 256 n, Nat.mod_mul]

/-- The fields of a completion record (Table 4.4). -/
theorem bytesAt_recordBytes (tag seq status detail : Nat) (phase late cleared : Bool) (looms ring start finish : Nat) :
    let l := recordBytes tag seq status detail phase late cleared looms ring start finish
    l.length = 32 ∧ bytesAt l 0 4 = tag % 2 ^ 32 ∧ bytesAt l 4 4 = seq % 2 ^ 32 ∧ bytesAt l 8 1 = status % 256 ∧
    bytesAt l 9 1 = detail % 256 ∧
    bytesAt l 0x0A 1 = (if phase then 1 else 0) + (if late then 2 else 0) + (if cleared then 4 else 0) ∧
    bytesAt l 0x0B 1 = looms % 256 ∧ bytesAt l 0x0C 2 = ring % 65536 ∧ bytesAt l 0x10 6 = start % 2 ^ 48 ∧
    bytesAt l 0x18 6 = finish % 2 ^ 48 := by
  refine ⟨rfl, leNat_leBytes 4 tag, leNat_leBytes 4 seq, leNat_leBytes 1 status, leNat_leBytes 1 detail, ?_, leNat_leBytes 1 looms,
    leNat_leBytes 2 ring, leNat_leBytes 6 start, leNat_leBytes 6 finish⟩
  refine (leNat_leBytes 1 _).trans (Nat.mod_eq_of_lt ?_)
  cases phase <;> cases late <;> cases cleared <;> decide

end Sys2Proof.Machine
end

section
/-! SUPPORT. The end of a descriptor: what leaves the scoreboard with it, and what its record is (R193, R199 to R204, R212, R218, R270). -/

namespace Sys2Proof.Machine

/-! What goes with the descriptor. -/

/-- The entries that stay when a descriptor leaves the scoreboard. -/
def State.othersThan (s : State) (d : Desc) : List Desc := s.ten.descs.filter fun e => !(e.ring == d.ring && e.seq == d.seq)

theorem State.mem_othersThan {s : State} {d e : Desc} : e ∈ s.othersThan d ↔ e ∈ s.ten.descs ∧ ¬(e.ring = d.ring ∧ e.seq = d.seq) := by
  simp only [State.othersThan, List.mem_filter, Bool.not_eq_true', Bool.and_eq_false_iff, beq_eq_false_iff_ne, not_and_or, ne_eq]

theorem State.removeDesc_eq (s : State) (d : Desc) : s.removeDesc d = { s with
    ten := { s.ten with descs := s.othersThan d }
    looms := s.looms.map (Loom.released d.ring d.seq)
    sht := (s.removeDesc d).sht
    slv := (s.removeDesc d).slv } := by
  unfold State.removeDesc State.dropColl
  split <;> rfl

/-- A charge changes a tenant's deficit alone (R212). -/
theorem State.chargeDrr_eq (s : State) (d : Desc) : ∃ tenants, s.chargeDrr d = { s with ten := { s.ten with tenants := tenants } } := by
  unfold State.chargeDrr
  extract_lets n t
  split <;> exact ⟨_, rfl⟩

/-- The state a descriptor leaves when it ends with a status, before its record is on its way: it is gone, its tenant's class is charged, and a
failed collective is counted. -/
def State.leftBy (s : State) (d : Desc) (status : Nat) : State :=
  let s1 := (if d.isControl || d.used != 0 then s else s.nextFree.2).removeDesc d
  let s2 := if d.used != 0 && !d.isControl then s1.chargeDrr d else s1
  if d.coll && status != 0 then s2.bump Reg.SLV_COLL_FAIL_CNT else s2

theorem State.leftBy_eq (s : State) (d : Desc) (status : Nat) : ∃ tenants, s.leftBy d status = { s with
    ten := { s.ten with descs := s.othersThan d, tenants := tenants }
    looms := s.looms.map (Loom.released d.ring d.seq)
    sht := (s.leftBy d status).sht
    slv := (s.leftBy d status).slv
    regs := (s.leftBy d status).regs
    free := (s.leftBy d status).free } := by
  unfold State.leftBy
  extract_lets s1 s2
  have h1 : s1 = { s with
      ten := { s.ten with descs := s.othersThan d }
      looms := s.looms.map (Loom.released d.ring d.seq)
      sht := s1.sht
      slv := s1.slv
      free := s1.free } := by
    unfold s1
    rw [State.removeDesc_eq]
    split <;> rfl
  have h2 : ∃ tenants, s2 = { s1 with ten := { s1.ten with tenants := tenants } } := by
    unfold s2
    split
    · exact s1.chargeDrr_eq d
    · exact ⟨_, rfl⟩
  obtain ⟨tenants, h2⟩ := h2
  refine ⟨tenants, ?_⟩
  split
  · rw [State.bump_rest, h2, h1]
  · rw [h2, h1]

/-- Of the registers the count of failed collectives alone can have changed. -/
theorem State.leftBy_rd (s : State) (d : Desc) (status o : Nat) (h : d.coll = true → o ≠ Reg.SLV_COLL_FAIL_CNT) :
    (s.leftBy d status).rd o = s.rd o := by
  unfold State.leftBy
  extract_lets s1 s2
  have h1 : s1.rd o = s.rd o := by
    unfold s1
    rw [State.removeDesc_eq]
    split <;> rfl
  have h2 : s2.rd o = s.rd o := by
    unfold s2
    split
    · obtain ⟨tenants, hcharge⟩ := s1.chargeDrr_eq d
      rw [hcharge]
      exact h1
    · exact h1
  split
  · rename_i hc
    rw [State.rd_bump_ne _ _ _ (h (Bool.and_eq_true_iff.mp hc).1), h2]
  · exact h2

/-! The record. -/

/-- The registers that a completion of a ring and tenant writes. -/
abbrev completionWrites (ring tenant o : Nat) : Prop :=
  o = Reg.QRG_DONE_SEQ ring ∨ o = Reg.QRG_CFG ring ∨ o = Reg.TEN_TIMEOUT_CNT tenant ∨ o = Reg.HED_ABORT_LOOM_CNT

theorem State.moveDraining_writes (s : State) (g : Nat) : s.WritesIn (· = Reg.QRG_CFG g) (s.moveDraining g) := by
  unfold State.moveDraining
  split
  · exact (State.WritesIn.refl _ s).setFld _ _ _ rfl
  · exact .refl _ s

theorem State.WritesIn.mono {P Q : Nat → Prop} {s t : State} (h : s.WritesIn P t) (hPQ : ∀ o, P o → Q o) : s.WritesIn Q t :=
  ⟨h.rest, fun o ho => h.rd o fun hp => ho (hPQ o hp)⟩

/-- DONE_SEQ and DRAINING move, and the status is counted. -/
def State.accounted (s : State) (ring tenant status : Nat) : State := ((s.moveDone ring).moveDraining ring).countStatus tenant status

theorem State.accounted_writes (s : State) (ring tenant status : Nat) :
    s.WritesIn (completionWrites ring tenant) (s.accounted ring tenant status) := by
  have hdone : s.WritesIn (completionWrites ring tenant) (s.moveDone ring) := (State.WritesIn.refl _ s).wr _ _ (.inl rfl)
  have hdraining := hdone.trans (((s.moveDone ring).moveDraining_writes ring).mono fun _ h => .inr (.inl h))
  unfold State.accounted State.countStatus
  split
  · exact hdraining.bump _ (.inr (.inr (.inl rfl)))
  · split
    · exact hdraining.bump _ (.inr (.inr (.inr rfl)))
    · exact hdraining

/-- The completion that is put on its way to the host (R199 to R203, R218). -/
def State.recOf (s : State) (ring seq tenant status : Nat) (data : List Byte) (noRec irq frame : Bool) : Rec :=
  { ring := ring, seq := seq, tenant := tenant
    addr := s.addr64 (Reg.QRG_CQ_LO ring) (Reg.QRG_CQ_HI ring) + 32 * (seq % s.ringSize ring), data := data
    issueAt := s.trd.cclk + 40, write := !(status == 0 && noRec), event := irq || decide (0x10 ≤ status), frame := frame }

/-- The completion has joined the others. -/
def State.posted (s : State) (ring seq tenant status : Nat) (data : List Byte) (noRec irq frame : Bool) : State :=
  (s.accounted ring tenant status).onTen fun x => { x with recs := x.recs ++ [s.recOf ring seq tenant status data noRec irq frame] }

theorem State.postRecord_eq (s : State) (ring seq tenant status : Nat) (data : List Byte) (noRec irq frame : Bool) :
    let t := s.postRecord ring seq tenant status data noRec irq frame
    t.ten = { s.ten with
      descs := s.ten.descs.map (s.posted ring seq tenant status data noRec irq frame).relook
      recs := s.ten.recs ++ [s.recOf ring seq tenant status data noRec irq frame] } ∧
    t = { s with ten := t.ten, regs := (s.accounted ring tenant status).regs } := by
  intro t
  have hrest := (s.accounted_writes ring tenant status).rest
  have hten : (s.posted ring seq tenant status data noRec irq frame).ten =
      { s.ten with recs := s.ten.recs ++ [s.recOf ring seq tenant status data noRec irq frame] } := by
    rw [State.posted, State.onTen_ten, hrest]
  have ht : t = (s.posted ring seq tenant status data noRec irq frame).refreshReady := rfl
  refine ⟨?_, ?_⟩
  · rw [ht, State.refreshReady, State.onTen_ten, hten]
    rfl
  · change { s.accounted ring tenant status with ten := t.ten } = { s with ten := t.ten, regs := (s.accounted ring tenant status).regs }
    rw [hrest]

/-! The completion. -/

/-- The START of a completion record: one that was not dispatched has none of its own. -/
def State.recStart (s : State) (d : Desc) : Nat :=
  if d.isControl then s.trd.now.bits else if d.used != 0 then d.start.bits else Config.undispatchedStart s.free % 2 ^ 48

/-- The bytes of a descriptor's completion record (R200). -/
def State.recData (s : State) (d : Desc) (status detail : Nat) : List Byte :=
  recordBytes d.tag d.seq status detail (d.seq / s.ringSize d.ring % 2 == 0) d.late d.cleared d.used d.ring (s.recStart d) s.trd.now.bits

theorem State.completeDesc_eq (s : State) (d : Desc) (status detail : Nat) : s.completeDesc d status detail =
    (s.leftBy d (d.finalStatus status)).postRecord d.ring d.seq d.tenant (d.finalStatus status)
      (s.recData d (d.finalStatus status) detail) d.noRec d.irq false := rfl

/-- What the completion of a descriptor leaves of rings, vectors, looms and the scoreboard. -/
theorem State.completeDesc_keeps (s : State) (d : Desc) (status detail : Nat) :
    let t := s.completeDesc d status detail
    t.ten.rings = s.ten.rings ∧ t.ten.vectors = s.ten.vectors ∧ (∃ w : State, t.ten.descs = (s.othersThan d).map w.relook) ∧
    t.looms = s.looms.map (Loom.released d.ring d.seq) ∧
    t = { s with ten := t.ten, regs := t.regs, looms := t.looms, sht := t.sht, slv := t.slv, free := t.free } := by
  intro t
  have ht : t = s.completeDesc d status detail := rfl
  obtain ⟨tenants, hleft⟩ := s.leftBy_eq d (d.finalStatus status)
  obtain ⟨hten, hrest⟩ := (s.leftBy d (d.finalStatus status)).postRecord_eq d.ring d.seq d.tenant (d.finalStatus status)
    (s.recData d (d.finalStatus status) detail) d.noRec d.irq false
  rw [← s.completeDesc_eq, ← ht] at hten hrest
  have hlooms : t.looms = s.looms.map (Loom.released d.ring d.seq) := by rw [hrest, hleft]
  have hothers : (s.leftBy d (d.finalStatus status)).ten.descs = s.othersThan d := by rw [hleft]
  refine ⟨?_, ?_, ⟨_, (congrArg Ten.descs hten).trans (congrArg _ hothers)⟩, hlooms, ?_⟩
  · rw [hten, hleft]
  · rw [hten, hleft]
  · rw [hrest, hleft]

/-- A descriptor that ends in any of the ways of R199 to R204 completes with its status. -/
theorem State.completes_completeDesc (s : State) (d : Desc) (status detail : Nat) (h : d.coll = true → d.ring < 1024) :
    s.completes (s.completeDesc d status detail) d (d.finalStatus status) detail := by
  obtain ⟨-, -, ⟨w, hdescs⟩, hlooms, hframe⟩ := s.completeDesc_keeps d status detail
  obtain ⟨tenants, hleft⟩ := s.leftBy_eq d (d.finalStatus status)
  obtain ⟨hten, -⟩ := (s.leftBy d (d.finalStatus status)).postRecord_eq d.ring d.seq d.tenant (d.finalStatus status)
    (s.recData d (d.finalStatus status) detail) d.noRec d.irq false
  rw [← s.completeDesc_eq] at hten
  have hrd (o : Nat) (ho : ∃ i < 32, o = 0x48000 + 32 * d.ring + i) : (s.leftBy d (d.finalStatus status)).rd o = s.rd o := by
    refine s.leftBy_rd d _ o fun hcoll => ?_
    obtain ⟨i, hi, rfl⟩ := ho
    have := h hcoll
    rw [Reg.SLV_COLL_FAIL_CNT]
    omega
  have haddr : (s.leftBy d (d.finalStatus status)).addr64 (Reg.QRG_CQ_LO d.ring) (Reg.QRG_CQ_HI d.ring) =
      s.addr64 (Reg.QRG_CQ_LO d.ring) (Reg.QRG_CQ_HI d.ring) := by
    rw [State.addr64, State.addr64, hrd _ ⟨8, by decide, by rw [Reg.QRG_CQ_LO]; omega⟩, hrd _ ⟨12, by decide, by rw [Reg.QRG_CQ_HI]; omega⟩]
  have hsize : (s.leftBy d (d.finalStatus status)).ringSize d.ring = s.ringSize d.ring := by
    rw [State.ringSize, State.fld_of_rd (hrd _ ⟨16, by decide, by rw [Reg.QRG_CFG]; omega⟩)]
    rfl
  obtain ⟨hlen, htag, hseq, hst, hdetail, hflags, hused, hring, hstart, hfinish⟩ := bytesAt_recordBytes d.tag d.seq (d.finalStatus status)
    detail (d.seq / s.ringSize d.ring % 2 == 0) d.late d.cleared d.used d.ring (s.recStart d) s.trd.now.bits
  refine ⟨⟨(s.leftBy d (d.finalStatus status)).recOf d.ring d.seq d.tenant (d.finalStatus status)
      (s.recData d (d.finalStatus status) detail) d.noRec d.irq false, ?_, rfl, rfl, rfl, ?_, ?_, rfl, rfl, hlen, htag, hseq, hst, hdetail,
      ?_, hused, hring, fun hu hc => ?_, hfinish⟩, fun e he => ?_, fun l hl => ?_, hframe⟩
  · rw [hten, hleft]
  · rw [State.recOf, hleft]
  · rw [State.recOf, haddr, hsize]
  · exact hflags.trans (by simp only [beq_iff_eq])
  · refine hstart.trans ?_
    rw [State.recStart, if_neg (by simp [hc]), if_pos (by simp [hu])]
  · rw [hdescs] at he
    obtain ⟨x, hx, rfl⟩ := List.mem_map.mp he
    obtain ⟨_, _, _, hx'⟩ := w.relook_eq x
    rw [hx']
    exact (State.mem_othersThan.mp hx).2
  · rw [hlooms] at hl
    obtain ⟨x, -, rfl⟩ := List.mem_map.mp hl
    unfold Loom.released
    split
    · simp
    · assumption

end Sys2Proof.Machine
end

section
/-! PROOF. Rings are enabled, disabled and fed by doorbells (R178 to R184). -/

namespace Sys2Proof.Machine

/-! Enabling. -/

/-- The row of QRG_CFG (Table 4.12): all but DRAINING is written. -/
theorem regRow?_QRG_CFG : ∀ g : Fin 1024, regRow? (Reg.QRG_CFG g) = some ⟨0x48010, 32, 1024, 0xFF1FFFFF, 0x0, 0x0, 0x48, false⟩ := by
  decide +kernel

/-- The registers of one ring lie at offsets of their own (Table 4.12). -/
theorem Reg.QRG_CFG_ne (g : Nat) :
    Reg.QRG_CFG g ≠ Reg.QRG_PTR g ∧ Reg.QRG_CFG g ≠ Reg.QRG_FETCH_SEQ g ∧ Reg.QRG_CFG g ≠ Reg.QRG_DONE_SEQ g ∧
    Reg.QRG_PTR g ≠ Reg.QRG_FETCH_SEQ g ∧ Reg.QRG_PTR g ≠ Reg.QRG_DONE_SEQ g ∧ Reg.QRG_FETCH_SEQ g ≠ Reg.QRG_DONE_SEQ g := by
  simp only [Reg.QRG_CFG, Reg.QRG_PTR, Reg.QRG_FETCH_SEQ, Reg.QRG_DONE_SEQ]
  omega

/-- A plain QRG_CFG write sets every field but DRAINING. -/
theorem State.fld_plainWrite_ringCfg (s : State) (g : Fin 1024) (v : Word) (f : Field)
    (h : ∀ i < f.w, Nat.testBit 0xFF1FFFFF (f.lo + i) = true) : (s.plainWrite (Reg.QRG_CFG g) v).fld (Reg.QRG_CFG g) f = f.get v := by
  rw [State.fld, State.rd_plainWrite_of_row _ _ _ _ (regRow?_QRG_CFG g)]
  exact RegRow.get_written _ _ _ _ rfl h fun i _ => Nat.zero_testBit _

theorem State.startRing_rd (s : State) (g o : Nat) : (s.startRing g).rd o =
    if o = Reg.QRG_DONE_SEQ g then 0xFFFFFFFF#32 else if o = Reg.QRG_FETCH_SEQ g ∨ o = Reg.QRG_PTR g then 0#32 else s.rd o := by
  simp only [State.startRing, State.rd_wr]
  split
  · rfl
  · by_cases h1 : o = Reg.QRG_FETCH_SEQ g <;> by_cases h2 : o = Reg.QRG_PTR g <;> simp [h1, h2]
    rfl

theorem State.ring_startRing (s : State) (g h : Nat) : (s.startRing g).ring h = if h = g then Ring.idle else s.ring h :=
  s.ring_setRing g h Ring.idle

/-- What a write of an enabled ring's QRG_CFG sets beside EN: PRIO and VEC (R179). -/
def State.ringRetuned (s : State) (g : Nat) (v : Word) : State :=
  s.wr (Reg.QRG_CFG g) (Reg.QRG_CFG_VEC.put (Reg.QRG_CFG_PRIO.put (s.rd (Reg.QRG_CFG g)) (Reg.QRG_CFG_PRIO.get v)) (Reg.QRG_CFG_VEC.get v))

theorem ringCfg_en_put (v : Word) (x : Nat) : Reg.QRG_CFG_EN.get (Reg.QRG_CFG_EN.put v x) = x % 2 := Field.get_put _ v x (by decide)

/-- A write that sets EN enables a ring that is disabled and does not drain (R178). -/
theorem exec_ringEnable_disabled (s : State) (g : Fin 1024) (v : Word) (hen : s.ringEn g = false)
    (hd : s.bit (Reg.QRG_CFG g) Reg.QRG_CFG_DRAINING = false) :
    exec (.ringEnable g v) s = .next ((s.plainWrite (Reg.QRG_CFG g) (Reg.QRG_CFG_EN.put v 1)).startRing g) := by
  refine congrArg Host.Outcome.next ((if_neg (by simp [hen])).trans ?_)
  exact (if_pos (ringCfg_en_put v 1)).trans (if_neg (by simp [hd]))

/-- A ring that drains is not enabled (R181). -/
theorem exec_ringEnable_draining (s : State) (g : Fin 1024) (v : Word) (hen : s.ringEn g = false)
    (hd : s.bit (Reg.QRG_CFG g) Reg.QRG_CFG_DRAINING = true) : exec (.ringEnable g v) s = .next s := by
  refine congrArg Host.Outcome.next ((if_neg (by simp [hen])).trans ?_)
  exact (if_pos (ringCfg_en_put v 1)).trans (if_pos hd)

theorem exec_ringEnable_enabled (s : State) (g : Fin 1024) (v : Word) (hen : s.ringEn g = true) :
    exec (.ringEnable g v) s = .next (s.ringRetuned g (Reg.QRG_CFG_EN.put v 1)) :=
  congrArg Host.Outcome.next ((if_pos hen).trans (if_neg (by rw [ringCfg_en_put]; decide)))

theorem exec_ringDisable_enabled (s : State) (g : Fin 1024) (v : Word) (hen : s.ringEn g = true) :
    exec (.ringDisable g v) s = .next ((s.ringRetuned g (Reg.QRG_CFG_EN.put v 0)).disableRing g) :=
  congrArg Host.Outcome.next ((if_pos hen).trans (if_pos (ringCfg_en_put v 0)))

/-- The write of an enabled ring sets PRIO and VEC. -/
theorem State.ringRetuned_fld (s : State) (g x : Nat) (v : Word) :
    (∀ f ∈ [Reg.QRG_CFG_PRIO, Reg.QRG_CFG_VEC], (s.ringRetuned g (Reg.QRG_CFG_EN.put v x)).fld (Reg.QRG_CFG g) f = f.get v) ∧
    ∀ f : Field, (f.lo + f.w ≤ 7 ∨ 10 ≤ f.lo) → (f.lo + f.w ≤ 16 ∨ 21 ≤ f.lo) →
      (s.ringRetuned g (Reg.QRG_CFG_EN.put v x)).fld (Reg.QRG_CFG g) f = s.fld (Reg.QRG_CFG g) f := by
  have hvec (w : Word) (y : Nat) (f : Field) (h : f.lo + f.w ≤ 16 ∨ 21 ≤ f.lo) : f.get (Reg.QRG_CFG_VEC.put w y) = f.get w :=
    Field.get_put_ne _ f w y h
  have hprio (w : Word) (y : Nat) (f : Field) (h : f.lo + f.w ≤ 7 ∨ 10 ≤ f.lo) : f.get (Reg.QRG_CFG_PRIO.put w y) = f.get w :=
    Field.get_put_ne _ f w y h
  have hen (f : Field) (h : f.lo + f.w ≤ 0 ∨ 1 ≤ f.lo) : f.get (Reg.QRG_CFG_EN.put v x) = f.get v := Field.get_put_ne _ f v x h
  refine ⟨fun f hf => ?_, fun f h7 h16 => ?_⟩
  · rw [State.fld, State.ringRetuned, State.rd_wr_self]
    simp only [List.mem_cons, List.not_mem_nil, or_false] at hf
    rcases hf with rfl | rfl
    · rw [hvec _ _ _ (by decide), Field.get_put _ _ _ (by decide), hen _ (by decide)]
      exact Nat.mod_eq_of_lt (Field.get_lt _ v)
    · rw [Field.get_put _ _ _ (by decide), hen _ (by decide)]
      exact Nat.mod_eq_of_lt (Field.get_lt _ v)
  · rw [State.fld, State.ringRetuned, State.rd_wr_self, hvec _ _ _ h16, hprio _ _ _ h7]
    rfl

/-! Disabling. -/

/-- While a ring's DRAINING reads 0 nothing of it is outstanding, and it is not enabled (R180). -/
def State.drainsRight (s : State) (g : Nat) : Prop :=
  s.ringEn g = false ∧ (s.bit (Reg.QRG_CFG g) Reg.QRG_CFG_DRAINING = false → s.outstanding g = [])

/-- What is outstanding is told by the ring and SEQ of the entries. -/
theorem State.outstanding_relook {s t : State} (w : State) (hdescs : t.ten.descs = s.ten.descs.map w.relook) (hpic : t.pic = s.pic) (g : Nat) :
    t.outstanding g = s.outstanding g := by
  have hkey : (fun d : Desc => if (w.relook d).ring = g then some (w.relook d).seq else none) =
      fun d => if d.ring = g then some d.seq else none := by
    funext d
    obtain ⟨_, _, _, hd⟩ := w.relook_eq d
    rw [hd]
  rw [State.outstanding, State.outstanding, hdescs, hpic, List.filterMap_map]
  exact congrArg (· ++ _) (congrArg (List.filterMap · s.ten.descs) hkey)

/-- DRAINING reads 0 once nothing of a disabled ring is outstanding. -/
theorem State.drainsRight_moveDraining {s : State} {g : Nat} (h : s.ringEn g = false) :
    (s.moveDraining g).ringEn g = false ∧
    ((s.moveDraining g).bit (Reg.QRG_CFG g) Reg.QRG_CFG_DRAINING = false →
      s.bit (Reg.QRG_CFG g) Reg.QRG_CFG_DRAINING = false ∨ s.outstanding g = []) := by
  unfold State.moveDraining
  split
  · rename_i hc
    refine ⟨?_, fun _ => .inr (by simpa [h] using hc)⟩
    rw [State.ringEn, State.bit, State.fld_setFld_other _ _ _ _ _ (by decide)]
    exact h
  · exact ⟨h, .inl⟩

/-- An accounting of a status other than TIMEOUT touches QRG_CFG in DRAINING alone. -/
theorem State.accounted_cfg (s : State) (g tenant status : Nat) (h : status ≠ 0x20) :
    (s.accounted g tenant status).rd (Reg.QRG_CFG g) = ((s.moveDone g).moveDraining g).rd (Reg.QRG_CFG g) := by
  rw [State.accounted, State.countStatus, if_neg h]
  split
  · exact State.rd_bump_ne _ _ _ (by simp only [Reg.QRG_CFG, Reg.HED_ABORT_LOOM_CNT]; omega)
  · rfl

theorem State.outstanding_wr (s : State) (o g : Nat) (v : Word) : (s.wr o v).outstanding g = s.outstanding g := by
  rw [State.outstanding, State.wr_ten, State.wr_pic, State.outstanding]

/-- The end of a descriptor keeps DRAINING right. -/
theorem State.drainsRight_completeDesc {s : State} {d : Desc} {g : Nat} (status detail : Nat) (hg : d.ring = g) (hlt : g < 1024)
    (hst : d.finalStatus status ≠ 0x20) (h : s.drainsRight g) : (s.completeDesc d status detail).drainsRight g := by
  subst hg
  obtain ⟨hen, hdrain⟩ := h
  obtain ⟨tenants, hleft⟩ := s.leftBy_eq d (d.finalStatus status)
  obtain ⟨hten, hrest⟩ := (s.leftBy d (d.finalStatus status)).postRecord_eq d.ring d.seq d.tenant (d.finalStatus status)
    (s.recData d (d.finalStatus status) detail) d.noRec d.irq false
  rw [← s.completeDesc_eq] at hten hrest
  have hcfg : (s.leftBy d (d.finalStatus status)).rd (Reg.QRG_CFG d.ring) = s.rd (Reg.QRG_CFG d.ring) :=
    s.leftBy_rd d _ _ fun _ => by simp only [Reg.QRG_CFG, Reg.SLV_COLL_FAIL_CNT]; omega
  have hdone : ((s.leftBy d (d.finalStatus status)).moveDone d.ring).rd (Reg.QRG_CFG d.ring) = s.rd (Reg.QRG_CFG d.ring) :=
    (State.rd_wr_ne _ _ _ _ (Reg.QRG_CFG_ne d.ring).2.2.1).trans hcfg
  have hout : (s.completeDesc d status detail).outstanding d.ring = (s.leftBy d (d.finalStatus status)).outstanding d.ring :=
    State.outstanding_relook _ (congrArg Ten.descs hten) (by rw [hrest]) d.ring
  have hsub : s.outstanding d.ring = [] → (s.leftBy d (d.finalStatus status)).outstanding d.ring = [] := by
    rw [hleft]
    simp only [State.outstanding, List.append_eq_nil_iff, List.filterMap_eq_nil_iff]
    exact fun h => ⟨fun e he => h.1 e (State.mem_othersThan.mp he).1, h.2⟩
  obtain ⟨hen', hdrain'⟩ := State.drainsRight_moveDraining (s := (s.leftBy d (d.finalStatus status)).moveDone d.ring) (g := d.ring)
    (by rw [State.ringEn, State.bit, State.fld_of_rd hdone]; exact hen)
  have hfin : (s.completeDesc d status detail).rd (Reg.QRG_CFG d.ring) =
      (((s.leftBy d (d.finalStatus status)).moveDone d.ring).moveDraining d.ring).rd (Reg.QRG_CFG d.ring) := by
    rw [hrest]
    exact State.accounted_cfg _ _ _ _ hst
  refine ⟨by rw [State.ringEn, State.bit, State.fld_of_rd hfin]; exact hen', fun hbit => ?_⟩
  rw [State.bit, State.fld_of_rd hfin] at hbit
  rw [hout]
  rcases hdrain' hbit with hb | ho
  · rw [State.bit, State.fld_of_rd hdone] at hb
    exact hsub (hdrain hb)
  · rwa [State.moveDone, State.outstanding_wr] at ho

/-- From `s` to `t` descriptors of ring `g` have completed with a status: what holds of the scoreboard, of the records, and of DRAINING, with the
keys of those in `ds` gone. -/
structure State.Completed (g status : Nat) (ds : List Desc) (s t : State) : Prop where
  rest : t = { s with ten := t.ten, regs := t.regs, looms := t.looms, sht := t.sht, slv := t.slv, free := t.free }
  rings : t.ten.rings = s.ten.rings
  entries : ∀ e ∈ t.ten.descs, ∃ d ∈ s.ten.descs, d.ring = e.ring ∧ d.seq = e.seq ∧ d.phase = e.phase
  gone : ∀ e ∈ t.ten.descs, ∀ d ∈ ds, ¬(e.ring = d.ring ∧ e.seq = d.seq)
  kept : ∀ r ∈ s.ten.recs, r ∈ t.ten.recs
  posted : ∀ d ∈ s.ten.descs, (∃ e ∈ t.ten.descs, e.ring = d.ring ∧ e.seq = d.seq) ∨
    ∃ r ∈ t.ten.recs, r.ring = d.ring ∧ r.seq = d.seq ∧ bytesAt r.data 8 1 = status
  drains : s.drainsRight g → t.drainsRight g

theorem State.Completed.refl (g status : Nat) (s : State) : State.Completed g status [] s s :=
  ⟨rfl, rfl, fun e he => ⟨e, he, rfl, rfl, rfl⟩, fun _ _ _ h => absurd h List.not_mem_nil, fun _ h => h, fun d hd => .inl ⟨d, hd, rfl, rfl⟩, id⟩

theorem State.Completed.trans {g status : Nat} {ds ds' : List Desc} {s t u : State} (h : State.Completed g status ds s t)
    (h' : State.Completed g status ds' t u) : State.Completed g status (ds ++ ds') s u where
  rest := by rw [h'.rest, h.rest]
  rings := h'.rings.trans h.rings
  entries e he := by
    obtain ⟨d, hd, hr, hq, hp⟩ := h'.entries e he
    obtain ⟨c, hc, hr', hq', hp'⟩ := h.entries d hd
    exact ⟨c, hc, hr'.trans hr, hq'.trans hq, hp'.trans hp⟩
  gone e he d hd := by
    rcases List.mem_append.mp hd with hd | hd
    · obtain ⟨x, hx, hr, hq, -⟩ := h'.entries e he
      rw [← hr, ← hq]
      exact h.gone x hx d hd
    · exact h'.gone e he d hd
  kept r hr := h'.kept r (h.kept r hr)
  posted d hd := by
    rcases h.posted d hd with ⟨e, he, hr, hq⟩ | ⟨r, hr, hkey⟩
    · rw [← hr, ← hq]
      exact h'.posted e he
    · exact .inr ⟨r, h'.kept r hr, hkey⟩
  drains hs := h'.drains (h.drains hs)

/-- One descriptor of the ring completes. -/
theorem State.Completed.one (s : State) (d : Desc) (g status : Nat) (hg : d.ring = g) (hlt : g < 1024) (h0 : status ≠ 0) (h20 : status ≠ 0x20)
    (h256 : status < 256) : State.Completed g status [d] s (s.completeDesc d status 0) := by
  have hfinal : d.finalStatus status = status := if_pos h0
  have hcomp := s.completes_completeDesc d status 0 fun _ => hg ▸ hlt
  rw [hfinal] at hcomp
  obtain ⟨⟨r, hrecs, hring, hseq, -, -, -, -, -, -, -, -, hst, -⟩, hgone, -, -⟩ := hcomp
  obtain ⟨hrings, -, ⟨w, hdescs⟩, -, hrest⟩ := s.completeDesc_keeps d status 0
  refine ⟨hrest, hrings, fun e he => ?_, fun e he x hx => ?_, fun x hx => ?_, fun x hx => ?_, ?_⟩
  · rw [hdescs] at he
    obtain ⟨x, hx, rfl⟩ := List.mem_map.mp he
    obtain ⟨_, _, _, hx'⟩ := w.relook_eq x
    exact ⟨x, (State.mem_othersThan.mp hx).1, by rw [hx'], by rw [hx'], by rw [hx']⟩
  · rw [List.mem_singleton.mp hx]
    exact hgone e he
  · rw [hrecs]
    exact List.mem_append_left _ hx
  · by_cases hkey : x.ring = d.ring ∧ x.seq = d.seq
    · refine .inr ⟨r, by rw [hrecs]; simp, hring.trans hkey.1.symm, hseq.trans hkey.2.symm, ?_⟩
      rw [hst, Nat.mod_eq_of_lt h256]
    · obtain ⟨_, _, _, hx'⟩ := w.relook_eq x
      refine .inl ⟨w.relook x, ?_, by rw [hx'], by rw [hx']⟩
      rw [hdescs]
      exact List.mem_map_of_mem (State.mem_othersThan.mpr ⟨hx, hkey⟩)
  · exact State.drainsRight_completeDesc status 0 hg hlt (by rw [hfinal]; exact h20)

/-- Descriptors of a ring that complete in turn. -/
theorem State.completed_completeAll (g status : Nat) (hlt : g < 1024) (h0 : status ≠ 0) (h20 : status ≠ 0x20) (h256 : status < 256)
    (ds : List Desc) (hds : ∀ d ∈ ds, d.ring = g) (s : State) : State.Completed g status ds s (s.completeAll ds status) := by
  induction ds generalizing s with
  | nil => exact .refl g status s
  | cons d ds ih =>
    have hone : State.Completed g status [d] s (match s.desc? d.ring d.seq with
        | some e => s.completeDesc e status 0
        | none => s) := by
      split
      · rename_i e he
        obtain ⟨-, hr, hq⟩ := State.desc?_some he
        have h := State.Completed.one s e g status (hr.trans (hds d List.mem_cons_self)) hlt h0 h20 h256
        refine { h with gone := fun x hx y hy => ?_ }
        rw [List.mem_singleton.mp hy, ← hr, ← hq]
        exact h.gone x hx e (List.mem_singleton_self e)
      · rename_i hnone
        refine { State.Completed.refl g status s with gone := fun x hx y hy hkey => ?_ }
        rw [List.mem_singleton.mp hy] at hkey
        exact absurd (List.find?_eq_none.mp hnone x hx) (by simp [hkey])
    exact hone.trans (ih (fun x hx => hds x (List.mem_cons_of_mem d hx)) _)

/-- The descriptors that a disabled ring ends: what is not dispatched, or halted (R180). -/
def State.undispatched (s : State) (g : Nat) : List Desc :=
  s.ten.descs.filter fun d => d.ring == g && (d.phase == .waiting || d.phase == .halted)

/-- A ring whose fetching has stopped: EN reads 0, and DRAINING 1 until it is known what is outstanding. -/
def State.fetchingStopped (s : State) (g : Nat) : State :=
  ((s.setRing g { s.ring g with reads := 0, refused := false }).setFld (Reg.QRG_CFG g) Reg.QRG_CFG_EN 0).setFld (Reg.QRG_CFG g)
    Reg.QRG_CFG_DRAINING 1

theorem State.disableRing_eq (s : State) (g : Nat) :
    s.disableRing g = ((s.fetchingStopped g).completeAll (s.undispatched g) 0x21).moveDraining g := rfl

theorem State.drainsRight_fetchingStopped (s : State) (g : Nat) : (s.fetchingStopped g).drainsRight g := by
  refine ⟨?_, fun h => ?_⟩
  · rw [State.ringEn, State.bit, State.fetchingStopped, State.fld_setFld_other _ _ _ _ _ (by decide), State.fld_setFld_self _ _ _ _ (by decide)]
    rfl
  · rw [State.bit, State.fetchingStopped, State.fld_setFld_self _ _ _ _ (by decide)] at h
    exact absurd h (by decide)

/-- Where DRAINING is right it reads, once it has moved, 1 while something is outstanding. -/
theorem State.bit_moveDraining {s : State} {g : Nat} (h : s.drainsRight g) :
    (s.moveDraining g).bit (Reg.QRG_CFG g) Reg.QRG_CFG_DRAINING = !((s.moveDraining g).outstanding g).isEmpty := by
  obtain ⟨hen, hdrain⟩ := h
  have hout : (s.moveDraining g).outstanding g = s.outstanding g := by
    rw [(s.moveDraining_writes g).rest]
    rfl
  rw [hout, State.moveDraining]
  by_cases hnil : s.outstanding g = []
  · rw [if_pos (by simp [hen, hnil]), State.bit, State.fld_setFld_self _ _ _ _ (by decide), hnil]
    rfl
  · rw [if_neg (by simp [hnil])]
    have hbit : s.bit (Reg.QRG_CFG g) Reg.QRG_CFG_DRAINING = true := by
      by_contra hb
      exact hnil (hdrain (Bool.eq_false_iff.mpr hb))
    simp [hbit, hnil]

/-- What a ring's disabling leaves (R180). -/
theorem State.disableRing_leaves (s : State) (g : Fin 1024) :
    let t := s.disableRing g
    t.ringEn g = false ∧ (t.ring g).reads = 0 ∧ (∀ d ∈ t.ten.descs, d.ring = g.val → d.phase ≠ .waiting ∧ d.phase ≠ .halted) ∧
    (t.bit (Reg.QRG_CFG g) Reg.QRG_CFG_DRAINING = !(t.outstanding g).isEmpty) ∧
    (∀ d ∈ s.ten.descs, d.ring = g.val → d.phase = .waiting → ∃ r ∈ t.ten.recs, r.ring = g.val ∧ r.seq = d.seq ∧ bytesAt r.data 8 1 = 0x21) ∧
    t = { s with regs := t.regs, ten := t.ten, looms := t.looms, sht := t.sht, slv := t.slv, free := t.free } := by
  intro t
  have ht : t = ((s.fetchingStopped g).completeAll (s.undispatched g) 0x21).moveDraining g := s.disableRing_eq g
  have hall := State.completed_completeAll g 0x21 g.isLt (by decide) (by decide) (by decide) (s.undispatched g)
    (fun d hd => by have := (List.mem_filter.mp hd).2; simp_all) (s.fetchingStopped g)
  generalize (s.fetchingStopped g).completeAll (s.undispatched g) 0x21 = u at ht hall
  have hright := hall.drains (s.drainsRight_fetchingStopped g)
  have hrest := (u.moveDraining_writes g).rest
  rw [← ht] at hrest
  have hten : t.ten = u.ten := by rw [hrest]
  have hends (d : Desc) (hd : d ∈ s.ten.descs) (hr : d.ring = g.val) (hp : d.phase = .waiting ∨ d.phase = .halted) :
      ∀ e ∈ u.ten.descs, ¬(e.ring = d.ring ∧ e.seq = d.seq) := fun e he =>
    hall.gone e he d (List.mem_filter.mpr ⟨hd, by simpa [hr] using hp⟩)
  refine ⟨?_, ?_, fun d hd hr => ?_, ?_, fun d hd hr hp => ?_, ?_⟩
  · rw [ht]
    exact (State.drainsRight_moveDraining hright.1).1
  · rw [State.ring_congr (s := s.fetchingStopped g) (by rw [hten, hall.rings])]
    exact congrArg Ring.reads (s.ring_setRing_self g _)
  · rw [hten] at hd
    obtain ⟨x, hx, hxr, hxq, hxp⟩ := hall.entries d hd
    have hnot (hp : x.phase = .waiting ∨ x.phase = .halted) : False :=
      hends x hx (hxr.trans hr) hp d hd ⟨hxr.symm, hxq.symm⟩
    rw [← hxp]
    exact ⟨fun hp => hnot (.inl hp), fun hp => hnot (.inr hp)⟩
  · rw [ht]
    exact State.bit_moveDraining hright
  · rw [hten, ← hr]
    rcases hall.posted d hd with ⟨e, he, hkey⟩ | hrec
    · exact absurd hkey (hends d hd hr (.inl hp) e he)
    · exact hrec
  · rw [hrest, hall.rest]
    rfl

/-! Doorbells. -/

theorem State.doorbellOk_iff (s : State) (n g : Nat) (v : Word) : s.doorbellOk n g v = true ↔
    s.tenEn n = true ∧ s.draining n = false ∧ s.ringTenant g = n ∧ s.ringEn g = true ∧ (s.ring g).err = false ∧
      v.toNat < 65536 ∧ v.toNat < s.ringSize g := by
  simp only [State.doorbellOk, Bool.and_eq_true, Bool.not_eq_true', beq_iff_eq, decide_eq_true_eq, and_assoc]

/-- What the host interface notes of a doorbell that emerges. -/
def State.doorbellNoted (s : State) : State :=
  s.onHif fun x => { x with pcieAt := (s.trd.cclk + 21) :: x.pcieAt.filter fun y => decide (s.trd.cclk ≤ y + 1) }

theorem exec_doorbell_open (s : State) (n : Fin 256) (g : Fin 1024) (v : Word) (hopen : s.barOpen (.window n 0) = true)
    (hclear : ∀ y ∈ s.hif.pcieAt, y + 2 ≤ s.trd.cclk + 21) : exec (.doorbell n g v) s = .next (s.doorbellNoted.landDoorbell n g v) := by
  refine congrArg Host.Outcome.next ((if_pos hopen).trans ?_)
  rw [s.pcieTurn_of_clear 21 hclear]
  rfl

/-- A doorbell that meets R182 sets TAIL, and 24 CCLK on the read of what it makes available is issued (R182 to R184). -/
theorem State.landDoorbell_good (s : State) (n g : Nat) (v : Word) (h : s.doorbellOk n g v = true) :
    let t := s.landDoorbell n g v
    t.ringTail g = v.toNat ∧ t.ringHead g = s.ringHead g ∧
    (t.ring g).readAt = (if s.ringAvail g < t.ringAvail g ∧ s.ringAvail g ≤ (s.ring g).reads then s.trd.cclk + 24 else (s.ring g).readAt) ∧
    (∀ h, h ≠ g → t.ring h = s.ring h) ∧ t.ten.descs = s.ten.descs ∧ t = { s with regs := t.regs, ten := t.ten } ∧
    ∀ o, o ≠ Reg.QRG_PTR g → t.rd o = s.rd o := by
  intro t
  obtain ⟨-, -, -, -, -, hv, -⟩ := (s.doorbellOk_iff n g v).mp h
  let u := s.setFld (Reg.QRG_PTR g) Reg.QRG_PTR_TAIL v.toNat
  have ht : t = if s.ringAvail g < u.ringAvail g ∧ s.ringAvail g ≤ (s.ring g).reads then
      u.setRing g { u.ring g with readAt := s.trd.cclk + 24 } else u := if_pos h
  have htail : u.ringTail g = v.toNat := State.fld_setFld_of_lt _ _ _ _ (by decide) hv
  have hhead : u.ringHead g = s.ringHead g := State.fld_setFld_other _ _ _ _ _ (by decide)
  have hrd (o : Nat) (ho : o ≠ Reg.QRG_PTR g) : u.rd o = s.rd o := State.rd_setFld_ne _ _ _ _ _ ho
  by_cases hc : s.ringAvail g < u.ringAvail g ∧ s.ringAvail g ≤ (s.ring g).reads
  · rw [if_pos hc] at ht
    have havail : t.ringAvail g = u.ringAvail g := by rw [ht]; rfl
    rw [havail, if_pos hc, ht]
    exact ⟨htail, hhead, congrArg Ring.readAt (u.ring_setRing_self g _), fun h hne => u.ring_setRing_ne g h _ hne, rfl, rfl, hrd⟩
  · rw [if_neg hc] at ht
    rw [ht, if_neg hc]
    exact ⟨htail, hhead, rfl, fun _ _ => rfl, rfl, rfl, hrd⟩

/-- What a ring's enabling leaves (R178). -/
theorem State.ringEnabled_leaves (s : State) (g : Fin 1024) (v : Word) :
    let t := (s.plainWrite (Reg.QRG_CFG g) (Reg.QRG_CFG_EN.put v 1)).startRing g
    t.ringEn g = true ∧ t.rd (Reg.QRG_PTR g) = 0#32 ∧ t.rd (Reg.QRG_FETCH_SEQ g) = 0#32 ∧ t.rd (Reg.QRG_DONE_SEQ g) = 0xFFFFFFFF#32 ∧
    t.ring g = Ring.idle ∧
    (∀ f ∈ [Reg.QRG_CFG_LOG2_SIZE, Reg.QRG_CFG_CLASS, Reg.QRG_CFG_PRIO, Reg.QRG_CFG_DEPTH, Reg.QRG_CFG_VEC, Reg.QRG_CFG_TENANT],
      t.fld (Reg.QRG_CFG g) f = f.get v) ∧
    t = { s with regs := t.regs, ten := t.ten } ∧ (∀ h, h ≠ g.val → t.ring h = s.ring h) ∧
    ∀ o, o ∉ [Reg.QRG_CFG g, Reg.QRG_PTR g, Reg.QRG_FETCH_SEQ g, Reg.QRG_DONE_SEQ g] → t.rd o = s.rd o := by
  intro t
  let u := s.plainWrite (Reg.QRG_CFG g) (Reg.QRG_CFG_EN.put v 1)
  have hu : u = { s with regs := u.regs } := State.plainWrite_eq s _ _
  have ht : t = u.startRing g := rfl
  obtain ⟨hptr, hfetch, hdone, hpf, hpd, hfd⟩ := Reg.QRG_CFG_ne g
  have hcfg (f : Field) : t.fld (Reg.QRG_CFG g) f = u.fld (Reg.QRG_CFG g) f :=
    State.fld_of_rd (by rw [ht, State.startRing_rd, if_neg hdone, if_neg (by simp [hptr, hfetch])]) f
  refine ⟨?_, ?_, ?_, ?_, ?_, fun f hf => ?_, ?_, fun h hne => ?_, fun o ho => ?_⟩
  · rw [State.ringEn, State.bit, hcfg, State.fld_plainWrite_ringCfg s g _ _ (by decide), ringCfg_en_put]
    rfl
  · rw [ht, State.startRing_rd, if_neg hpd, if_pos (.inr rfl)]
  · rw [ht, State.startRing_rd, if_neg hfd, if_pos (.inl rfl)]
  · rw [ht, State.startRing_rd, if_pos rfl]
  · rw [ht, State.ring_startRing, if_pos rfl]
  · have hput (h : 1 ≤ f.lo) : f.get (Reg.QRG_CFG_EN.put v 1) = f.get v := Field.get_put_ne _ f v 1 (.inr h)
    rw [hcfg]
    simp only [List.mem_cons, List.not_mem_nil, or_false] at hf
    rcases hf with rfl | rfl | rfl | rfl | rfl | rfl <;>
      exact (State.fld_plainWrite_ringCfg s g _ _ (by decide)).trans (hput (by decide))
  · rw [ht, State.startRing, hu]
    rfl
  · rw [ht, State.ring_startRing, if_neg hne, State.ring_congr (s := s) (by rw [hu])]
  · simp only [List.mem_cons, List.not_mem_nil, or_false, not_or] at ho
    obtain ⟨ho1, ho2, ho3, ho4⟩ := ho
    rw [ht, State.startRing_rd, if_neg ho4, if_neg (not_or.mpr ⟨ho3, ho2⟩)]
    exact State.rd_plainWrite_ne _ _ _ _ ho1

/-- Settles O22: the QRG_CFG write by the ring's EN and DRAINING, and the doorbell by R182. -/
theorem ringsAreEnabledAndFed : Obligations.RingsAreEnabledAndFed := by
  intro s g v
  refine ⟨fun hen hd => ⟨_, exec_ringEnable_disabled s g v hen hd, s.ringEnabled_leaves g v⟩,
    fun hen hd => exec_ringEnable_draining s g v hen hd,
    fun hen => ⟨_, exec_ringEnable_enabled s g v hen, (s.ringRetuned_fld g 1 v).1, fun f hf => ?_, rfl, fun o ho => State.rd_wr_ne _ _ _ _ ho⟩,
    fun hen => ⟨_, exec_ringDisable_enabled s g v hen, (State.ringRetuned s g _).disableRing_leaves g⟩, ?_⟩
  · have hkept := (s.ringRetuned_fld g 1 v).2 f
    simp only [List.mem_cons, List.not_mem_nil, or_false] at hf
    rcases hf with rfl | rfl | rfl | rfl | rfl | rfl <;> exact hkept (by decide) (by decide)
  intro n ok
  refine ⟨fun hshut => congrArg Host.Outcome.next (if_neg (by simp [hshut])), fun hopen hclear => ⟨fun hok => ?_, fun hok => ?_⟩⟩
  · obtain ⟨htail, hhead, hread, hrings, hdescs, hrest, hrd⟩ :=
      s.doorbellNoted.landDoorbell_good n g v ((s.doorbellNoted.doorbellOk_iff n g v).mpr hok)
    refine ⟨_, exec_doorbell_open s n g v hopen hclear, htail, hhead, hread, hrings, hdescs, ?_, hrd⟩
    rw [hrest]
    rfl
  · have hbad : s.doorbellNoted.landDoorbell n g v = s.doorbellNoted.bump (Reg.TEN_BAD_DB_CNT n) :=
      if_neg fun h => hok ((s.doorbellNoted.doorbellOk_iff n g v).mp h)
    refine ⟨_, exec_doorbell_open s n g v hopen hclear, ?_, ?_, fun o ho => ?_⟩
    · rw [hbad, State.rd_bump_self]
      rfl
    · rw [hbad, State.bump_rest]
      rfl
    · rw [hbad, State.rd_bump_ne _ _ _ ho]
      rfl

end Sys2Proof.Machine
end

section
/-! PROOF. Messages: moderation timers, masks and message caps (R36, R171, R221 to R226). -/

namespace Sys2Proof.Machine

/-! Transactions without an event. -/

/-- A transaction that commits no event changes the outbound log and the host interface, and no function's configuration. -/
theorem State.send_eq (s : State) (x : Tlp) (h : x.event = none) :
    s.send x = { s with out := (s.send x).out, hif := (s.send x).hif } ∧ (s.send x).hif.fns = s.hif.fns := by
  unfold State.send State.transmit
  rw [h]
  split <;> exact ⟨rfl, rfl⟩

/-! A vector's message. -/

/-- A vector whose message goes out: it covers every event counted (R223). -/
def Vector.covered (x : Vector) : Vector := { x with count := 0, timer := none, due := none, pending := false, held := false }

/-- The MSI-X message of a vector. -/
def State.vectorTlp (s : State) (v later : Nat) : Tlp :=
  { msg := .msix (vecFn v) (vecNum v) (s.vector v).addr (s.vector v).data, fn := some (vecFn v), after := s.trd.cclk + later
    event := none, chain := .none }

theorem State.sendVector_eq (s : State) (v later : Nat) :
    let t := s.sendVector v later
    (∀ u, t.vector u = if u = v then (s.vector v).covered else s.vector u) ∧ t.sentNow (vecFn v) = s.sentNow (vecFn v) + 1 ∧
    t = ({ s with ten := t.ten } : State).send (s.vectorTlp v later) := by
  intro t
  let s1 := s.setVector v (s.vector v).covered
  let s2 := s1.setTenant (vecFn v) { s1.tenant (vecFn v) with sent := s1.sentNow (vecFn v) + 1 }
  have ht : t = s2.send (s.vectorTlp v later) := rfl
  have hten : t.ten = s2.ten := by rw [ht, (s2.send_eq _ rfl).1]
  refine ⟨fun u => ?_, ?_, ?_⟩
  · rw [State.vector_congr (s := s1) (by rw [hten]; rfl)]
    exact s.vector_setVector v u _
  · rw [State.sentNow, State.tenant, hten]
    exact congrArg Tenant.sent (s1.tenant_setTenant_self (vecFn v) _)
  · rw [hten]
    exact ht

/-- A message leaves the registers, the clock and every stop of a vector as they are. -/
theorem State.sendVector_keeps (s : State) (v later : Nat) :
    s.sendVector v later = { s with
      ten := (s.sendVector v later).ten, out := (s.sendVector v later).out, hif := (s.sendVector v later).hif } ∧
    ∀ u, (s.sendVector v later).vecStopped u = s.vecStopped u := by
  obtain ⟨hvec, -, hsend⟩ := s.sendVector_eq v later
  obtain ⟨hrest, hfns⟩ := ({ s with ten := (s.sendVector v later).ten } : State).send_eq (s.vectorTlp v later) rfl
  rw [← hsend] at hrest hfns
  refine ⟨hrest, fun u => ?_⟩
  have hcfg : (s.sendVector v later).fnCfg (vecFn u) = s.fnCfg (vecFn u) := by rw [State.fnCfg, hfns]; rfl
  have hmask : ((s.sendVector v later).vector u).masked = (s.vector u).masked := by
    rw [hvec]
    split
    · rename_i h; rw [h]; rfl
    · rfl
  rw [State.vecStopped, hcfg, hmask]
  rfl

/-! Due messages. -/

theorem State.capped_eq_false (s : State) (n : Nat) : s.capped n = false ↔
    s.fld (Reg.TEN_MSG n) Reg.TEN_MSG_CAP = 0 ∨ s.sentNow n < s.fld (Reg.TEN_MSG n) Reg.TEN_MSG_CAP := by
  simp [State.capped]
  omega

theorem exec_msixMessage_due (s : State) (v : Fin 2072) (d : Nat) (hd : (s.vector v).due = some d) (hen : s.tenEn (vecFn v) = true) :
    exec (.msixMessage v) s = .next ((s.elapseTo d).dueVector v) := by
  change execMsixMessage v s = _
  rw [execMsixMessage, hd]
  exact if_pos hen

/-- The timer that has run out sets when the message is due (R221). -/
theorem exec_moderationTimerExpiry_zero (s : State) (v : Fin 2072) (h : (s.vector v).timer = some 0) :
    exec (.moderationTimerExpiry v) s = .next (s.setVector v { s.vector v with
      timer := none
      due := some (match (s.vector v).due with
        | some e => min e (max (s.trd.cclk + 2) ((s.vector v).last + 64))
        | none => max (s.trd.cclk + 2) ((s.vector v).last + 64)) }) := if_pos h

theorem State.holdVector_eq (s : State) (v : Nat) :
    let t := s.holdVector v
    (∀ u, t.vector u = if u = v then { s.vector v with due := none, pending := true, held := true } else s.vector u) ∧
    t.rd (Reg.TEN_MSG_HELD_CNT (vecFn v)) = counted (s.rd (Reg.TEN_MSG_HELD_CNT (vecFn v))) ∧
    t = { s with ten := t.ten, regs := t.regs } ∧ ∀ o, o ≠ Reg.TEN_MSG_HELD_CNT (vecFn v) → t.rd o = s.rd o := by
  intro t
  let s1 := s.setVector v { s.vector v with due := none, pending := true, held := true }
  have ht : t = s1.bump (Reg.TEN_MSG_HELD_CNT (vecFn v)) := rfl
  refine ⟨fun u => ?_, State.rd_bump_self s1 _, ?_, fun o ho => State.rd_bump_ne s1 _ _ ho⟩
  · rw [ht, State.vector_bump]
    exact s.vector_setVector v u _
  · rw [ht, State.bump_rest]
    rfl

/-! Held messages. -/

/-- Where the cap lets every held vector through and nothing stops one, all of them go out (R226). -/
theorem State.releaseHeld_all (n : Nat) (vs : List Nat) (hfn : ∀ v ∈ vs, vecFn v = n) (s : State) (later : Nat)
    (hcap : s.fld (Reg.TEN_MSG n) Reg.TEN_MSG_CAP = 0 ∨ s.sentNow n + vs.length ≤ s.fld (Reg.TEN_MSG n) Reg.TEN_MSG_CAP)
    (hstop : ∀ v ∈ vs, s.vecStopped v = false) :
    let t := s.releaseHeld vs later
    (∀ v ∈ vs, (t.vector v).held = false ∧ (t.vector v).pending = false) ∧ t.sentNow n = s.sentNow n + vs.length ∧
    (∀ v, v ∉ vs → t.vector v = s.vector v) ∧ t = { s with ten := t.ten, hif := t.hif, out := t.out } := by
  induction vs generalizing s later with
  | nil => exact ⟨nofun, rfl, fun _ _ => rfl, rfl⟩
  | cons v vs ih =>
    have hv : vecFn v = n := hfn v List.mem_cons_self
    obtain ⟨hvec, hsent, -⟩ := s.sendVector_eq v later
    obtain ⟨hrest, hstops⟩ := s.sendVector_keeps v later
    have hfld : (s.sendVector v later).fld (Reg.TEN_MSG n) Reg.TEN_MSG_CAP = s.fld (Reg.TEN_MSG n) Reg.TEN_MSG_CAP := by rw [hrest]; rfl
    have hgo : s.releaseHeld (v :: vs) later = (s.sendVector v later).releaseHeld vs (later + 1) := by
      rw [State.releaseHeld, if_neg, if_neg]
      · simp [hstop v List.mem_cons_self]
      · rw [Bool.not_eq_true, State.capped_eq_false, hv]
        exact hcap.imp_right fun h => by rw [List.length_cons] at h; omega
    rw [hv] at hsent
    obtain ⟨hgone, hcount, hothers, hframe⟩ := ih (fun u hu => hfn u (List.mem_cons_of_mem v hu)) (s.sendVector v later) (later + 1)
      (hcap.imp (hfld ▸ ·) fun h => by rw [hfld, hsent]; rw [List.length_cons] at h; omega)
      fun u hu => (hstops u).trans (hstop u (List.mem_cons_of_mem v hu))
    rw [hgo]
    refine ⟨fun u hu => ?_, ?_, fun u hu => ?_, ?_⟩
    · by_cases hmem : u ∈ vs
      · exact hgone u hmem
      · rw [hothers u hmem, hvec, if_pos ((List.mem_cons.mp hu).resolve_right hmem)]
        exact ⟨rfl, rfl⟩
    · rw [hcount, hsent, List.length_cons]
      omega
    · rw [List.mem_cons, not_or] at hu
      rw [hothers u hu.2, hvec, if_neg hu.1]
    · rw [hframe, hrest]

/-! The rows. -/

/-- A due message that nothing stops goes out. -/
theorem State.dueVector_sent (s : State) (v : Nat) (hstop : s.vecStopped v = false) (hcap : s.capped (vecFn v) = false) :
    s.dueVector v = s.sendVector v 0 := by
  rw [State.dueVector, if_neg (by simp [hstop]), if_neg (by simp [hcap])]

/-- A pending message that no mask and no cap stops any more goes out as the mask bit clears (R224). -/
theorem State.unmask_sent (s : State) (v : Nat) (hp : (s.vector v).pending = true) (hh : (s.vector v).held = false)
    (hen : (s.fnCfg (vecFn v)).msixEn = true) (hm : (s.fnCfg (vecFn v)).msixMask = false) (ht : s.tenEn (vecFn v) = true)
    (hcap : s.fld (Reg.TEN_MSG (vecFn v)) Reg.TEN_MSG_CAP = 0) :
    s.unmask v = (s.setVector v { s.vector v with masked := false }).sendVector v 0 := by
  have hstop : (s.setVector v { s.vector v with masked := false }).vecStopped v = false := by
    rw [State.vecStopped, State.vector_setVector_self]
    simp only [Bool.or_eq_false_iff, Bool.not_eq_false', true_and]
    exact ⟨hen, hm⟩
  rw [← State.dueVector_sent _ v hstop ((State.capped_eq_false _ _).mpr (.inl hcap))]
  refine if_pos ?_
  rw [State.vector_setVector_self, hstop]
  simp only [hp, hh, Bool.not_false, Bool.and_self, Bool.true_and]
  exact ht

/-- Settles O25: the timer, the due message by its stops, the mask that clears, and the release by induction on the held vectors. -/
theorem messagesAreModerated : Obligations.MessagesAreModerated := by
  intro s
  refine ⟨fun v hv => ⟨_, exec_moderationTimerExpiry_zero s v hv, ?_, ?_, ?_, fun u hu => s.vector_setVector_ne v u _ hu, rfl⟩,
    fun v d hd hen => ?_, fun v => ⟨fun hp => ?_, fun hp hh hen hm ht hcap => ?_⟩, fun n hat hen => ?_⟩
  · rw [State.vector_setVector_self]
  · rw [State.vector_setVector_self]
  · exact congrArg Vector.due (s.vector_setVector_self v _)
  · intro n s0
    refine ⟨fun hstop => ⟨_, exec_msixMessage_due s v d hd hen, ?_⟩, fun hstop hcap0 hcap => ⟨_, exec_msixMessage_due s v d hd hen, ?_⟩,
      fun hstop hcap => ⟨_, exec_msixMessage_due s v d hd hen, ?_⟩⟩
    · change (State.vector (s0.dueVector v) v).pending = true ∧ _
      rw [State.dueVector, if_pos hstop, State.vector_setVector_self]
      exact ⟨rfl, rfl, fun u hu => s0.vector_setVector_ne v u _ hu, rfl⟩
    · have hcapped : s0.capped (vecFn v) = true := Bool.and_eq_true_iff.mpr ⟨bne_iff_ne.mpr hcap0, decide_eq_true hcap⟩
      have hheld : s0.dueVector v = s0.holdVector v := by rw [State.dueVector, if_neg (by simp [hstop]), if_pos hcapped]
      obtain ⟨hvec, hcnt, hrest, hrd⟩ := s0.holdVector_eq v
      rw [hheld]
      refine ⟨?_, ?_, hcnt, hrest, hrd⟩ <;> rw [hvec, if_pos rfl]
    · obtain ⟨hvec, hsent, hsend⟩ := s0.sendVector_eq v 0
      rw [s0.dueVector_sent v hstop ((s0.capped_eq_false _).mpr hcap)]
      refine ⟨?_, ?_, ?_, ?_, hsent, hsend, fun u hu => by rw [hvec, if_neg hu]⟩ <;> rw [hvec, if_pos rfl] <;> rfl
  · have hidle : s.unmask v = s.setVector v { s.vector v with masked := false } := State.unstop_of_idle _ _ (by
      rw [State.vector_setVector_self]; exact hp)
    refine ⟨_, congrArg Host.Outcome.next hidle, s.vector_setVector_self v _, rfl, fun u hu => s.vector_setVector_ne v u _ hu⟩
  · obtain ⟨hvec, -, hsend⟩ := (s.setVector v { s.vector v with masked := false }).sendVector_eq v 0
    refine ⟨_, congrArg Host.Outcome.next (s.unmask_sent v hp hh hen hm ht hcap), ?_, ?_, ?_, ?_⟩
    · rw [hvec, if_pos rfl]; rfl
    · rw [hvec, if_pos rfl, State.vector_setVector_self]; rfl
    · rw [hvec, if_pos rfl]; rfl
    · refine hsend.trans ?_
      rw [State.vectorTlp, State.vector_setVector_self]
      rfl
  · intro s0 vs hcap hstop _
    refine ⟨_, if_pos (by rw [hat, hen]; rfl), State.releaseHeld_all n vs (fun v hv => ?_) s0 0 hcap hstop⟩
    obtain ⟨e, he, rfl⟩ := List.mem_map.mp hv
    have := (List.mem_filter.mp he).2
    simp only [Bool.and_eq_true, beq_iff_eq] at this
    exact this.2

end Sys2Proof.Machine
end

section
/-! PROOF. The control operators, and LOOM_BIST (R36, R197, R260, R261, R263, R285). -/

namespace Sys2Proof.Machine

/-! The control operators. -/

/-- A control operator whose dispatch CCLK comes times out at its DEADLINE, and else completes with what it does first (R197, R260). -/
theorem State.control_eq (s : State) (g q code : Nat) (f : Desc → State → State) (d e : Desc) (c : Nat) (hd : s.desc? g q = some d)
    (hc : d.dispAt = some c) (hp : d.phase = .waiting) (hcoll : d.coll = false) (hop : d.opcode = code)
    (he : (s.elapseTo c).desc? g q = some e) : s.control g q code f =
      if e.deadlineEn = true ∧ (s.elapseTo c).trd.now.atOrAfter e.deadline = true then (s.elapseTo c).completeDesc e 0x20 1
      else (f e (s.elapseTo c)).completeDesc e 0 0 := by
  unfold State.control
  rw [hd]
  dsimp only
  rw [hc]
  dsimp only
  rw [if_neg (by simp [hcoll, hop, hp]), he]
  simp only [Bool.and_eq_true]

/-- An entry that is neither re-executed nor darned is DONE (R277, R400). -/
theorem Desc.finalStatus_zero (d : Desc) (hs : d.stopped = false) (hd : d.darned = false) : d.finalStatus 0 = 0 := by
  simp [Desc.finalStatus, hs, hd]

/-- An entry of a ring of the device completes with a status of its own. -/
theorem State.completes_of_desc? (s : State) (t : State) {g q : Nat} {e : Desc} (st k : Nat) (hlt : g < 1024) (he : s.desc? g q = some e)
    (hst : e.finalStatus st = st) : t.completes (t.completeDesc e st k) e st k := by
  obtain ⟨-, hring, -⟩ := State.desc?_some he
  have h := t.completes_completeDesc e st k fun _ => hring ▸ hlt
  rwa [hst] at h

theorem exec_nop (g : Fin 1024) (q : Nat) (s : State) : exec (.nop g q) s = .next (s.control g q 0x0F00 fun _ t => t) := rfl

theorem exec_fence (g : Fin 1024) (q : Nat) (s : State) : exec (.fence g q) s = .next (s.control g q 0x0F01 fun _ t => t) := rfl

theorem exec_loomCfg (g : Fin 1024) (q : Nat) (s : State) : exec (.loomCfg g q) s =
    .next (s.control g q 0x0F03 fun d t => t.setRing g { t.ring g with profile := d.cfgProfile }) := rfl

/-- While WAIT_STAMP's own stamp has not matched it does nothing (R261). -/
theorem exec_waitStamp_unmatched (s : State) (g : Fin 1024) (q : Nat) (d e : Desc) (c : Nat) (hd : s.desc? g q = some d)
    (hc : d.dispAt = some c) (hop : d.opcode = 0x0F02) (he : (s.elapseTo c).desc? g q = some e) (hw : e.waitHit = none) :
    exec (.waitStamp g q) s = .next s := by
  change execWaitStamp g q s = _
  unfold execWaitStamp
  rw [hd]
  dsimp only
  simp only [hc, hop, if_true, he, Option.bind_some, hw]

/-- Once it has matched WAIT_STAMP is a control operator 2 CCLK on (R36, R261). -/
theorem exec_waitStamp_matched (s : State) (g : Fin 1024) (q h : Nat) (d e : Desc) (c : Nat) (hd : s.desc? g q = some d)
    (hc : d.dispAt = some c) (hop : d.opcode = 0x0F02) (he : (s.elapseTo c).desc? g q = some e) (hw : e.waitHit = some h) :
    exec (.waitStamp g q) s = .next (((s.elapseTo c).elapseTo (h + 2)).control g q 0x0F02 fun _ t => t) := by
  change execWaitStamp g q s = _
  unfold execWaitStamp
  rw [hd]
  dsimp only
  simp only [hc, hop, if_true, he, Option.bind_some, hw]

/-! LOOM_BIST. -/

theorem State.loom_onLoom_ne (s : State) (p x : Nat) (f : Loom → Loom) (h : x ≠ p) : (s.onLoom p f).loom x = s.loom x := by
  simp [State.loom, List.getD_eq_getElem?_getD, Ne.symm h]

theorem State.loom_onLoom_self (s : State) (p : Nat) (f : Loom → Loom) (h : p < s.looms.length) : (s.onLoom p f).loom p = f (s.loom p) := by
  simp [State.loom, List.getD_eq_getElem?_getD, h]

/-- A number that no loom has reads as a blank one. -/
theorem State.loom_of_ge (s : State) (p : Nat) (h : s.looms.length ≤ p) : s.loom p = Loom.blank := by
  simp [State.loom, List.getD_eq_getElem?_getD, h]

theorem State.length_looms_onLoom (s : State) (p : Nat) (f : Loom → Loom) : (s.onLoom p f).looms.length = s.looms.length := by simp

/-- A loom's scratchpad holds zeros. -/
def Loom.zeroed (l : Loom) : Prop := l.scratch = [] ∧ l.unknown = none

theorem Loom.zeroed_wiped (l : Loom) : l.wiped.zeroed := ⟨rfl, rfl⟩

theorem Loom.zeroed_released (l : Loom) (g q : Nat) (h : l.zeroed) : (l.released g q).zeroed := by
  unfold Loom.released
  split
  · exact h
  · exact h

/-- Every loom among some that are wiped in turn holds zeros. -/
theorem State.zeroed_wipes (ps : List Nat) (s : State) (p : Nat) (h : p ∈ ps ∨ (s.loom p).zeroed) :
    ((ps.foldl (fun t p => t.onLoom p Loom.wiped) s).loom p).zeroed := by
  induction ps generalizing s with
  | nil => exact h.resolve_left List.not_mem_nil
  | cons x xs ih =>
    refine ih _ ?_
    by_cases hx : p = x
    · subst hx
      by_cases hlt : p < s.looms.length
      · rw [s.loom_onLoom_self p _ hlt]
        exact .inr (s.loom p).zeroed_wiped
      · rw [State.loom_of_ge _ _ (by rw [s.length_looms_onLoom]; omega)]
        exact .inr ⟨rfl, rfl⟩
    · rw [s.loom_onLoom_ne x p _ hx]
      exact h.imp_left fun h => (List.mem_cons.mp h).resolve_left hx

theorem State.length_looms_wipes (ps : List Nat) (s : State) :
    (ps.foldl (fun t p => t.onLoom p Loom.wiped) s).looms.length = s.looms.length :=
  List.foldlRecOn ps _ (motive := fun t : State => t.looms.length = s.looms.length) rfl
    fun t ht p _ => (t.length_looms_onLoom p _).trans ht

/-- A loom in service or spare becomes failing (R273, R285). -/
def Loom.failed (l : Loom) (cause at_ : Nat) : Loom :=
  if l.state = .active ∨ l.state = .spare then { l with state := .failing, cause := cause, failedAt := at_ } else l

/-- A loom without work that is found failing stops no descriptor. -/
theorem State.failLoom_of_idle (s : State) (p cause : Nat) (h : (s.loom p).work = none) (hp : p < s.looms.length) :
    (s.failLoom p cause) = { s with looms := (s.failLoom p cause).looms } ∧ (s.failLoom p cause).looms.length = s.looms.length ∧
    (∀ x, (s.failLoom p cause).loom x = if x = p then (s.loom p).failed cause s.trd.cclk else s.loom x) := by
  have hcases : s.failLoom p cause = if (s.loom p).state = .active ∨ (s.loom p).state = .spare then
      s.onLoom p fun x => { x with state := .failing, cause := cause, failedAt := s.trd.cclk } else s := by
    unfold State.failLoom
    simp only [h, ne_eq, ← not_or, ite_not]
  rw [hcases, Loom.failed]
  split
  · refine ⟨rfl, s.length_looms_onLoom _ _, fun x => ?_⟩
    split
    · rename_i hx
      rw [hx, s.loom_onLoom_self p _ hp]
    · rename_i hx
      exact s.loom_onLoom_ne p x _ hx
  · refine ⟨rfl, rfl, fun x => ?_⟩
    split
    · rename_i hx
      rw [hx]
    · rfl

theorem Loom.failed_failed (l : Loom) (cause at_ : Nat) : (l.failed cause at_).failed cause at_ = l.failed cause at_ := by
  unfold Loom.failed
  by_cases h : l.state = .active ∨ l.state = .spare
  · rw [if_pos h]
    exact if_neg (by simp)
  · simp only [if_neg h]

theorem Loom.failed_work (l : Loom) (cause at_ : Nat) : (l.failed cause at_).work = l.work := by
  unfold Loom.failed
  split <;> rfl

/-- Looms without work that are found failing in turn, in one CCLK. -/
theorem State.failLooms_of_idle (ps : List Nat) (cause : Nat) (s : State) (hw : ∀ p ∈ ps, (s.loom p).work = none)
    (hp : ∀ p ∈ ps, p < s.looms.length) :
    let t := ps.foldl (fun t p => t.failLoom p cause) s
    t = { s with looms := t.looms } ∧ ∀ x, t.loom x = if x ∈ ps then (s.loom x).failed cause s.trd.cclk else s.loom x := by
  induction ps generalizing s with
  | nil => exact ⟨rfl, fun _ => rfl⟩
  | cons p ps ih =>
    obtain ⟨hrest, hlen, hloom⟩ := s.failLoom_of_idle p cause (hw p List.mem_cons_self) (hp p List.mem_cons_self)
    have hclk : (s.failLoom p cause).trd = s.trd := by rw [hrest]
    obtain ⟨hrest', hloom'⟩ := ih (s.failLoom p cause) (fun x hx => by
        rw [hloom]
        split
        · rw [Loom.failed_work]; exact hw p List.mem_cons_self
        · exact hw x (List.mem_cons_of_mem p hx))
      fun x hx => by rw [hlen]; exact hp x (List.mem_cons_of_mem p hx)
    refine ⟨?_, fun x => (hloom' x).trans ?_⟩
    · rw [List.foldl_cons]
      generalize ps.foldl (fun t p => t.failLoom p cause) (s.failLoom p cause) = u at hrest' ⊢
      rw [hrest', hrest]
    rw [hloom, hclk]
    by_cases hx : x = p
    · subst hx
      simp [Loom.failed_failed]
    · simp [hx]

theorem State.physOf_lt {s : State} {l p : Nat} (h : s.physOf l = some p) : p < 34 :=
  List.mem_range.mp (List.mem_of_find?_eq_some h)

/-- LOOM_BIST tests looms of the device. -/
theorem State.bistLooms_lt (s : State) (d : Desc) : ∀ p ∈ s.bistLooms d, p < 34 := by
  intro p hp
  have hown : p ∈ (d.work.filterMap fun w => s.physOf w.loom) → p < 34 := fun h => by
    obtain ⟨w, -, hw⟩ := List.mem_filterMap.mp h
    exact State.physOf_lt hw
  unfold State.bistLooms at hp
  extract_lets own n at hp
  split at hp
  · rename_i hn
    rw [List.mem_singleton.mp hp]
    exact hn.1
  · exact hown hp

theorem State.looms_elapseTo (s : State) (c : Nat) : (s.elapseTo c).looms = s.looms := by
  rw [State.elapseTo, s.clockOnly_elapse]

/-- LOOM_BIST as it would run for `len` CCLK. Its 2,000,000 CCLK stay a variable here, for no proof is to count them. -/
def execBistFor (len : Nat) (g q : Nat) (failed : List (Fin 34)) (s : State) : Host.Outcome State Fault Refusal :=
  match s.opDesc? g q 0x0F10 with
  | none => .next s
  | some d =>
    let ps := s.bistLooms d
    let s1 := s.elapseTo ((d.work.map fun w => w.began).foldl max 0 + len)
    match s1.desc? g q with
    | none => .next s1
    | some e =>
      let s2 := (ps.foldl (fun t p => t.onLoom p Loom.wiped) s1).completeDesc e 0 0
      .next ((ps.filter fun p => failed.any fun f => f.val == p).foldl (fun t p => t.failLoom p 2) s2)

theorem exec_loomBist_eq (s : State) (g : Fin 1024) (q : Nat) (failed : List (Fin 34)) :
    exec (.loomBist g q failed) s = execBistFor bistCclk g q failed s := rfl

theorem bistCclk_eq : bistCclk = 2000000 := rfl

theorem execBistFor_ends (s : State) (g q n len : Nat) (failed : List (Fin 34)) (d e : Desc) (hd : s.opDesc? g q 0x0F10 = some d)
    (hn : (d.work.map fun w => w.began).foldl max 0 + len = n) (he : (s.elapseTo n).desc? g q = some e) :
    execBistFor len g q failed s = .next (((s.bistLooms d).filter fun p => failed.any fun f => f.val == p).foldl (fun t p => t.failLoom p 2)
      (((s.bistLooms d).foldl (fun t p => t.onLoom p Loom.wiped) (s.elapseTo n)).completeDesc e 0 0)) := by
  rw [execBistFor, hd]
  simp only [hn, he]

theorem exec_loomBist_ends (s : State) (g : Fin 1024) (q n : Nat) (failed : List (Fin 34)) (d e : Desc) (hd : s.opDesc? g q 0x0F10 = some d)
    (hn : (d.work.map fun w => w.began).foldl max 0 + 2000000 = n) (he : (s.elapseTo n).desc? g q = some e) :
    exec (.loomBist g q failed) s = .next (((s.bistLooms d).filter fun p => failed.any fun f => f.val == p).foldl (fun t p => t.failLoom p 2)
      (((s.bistLooms d).foldl (fun t p => t.onLoom p Loom.wiped) (s.elapseTo n)).completeDesc e 0 0)) := by
  rw [← bistCclk_eq] at hn
  rw [exec_loomBist_eq]
  exact execBistFor_ends s g q n _ failed d e hd hn he

/-- What a LOOM_BIST leaves that ends in CCLK `n` (R285). -/
theorem exec_loomBist_leaves (s : State) (g : Fin 1024) (q n : Nat) (failed : List (Fin 34)) (d e : Desc) (hd : s.opDesc? g q 0x0F10 = some d)
    (hlen : s.looms.length = 34) (hn : (d.work.map fun w => w.began).foldl max 0 + 2000000 = n) (he : (s.elapseTo n).desc? g q = some e) :
    let tested := s.bistLooms d
    let s2 := tested.foldl (fun t p => t.onLoom p Loom.wiped) (s.elapseTo n)
    let u := s2.completeDesc e 0 0
    ∃ t, exec (.loomBist g q failed) s = .next t ∧ s2.completes u e (e.finalStatus 0) 0 ∧
      (∀ p ∈ tested, (u.loom p).scratch = [] ∧ (u.loom p).unknown = none) ∧
      ((∀ p ∈ tested, (u.loom p).work = none) → t = { u with looms := t.looms } ∧ ∀ p, p < 34 → t.loom p =
        if p ∈ tested ∧ (∃ f ∈ failed, f.val = p) ∧ ((u.loom p).state = .active ∨ (u.loom p).state = .spare)
        then { u.loom p with state := .failing, cause := 2, failedAt := u.trd.cclk } else u.loom p) := by
  intro tested s2 u
  obtain ⟨-, -, -, hlooms, -⟩ : u.ten.rings = _ ∧ _ := s2.completeDesc_keeps e 0 0
  have hloom (p : Nat) : u.loom p = (s2.loom p).released e.ring e.seq := by
    rw [State.loom, State.loom, hlooms]
    simp only [List.getD_eq_getElem?_getD, List.getElem?_map]
    cases s2.looms[p]? <;> rfl
  have hulen : u.looms.length = 34 := by
    rw [hlooms, List.length_map, State.length_looms_wipes, s.looms_elapseTo]
    exact hlen
  refine ⟨_, exec_loomBist_ends s g q n failed d e hd hn he, ?_, fun p hp => ?_, fun hidle => ?_⟩
  · exact s2.completes_completeDesc e 0 0 fun _ => (State.desc?_some he).2.1 ▸ g.isLt
  · rw [hloom p]
    exact Loom.zeroed_released _ _ _ (State.zeroed_wipes tested _ p (.inl hp))
  · obtain ⟨hrest, hfailed⟩ := State.failLooms_of_idle (tested.filter fun p => failed.any fun f => f.val == p) 2 u
      (fun p hp => hidle p (List.mem_filter.mp hp).1)
      (fun p hp => by rw [hulen]; exact s.bistLooms_lt d p (List.mem_filter.mp hp).1)
    refine ⟨hrest, fun p hp => (hfailed p).trans ?_⟩
    have hmem : p ∈ tested.filter (fun p => failed.any fun f => f.val == p) ↔ p ∈ tested ∧ ∃ f ∈ failed, f.val = p := by simp
    simp only [hmem, Loom.failed, ← ite_and, and_assoc]

/-- Settles O30: each control operator by its dispatch CCLK and DEADLINE, WAIT_STAMP by its match, and LOOM_BIST's looms by induction on them. -/
theorem controlOperatorsComplete : Obligations.ControlOperatorsComplete := by
  intro s g q d e c s0
  refine ⟨fun hd hc hp hcoll he => ?_, fun hd hc hop he => ⟨fun hw => exec_waitStamp_unmatched s g q d e c hd hc hop he hw, ?_⟩, ?_⟩
  · intro late
    have hring : e.ring = g.val := (State.desc?_some he).2.1
    have hlate (code : Nat) (f : Desc → State → State) (hop : d.opcode = code) (h : late) :
        s0.completes (s.control g q code f) e 0x20 1 := by
      rw [s.control_eq g q code f d e c hd hc hp hcoll hop he, if_pos h]
      exact s0.completes_of_desc? s0 0x20 1 g.isLt he rfl
    refine ⟨fun i hi hop h => ?_, fun hnot hs hdarn => ⟨fun hop => ⟨_, exec_nop g q s, ?_⟩, fun hop => ⟨_, exec_fence g q s, ?_⟩,
      fun hop => ⟨_, exec_loomCfg g q s, ?_⟩⟩⟩
    · simp only [List.mem_cons, List.not_mem_nil, or_false] at hi
      rcases hi with rfl | rfl | rfl
      · exact ⟨_, exec_nop g q s, hlate _ _ hop h⟩
      · exact ⟨_, exec_fence g q s, hlate _ _ hop h⟩
      · exact ⟨_, exec_loomCfg g q s, hlate _ _ hop h⟩
    · rw [s.control_eq g q _ _ d e c hd hc hp hcoll hop he, if_neg hnot]
      exact s0.completes_of_desc? s0 0 0 g.isLt he (e.finalStatus_zero hs hdarn)
    · rw [s.control_eq g q _ _ d e c hd hc hp hcoll hop he, if_neg hnot]
      exact s0.completes_of_desc? s0 0 0 g.isLt he (e.finalStatus_zero hs hdarn)
    · rw [s.control_eq g q _ _ d e c hd hc hp hcoll hop he, if_neg hnot]
      have hprofile : (((s0.setRing g { s0.ring g with profile := e.cfgProfile }).completeDesc e 0 0).ring g).profile = e.cfgProfile := by
        rw [State.ring_congr (State.completeDesc_keeps _ e 0 0).1, State.ring_setRing_self]
      refine ⟨?_, hprofile⟩
      rw [hprofile]
      exact s0.completes_of_desc? _ 0 0 g.isLt he (e.finalStatus_zero hs hdarn)
  · intro h w hw u hu hc' hle hp hcoll hop' hs hdarn
    refine ⟨_, exec_waitStamp_matched s g q h d e c hd hc hop he hw, ?_⟩
    have hat : u.elapseTo c = u := u.elapseTo_of_le c hle
    rw [State.control_eq _ g q _ _ w w c hu hc' hp hcoll hop' (by rw [hat]; exact hu)]
    change if _ then u.completes (if _ then _ else _) w _ _ else _
    rw [hat]
    split
    · exact u.completes_of_desc? u 0x20 1 g.isLt hu rfl
    · exact u.completes_of_desc? u 0 0 g.isLt hu (w.finalStatus_zero hs hdarn)
  · intro failed hd hlen tested s1 he
    exact exec_loomBist_leaves s g q _ failed d e hd hlen rfl he

end Sys2Proof.Machine
end

section
/-! PROOF. Descriptor reads, fetches, refusals and deadlines (R171, R184 to R187, R192, R197, R257, Table 13.7). -/

namespace Sys2Proof.Machine

/-! Descriptor reads. -/

/-- The state in which the read that a ring's last doorbell asks for is issued (R184). -/
abbrev State.readDue (s : State) (g : Nat) : State := s.elapseTo (s.ring g).readAt

theorem State.not_foreign_of_wantsRead {s : State} {g : Nat} (h : s.wantsRead g = true) : s.intakeForeign g = false := by
  simp only [State.wantsRead, Bool.and_eq_true, Bool.not_eq_true'] at h
  exact h.2

theorem exec_descriptorReadIssue_foreign (s : State) (g : Fin 1024) (h : (s.readDue g).intakeForeign g = true) :
    exec (.descriptorReadIssue g) s = .next ((s.readDue g).setFld Reg.PIC_STATUS Reg.PIC_STATUS_INTAKE_ERR 1) := if_pos h

theorem exec_descriptorReadIssue_idle (s : State) (g : Fin 1024) (h : (s.readDue g).intakeForeign g = false)
    (hw : (s.readDue g).wantsRead g = false) : exec (.descriptorReadIssue g) s = .next s :=
  (if_neg (by simp [h])).trans (if_pos (by simp [hw]))

/-- The ring is refused for want of a scoreboard entry, and the refusal is counted (R257). -/
def State.readRefused (s : State) (g : Nat) : State := (s.setRing g { s.ring g with refused := true }).bump Reg.HED_SB_FULL_CNT

/-- The ring has one read more in flight, and the next refused one is sought after it (R185, R258). -/
def State.readTaken (s : State) (g : Nat) : State :=
  (s.setRing g { s.ring g with reads := (s.ring g).reads + 1, refused := false }).onTen fun t =>
    { t with offered := if (s.ring g).refused then g else t.offered }

/-- The read of the slot after those in flight (R174, R184). -/
def State.readTlp (s : State) (g : Nat) : Tlp :=
  { msg := .hostRead (s.ringTenant g) (s.addr64 (Reg.QRG_BASE_LO g) (Reg.QRG_BASE_HI g) + 64 * ((s.ringHead g + (s.ring g).reads) % s.ringSize g)) 64
    fn := some (s.ringTenant g), after := 0, event := none, chain := .none }

theorem exec_descriptorReadIssue_wanted (s : State) (g : Fin 1024) (hw : (s.readDue g).wantsRead g = true) :
    exec (.descriptorReadIssue g) s =
      if !(s.readDue g).entryFree g then .next ((s.readDue g).readRefused g)
      else if !(s.readDue g).isIntake g && (s.readDue g).offeredFirst g != some g.val then .next (s.readDue g)
      else .next (((s.readDue g).readTaken g).send ((s.readDue g).readTlp g)) :=
  (if_neg (by simp [State.not_foreign_of_wantsRead hw])).trans (if_neg (by simp [hw]))

theorem State.readRefused_eq (s : State) (g : Nat) :
    let t := s.readRefused g
    (t.ring g).refused = true ∧ t.rd Reg.HED_SB_FULL_CNT = counted (s.rd Reg.HED_SB_FULL_CNT) ∧ t = { s with regs := t.regs, ten := t.ten } ∧
    ∀ o, o ≠ Reg.HED_SB_FULL_CNT → t.rd o = s.rd o := by
  intro t
  have ht : t = (s.setRing g { s.ring g with refused := true }).bump Reg.HED_SB_FULL_CNT := rfl
  refine ⟨?_, State.rd_bump_self _ _, ?_, fun o ho => State.rd_bump_ne _ _ _ ho⟩
  · rw [ht, State.ring_bump, State.ring_setRing_self]
  · rw [ht, State.bump_rest]
    rfl

theorem State.readIssued_eq (s : State) (g : Nat) :
    let t := (s.readTaken g).send (s.readTlp g)
    (t.ring g).reads = (s.ring g).reads + 1 ∧ t = ({ s with ten := t.ten } : State).send (s.readTlp g) ∧ t.ten.descs = s.ten.descs ∧
    ∀ h, h ≠ g → t.ring h = s.ring h := by
  intro t
  have hten : t.ten = (s.readTaken g).ten := by rw [show t = _ from ((s.readTaken g).send_eq (s.readTlp g) rfl).1]
  have hring (h : Nat) : t.ring h = if h = g then { s.ring g with reads := (s.ring g).reads + 1, refused := false } else s.ring h := by
    rw [State.ring_congr (congrArg Ten.rings hten)]
    exact s.ring_setRing g h _
  refine ⟨by rw [hring, if_pos rfl], ?_, by rw [hten]; rfl, fun h hne => by rw [hring, if_neg hne]⟩
  rw [hten]
  rfl

/-! Fetches. -/

/-- One read fewer is in flight. -/
def State.readReturned (s : State) (g : Nat) : State := s.setRing g { s.ring g with reads := (s.ring g).reads - 1 }

/-- A descriptor is fetched: HEAD and SEQ move on, and it enters the scoreboard (R185, R186). -/
def State.entered (s : State) (g : Nat) (d : Desc) : State :=
  ((s.readReturned g).advanceHead g).onTen fun t => { t with descs := t.descs ++ [d], order := t.order + 1 }

theorem exec_descriptorFetch_idle (s : State) (g : Fin 1024) (ok : Bool) (bytes : List Byte) (h : s.isIntake g = true ∨ (s.ring g).reads = 0) :
    exec (.descriptorFetch g ok bytes) s = .next s := if_pos h.symm

theorem exec_descriptorFetch_dropped (s : State) (g : Fin 1024) (ok : Bool) (bytes : List Byte) (hr : 0 < (s.ring g).reads)
    (hi : s.isIntake g = false) (h : (s.ring g).err = true ∨ s.tenEn (s.ringTenant g) = false) :
    exec (.descriptorFetch g ok bytes) s = .next (s.readReturned g) :=
  (if_neg (by simp [hi]; omega)).trans (if_pos (by simpa using h))

theorem exec_descriptorFetch_failed (s : State) (g : Fin 1024) (bytes : List Byte) (hr : 0 < (s.ring g).reads)
    (hi : s.isIntake g = false) (he : (s.ring g).err = false) (ht : s.tenEn (s.ringTenant g) = true) :
    exec (.descriptorFetch g false bytes) s = .next ((s.readReturned g).fetchError g) :=
  (if_neg (by simp [hi]; omega)).trans ((if_neg (by simp [he, ht])).trans (if_pos rfl))

/-- Nothing of what a descriptor's entry holds changes with the reads in flight. -/
theorem State.fetched_readReturned (s : State) (g : Nat) (bytes : List Byte) : (s.readReturned g).fetched g bytes = s.fetched g bytes := by
  have hprofile : (s.readReturned g).nextProfile g = s.nextProfile g := by
    unfold State.nextProfile
    rw [State.readReturned, State.ring_setRing_self]
    rfl
  rw [State.fetched, State.fetched, hprofile]
  rfl

theorem exec_descriptorFetch_good (s : State) (g : Fin 1024) (bytes : List Byte) (hr : 0 < (s.ring g).reads)
    (hi : s.isIntake g = false) (he : (s.ring g).err = false) (ht : s.tenEn (s.ringTenant g) = true) :
    let d := s.fetched g bytes
    exec (.descriptorFetch g true bytes) s = .next (match if d.coll then (s.entered g d).badColl d else ((s.entered g d).badDesc d).map fun k => (0x30, k) with
      | some (st, k) => (s.entered g d).completeDesc d st k
      | none => (s.entered g d).refreshReady) := by
  intro d
  refine (if_neg (by simp [hi]; omega)).trans ((if_neg (by simp [he, ht])).trans ((if_neg (by simp)).trans ?_))
  change Host.Outcome.next (match if ((s.readReturned g).fetched g bytes).coll then _ else _ with
      | some (st, k) => (s.entered g ((s.readReturned g).fetched g bytes)).completeDesc ((s.readReturned g).fetched g bytes) st k
      | none => (s.entered g ((s.readReturned g).fetched g bytes)).refreshReady) = _
  rw [s.fetched_readReturned g bytes]
  rfl

/-- What entering the scoreboard leaves: HEAD and the fetch sequence number move, and no other register (R185, R186). -/
theorem State.entered_eq (s : State) (g : Nat) (d : Desc) :
    let t := s.entered g d
    t.rd (Reg.QRG_FETCH_SEQ g) = s.rd (Reg.QRG_FETCH_SEQ g) + 1#32 ∧ t.ringHead g = (s.ringHead g + 1) % s.ringSize g ∧
    t.ten.descs = s.ten.descs ++ [d] ∧ t.ten.recs = s.ten.recs ∧ t = { s with regs := t.regs, ten := t.ten } ∧
    ∀ o, o ∉ [Reg.QRG_PTR g, Reg.QRG_FETCH_SEQ g] → t.rd o = s.rd o := by
  intro t
  obtain ⟨-, -, -, hpf, -, -⟩ := Reg.QRG_CFG_ne g
  have hsize : s.ringSize g ≤ 2 ^ 15 := by
    have := Reg.QRG_CFG_LOG2_SIZE.get_lt (s.rd (Reg.QRG_CFG g))
    refine Nat.pow_le_pow_right Nat.two_pos (max_le (by decide) ?_)
    change Reg.QRG_CFG_LOG2_SIZE.get _ ≤ 15
    exact Nat.le_of_lt_succ this
  have hlt : (s.ringHead g + 1) % s.ringSize g < 2 ^ 16 :=
    (Nat.mod_lt _ (Nat.two_pow_pos _)).trans_le (hsize.trans (by decide))
  refine ⟨State.rd_wr_self _ _ _, ?_, rfl, rfl, rfl, fun o ho => ?_⟩
  · change (State.fld (((s.readReturned g).setFld (Reg.QRG_PTR g) Reg.QRG_PTR_HEAD ((s.ringHead g + 1) % s.ringSize g)).wr
      (Reg.QRG_FETCH_SEQ g) _) (Reg.QRG_PTR g) Reg.QRG_PTR_HEAD) = _
    rw [State.fld_wr_ne _ _ _ _ _ hpf]
    exact State.fld_setFld_of_lt _ _ _ _ (by decide) hlt
  · simp only [List.mem_cons, List.not_mem_nil, or_false, not_or] at ho
    exact (State.rd_wr_ne _ _ _ _ ho.2).trans (State.rd_setFld_ne _ _ _ _ _ ho.1)

/-- The registers that a descriptor's checks read stay as they are when it enters. -/
theorem State.entered_checks (s : State) (g : Fin 1024) (d e : Desc) :
    (s.entered g d).badDesc e = s.badDesc e ∧ (s.entered g d).badColl e = s.badColl e := by
  obtain ⟨-, -, -, -, -, hrd⟩ := s.entered_eq g d
  have hring (x : Nat) : (s.entered g d).ringTenant x = s.ringTenant x :=
    State.fld_of_rd (hrd _ (by simp [Reg.QRG_CFG, Reg.QRG_PTR, Reg.QRG_FETCH_SEQ]; omega)) _
  have hten (n : Nat) : (s.entered g d).fld (Reg.TEN_CFG n) Reg.TEN_CFG_MAX_LOOMS = s.fld (Reg.TEN_CFG n) Reg.TEN_CFG_MAX_LOOMS :=
    State.fld_of_rd (hrd _ (by simp [Reg.TEN_CFG, Reg.QRG_PTR, Reg.QRG_FETCH_SEQ]; omega)) _
  have hgroup (k : Nat) : (s.entered g d).fld (Reg.SLV_GROUP k) Reg.SLV_GROUP_MEMBERS = s.fld (Reg.SLV_GROUP k) Reg.SLV_GROUP_MEMBERS :=
    State.fld_of_rd (hrd _ (by simp [Reg.SLV_GROUP, Reg.QRG_PTR, Reg.QRG_FETCH_SEQ]; omega)) _
  have hboot : (s.entered g d).boot = s.boot := rfl
  constructor
  · simp only [State.badDesc, hring, hten]
  · simp only [State.badColl, hring, hgroup, hboot]

/-- A descriptor that breaks R192 has a DETAIL. -/
theorem State.badDesc_of_malformed (s : State) (d : Desc)
    (h : d.num 2 2 ≥ 512 ∨ d.num 0x0E 1 ≥ 64 ∨ d.num 0x0F 1 ≥ 8 ∨ d.num 0x16 2 ≥ 1024 ∨ d.num 0x1C 2 ≥ 1024 ∨ d.num 0x1E 2 ≠ 0 ∨
      d.num 0x24 4 ≠ 0 ∨ d.looms > 32 ∨ d.looms > s.maxLooms d.tenant ∨ (∃ x ∈ d.deps, s.ringTenant x.1 ≠ d.tenant) ∨
      (d.launchEn = true ∧ d.deadlineEn = true ∧ d.deadline.after d.launch = false) ∨ (d.lockstep = true ∧ d.launchEn = false) ∨
      d.argPtr % 64 ≠ 0) : ∃ k, s.badDesc d = some k := by
  unfold State.badDesc
  extract_lets m
  split
  · exact ⟨_, rfl⟩
  · rename_i h1
    split
    · exact ⟨_, rfl⟩
    · rename_i h2
      split
      · exact ⟨_, rfl⟩
      · rename_i h3
        split
        · exact ⟨_, rfl⟩
        · rename_i h4
          split
          · exact ⟨_, rfl⟩
          · rename_i h5
            split
            · exact ⟨_, rfl⟩
            · rename_i h6
              have hdeps : ¬∃ x ∈ d.deps, s.ringTenant x.1 ≠ d.tenant := by simpa using h3
              have hlate : ¬(d.launchEn = true ∧ d.deadlineEn = true ∧ d.deadline.after d.launch = false) := by simpa using h4
              have hlock : ¬(d.lockstep = true ∧ d.launchEn = false) := by simpa using h5
              have hloom : ¬ d.looms > s.maxLooms d.tenant := fun hm => h2 (.inr hm)
              simp only [hdeps, hlate, hlock, hloom, false_or] at h
              omega

/-- The status and DETAIL of a collective record that its own bytes end (Table 13.7). -/
theorem State.badColl_status {s : State} {d : Desc} {st k : Nat} (h : s.badColl d = some (st, k)) : st ≠ 0 ∧ st < 256 ∧ k < 256 := by
  unfold State.badColl at h
  extract_lets bytes at h
  split at h
  · cases h; decide
  · split at h
    · cases h; decide
    · split at h
      · cases h; decide
      · split at h
        · cases h; decide
        · cases h

/-- A fetched descriptor that its own bytes end completes at once. -/
theorem State.entered_ends (s : State) (g : Fin 1024) (bytes : List Byte) (st k : Nat) (hst : st ≠ 0) (h256 : st < 256) :
    let d := s.fetched g bytes
    let t := (s.entered g d).completeDesc d st k
    ∃ r, t.ten.recs = s.ten.recs ++ [r] ∧ r.ring = g.val ∧ r.seq = (s.rd (Reg.QRG_FETCH_SEQ g)).toNat ∧ bytesAt r.data 8 1 = st ∧
      bytesAt r.data 9 1 = k % 256 ∧ r.write = true ∧ (0x10 ≤ st → r.event = true) ∧
      (∀ e ∈ t.ten.descs, ¬(e.ring = g.val ∧ e.seq = (s.rd (Reg.QRG_FETCH_SEQ g)).toNat)) ∧ t.mem = s.mem := by
  intro d t
  obtain ⟨-, -, -, hrecs0, hrest, -⟩ := s.entered_eq g d
  have hcomp := (s.entered g d).completes_completeDesc d st k fun _ => g.isLt
  rw [show d.finalStatus st = st from if_pos hst] at hcomp
  obtain ⟨⟨r, hrecs, hring, hseq, -, -, -, hwrite, hevent, -, -, -, hstatus, hdetail, -⟩, hgone, -, hframe⟩ := hcomp
  refine ⟨r, hrecs.trans (by rw [hrecs0]), hring, hseq, hstatus.trans (Nat.mod_eq_of_lt h256), hdetail, ?_,
    fun h => ?_, hgone, ?_⟩
  · rw [hwrite]
    simp [hst]
  · rw [hevent]
    simp [h]
  · rw [show t.mem = (s.entered g d).mem by rw [show t = _ from hframe], hrest]

/-- A fetched descriptor that no check ends waits in the scoreboard (R186, R195, R198). -/
theorem State.entered_listed (s : State) (g : Fin 1024) (bytes : List Byte) :
    let d := s.fetched g bytes
    let t := (s.entered g d).refreshReady
    t.rd (Reg.QRG_FETCH_SEQ g) = s.rd (Reg.QRG_FETCH_SEQ g) + 1#32 ∧ t.ringHead g = (s.ringHead g + 1) % s.ringSize g ∧
    (∃ e ∈ t.ten.descs, e.ring = g.val ∧ e.seq = (s.rd (Reg.QRG_FETCH_SEQ g)).toNat ∧ e.bytes = bytes.take 64 ∧ e.phase = .waiting ∧
      e.tenant = s.ringTenant g ∧ e.profile = s.nextProfile g ∧ e.late = (d.launchEn && s.trd.now.after d.launch)) ∧
    t.ten.descs.length = s.ten.descs.length + 1 ∧ t = { s with regs := t.regs, ten := t.ten } ∧
    ∀ o, o ∉ [Reg.QRG_PTR g, Reg.QRG_FETCH_SEQ g] → t.rd o = s.rd o := by
  intro d t
  obtain ⟨hseq, hhead, hdescs, -, hrest, hrd⟩ := s.entered_eq g d
  have hlist : t.ten.descs = (s.ten.descs ++ [d]).map (s.entered g d).relook := by
    rw [← hdescs]
    exact State.refreshReady_descs _
  obtain ⟨_, _, _, hd⟩ := (s.entered g d).relook_eq d
  refine ⟨hseq, hhead, ⟨(s.entered g d).relook d, ?_, ?_⟩, ?_, ?_, hrd⟩
  · rw [hlist]
    exact List.mem_map_of_mem (by simp)
  · rw [hd]
    exact ⟨rfl, rfl, rfl, rfl, rfl, rfl, rfl⟩
  · rw [hlist, List.length_map, List.length_append, List.length_singleton]
  · change { s.entered g d with ten := t.ten } = _
    rw [hrest]
    rfl

/-- A failed read stops its ring and is counted (R187). -/
theorem State.fetchError_eq (s : State) (g : Nat) (h : 0 < (s.ring g).reads) :
    let t := (s.readReturned g).fetchError g
    (t.ring g).err = true ∧ (t.ring g).reads + 1 = (s.ring g).reads ∧
    t.rd Reg.QRG_FETCH_ERR_CNT = counted (s.rd Reg.QRG_FETCH_ERR_CNT) ∧ t = { s with regs := t.regs, ten := t.ten } ∧
    t.ten.descs = s.ten.descs ∧ ∀ o, o ≠ Reg.QRG_FETCH_ERR_CNT → t.rd o = s.rd o := by
  intro t
  let u := (s.readReturned g).setRing g { (s.readReturned g).ring g with err := true }
  have ht : t = (u.bump Reg.QRG_FETCH_ERR_CNT).faultEvent ((s.readReturned g).ringTenant g) := rfl
  have hten : t.ten.rings = u.ten.rings ∧ t.ten.descs = u.ten.descs := by
    rw [ht, State.bump_rest]
    exact ⟨rfl, rfl⟩
  have hring : t.ring g = { s.ring g with reads := (s.ring g).reads - 1, err := true } := by
    rw [State.ring_congr hten.1, State.ring_setRing_self, State.readReturned, State.ring_setRing_self]
  refine ⟨by rw [hring], by rw [hring]; exact Nat.sub_add_cancel h, State.rd_bump_self u _, ?_, hten.2, fun o ho => State.rd_bump_ne u _ _ ho⟩
  rw [ht, State.bump_rest]
  rfl

/-- Settles O23: the read by what its ring wants and the scoreboard has, the fetch by what came back, and the DEADLINE. -/
theorem descriptorsAreFetched : Obligations.DescriptorsAreFetched := by
  intro s g
  refine ⟨?_, ⟨fun h => ⟨_, exec_descriptorReadIssue_foreign s g h, ?_, rfl⟩, exec_descriptorReadIssue_idle s g⟩,
    fun h ok bytes => exec_descriptorFetch_idle s g ok bytes h, fun hr hi h ok bytes => ?_, fun hr hi he ht bytes => ?_, fun q h => ?_,
    fun q d hd hp hen hat => ?_⟩
  · intro s0 hw
    have hexec := exec_descriptorReadIssue_wanted s g hw
    refine ⟨fun hfull => ⟨_, hexec.trans (if_pos (by rw [hfull]; rfl)), s0.readRefused_eq g⟩, fun hfree hfirst => ?_, fun hfree hi hnot => ?_⟩
    · refine ⟨_, hexec.trans ((if_neg (by rw [hfree]; decide)).trans (if_neg ?_)), s0.readIssued_eq g⟩
      rw [Bool.and_eq_true, Bool.not_eq_true', bne_iff_ne]
      rintro ⟨hi, hnot⟩
      exact hfirst.elim (fun h => absurd (h.symm.trans hi) (by decide)) hnot
    · refine hexec.trans ((if_neg (by rw [hfree]; decide)).trans (if_pos ?_))
      rw [Bool.and_eq_true, Bool.not_eq_true', bne_iff_ne]
      exact ⟨hi, hnot⟩
  · exact State.fld_setFld_self _ _ _ _ (by decide)
  · exact ⟨_, exec_descriptorFetch_dropped s g ok bytes hr hi h, s.ring_setRing_self g _, rfl, rfl⟩
  · have hgood := exec_descriptorFetch_good s g bytes hr hi he ht
    refine ⟨⟨_, exec_descriptorFetch_failed s g bytes hr hi he ht, s.fetchError_eq g hr⟩, ?_, ?_, ?_⟩
    · intro d hok
      obtain ⟨hdesc, hcoll⟩ := s.entered_checks g d d
      have hnone : (if d.coll then (s.entered g d).badColl d else ((s.entered g d).badDesc d).map fun k => (0x30, k)) = none := by
        rw [hdesc, hcoll]
        split at hok
        · rw [if_pos ‹_›]; exact Option.isNone_iff_eq_none.mp hok
        · rw [if_neg ‹_›, Option.isNone_iff_eq_none.mp hok]; rfl
      refine ⟨(s.entered g d).refreshReady, hgood.trans ?_, s.entered_listed g bytes⟩
      rw [hnone]
    · intro d hcoll hbad
      obtain ⟨k, hk⟩ := s.badDesc_of_malformed d hbad
      obtain ⟨st, hst30⟩ : ∃ st, st = 0x30 := ⟨_, rfl⟩
      obtain ⟨r, hrecs, hring, hseq, hst, -, hwrite, hevent, hgone, hmem⟩ :=
        s.entered_ends g bytes st k (by rw [hst30]; decide) (by rw [hst30]; decide)
      have hexec : exec (.descriptorFetch g true bytes) s = .next ((s.entered g d).completeDesc d st k) := by
        rw [hgood, if_neg (by simp [d, hcoll]), (s.entered_checks g d d).1, hk, hst30]
        rfl
      exact ⟨_, r, hexec, hrecs, hring, hseq, hst.trans hst30, hwrite, hevent (by rw [hst30]; decide), hgone, hmem⟩
    · intro d st k hcoll hbad
      obtain ⟨hst0, hst, hk⟩ := State.badColl_status hbad
      obtain ⟨r, hrecs, hring, hseq, hstatus, hdetail, -, -, -, hmem⟩ := s.entered_ends g bytes st k hst0 hst
      refine ⟨(s.entered g d).completeDesc d st k, r, hgood.trans ?_, hrecs, hring, hseq, hstatus, hdetail.trans (Nat.mod_eq_of_lt hk), hmem⟩
      rw [if_pos hcoll, (s.entered_checks g d d).2, hbad]
  · change execDeadlineMiss g q s = _
    unfold execDeadlineMiss
    split
    · rename_i d hd
      exact if_neg (h d hd)
    · rfl
  · refine ⟨s.completeDesc d 0x20 1, ?_, s.completes_of_desc? s 0x20 1 g.isLt hd rfl⟩
    change execDeadlineMiss g q s = _
    rw [execDeadlineMiss, hd]
    exact if_pos ⟨hp, hen, hat⟩

end Sys2Proof.Machine
end

section
/-! SUPPORT. The Heddle's choice: what it moves on, and what stands meanwhile (R206 to R214). -/

namespace Sys2Proof.Machine

/-- From `s` to `t` only the state of the choice itself has moved on: the class state, the tenants' deficits and the count of gang holds. -/
structure State.ChoiceMoved (s t : State) : Prop where
  rest : t = { s with ten := t.ten, regs := t.regs }
  descs : t.ten.descs = s.ten.descs
  rd : ∀ o, o ≠ Reg.QRG_GANG_HOLD_CNT → t.rd o = s.rd o

namespace State.ChoiceMoved

variable {s t u : State}

theorem refl (s : State) : s.ChoiceMoved s := ⟨rfl, rfl, fun _ _ => rfl⟩

theorem trans (h : s.ChoiceMoved t) (h' : t.ChoiceMoved u) : s.ChoiceMoved u :=
  ⟨by rw [h'.rest, h.rest], h'.descs.trans h.descs, fun o ho => (h'.rd o ho).trans (h.rd o ho)⟩

theorem setCls (h : s.ChoiceMoved t) (live : Bool) (c : ClassState) : s.ChoiceMoved (t.setCls live c) :=
  h.trans ⟨rfl, by cases live <;> rfl, fun _ _ => rfl⟩

theorem setDeficit (h : s.ChoiceMoved t) (live : Bool) (n : Nat) (x : Int) : s.ChoiceMoved (t.setDeficit live n x) :=
  h.trans (by cases live <;> exact ⟨rfl, rfl, fun _ _ => rfl⟩)

theorem bump (h : s.ChoiceMoved t) : s.ChoiceMoved (t.bump Reg.QRG_GANG_HOLD_CNT) :=
  h.trans ⟨by rw [State.bump_rest], by rw [State.bump_ten], fun o ho => State.rd_bump_ne _ _ _ ho⟩

/-! What the choice reads stands. -/

section
variable (h : s.ChoiceMoved t)
include h

theorem trd : t.trd = s.trd := by rw [h.rest]

theorem looms : t.looms = s.looms := by rw [h.rest]

theorem loom (p : Nat) : t.loom p = s.loom p := by rw [State.loom, h.looms]; rfl

theorem physOf (l : Nat) : t.physOf l = s.physOf l := by simp only [State.physOf, h.loom]

theorem fld {o : Nat} (ho : o ≠ Reg.QRG_GANG_HOLD_CNT) (f : Field) : t.fld o f = s.fld o f := State.fld_of_rd (h.rd o ho) f

theorem ringField (g : Nat) (f : Field) : t.fld (Reg.QRG_CFG g) f = s.fld (Reg.QRG_CFG g) f :=
  h.fld (by rw [Reg.QRG_CFG, Reg.QRG_GANG_HOLD_CNT]; omega) f

theorem ringTenant (g : Nat) : t.ringTenant g = s.ringTenant g := h.ringField g _

theorem ringLive (g : Nat) : t.ringLive g = s.ringLive g := by
  unfold State.ringLive
  simp only [h.ringField]

theorem dispatchable (d : Desc) : t.dispatchable d = s.dispatchable d := by
  simp only [State.dispatchable, State.atHead, h.trd, h.descs]

theorem readyIn (live : Bool) : t.readyIn live = s.readyIn live := by
  simp only [State.readyIn, h.descs, h.ringLive, h.dispatchable]

theorem goesFirst (a b : Desc) : t.goesFirst a b = s.goesFirst a b := by simp only [State.goesFirst, h.ringField]

theorem headOf (live : Bool) (n : Nat) : t.headOf live n = s.headOf live n := by simp only [State.headOf, h.readyIn, h.goesFirst]

theorem tenLooms (n : Nat) : t.tenLooms n = s.tenLooms n := by simp only [State.tenLooms, h.looms, h.ringTenant]

theorem maxLooms (n : Nat) : t.maxLooms n = s.maxLooms n := by
  rw [State.maxLooms, h.fld (by rw [Reg.TEN_CFG, Reg.QRG_GANG_HOLD_CNT]; omega)]
  rfl

theorem wouldRun (live : Bool) (n : Nat) : t.wouldRun live n = s.wouldRun live n := by
  simp only [State.wouldRun, h.headOf, h.tenLooms, h.maxLooms]

theorem denied (p : Nat) : t.denied p = s.denied p := by
  rw [State.denied, h.rd Reg.LOM_DENY_LO (by decide), h.rd Reg.LOM_DENY_HI (by decide)]
  rfl

theorem freePool : t.freePool = s.freePool := by simp only [State.freePool, State.pool, h.physOf, h.loom, h.denied]

theorem bulkLooms : t.bulkLooms = s.bulkLooms := by simp only [State.bulkLooms, h.looms, h.ringLive]

theorem rerunWaits (live : Bool) : t.rerunWaits live = s.rerunWaits live := by simp only [State.rerunWaits, h.descs, h.ringLive]

theorem bulkReserve : t.bulkReserve = s.bulkReserve := by
  rw [State.bulkReserve, h.readyIn, h.rerunWaits, h.bulkLooms, h.fld (o := Reg.QRG_BULK_MIN) (by decide)]
  rfl

theorem freeFor (live : Bool) : t.freeFor live = s.freeFor live := by simp only [State.freeFor, h.freePool, h.bulkReserve]

theorem eligible (live : Bool) (n : Nat) : t.eligible live n = s.eligible live n := by
  simp only [State.eligible, h.wouldRun, h.headOf, h.freeFor]

end

end State.ChoiceMoved

/-! The steps of the choice. -/

theorem State.endHold_moved (s : State) (live : Bool) : s.ChoiceMoved (s.endHold live) := by
  unfold State.endHold
  extract_lets c
  split
  · exact (State.ChoiceMoved.refl s).setCls _ _
  · exact .refl s

theorem State.noteWant_moved (s : State) (live : Bool) (n : Nat) (fits : Bool) : s.ChoiceMoved (s.noteWant live n fits) := by
  unfold State.noteWant
  extract_lets c fails s1
  have h1 : s.ChoiceMoved s1 := (State.ChoiceMoved.refl s).setCls _ _
  split
  · exact .refl s
  · split
    · split
      · exact .refl s
      · exact (State.ChoiceMoved.refl s).setCls _ _
    · split
      · exact h1.bump
      · exact h1

/-- DRR moves deficits and its position, and serves one of the tenants it was given (R212). -/
theorem State.drrVisit_moved (live : Bool) (elig : List Nat) (fuel : Nat) (s : State) :
    s.ChoiceMoved (State.drrVisit live elig fuel s).2 ∧ ∀ n, (State.drrVisit live elig fuel s).1 = some n → n ∈ elig := by
  induction fuel generalizing s with
  | zero => exact ⟨.refl s, nofun⟩
  | succ fuel ih =>
    have hgo {u : State} (hu : s.ChoiceMoved u) : s.ChoiceMoved (State.drrVisit live elig fuel u).2 ∧
        ∀ n, (State.drrVisit live elig fuel u).1 = some n → n ∈ elig := (ih u).imp_left hu.trans
    unfold State.drrVisit
    extract_lets c n next x
    split
    · rename_i hn
      split
      · refine ⟨.refl s, fun m hm => ?_⟩
        rw [← Option.some.inj hm]
        exact List.contains_iff_mem.mp hn
      · exact hgo (((State.ChoiceMoved.refl s).setDeficit _ _ _).setCls _ _)
    · split
      · exact hgo (((State.ChoiceMoved.refl s).setDeficit _ _ _).setCls _ _)
      · exact hgo ((State.ChoiceMoved.refl s).setCls _ _)

theorem mem_of_mem_fromPos {pos n : Nat} {ts : List Nat} (h : n ∈ fromPos pos ts) : n ∈ ts := by
  rw [fromPos, List.mem_append] at h
  exact h.elim List.mem_of_mem_filter List.mem_of_mem_filter

theorem State.pickAmong_moved (s : State) (live : Bool) (ts : List Nat) :
    s.ChoiceMoved (s.pickAmong live ts).2 ∧ ∀ n, (s.pickAmong live ts).1 = some n → n ∈ ts := by
  unfold State.pickAmong
  split
  · rename_i m hm
    refine ⟨.refl s, fun n hn => ?_⟩
    rw [← Option.some.inj hn]
    exact mem_of_mem_fromPos (List.mem_of_find?_eq_some hm)
  · split
    · exact ⟨.refl s, nofun⟩
    · exact State.drrVisit_moved live ts _ s

/-- What a class dispatches is what an eligible tenant would dispatch in it (R211). -/
theorem State.pickClass_moved (s : State) (live : Bool) : s.ChoiceMoved (s.pickClass live).2 ∧
    ∀ d, (s.pickClass live).1 = some d → ∃ n, s.eligible live n = true ∧ s.headOf live n = some d := by
  unfold State.pickClass
  split
  · exact ⟨.refl s, fun _ hd => nomatch hd⟩
  · extract_lets s1 ts c ts' first s2 can can' r
    have h1 : s.ChoiceMoved s1 := s.endHold_moved live
    have h2 : s.ChoiceMoved s2 := by
      unfold s2
      clear_value first
      split
      · exact h1.trans (s1.noteWant_moved _ _ _)
      · exact h1
    obtain ⟨hpick, hmem⟩ := s2.pickAmong_moved live can'
    have hcan (n : Nat) (hn : n ∈ can') : s.eligible live n = true := by
      have hin : n ∈ can := by
        unfold can' at hn
        split at hn
        · exact List.mem_of_mem_filter hn
        · exact hn
      rw [← h1.eligible]
      exact (List.mem_filter.mp hin).2
    split
    · rename_i n hn
      refine ⟨h2.trans hpick, fun d hd => ⟨n, hcan n (hmem n hn), ?_⟩⟩
      rw [← (h2.trans hpick).headOf]
      exact hd
    · exact ⟨h2.trans hpick, fun _ hd => nomatch hd⟩

theorem State.pickDesc_moved (cs : List Bool) (s : State) : s.ChoiceMoved (s.pickDesc cs).2 ∧
    ∀ d, (s.pickDesc cs).1 = some d → ∃ live n, s.eligible live n = true ∧ s.headOf live n = some d := by
  induction cs generalizing s with
  | nil => exact ⟨.refl s, fun _ hd => nomatch hd⟩
  | cons c cs ih =>
    obtain ⟨hclass, hfound⟩ := s.pickClass_moved c
    unfold State.pickDesc
    split
    · rename_i d t hpick
      rw [hpick] at hclass hfound
      exact ⟨hclass, fun e he => ⟨c, hfound e he⟩⟩
    · rename_i t hpick
      rw [hpick] at hclass
      obtain ⟨hrest, hnext⟩ := ih t
      refine ⟨hclass.trans hrest, fun d hd => ?_⟩
      obtain ⟨live, n, helig, hhead⟩ := hnext d hd
      exact ⟨live, n, by rw [← hclass.eligible, helig], by rw [← hclass.headOf, hhead]⟩

/-! The head of a tenant. -/

/-- The place of a descriptor among those of a tenant and class: PRIO, then ring, then fetch order (R210). -/
def State.placeOf (s : State) (d : Desc) : ℕ ×ₗ ℕ ×ₗ ℕ :=
  toLex (s.fld (Reg.QRG_CFG d.ring) Reg.QRG_CFG_PRIO, toLex (d.ring, d.order))

theorem State.goesFirst_iff (s : State) (a b : Desc) : s.goesFirst a b = true ↔ s.placeOf a < s.placeOf b := by
  simp [State.goesFirst, State.placeOf, Prod.Lex.toLex_lt_toLex]

/-- The head of a tenant is the descriptor with the lowest place. -/
theorem State.headOf_eq_argmin (s : State) (live : Bool) (n : Nat) :
    s.headOf live n = ((s.readyIn live).filter fun d => d.tenant == n).argmin s.placeOf := by
  unfold State.headOf List.argmin
  congr 1
  funext b d
  cases b with
  | none => rfl
  | some x => simp only [List.argAux, s.goesFirst_iff]

theorem State.headOf_some {s : State} {live : Bool} {n : Nat} {d : Desc} (h : s.headOf live n = some d) :
    d ∈ s.readyIn live ∧ d.tenant = n ∧ ∀ x ∈ s.readyIn live, x.tenant = n → s.goesFirst x d = false := by
  rw [s.headOf_eq_argmin] at h
  obtain ⟨hready, htenant⟩ := List.mem_filter.mp (List.argmin_mem h)
  refine ⟨hready, beq_iff_eq.mp htenant, fun x hx hn => ?_⟩
  rw [Bool.eq_false_iff, ne_eq, s.goesFirst_iff]
  have hmem : x ∈ (s.readyIn live).filter fun d => d.tenant == n := List.mem_filter.mpr ⟨hx, beq_iff_eq.mpr hn⟩
  exact List.not_lt_of_mem_argmin hmem h

theorem State.mem_readyIn {s : State} {live : Bool} {d : Desc} :
    d ∈ s.readyIn live ↔ d ∈ s.ten.descs ∧ s.ringLive d.ring = live ∧ s.dispatchable d = true := by
  simp only [State.readyIn, List.mem_filter, Bool.and_eq_true, beq_iff_eq]

/-- A tenant eligible with a descriptor is below its limit, and the free pool has the looms the descriptor asks for (R206, R211). -/
theorem State.eligible_head {s : State} {live : Bool} {n : Nat} {d : Desc} (h : s.eligible live n = true) (hd : s.headOf live n = some d) :
    s.tenLooms n < s.maxLooms n ∧ d.looms ≤ s.freePool.length := by
  rw [State.eligible, hd, Bool.and_eq_true, State.wouldRun, Bool.and_eq_true, decide_eq_true_iff, decide_eq_true_iff] at h
  obtain ⟨⟨-, hlimit⟩, hfree⟩ := h
  exact ⟨hlimit, hfree.trans (Nat.sub_le _ _)⟩

/-- The descriptor the Heddle dispatches goes first of its tenant and class, its tenant is below its limit, and it fits (R206 to R212). -/
theorem State.pickDesc_some {s : State} {cs : List Bool} {d : Desc} (h : (s.pickDesc cs).1 = some d) :
    d ∈ s.ten.descs ∧ (∀ x ∈ s.readyIn (s.ringLive d.ring), x.tenant = d.tenant → s.goesFirst x d = false) ∧
    s.tenLooms d.tenant < s.maxLooms d.tenant ∧ d.looms ≤ s.freePool.length := by
  obtain ⟨live, n, helig, hhead⟩ := (s.pickDesc_moved cs).2 d h
  obtain ⟨hready, htenant, hfirst⟩ := State.headOf_some hhead
  obtain ⟨hmem, hlive, -⟩ := State.mem_readyIn.mp hready
  obtain ⟨hlimit, hfits⟩ := State.eligible_head helig hhead
  rw [hlive, htenant]
  exact ⟨hmem, hfirst, hlimit, hfits⟩

end Sys2Proof.Machine
end

section
/-! SUPPORT. Looms put to work: which are chosen, what they must do first, and what flushes and clears leave alone (R238, R264 to R269, R287 to R290). -/

namespace Sys2Proof.Machine

/-! Flushes, clears and switching on. -/

/-- From `s` to `t` looms, their caches' lines and the power of their islands have changed, and no stored byte of DRAM. -/
structure State.LoomsMoved (s t : State) : Prop where
  rest : t = { s with mem := t.mem, looms := t.looms, pwr := t.pwr, free := t.free }
  dram : t.mem.dram = s.mem.dram

namespace State.LoomsMoved

variable {s t u : State}

theorem refl (s : State) : s.LoomsMoved s := ⟨rfl, rfl⟩

theorem trans (h : s.LoomsMoved t) (h' : t.LoomsMoved u) : s.LoomsMoved u := ⟨by rw [h'.rest, h.rest], h'.dram.trans h.dram⟩

theorem onLoom (h : s.LoomsMoved t) (p : Nat) (f : Loom → Loom) : s.LoomsMoved (t.onLoom p f) := h.trans ⟨rfl, rfl⟩

theorem foldl {α : Type} (f : State → α → State) (hf : ∀ (u : State) x, u.LoomsMoved (f u x)) (l : List α) (h : s.LoomsMoved t) :
    s.LoomsMoved (l.foldl f t) :=
  List.foldlRecOn l f h fun u hu x _ => hu.trans (hf u x)

end State.LoomsMoved

/-- From `s` to `t` only lines of the caches have changed, and how many free values are read. -/
structure State.LinesMoved (s t : State) : Prop where
  rest : t = { s with mem := t.mem, free := t.free }
  dram : t.mem.dram = s.mem.dram

namespace State.LinesMoved

variable {s t u : State}

theorem refl (s : State) : s.LinesMoved s := ⟨rfl, rfl⟩

theorem trans (h : s.LinesMoved t) (h' : t.LinesMoved u) : s.LinesMoved u := ⟨by rw [h'.rest, h.rest], h'.dram.trans h.dram⟩

theorem foldl {α : Type} (f : State → α → State) (hf : ∀ (u : State) x, u.LinesMoved (f u x)) (l : List α) (h : s.LinesMoved t) :
    s.LinesMoved (l.foldl f t) :=
  List.foldlRecOn l f h fun u hu x _ => hu.trans (hf u x)

theorem loomsMoved (h : s.LinesMoved t) : s.LoomsMoved t := ⟨by rw [h.rest], h.dram⟩

theorem onLine (h : s.LinesMoved t) (pa : Nat) (f : SLine → SLine) : s.LinesMoved (t.onLine pa f) := by
  unfold State.onLine
  split
  · split
    · exact h.trans ⟨rfl, rfl⟩
    · exact h
  · exact h.trans ⟨rfl, rfl⟩

theorem takeBack (h : s.LinesMoved t) (pa : Nat) : s.LinesMoved (t.takeBack pa) := by
  have hfree : s.LinesMoved t.nextFree.2 := h.trans ⟨rfl, rfl⟩
  unfold State.takeBack
  split
  · split
    · split
      · exact hfree.onLine _ _
      · exact hfree
    · split
      · exact hfree.onLine _ _
      · exact hfree
    · exact h
  · exact h

end State.LinesMoved

theorem State.flushL1_moved (s : State) (loom : Nat) : s.LinesMoved (s.flushL1 loom) := by
  unfold State.flushL1
  refine State.LinesMoved.foldl _ (fun u x => ?_) _ (.refl s)
  exact (State.LinesMoved.refl u).takeBack x.pa

theorem State.dropL1_moved (s : State) (loom : Nat) (all : Bool) : s.LinesMoved (s.dropL1 loom all) := by
  refine State.LinesMoved.foldl _ (fun u x => ?_) _ ⟨rfl, rfl⟩
  split
  · exact .refl u
  · exact (State.LinesMoved.refl u).onLine _ _

theorem State.clearLoom_moved (s : State) (p : Nat) (o : Owner) : s.LoomsMoved (s.clearLoom p o) := by
  unfold State.clearLoom
  split
  · exact .refl s
  · exact (s.dropL1_moved _ _).loomsMoved.onLoom _ _

theorem State.switchOn_moved (s : State) (ps : List Nat) : s.LoomsMoved (s.switchOn ps) := by
  unfold State.switchOn
  extract_lets off start us s1
  have h1 : s.LoomsMoved s1 := State.LoomsMoved.foldl _ (fun u x => (State.LoomsMoved.refl u).onLoom _ _) _ (.refl s)
  split
  · exact .refl s
  · exact h1.trans ⟨rfl, rfl⟩

theorem State.takeLoom_moved (s : State) (d : Desc) (logical : Nat) : s.LoomsMoved (s.takeLoom d logical) := by
  unfold State.takeLoom
  split
  · exact .refl s
  · extract_lets l clear split s1
    have hflush : s.LinesMoved (if split then s.flushL1 logical else s) := by
      split
      · exact s.flushL1_moved logical
      · exact .refl s
    have h1 : s.LoomsMoved s1 := (hflush.trans (State.dropL1_moved _ _ _)).loomsMoved.trans (State.clearLoom_moved _ _ _)
    exact h1.trans ⟨rfl, rfl⟩

/-! The looms of a dispatch. -/

theorem State.nodup_freePool (s : State) : s.freePool.Nodup := (List.nodup_range.filter _).filter _

theorem State.lt_of_mem_freePool {s : State} {l : Nat} (h : l ∈ s.freePool) : l < 32 :=
  List.mem_range.mp (List.mem_of_mem_filter (List.mem_of_mem_filter h))

/-- Some of a list's own and its others, own ones first, in ascending number. -/
theorem perm_filter_range_of_take (free : List Nat) (own : Nat → Bool) (n : Nat) (hnodup : free.Nodup) (hlt : ∀ l ∈ free, l < 32) :
    let chosen := (free.filter own ++ free.filter fun l => !own l).take n
    ((List.range 32).filter fun l => chosen.contains l).Perm chosen ∧ chosen.length = min n free.length ∧ ∀ l ∈ chosen, l ∈ free := by
  intro chosen
  have hperm : (free.filter own ++ free.filter fun l => !own l).Perm free := List.filter_append_perm own free
  have hmem (l : Nat) (hl : l ∈ chosen) : l ∈ free := hperm.mem_iff.mp (List.mem_of_mem_take hl)
  have hchosen : chosen.Nodup := (hperm.nodup_iff.mpr hnodup).sublist (List.take_sublist _ _)
  refine ⟨(List.perm_ext_iff_of_nodup (List.nodup_range.filter _) hchosen).mpr fun l => ?_, ?_, hmem⟩
  · rw [List.mem_filter, List.contains_iff_mem, List.mem_range]
    exact ⟨And.right, fun hl => ⟨hlt l (hmem l hl), hl⟩⟩
  · rw [List.length_take, hperm.length_eq]

/-- The looms of a dispatch are free ones, and as many as it asks for where the pool has them (R265, R266). -/
theorem State.chooseLooms_spec (s : State) (tenant n : Nat) (h : n ≤ s.freePool.length) :
    (s.chooseLooms tenant n).length = n ∧ ∀ l ∈ s.chooseLooms tenant n, l ∈ s.freePool := by
  obtain ⟨hperm, hlen, hmem⟩ := perm_filter_range_of_take s.freePool
    (fun l => match s.physOf l with
      | some p => (s.loom p).served == some tenant
      | none => false) n s.nodup_freePool fun l hl => State.lt_of_mem_freePool hl
  exact ⟨hperm.length_eq.trans (hlen.trans (min_eq_left h)), fun l hl => hmem l (hperm.mem_iff.mp hl)⟩

/-- Each loom of a dispatch has its work, which begins no sooner than now (R268, R269). -/
theorem State.workOf_spec (s : State) (d : Desc) (looms : List Nat) :
    (s.workOf d looms).1.length = looms.length ∧
    ∀ w ∈ (s.workOf d looms).1, w.loom ∈ looms ∧ w.begun = false ∧ s.trd.cclk ≤ w.ready := by
  unfold State.workOf
  extract_lets costs longest items
  refine ⟨?_, fun w hw => ?_⟩
  · simp [items, costs]
  · obtain ⟨x, hx, rfl⟩ := List.mem_map.mp hw
    exact ⟨(List.of_mem_zip (List.fst_mem_of_mem_zipIdx hx)).1, rfl, Nat.le_add_right _ _⟩

end Sys2Proof.Machine
end

section
/-! PROOF. Dispatch (R206 to R212, R240, R265 to R269). -/

namespace Sys2Proof.Machine

/-- A descriptor that takes its looms runs on them: the entry it leaves. -/
def State.runEntry (s : State) (d : Desc) (looms : List Nat) : Desc :=
  let w := (s.switchOn (looms.filterMap s.physOf)).workOf d looms
  { d with phase := .running, work := w.1, used := looms.length, cleared := d.cleared || w.2 }

/-- A descriptor that takes its looms changes its own entry, and otherwise looms alone. -/
theorem State.runOn_eq (s : State) (d : Desc) (looms : List Nat) :
    ∃ u, s.LoomsMoved u ∧ s.runOn d looms = u.setDesc (s.runEntry d looms) := by
  have hon : s.LoomsMoved (s.switchOn (looms.filterMap s.physOf)).nextFree.2 := (s.switchOn_moved _).trans ⟨rfl, rfl⟩
  exact ⟨_, State.LoomsMoved.foldl _ (fun u l => u.takeLoom_moved d l) looms hon, rfl⟩

/-- The entry of a descriptor that is dispatched for the first time. -/
def State.dispatched (s : State) (d : Desc) : Desc :=
  s.runEntry { d with start := s.trd.now, since := s.trd.time, picks := s.ten.picks } (s.chooseLooms d.tenant d.looms)

/-- A dispatched descriptor runs from now on as many free looms as it asked for (R206, R265, R266, R268). -/
theorem State.dispatched_spec (s : State) (d : Desc) (h : d.looms ≤ s.freePool.length) :
    let e := s.dispatched d
    e.ring = d.ring ∧ e.seq = d.seq ∧ e.phase = .running ∧ e.start = s.trd.now ∧ e.bytes = d.bytes ∧ e.used = d.looms ∧
    e.work.length = d.looms ∧ ∀ w ∈ e.work, w.loom ∈ s.freePool ∧ w.begun = false ∧ s.trd.cclk ≤ w.ready := by
  intro e
  obtain ⟨hlen, hfree⟩ := s.chooseLooms_spec d.tenant d.looms h
  have hon := s.switchOn_moved ((s.chooseLooms d.tenant d.looms).filterMap s.physOf)
  obtain ⟨hwork, hworks⟩ := (s.switchOn ((s.chooseLooms d.tenant d.looms).filterMap s.physOf)).workOf_spec
    { d with start := s.trd.now, since := s.trd.time, picks := s.ten.picks } (s.chooseLooms d.tenant d.looms)
  refine ⟨rfl, rfl, rfl, rfl, rfl, hlen, hwork.trans hlen, fun w hw => ?_⟩
  obtain ⟨hmem, hbegun, hready⟩ := hworks w hw
  rw [hon.rest] at hready
  exact ⟨hfree _ hmem, hbegun, hready⟩

/-- A dispatch puts the running entry in the place of the one that waited, and leaves DRAM, the Treadle and the host's side as they are. -/
theorem State.dispatchDesc_spec (s : State) (d : Desc) (hd : d ∈ s.ten.descs) :
    let t := s.dispatchDesc d
    t.desc? d.ring d.seq = some (s.dispatched d) ∧ t.mem.dram = s.mem.dram ∧ t.trd = s.trd ∧ t.hif = s.hif ∧ t.out = s.out := by
  intro t
  obtain ⟨u, hu, hrun⟩ := s.runOn_eq { d with start := s.trd.now, since := s.trd.time, picks := s.ten.picks } (s.chooseLooms d.tenant d.looms)
  change _ = u.setDesc (s.dispatched d) at hrun
  obtain ⟨e, he⟩ := State.desc?_isSome hd
  have hentry : (u.setDesc (s.dispatched d)).desc? d.ring d.seq = some (s.dispatched d) :=
    State.desc?_setDesc (d := s.dispatched d) (e := e) (by rw [State.desc?, hu.rest]; exact he)
  obtain ⟨o, ho⟩ : ∃ o, o = if s.ringLive d.ring then Reg.QRG_LIVE_DISP_CNT else Reg.QRG_BULK_DISP_CNT := ⟨_, rfl⟩
  let v := (u.setDesc (s.dispatched d)).bump o
  have hmoved : v.ChoiceMoved t := by
    have hend := v.endHold_moved (s.ringLive d.ring)
    have ht : t = if ((v.endHold (s.ringLive d.ring)).cls (s.ringLive d.ring)).hold = false ∧
        ((v.endHold (s.ringLive d.ring)).cls (s.ringLive d.ring)).want = some d.tenant then
        (v.endHold (s.ringLive d.ring)).setCls (s.ringLive d.ring)
          { (v.endHold (s.ringLive d.ring)).cls (s.ringLive d.ring) with want := none, fails := 0 }
        else v.endHold (s.ringLive d.ring) := by
      unfold v
      rw [← hrun, ho]
      rfl
    rw [ht]
    split
    · exact hend.setCls _ _
    · exact hend
  have hrest : t = { u with ten := t.ten, regs := t.regs } := by
    rw [hmoved.rest]
    unfold v
    rw [State.bump_rest]
    rfl
  refine ⟨?_, ?_, ?_, ?_, ?_⟩
  · rw [State.desc?, hmoved.descs]
    unfold v
    rw [State.bump_ten]
    exact hentry
  · rw [hrest]
    exact hu.dram
  · rw [hrest, hu.rest]
  · rw [hrest, hu.rest]
  · rw [hrest, hu.rest]

/-- The state of the next dispatch. -/
abbrev State.dispatchDue (s : State) : State := s.elapseTo s.nextDispatch

theorem exec_dispatch_badOp (s : State) (d : Desc)
    (h : (s.dispatchDue.ten.descs.find? fun d => s.dispatchDue.dispatchable d && d.badOp.isSome) = some d) :
    exec .dispatch s = .next (s.dispatchDue.completeDesc d 0x31 (d.badOp.getD 1)) := by
  change execDispatch s = _
  unfold execDispatch
  extract_lets s0
  split
  · rename_i e he
    rw [Option.some.inj (he.symm.trans h)]
  · rename_i he
    exact nomatch he.symm.trans h

theorem exec_dispatch_picked (s : State) (d : Desc)
    (h : (s.dispatchDue.ten.descs.find? fun d => s.dispatchDue.dispatchable d && d.badOp.isSome) = none)
    (hd : (s.dispatchDue.pickDesc s.dispatchDue.classOrder).1 = some d) :
    exec .dispatch s = .next ((s.dispatchDue.pickDesc s.dispatchDue.classOrder).2.dispatchDesc d) := by
  change execDispatch s = _
  unfold execDispatch
  extract_lets s0
  split
  · rename_i e he
    exact nomatch he.symm.trans h
  · split
    · rename_i e t he
      rw [he] at hd ⊢
      rw [← Option.some.inj hd]
    · rename_i t he
      rw [he] at hd
      exact nomatch hd

/-- A descriptor whose opcode is refused is no collective record (R240). -/
theorem Desc.coll_of_badOp {d : Desc} (h : d.badOp.isSome = true) : d.coll = false := by
  unfold Desc.badOp at h
  split at h
  · exact nomatch h
  · rename_i hc
    exact Bool.eq_false_iff.mpr hc

/-- A status that is not 0 stands in the record as it is. -/
theorem Desc.finalStatus_of_ne_zero (d : Desc) {st : Nat} (h : st ≠ 0) : d.finalStatus st = st := if_pos h

theorem State.dispatch_refuses (s : State) (d : Desc)
    (h : (s.dispatchDue.ten.descs.find? fun d => s.dispatchDue.dispatchable d && d.badOp.isSome) = some d) :
    ∃ t, exec .dispatch s = .next t ∧ s.dispatchDue.completes t d 0x31 (d.badOp.getD 1) := by
  have hkey := List.find?_some h
  have hbad := (Bool.and_eq_true_iff.mp hkey).2
  have hcomp := s.dispatchDue.completes_completeDesc d 0x31 (d.badOp.getD 1) fun hc => nomatch hc.symm.trans (Desc.coll_of_badOp hbad)
  rw [d.finalStatus_of_ne_zero (by decide)] at hcomp
  exact ⟨_, exec_dispatch_badOp s d h, hcomp⟩

theorem State.dispatch_runs (s : State) (d : Desc)
    (h : (s.dispatchDue.ten.descs.find? fun d => s.dispatchDue.dispatchable d && d.badOp.isSome) = none)
    (hd : (s.dispatchDue.pickDesc s.dispatchDue.classOrder).1 = some d) :
    let s0 := s.dispatchDue
    ∃ t e, exec .dispatch s = .next t ∧ t.desc? d.ring d.seq = some e ∧ e.phase = .running ∧ e.start = s0.trd.now ∧
      e.bytes = d.bytes ∧ e.used = d.looms ∧ e.work.length = d.looms ∧
      (∀ w ∈ e.work, w.loom ∈ s0.freePool ∧ w.begun = false ∧ s0.trd.cclk ≤ w.ready) ∧
      t.mem.dram = s0.mem.dram ∧ t.trd = s0.trd ∧ t.hif = s0.hif ∧ t.out = s0.out := by
  intro s0
  obtain ⟨hmem, -, -, hfits⟩ := State.pickDesc_some hd
  have hmoved := (s0.pickDesc_moved s0.classOrder).1
  obtain ⟨u, hu⟩ : ∃ u, u = (s0.pickDesc s0.classOrder).2 := ⟨_, rfl⟩
  rw [← hu] at hmoved
  obtain ⟨-, -, hphase, hstart, hbytes, hused, hlen, hwork⟩ := u.dispatched_spec d (by rw [hmoved.freePool]; exact hfits)
  obtain ⟨hdesc, hdram, htrd, hhif, hout⟩ := u.dispatchDesc_spec d (by rw [hmoved.descs]; exact hmem)
  rw [hmoved.freePool, hmoved.trd] at hwork
  rw [hmoved.trd] at hstart htrd
  refine ⟨u.dispatchDesc d, u.dispatched d, ?_, hdesc, hphase, hstart, hbytes, hused, hlen, hwork, ?_, htrd, ?_, ?_⟩
  · rw [hu]
    exact exec_dispatch_picked s d h hd
  · rw [hdram, hmoved.rest]
  · rw [hhif, hmoved.rest]
  · rw [hout, hmoved.rest]

end Sys2Proof.Machine
end

section
/-! PROOF. Execution start, completion, the execution cap, completion records (R202, R215, R268 to R270, R287). -/

namespace Sys2Proof.Machine

/-! Execution start. -/

/-- From `s` to `t` looms, their channels and the number of free values read have changed. -/
structure State.LoomStarts (s t : State) : Prop where
  rest : t = { s with sht := t.sht, looms := t.looms, free := t.free }

namespace State.LoomStarts

variable {s t u : State}

theorem refl (s : State) : s.LoomStarts s := ⟨rfl⟩

theorem trans (h : s.LoomStarts t) (h' : t.LoomStarts u) : s.LoomStarts u := ⟨by rw [h'.rest, h.rest]⟩

theorem foldl {α : Type} (f : State → α → State) (hf : ∀ (u : State) x, u.LoomStarts (f u x)) (l : List α) (h : s.LoomStarts t) :
    s.LoomStarts (l.foldl f t) :=
  List.foldlRecOn l f h fun u hu x _ => hu.trans (hf u x)

theorem loadConsts (h : s.LoomStarts t) (d : Desc) (w : Work) : s.LoomStarts (t.loadConsts d w) := by
  unfold State.loadConsts
  split
  · split
    · exact h.trans ⟨rfl⟩
    · exact h
  · exact h

theorem fillCaches (h : s.LoomStarts t) (d : Desc) (w : Work) : s.LoomStarts (t.fillCaches d w) := by
  unfold State.fillCaches
  extract_lets n
  split
  · exact h.trans ⟨rfl⟩
  · exact h

theorem openChannels (h : s.LoomStarts t) (d : Desc) (w : Work) : s.LoomStarts (t.openChannels d w) := by
  unfold State.openChannels
  extract_lets n
  split
  · exact h
  · refine State.LoomStarts.foldl _ (fun u k => ?_) _ h
    extract_lets r
    split
    · exact .refl u
    · exact ⟨rfl⟩

end State.LoomStarts

/-- The work that begins with a loom's: its own, and with LOCKSTEP that of every loom of the descriptor (R268, R269). -/
def Desc.begins (d : Desc) (loom : Nat) (x : Work) : Bool := !x.begun && (d.lockstep || x.loom == loom)

/-- The entry of a descriptor of which looms have begun. -/
def Desc.begunAt (d e : Desc) (loom c : Nat) : Desc :=
  { e with work := e.work.map fun x => if d.begins loom x then { x with begun := true, began := c } else x }

theorem exec_executionStart_begins (s : State) (g : Fin 1024) (q : Nat) (loom : Fin 32) (d e : Desc) (w : Work) (hd : s.desc? g q = some d)
    (hp : d.phase = .running) (hw : (d.work.find? fun w => w.loom == loom.val && !w.begun) = some w)
    (he : (s.elapseTo w.ready).desc? g q = some e) :
    exec (.executionStart g q loom) s =
      .next (((e.work.filter (d.begins loom)).foldl (fun t x => ((t.loadConsts e x).fillCaches e x).openChannels e x) (s.elapseTo w.ready)).setDesc
        (d.begunAt e loom (s.elapseTo w.ready).trd.cclk)) := by
  change execExecutionStart g q loom s = _
  unfold execExecutionStart
  rw [hd]
  dsimp only
  rw [hw]
  dsimp only
  rw [if_neg (by simp [hp]), he]
  rfl

/-- Every loom that begins with another has begun (R268, R269). -/
theorem Desc.begunAt_work (d e : Desc) (loom c : Nat) (x : Work) (hx : x ∈ (d.begunAt e loom c).work) (h : d.lockstep = true ∨ x.loom = loom) :
    x.begun = true := by
  obtain ⟨y, -, rfl⟩ := List.mem_map.mp hx
  by_cases hb : d.begins loom y = true
  · rw [if_pos hb]
  · rw [if_neg hb] at h ⊢
    by_contra hy
    exact hb (by simp [Desc.begins, hy, h])

theorem State.executionStart_spec (s : State) (g : Fin 1024) (q : Nat) (loom : Fin 32) (d e : Desc) (w : Work) (hd : s.desc? g q = some d)
    (hp : d.phase = .running) (hw : (d.work.find? fun w => w.loom == loom.val && !w.begun) = some w)
    (he : (s.elapseTo w.ready).desc? g q = some e) :
    ∃ t e', exec (.executionStart g q loom) s = .next t ∧ t.desc? g q = some e' ∧ e'.phase = e.phase ∧ e'.bytes = e.bytes ∧
      (∀ x ∈ e'.work, d.lockstep = true ∨ x.loom = loom.val → x.begun = true) ∧
      t = { s.elapseTo w.ready with ten := t.ten, sht := t.sht, looms := t.looms, free := t.free } := by
  obtain ⟨u, hu⟩ : ∃ u, u = (e.work.filter (d.begins loom)).foldl (fun t x => ((t.loadConsts e x).fillCaches e x).openChannels e x)
    (s.elapseTo w.ready) := ⟨_, rfl⟩
  have hstarts : (s.elapseTo w.ready).LoomStarts u := by
    rw [hu]
    exact State.LoomStarts.foldl _ (fun t x => (((State.LoomStarts.refl t).loadConsts e x).fillCaches e x).openChannels e x) _ (.refl _)
  obtain ⟨-, hring, hseq⟩ := State.desc?_some he
  have hentry : u.desc? e.ring e.seq = some e := by
    rw [State.desc?, hstarts.rest, hring, hseq]
    exact he
  have hset := State.desc?_setDesc (d := d.begunAt e loom (s.elapseTo w.ready).trd.cclk) hentry
  refine ⟨u.setDesc (d.begunAt e loom (s.elapseTo w.ready).trd.cclk), d.begunAt e loom (s.elapseTo w.ready).trd.cclk, ?_, ?_, rfl, rfl,
    d.begunAt_work e loom _, ?_⟩
  · rw [exec_executionStart_begins s g q loom d e w hd hp hw he, ← hu]
  · rw [← hring, ← hseq]
    exact hset
  · rw [State.setDesc, hstarts.rest]
    rfl

/-! Completion. -/

theorem exec_descriptorComplete_due (s : State) (g : Fin 1024) (q : Nat) (d e : Desc) (hd : s.desc? g q = some d) (hc : s.endComes d = true)
    (he : (s.elapseTo d.endAt).desc? g q = some e) :
    (e.stop = none → exec (.descriptorComplete g q) s =
      .next (((e.work.map fun w => w.loom).foldl State.flushL1 (s.elapseTo d.endAt)).completeDesc e 0 0)) ∧
    ∀ why, e.stop = some why → exec (.descriptorComplete g q) s =
      .next (((s.elapseTo d.endAt).finishStop e why).clearReserved (e.work.map fun w => w.loom)) := by
  change (_ → execDescriptorComplete g q s = _) ∧ ∀ why, _ → execDescriptorComplete g q s = _
  unfold execDescriptorComplete
  rw [hd]
  dsimp only
  rw [if_pos hc, he]
  dsimp only
  exact ⟨fun hstop => by rw [hstop], fun why hstop => by rw [hstop]⟩

/-- The status of a descriptor that has done its work (R277, R400). -/
theorem Desc.finalStatus_zero_eq (d : Desc) : d.finalStatus 0 = if d.stopped then 0x02 else if d.darned then 0x01 else 0 := rfl

theorem State.descriptorComplete_done (s : State) (g : Fin 1024) (q : Nat) (d e : Desc) (hd : s.desc? g q = some d) (hc : s.endComes d = true)
    (he : (s.elapseTo d.endAt).desc? g q = some e) (hstop : e.stop = none) :
    let s0 := s.elapseTo d.endAt
    let u := (e.work.map fun w => w.loom).foldl State.flushL1 s0
    ∃ t, exec (.descriptorComplete g q) s = .next t ∧ u = { s0 with mem := u.mem, free := u.free } ∧
      u.completes t e (if e.stopped then 0x02 else if e.darned then 0x01 else 0) 0 := by
  intro s0 u
  have hlines : s0.LinesMoved u := State.LinesMoved.foldl _ State.flushL1_moved _ (.refl s0)
  obtain ⟨-, hring, -⟩ := State.desc?_some he
  have hcomp := u.completes_completeDesc e 0 0 fun _ => hring ▸ g.isLt
  rw [e.finalStatus_zero_eq] at hcomp
  exact ⟨_, (exec_descriptorComplete_due s g q d e hd hc he).1 hstop, hlines.rest, hcomp⟩

theorem State.descriptorComplete_stopped (s : State) (g : Fin 1024) (q : Nat) (d e : Desc) (hd : s.desc? g q = some d)
    (hc : s.endComes d = true) (he : (s.elapseTo d.endAt).desc? g q = some e) (st k : Nat) (hstop : e.stop = some (.ends st k)) (hst : st ≠ 0) :
    ∃ t v, exec (.descriptorComplete g q) s = .next t ∧ (s.elapseTo d.endAt).completes v e st k ∧
      t = v.clearReserved (e.work.map fun w => w.loom) := by
  exact ⟨_, (s.elapseTo d.endAt).completeDesc e st k, (exec_descriptorComplete_due s g q d e hd hc he).2 _ hstop,
    State.completes_of_desc? _ _ st k g.isLt he (e.finalStatus_of_ne_zero hst), rfl⟩

/-! The execution cap. -/

/-- The status with which the execution cap ends a descriptor, and its DETAIL (R215, Table 4.6). -/
def Desc.capStop (d : Desc) : Stop := .ends 0x20 (if d.phase = .halted then 3 else 2)

theorem exec_executionCap_reached (s : State) (g : Fin 1024) (q : Nat) (d : Desc) (hd : s.desc? g q = some d) (hp : d.phase ≠ .waiting)
    (hc : d.since + s.capTime d ≤ s.trd.time) : exec (.executionCap g q) s = .next (s.stopAtTile d d.capStop) := by
  change execExecutionCap g q s = _
  unfold execExecutionCap
  rw [hd]
  exact if_neg (by simp [hp, hc])

theorem exec_executionCap_early (s : State) (g : Fin 1024) (q : Nat) (d : Desc) (hd : s.desc? g q = some d)
    (hc : s.trd.time < d.since + s.capTime d) : exec (.executionCap g q) s = .next s := by
  change execExecutionCap g q s = _
  unfold execExecutionCap
  rw [hd]
  exact if_pos (by simp [hc])

/-- A descriptor of which no loom has begun is stopped at once. -/
theorem State.stopAtTile_idle (s : State) (d : Desc) (why : Stop) (h : d.phase ≠ .running ∨ ∀ w ∈ d.work, w.begun = false) :
    s.stopAtTile d why = s.finishStop d why := by
  refine if_neg ?_
  rintro ⟨hp, hw⟩
  obtain ⟨w, hmem, hb⟩ := List.any_eq_true.mp hw
  exact h.elim (· hp) fun h => nomatch hb.symm.trans (h w hmem)

/-- A running descriptor is stopped at the end of its tile (R215). -/
theorem State.stopAtTile_running (s : State) (d : Desc) (why : Stop) (hp : d.phase = .running) (hw : ∃ w ∈ d.work, w.begun = true)
    (hstop : d.stop = none) : s.stopAtTile d why = s.nextFree.2.setDesc { d with stop := some why, stopAt := s.tileEnd d } :=
  (if_pos ⟨hp, List.any_eq_true.mpr hw⟩).trans (if_pos (by rw [hstop]; rfl))

/-- A tile ends within 0.5 ms (log 136). -/
theorem State.tileEnd_bounds (s : State) (d : Desc) : s.trd.cclk ≤ s.tileEnd d ∧ s.tileEnd d ≤ s.trd.cclk + 500 * usCclk s.op := by
  refine List.foldlRecOn _ _ (motive := fun c => s.trd.cclk ≤ c ∧ c ≤ s.trd.cclk + 500 * usCclk s.op) ⟨le_rfl, Nat.le_add_right _ _⟩
    fun c hc w _ => ?_
  obtain ⟨hlo, hhi⟩ := hc
  have hx := Nat.lt_succ_iff.mp (Nat.mod_lt (Config.tileLeft s.free w.loom) (500 * usCclk s.op).succ_pos)
  extract_lets x
  have hx' : x ≤ s.trd.cclk + 500 * usCclk s.op := Nat.add_le_add_left hx _
  refine ⟨le_max_of_le_left hlo, max_le hhi ?_⟩
  split
  · exact max_le (Nat.le_add_right _ _) (min_le_of_left_le hx')
  · exact hx'

theorem State.executionCap_ends (s : State) (g : Fin 1024) (q : Nat) (d : Desc) (hd : s.desc? g q = some d) (hp : d.phase ≠ .waiting)
    (hc : d.since + s.capTime d ≤ s.trd.time) (h : d.phase ≠ .running ∨ ∀ w ∈ d.work, w.begun = false) :
    ∃ t, exec (.executionCap g q) s = .next t ∧ s.completes t d 0x20 (if d.phase = .halted then 3 else 2) := by
  refine ⟨_, ?_, State.completes_of_desc? s s _ _ g.isLt hd (d.finalStatus_of_ne_zero (by decide))⟩
  rw [exec_executionCap_reached s g q d hd hp hc, s.stopAtTile_idle d _ h]
  rfl

theorem State.executionCap_stops (s : State) (g : Fin 1024) (q : Nat) (d : Desc) (hd : s.desc? g q = some d) (hp : d.phase = .running)
    (hc : d.since + s.capTime d ≤ s.trd.time) (hw : ∃ w ∈ d.work, w.begun = true) (hstop : d.stop = none) :
    ∃ t e, exec (.executionCap g q) s = .next t ∧ t.desc? g q = some e ∧ e = { d with stop := some (.ends 0x20 2), stopAt := e.stopAt } ∧
      s.trd.cclk ≤ e.stopAt ∧ e.stopAt ≤ s.trd.cclk + 500 * usCclk s.op ∧ t = { s with ten := t.ten, free := t.free } := by
  have hexec := exec_executionCap_reached s g q d hd (by rw [hp]; decide) hc
  rw [s.stopAtTile_running d _ hp hw hstop, show d.capStop = .ends 0x20 2 by rw [Desc.capStop, if_neg (by rw [hp]; decide)]] at hexec
  obtain ⟨hlo, hhi⟩ := s.tileEnd_bounds d
  obtain ⟨-, hring, hseq⟩ := State.desc?_some hd
  have hentry : s.nextFree.2.desc? d.ring d.seq = some d := by
    rw [hring, hseq]
    exact hd
  have hset := State.desc?_setDesc (d := { d with stop := some (.ends 0x20 2), stopAt := s.tileEnd d }) hentry
  refine ⟨_, { d with stop := some (.ends 0x20 2), stopAt := s.tileEnd d }, hexec, ?_, rfl, hlo, hhi, rfl⟩
  rw [← hring, ← hseq]
  exact hset

/-! Completion records. -/

/-- The state in which the oldest completion is issued (R202). -/
abbrev State.recordDue (s : State) (r : Rec) (rest : List Rec) : State := (s.elapseTo r.issueAt).onTen fun x => { x with recs := rest }

/-- The write of a completion record. -/
def State.recordTlp (s : State) (r : Rec) : Tlp :=
  { msg := .hostWrite r.tenant r.addr r.data, fn := some r.tenant, after := 0
    event := if r.event then some (s.ringVec r) else none, chain := .none }

theorem exec_completionRecord_write (s : State) (r : Rec) (rest : List Rec) (h : s.ten.recs = r :: rest) (hw : r.write = true) :
    exec .completionRecord s = .next ((s.recordDue r rest).send ((s.recordDue r rest).recordTlp r)) := by
  change execCompletionRecord s = _
  unfold execCompletionRecord
  rw [h]
  exact congrArg Host.Outcome.next (if_pos hw)

theorem exec_completionRecord_silent (s : State) (r : Rec) (rest : List Rec) (h : s.ten.recs = r :: rest) (hw : r.write = false)
    (hev : r.event = false) : exec .completionRecord s = .next (s.recordDue r rest) := by
  change execCompletionRecord s = _
  unfold execCompletionRecord
  rw [h]
  simp only [hw, hev, Bool.false_eq_true, if_false]

/-- A record's write begins at once where the link, credit and its function let it (R142, R202). -/
theorem State.maySend_record (s : State) (r : Rec) (hl : s.linkUp = true) (hc : 0 < s.hif.credit) (hd3 : s.d3hot = false)
    (hb : (s.fnCfg r.tenant).bme = true) (hh : ∀ u ∈ s.hif.held, u.fn ≠ some r.tenant) : s.maySend (s.recordTlp r) = true := by
  have hheld : (s.hif.held.any fun u => u.fn == some r.tenant && !s.mute u) = false := by
    rw [List.any_eq_false]
    intro u hu hk
    exact hh u hu (beq_iff_eq.mp (Bool.and_eq_true_iff.mp hk).1)
  have hmute : s.mute (s.recordTlp r) = false := rfl
  simp only [State.maySend, State.recordTlp] at hmute ⊢
  simp [hl, hc, hd3, hb, hheld, hmute]

/-- A record's write goes out in the present CCLK, and commits its event then (R202, R218). -/
theorem State.transmit_record (s : State) (r : Rec) :
    let t := s.transmit (s.recordTlp r)
    t.out = s.out ++ [⟨s.trd.cclk, .hostWrite r.tenant r.addr r.data⟩] ∧ t.hif = { s.hif with credit := s.hif.credit - 1 } ∧
    t = { s with out := t.out, hif := t.hif, ten := t.ten } ∧ (r.event = false → t.ten = s.ten) ∧
    (r.event = true → t.vector (s.ringVec r) =
      (s.vector (s.ringVec r)).counted (s.modCount (s.ringVec r)) (s.modPicks (s.ringVec r)) s.trd.cclk) := by
  intro t
  have hat : s.beginAt (s.recordTlp r) = s.trd.cclk := by
    rw [State.beginAt, State.recordTlp]
    simp
  obtain ⟨u, hu⟩ : ∃ u : State, u = { s with
    out := s.out ++ [⟨s.trd.cclk, .hostWrite r.tenant r.addr r.data⟩], hif := { s.hif with credit := s.hif.credit - 1 } } := ⟨_, rfl⟩
  have ht : t = if r.event then u.eventAt (s.ringVec r) s.trd.cclk else u := by
    unfold t State.transmit
    rw [hat, hu]
    cases hev : r.event <;> simp [State.recordTlp, hev] <;> rfl
  rw [ht]
  cases hev : r.event with
  | false =>
    rw [if_neg (by decide), hu]
    exact ⟨rfl, rfl, rfl, fun _ => rfl, nofun⟩
  | true =>
    rw [if_pos rfl]
    refine ⟨?_, ?_, ?_, nofun, fun _ => (u.vector_setVector_self _ _).trans ?_⟩ <;> rw [hu] <;> rfl

/-- Settles O24: each row by what it finds: the choice, the looms' work, the end, the cap and the oldest record. -/
theorem descriptorsRunAndComplete : Obligations.DescriptorsRunAndComplete := by
  intro s
  refine ⟨⟨fun d hd => s.dispatch_refuses d hd, fun hnone d hd => ?_⟩, fun g q d => ⟨?_, ?_, ?_, ?_⟩, fun r rest h => ⟨?_, ?_, ?_⟩⟩
  · obtain ⟨-, hfirst, hlimit, -⟩ := State.pickDesc_some hd
    exact ⟨hfirst, hlimit, s.dispatch_runs d hnone hd⟩
  · exact fun loom w e hd hp hw he => s.executionStart_spec g q loom d e w hd hp hw he
  · exact fun e hd hc he => ⟨s.descriptorComplete_done g q d e hd hc he, s.descriptorComplete_stopped g q d e hd hc he⟩
  · exact fun hd hp hc => ⟨s.executionCap_ends g q d hd hp hc, fun hrun hw hstop => s.executionCap_stops g q d hd hrun hc hw hstop⟩
  · exact fun hd hc => exec_executionCap_early s g q d hd hc
  · exact fun hw hev => exec_completionRecord_silent s r rest h hw hev
  · intro hw hl hc hd3 hb hh
    have hsend : (s.recordDue r rest).send ((s.recordDue r rest).recordTlp r) = (s.recordDue r rest).transmit ((s.recordDue r rest).recordTlp r) :=
      if_pos ((s.recordDue r rest).maySend_record r hl hc hd3 hb hh)
    exact ⟨_, (exec_completionRecord_write s r rest h hw).trans (congrArg _ hsend), (s.recordDue r rest).transmit_record r⟩
  · intro hw hl
    have hsend : (s.recordDue r rest).send ((s.recordDue r rest).recordTlp r) =
        (s.recordDue r rest).onHif fun x => { x with held := x.held ++ [(s.recordDue r rest).recordTlp r] } :=
      if_neg (by rw [State.maySend, hl]; simp)
    exact ⟨_, _, (exec_completionRecord_write s r rest h hw).trans (congrArg _ hsend), rfl, rfl, rfl⟩

end Sys2Proof.Machine
end

section
/-! SUPPORT. A loom found failing: the descriptor it stops, which re-executes or ends with ABORT_LOOM (R273 to R278). -/

namespace Sys2Proof.Machine

/-! What the end of a descriptor leaves. -/

/-- A change of every loom, seen at one of them. -/
theorem State.loom_of_map {s t : State} {f : Loom → Loom} (h : t.looms = s.looms.map f) (hblank : f Loom.blank = Loom.blank) (p : Nat) :
    t.loom p = f (s.loom p) := by
  simp only [State.loom, h, List.getD_eq_getElem?_getD, List.getElem?_map]
  cases s.looms[p]? with
  | none => exact hblank.symm
  | some l => rfl

/-- A released loom keeps its place, and what is known of its failures. -/
theorem Loom.released_keeps (l : Loom) (g q : Nat) : (l.released g q).state = l.state ∧ (l.released g q).logical = l.logical ∧
    (l.released g q).cause = l.cause ∧ (l.released g q).failedAt = l.failedAt ∧ (l.released g q).ceFrame = l.ceFrame := by
  unfold Loom.released
  split
  · exact ⟨rfl, rfl, rfl, rfl, rfl⟩
  · exact ⟨rfl, rfl, rfl, rfl, rfl⟩

theorem Loom.released_work (l : Loom) (g q : Nat) : (l.released g q).work ≠ some (g, q) := by
  unfold Loom.released
  split
  · simp
  · assumption

/-- The record of a completion joins the others, and carries its status (R199, R200). -/
theorem State.completeDesc_record (s : State) (d : Desc) (status detail : Nat) :
    ∃ r, (s.completeDesc d status detail).ten.recs = s.ten.recs ++ [r] ∧ bytesAt r.data 8 1 = d.finalStatus status % 256 := by
  obtain ⟨tenants, hleft⟩ := s.leftBy_eq d (d.finalStatus status)
  obtain ⟨hten, -⟩ := (s.leftBy d (d.finalStatus status)).postRecord_eq d.ring d.seq d.tenant (d.finalStatus status)
    (s.recData d (d.finalStatus status) detail) d.noRec d.irq false
  rw [← s.completeDesc_eq] at hten
  obtain ⟨-, -, -, hstatus, -⟩ := bytesAt_recordBytes d.tag d.seq (d.finalStatus status)
    detail (d.seq / s.ringSize d.ring % 2 == 0) d.late d.cleared d.used d.ring (s.recStart d) s.trd.now.bits
  refine ⟨(s.leftBy d (d.finalStatus status)).recOf d.ring d.seq d.tenant (d.finalStatus status)
    (s.recData d (d.finalStatus status) detail) d.noRec d.irq false, ?_, hstatus⟩
  rw [hten, hleft]

/-- A completed descriptor is gone from the scoreboard (R270). -/
theorem State.desc?_completeDesc (s : State) (d : Desc) (status detail : Nat) : (s.completeDesc d status detail).desc? d.ring d.seq = none := by
  obtain ⟨-, -, ⟨w, hdescs⟩, -⟩ := s.completeDesc_keeps d status detail
  rw [State.desc?, List.find?_eq_none, hdescs]
  intro e he
  obtain ⟨x, hx, rfl⟩ := List.mem_map.mp he
  obtain ⟨_, _, _, hx'⟩ := w.relook_eq x
  rw [hx']
  simpa using (State.mem_othersThan.mp hx).2

/-- A status other than a timeout counts no tenant's timeouts. -/
theorem State.accounted_rd (s : State) (ring tenant status o : Nat) (hst : status ≠ 0x20)
    (ho : o ∉ [Reg.QRG_DONE_SEQ ring, Reg.QRG_CFG ring, Reg.HED_ABORT_LOOM_CNT]) : (s.accounted ring tenant status).rd o = s.rd o := by
  simp only [List.mem_cons, List.not_mem_nil, or_false, not_or] at ho
  obtain ⟨hdone, hcfg, habort⟩ := ho
  have hmoved : ((s.moveDone ring).moveDraining ring).rd o = s.rd o :=
    (((s.moveDone ring).moveDraining_writes ring).rd o hcfg).trans (State.rd_wr_ne _ _ _ _ hdone)
  unfold State.accounted State.countStatus
  rw [if_neg hst]
  split
  · exact (State.rd_bump_ne _ _ _ habort).trans hmoved
  · exact hmoved

/-- The registers a completion other than a timeout leaves alone. -/
theorem State.completeDesc_rd (s : State) (d : Desc) (status detail o : Nat) (hst : d.finalStatus status ≠ 0x20)
    (ho : o ∉ [Reg.QRG_DONE_SEQ d.ring, Reg.QRG_CFG d.ring, Reg.HED_ABORT_LOOM_CNT]) (hcoll : o ≠ Reg.SLV_COLL_FAIL_CNT) :
    (s.completeDesc d status detail).rd o = s.rd o := by
  obtain ⟨-, hrest⟩ := (s.leftBy d (d.finalStatus status)).postRecord_eq d.ring d.seq d.tenant (d.finalStatus status)
    (s.recData d (d.finalStatus status) detail) d.noRec d.irq false
  rw [← s.completeDesc_eq] at hrest
  calc (s.completeDesc d status detail).rd o
      = ((s.leftBy d (d.finalStatus status)).accounted d.ring d.tenant (d.finalStatus status)).rd o := by rw [hrest]; rfl
    _ = (s.leftBy d (d.finalStatus status)).rd o := State.accounted_rd _ _ _ _ _ hst ho
    _ = s.rd o := s.leftBy_rd d _ o fun _ => hcoll

/-! A stopped descriptor. -/

theorem State.dropColl_eq (s : State) (d : Desc) : s.dropColl d = { s with slv := (s.dropColl d).slv } := by
  unfold State.dropColl
  split <;> rfl

/-- The entry of a descriptor that waits to re-execute (R276). -/
def Desc.toRerun (d : Desc) : Desc := { d with phase := .rerun, stopped := true, darned := false, work := [], stop := none }

/-- A descriptor that is stopped has left its looms, whether it re-executes or ends (R274, R276). -/
theorem State.stopDesc_looms (s : State) (d : Desc) : (s.stopDesc d).looms = s.looms.map (Loom.released d.ring d.seq) := by
  unfold State.stopDesc
  split
  · obtain ⟨-, -, -, hlooms, -⟩ := s.completeDesc_keeps d 0x22 0
    exact hlooms
  · rw [State.setDesc, State.onTen_looms, State.dropColl_eq]
    rfl

/-- Stopped for the first time a descriptor waits to re-execute from its start (R276). -/
theorem State.stopDesc_first (s : State) {g q : Nat} {d : Desc} (hd : s.desc? g q = some d) (hs : d.stopped = false) :
    let t := s.stopDesc d
    t.desc? g q = some d.toRerun ∧ t = { s with looms := t.looms, ten := t.ten, sht := t.sht, slv := t.slv } := by
  intro t
  obtain ⟨u, hu⟩ : ∃ u, u = ((s.onLooms (Loom.released d.ring d.seq)).freeFaults d.ring d.seq).dropColl d := ⟨_, rfl⟩
  have hrest : u = { s with looms := u.looms, sht := u.sht, slv := u.slv } := by rw [hu, State.dropColl_eq]; rfl
  have ht : t = u.setDesc d.toRerun := by
    unfold t State.stopDesc
    rw [if_neg (by simp [hs]), hu]
    rfl
  obtain ⟨-, hring, hseq⟩ := State.desc?_some hd
  have hentry : u.desc? d.toRerun.ring d.toRerun.seq = some d := by
    rw [State.desc?, hrest]
    exact (congrArg₂ s.desc? hring hseq).trans hd
  refine ⟨?_, ?_⟩
  · have hset := State.desc?_setDesc hentry
    rw [← ht] at hset
    exact (congrArg₂ t.desc? hring hseq).symm.trans hset
  · rw [ht]
    change { u with ten := _ } = _
    rw [hrest]
    rfl

/-- Stopped for the second time a descriptor ends with ABORT_LOOM (R278). -/
theorem State.stopDesc_second (s : State) {g q : Nat} {d : Desc} (hd : s.desc? g q = some d) (hs : d.stopped = true) :
    (s.stopDesc d).desc? g q = none ∧ ∃ r, (s.stopDesc d).ten.recs = s.ten.recs ++ [r] ∧ bytesAt r.data 8 1 = 0x22 := by
  have ht : s.stopDesc d = s.completeDesc d 0x22 0 := if_pos hs
  obtain ⟨-, hring, hseq⟩ := State.desc?_some hd
  obtain ⟨r, hrecs, hstatus⟩ := s.completeDesc_record d 0x22 0
  rw [ht]
  exact ⟨(congrArg₂ _ hring hseq).symm.trans (s.desc?_completeDesc d 0x22 0), r, hrecs,
    hstatus.trans (by rw [d.finalStatus_of_ne_zero (by decide)])⟩

/-- A stop counts no corrected error. -/
theorem State.stopDesc_ceCnt (s : State) {g q : Nat} {d : Desc} (hd : s.desc? g q = some d) :
    (s.stopDesc d).rd Reg.LOM_CE_CNT = s.rd Reg.LOM_CE_CNT := by
  by_cases hs : d.stopped = true
  · rw [show s.stopDesc d = s.completeDesc d 0x22 0 from if_pos hs]
    refine s.completeDesc_rd d _ _ _ (by rw [d.finalStatus_of_ne_zero (by decide)]; decide) ?_ (by decide)
    simp only [List.mem_cons, List.not_mem_nil, or_false, Reg.LOM_CE_CNT, Reg.QRG_DONE_SEQ, Reg.QRG_CFG, Reg.HED_ABORT_LOOM_CNT]
    omega
  · obtain ⟨-, hrest⟩ := s.stopDesc_first hd (Bool.not_eq_true _ ▸ hs)
    rw [State.rd, hrest]
    rfl

/-! The failing loom. -/

/-- A loom takes no further dispatch: it is failing with a CAUSE (R273). -/
def State.failing (s : State) (p cause : Nat) : State :=
  s.onLoom p fun l => { l with state := .failing, cause := cause, failedAt := s.trd.cclk }

theorem State.failLoom_inactive (s : State) (p cause : Nat) (h : ¬((s.loom p).state = .active ∨ (s.loom p).state = .spare)) :
    s.failLoom p cause = s := if_pos (not_or.mp h)

/-- A loom whose work names no descriptor stops none. -/
theorem State.failLoom_alone (s : State) (p cause : Nat) (ha : (s.loom p).state = .active ∨ (s.loom p).state = .spare)
    (h : ∀ g q, (s.loom p).work = some (g, q) → s.desc? g q = none) : s.failLoom p cause = s.failing p cause := by
  unfold State.failLoom
  extract_lets l s1
  rw [if_neg (not_and_or.mpr (ha.imp not_not_intro not_not_intro))]
  split
  · rfl
  · rename_i g q hw
    split
    · rename_i d hd
      exact nomatch hd.symm.trans (h g q hw)
    · rfl

/-- A loom at work stops its descriptor (R274). -/
theorem State.failLoom_stops (s : State) (p cause : Nat) {g q : Nat} {d : Desc}
    (ha : (s.loom p).state = .active ∨ (s.loom p).state = .spare) (hw : (s.loom p).work = some (g, q)) (hd : s.desc? g q = some d) :
    s.failLoom p cause = (s.failing p cause).stopDesc d := by
  unfold State.failLoom
  extract_lets l s1
  rw [if_neg (not_and_or.mpr (ha.imp not_not_intro not_not_intro))]
  split
  · rename_i hnone
    exact nomatch hnone.symm.trans hw
  · rename_i g' q' hw'
    obtain ⟨rfl, rfl⟩ := Prod.mk.inj (Option.some.inj (hw'.symm.trans hw))
    rw [show s1.desc? g' q' = some d from hd]
    rfl

/-- What a loom in service or spare is once it is found failing, whether it stops a descriptor or not, and what that leaves (R273). -/
theorem State.failLoom_fails (s : State) (p cause : Nat) (hp : p < s.looms.length)
    (ha : (s.loom p).state = .active ∨ (s.loom p).state = .spare) :
    let t := s.failLoom p cause
    (t.loom p).state = .failing ∧ (t.loom p).cause = cause ∧ (t.loom p).failedAt = s.trd.cclk ∧ (t.loom p).ceFrame = (s.loom p).ceFrame ∧
    t.rd Reg.LOM_CE_CNT = s.rd Reg.LOM_CE_CNT := by
  intro t
  have hloom : (s.failing p cause).loom p = { s.loom p with state := .failing, cause := cause, failedAt := s.trd.cclk } :=
    s.loom_onLoom_self p _ hp
  by_cases h : ∀ g q, (s.loom p).work = some (g, q) → s.desc? g q = none
  · rw [show t = s.failing p cause from s.failLoom_alone p cause ha h, hloom]
    exact ⟨rfl, rfl, rfl, rfl, rfl⟩
  · push Not at h
    obtain ⟨g, q, hw, hsome⟩ := h
    obtain ⟨d, hd⟩ := Option.ne_none_iff_exists'.mp hsome
    obtain ⟨hstate, -, hcause, hat, hce⟩ := ((s.failing p cause).loom p).released_keeps d.ring d.seq
    rw [show t = _ from s.failLoom_stops p cause ha hw hd, State.loom_of_map ((s.failing p cause).stopDesc_looms d) rfl p]
    rw [hloom] at hstate hcause hat hce ⊢
    exact ⟨hstate, hcause, hat, hce, (s.failing p cause).stopDesc_ceCnt hd⟩

end Sys2Proof.Machine
end

section
/-! PROOF. Loom failure, corrected errors, re-execution and LOM_DENY (R273, R274, R276 to R278, R284, R293). -/

namespace Sys2Proof.Machine

/-! Loom failure. -/

/-- Each uncorrected finding has its CAUSE (R273). -/
theorem exec_loomFailure_uncorrected (s : State) (p : Fin 34) :
    ∀ f ∈ [(LoomFault.mxParity, 3), (.arrayUncorrectable, 4), (.cacheUncorrectable, 6)],
      exec (.loomFailure p f.1) s = .next (s.failLoom p f.2) := by
  intro f hf
  simp only [List.mem_cons, List.not_mem_nil, or_false] at hf
  rcases hf with rfl | rfl | rfl
  · rfl
  · rfl
  · rfl

/-- A loom that is found failing with no descriptor to stop changes alone. -/
theorem State.failing_eq (s : State) (p cause : Nat) (hp : p < s.looms.length) :
    let t := s.failing p cause
    t.loom p = { s.loom p with state := .failing, cause := cause, failedAt := s.trd.cclk } ∧ (∀ x, x ≠ p → t.loom x = s.loom x) ∧
    t = { s with looms := t.looms } :=
  ⟨s.loom_onLoom_self p _ hp, fun x hx => s.loom_onLoom_ne p x _ hx, rfl⟩

/-- What a failing loom at work does to its descriptor, the first time and the second (R274, R276, R278). -/
theorem State.failLoom_stopped (s : State) (p cause : Nat) (hp : p < s.looms.length) {g q : Nat} {d : Desc}
    (ha : (s.loom p).state = .active ∨ (s.loom p).state = .spare) (hw : (s.loom p).work = some (g, q)) (hd : s.desc? g q = some d) :
    let t := s.failLoom p cause
    (t.loom p).state = .failing ∧ (t.loom p).cause = cause ∧ (∀ l ∈ t.looms, l.work ≠ some (g, q)) ∧
    (d.stopped = false → t.desc? g q = some d.toRerun ∧ t = { s with looms := t.looms, ten := t.ten, sht := t.sht, slv := t.slv }) ∧
    (d.stopped = true → t.desc? g q = none ∧ ∃ r, t.ten.recs = s.ten.recs ++ [r] ∧ bytesAt r.data 8 1 = 0x22) := by
  intro t
  have ht : t = (s.failing p cause).stopDesc d := s.failLoom_stops p cause ha hw hd
  have hfound : (s.failing p cause).desc? g q = some d := hd
  obtain ⟨hstate, hcause, -, -, -⟩ := s.failLoom_fails p cause hp ha
  obtain ⟨-, hring, hseq⟩ := State.desc?_some hd
  refine ⟨hstate, hcause, fun l hl => ?_, fun hs => ?_, fun hs => ?_⟩
  · rw [ht, State.stopDesc_looms, hring, hseq] at hl
    obtain ⟨x, -, rfl⟩ := List.mem_map.mp hl
    exact x.released_work g q
  · rw [ht]
    exact (s.failing p cause).stopDesc_first hfound hs
  · rw [ht]
    exact (s.failing p cause).stopDesc_second hfound hs

/-! Corrected errors. -/

/-- A corrected error of a loom is counted (R293). -/
def State.ceCounted (s : State) (p : Nat) : State := (s.onLoom p fun l => { l with ceFrame := (s.loom p).ceFrame + 1 }).bump Reg.LOM_CE_CNT

theorem State.ceCounted_eq (s : State) (p : Nat) (hp : p < s.looms.length) :
    let t := s.ceCounted p
    t.rd Reg.LOM_CE_CNT = counted (s.rd Reg.LOM_CE_CNT) ∧ t.loom p = { s.loom p with ceFrame := (s.loom p).ceFrame + 1 } ∧
    t = { s with looms := t.looms, regs := t.regs } := by
  intro t
  have ht : t = (s.onLoom p fun l => { l with ceFrame := (s.loom p).ceFrame + 1 }).bump Reg.LOM_CE_CNT := rfl
  refine ⟨State.rd_bump_self _ _, ?_, ?_⟩
  · rw [ht, State.loom, State.bump_looms]
    exact s.loom_onLoom_self p _ hp
  · rw [ht, State.bump_rest]
    rfl

/-- The error that reaches CE_LIMIT makes its loom failing (R273, R293). -/
theorem exec_loomFailure_corrected (s : State) (p : Fin 34) : exec (.loomFailure p .corrected) s =
    .next (if s.fld Reg.LOM_RETIRE_CFG Reg.LOM_RETIRE_CFG_CE_LIMIT ≠ 0 ∧
        s.fld Reg.LOM_RETIRE_CFG Reg.LOM_RETIRE_CFG_CE_LIMIT ≤ (s.loom p).ceFrame + 1
      then (s.ceCounted p).failLoom p 5 else s.ceCounted p) := rfl

theorem State.loomFailure_corrected (s : State) (p : Fin 34) (hlen : s.looms.length = 34) :
    let limit := s.fld Reg.LOM_RETIRE_CFG Reg.LOM_RETIRE_CFG_CE_LIMIT
    let n := (s.loom p).ceFrame + 1
    ∃ t, exec (.loomFailure p .corrected) s = .next t ∧ t.rd Reg.LOM_CE_CNT = counted (s.rd Reg.LOM_CE_CNT) ∧ (t.loom p).ceFrame = n ∧
      (limit = 0 ∨ n < limit → (t.loom p).state = (s.loom p).state ∧ t = { s with looms := t.looms, regs := t.regs }) ∧
      (limit ≠ 0 → limit ≤ n → (s.loom p).state = .active ∨ (s.loom p).state = .spare →
        (t.loom p).state = .failing ∧ (t.loom p).cause = 5 ∧ (t.loom p).failedAt = s.trd.cclk ∧
        ((s.loom p).work = none → t = { s with looms := t.looms, regs := t.regs })) := by
  intro limit n
  have hp : p.val < s.looms.length := hlen.symm ▸ p.isLt
  obtain ⟨hrd, hloom, hrest⟩ := s.ceCounted_eq p hp
  refine ⟨_, exec_loomFailure_corrected s p, ?_⟩
  obtain ⟨u, hu⟩ : ∃ u, u = s.ceCounted p := ⟨_, rfl⟩
  rw [← hu] at hrd hloom hrest ⊢
  have hlt : p.val < u.looms.length := by
    rw [hu, State.ceCounted, State.bump_looms, State.length_looms_onLoom]
    exact hp
  have hce : (u.loom p).ceFrame = n := by rw [hloom]
  have hstate : (u.loom p).state = (s.loom p).state := by rw [hloom]
  have hwork : (u.loom p).work = (s.loom p).work := by rw [hloom]
  have hclk : u.trd.cclk = s.trd.cclk := by rw [hrest]
  by_cases hreach : limit ≠ 0 ∧ limit ≤ n
  · rw [if_pos hreach]
    have hbelow : ¬(limit = 0 ∨ n < limit) := fun h => h.elim hreach.1 fun h => absurd hreach.2 (by omega)
    by_cases ha : (s.loom p).state = .active ∨ (s.loom p).state = .spare
    · obtain ⟨hfail, hcause, hat, hce', hrd'⟩ := u.failLoom_fails p 5 hlt (hstate ▸ ha)
      refine ⟨hrd'.trans hrd, hce'.trans hce, fun h => absurd h hbelow, fun _ _ _ => ⟨hfail, hcause, hat.trans hclk, fun hw => ?_⟩⟩
      rw [u.failLoom_alone p 5 (hstate ▸ ha) fun g q h => nomatch hw.symm.trans (hwork.symm.trans h)]
      change { u with looms := _ } = _
      rw [hrest]
      rfl
    · rw [u.failLoom_inactive p 5 (hstate ▸ ha)]
      exact ⟨hrd, hce, fun h => absurd h hbelow, fun _ _ h => absurd h ha⟩
  · rw [if_neg hreach]
    exact ⟨hrd, hce, fun _ => ⟨hstate, hrest⟩, fun h0 hle => absurd ⟨h0, hle⟩ hreach⟩

/-! Re-execution. -/

theorem exec_reexecution_waits (s : State) (g : Fin 1024) (q : Nat) (d : Desc) (hd : s.desc? g q = some d)
    (h : d.phase ≠ .rerun ∨ s.freeFor (s.ringLive d.ring) < d.looms) : exec (.reexecution g q) s = .next s := by
  change execReexecution g q s = _
  unfold execReexecution
  rw [hd]
  exact if_neg (not_and_or.mpr (h.imp_right Nat.not_le_of_lt))

theorem exec_reexecution_runs (s : State) (g : Fin 1024) (q : Nat) (d : Desc) (hd : s.desc? g q = some d) (hp : d.phase = .rerun)
    (hfree : d.looms ≤ s.freeFor (s.ringLive d.ring)) :
    exec (.reexecution g q) s = .next ((s.runOn d (s.chooseLooms d.tenant d.looms)).bump Reg.HED_REEXEC_CNT) := by
  change execReexecution g q s = _
  unfold execReexecution
  rw [hd]
  exact if_pos ⟨hp, hfree⟩

/-- A re-executed descriptor runs from its start on as many free looms as it asks for, and its re-execution is counted (R265, R276). -/
theorem State.reexecution_spec (s : State) (g : Fin 1024) (q : Nat) (d : Desc) (hd : s.desc? g q = some d) (hp : d.phase = .rerun)
    (hfree : d.looms ≤ s.freeFor (s.ringLive d.ring)) :
    ∃ t e, exec (.reexecution g q) s = .next t ∧ t.desc? g q = some e ∧ e.phase = .running ∧ e.start = d.start ∧
      e.work.length = d.looms ∧ (∀ w ∈ e.work, w.loom ∈ s.freePool) ∧ t.rd Reg.HED_REEXEC_CNT = counted (s.rd Reg.HED_REEXEC_CNT) ∧
      t.trd = s.trd ∧ t.mem.dram = s.mem.dram := by
  obtain ⟨hlen, hpool⟩ := s.chooseLooms_spec d.tenant d.looms (hfree.trans (Nat.sub_le _ _))
  obtain ⟨u, hu, hrun⟩ := s.runOn_eq d (s.chooseLooms d.tenant d.looms)
  obtain ⟨hwork, hworks⟩ := (s.switchOn ((s.chooseLooms d.tenant d.looms).filterMap s.physOf)).workOf_spec d (s.chooseLooms d.tenant d.looms)
  obtain ⟨-, hring, hseq⟩ := State.desc?_some hd
  have hentry : u.desc? d.ring d.seq = some d := by
    rw [State.desc?, hu.rest]
    exact (congrArg₂ s.desc? hring hseq).trans hd
  have hset := State.desc?_setDesc (d := s.runEntry d (s.chooseLooms d.tenant d.looms)) hentry
  refine ⟨_, s.runEntry d (s.chooseLooms d.tenant d.looms), exec_reexecution_runs s g q d hd hp hfree, ?_, rfl, rfl, hwork.trans hlen,
    fun w hw => hpool _ (hworks w hw).1, ?_, ?_, ?_⟩
  · rw [State.desc?, State.bump_ten, hrun, ← hring, ← hseq]
    exact hset
  · rw [State.rd_bump_self, hrun, State.rd, hu.rest]
    rfl
  · rw [State.bump_trd, hrun, State.setDesc, State.onTen_trd, hu.rest]
  · rw [State.bump_mem, hrun]
    exact hu.dram

/-! LOM_DENY. -/

/-- A register whose bits are all plainly writable takes the written word (R14). -/
theorem RegRow.written_of_all_rw (r : RegRow) (old v : Word) (hc : r.cnt = false) (hrw : r.rw = 0xFFFFFFFF) (hw1c : r.w1c = 0) :
    r.written old v = v := by
  have hall : BitVec.ofNat 32 0xFFFFFFFF = BitVec.allOnes 32 := rfl
  have hnone : ~~~(0#32) = BitVec.allOnes 32 := rfl
  simp only [RegRow.written, hc, hrw, hw1c, hall, hnone, Bool.false_eq_true, if_false, BitVec.not_allOnes, BitVec.and_zero, BitVec.zero_or,
    BitVec.and_allOnes]

/-- A denied spare leaves the spares, and no other loom changes (R271, R284). -/
theorem State.loom_denySpares (s : State) (p : Nat) (hp : p < s.looms.length) :
    s.denySpares.loom p = if (s.loom p).state = .spare ∧ s.denied p = true then { s.loom p with state := .denied } else s.loom p := by
  simp [State.denySpares, State.loom, List.getD_eq_getElem?_getD, hp]

theorem regRow?_LOM_DENY_LO : regRow? Reg.LOM_DENY_LO = some ⟨Reg.LOM_DENY_LO, 0, 1, 0xFFFFFFFF, 0xFFFFFFFF, 0x0, 0x0, false⟩ := by decide

theorem regRow?_LOM_DENY_HI : regRow? Reg.LOM_DENY_HI = some ⟨Reg.LOM_DENY_HI, 0, 1, 0x3, 0x3, 0x0, 0x0, false⟩ := by decide

theorem exec_lomDenyWrite (s : State) (high : Bool) (v : Word) : exec (.lomDenyWrite high v) s =
    .next (s.plainWrite (if high then Reg.LOM_DENY_HI else Reg.LOM_DENY_LO) v).denySpares := rfl

/-- LOM_DENY takes the written bits, and keeps denied spares out of service (R284). -/
theorem State.lomDenyWrite_spec (s : State) (hlen : s.looms.length = 34) (high : Bool) (v : Word) :
    ∃ t, exec (.lomDenyWrite high v) s = .next t ∧ t = { s with regs := t.regs, looms := t.looms } ∧
      (∀ p, p < 34 → t.loom p = if (s.loom p).state = .spare ∧ t.denied p = true then { s.loom p with state := .denied } else s.loom p) ∧
      (high = false → t.rd Reg.LOM_DENY_LO = v ∧ ∀ o, o ≠ Reg.LOM_DENY_LO → t.rd o = s.rd o) ∧
      (high = true → t.fld Reg.LOM_DENY_HI Reg.LOM_DENY_HI_DENY = Reg.LOM_DENY_HI_DENY.get v ∧
        ∀ o, o ≠ Reg.LOM_DENY_HI → t.rd o = s.rd o) := by
  obtain ⟨u, hu⟩ : ∃ u, u = s.plainWrite (if high then Reg.LOM_DENY_HI else Reg.LOM_DENY_LO) v := ⟨_, rfl⟩
  have hlooms : u.looms = s.looms := by rw [hu, State.plainWrite_looms]
  have hloom (p : Nat) : u.loom p = s.loom p := congrArg (List.getD · p Loom.blank) hlooms
  refine ⟨u.denySpares, by rw [hu]; exact exec_lomDenyWrite s high v, ?_, fun p hp => ?_, ?_, ?_⟩
  · have hrest : u = { s with regs := u.regs } := by
      rw [hu]
      unfold State.plainWrite
      split
      · rfl
      · rfl
    change { u with looms := _ } = _
    rw [hrest]
    rfl
  · rw [u.loom_denySpares p (by rw [hlooms, hlen]; exact hp), hloom]
    rfl
  · rintro rfl
    refine ⟨?_, fun o ho => ?_⟩
    · change u.rd Reg.LOM_DENY_LO = v
      rw [hu]
      exact (State.rd_plainWrite_of_row _ _ _ _ regRow?_LOM_DENY_LO).trans (RegRow.written_of_all_rw _ _ _ rfl rfl rfl)
    · change u.rd o = s.rd o
      rw [hu]
      exact State.rd_plainWrite_ne _ _ _ _ ho
  · rintro rfl
    refine ⟨?_, fun o ho => ?_⟩
    · change u.fld Reg.LOM_DENY_HI Reg.LOM_DENY_HI_DENY = _
      rw [hu, State.fld]
      exact (congrArg _ (State.rd_plainWrite_of_row _ _ _ _ regRow?_LOM_DENY_HI)).trans
        (RegRow.get_written _ _ _ _ rfl (by decide) (by decide))
    · change u.rd o = s.rd o
      rw [hu]
      exact State.rd_plainWrite_ne _ _ _ _ ho

end Sys2Proof.Machine
end

section
/-! SUPPORT. The place of a loom: its state, logical number and CAUSE, and what leaves it as it is (R280, R290, R404, R449, R450, R697). -/

namespace Sys2Proof.Machine

/-- A loom's state, logical number and CAUSE. -/
def Loom.place (l : Loom) : LoomState × Nat × Nat := (l.state, l.logical, l.cause)

theorem Loom.place_eq_iff {l : Loom} {state : LoomState} {logical cause : Nat} :
    l.place = (state, logical, cause) ↔ l.state = state ∧ l.logical = logical ∧ l.cause = cause := by
  simp only [Loom.place, Prod.mk.injEq]

theorem Loom.state_of_place {l m : Loom} (h : l.place = m.place) : l.state = m.state := (Loom.place_eq_iff.mp h).1

theorem Loom.logical_of_place {l m : Loom} (h : l.place = m.place) : l.logical = m.logical := (Loom.place_eq_iff.mp h).2.1

theorem Loom.cause_of_place {l m : Loom} (h : l.place = m.place) : l.cause = m.cause := (Loom.place_eq_iff.mp h).2.2

/-- From `s` to `t` every loom has kept its place. -/
def State.PlacesKept (s t : State) : Prop := t.looms.map Loom.place = s.looms.map Loom.place

namespace State.PlacesKept

variable {s t u : State}

theorem refl (s : State) : s.PlacesKept s := rfl

theorem trans (h : s.PlacesKept t) (h' : t.PlacesKept u) : s.PlacesKept u := Eq.trans h' h

/-- A step that leaves the looms as they are keeps their places. -/
theorem of_looms (h : t.looms = s.looms) : s.PlacesKept t := congrArg _ h

theorem onLooms (s : State) (f : Loom → Loom) (hf : ∀ l, (f l).place = l.place) : s.PlacesKept (s.onLooms f) := by
  change (s.looms.map f).map Loom.place = _
  rw [List.map_map]
  exact List.map_congr_left fun l _ => hf l

theorem onLoom (s : State) (p : Nat) (f : Loom → Loom) (hf : ∀ l, (f l).place = l.place) : s.PlacesKept (s.onLoom p f) := by
  change (s.looms.modify p f).map Loom.place = _
  refine List.ext_getElem? fun i => ?_
  simp only [List.getElem?_map, List.getElem?_modify]
  cases s.looms[i]? with
  | none => rfl
  | some l =>
    simp only [Option.map_some]
    split
    · exact congrArg some (hf l)
    · rfl

theorem foldl {α : Type} (f : State → α → State) (hf : ∀ (u : State) x, u.PlacesKept (f u x)) (l : List α) (h : s.PlacesKept t) :
    s.PlacesKept (l.foldl f t) :=
  List.foldlRecOn l f h fun u hu x _ => hu.trans (hf u x)

theorem length (h : s.PlacesKept t) : t.looms.length = s.looms.length := by
  have := congrArg List.length h
  rwa [List.length_map, List.length_map] at this

theorem place (h : s.PlacesKept t) (p : Nat) : (t.loom p).place = (s.loom p).place := by
  have hat := congrArg (fun l : List (LoomState × Nat × Nat) => l.getD p Loom.blank.place) h
  simpa only [List.getD_map] using! hat

end State.PlacesKept

theorem State.placesKept_dropL1 (s : State) (loom : Nat) (all : Bool) : s.PlacesKept (s.dropL1 loom all) :=
  .of_looms (by rw [(s.dropL1_moved loom all).rest])

theorem State.placesKept_clearLoom (s : State) (p : Nat) (o : Owner) : s.PlacesKept (s.clearLoom p o) := by
  unfold State.clearLoom
  split
  · exact .refl s
  · exact (s.placesKept_dropL1 _ _).trans (.onLoom _ _ _ fun _ => rfl)

theorem State.placesKept_switchOn (s : State) (ps : List Nat) : s.PlacesKept (s.switchOn ps) := by
  unfold State.switchOn
  extract_lets off start us s1
  split
  · exact .refl s
  · have h1 : s.PlacesKept s1 := by
      refine State.PlacesKept.foldl _ (fun u x => ?_) _ (.refl s)
      exact .onLoom u _ _ fun _ => rfl
    exact h1.trans (.of_looms rfl)

theorem State.placesKept_stopDesc (s : State) (d : Desc) : s.PlacesKept (s.stopDesc d) := by
  refine (State.PlacesKept.onLooms s (Loom.released d.ring d.seq) fun l => ?_).trans (.of_looms (s.stopDesc_looms d))
  obtain ⟨hstate, hlogical, hcause, -, -⟩ := l.released_keeps d.ring d.seq
  rw [Loom.place, hstate, hlogical, hcause]
  rfl

/-- A descriptor that is to re-execute is stopped now, or at the end of its tile (R450). -/
theorem State.placesKept_stopAtTile (s : State) (d : Desc) : s.PlacesKept (s.stopAtTile d .reruns) := by
  unfold State.stopAtTile
  split
  · split
    · exact .refl s
    · rw [if_neg (by decide)]
      exact .refl s
  · exact s.placesKept_stopDesc d

/-! The reservation. -/

theorem State.placesKept_clearReserved (s : State) (looms : List Nat) : s.PlacesKept (s.clearReserved looms) := by
  refine State.PlacesKept.foldl _ (fun u l => ?_) _ (.refl s)
  split
  · split
    · exact u.placesKept_clearLoom _ _
    · exact .refl u
  · exact .refl u

theorem State.placesKept_joinReserve (s : State) (logical : Nat) : s.PlacesKept (s.joinReserve logical) := by
  unfold State.joinReserve
  split
  · exact .refl s
  · rename_i p hp
    split
    · exact .refl s
    · extract_lets s1 s2
      have h1 : s.PlacesKept s1 := (s.placesKept_switchOn [p]).trans (.onLoom _ _ _ fun _ => rfl)
      have h2 : s.PlacesKept s2 := by
        unfold s2
        split
        · split
          · exact h1.trans (s1.placesKept_stopAtTile _)
          · exact h1
        · exact h1
      exact h2.trans (s2.placesKept_clearReserved _)

theorem State.placesKept_reserve (s : State) (n : Nat) : s.PlacesKept (s.reserve n) := by
  unfold State.reserve
  extract_lets keep s1
  refine State.PlacesKept.foldl _ State.placesKept_joinReserve keep (.onLooms s _ fun l => ?_)
  split
  · rfl
  · rfl

/-! The ladder. -/

theorem Loom.place_throttle (keep : List Nat) (l : Loom) : (l.throttle keep).place = l.place := by
  unfold Loom.throttle
  split
  · rfl
  · rfl

theorem State.engage_looms (s : State) : s.engage.looms = s.looms := by
  unfold State.engage
  split
  · rfl
  · rw [State.bump_looms, State.setFld_looms]

theorem State.placesKept_applyLadder (s : State) : s.PlacesKept (s.applyLadder false) := by
  unfold State.applyLadder
  extract_lets keep back s1 s2 s3
  have h1 : s.PlacesKept s1 :=
    (State.PlacesKept.onLooms s (Loom.throttle keep) (Loom.place_throttle keep)).trans (State.placesKept_switchOn _ _)
  refine h1.trans (.of_looms ?_)
  change (if s3.stretchHeld = true then s3.engage else s3).looms = s3.looms
  split
  · exact s3.engage_looms
  · rfl

theorem State.placesKept_refreshLadder (s : State) : s.PlacesKept s.refreshLadder := by
  have happly (f : Pwr → Pwr) : s.PlacesKept ((s.onPwr f).applyLadder false) :=
    State.PlacesKept.trans (t := s.onPwr f) (.of_looms rfl) (State.placesKept_applyLadder _)
  unfold State.refreshLadder
  exact happly _

end Sys2Proof.Machine
end

section
/-! PROOF. Retirement at a shed launch stamp, and the family's obligation (R36, R280 to R284). -/

namespace Sys2Proof.Machine

/-! One loom that leaves service. -/

/-- The spares, ascending. -/
def State.spareList (s : State) : List Nat := (List.range 34).filter fun p => (s.loom p).state == .spare

theorem State.mem_spareList {s : State} {p : Nat} : p ∈ s.spareList ↔ p < 34 ∧ (s.loom p).state = .spare := by
  simp only [State.spareList, List.mem_filter, List.mem_range, beq_iff_eq]

theorem State.nodup_spareList (s : State) : s.spareList.Nodup := List.nodup_range.filter _

/-- A loom has left service (R280). -/
def State.retired (s : State) (p : Nat) : State :=
  (s.onLoom p fun x => { x with
    state := .retired, logical := 32, raster := false, work := none
    cause := if (s.loom p).state = .failing then (s.loom p).cause else 7 }).bump Reg.LOM_RETIRE_CNT

/-- A spare takes the number of a loom, and its place in the picture path (R281). -/
def State.replaced (s : State) (q : Nat) (l : Loom) : State :=
  s.onLoom q fun x => { x with state := .active, logical := l.logical, raster := l.raster }

/-- The place of a loom that has left service. -/
def Loom.retiredPlace (l : Loom) : LoomState × Nat × Nat := (.retired, 32, if l.state = .failing then l.cause else 7)

theorem State.length_retired (s : State) (p : Nat) : (s.retired p).looms.length = s.looms.length := by
  rw [State.retired, State.bump_looms, State.length_looms_onLoom]

theorem State.loom_retired_ne (s : State) (p x : Nat) (h : x ≠ p) : (s.retired p).loom x = s.loom x := by
  rw [State.loom, State.retired, State.bump_looms]
  exact s.loom_onLoom_ne p x _ h

theorem State.place_retired_self (s : State) (p : Nat) (hp : p < s.looms.length) : ((s.retired p).loom p).place = (s.loom p).retiredPlace := by
  rw [State.loom, State.retired, State.bump_looms]
  exact congrArg Loom.place (s.loom_onLoom_self p _ hp)

/-- A loom that was no spare leaves the spares as they are. -/
theorem State.spareList_retired (s : State) (p : Nat) (hp : p < s.looms.length) (h : (s.loom p).state ≠ .spare) :
    (s.retired p).spareList = s.spareList := by
  refine List.filter_congr fun x _ => ?_
  by_cases hx : x = p
  · subst hx
    have hself : ((s.retired x).loom x).state = .retired := (Loom.place_eq_iff.mp (s.place_retired_self x hp)).1
    rw [hself]
    exact (beq_eq_false_iff_ne.mpr h).symm
  · rw [s.loom_retired_ne p x hx]

/-- A loom without a number, or one that no spare is left for, leaves service alone; otherwise the lowest spare takes its number (R281). -/
theorem State.retireOne_cases (s : State) (p : Nat) (hp : p < s.looms.length) (h : (s.loom p).state ≠ .spare) :
    (((s.loom p).logical = 32 ∨ s.spareList = []) ∧ s.retireOne p = s.retired p) ∨
    (s.loom p).logical ≠ 32 ∧ ∃ q rest, s.spareList = q :: rest ∧ ((s.retired p).replaced q (s.loom p)).PlacesKept (s.retireOne p) := by
  have hfind : (List.range 34).find? (fun q => ((s.retired p).loom q).state == .spare) = s.spareList.head? := by
    rw [← s.spareList_retired p hp h, State.spareList, List.head?_filter]
  have hunfold : s.retireOne p = if (s.loom p).logical = 32 then s.retired p
      else match (List.range 34).find? fun q => ((s.retired p).loom q).state == .spare with
        | none => s.retired p
        | some q => if (s.loom p).raster then ((s.retired p).replaced q (s.loom p)).clearLoom q .picture
            else (s.retired p).replaced q (s.loom p) := rfl
  rw [hfind] at hunfold
  by_cases hlog : (s.loom p).logical = 32
  · exact .inl ⟨.inl hlog, hunfold.trans (if_pos hlog)⟩
  · rw [if_neg hlog] at hunfold
    cases hspares : s.spareList with
    | nil =>
      rw [hspares] at hunfold
      exact .inl ⟨.inr rfl, hunfold⟩
    | cons q rest =>
      rw [hspares] at hunfold
      refine .inr ⟨hlog, q, rest, rfl, ?_⟩
      rw [hunfold]
      change State.PlacesKept _ (if _ then _ else _)
      split
      · exact State.placesKept_clearLoom _ _ _
      · exact .refl _

/-- What the retirement of one loom leaves: its own place, those of looms that are no spares, and the spares that are left (R280, R281). -/
theorem State.retireOne_places (s : State) (p : Nat) (hlen : s.looms.length = 34) (hp : p < 34) (h : (s.loom p).state ≠ .spare) :
    let t := s.retireOne p
    t.looms.length = 34 ∧ (t.loom p).place = (s.loom p).retiredPlace ∧
    (∀ x, x ≠ p → (s.loom x).state ≠ .spare → (t.loom x).place = (s.loom x).place) ∧
    ((s.loom p).logical ≠ 32 → t.spareList = s.spareList.tail ∧
      ∀ q rest, s.spareList = q :: rest → (t.loom q).state = .active ∧ (t.loom q).logical = (s.loom p).logical) := by
  intro t
  have hlt : p < s.looms.length := hlen.symm ▸ hp
  rcases s.retireOne_cases p hlt h with ⟨halone, ht⟩ | ⟨hlog, q, rest, hspares, hkept⟩
  · rw [show t = _ from ht]
    refine ⟨(s.length_retired p).trans hlen, s.place_retired_self p hlt, fun x hx _ => by rw [s.loom_retired_ne p x hx], fun hlog => ?_⟩
    have hnil := halone.resolve_left hlog
    rw [s.spareList_retired p hlt h, hnil]
    exact ⟨rfl, fun _ _ hq => nomatch hq⟩
  · obtain ⟨hq34, hqspare⟩ := State.mem_spareList.mp (hspares ▸ List.mem_cons_self : q ∈ s.spareList)
    have hself := (s.retired p).loom_onLoom_self q
      (fun x => { x with state := .active, logical := (s.loom p).logical, raster := (s.loom p).raster })
      ((s.length_retired p).symm ▸ hlen.symm ▸ hq34)
    have hother (x : Nat) (hx : x ≠ q) : (t.loom x).place = ((s.retired p).loom x).place :=
      (hkept.place x).trans (congrArg Loom.place ((s.retired p).loom_onLoom_ne q x _ hx))
    have hqplace : (t.loom q).state = .active ∧ (t.loom q).logical = (s.loom p).logical := by
      obtain ⟨hactive, hlogical, -⟩ := Loom.place_eq_iff.mp ((hkept.place q).trans (congrArg Loom.place hself))
      exact ⟨hactive, hlogical⟩
    have hpq : p ≠ q := fun e => h (e ▸ hqspare)
    refine ⟨hkept.length.trans (((s.retired p).length_looms_onLoom q _).trans ((s.length_retired p).trans hlen)),
      (hother p hpq).trans (s.place_retired_self p hlt), fun x hx hns => ?_, fun _ => ⟨?_, fun q' rest' hq' => ?_⟩⟩
    · rw [hother x fun e => hns (e ▸ hqspare), s.loom_retired_ne p x hx]
    · have hleft : t.spareList = (s.retired p).spareList.filter fun x => x != q := by
        rw [State.spareList, State.spareList, List.filter_filter]
        refine List.filter_congr fun x _ => ?_
        by_cases hx : x = q
        · rw [hx, hqplace.1]
          simp
        · rw [show (t.loom x).state = ((s.retired p).loom x).state from Loom.state_of_place (hother x hx)]
          simp [hx]
      rw [hleft, s.spareList_retired p hlt h, ← s.nodup_spareList.erase_eq_filter, hspares, List.erase_cons_head, List.tail_cons]
    · rw [(List.cons.inj (hspares.symm.trans hq')).1] at hqplace
      exact hqplace

/-! Looms that leave service in turn. -/

/-- Some looms of the device, none of them a spare. -/
def State.InService (s : State) (ps : List Nat) : Prop := ∀ p ∈ ps, p < 34 ∧ (s.loom p).state ≠ .spare

/-- The looms after the first keep their places while it leaves service. -/
theorem State.retireOne_others (s : State) (p : Nat) (ps : List Nat) (hlen : s.looms.length = 34) (hnodup : (p :: ps).Nodup)
    (hin : s.InService (p :: ps)) :
    (∀ x ∈ ps, ((s.retireOne p).loom x).place = (s.loom x).place) ∧ (s.retireOne p).InService ps := by
  obtain ⟨hp, hns⟩ := hin p List.mem_cons_self
  obtain ⟨-, -, hother, -⟩ := s.retireOne_places p hlen hp hns
  have hkeep (x : Nat) (hx : x ∈ ps) : ((s.retireOne p).loom x).place = (s.loom x).place :=
    hother x (fun e => (List.nodup_cons.mp hnodup).1 (e ▸ hx)) (hin x (List.mem_cons_of_mem p hx)).2
  refine ⟨hkeep, fun x hx => ?_⟩
  rw [Loom.state_of_place (hkeep x hx)]
  exact hin x (List.mem_cons_of_mem p hx)

/-- A loom that does not leave, and was no spare, keeps its place; the number of looms stays. -/
theorem State.retireAll_others (ps : List Nat) (s : State) (hlen : s.looms.length = 34) (hnodup : ps.Nodup) (hin : s.InService ps) :
    let t := ps.foldl State.retireOne s
    t.looms.length = 34 ∧ ∀ x, x ∉ ps → (s.loom x).state ≠ .spare → (t.loom x).place = (s.loom x).place := by
  induction ps generalizing s with
  | nil => exact ⟨hlen, fun _ _ _ => rfl⟩
  | cons p ps ih =>
    obtain ⟨hp, hns⟩ := hin p List.mem_cons_self
    obtain ⟨hlen', -, hother, -⟩ := s.retireOne_places p hlen hp hns
    obtain ⟨-, hin'⟩ := s.retireOne_others p ps hlen hnodup hin
    obtain ⟨hlast, hrest⟩ := ih _ hlen' (List.nodup_cons.mp hnodup).2 hin'
    refine ⟨hlast, fun x hx hxs => ?_⟩
    obtain ⟨hxp, hxps⟩ := not_or.mp fun h => hx (List.mem_cons.mpr h)
    have hplace := hother x hxp hxs
    exact (hrest x hxps (by rw [Loom.state_of_place hplace]; exact hxs)).trans hplace

/-- Every loom that leaves is retired, without a number, and keeps the CAUSE it failed with (R280, R284). -/
theorem State.retireAll_retires (ps : List Nat) (s : State) (hlen : s.looms.length = 34) (hnodup : ps.Nodup) (hin : s.InService ps) :
    ∀ p ∈ ps, ((ps.foldl State.retireOne s).loom p).place = (s.loom p).retiredPlace := by
  induction ps generalizing s with
  | nil => exact nofun
  | cons p ps ih =>
    obtain ⟨hp, hns⟩ := hin p List.mem_cons_self
    obtain ⟨hlen', hself, -, -⟩ := s.retireOne_places p hlen hp hns
    obtain ⟨hkeep, hin'⟩ := s.retireOne_others p ps hlen hnodup hin
    obtain ⟨hfresh, hnodup'⟩ := List.nodup_cons.mp hnodup
    intro x hx
    rcases List.mem_cons.mp hx with rfl | hx
    · refine ((State.retireAll_others ps _ hlen' hnodup' hin').2 x hfresh ?_).trans hself
      rw [show ((s.retireOne x).loom x).state = .retired from (Loom.place_eq_iff.mp hself).1]
      decide
    · refine (ih _ hlen' hnodup' hin' x hx).trans ?_
      have hplace := hkeep x hx
      rw [Loom.retiredPlace, Loom.retiredPlace, Loom.state_of_place hplace, Loom.cause_of_place hplace]

/-- The lowest spares take the numbers of the looms that leave, in the order in which they leave (R281). -/
theorem State.retireAll_replaces (ps : List Nat) (s : State) (hlen : s.looms.length = 34) (hnodup : ps.Nodup) (hin : s.InService ps)
    (hnum : ∀ p ∈ ps, (s.loom p).logical ≠ 32) (k p x : Nat) (hk : ps[k]? = some p) (hx : s.spareList[k]? = some x) :
    let t := ps.foldl State.retireOne s
    (t.loom x).state = .active ∧ (t.loom x).logical = (s.loom p).logical := by
  induction ps generalizing s k with
  | nil => exact nomatch hk
  | cons y ps ih =>
    obtain ⟨hy, hns⟩ := hin y List.mem_cons_self
    obtain ⟨hlen', -, -, hspare⟩ := s.retireOne_places y hlen hy hns
    obtain ⟨htail, htaken⟩ := hspare (hnum y List.mem_cons_self)
    obtain ⟨hkeep, hin'⟩ := s.retireOne_others y ps hlen hnodup hin
    obtain ⟨-, hnodup'⟩ := List.nodup_cons.mp hnodup
    cases k with
    | zero =>
      obtain ⟨rest, hrest⟩ : ∃ rest, s.spareList = x :: rest := by
        cases hs : s.spareList with
        | nil => exact nomatch (hs ▸ hx : ([] : List Nat)[0]? = some x)
        | cons q rest =>
          rw [hs] at hx
          exact ⟨rest, congrArg (· :: rest) (Option.some.inj hx)⟩
      obtain ⟨hactive, hlogical⟩ := htaken x rest hrest
      have hxspare := (State.mem_spareList.mp (hrest ▸ List.mem_cons_self : x ∈ s.spareList)).2
      have hfresh : x ∉ ps := fun h => (hin x (List.mem_cons_of_mem y h)).2 hxspare
      have hplace := (State.retireAll_others ps _ hlen' hnodup' hin').2 x hfresh (by rw [hactive]; decide)
      rw [← show y = p from Option.some.inj hk]
      exact ⟨(Loom.state_of_place hplace).trans hactive, (Loom.logical_of_place hplace).trans hlogical⟩
    | succ k =>
      have hp : p ∈ ps := List.mem_of_getElem? hk
      obtain ⟨hactive, hlogical⟩ := ih (s.retireOne y) hlen' hnodup' hin'
        (fun z hz => by rw [Loom.logical_of_place (hkeep z hz)]; exact hnum z (List.mem_cons_of_mem y hz)) k hk
        (by rw [htail, List.getElem?_tail]; exact hx)
      exact ⟨hactive, hlogical.trans (Loom.logical_of_place (hkeep p hp))⟩

/-! The looms of a launch stamp. -/

/-- The looms that leave service with a logical number, 32 for none, at a launch stamp that matched in a CCLK. -/
def State.leavingWith (s : State) (at_ n : Nat) : List Nat := (List.range 34).filter fun p => (s.loom p).logical == n && s.leavesNow at_ p

theorem State.mem_leavingWith {s : State} {at_ n p : Nat} :
    p ∈ s.leavingWith at_ n ↔ p < 34 ∧ (s.loom p).logical = n ∧ s.leavesNow at_ p = true := by
  simp only [State.leavingWith, List.mem_filter, List.mem_range, Bool.and_eq_true, beq_iff_eq]

/-- The looms that leave service with a number below a bound, in ascending number. -/
def State.leavers (s : State) (at_ bound : Nat) : List Nat := (List.range bound).flatMap (s.leavingWith at_)

theorem State.mem_leavers {s : State} {at_ bound p : Nat} :
    p ∈ s.leavers at_ bound ↔ p < 34 ∧ (s.loom p).logical < bound ∧ s.leavesNow at_ p = true := by
  simp only [State.leavers, List.mem_flatMap, List.mem_range, State.mem_leavingWith]
  constructor
  · rintro ⟨n, hn, hp, rfl, hl⟩
    exact ⟨hp, hn, hl⟩
  · rintro ⟨hp, hn, hl⟩
    exact ⟨_, hn, hp, rfl, hl⟩

theorem State.nodup_leavers (s : State) (at_ bound : Nat) : (s.leavers at_ bound).Nodup := by
  refine List.nodup_flatMap.mpr ⟨fun n _ => List.nodup_range.filter _, List.nodup_range.imp fun hne => ?_⟩
  intro p hp hp'
  exact hne ((State.mem_leavingWith.mp hp).2.1.symm.trans (State.mem_leavingWith.mp hp').2.1)

/-- A loom that leaves service is no spare. -/
theorem State.ne_spare_of_leavesNow {s : State} {at_ p : Nat} (h : s.leavesNow at_ p = true) : (s.loom p).state ≠ .spare := by
  intro hs
  rw [State.leavesNow, hs] at h
  exact nomatch h

theorem State.inService_leavers (s : State) (at_ bound : Nat) : s.InService (s.leavers at_ bound) := fun _ hp =>
  ⟨(State.mem_leavers.mp hp).1, State.ne_spare_of_leavesNow (State.mem_leavers.mp hp).2.2⟩

theorem State.retireLooms_eq (s : State) (at_ : Nat) : s.retireLooms at_ = (s.leavers at_ 33).foldl State.retireOne s := rfl

/-- Those without a number come last. -/
theorem State.leavers_append (s : State) (at_ : Nat) : s.leavers at_ 33 = s.leavers at_ 32 ++ s.leavingWith at_ 32 := by
  rw [State.leavers, List.range_succ, List.flatMap_append, List.flatMap_singleton]
  rfl

/-- What leaves service at a launch stamp, what stays, and which spares take their numbers (R280, R281, R284). -/
theorem State.retireLooms_places (s : State) (at_ : Nat) (hlen : s.looms.length = 34) :
    let t := s.retireLooms at_
    (∀ p, p < 34 → s.leavesNow at_ p = true → (s.loom p).logical ≤ 32 → (t.loom p).place = (s.loom p).retiredPlace) ∧
    (∀ p, s.leavesNow at_ p = false → (s.loom p).state ≠ .spare → (t.loom p).place = (s.loom p).place) ∧
    ∀ (k p x : Nat), (s.leavers at_ 32)[k]? = some p → s.spareList[k]? = some x →
      (t.loom x).state = .active ∧ (t.loom x).logical = (s.loom p).logical := by
  intro t
  have hin := s.inService_leavers at_ 33
  have hnodup := s.nodup_leavers at_ 33
  refine ⟨fun p hp hl hn => ?_, fun p hl hs => ?_, fun k p x hk hx => ?_⟩
  · exact State.retireAll_retires _ s hlen hnodup hin p (State.mem_leavers.mpr ⟨hp, Nat.lt_succ_of_le hn, hl⟩)
  · refine (State.retireAll_others _ s hlen hnodup hin).2 p (fun h => ?_) hs
    exact nomatch hl.symm.trans (State.mem_leavers.mp h).2.2
  · have hsplit : t = (s.leavingWith at_ 32).foldl State.retireOne ((s.leavers at_ 32).foldl State.retireOne s) := by
      rw [show t = _ from s.retireLooms_eq at_, s.leavers_append, List.foldl_append]
    have hnodup32 := s.nodup_leavers at_ 32
    have hin32 := s.inService_leavers at_ 32
    obtain ⟨hactive, hlogical⟩ := State.retireAll_replaces _ s hlen hnodup32 hin32
      (fun y hy => (State.mem_leavers.mp hy).2.1.ne) k p x hk hx
    obtain ⟨hlen', hother⟩ := State.retireAll_others _ s hlen hnodup32 hin32
    have hlast (y : Nat) (hy : y ∈ s.leavingWith at_ 32) : y < 34 ∧ (s.loom y).state ≠ .spare ∧ y ∉ s.leavers at_ 32 := by
      obtain ⟨hlt, hnum, hl⟩ := State.mem_leavingWith.mp hy
      exact ⟨hlt, State.ne_spare_of_leavesNow hl, fun h => absurd (State.mem_leavers.mp h).2.1 (by omega)⟩
    have hinlast : ((s.leavers at_ 32).foldl State.retireOne s).InService (s.leavingWith at_ 32) := fun y hy => by
      obtain ⟨hlt, hns, hfresh⟩ := hlast y hy
      exact ⟨hlt, by rw [Loom.state_of_place (hother y hfresh hns)]; exact hns⟩
    have hxspare := (State.mem_spareList.mp (List.mem_of_getElem? hx)).2
    have hplace := (State.retireAll_others _ _ hlen' (List.nodup_range.filter _) hinlast).2 x
      (fun h => (hlast x h).2.1 hxspare) (by rw [hactive]; decide)
    rw [hsplit]
    exact ⟨(Loom.state_of_place hplace).trans hactive, (Loom.logical_of_place hplace).trans hlogical⟩

/-! The row. -/

theorem exec_loomRetire_idle (s : State) (h : s.shedNow = none) : exec .loomRetire s = .next s := by
  change execLoomRetire s = _
  rw [execLoomRetire, h]

theorem exec_loomRetire_dark (s : State) (f i : Nat) (h : s.shedNow = some (f, i)) (hd : s.darkFrame f = true) : exec .loomRetire s = .next s := by
  change execLoomRetire s = _
  rw [execLoomRetire, h]
  exact if_pos hd

/-- In the action CCLK of a launch stamp looms leave service; what follows of the reservation, the chain and the ladder moves no loom (R36, R280). -/
theorem exec_loomRetire_launch (s : State) (f i : Nat) (h : s.shedNow = some (f, i)) (hd : s.darkFrame f = false) :
    ∃ t, exec .loomRetire s = .next t ∧
      ((State.elapse (s.toAction (s.launchStamp f i)) s).retireLooms (s.trd.cclk - s.trd.now.cyc)).PlacesKept t := by
  obtain ⟨u, hu⟩ : ∃ u, u = (State.elapse (s.toAction (s.launchStamp f i)) s).retireLooms (s.trd.cclk - s.trd.now.cyc) := ⟨_, rfl⟩
  rw [← hu]
  have hchain (n : Nat) : u.PlacesKept ((u.reserve n).rebuildChain) := (u.placesKept_reserve n).trans (.of_looms rfl)
  have hladder {v : State} (hv : u.PlacesKept v) (lost : Bool) : u.PlacesKept (if lost then v.startAdmission else v).refreshLadder := by
    refine State.PlacesKept.trans ?_ (State.placesKept_refreshLadder _)
    split
    · exact hv.trans (.of_looms rfl)
    · exact hv
  refine ⟨_, ?_, hladder (hchain (State.elapse (s.toAction (s.launchStamp f i)) s).reserved.length)
    ((State.elapse (s.toAction (s.launchStamp f i)) s).reserved.any fun l => !u.validLooms.contains l)⟩
  change execLoomRetire s = _
  rw [execLoomRetire, h, hu]
  exact if_neg (by simp [hd])

/-- Settles O31: each fault by the loom's state and work, the corrected error by CE_LIMIT, the re-execution by its looms, LOM_DENY by its half, and
retirement by induction on the looms that leave. -/
theorem loomsFailAndRetire : Obligations.LoomsFailAndRetire := by
  intro s hlen
  have hlt (p : Fin 34) : p.val < s.looms.length := hlen.symm ▸ p.isLt
  refine ⟨fun p f hf => ?_, fun p => s.loomFailure_corrected p hlen, fun g q d hd => ⟨exec_reexecution_waits s g q d hd, s.reexecution_spec g q d hd⟩,
    s.lomDenyWrite_spec hlen, exec_loomRetire_idle s, fun f i h => ⟨exec_loomRetire_dark s f i h, fun hd => ?_⟩⟩
  · have hexec := exec_loomFailure_uncorrected s p f hf
    refine ⟨fun hactive hspare => ?_, fun ha => ⟨fun hw => ?_, fun g q hw hd => ?_, fun g q d hw hd => ?_⟩⟩
    · rw [hexec, s.failLoom_inactive p f.2 (not_or.mpr ⟨hactive, hspare⟩)]
    · exact ⟨_, hexec.trans (congrArg _ (s.failLoom_alone p f.2 ha fun g q h => nomatch hw.symm.trans h)), s.failing_eq p f.2 (hlt p)⟩
    · refine ⟨_, hexec.trans (congrArg _ (s.failLoom_alone p f.2 ha fun g' q' h => ?_)), s.failing_eq p f.2 (hlt p)⟩
      obtain ⟨rfl, rfl⟩ := Prod.mk.inj (Option.some.inj (hw.symm.trans h))
      exact hd
    · obtain ⟨hstate, hcause, hwork, hfirst, hsecond⟩ := s.failLoom_stopped p f.2 (hlt p) ha hw hd
      exact ⟨_, hexec, hstate, hcause, hwork, fun hs => ⟨d.toRerun, (hfirst hs).1, rfl, rfl, rfl, rfl, (hfirst hs).2⟩, hsecond⟩
  · intro s0 leaves gone spares
    obtain ⟨t, hexec, hkept⟩ := exec_loomRetire_launch s f i h hd
    have hlen0 : s0.looms.length = 34 := by
      rw [show s0 = _ from s.clockOnly_elapse _]
      exact hlen
    obtain ⟨hretired, hstays, hreplaced⟩ := s0.retireLooms_places (s.trd.cclk - s.trd.now.cyc) hlen0
    refine ⟨t, hexec, fun p hp hl hn => ?_, fun p _ hl hs => ?_, fun k p x hk hx => ?_⟩
    · exact Loom.place_eq_iff.mp ((hkept.place p).trans (hretired p hp hl hn))
    · have hplace := (hkept.place p).trans (hstays p hl hs)
      exact ⟨Loom.state_of_place hplace, Loom.logical_of_place hplace⟩
    · obtain ⟨hactive, hlogical⟩ := hreplaced k p x hk hx
      exact ⟨(Loom.state_of_place (hkept.place x)).trans hactive, (Loom.logical_of_place (hkept.place x)).trans hlogical⟩

end Sys2Proof.Machine
end

section
/-! SUPPORT. An operator that can run: what its recalls and its writes leave alone, and what it leaves (R241, R268, R314, R371, R397, R400). -/

namespace Sys2Proof.Machine

/-! What an operator's reads and writes of memory leave alone. -/

namespace State.MemOnly

variable {s t u : State}

theorem dramStore (h : s.MemOnly t) (pa : Nat) (d : List Byte) : s.MemOnly (t.dramStore pa d) := by
  induction d generalizing t pa with
  | nil => exact h
  | cons b d ih => exact ih ((h.onMem _).onMem _) (pa + 1)

theorem poisonLine (h : s.MemOnly t) (pa : Nat) : s.MemOnly (t.poisonLine pa) := by
  unfold State.poisonLine
  split
  · split
    · exact h
    · exact (h.onLine _ _).bump _ (.inl (by decide))
  · exact h

theorem memWriteIn (h : s.MemOnly t) (pa : Nat) (d : List Byte) (cls : MemClass) (req : Nat) : s.MemOnly (t.memWriteIn pa d cls req) := by
  have hown := h.dropOwn req pa
  unfold State.memWriteIn
  extract_lets recalled own whole stored
  split
  · exact h
  · split
    · split
      · have hrecalled : s.MemOnly recalled := by
          unfold recalled
          split
          · exact h.takeBack _
          · exact h
        exact ((hrecalled.onMem _).touch _).onLine _ _
      · exact (hown.touch _).onLine _ _
    · have hstored := (hown.dramStore pa d).onMem
      split
      · split
        · exact (hstored _).onMem _
        · exact hstored _
      · exact hown.allocateNow _ _

theorem memWrite (h : s.MemOnly t) (pa : Nat) (d : List Byte) (cls : MemClass) (req : Nat) : s.MemOnly (t.memWrite pa d cls req) := by
  unfold State.memWrite
  generalize d.length / 128 + 2 = n
  induction n generalizing t pa d with
  | zero => exact h
  | succ n ih =>
    unfold State.memWriteFuel
    split
    · exact h
    · exact ih (h.memWriteIn _ _ _ _) _ _

theorem vaWrite (h : s.MemOnly t) (loom tenant va : Nat) (d : List Byte) (cls : MemClass) : s.MemOnly (t.vaWrite loom tenant va d cls) := by
  unfold State.vaWrite
  generalize d.length / 4096 + 2 = n
  induction n generalizing t va d with
  | zero => exact h
  | succ n ih =>
    unfold State.vaWriteFuel
    split
    · exact h
    · refine ih ?_ _ _
      split
      · exact h.memWrite _ _ _ _
      · exact h

theorem markRun (h : s.MemOnly t) (loom ten va len : Nat) : s.MemOnly (t.markRun loom ten va len) := by
  refine State.MemOnly.foldl _ (fun u i => ?_) _ h
  have hu := refl u
  split
  · exact hu
  · split
    · exact hu
    · split
      · exact hu.poisonLine _
      · exact (hu.onMem _).onMem _

theorem writeRuns (h : s.MemOnly t) (d : Desc) (loom : Nat) (outs : List OutRun) : s.MemOnly (t.writeRuns d loom outs) := by
  refine State.MemOnly.foldl _ (fun u r => ?_) _ h
  have hu := (refl u).vaWrite loom d.tenant r.va r.data (u.ringClass d.ring)
  split
  · exact hu.markRun _ _ _ _
  · exact hu

theorem recallRuns (h : s.MemOnly t) (d : Desc) (runs : List (Nat × Nat × Nat)) : s.MemOnly (t.recallRuns d runs) := by
  refine State.MemOnly.foldl _ (fun u e => ?_) _ h
  split
  · exact ((refl u).takeBack _).onLine _ _
  · exact refl u

theorem ten (h : s.MemOnly t) : t.ten = s.ten := by rw [h.rest]

theorem trd (h : s.MemOnly t) : t.trd = s.trd := by rw [h.rest]

theorem desc? (h : s.MemOnly t) (g q : Nat) : t.desc? g q = s.desc? g q := by rw [State.desc?, h.ten, State.desc?]

end State.MemOnly

theorem State.memOnly_recallOperands (s : State) (d : Desc) : s.MemOnly (s.recallOperands d) :=
  ((State.MemOnly.refl s).recallRuns _ _).recallRuns _ _

/-! The descriptor of an operator row. -/

theorem State.opDesc?_some {s : State} {g q code : Nat} {d : Desc} (h : s.opDesc? g q code = some d) :
    s.desc? g q = some d ∧ d.coll = false := by
  unfold State.opDesc? at h
  split at h
  · cases h
  · rename_i e he
    split at h
    · rename_i hc
      cases h
      simp only [Bool.and_eq_true, Bool.not_eq_true'] at hc
      exact ⟨he, hc.1.1.1.1.1.1⟩
    · cases h

/-- The descriptor of an operator row still stands in the scoreboard as its operator finds it. -/
theorem State.opReady_some {s₀ s : State} {g q code : Nat} {d : Desc} (h : s₀.opReady g q code = some (d, s)) :
    s.desc? d.ring d.seq = some d ∧ d.coll = false := by
  unfold State.opReady at h
  obtain ⟨e, he, hpair⟩ := Option.map_eq_some_iff.mp h
  obtain ⟨rfl, rfl⟩ := Prod.mk.inj hpair
  obtain ⟨hdesc, hcoll⟩ := State.opDesc?_some he
  obtain ⟨-, rfl, rfl⟩ := State.desc?_some hdesc
  exact ⟨((s₀.memOnly_recallOperands e).desc? _ _).trans hdesc, hcoll⟩

/-! The end of an operator's work. -/

theorem State.workDone_eq (s : State) (d e : Desc) (cycles : Nat → Nat) (darned : Bool) (h : s.desc? d.ring d.seq = some e) :
    s.workDone d cycles darned = s.setDesc { e with
      darned := e.darned || darned
      work := e.work.map fun w => { w with ended := true, endsAt := max s.trd.cclk (w.began + cycles w.rank) } } := by
  rw [State.workDone, h]

/-- An operator that can run writes its outputs, and its looms have done their work. -/
theorem State.runOperator_runs (s : State) (d : Desc) (args : Nat) (legal : Bool) (ins : List (Nat × Nat × Nat)) (outs : List OutRun)
    (cycles : Nat → Nat) (hd : s.desc? d.ring d.seq = some d) (hlegal : legal = true) (h : s.operandsReady d args ins outs) :
    s.operatorRuns (s.runOperator d args legal ins outs cycles) d outs cycles := by
  obtain ⟨hargs, hins, houts, hfed, hclean⟩ := h
  have hfind : (ins.find? fun x => s.vaPoison d.loom0 d.tenant x.2.1 x.2.2) = none :=
    List.find?_eq_none.mpr fun x hx => by rw [hclean x hx]; exact Bool.false_ne_true
  have hrun : s.runOperator d args legal ins outs cycles = (s.writeRuns d d.loom0 outs).workDone d cycles false := by
    rw [State.runOperator, hargs, hins, houts, hfind, hlegal, hfed]
    rfl
  have hwritten : s.MemOnly (s.writeRuns d d.loom0 outs) := (State.MemOnly.refl s).writeRuns _ _ _
  have hdw := (hwritten.desc? d.ring d.seq).trans hd
  rw [hrun, State.workDone_eq _ d d _ _ hdw]
  refine ⟨rfl, ⟨_, State.desc?_setDesc hdw, rfl, rfl, Bool.or_false _, by rw [hwritten.trd]⟩, ?_⟩
  rw [State.setDesc, State.onTen]
  rw [hwritten.rest]

/-- An operator row that runs its operator does what the operator does where it can run. -/
theorem State.runs_of_exec {s₀ s : State} {d : Desc} {i : Instr} {args : Nat} {legal : Bool} {ins : List (Nat × Nat × Nat)} {outs : List OutRun}
    {cycles : Nat → Nat} (hexec : exec i s₀ = .next (s.runOperator d args legal ins outs cycles)) (hd : s.desc? d.ring d.seq = some d)
    (hlegal : legal = true) (h : s.operandsReady d args ins outs) : ∃ t, exec i s₀ = .next t ∧ s.operatorRuns t d outs cycles :=
  ⟨_, hexec, s.runOperator_runs d args legal ins outs cycles hd hlegal h⟩

/-- An illegal problem completes with SHAPE and writes nothing. -/
theorem State.runOperator_illegal (s : State) (d : Desc) (args : Nat) (legal : Bool) (ins : List (Nat × Nat × Nat)) (outs : List OutRun)
    (cycles : Nat → Nat) (hcoll : d.coll = false) (hlegal : legal = false)
    (hargs : s.firstFault d.loom0 d.tenant false [(0, d.argPtr, args)] = none) :
    s.completes (s.runOperator d args legal ins outs cycles) d 0x32 0 := by
  have hrun : s.runOperator d args legal ins outs cycles = s.completeDesc d 0x32 0 := by
    rw [State.runOperator, hargs, hlegal]
    rfl
  rw [hrun]
  exact s.completes_completeDesc d 0x32 0 fun h => nomatch hcoll.symm.trans h

end Sys2Proof.Machine
end

section
/-! PROOF. MATMUL (R233, R234, R245 to R248, R254, R267). -/

namespace Sys2Proof.Machine

/-! The integer result. -/

theorem foldl_addProducts (l : List (Int × Int)) (c : Int) : l.foldl (fun acc x => acc + x.1 * x.2) c = (l.map fun x => x.1 * x.2).sum + c := by
  induction l generalizing c with
  | nil => simp
  | cons x l ih => rw [List.foldl_cons, ih, List.map_cons, List.sum_cons]; ring

/-- The accumulator of an integer output is the sum of the products and C, modulo 2^32 (R234). -/
theorem intDot_eq (l : List (Int × Int)) (c : Int) : intDot l c = signedOf 32 (((l.map fun x : Int × Int => x.1 * x.2).sum + c) % 2 ^ 32).toNat := by
  rw [intDot, wrap32, foldl_addProducts]

theorem State.matmulElem_int (s : State) (d : Desc) (a b c z : TRef) (ha : a.elem.float = none) (hz : z.elem.float = none) (i j : Nat) :
    s.matmulElem d a b c z i j = z.elem.narrow d.profile.sat (signedOf 32 ((((List.range (d.inl 4 2)).map fun x =>
        a.elem.intOf (s.elemAt d.loom0 d.tenant a x j 0) * b.elem.intOf (s.elemAt d.loom0 d.tenant b i x 0)).sum +
      (if c.base = 0 then 0 else c.elem.intOf (s.elemAt d.loom0 d.tenant c i j 0))) % 2 ^ 32).toNat / 2 ^ d.inl 7 1) := by
  rw [State.matmulElem, ha]
  simp only [hz, Option.isSome_none, Bool.false_eq_true, if_false, intDot_eq, List.map_map]
  rfl

/-! Illegal problems. -/

/-- The share of each rank must be a legal tile; that of rank 0 must hold a column (R246, R247, R267). -/
theorem matmulLegal_tiles {d : Desc} {refs : List TRef} (h : matmulLegal d refs = true) {r : Nat} (hr : r < d.work.length)
    (hw : r = 0 ∨ 0 < shareCols (d.inl 2 2) d.work.length r) :
    tileLegal (refAt refs 0).elem (refAt refs 1).elem (refAt refs 3).elem d.l1q (d.inl 0 2) (shareCols (d.inl 2 2) d.work.length r)
      (d.inl 4 2) = true := by
  simp only [matmulLegal, Bool.and_eq_true] at h
  have htile := List.all_eq_true.mp h.2 r (List.mem_range.mpr hr)
  simp only [Bool.or_eq_true, Bool.and_eq_true, beq_iff_eq, decide_eq_true_eq] at htile
  rcases htile with ⟨hnone, -, hpos⟩ | htile
  · omega
  · exact htile

theorem matmulLegal_mode {d : Desc} {refs : List TRef} (h : matmulLegal d refs = true) :
    modeLegal (d.inl 6 1) (d.inl 0 2) (d.inl 2 2) (d.inl 4 2) = true := by
  simp only [matmulLegal, Bool.and_eq_true] at h
  tauto

theorem tileLegal_iff (a b z : Elem) (q m n k : Nat) : tileLegal a b z q m n k = true ↔
    (1 ≤ m ∧ m ≤ 256 ∧ 1 ≤ n ∧ n ≤ 256 ∧ 1 ≤ k ∧ k ≤ 1024) ∧ tileFootprint a b z m n k ≤ scratchBytes q := by
  simp [tileLegal]

theorem modeLegal_iff (mode m n k : Nat) : modeLegal mode m n k = true ↔ mode = if m % 4 = 0 ∧ n % 4 = 0 ∧ k % 4 = 0 then 0 else 1 := by
  unfold modeLegal
  split <;> exact beq_iff_eq

theorem shareCols_zero (looms r : Nat) : shareCols 0 looms r = 0 := by simp [shareCols]

/-- What makes a problem of MATMUL illegal: a tile whose footprint the scratchpad cannot hold, an extent beyond its bounds, or the mode of other
dimensions (R246 to R248). -/
def Desc.matmulIllegal (d : Desc) (refs : List TRef) : Prop :=
  (∃ r, r < d.work.length ∧ 0 < shareCols (d.inl 2 2) d.work.length r ∧ scratchBytes d.l1q <
      tileFootprint (refAt refs 0).elem (refAt refs 1).elem (refAt refs 3).elem (d.inl 0 2) (shareCols (d.inl 2 2) d.work.length r) (d.inl 4 2)) ∨
    d.inl 0 2 = 0 ∨ 256 < d.inl 0 2 ∨ d.inl 2 2 = 0 ∨ d.inl 4 2 = 0 ∨ 1024 < d.inl 4 2 ∨
    (d.inl 0 2 % 4 = 0 ∧ d.inl 2 2 % 4 = 0 ∧ d.inl 4 2 % 4 = 0 ∧ d.inl 6 1 = 1) ∨
    (¬(d.inl 0 2 % 4 = 0 ∧ d.inl 2 2 % 4 = 0 ∧ d.inl 4 2 % 4 = 0) ∧ d.inl 6 1 = 0)

theorem matmulLegal_of_matmulIllegal {d : Desc} {refs : List TRef} (hwork : d.work ≠ []) (h : d.matmulIllegal refs) :
    matmulLegal d refs = false := by
  refine Bool.eq_false_iff.mpr fun hl => ?_
  have hmode := (modeLegal_iff _ _ _ _).mp (matmulLegal_mode hl)
  obtain ⟨⟨hm, hm', hn, -, hk, hk'⟩, -⟩ :=
    (tileLegal_iff _ _ _ _ _ _ _).mp (matmulLegal_tiles hl (List.length_pos_of_ne_nil hwork) (.inl rfl))
  rcases h with ⟨r, hr, hcols, hfoot⟩ | h | h | h | h | h | ⟨h1, h2, h3, h4⟩ | ⟨h, h0⟩
  · have := ((tileLegal_iff _ _ _ _ _ _ _).mp (matmulLegal_tiles hl hr (.inr hcols))).2
    omega
  · omega
  · omega
  · rw [h, shareCols_zero] at hn
    omega
  · omega
  · omega
  · rw [if_pos ⟨h1, h2, h3⟩] at hmode
    omega
  · rw [if_neg h] at hmode
    omega

/-- Settles O27: the row runs its operator, whose outputs and shares R234, R254 and R267 give, and an illegal problem ends with SHAPE. -/
theorem matmulComputesItsTile : Obligations.MatmulComputesItsTile := by
  intro s₀ g q d s hready refs a b c z m n k outs inputs
  obtain ⟨hdesc, hcoll⟩ := State.opReady_some hready
  have hexec : exec (.matmul g q) s₀ = execMatmul g q s₀ := rfl
  rw [execMatmul, hready] at hexec
  refine ⟨fun p hp hlegal hops => ⟨_, hexec, ?_⟩, fun ha hz i j => s.matmulElem_int d a b c z ha hz i j, fun hill hwork hargs => ⟨_, hexec, ?_⟩⟩
  · rw [show mxPair (refAt (s.opRefs d 4) 0).elem (refAt (s.opRefs d 4) 1).elem = some p from hp]
    exact s.runOperator_runs d 128 _ inputs outs _ hdesc hlegal hops
  · have hlegal := matmulLegal_of_matmulIllegal (refs := refs) hwork hill
    exact s.runOperator_illegal d 128 _ _ _ _ hcoll hlegal hargs

end Sys2Proof.Machine
end

section
/-! PROOF. The Bobbin operators: element by element, and over rows (Tables 5.4 and 5.7, R234, R244, R314). -/

namespace Sys2Proof.Machine

theorem bcastOk_iff (x z : Nat) : bcastOk x z = true ↔ x = z ∨ x = 1 := by simp [bcastOk]

/-- Settles O28: each row runs its operator, and the element it writes is the operator's value of its inputs. -/
theorem bobbinOperatorsRun : Obligations.BobbinOperatorsRun := by
  intro s₀ g q code d s hready run r legal at_ values row dark
  obtain ⟨hdesc, -⟩ := State.opReady_some hready
  have hall {n : Nat} (h : legal n) : ((s.opRefs d n).all fun x => x.legal false) = true := List.all_eq_true.mpr h
  refine ⟨?_, ?_, ?_, ?_, ?_, ?_⟩
  · rintro rfl hlegal hfits hop hops
    obtain ⟨hx0, hx1, hx2⟩ := hfits 0 (by decide)
    obtain ⟨hy0, hy1, hy2⟩ := hfits 1 (by decide)
    have hexec : exec (.eltwise g q) s₀ = execEltwise g q s₀ := rfl
    rw [execEltwise, hready] at hexec
    refine State.runs_of_exec hexec hdesc ?_ hops
    simp only [hall hlegal, Bool.true_and, Bool.and_eq_true, bcastOk_iff, decide_eq_true_eq]
    exact ⟨⟨⟨⟨hx0, hx1⟩, hx2⟩, ⟨hy0, hy1⟩, hy2⟩, hop⟩
  · rintro rfl hlegal hshape hop hops
    have hexec : exec (.activate g q) s₀ = execActivate g q s₀ := rfl
    rw [execActivate, hready] at hexec
    refine State.runs_of_exec hexec hdesc ?_ hops
    simp only [hall hlegal, Bool.true_and, Bool.and_eq_true, decide_eq_true_eq]
    exact ⟨hshape, hop⟩
  · rintro rfl hlegal hone h1 h2 hop hops
    have hexec : exec (.reduce g q) s₀ = execReduce g q s₀ := rfl
    rw [execReduce, hready] at hexec
    refine State.runs_of_exec hexec hdesc ?_ hops
    simp only [hall hlegal, Bool.true_and, Bool.and_eq_true, beq_iff_eq, decide_eq_true_eq]
    exact ⟨⟨⟨hone, h1⟩, h2⟩, hop⟩
  · rintro rfl hlegal hshape hop hops
    have hexec : exec (.softmax g q) s₀ = execSoftmax g q s₀ := rfl
    rw [execSoftmax, hready] at hexec
    refine State.runs_of_exec hexec hdesc ?_ hops
    simp only [hall hlegal, Bool.true_and, Bool.and_eq_true, beq_iff_eq]
    exact ⟨hshape, hop⟩
  · rintro rfl hlegal hshape hgain hbias hop hops
    have hexec : exec (.norm g q) s₀ = execNorm g q s₀ := rfl
    rw [execNorm, hready] at hexec
    refine State.runs_of_exec hexec hdesc ?_ hops
    simp only [hall hlegal, Bool.true_and, Bool.and_eq_true, beq_iff_eq, decide_eq_true_eq]
    exact ⟨⟨⟨hshape, hgain⟩, hbias⟩, hop⟩
  · rintro rfl hlegal hshape hop hops
    have hexec : exec (.convert g q) s₀ = execConvert g q s₀ := rfl
    rw [execConvert, hready] at hexec
    refine State.runs_of_exec hexec hdesc ?_ hops
    simp only [hall hlegal, Bool.true_and, Bool.and_eq_true, beq_iff_eq]
    exact ⟨hshape, hop⟩

end Sys2Proof.Machine
end

section
/-! SUPPORT. Boxes in order of score: the insertion that sorts them, the candidates kept of too many, and the boxes non-maximum suppression
keeps (R509, R510, R512, R513). -/

namespace Sys2Proof.Machine

/-! Insertion in order. -/

section

variable {α : Type} {before wins : α → α → Prop} [DecidableRel wins]

/-- An element inserted before the first that it wins against leaves a sorted list sorted. -/
theorem pairwise_orderedInsert (htrans : ∀ x y z, before x y → before y z → before x z) (b : α) (l : List α) (hl : l.Pairwise before)
    (hb : ∀ c ∈ l, (wins b c → before b c) ∧ (¬ wins b c → before c b)) : (l.orderedInsert wins b).Pairwise before := by
  induction l with
  | nil => simp
  | cons c cs ih =>
    obtain ⟨hc, hcs⟩ := List.pairwise_cons.mp hl
    obtain ⟨hwins, hloses⟩ := hb c List.mem_cons_self
    rw [List.orderedInsert_cons]
    split
    · rename_i h
      refine List.pairwise_cons.mpr ⟨fun x hx => ?_, hl⟩
      rcases List.mem_cons.mp hx with rfl | hx
      · exact hwins h
      · exact htrans _ _ _ (hwins h) (hc x hx)
    · rename_i h
      refine List.pairwise_cons.mpr ⟨fun x hx => ?_, ih hcs fun x hx => hb x (List.mem_cons_of_mem _ hx)⟩
      rcases (List.mem_orderedInsert wins).mp hx with rfl | hx
      · exact hloses h
      · exact hc x hx

/-- A list in which an earlier element goes before a later one that does not win against it is sorted by insertion from its front. -/
theorem pairwise_foldl_orderedInsert (htrans : ∀ x y z, before x y → before y z → before x z) (l : List α)
    (hl : l.Pairwise fun x b => (wins b x → before b x) ∧ (¬ wins b x → before x b)) (acc : List α) (hacc : acc.Pairwise before)
    (hcross : ∀ x ∈ acc, ∀ b ∈ l, (wins b x → before b x) ∧ (¬ wins b x → before x b)) :
    (l.foldl (fun acc b => acc.orderedInsert wins b) acc).Pairwise before := by
  induction l generalizing acc with
  | nil => exact hacc
  | cons b l ih =>
    obtain ⟨hb, hl⟩ := List.pairwise_cons.mp hl
    refine ih hl _ (pairwise_orderedInsert htrans b acc hacc fun c hc => hcross c hc b List.mem_cons_self) fun x hx c hc => ?_
    rcases (List.mem_orderedInsert wins).mp hx with rfl | hx
    · exact hb c hc
    · exact hcross x hx c (List.mem_cons_of_mem _ hc)

theorem perm_foldl_orderedInsert (l acc : List α) : (l.foldl (fun acc b => acc.orderedInsert wins b) acc).Perm (l ++ acc) := by
  induction l generalizing acc with
  | nil => exact .refl _
  | cons b l ih =>
    exact (ih _).trans (((List.perm_orderedInsert wins b acc).append_left l).trans List.perm_middle)

end

/-! The candidates of BOX_DECODE. -/

/-- A candidate comes before another (R510). -/
abbrev Box.ahead (b c : Box) : Prop := c.score < b.score ∨ (c.score = b.score ∧ b.src < c.src)

theorem insertBox_eq (b : Box) (l : List Box) : insertBox b l = l.orderedInsert Box.ahead b := by
  induction l with
  | nil => rfl
  | cons c cs ih => rw [insertBox, ih, List.orderedInsert_cons]

/-- The candidates in the order of R510. -/
def sortedBoxes (l : List Box) : List Box := l.foldl (fun acc b => insertBox b acc) []

theorem sortedBoxes_eq (l : List Box) : sortedBoxes l = l.foldl (fun acc b => acc.orderedInsert Box.ahead b) [] := by
  simp only [sortedBoxes, insertBox_eq]

theorem perm_sortedBoxes (l : List Box) : (sortedBoxes l).Perm l := by
  rw [sortedBoxes_eq]
  exact (perm_foldl_orderedInsert l []).trans (by rw [List.append_nil])

/-- Candidates of different sources stand in a strict order. -/
theorem pairwise_sortedBoxes (l : List Box) (hsrc : l.Pairwise fun b c => b.src < c.src) : (sortedBoxes l).Pairwise Box.ahead := by
  rw [sortedBoxes_eq]
  refine pairwise_foldl_orderedInsert (fun x y z hxy hyz => ?_) l (hsrc.imp fun {x b} hlt => ⟨id, fun h => ?_⟩) [] .nil (by simp)
  · unfold Box.ahead at *
    omega
  · unfold Box.ahead at *
    omega

/-- What is kept of the candidates: as many as fit, and none that comes after one left out (R510). -/
theorem keepBoxes_spec (cap : Nat) (l : List Box) (hsrc : l.Pairwise fun b c => b.src < c.src) :
    (keepBoxes cap l).length = min cap l.length ∧ ∀ b ∈ keepBoxes cap l, b ∈ l ∧ ∀ e ∈ l, e ∉ keepBoxes cap l → b.ahead e := by
  by_cases hfit : l.length ≤ cap
  · rw [keepBoxes, if_pos hfit]
    exact ⟨by omega, fun b hb => ⟨hb, fun e he hne => absurd he hne⟩⟩
  · have hnodup : l.Nodup := hsrc.imp fun hlt h => absurd (h ▸ hlt) (Nat.lt_irrefl _)
    have hkeep : keepBoxes cap l = l.filter fun b => ((sortedBoxes l).take cap).contains b := if_neg hfit
    have hmem (b : Box) : b ∈ keepBoxes cap l ↔ b ∈ l ∧ b ∈ (sortedBoxes l).take cap := by
      rw [hkeep, List.mem_filter, List.contains_iff_mem]
    have hperm := perm_sortedBoxes l
    have hbest : ((sortedBoxes l).take cap).Nodup := (hperm.symm.nodup hnodup).sublist (List.take_sublist _ _)
    have hkept : (keepBoxes cap l).Perm ((sortedBoxes l).take cap) := by
      refine (List.perm_ext_iff_of_nodup (hkeep ▸ hnodup.filter _) hbest).mpr fun b => (hmem b).trans ⟨And.right, fun hb => ⟨?_, hb⟩⟩
      exact hperm.mem_iff.mp (List.mem_of_mem_take hb)
    refine ⟨?_, fun b hb => ⟨((hmem b).mp hb).1, fun e he hne => ?_⟩⟩
    · rw [hkept.length_eq, List.length_take, hperm.length_eq]
    · have hsplit := (sortedBoxes l).take_append_drop cap
      have hedrop : e ∈ (sortedBoxes l).drop cap := by
        have he' : e ∈ (sortedBoxes l).take cap ++ (sortedBoxes l).drop cap := hsplit.symm ▸ hperm.mem_iff.mpr he
        exact (List.mem_append.mp he').resolve_left fun h => hne ((hmem e).mpr ⟨he, h⟩)
      have hsorted := pairwise_sortedBoxes l hsrc
      rw [← hsplit] at hsorted
      exact (List.pairwise_append.mp hsorted).2.2 b ((hmem b).mp hb).2 e hedrop

/-! The boxes NMS keeps. -/

/-- A box comes before another of an input list (R512, R513). -/
abbrev scoredAhead (x y : Nat × Box) : Prop := y.2.score < x.2.score ∨ (y.2.score = x.2.score ∧ x.1 < y.1)

theorem insertScored_eq (b : Nat × Box) (l : List (Nat × Box)) :
    insertScored b l = l.orderedInsert (fun x y => y.2.score < x.2.score) b := by
  induction l with
  | nil => rfl
  | cons c cs ih => rw [insertScored, ih, List.orderedInsert_cons]

/-- The boxes of a list with their indices, in the order of R512. -/
def scoredOrder (l : List (Nat × Box)) : List (Nat × Box) := l.foldl (fun acc b => insertScored b acc) []

theorem scoredOrder_eq (l : List (Nat × Box)) :
    scoredOrder l = l.foldl (fun acc b => acc.orderedInsert (fun x y => y.2.score < x.2.score) b) [] := by
  simp only [scoredOrder, insertScored_eq]

theorem mem_scoredOrder (l : List (Nat × Box)) (b : Nat × Box) : b ∈ scoredOrder l ↔ b ∈ l := by
  rw [scoredOrder_eq, (perm_foldl_orderedInsert l []).mem_iff, List.append_nil]

theorem pairwise_scoredOrder (l : List (Nat × Box)) (h : l.Pairwise fun x y => x.1 < y.1) : (scoredOrder l).Pairwise scoredAhead := by
  rw [scoredOrder_eq]
  refine pairwise_foldl_orderedInsert (fun x y z hxy hyz => ?_) l (h.imp fun {x b} hlt => ⟨.inl, fun h => ?_⟩) [] .nil (by simp)
  · unfold scoredAhead at *
    omega
  · unfold scoredAhead
    omega

/-- What NMS has kept once it has gone through a list in order (R512): the boxes already kept come first; as many as may be kept; none
darned; in the order of the list, none suppressed by one kept before it; and where there was room left, each box left out is darned or
suppressed. -/
theorem nmsKeep_spec (iou top : Nat) (agnostic : Bool) (l kept : List (Nat × Box)) (hl : l.Pairwise scoredAhead)
    (hlen : kept.length ≤ top) (hkept : kept.Pairwise fun x y => scoredAhead x y ∧ suppresses iou agnostic x.2 y.2 = false)
    (hcross : ∀ x ∈ kept, ∀ y ∈ l, scoredAhead x y) :
    let out := nmsKeep iou top agnostic kept l
    (∀ b ∈ kept, b ∈ out) ∧ out.length ≤ top ∧ (∀ b ∈ out, b ∈ kept ∨ (b ∈ l ∧ b.2.darn = false)) ∧
    (out.Pairwise fun x y => scoredAhead x y ∧ suppresses iou agnostic x.2 y.2 = false) ∧
    (out.length < top → ∀ b ∈ l, b.2.darn = false → b ∈ out ∨ ∃ k ∈ out, suppresses iou agnostic k.2 b.2 = true) := by
  induction l generalizing kept with
  | nil => exact ⟨fun _ h => h, hlen, fun _ h => .inl h, hkept, fun _ b hb => nomatch hb⟩
  | cons b bs ih =>
    obtain ⟨hb, hbs⟩ := List.pairwise_cons.mp hl
    have hcross' (x : Nat × Box) (hx : x ∈ kept) (y : Nat × Box) (hy : y ∈ bs) := hcross x hx y (List.mem_cons_of_mem _ hy)
    unfold nmsKeep
    split
    · exact ⟨fun _ h => h, hlen, fun _ h => .inl h, hkept, fun hroom => by omega⟩
    · rename_i hroom
      split
      · rename_i hout
        obtain ⟨hsub, hle, hfrom, hpair, hrest⟩ := ih kept hbs hlen hkept hcross'
        refine ⟨hsub, hle, fun x hx => (hfrom x hx).imp_right fun h => ⟨List.mem_cons_of_mem _ h.1, h.2⟩, hpair, fun hlt x hx hclean => ?_⟩
        rcases List.mem_cons.mp hx with rfl | hx
        · obtain ⟨k, hk, hs⟩ := List.any_eq_true.mp ((Bool.or_eq_true_iff.mp hout).resolve_left (by rw [hclean]; exact Bool.false_ne_true))
          exact .inr ⟨k, hsub k hk, hs⟩
        · exact hrest hlt x hx hclean
      · rename_i hin
        obtain ⟨hclean, hfree⟩ := Bool.or_eq_false_iff.mp (Bool.eq_false_iff.mpr hin)
        have hfree' := List.any_eq_false.mp hfree
        obtain ⟨hsub, hle, hfrom, hpair, hrest⟩ := ih (kept ++ [b]) hbs (by simp; omega)
          (List.pairwise_append.mpr ⟨hkept, List.pairwise_singleton _ _, fun x hx y hy => by
            rw [List.mem_singleton.mp hy]
            exact ⟨hcross x hx b List.mem_cons_self, Bool.eq_false_iff.mpr (hfree' x hx)⟩⟩)
          (fun x hx y hy => (List.mem_append.mp hx).elim (fun h => hcross' x h y hy) fun h => List.mem_singleton.mp h ▸ hb y hy)
        refine ⟨fun x hx => hsub x (List.mem_append_left _ hx), hle, fun x hx => ?_, hpair, fun hlt x hx hc => ?_⟩
        · rcases hfrom x hx with h | h
          · exact (List.mem_append.mp h).imp_right fun h => by rw [List.mem_singleton.mp h]; exact ⟨List.mem_cons_self, hclean⟩
          · exact .inr ⟨List.mem_cons_of_mem _ h.1, h.2⟩
        · rcases List.mem_cons.mp hx with rfl | hx
          · exact .inl (hsub x (List.mem_append_right _ (List.mem_singleton.mpr rfl)))
          · exact hrest hlt x hx hc

end Sys2Proof.Machine
end

section
/-! PROOF. The image operators other than convolution (R473, R474, R505 to R521, R526 to R528). -/

namespace Sys2Proof.Machine

/-! What the candidates of BOX_DECODE are. -/

theorem pairwise_flatMap_range (n w : Nat) (f : Nat → Nat → Option Box) (hf : ∀ a < n, ∀ c < w, ∀ b ∈ f a c, b.src = a * w + c) :
    ((List.range n).flatMap fun a => (List.range w).filterMap (f a)).Pairwise fun b c => b.src < c.src := by
  refine List.pairwise_flatMap.mpr ⟨fun a ha => ?_, List.pairwise_lt_range.imp_of_mem fun {a a'} ha ha' hlt => ?_⟩
  · refine List.pairwise_filterMap.mpr (List.pairwise_lt_range.imp_of_mem fun {c c'} hc hc' hlt b hb b' hb' => ?_)
    rw [hf a (List.mem_range.mp ha) c (List.mem_range.mp hc) b hb, hf a (List.mem_range.mp ha) c' (List.mem_range.mp hc') b' hb']
    omega
  · intro b hb b' hb'
    obtain ⟨c, hc, hb⟩ := List.mem_filterMap.mp hb
    obtain ⟨c', hc', hb'⟩ := List.mem_filterMap.mp hb'
    rw [hf a (List.mem_range.mp ha) c (List.mem_range.mp hc) b hb, hf a' (List.mem_range.mp ha') c' (List.mem_range.mp hc') b' hb']
    have := List.mem_range.mp hc
    nlinarith

theorem State.boxCandidates_spec (s : State) (d : Desc) (anc del sco : TRef) :
    ((s.boxCandidates d anc del sco).Pairwise fun b c => b.src < c.src) ∧
    ∀ b ∈ s.boxCandidates d anc del sco, d.inl 0 2 ≤ b.score ∧ b.empty = false := by
  unfold State.boxCandidates
  extract_lets p vxy vwh
  refine ⟨pairwise_flatMap_range _ _ _ fun a _ c _ b hb => ?_, fun b hb => ?_⟩
  · simp only [Option.mem_def, Option.ite_none_right_eq_some, Option.some.injEq] at hb
    rw [← hb.2]
  · obtain ⟨a, -, hb⟩ := List.mem_flatMap.mp hb
    obtain ⟨c, -, hb⟩ := List.mem_filterMap.mp hb
    simp only [Option.ite_none_right_eq_some, Option.some.injEq, Bool.and_eq_true, decide_eq_true_eq, Bool.not_eq_true'] at hb
    obtain ⟨⟨⟨-, hscore⟩, hempty⟩, rfl⟩ := hb
    exact ⟨hscore, hempty⟩

/-! What NMS keeps. -/

/-- The boxes that NMS takes of `n`, with their indices: those that are not empty (R506, R513). -/
def nmsInput (box : Nat → Box) (n : Nat) : List (Nat × Box) := ((List.range n).map fun i => (i, box i)).filter fun b => !b.2.empty

theorem mem_nmsInput (box : Nat → Box) (n : Nat) (b : Nat × Box) :
    b ∈ nmsInput box n ↔ b.1 < n ∧ b.2 = box b.1 ∧ b.2.empty = false := by
  obtain ⟨i, b⟩ := b
  simp only [nmsInput, List.mem_filter, List.mem_map, List.mem_range, Prod.mk.injEq, Bool.not_eq_true']
  constructor
  · rintro ⟨⟨_, hi, rfl, rfl⟩, he⟩
    exact ⟨hi, rfl, he⟩
  · rintro ⟨hi, rfl, he⟩
    exact ⟨⟨i, hi, rfl, rfl⟩, he⟩

theorem pairwise_nmsInput (box : Nat → Box) (n : Nat) : (nmsInput box n).Pairwise fun x y => x.1 < y.1 := by
  unfold nmsInput
  exact List.Pairwise.filter _ (List.pairwise_map.mpr List.pairwise_lt_range)

/-- The boxes NMS keeps of `n` (R512 to R514). -/
def nmsKept (box : Nat → Box) (n iou top : Nat) (agnostic : Bool) : List (Nat × Box) := nmsKeep iou top agnostic [] (scoredOrder (nmsInput box n))

theorem nmsKept_spec (box : Nat → Box) (n iou top : Nat) (agnostic : Bool) :
    let kept := nmsKept box n iou top agnostic
    kept.length ≤ top ∧ (∀ b ∈ kept, b.1 < n ∧ b.2 = box b.1 ∧ b.2.empty = false ∧ b.2.darn = false) ∧
    (kept.Pairwise fun x y => scoredAhead x y ∧ suppresses iou agnostic x.2 y.2 = false) ∧
    (kept.length < top → ∀ i, i < n → (box i).empty = false → (box i).darn = false → (∀ b ∈ kept, b.1 ≠ i) →
      ∃ b ∈ kept, suppresses iou agnostic b.2 (box i) = true) := by
  obtain ⟨-, hlen, hfrom, hpair, hrest⟩ := nmsKeep_spec iou top agnostic (scoredOrder (nmsInput box n)) []
    (pairwise_scoredOrder _ (pairwise_nmsInput box n)) (Nat.zero_le _) .nil (by simp)
  refine ⟨hlen, fun b hb => ?_, hpair, fun hroom i hi hempty hdarn hne => ?_⟩
  · obtain ⟨hin, hdarn⟩ := (hfrom b hb).resolve_left List.not_mem_nil
    obtain ⟨hlt, hbox, hempty⟩ := (mem_nmsInput box n b).mp ((mem_scoredOrder _ b).mp hin)
    exact ⟨hlt, hbox, hempty, hdarn⟩
  · have hin := (mem_scoredOrder _ _).mpr ((mem_nmsInput box n (i, box i)).mpr ⟨hi, rfl, hempty⟩)
    exact (hrest hroom _ hin hdarn).resolve_left fun h => hne _ h rfl

/-! The obligation. -/

/-- Settles O45: each row runs its operator; the candidates kept are the first in their order, and NMS keeps boxes as R512 goes through them. -/
theorem imageOperatorsRun : Obligations.ImageOperatorsRun := by
  intro s₀ g q code d s hready run r a share recoded moved
  obtain ⟨hdesc, -⟩ := State.opReady_some hready
  refine ⟨?_, ?_, ?_, ?_, ?_, ?_, ?_⟩
  · rintro rfl hx hz hshape hclean hops
    have hexec : exec (.toPlanar g q) s₀ = .next (s₀.relayout g q 0x0208 true false) := rfl
    rw [State.relayout, hready] at hexec
    refine State.runs_of_exec hexec hdesc ?_ hops
    simp only [Bool.and_eq_true, decide_eq_true_eq]
    exact ⟨⟨⟨hx, hz⟩, hshape⟩, hclean⟩
  · rintro rfl hx hz hshape hclean hops
    have hexec : exec (.toPacked g q) s₀ = .next (s₀.relayout g q 0x0209 false true) := rfl
    rw [State.relayout, hready] at hexec
    refine State.runs_of_exec hexec hdesc ?_ hops
    simp only [Bool.and_eq_true, decide_eq_true_eq]
    exact ⟨⟨⟨hx, hz⟩, hshape⟩, hclean⟩
  · rintro rfl hx hz hclean hdim h1 h2 h3 h4 h5 h6 h7 h8 hops
    have hexec : exec (.pool g q) s₀ = execPool g q s₀ := rfl
    rw [execPool, hready] at hexec
    refine State.runs_of_exec hexec hdesc ?_ hops
    simp only [Bool.and_eq_true, beq_iff_eq, decide_eq_true_eq]
    exact ⟨⟨⟨⟨hx, hz⟩, hclean⟩, hdim⟩, h1, h2, h3, h4, h5, h6, h7, h8⟩
  · rintro rfl hlegal list hops
    have hexec : exec (.cropResize g q) s₀ = execCropResize g q s₀ := rfl
    rw [execCropResize, hready] at hexec
    exact State.runs_of_exec hexec hdesc hlegal hops
  · rintro rfl hlegal list covered hops
    have hexec : exec (.paste g q) s₀ = execPaste g q s₀ := rfl
    rw [execPaste, hready] at hexec
    exact State.runs_of_exec hexec hdesc hlegal hops
  · rintro rfl hlegal hanc hdel hsco hz hanc4 hdel4 hdel1 hsco1 hcap hcap' hclean hclean' cap cand kept
    obtain ⟨hsrc, hcand⟩ := s.boxCandidates_spec d (r 4 0) (r 4 1) (r 4 2)
    obtain ⟨hlen, hkept⟩ := keepBoxes_spec cap cand hsrc
    refine ⟨fun hops => ?_, hlen, hcand, hkept⟩
    have hexec : exec (.boxDecode g q) s₀ = execBoxDecode g q s₀ := rfl
    rw [execBoxDecode, hready] at hexec
    refine State.runs_of_exec hexec hdesc ?_ hops
    have hfloat (x : TRef) : (x.elem == .fp16 || x.elem == .bf16 || x.elem == .fp32) = true ↔ x.elem ∈ [Elem.fp16, .bf16, .fp32] := by
      simp [or_assoc]
    simp only [Bool.and_eq_true, hfloat, beq_iff_eq, decide_eq_true_eq, List.all_eq_true]
    exact ⟨⟨⟨⟨⟨⟨⟨⟨⟨⟨hlegal, hanc⟩, hdel⟩, hsco⟩, hz⟩, hanc4⟩, hdel4⟩, hdel1⟩, hsco1⟩, hcap, hcap'⟩, hclean, hclean'⟩
  · rintro rfl hx hz hx1 hx2 hz1 hz2 htop hflag hclean list n top
    refine ⟨nmsKept (boxAt list) n (d.inl 0 2) top (d.inl 4 1 % 2 == 1), fun hops => ?_, nmsKept_spec (boxAt list) n _ top _⟩
    have hexec : exec (.nms g q) s₀ = execNms g q s₀ := rfl
    rw [execNms, hready] at hexec
    refine State.runs_of_exec hexec hdesc ?_ hops
    simp only [Bool.and_eq_true, decide_eq_true_eq]
    exact ⟨⟨⟨⟨hx, hz⟩, hx1, hx2, hz1, hz2⟩, htop⟩, hflag, hclean⟩

end Sys2Proof.Machine
end

section
/-! PROOF. The address hash: each aligned block of 1,536 bytes holds one line for each slice (R294). -/

namespace Sys2Proof.Machine

/-- The part of the hash that the four lines of 512 aligned bytes share. -/
def slicePhase (quad : Nat) : Nat := ((quad * 512 / 2 ^ 15) ^^^ (quad * 512 / 2 ^ 23) ^^^ (quad * 512 / 2 ^ 31)) % 2 ^ 2

theorem slicePhase_lt (quad : Nat) : slicePhase quad < 4 := Nat.mod_lt _ (by decide)

/-- Line `r` of four lies in the slice that its two bits and the phase give, of the group of four that its place in the block gives. -/
theorem sliceOf_line (b q r : Nat) (hq : q < 3) (hr : r < 4) :
    sliceOf (1536 * b + 128 * (4 * q + r)) = 4 * q + (r ^^^ slicePhase (3 * b + q)) := by
  have hquad : (1536 * b + 128 * (4 * q + r)) / 512 % 3 = q := by omega
  have hline : (1536 * b + 128 * (4 * q + r)) / 128 % 2 ^ 2 = r := by omega
  have hhigh (n : Nat) : (1536 * b + 128 * (4 * q + r)) / (512 * n) = (3 * b + q) * 512 / (512 * n) := by
    rw [← Nat.div_div_eq_div_mul, ← Nat.div_div_eq_div_mul]
    congr 1
    omega
  have h15 := hhigh (2 ^ 6)
  have h23 := hhigh (2 ^ 14)
  have h31 := hhigh (2 ^ 22)
  have hmask (x : Nat) : x &&& 3 = x % 2 ^ 2 := Nat.and_two_pow_sub_one_eq_mod x 2
  norm_num only at h15 h23 h31
  rw [sliceOf, hquad, hmask, Nat.xor_assoc, Nat.xor_assoc, Nat.xor_mod_two_pow, hline, ← Nat.xor_assoc, slicePhase]
  norm_num only [h15, h23, h31]

/-- Settles O32: a slice is a group of four lines and a place among them, which the hash permutes. -/
theorem everySliceHoldsOneLineOfABlock : Obligations.EverySliceHoldsOneLineOfABlock := by
  intro b k hk
  have hplace : k % 4 ^^^ slicePhase (3 * b + k / 4) < 4 :=
    Nat.xor_lt_two_pow (n := 2) (Nat.mod_lt _ (by decide)) (slicePhase_lt _)
  refine ⟨⟨4 * (k / 4) + (k % 4 ^^^ slicePhase (3 * b + k / 4)), by omega, ?_, fun j hj hslice => ?_⟩, fun x hx => ?_⟩
  · rw [sliceOf_line b _ _ (by omega) hplace, Nat.xor_xor_cancel_right]
    omega
  · have hj' := sliceOf_line b (j / 4) (j % 4) (by omega) (by omega)
    have hlt : j % 4 ^^^ slicePhase (3 * b + j / 4) < 4 := Nat.xor_lt_two_pow (n := 2) (Nat.mod_lt _ (by decide)) (slicePhase_lt _)
    rw [Nat.div_add_mod, hslice] at hj'
    have hgroup : j / 4 = k / 4 := by omega
    have hk4 : j % 4 ^^^ slicePhase (3 * b + k / 4) = k % 4 := by
      rw [← hgroup]
      omega
    rw [← hk4, Nat.xor_xor_cancel_right]
    omega
  · rw [chanLine]
    omega

end Sys2Proof.Machine
end

section
/-! PROOF. O34: a raster fill's ways are those of the miss register, which the model does not bound to a set's sixteen. -/

namespace Sys2Proof.Machine

/-- A raster fill of line 0 in a set whose sixteen ways hold other lines; its miss register allows ways 0 to 16. -/
def wideRasterFill : State :=
  { State.reset with mem := { Mem.reset with
    spool := (List.range 16).map fun w =>
      (w, ⟨128 * 12 * 1024 * (w + 1), false, [], false, .bulk, 0, 0, .inv, []⟩)
    mshrs := [⟨0, .raster, [], 17, some [], false, 0⟩] } }

/-- The fill takes way 16 of set 0, whose key is that of way 0 of set 1: its set does not hold the line after it. -/
theorem wideRasterFill_loses_line :
    (match exec (.spoolFill 0 none) wideRasterFill with
      | .next t => t.line? 0
      | _ => none) = none := by
  decide +kernel

theorem wideRasterFill_misses :
    wideRasterFill.line? 0 = none ∧ (∀ h ∈ wideRasterFill.mem.heldMiss, sliceOf h.pa ≠ sliceOf 0) ∧ waysFor .raster 17 ≠ [] := by
  decide +kernel

/-- Refutes O34: a raster miss register whose number of ways is 17 fills a way beyond the set's sixteen, and the line it keeps is not
found in its set. -/
theorem not_fillsServeTheirWaiters : ¬ Obligations.FillsServeTheirWaiters := by
  intro h
  obtain ⟨hmiss, hheld, hways⟩ := wideRasterFill_misses
  obtain ⟨hfill, -⟩ := h wideRasterFill
  obtain ⟨t, hexec, -, hline⟩ := hfill 0 none ⟨0, .raster, [], 17, some [], false, 0⟩ rfl [] rfl rfl (by simp)
  obtain ⟨l, hkept, -⟩ := hline hheld hmiss hways
  have hlost := wideRasterFill_loses_line
  rw [hexec] at hlost
  exact absurd (hkept.symm.trans hlost) (Option.some_ne_none l)

/-! O35: the write a recall holds back may start at the line's end. -/

/-- Loom 0 holds line 0, of a coherent window, in E; requester 1's write of no bytes at the line's end waits for its recall. -/
def emptyWriteAtEnd : State :=
  { State.reset with
    regs := tblPut State.reset.regs (Reg.SPL_REGION_BASE_LO 0) 3#32
    mem := { Mem.reset with
      spool := [(0, ⟨0, false, [], false, .bulk, 0, 0, .excl, [0]⟩)]
      trans := [⟨0, .recallWrite, 0, ⟨1, 16, some (128, []), false, .bulk, .no⟩⟩] } }

/-- The write takes the coherent copies of the next line, and leaves loom 0 the holder of line 0. -/
theorem emptyWriteAtEnd_keeps_holder :
    (match exec (.snoop 0 0 none) emptyWriteAtEnd with
      | .next t => (t.line? 0).map SLine.dir
      | _ => none) = some .excl := by
  decide +kernel

theorem emptyWriteAtEnd_waits :
    emptyWriteAtEnd.wayOf 0 = some 0 ∧ emptyWriteAtEnd.line? 0 = some ⟨0, false, [], false, .bulk, 0, 0, .excl, [0]⟩ ∧
    emptyWriteAtEnd.cohAccess 1 0 .bulk = true := by
  decide +kernel

/-- Refutes O35: a recall made for a write of no bytes at offset 128 ends with the write at the next line, and the directory entry of the
recalled line stays in E. -/
theorem not_theDirectoryMakesItsTransitions : ¬ Obligations.TheDirectoryMakesItsTransitions := by
  intro h
  obtain ⟨hway, hline, hcoh⟩ := emptyWriteAtEnd_waits
  obtain ⟨-, -, -, -, -, hsnoop⟩ := h emptyWriteAtEnd 0 0 0
  obtain ⟨-, -, -, hwrite⟩ := hsnoop 0 _ hway hline ⟨0, .recallWrite, 0, ⟨1, 16, some (128, []), false, .bulk, .no⟩⟩ none
    (by decide +kernel) rfl
  obtain ⟨t, y, hexec, hy, hdir, -⟩ := hwrite 128 [] rfl rfl (by decide) rfl hcoh
  have hkept := emptyWriteAtEnd_keeps_holder
  simp [hexec, hy, hdir] at hkept

end Sys2Proof.Machine
end

section
/-! SUPPORT. What the bytes of device memory depend on (R294, R320, R847). -/

namespace Sys2Proof.Machine

/-- From `s` to `t` the Spool's lines, DRAM, the written-map and the DRAM top are as they were. -/
structure State.SameBytes (s t : State) : Prop where
  spool : t.mem.spool = s.mem.spool
  leaving : t.mem.leaving = s.mem.leaving
  wmap : t.mem.wmap = s.mem.wmap
  dram : t.mem.dram = s.mem.dram
  status : t.rd Reg.DMC_STATUS = s.rd Reg.DMC_STATUS

namespace State.SameBytes

variable {s t u : State}

theorem refl (s : State) : s.SameBytes s := ⟨rfl, rfl, rfl, rfl, rfl⟩

theorem trans (h : s.SameBytes t) (h' : t.SameBytes u) : s.SameBytes u :=
  ⟨h'.spool.trans h.spool, h'.leaving.trans h.leaving, h'.wmap.trans h.wmap, h'.dram.trans h.dram, h'.status.trans h.status⟩

/-- A change of memory's queues, registers and directory alone. -/
theorem onMem (h : s.SameBytes t) (f : Mem → Mem) (hf : (f t.mem).spool = t.mem.spool) (hl : (f t.mem).leaving = t.mem.leaving)
    (hw : (f t.mem).wmap = t.mem.wmap) (hd : (f t.mem).dram = t.mem.dram) : s.SameBytes (t.onMem f) :=
  h.trans ⟨hf, hl, hw, hd, rfl⟩

theorem bump (h : s.SameBytes t) (o : Nat) (ho : Reg.DMC_STATUS ≠ o) : s.SameBytes (t.bump o) := by
  refine h.trans ⟨?_, ?_, ?_, ?_, State.rd_bump_ne _ _ _ ho⟩ <;> rw [State.bump_rest]

theorem wayOf (h : s.SameBytes t) (pa : Nat) : t.wayOf pa = s.wayOf pa := by
  rw [State.wayOf, State.wayOf, h.spool]

theorem line? (h : s.SameBytes t) (pa : Nat) : t.line? pa = s.line? pa := by
  rw [State.line?, State.line?, h.wayOf, h.spool, h.leaving]

theorem granuleSet (h : s.SameBytes t) (pa : Nat) : t.granuleSet pa = s.granuleSet pa := by
  rw [State.granuleSet, State.granuleSet, h.wmap]

theorem dramByte (h : s.SameBytes t) (pa : Nat) : t.dramByte pa = s.dramByte pa := by
  rw [State.dramByte, State.dramByte, h.granuleSet, h.dram]

theorem dramTop (h : s.SameBytes t) : t.dramTop = s.dramTop := by
  rw [State.dramTop, State.dramTop, State.bit, State.bit, State.fld_of_rd h.status]

theorem memByte (h : s.SameBytes t) (pa : Nat) : t.memByte pa = s.memByte pa := by
  rw [State.memByte, State.memByte, h.dramTop, h.line?, h.dramByte]

end State.SameBytes

end Sys2Proof.Machine
end

section
/-! SUPPORT. What the delivery of a line changes (R369, R378, R395, R396, R401, R403). -/

namespace Sys2Proof.Machine

/-! Logs and records of a descriptor's end. -/

/-- An entry of the PF's log is written in the Shuttle's block alone (Table 7.8). -/
theorem State.faultLog_writes (s : State) (tenant : Nat) (slot : Option Nat) (kind cause va ring seq : Nat) :
    s.WritesIn (fun p => p / 0x10000 = 9) (s.faultLog tenant slot kind cause va ring seq) := by
  have hk : s.fld Reg.SHT_FLOG_PTR Reg.SHT_FLOG_PTR_NEXT < 2 ^ 8 := Field.get_lt _ _
  unfold State.faultLog
  extract_lets k w0 s1 s2 s3
  have hblock (n : Nat) (hn : n < 16) : (0x94000 + n + 16 * k) / 0x10000 = 9 := by
    have : k < 2 ^ 8 := hk
    omega
  have h1 : s.WritesIn (fun p => p / 0x10000 = 9) s1 := by
    unfold s1
    split
    · exact (State.WritesIn.refl _ s).bump _ (by decide)
    · exact .refl _ s
  have h2 := (h1.wr (Reg.SHT_FLOG0 k) (BitVec.ofNat 32 w0) (hblock 0 (by decide))).wr (Reg.SHT_FLOG1 k) (BitVec.ofNat 32 va)
    (hblock 4 (by decide))
  have h3 := (h2.wr (Reg.SHT_FLOG2 k) (BitVec.ofNat 32 (va / 2 ^ 32 % 65536 + (ring % 1024) * 2 ^ 16)) (hblock 8 (by decide))).wr
    (Reg.SHT_FLOG3 k) (BitVec.ofNat 32 seq) (hblock 12 (by decide))
  exact h3.setFld _ _ _ (by decide)

/-- The record of a completion carries its status and DETAIL (R200). -/
theorem State.completeDesc_recorded (s : State) (d : Desc) (status detail : Nat) :
    ∃ r, (s.completeDesc d status detail).ten.recs = s.ten.recs ++ [r] ∧ bytesAt r.data 8 1 = d.finalStatus status % 256 ∧
      bytesAt r.data 9 1 = detail % 256 := by
  obtain ⟨tenants, hleft⟩ := s.leftBy_eq d (d.finalStatus status)
  obtain ⟨hten, -⟩ := (s.leftBy d (d.finalStatus status)).postRecord_eq d.ring d.seq d.tenant (d.finalStatus status)
    (s.recData d (d.finalStatus status) detail) d.noRec d.irq false
  rw [← s.completeDesc_eq] at hten
  obtain ⟨-, -, -, hstatus, hdetail, -⟩ := bytesAt_recordBytes d.tag d.seq (d.finalStatus status)
    detail (d.seq / s.ringSize d.ring % 2 == 0) d.late d.cleared d.used d.ring (s.recStart d) s.trd.now.bits
  refine ⟨(s.leftBy d (d.finalStatus status)).recOf d.ring d.seq d.tenant (d.finalStatus status)
    (s.recData d (d.finalStatus status) detail) d.noRec d.irq false, ?_, hstatus, hdetail⟩
  rw [hten, hleft]

theorem Desc.finalStatus_of_ne (d : Desc) (status : Nat) (h : status ≠ 0) : d.finalStatus status = status := if_pos h

/-! The end of a descriptor, and what a line does to its channel. -/

/-- A register that is none of those that the end of a descriptor may write: the Shuttle's block, two counters, and what may be a ring's QRG_CFG or
QRG_DONE_SEQ. -/
abbrev apartFromEnd (o : Nat) : Prop :=
  o / 0x10000 ≠ 9 ∧ o ≠ Reg.HED_ABORT_LOOM_CNT ∧ o ≠ Reg.SLV_COLL_FAIL_CNT ∧ o % 32 ≠ 0x10 ∧ o % 32 ≠ 0x18

/-- From `s` to `t` the end of a descriptor, and changes of the Shuttle, the looms and the scoreboard, are all that has changed. -/
structure State.EndFrame (s t : State) : Prop where
  rest : t = { s with ten := t.ten, regs := t.regs, looms := t.looms, sht := t.sht, slv := t.slv, free := t.free }
  rd : ∀ o, apartFromEnd o → t.rd o = s.rd o

namespace State.EndFrame

variable {s t u : State}

theorem refl (s : State) : s.EndFrame s := ⟨rfl, fun _ _ => rfl⟩

theorem trans (h : s.EndFrame t) (h' : t.EndFrame u) : s.EndFrame u :=
  ⟨by rw [h'.rest, h.rest], fun o ho => (h'.rd o ho).trans (h.rd o ho)⟩

theorem onSht (h : s.EndFrame t) (f : Sht → Sht) : s.EndFrame (t.onSht f) := h.trans ⟨rfl, fun _ _ => rfl⟩

theorem onLoom (h : s.EndFrame t) (p : Nat) (f : Loom → Loom) : s.EndFrame (t.onLoom p f) := h.trans ⟨rfl, fun _ _ => rfl⟩

theorem setDesc (h : s.EndFrame t) (d : Desc) : s.EndFrame (t.setDesc d) := h.trans ⟨rfl, fun _ _ => rfl⟩

theorem nextFree (h : s.EndFrame t) : s.EndFrame t.nextFree.2 := h.trans ⟨rfl, fun _ _ => rfl⟩

theorem shuttleWrites (h : s.EndFrame t) (hw : t.WritesIn (fun p => p / 0x10000 = 9) u) : s.EndFrame u :=
  h.trans ⟨by rw [hw.rest], fun o ⟨ho, _⟩ => hw.rd o ho⟩

theorem completeDesc (h : s.EndFrame t) (d : Desc) (status detail : Nat) (hst : status ≠ 0) (htime : status ≠ 0x20) :
    s.EndFrame (t.completeDesc d status detail) := by
  obtain ⟨-, -, -, -, hrest⟩ := t.completeDesc_keeps d status detail
  refine h.trans ⟨hrest, fun o ⟨_, habort, hcoll, hcfg, hdone⟩ => ?_⟩
  refine State.completeDesc_rd _ _ _ _ _ (by rwa [d.finalStatus_of_ne status hst]) ?_ hcoll
  simp only [List.mem_cons, List.not_mem_nil, or_false, not_or]
  rw [Reg.QRG_DONE_SEQ, Reg.QRG_CFG]
  exact ⟨by omega, by omega, habort⟩

theorem endAtOnce (h : s.EndFrame t) (d : Desc) (status kind cause va : Nat) (hst : status ≠ 0) (htime : status ≠ 0x20) :
    s.EndFrame (t.endAtOnce d status kind cause va) :=
  (h.shuttleWrites (t.faultLog_writes _ _ _ _ _ _ _)).completeDesc d status 0x02 hst htime

theorem bufferLine (h : s.EndFrame t) (loom c : Nat) (d : List Byte) (darn : Bool) : s.EndFrame (t.bufferLine loom c d darn) := by
  unfold State.bufferLine
  extract_lets ch s1
  have h1 : s.EndFrame s1 := by
    unfold s1
    split
    · exact h.onLoom _ _
    · exact h
  exact h1.onSht _

theorem channelLine (h : s.EndFrame t) (loom c later pa : Nat) (d : List Byte) (darn : Bool) :
    s.EndFrame (t.channelLine loom c later pa d darn) := by
  unfold State.channelLine
  extract_lets ch t1 t2 t3 t4
  have h1 : s.EndFrame t1 := h.onSht _
  have h3 : s.EndFrame t3 := by
    unfold t3
    split
    · exact (h1.bufferLine _ _ _ _).onSht _
    · exact h1.bufferLine _ _ _ _
  have h4 : s.EndFrame t4 := h3.shuttleWrites ((State.WritesIn.refl _ t3).bump _ (by decide))
  split
  · exact h1
  · split
    · exact h1.onSht _
    · split
      · exact h3
      · split
        · split
          · exact h4
          · split
            · exact h4.setDesc _
            · exact h4.nextFree.endAtOnce _ _ _ _ _ (by decide) (by decide)
        · exact h4

end State.EndFrame

/-- From `s` to `t` the Shuttle and the looms are all that has changed. -/
def State.BufferOnly (s t : State) : Prop := t = { s with sht := t.sht, looms := t.looms }

theorem State.BufferOnly.refl (s : State) : s.BufferOnly s := rfl

theorem State.BufferOnly.onSht {s t : State} (h : s.BufferOnly t) (f : Sht → Sht) : s.BufferOnly (t.onSht f) := by
  unfold State.BufferOnly at *
  rw [h]; rfl

theorem State.BufferOnly.bufferLine {s t : State} (h : s.BufferOnly t) (loom c : Nat) (d : List Byte) (darn : Bool) :
    s.BufferOnly (t.bufferLine loom c d darn) := by
  have hloom (p : Nat) (f : Loom → Loom) : s.BufferOnly (t.onLoom p f) := by
    unfold State.BufferOnly at *
    rw [h]; rfl
  unfold State.bufferLine
  extract_lets ch t1
  refine State.BufferOnly.onSht ?_ _
  unfold t1
  split
  · exact hloom _ _
  · exact h

/-- An undarned line changes its channel and the scratchpads alone. -/
theorem State.channelLine_clean (s : State) (loom c later pa : Nat) (d : List Byte) :
    s.BufferOnly (s.channelLine loom c later pa d false) := by
  unfold State.channelLine
  extract_lets ch s1 s2 s3 s4
  have h1 : s.BufferOnly s1 := (State.BufferOnly.refl s).onSht _
  split
  · exact h1
  · split
    · exact h1.onSht _
    · rw [if_pos (show (!false) = true from rfl)]
      unfold s3
      split
      · exact (h1.bufferLine _ _ _ _).onSht _
      · exact h1.bufferLine _ _ _ _

/-- An acknowledgement changes its channel alone. -/
theorem State.channelLine_ack (s : State) (loom c later pa : Nat) (darn : Bool) :
    s.channelLine loom c later pa [] darn = { s with sht := (s.channelLine loom c later pa [] darn).sht } := by
  by_cases h : (s.chan loom c).state = .idle ∨ (s.chan loom c).state = .done
  · rw [show s.channelLine loom c later pa [] darn = _ from if_pos h]; rfl
  · rw [show s.channelLine loom c later pa [] darn = _ from if_neg h]; rfl

/-! Deliveries. -/

/-- The delivery that a line makes. -/
def State.delivery (s : State) (later req tag pa : Nat) (d : List Byte) (darn : Bool) : Delivery :=
  ⟨s.trd.cclk + later, req, tag, lineOf pa, d, darn⟩

/-- A line delivered stands among those that have arrived, before its channel takes it. -/
def State.lineArrived (s : State) (x : Delivery) : State := s.onMem fun m => { m with arrived := m.arrived ++ [x] }

theorem State.deliver_eq (s : State) (later req tag pa : Nat) (d : List Byte) (darn : Bool) : s.deliver later req tag pa d darn =
    if req < 32 ∧ tag < 16 then (s.lineArrived (s.delivery later req tag pa d darn)).channelLine req tag later pa d darn
    else s.lineArrived (s.delivery later req tag pa d darn) := rfl

theorem State.deliver_frame (s : State) (later req tag pa : Nat) (d : List Byte) (darn : Bool) :
    (s.lineArrived (s.delivery later req tag pa d darn)).EndFrame (s.deliver later req tag pa d darn) := by
  rw [State.deliver_eq]
  split
  · exact (State.EndFrame.refl _).channelLine _ _ _ _ _ _
  · exact .refl _

/-- Of memory a delivery changes what has arrived alone. -/
@[simp] theorem State.deliver_mem (s : State) (later req tag pa : Nat) (d : List Byte) (darn : Bool) :
    (s.deliver later req tag pa d darn).mem = { s.mem with arrived := s.mem.arrived ++ [s.delivery later req tag pa d darn] } := by
  rw [(s.deliver_frame later req tag pa d darn).rest]
  rfl

theorem State.deliver_rd (s : State) (later req tag pa : Nat) (d : List Byte) (darn : Bool) (o : Nat) (ho : apartFromEnd o) :
    (s.deliver later req tag pa d darn).rd o = s.rd o :=
  (s.deliver_frame later req tag pa d darn).rd o ho

theorem State.deliver_clean (s : State) (later req tag pa : Nat) (d : List Byte) :
    (s.lineArrived (s.delivery later req tag pa d false)).BufferOnly (s.deliver later req tag pa d false) := by
  rw [State.deliver_eq]
  split
  · exact State.channelLine_clean _ _ _ _ _ _
  · rfl

theorem State.deliver_ack (s : State) (later req tag pa : Nat) (darn : Bool) :
    s.deliver later req tag pa [] darn =
      { s.lineArrived (s.delivery later req tag pa [] darn) with sht := (s.deliver later req tag pa [] darn).sht } := by
  rw [State.deliver_eq]
  split
  · exact State.channelLine_ack _ _ _ _ _ _
  · rfl

/-- A delivery leaves every byte of device memory. -/
theorem State.SameBytes.deliver {s t : State} (h : s.SameBytes t) (later req tag pa : Nat) (d : List Byte) (darn : Bool) :
    s.SameBytes (t.deliver later req tag pa d darn) := by
  refine h.trans ⟨?_, ?_, ?_, ?_, t.deliver_rd _ _ _ _ _ _ _ (by decide)⟩ <;> rw [State.deliver_mem]

end Sys2Proof.Machine
end

section
/-! PROOF. The device MMU: translations, their faults, and the invalidation of the TLBs (R357 to R363, R378 to R392, R848). -/

namespace Sys2Proof.Machine

/-! A translation. -/

/-- From `s` to `t` nothing has changed but the TLBs, their order of use and the MMU's counters. -/
structure State.MmuOnly (s t : State) : Prop where
  rest : t = { s with mem := { s.mem with tlb := t.mem.tlb, use := t.mem.use }, regs := t.regs }
  rd : ∀ o, o ≠ Reg.MMU_WALK_CNT → o ≠ Reg.MMU_FAULT_CNT → t.rd o = s.rd o

namespace State.MmuOnly

variable {s t u : State}

theorem refl (s : State) : s.MmuOnly s := ⟨rfl, fun _ _ _ => rfl⟩

theorem trans (h : s.MmuOnly t) (h' : t.MmuOnly u) : s.MmuOnly u :=
  ⟨by rw [h'.rest, h.rest], fun o hw hf => (h'.rd o hw hf).trans (h.rd o hw hf)⟩

theorem setTlb (h : s.MmuOnly t) (l : List TlbEntry) (n : Nat) : s.MmuOnly (t.onMem fun m => { m with tlb := l, use := n }) :=
  h.trans ⟨rfl, fun _ _ _ => rfl⟩

theorem bump (h : s.MmuOnly t) (o : Nat) (ho : o = Reg.MMU_WALK_CNT ∨ o = Reg.MMU_FAULT_CNT) : s.MmuOnly (t.bump o) :=
  h.trans ⟨by rw [State.bump_rest], fun p hw hf => State.rd_bump_ne _ _ _ (by rcases ho with rfl | rfl <;> assumption)⟩

theorem tlbFill (h : s.MmuOnly t) (size : Nat) (e : TlbEntry) : s.MmuOnly (t.tlbFill size e) := by
  have happend {u : State} (h : s.MmuOnly u) :
      s.MmuOnly (u.onMem fun m => { m with tlb := m.tlb ++ [{ e with lru := m.use + 1 }], use := m.use + 1 }) := h.setTlb _ _
  unfold State.tlbFill
  extract_lets full s1
  refine happend ?_
  unfold s1
  split
  · split
    · exact h.setTlb _ t.mem.use
    · exact h
  · exact h

theorem sameBytes (h : s.MmuOnly t) : s.SameBytes t := by
  refine ⟨?_, ?_, ?_, ?_, h.rd _ (by decide) (by decide)⟩ <;> rw [h.rest]

end State.MmuOnly

/-- The walk of a translation that no TLB holds is counted. -/
def State.walkCounted (s : State) (loom tenant va : Nat) : State :=
  if s.bit (Reg.MMU_CTX_LO tenant) Reg.MMU_CTX_LO_EN && (s.tlbHit loom tenant va).isNone then s.bump Reg.MMU_WALK_CNT else s

theorem State.walkCounted_mmuOnly (s : State) (loom tenant va : Nat) : s.MmuOnly (s.walkCounted loom tenant va) := by
  unfold State.walkCounted
  split
  · exact (State.MmuOnly.refl s).bump _ (.inl rfl)
  · exact .refl s

theorem State.walkCounted_faults (s : State) (loom tenant va : Nat) :
    (s.walkCounted loom tenant va).rd Reg.MMU_FAULT_CNT = s.rd Reg.MMU_FAULT_CNT := by
  unfold State.walkCounted
  split
  · exact State.rd_bump_ne _ _ _ (by decide)
  · rfl

/-- What a translation gives is what its address translates to before it (R359, R360). -/
theorem State.translate_fst (s : State) (loom tenant va : Nat) (write mayFill : Bool) :
    (s.translate loom tenant va write mayFill).1 = s.xlate loom tenant va write := by
  unfold State.translate
  cases s.xlate loom tenant va write with
  | fault cause => rfl
  | ok pa vbase bits pbase w =>
    cases s.tlbHit loom tenant va with
    | none => rfl
    | some e => dsimp only; split <;> rfl

theorem State.translate_mmuOnly (s : State) (loom tenant va : Nat) (write mayFill : Bool) :
    s.MmuOnly (s.translate loom tenant va write mayFill).2 := by
  have hwalk := s.walkCounted_mmuOnly loom tenant va
  unfold State.walkCounted at hwalk
  unfold State.translate
  cases s.xlate loom tenant va write with
  | fault cause =>
    have hcount := hwalk.bump Reg.MMU_FAULT_CNT (.inr rfl)
    dsimp only
    split
    · exact hcount.setTlb _ _
    · exact hcount
  | ok pa vbase bits pbase w =>
    cases hhit : s.tlbHit loom tenant va with
    | none =>
      rw [hhit] at hwalk
      dsimp only
      split
      · exact (hwalk.tlbFill _ _).tlbFill _ _
      · exact hwalk
    | some e =>
      rw [hhit] at hwalk
      dsimp only
      split
      · split
        · exact hwalk.tlbFill _ _
        · exact hwalk
      · exact hwalk.setTlb _ _

/-- A translation that faults is counted (R378). -/
theorem State.translate_fault_counted (s : State) (loom tenant va : Nat) (write mayFill : Bool) (cause : Nat)
    (h : s.xlate loom tenant va write = .fault cause) :
    (s.translate loom tenant va write mayFill).2.rd Reg.MMU_FAULT_CNT = counted (s.rd Reg.MMU_FAULT_CNT) := by
  have hcount := (State.rd_bump_self _ _).trans (congrArg counted (s.walkCounted_faults loom tenant va))
  unfold State.translate
  rw [h]
  dsimp only
  split <;> exact hcount

/-! Channels. -/

@[simp] theorem State.chan_setChan (s : State) (loom c : Nat) (x : Chan) : (s.setChan loom c x).chan loom c = x := by
  rw [State.chan, State.setChan, State.onSht, tblGet_tblSet, if_pos rfl]

/-- A channel reads as the table of channels says. -/
theorem State.chan_congr {s t : State} (h : t.sht.chans = s.sht.chans) (loom c : Nat) : t.chan loom c = s.chan loom c := by
  rw [State.chan, State.chan, h]

@[simp] theorem State.chan_bump (s : State) (o loom c : Nat) : (s.bump o).chan loom c = s.chan loom c :=
  State.chan_congr (by rw [State.bump_rest]) loom c

/-- A change of a table's values leaves the one that it would change to itself. -/
theorem tblGet_map_of_fix {α : Type} (d : Nat → α) (t : Tbl α) (f : α → α) (k : Nat) (h : f (tblGet d t k) = tblGet d t k) :
    tblGet d (t.map fun e => (e.1, f e.2)) k = tblGet d t k := by
  induction t with
  | nil => rfl
  | cons e t ih =>
    by_cases hk : e.1 = k
    · simpa only [List.map_cons, tblGet, hk, if_true] using h
    · simp only [List.map_cons, tblGet, hk, if_false] at h ⊢
      exact ih h

/-- A change of a descriptor's channels leaves one that it would change to itself. -/
theorem State.chan_onChansOf_of_fix (s : State) (ring seq loom c : Nat) (f : Chan → Chan) (h : f (s.chan loom c) = s.chan loom c) :
    (s.onChansOf ring seq f).chan loom c = s.chan loom c := by
  have hmap : (s.onChansOf ring seq f).sht.chans =
      s.sht.chans.map fun e => (e.1, if e.2.ring == ring && e.2.seq == seq && !e.2.raster then f e.2 else e.2) :=
    List.map_congr_left fun e _ => by split <;> rfl
  rw [State.chan, hmap]
  refine tblGet_map_of_fix _ _ (fun x => if x.ring == ring && x.seq == seq && !x.raster then f x else x) _ ?_
  split
  · exact h
  · rfl

/-- A channel that resumes runs again (R391). -/
theorem State.chan_resumed (s : State) (loom c : Nat) (ch : Chan) :
    (s.resumed loom c ch).chan loom c = { ch with state := .run, fault := none, slot := none, retry := false } := by
  unfold State.resumed
  extract_lets s1 s2
  have h1 : s1.chan loom c = { ch with state := .run, fault := none, slot := none, retry := false } :=
    (State.chan_congr (s := s.setChan loom c { ch with state := .run, fault := none, slot := none, retry := false }) rfl loom c).trans
      (s.chan_setChan loom c _)
  have h2 : s2.chan loom c = { ch with state := .run, fault := none, slot := none, retry := false } := by
    refine (State.chan_onChansOf_of_fix _ _ _ _ _ _ ?_).trans h1
    rw [h1]
    rfl
  split
  · exact h1
  · split
    · exact (State.chan_congr rfl loom c).trans h2
    · exact h2

/-! Faults of a channel. -/

/-- A fault whose cause is none of the tenant's to mend ends the descriptor at once, with a record of DETAIL 0x02 (R384). -/
theorem State.endAtOnce_completes (s : State) (d : Desc) (kind cause va : Nat) :
    let t := s.endAtOnce d 0x10 kind cause va
    t.desc? d.ring d.seq = none ∧ t.rd Reg.MMU_FAULT_CNT = s.rd Reg.MMU_FAULT_CNT ∧
      ∃ r, t.ten.recs = s.ten.recs ++ [r] ∧ bytesAt r.data 8 1 = 0x10 ∧ bytesAt r.data 9 1 = 2 := by
  intro t
  have hstatus : d.finalStatus 0x10 = 0x10 := d.finalStatus_of_ne 0x10 (by decide)
  obtain ⟨r, hrecs, hst, hdetail⟩ := (s.faultLog d.tenant none kind cause va d.ring d.seq).completeDesc_recorded d 0x10 0x02
  have hlog := s.faultLog_writes d.tenant none kind cause va d.ring d.seq
  have hten : (s.faultLog d.tenant none kind cause va d.ring d.seq).ten = s.ten := by rw [hlog.rest]
  rw [hten] at hrecs
  rw [hstatus] at hst
  refine ⟨State.desc?_completeDesc _ _ _ _, ?_, r, hrecs, hst, hdetail⟩
  have hne : d.finalStatus 0x10 ≠ 0x20 := by omega
  have hcoll : Reg.MMU_FAULT_CNT ≠ Reg.SLV_COLL_FAIL_CNT := by decide
  refine (State.completeDesc_rd _ d _ _ _ hne ?_ hcoll).trans (hlog.rd _ (by rw [Reg.MMU_FAULT_CNT]; decide))
  simp only [List.mem_cons, List.not_mem_nil, or_false, not_or, Reg.MMU_FAULT_CNT, Reg.QRG_DONE_SEQ, Reg.QRG_CFG, Reg.HED_ABORT_LOOM_CNT]
  omega

/-- A line that a channel's buffer takes leaves the channel's position (R396). -/
theorem State.bufferLine_pos (s : State) (loom c : Nat) (d : List Byte) (darn : Bool) :
    ((s.bufferLine loom c d darn).chan loom c).pos = (s.chan loom c).pos := by
  unfold State.bufferLine
  extract_lets ch s1
  rw [State.chan_setChan]

/-- A darned line of a running raster channel is buffered and counted, and ends nothing (R395). -/
theorem State.channelLine_raster_pos (s : State) (loom c later pa : Nat) (d : List Byte) (hd : d.isEmpty = false)
    (hraster : (s.chan loom c).raster = true) (hrun : (s.chan loom c).state = .run) :
    ((s.channelLine loom c later pa d true).chan loom c).pos = (s.chan loom c).pos := by
  unfold State.channelLine
  extract_lets ch s1 s2 s3 s4
  have h2 : (s2.chan loom c).pos = ch.pos := s1.bufferLine_pos loom c d true
  have h3 : (s3.chan loom c).pos = ch.pos := by
    unfold s3
    split
    · exact h2
    · exact h2
  have h4 : (s4.chan loom c).pos = ch.pos := (congrArg Chan.pos (s3.chan_bump _ loom c)).trans h3
  have hstate : ch.state = .run := hrun
  have hmark : ch.raster = true := hraster
  rw [if_neg (by simp [hstate]), if_neg (by simp [hd]), if_neg (by decide)]
  split
  · rw [if_pos hmark]
    exact h4
  · exact h4

/-! What a fault of a channel leaves. -/

/-- A fault of a raster channel gives it a darned line of zeros and moves it on (R395). -/
theorem State.channelFault_raster (s : State) (loom : Fin 32) (c : Fin 16) (ch : Chan) (cause va : Nat) (h : ch.raster = true)
    (hrun : ch.state = .run) :
    let t := s.channelFault loom c ch cause va
    (t.chan loom c).pos = ch.pos + 128 ∧ t.mem.arrived = s.mem.arrived ++ [⟨s.trd.cclk, loom, c, 0, zeroLine, true⟩] ∧
      t.rd Reg.MMU_FAULT_CNT = s.rd Reg.MMU_FAULT_CNT := by
  intro t
  have ht : t = (s.setChan loom c { ch with pos := ch.pos + 128 }).deliver 0 loom c 0 zeroLine true := if_pos h
  refine ⟨?_, ?_, ?_⟩
  · rw [ht, State.deliver_eq, if_pos ⟨loom.isLt, c.isLt⟩, State.channelLine_raster_pos _ _ _ _ _ _ rfl]
    · exact congrArg Chan.pos (State.chan_setChan s loom c _)
    · exact (congrArg Chan.raster (State.chan_setChan s loom c _)).trans h
    · exact (congrArg Chan.state (State.chan_setChan s loom c _)).trans hrun
  · rw [ht, State.deliver_mem]
    rfl
  · rw [ht]
    exact State.deliver_rd _ _ _ _ _ _ _ _ (by decide)

/-- What a recoverable fault of a channel records (Table 7.1). -/
def State.faultOf (s : State) (ch : Chan) (cause va : Nat) : Fault7 :=
  { kind := 0, cause := cause, write := ch.writes, va := va, cclk := s.trd.cclk, stamp := s.trd.now }

/-- A recoverable fault halts its channel's translation (R378). -/
theorem State.channelFault_halts (s : State) (loom c : Nat) (ch : Chan) (cause va : Nat) (hraster : ch.raster = false) (hcause : cause < 3)
    (hretry : ch.retry = false) :
    s.channelFault loom c ch cause va = s.setChan loom c { ch with fault := some (s.faultOf ch cause va) } := by
  unfold State.channelFault
  rw [if_neg (by simp [hraster]), if_neg (by omega), if_neg (by simp [hretry])]
  rfl

/-- A fault on a resume is counted, and its channel halts again (R392). -/
theorem State.channelFault_refaults (s : State) (loom c : Nat) (ch : Chan) (cause va : Nat) (hraster : ch.raster = false) (hcause : cause < 3)
    (hretry : ch.retry = true) :
    let t := s.channelFault loom c ch cause va
    t.chan loom c = { ch with fault := some (s.faultOf ch cause va), retry := false, owed := true } ∧
      t.rd Reg.SHT_REFAULT_CNT = counted (s.rd Reg.SHT_REFAULT_CNT) := by
  intro t
  have ht : t = s.channelFault loom c ch cause va := rfl
  unfold State.channelFault at ht
  rw [if_neg (by simp [hraster]), if_neg (by omega), if_pos hretry] at ht
  refine ⟨?_, ?_⟩
  · rw [ht, State.chan_bump]
    exact s.chan_setChan loom c { ch with fault := some (s.faultOf ch cause va), retry := false, owed := true }
  · rw [ht]
    exact State.rd_bump_self _ _

/-- Any other fault ends the descriptor (R384). -/
theorem State.channelFault_ends (s : State) (loom c : Nat) (ch : Chan) (cause va : Nat) (hraster : ch.raster = false) (hcause : 3 ≤ cause)
    (d : Desc) (hd : s.desc? ch.ring ch.seq = some d) : s.channelFault loom c ch cause va = s.endAtOnce d 0x10 0 cause va := by
  unfold State.channelFault
  rw [if_neg (by simp [hraster]), if_pos hcause, hd]

/-- What a fault does to its channel is no second fault. -/
theorem State.channelFault_faults (s : State) (loom c : Nat) (ch : Chan) (cause va : Nat) :
    (s.channelFault loom c ch cause va).rd Reg.MMU_FAULT_CNT = s.rd Reg.MMU_FAULT_CNT := by
  unfold State.channelFault
  extract_lets f s1 s2
  split
  · exact State.deliver_rd _ _ _ _ _ _ _ _ (by decide)
  · split
    · split
      · exact (s.endAtOnce_completes _ 0 cause va).2.1
      · rfl
    · split
      · exact (State.rd_bump_ne _ _ _ (by decide)).trans rfl
      · rfl

/-- What a fault of a running channel leaves: a darned line of a raster channel, a halt that RESUME may end, or the descriptor's end
(R378, R384, R395). -/
theorem State.channelFault_of_running (s : State) (loom : Fin 32) (c : Fin 16) (ch : Chan) (cause va : Nat) (hrun : ch.state = .run)
    (hr : ch.retry = false) :
    let t := s.channelFault loom c ch cause va
    (ch.raster = true → (t.chan loom c).pos = ch.pos + 128 ∧
      (⟨s.trd.cclk, loom, c, 0, List.replicate 128 0#8, true⟩ : Delivery) ∈ t.mem.arrived) ∧
    (ch.raster = false → cause < 3 → ∃ f, (t.chan loom c).fault = some f ∧ t.chan loom c = { ch with fault := some f } ∧ f.cause = cause ∧
      f.kind = 0 ∧ f.va = va ∧ f.write = ch.writes ∧ f.stamp = s.trd.now) ∧
    (ch.raster = false → 3 ≤ cause → ∀ d, (s.ten.descs.find? fun x => x.ring == ch.ring && x.seq == ch.seq) = some d →
      t.desc? ch.ring ch.seq = none ∧ ∃ r, t.ten.recs = s.ten.recs ++ [r] ∧ bytesAt r.data 8 1 = 0x10 ∧ bytesAt r.data 9 1 = 2) := by
  refine ⟨fun hraster => ?_, fun hraster hcause => ?_, fun hraster hcause d hd => ?_⟩
  · obtain ⟨hmoved, harrived, -⟩ := s.channelFault_raster loom c ch cause va hraster hrun
    refine ⟨hmoved, ?_⟩
    rw [harrived]
    exact List.mem_append_right _ (List.mem_singleton_self _)
  · rw [State.channelFault_halts _ _ _ _ _ _ hraster hcause hr]
    exact ⟨s.faultOf ch cause va, congrArg Chan.fault (State.chan_setChan _ _ _ _), State.chan_setChan _ _ _ _, rfl, rfl, rfl, rfl, rfl⟩
  · obtain ⟨-, hring, hseq⟩ := State.desc?_some hd
    obtain ⟨hgone, -, r, hrecs, hstatus, hdetail⟩ := s.endAtOnce_completes d 0 cause va
    rw [State.channelFault_ends _ _ _ _ _ _ hraster hcause d hd]
    rw [hring, hseq] at hgone
    exact ⟨hgone, r, hrecs, hstatus, hdetail⟩

/-! The command. -/

/-- The address of the line that a channel translates next: the faulted one of a resuming channel. -/
def Chan.nextVa (ch : Chan) : Nat := if ch.retry then (ch.fault.map fun f => f.va).getD ch.lineVa else ch.lineVa

/-- The access of that line. -/
def Chan.nextWrites (ch : Chan) : Bool := if ch.retry then (ch.fault.map fun f => f.write).getD ch.writes else ch.writes

/-- The channel has no line to translate. -/
def Chan.idles (ch : Chan) : Bool :=
  ch.xlated.isSome || (decide (ch.total ≤ ch.pos) && !ch.retry) || !(ch.state == .run || ch.retry) ||
    (ch.fault.isSome && !ch.retry) || ch.fault.any (fun f => f.kind == 1)

/-- The state in which a walk begun at `began` has taken its CCLK (R360, R390). -/
def State.walked (s : State) (loom : Nat) (ch : Chan) (began : Nat) : State :=
  s.nextFree.2.elapseTo (max began (s.xlateFrom ch) + s.xlateCclk loom ch.tenant ch.nextVa)

/-- A walk begun after the last invalidation landed may fill the TLBs (R362). -/
def State.mayFill (s : State) (began : Nat) : Bool :=
  match s.mem.inval with
  | some i => decide (i.landed < began)
  | none => true

/-- The state once a channel's next line has been translated. -/
def State.translated (s : State) (loom : Nat) (ch : Chan) (began : Nat) : State :=
  ((s.walked loom ch began).translate loom ch.tenant ch.nextVa ch.nextWrites (s.mayFill began)).2

theorem exec_translation_idle (s : State) (loom : Fin 32) (c : Fin 16) (began : Nat) (h : (s.chan loom c).idles = true) :
    exec (.translation loom c began) s = .next s := if_pos h

theorem exec_translation_phys (s : State) (loom : Fin 32) (c : Fin 16) (began : Nat) (h : (s.chan loom c).idles = false)
    (hphys : (s.chan loom c).phys = true) :
    exec (.translation loom c began) s = .next (s.setChan loom c { s.chan loom c with xlated := some (s.chan loom c).lineVa }) :=
  (if_neg (ne_true_of_eq_false h)).trans (if_pos hphys)

section
variable (s : State) (loom : Fin 32) (c : Fin 16) (began : Nat) (h : (s.chan loom c).idles = false) (hphys : (s.chan loom c).phys = false)
include h hphys

theorem exec_translation_ok {pa v b p : Nat} {w : Bool} (hx : (s.walked loom (s.chan loom c) began).xlate loom (s.chan loom c).tenant
      (s.chan loom c).nextVa (s.chan loom c).nextWrites = .ok pa v b p w) :
    exec (.translation loom c began) s = .next (if (s.chan loom c).retry then
        (s.translated loom (s.chan loom c) began).resumed loom c { s.chan loom c with xlated := some pa }
      else (s.translated loom (s.chan loom c) began).setChan loom c { s.chan loom c with xlated := some pa }) := by
  refine (if_neg (ne_true_of_eq_false h)).trans ((if_neg (ne_true_of_eq_false hphys)).trans ?_)
  have hfst := (State.translate_fst _ loom (s.chan loom c).tenant (s.chan loom c).nextVa (s.chan loom c).nextWrites (s.mayFill began)).trans hx
  dsimp only
  split
  case h_1 heq => exact absurd (hfst.symm.trans heq) (by simp)
  case h_2 heq => obtain ⟨rfl, -⟩ := Xlated.ok.inj (hfst.symm.trans heq); rfl

theorem exec_translation_fault {cause : Nat} (hx : (s.walked loom (s.chan loom c) began).xlate loom (s.chan loom c).tenant
      (s.chan loom c).nextVa (s.chan loom c).nextWrites = .fault cause) :
    exec (.translation loom c began) s =
      .next ((s.translated loom (s.chan loom c) began).channelFault loom c (s.chan loom c) cause (s.chan loom c).nextVa) := by
  refine (if_neg (ne_true_of_eq_false h)).trans ((if_neg (ne_true_of_eq_false hphys)).trans ?_)
  have hfst := (State.translate_fst _ loom (s.chan loom c).tenant (s.chan loom c).nextVa (s.chan loom c).nextWrites (s.mayFill began)).trans hx
  dsimp only
  split
  case h_1 heq => rw [Xlated.fault.inj (hfst.symm.trans heq)]; rfl
  case h_2 heq => exact absurd (hfst.symm.trans heq) (by simp)

end

/-- A channel that runs and has met no fault has a line to translate until its walk's end. -/
theorem Chan.idles_of_running (ch : Chan) (hx : ch.xlated = none) (hrun : ch.state = .run) (hpos : ch.pos < ch.total) (hf : ch.fault = none)
    (hr : ch.retry = false) : ch.idles = false := by
  simp [Chan.idles, hx, hrun, hf, hr, hpos]

/-- A resuming channel has its faulted line to translate (R390). -/
theorem Chan.idles_of_resuming (ch : Chan) (f : Fault7) (hx : ch.xlated = none) (hf : ch.fault = some f) (hk : f.kind = 0)
    (hr : ch.retry = true) : ch.idles = false := by
  simp [Chan.idles, hx, hf, hr, hk]

theorem Chan.idles_of (ch : Chan) (h : ch.xlated ≠ none ∨ (∃ f, ch.fault = some f ∧ (f.kind = 1 ∨ ch.retry = false)) ∨
    (ch.retry = false ∧ (ch.state ≠ .run ∨ ch.total ≤ ch.pos))) : ch.idles = true := by
  rcases h with h | ⟨f, hf, hk | hr⟩ | ⟨hr, hs | hp⟩
  · simp [Chan.idles, Option.isSome_iff_ne_none.mpr h]
  · simp [Chan.idles, hf, hk]
  · simp [Chan.idles, hf, hr]
  · simp [Chan.idles, hr, hs]
  · simp [Chan.idles, hr, hp]

theorem State.translated_mmuOnly (s : State) (loom : Nat) (ch : Chan) (began : Nat) :
    (s.walked loom ch began).MmuOnly (s.translated loom ch began) :=
  State.translate_mmuOnly _ _ _ _ _ _

/-- The fault of a channel's translation is counted once. -/
theorem State.translated_faults (s : State) (loom c : Nat) (ch : Chan) (began cause va : Nat)
    (hx : (s.walked loom ch began).xlate loom ch.tenant ch.nextVa ch.nextWrites = .fault cause) :
    ((s.translated loom ch began).channelFault loom c ch cause va).rd Reg.MMU_FAULT_CNT =
      counted ((s.walked loom ch began).rd Reg.MMU_FAULT_CNT) :=
  (State.channelFault_faults _ _ _ _ _ _).trans (State.translate_fault_counted _ _ _ _ _ _ _ hx)

/-! Invalidation. -/

theorem mem_filter_not_selected (l : List TlbEntry) (scope tenant va : Nat) (x : TlbEntry) :
    x ∈ l.filter (fun e => !e.selected scope tenant va) ↔ x ∈ l ∧ x.selected scope tenant va = false := by
  simp

theorem filter_not_selected_all (l : List TlbEntry) (tenant va : Nat) : l.filter (fun e => !e.selected 0 tenant va) = [] := by
  simp [TlbEntry.selected]

theorem TlbEntry.selected_tenant (x : TlbEntry) (tenant va : Nat) : x.selected 1 tenant va = false ↔ x.tenant ≠ tenant := by
  simp [TlbEntry.selected]

theorem TlbEntry.selected_page (x : TlbEntry) (tenant va : Nat) :
    x.selected 2 tenant va = false ↔ ¬(x.tenant = tenant ∧ x.vbase = va % 2 ^ 48 / 2 ^ x.bits * 2 ^ x.bits) := by
  simp [TlbEntry.selected, TlbEntry.covers]

/-- The invalidation that a write of MMU_INV asks for (Table 6.10). -/
def State.askedInval (s : State) (v : Word) : Inval where
  scope := Reg.MMU_INV_SCOPE.get v % 3
  tenant := Reg.MMU_INV_TENANT.get v
  va := 4096 * s.fld Reg.MMU_INV_VA_LO Reg.MMU_INV_VA_LO_VA + 2 ^ 32 * s.fld Reg.MMU_INV_VA_HI Reg.MMU_INV_VA_HI_VA
  landed := s.trd.cclk

/-- The invalidation in hand once one that is asked for meets one in progress (R363). -/
def Inval.widened (i new : Inval) : Inval :=
  if i.scope = new.scope ∧ (new.scope = 0 ∨ i.tenant = new.tenant) ∧ (new.scope ≠ 2 ∨ i.va = new.va) then new
  else if i.scope ≠ 0 ∧ new.scope ≠ 0 ∧ i.tenant = new.tenant then { new with scope := 1 }
  else { new with scope := 0 }

theorem Inval.widened_landed (i new : Inval) : (i.widened new).landed = new.landed := by
  unfold Inval.widened
  split
  · rfl
  · split <;> rfl

/-- Invalidations that do not name one tenant both widen to all tenants (R363). -/
theorem Inval.widened_all (i new : Inval) (h : i.scope = 0 ∨ new.scope = 0 ∨ i.tenant ≠ new.tenant) : (i.widened new).scope = 0 := by
  unfold Inval.widened
  split
  case isTrue hsame =>
    obtain ⟨hscope, htenant, -⟩ := hsame
    rcases h with h | h | h
    · exact hscope.symm.trans h
    · exact h
    · exact htenant.resolve_right h
  case isFalse =>
    split
    case isTrue hone =>
      obtain ⟨hi, hnew, htenant⟩ := hone
      rcases h with h | h | h
      · exact absurd h hi
      · exact absurd h hnew
      · exact absurd htenant h
    case isFalse => rfl

/-- An invalidation takes effect: what it selects leaves the TLBs and BUSY reads 1 (R362). -/
def State.invalidate (s : State) (i : Inval) : State :=
  (s.onMem fun m => { m with tlb := m.tlb.filter fun e => !e.selected i.scope i.tenant i.va, inval := some i }).setFld
    Reg.MMU_INV_STATUS Reg.MMU_INV_STATUS_BUSY 1

theorem State.invalidate_tlb (s : State) (i : Inval) :
    (s.invalidate i).mem.tlb = s.mem.tlb.filter fun e => !e.selected i.scope i.tenant i.va := rfl

theorem State.invalidate_busy (s : State) (i : Inval) : (s.invalidate i).fld Reg.MMU_INV_STATUS Reg.MMU_INV_STATUS_BUSY = 1 :=
  State.fld_setFld_of_lt _ _ _ _ (by decide) (by decide)

/-- The translations that each SCOPE takes from the TLBs (R362). -/
theorem State.askedInval_selects (s : State) (v : Word) :
    let t := s.invalidate (s.askedInval v)
    let va := (s.askedInval v).va
    (Reg.MMU_INV_SCOPE.get v = 0 ∨ Reg.MMU_INV_SCOPE.get v = 3 → t.mem.tlb = []) ∧
      (Reg.MMU_INV_SCOPE.get v = 1 → ∀ x, x ∈ t.mem.tlb ↔ x ∈ s.mem.tlb ∧ x.tenant ≠ Reg.MMU_INV_TENANT.get v) ∧
      (Reg.MMU_INV_SCOPE.get v = 2 → ∀ x, x ∈ t.mem.tlb ↔ x ∈ s.mem.tlb ∧
        ¬(x.tenant = Reg.MMU_INV_TENANT.get v ∧ x.vbase = va % 2 ^ 48 / 2 ^ x.bits * 2 ^ x.bits)) := by
  refine ⟨fun hscope => ?_, fun hscope x => ?_, fun hscope x => ?_⟩
  · have hall : (s.askedInval v).scope = 0 := by
      change Reg.MMU_INV_SCOPE.get v % 3 = 0
      omega
    rw [State.invalidate_tlb, hall, filter_not_selected_all]
  · have hone : (s.askedInval v).scope = 1 := congrArg (· % 3) hscope
    rw [State.invalidate_tlb, mem_filter_not_selected, hone, TlbEntry.selected_tenant]
    rfl
  · have htwo : (s.askedInval v).scope = 2 := congrArg (· % 3) hscope
    rw [State.invalidate_tlb, mem_filter_not_selected, htwo, TlbEntry.selected_page]
    rfl

theorem exec_mmuInv_go (s : State) (v : Word) (h : Reg.MMU_INV_GO.get v = 1) : exec (.mmuInv v) s = .next (s.invalidate
    (s.mem.inval.elim (s.askedInval v) fun i => i.widened (s.askedInval v))) := by
  have hgo : Reg.MMU_INV_GO.get v ≠ 0 := by omega
  change Host.Outcome.next (s.landMmuInv v) = _
  unfold State.landMmuInv
  rw [if_neg hgo]
  cases s.mem.inval <;> rfl

/-- BUSY clears once 16 CCLK have passed since the landing (R362). -/
theorem exec_mmuInvDone_busy (s : State) (i : Inval) (h : s.mem.inval = some i) :
    exec .mmuInvDone s = .next (((s.elapseTo (i.landed + 16)).onMem fun m => { m with inval := none }).setFld Reg.MMU_INV_STATUS
      Reg.MMU_INV_STATUS_BUSY 0) := by
  change execMmuInvDone s = _
  rw [execMmuInvDone, h]

/-- Settles O37: a walk leaves everything but the TLBs and the MMU's counters, and what follows is the channel's. -/
theorem theMmuTranslates : Obligations.TheMmuTranslates := by
  intro s
  refine ⟨fun loom c began => ?_, fun loom ten va w hen => if_pos hen, fun v => ⟨?_, ?_, ?_⟩, fun hi => ?_, fun i hi => ?_⟩
  · intro ch va write s0
    have hkept := s.translated_mmuOnly loom ch began
    have hframe : s.translated loom ch began = { s0 with mem := (s.translated loom ch began).mem, regs := (s.translated loom ch began).regs } := by
      rw [hkept.rest]; rfl
    refine ⟨fun h => exec_translation_idle s loom c began (ch.idles_of h), fun hx hrun hpos hf hr => ⟨fun hphys => ?_, fun hphys => ⟨?_, ?_⟩⟩,
      fun f0 hf hx hr hk hphys => ⟨?_, ?_⟩⟩
    · exact ⟨_, exec_translation_phys s loom c began (ch.idles_of_running hx hrun hpos hf hr) hphys, s.chan_setChan _ _ _, rfl⟩
    · intro pa v b p w hok
      have hexec := exec_translation_ok s loom c began (ch.idles_of_running hx hrun hpos hf hr) hphys hok
      rw [if_neg (ne_true_of_eq_false hr)] at hexec
      refine ⟨_, hexec, State.chan_setChan _ _ _ _, hkept.sameBytes.memByte, ?_⟩
      rw [hframe]; rfl
    · intro cause hfault
      have hexec : exec (.translation loom c began) s = .next ((s.translated loom ch began).channelFault loom c ch cause va) :=
        exec_translation_fault s loom c began (ch.idles_of_running hx hrun hpos hf hr) hphys hfault
      have hwrite : write = ch.writes := if_neg (ne_true_of_eq_false hr)
      have hten : (s.translated loom ch began).ten = s0.ten := by rw [hframe]
      have htrd : (s.translated loom ch began).trd = s0.trd := by rw [hframe]
      obtain ⟨hraster, hhalts, hends⟩ := (s.translated loom ch began).channelFault_of_running loom c ch cause va hrun hr
      rw [htrd] at hraster hhalts
      rw [hten] at hends
      rw [← hwrite] at hhalts
      exact ⟨_, hexec, s.translated_faults loom c ch began cause va hfault, hraster, hhalts, hends⟩
    · intro pa v b p w hok
      have hexec := exec_translation_ok s loom c began (ch.idles_of_resuming f0 hx hf hk hr) hphys hok
      rw [if_pos hr] at hexec
      refine ⟨_, hexec, ?_⟩
      rw [State.chan_resumed]
      exact ⟨rfl, rfl, rfl, rfl, rfl⟩
    · intro cause hfault hraster hcause
      have hexec := exec_translation_fault s loom c began (ch.idles_of_resuming f0 hx hf hk hr) hphys hfault
      obtain ⟨hchan, hcount⟩ := (s.translated loom ch began).channelFault_refaults loom c ch cause va hraster hcause hr
      refine ⟨_, (s.translated loom ch began).faultOf ch cause va, hexec, ?_, hchan, rfl, hcount.trans (congrArg counted ?_)⟩
      · exact congrArg Chan.fault hchan
      · exact hkept.rd _ (by decide) (by decide)
  · intro hgo
    exact congrArg Host.Outcome.next (if_pos hgo)
  · intro hgo hi va
    have hexec := exec_mmuInv_go s v hgo
    rw [hi, Option.elim_none] at hexec
    obtain ⟨hall, htenant, hpage⟩ := s.askedInval_selects v
    exact ⟨_, hexec, State.invalidate_busy _ _, fun x hx => List.mem_of_mem_filter hx, hall, htenant, hpage, rfl⟩
  · intro hgo i hi
    have hexec := exec_mmuInv_go s v hgo
    rw [hi, Option.elim_some] at hexec
    refine ⟨_, i.widened (s.askedInval v), hexec, rfl, i.widened_landed _, fun h => ?_, State.invalidate_busy _ _, rfl⟩
    have hall := i.widened_all (s.askedInval v) h
    refine ⟨hall, ?_⟩
    rw [State.invalidate_tlb, hall, filter_not_selected_all]
  · change execMmuInvDone s = _
    rw [execMmuInvDone, hi]
  · exact ⟨_, exec_mmuInvDone_busy s i hi, rfl, State.fld_setFld_of_lt _ _ _ _ (by decide) (by decide), rfl⟩

end Sys2Proof.Machine
end

section
/-! SUPPORT. Stores to DRAM, and what the passing of CCLK leaves of memory (R320, R323). -/

namespace Sys2Proof.Machine

theorem mem_insertNat (x y : Nat) (l : List Nat) : y ∈ insertNat x l ↔ y = x ∨ y ∈ l := by
  induction l with
  | nil => simp [insertNat]
  | cons z l ih =>
    unfold insertNat
    split
    · simp
    · split
      · next h => subst h; simp
      · rw [List.mem_cons, ih, List.mem_cons]; tauto

/-- Of memory a store changes DRAM and the written-map alone. -/
theorem State.dramStore_mem (s : State) (pa : Nat) (l : List Byte) :
    (s.dramStore pa l).mem = { s.mem with dram := (s.dramStore pa l).mem.dram, wmap := (s.dramStore pa l).mem.wmap } := by
  induction l generalizing s pa with
  | nil => rfl
  | cons b l ih => rw [State.dramStore, ih]; rfl

theorem State.granuleSet_iff (s : State) (a : Nat) : s.granuleSet a = true ↔ a / 4096 ∈ s.mem.wmap := List.contains_iff_mem

/-- A store sets the granules of its bytes (R323), and clears none. -/
theorem State.granuleSet_dramStore (s : State) (pa a : Nat) (l : List Byte)
    (h : s.granuleSet a = true ∨ (pa ≤ a ∧ a < pa + l.length)) : (s.dramStore pa l).granuleSet a = true := by
  induction l generalizing s pa with
  | nil => exact h.resolve_right (by simp only [List.length_nil]; omega)
  | cons b l ih =>
    rw [State.dramStore]
    refine ih _ _ ?_
    rcases h with h | ⟨hle, hlt⟩
    · refine .inl ((State.granuleSet_iff _ _).mpr ?_)
      exact (mem_insertNat _ _ _).mpr (.inr ((s.granuleSet_iff a).mp h))
    · rcases Nat.eq_or_lt_of_le hle with rfl | hlt'
      · refine .inl ((State.granuleSet_iff _ _).mpr ?_)
        exact (mem_insertNat _ _ _).mpr (.inl rfl)
      · simp only [List.length_cons] at hlt
        exact .inr ⟨by omega, by omega⟩

/-- A stored byte reads back. -/
theorem State.dramByte_dramStore_self (s : State) (pa : Nat) (l : List Byte) (i : Nat) (h : i < l.length) :
    (s.dramStore pa l).dramByte (pa + i) = l[i] := by
  rw [State.dramByte, if_pos (s.granuleSet_dramStore pa (pa + i) l (.inr ⟨by omega, by omega⟩)), State.dram_dramStore, dif_pos (by omega)]
  simp

/-- A store leaves every other byte of a written granule. -/
theorem State.dramByte_dramStore_ne (s : State) (pa a : Nat) (l : List Byte) (h : a < pa ∨ pa + l.length ≤ a) (hset : s.granuleSet a = true) :
    (s.dramStore pa l).dramByte a = s.dramByte a := by
  rw [State.dramByte, if_pos (s.granuleSet_dramStore pa a l (.inl hset)), State.dram_dramStore, dif_neg (by omega), State.dramByte, if_pos hset]

theorem State.mem_elapse (n : Nat) (s : State) : (State.elapse n s).mem = s.mem := by rw [s.clockOnly_elapse n]

/-! Channels. -/

/-- A channel reads as the table of channels says. -/
theorem State.channel_congr {s t : State} (h : t.mem = s.mem) (c : Nat) : t.channel c = s.channel c := by
  rw [State.channel, State.channel, h]

@[simp] theorem State.channel_setChannel (s : State) (c : Nat) (x : Channel) : (s.setChannel c x).channel c = x := by
  rw [State.channel, State.setChannel, State.onMem, tblGet_tblSet, if_pos rfl]

@[simp] theorem State.channel_bump (s : State) (o c : Nat) : (s.bump o).channel c = s.channel c :=
  State.channel_congr (by rw [State.bump_rest]) c

end Sys2Proof.Machine
end

section
/-! PROOF. The DRAM channels: slots, grants, returns, refresh windows and the scrub (R329 to R333, R340 to R356). -/

namespace Sys2Proof.Machine

/-! The order of requests (R346). -/

theorem DramReq.before_iff (a b : DramReq) : a.before b = true ↔
    a.cclk < b.cclk ∨ (a.cclk = b.cclk ∧ (a.req < b.req ∨ (a.req = b.req ∧ a.age < b.age))) := by
  simp [DramReq.before]

theorem DramReq.before_false_iff (a b : DramReq) : a.before b = false ↔
    ¬(a.cclk < b.cclk ∨ (a.cclk = b.cclk ∧ (a.req < b.req ∨ (a.req = b.req ∧ a.age < b.age)))) := by
  rw [← DramReq.before_iff, Bool.not_eq_true]

theorem DramReq.before_self (a : DramReq) : a.before a = false := by
  rw [DramReq.before_false_iff]
  omega

/-- None stands before a request that stands before one that none stands before. -/
theorem DramReq.before_of_before {a b x : DramReq} (h : a.before b = true) (hx : x.before b = false) : x.before a = false := by
  rw [DramReq.before_iff] at h
  rw [DramReq.before_false_iff] at hx ⊢
  omega

/-- A request of a list that no other of it stands before. -/
def DramReq.firstOf (q : DramReq) (l : List DramReq) : Prop := q ∈ l ∧ ∀ x ∈ l, x.before q = false

/-- What the search for the first of some requests keeps, once it has found one. -/
def firstStep (best : Option DramReq) (q : DramReq) : Option DramReq :=
  match best with
  | none => some q
  | some b => if q.before b then some q else some b

theorem foldl_firstStep (l seen : List DramReq) (b : DramReq) (hb : b.firstOf seen) :
    ∃ q, l.foldl firstStep (some b) = some q ∧ q.firstOf (seen ++ l) := by
  induction l generalizing seen b with
  | nil => exact ⟨b, rfl, by rwa [List.append_nil]⟩
  | cons x l ih =>
    obtain ⟨hmem, hmin⟩ := hb
    have hstep : ∃ q, firstStep (some b) x = some q ∧ q.firstOf (seen ++ [x]) := by
      unfold firstStep
      dsimp only
      split
      case isTrue h =>
        refine ⟨x, rfl, by simp, fun y hy => ?_⟩
        rcases List.mem_append.mp hy with hy | hy
        · exact DramReq.before_of_before h (hmin y hy)
        · rw [List.mem_singleton.mp hy]
          exact x.before_self
      case isFalse h =>
        refine ⟨b, rfl, by simp [hmem], fun y hy => ?_⟩
        rcases List.mem_append.mp hy with hy | hy
        · exact hmin y hy
        · rw [List.mem_singleton.mp hy]
          exact Bool.eq_false_iff.mpr h
    obtain ⟨q, hq, hfirst⟩ := hstep
    obtain ⟨r, hr, hrfirst⟩ := ih (seen ++ [x]) q hfirst
    refine ⟨r, ?_, ?_⟩
    · rw [List.foldl_cons, hq, hr]
    · simpa using hrfirst

/-- Among requests there is a first one (R346). -/
theorem firstReq_of_ne_nil (l : List DramReq) (h : l ≠ []) : ∃ q, firstReq l = some q ∧ q.firstOf l := by
  cases l with
  | nil => exact absurd rfl h
  | cons x l =>
    refine foldl_firstStep l [x] x ⟨List.mem_singleton_self x, fun y hy => ?_⟩
    rw [List.mem_singleton.mp hy]
    exact x.before_self

/-! Claims (Table 6.6). -/

/-- The requests of a channel that wait for no check read. -/
def State.ready (s : State) (c : Nat) : List DramReq := s.mem.queue.filter fun q => q.chan == c && q.waits.isNone

/-- The requests of a channel that may take a claim. -/
def State.claimants (s : State) (c k : Nat) (x : Claim) : List DramReq := (s.ready c).filter fun q => q.takes k x

theorem State.claimants_eq (s : State) (c k : Nat) (x : Claim) :
    s.claimants c k x = s.mem.queue.filter fun q => q.chan == c && q.waits.isNone && q.takes k x := by
  rw [State.claimants, State.ready, List.filter_filter]
  exact List.filter_congr fun q _ => Bool.and_comm _ _

theorem State.winner_cons_none (s : State) (c k : Nat) (x : Claim) (xs : List Claim) (hx : x ≠ .scrub) (h : s.claimants c k x = []) :
    s.winner c k (x :: xs) = s.winner c k xs := by
  rw [State.claimants_eq] at h
  rw [State.winner, h]
  · rfl
  · exact hx

theorem State.winner_cons_some (s : State) (c k : Nat) (x : Claim) (xs : List Claim) (hx : x ≠ .scrub) (q : DramReq)
    (h : firstReq (s.claimants c k x) = some q) : s.winner c k (x :: xs) = some (some q) := by
  rw [State.claimants_eq] at h
  rw [State.winner, h]
  exact hx

theorem State.rasSlots_le (s : State) : s.rasSlots ≤ 6 := Nat.min_le_left _ _

theorem State.claims_assigned (s : State) (k : Nat) (h : k % 8 < s.rasSlots) : s.claims k = [.raster, .live, .bulk] := if_pos h

theorem State.claims_bulk (s : State) (k : Nat) (h : k % 8 = 6) (hg : k / 8 % 16 = 15) : s.claims k = [.raster, .bulk, .live] :=
  (if_neg (by have := s.rasSlots_le; omega)).trans (if_pos ⟨h, hg⟩)

theorem State.claims_scrub (s : State) (k : Nat) (h : k % 8 = 6) (hg : k / 8 % 16 = 7) (hb : s.blankingLine = true) :
    s.claims k = [.raster, .scrub, .live, .bulk] :=
  (if_neg (by have := s.rasSlots_le; omega)).trans ((if_neg (by omega)).trans (if_pos ⟨h, hg, hb⟩))

theorem State.claims_other (s : State) (k : Nat) (h : ¬(k % 8 = 6 ∧ (k / 8 % 16 = 15 ∨ k / 8 % 16 = 7))) :
    s.claims k = [.raster, .live, .bulk] := by
  unfold State.claims
  extract_lets p g
  split
  · rfl
  · rw [if_neg (fun hc => h ⟨hc.1, .inl hc.2⟩), if_neg (fun hc => h ⟨hc.1, .inr hc.2.1⟩)]

/-- The requests that may take a claim when nobody holds the slot. -/
theorem State.claimants_raster (s : State) (c k : Nat) (h : ∀ q ∈ s.ready c, q.slot ≠ some k) : s.claimants c k .raster = [] := by
  rw [State.claimants, List.filter_eq_nil_iff]
  intro q hq
  simpa [DramReq.takes] using h q hq

/-- A slot that nobody claims goes to the scrub (R332). -/
theorem State.winner_none (s : State) (c k : Nat) (hr : s.claimants c k .raster = []) (hl : s.claimants c k .live = [])
    (hb : s.claimants c k .bulk = []) : s.winner c k (s.claims k) = some none := by
  have hlb : s.winner c k [.live, .bulk] = some none := by
    rw [s.winner_cons_none c k _ _ (by decide) hl, s.winner_cons_none c k _ _ (by decide) hb]; rfl
  have hbl : s.winner c k [.bulk, .live] = some none := by
    rw [s.winner_cons_none c k _ _ (by decide) hb, s.winner_cons_none c k _ _ (by decide) hl]; rfl
  unfold State.claims
  extract_lets p g
  split
  · rw [s.winner_cons_none c k _ _ (by decide) hr, hlb]
  · split
    · rw [s.winner_cons_none c k _ _ (by decide) hr, hbl]
    · split
      · rw [s.winner_cons_none c k _ _ (by decide) hr]; rfl
      · rw [s.winner_cons_none c k _ _ (by decide) hr, hlb]

/-- A slot whose holder does not claim it goes to the first request of the next claim (R346). -/
theorem State.winner_next (s : State) (c k : Nat) (x : Claim) (xs : List Claim) (hx : x ≠ .scrub) (hr : s.claimants c k .raster = [])
    (h : s.claimants c k x ≠ []) :
    ∃ q, q.firstOf (s.claimants c k x) ∧ s.winner c k (.raster :: x :: xs) = some (some q) := by
  obtain ⟨q, hq, hfirst⟩ := firstReq_of_ne_nil _ h
  refine ⟨q, hfirst, ?_⟩
  rw [s.winner_cons_none c k _ _ (by decide) hr, s.winner_cons_some c k x xs hx q hq]

/-! The slot. -/

/-- The first CCLK at or after the start of a channel's slot (R343). -/
def State.atSlot (s : State) (c : Fin 12) : State := State.elapse (s.toSlot (s.channel c).slot) s

/-- The channel's next slot is the one after. -/
def State.slotTaken (s : State) (c : Fin 12) : State :=
  (s.atSlot c).setChannel c { s.channel c with slot := (s.channel c).slot + 1 }

/-- A refresh window blocks the channel's slot (R348). -/
abbrev State.blocked (s : State) (c : Fin 12) : Prop :=
  (s.channel c).blockFrom ≤ (s.channel c).slot ∧ (s.channel c).slot < (s.channel c).blockUntil

theorem exec_slotGrant_untrained (s : State) (c : Fin 12) (e : Ecc) (h : s.trained = false) : exec (.slotGrant c e) s = .next s := if_pos h

section
variable (s : State) (c : Fin 12) (e : Ecc) (ht : s.trained = true)
include ht

theorem exec_slotGrant_blocked (hb : s.blocked c)
    (h : ∀ q ∈ (s.atSlot c).ready c, q.slot ≠ some (s.channel c).slot) : exec (.slotGrant c e) s = .next (s.slotTaken c) := by
  have hnone : ((s.slotTaken c).mem.queue.find? fun q => q.chan == c.val && q.slot == some (s.channel c).slot && q.waits.isNone) = none := by
    rw [List.find?_eq_none]
    intro q hq hc
    simp only [Bool.and_eq_true, beq_iff_eq] at hc
    obtain ⟨⟨hchan, hslot⟩, hwaits⟩ := hc
    exact h q (List.mem_filter.mpr ⟨hq, by simp [hchan, hwaits]⟩) hslot
  refine (if_neg (by simp [ht])).trans ((if_pos hb).trans ?_)
  split
  case h_1 heq => exact absurd (hnone.symm.trans heq) (by simp)
  case h_2 => rfl

theorem exec_slotGrant_late (hb : s.blocked c) (q : DramReq)
    (h : (((s.atSlot c).ready c).filter fun x => x.slot == some (s.channel c).slot) = [q]) :
    exec (.slotGrant c e) s = .next ((s.slotTaken c).grantReq q true) := by
  have hsome : ((s.slotTaken c).mem.queue.find? fun q => q.chan == c.val && q.slot == some (s.channel c).slot && q.waits.isNone) = some q := by
    rw [← List.head?_filter]
    have hfilter : ((s.slotTaken c).mem.queue.filter fun q => q.chan == c.val && q.slot == some (s.channel c).slot && q.waits.isNone) = [q] := by
      rw [← h, State.ready, List.filter_filter]
      exact List.filter_congr fun x _ => by rw [← Bool.and_assoc, Bool.and_comm (x.slot == _)]
    rw [hfilter]; rfl
  refine (if_neg (by simp [ht])).trans ((if_pos hb).trans ?_)
  split
  case h_1 heq => rw [Option.some.inj (hsome.symm.trans heq)]; rfl
  case h_2 heq => exact absurd (hsome.symm.trans heq) (by simp)

theorem exec_slotGrant_won (hb : ¬ s.blocked c) (q : DramReq)
    (h : (s.atSlot c).winner c (s.channel c).slot ((s.atSlot c).claims (s.channel c).slot) = some (some q)) :
    exec (.slotGrant c e) s = .next ((s.slotTaken c).grantReq q false) := by
  refine (if_neg (by simp [ht])).trans ((if_neg hb).trans ?_)
  split
  case h_1 heq => rw [Option.some.inj (Option.some.inj (h.symm.trans heq))]; rfl
  case h_2 hne => exact absurd h (hne q)

theorem exec_slotGrant_scrub (hb : ¬ s.blocked c)
    (h : (s.atSlot c).winner c (s.channel c).slot ((s.atSlot c).claims (s.channel c).slot) = some none) :
    exec (.slotGrant c e) s = .next ((s.slotTaken c).scrubUnit c e) := by
  refine (if_neg (by simp [ht])).trans ((if_neg hb).trans ?_)
  split
  case h_1 heq => exact absurd (h.symm.trans heq) (by simp)
  case h_2 => rfl

end

/-! Grants. -/

/-- The flight of a granted read (R342, R354). -/
def State.flightOf (s : State) (q : DramReq) (late : Bool) : Flight :=
  { chan := q.chan, kind := q.kind, age := q.age, pa := q.pa, grantAt := s.trd.cclk,
    count := dramCount s.op + (if late then refreshPenalty s.op else 0), penalty := late }

/-- A granted read is in flight (R342). -/
theorem State.grantReq_read (s : State) (q : DramReq) (late : Bool) (h : q.kind = .read) : s.grantReq q late =
    s.onMem fun m => { m with queue := m.queue.erase q, flights := m.flights ++ [s.flightOf q late] } := by
  unfold State.grantReq
  rw [h]
  unfold State.flightOf
  rw [h]
  rfl

theorem State.grantReq_write (s : State) (q : DramReq) (late : Bool) (h : q.kind = .write) :
    s.grantReq q late = (s.onMem fun m => { m with queue := m.queue.erase q }).grantWrite q := by
  unfold State.grantReq
  rw [h]

theorem State.checkWritten_sameBytes (s : State) (q : DramReq) : s.SameBytes (s.checkWritten q) := ⟨rfl, rfl, rfl, rfl, rfl⟩

/-- A write that no line waits for stores what it carries. -/
def State.writeStored (s : State) (q : DramReq) : State :=
  (s.dramStore q.pa q.data).onMem fun m => { m with
    leaving := m.leaving.filter fun l => !(l.pa == q.pa)
    bad := if q.poison then insertNat q.pa m.bad else m.bad.filter (· ≠ q.pa) }

theorem State.grantWrite_eq (s : State) (q : DramReq) (hack : q.ack = none) (hl : ∀ l ∈ s.mem.leaving, l.pa ≠ q.pa) :
    s.grantWrite q = (s.writeStored q).checkWritten q := by
  have hnone : (s.mem.leaving.find? fun l => l.pa == q.pa) = none := by
    rw [List.find?_eq_none]
    intro l hm
    simpa using hl l hm
  unfold State.grantWrite
  rw [hack]
  simp only [Option.isSome_none, Bool.false_eq_true, if_false, hnone, Option.map_none, Option.getD_none]
  rfl

/-- A granted write stores its line and its poison (R323, R399). -/
theorem State.grantReq_write_stores (s : State) (q : DramReq) (late : Bool) (hk : q.kind = .write) (hack : q.ack = none)
    (hl : ∀ l ∈ s.mem.leaving, l.pa ≠ q.pa) :
    let t := s.grantReq q late
    (∀ i (h : i < q.data.length), t.dramByte (q.pa + i) = q.data[i]) ∧
      (∀ a, a < q.pa ∨ q.pa + q.data.length ≤ a → s.granuleSet a = true → t.dramByte a = s.dramByte a) ∧
      (q.pa ∈ t.mem.bad ↔ q.poison = true) ∧ t.mem.queue = s.mem.queue.erase q := by
  intro t
  have ht : t = ((s.onMem fun m => { m with queue := m.queue.erase q }).writeStored q).checkWritten q :=
    (s.grantReq_write q late hk).trans (State.grantWrite_eq _ _ hack hl)
  have hbyte (a : Nat) : t.dramByte a = ((s.onMem fun m => { m with queue := m.queue.erase q }).dramStore q.pa q.data).dramByte a := by
    rw [ht]
    exact (State.checkWritten_sameBytes _ q).dramByte a
  refine ⟨fun i h => ?_, fun a ha hset => ?_, ?_, ?_⟩
  · rw [hbyte, State.dramByte_dramStore_self _ _ _ _ h]
  · exact (hbyte a).trans (State.dramByte_dramStore_ne _ _ _ _ ha hset)
  · rw [ht]
    change q.pa ∈ (if q.poison = true then insertNat q.pa _ else List.filter _ _) ↔ _
    split
    · next hp => simp [hp, mem_insertNat]
    · next hp => simp [hp]
  · rw [ht]
    change ((s.onMem fun m => { m with queue := m.queue.erase q }).dramStore q.pa q.data).mem.queue = _
    rw [State.dramStore_mem]
    rfl

/-! Returns. -/

/-- A returned read's register holds its line, to be filled 42 CCLK on (R342). -/
def State.registered (s : State) (f : Flight) (found : Ecc) (x : Mshr) : Mshr :=
  { x with
    data := some ((List.range 128).map fun i => s.dramByte (f.pa + i))
    poison := found == .uncorrectable
    fillAt := s.trd.cclk + 42 }

/-- The read is in flight no more, and the register of its line holds it. -/
def State.returned (s : State) (f : Flight) (found : Ecc) : State :=
  s.onMem fun m => { m with
    flights := m.flights.erase f
    mshrs := m.mshrs.map fun x => if x.pa = f.pa then s.registered f found x else x }

/-- What the code finds is counted (R329, R330). -/
def State.eccCounted (s : State) (pa : Nat) : Ecc → State
  | .clean => s
  | .corrected => s.bump Reg.DMC_CE_CNT
  | .uncorrectable => s.dramUe pa

theorem State.eccOf_eq (s : State) (pa : Nat) (e : Ecc) : s.eccOf pa e = if pa ∈ s.mem.bad then .uncorrectable else e := by
  simp [State.eccOf]

theorem exec_dramReturn_none (s : State) (c : Fin 12) (e : Ecc) (h : (s.mem.flights.find? fun f => f.chan == c.val) = none) :
    exec (.dramReturn c e) s = .next s := by
  change execDramReturn c e s = _
  rw [execDramReturn, h]

theorem exec_dramReturn_checkRead (s : State) (c : Fin 12) (e : Ecc) (f : Flight)
    (h : (s.mem.flights.find? fun f => f.chan == c.val) = some f) (hk : f.kind = .checkRead) (hp : f.penalty = false) :
    exec (.dramReturn c e) s = .next ((s.elapseTo (f.grantAt + f.count)).onMem fun m => { m with flights := m.flights.erase f }) := by
  change execDramReturn c e s = _
  rw [execDramReturn, h]
  dsimp only
  rw [hk, hp]
  rfl

theorem exec_dramReturn_read (s : State) (c : Fin 12) (e : Ecc) (f : Flight)
    (h : (s.mem.flights.find? fun f => f.chan == c.val) = some f) (hk : f.kind = .read) :
    exec (.dramReturn c e) s =
      .next (((s.elapseTo (f.grantAt + f.count)).returned f ((s.elapseTo (f.grantAt + f.count)).eccOf f.pa e)).eccCounted f.pa
        ((s.elapseTo (f.grantAt + f.count)).eccOf f.pa e)) := by
  change execDramReturn c e s = _
  rw [execDramReturn, h]
  dsimp only
  rw [hk]
  dsimp only
  have hfound : ((s.elapseTo (f.grantAt + f.count)).onMem fun m => { m with flights := m.flights.erase f }).eccOf f.pa e =
      (s.elapseTo (f.grantAt + f.count)).eccOf f.pa e := rfl
  rw [hfound]
  cases (s.elapseTo (f.grantAt + f.count)).eccOf f.pa e <;> rfl

/-- What the count of an error leaves and adds (R329, R330). -/
theorem State.eccCounted_facts (s : State) (pa : Nat) (found : Ecc) :
    let t := s.eccCounted pa found
    t = { s with regs := t.regs } ∧ (found = .clean → t.regs = s.regs) ∧
      (found = .corrected → t.rd Reg.DMC_CE_CNT = counted (s.rd Reg.DMC_CE_CNT)) ∧
      (found = .uncorrectable → t.rd Reg.DMC_UE_CNT = counted (s.rd Reg.DMC_UE_CNT) ∧ t.rd Reg.DMC_UE_ADDR_LO = BitVec.ofNat 32 pa) := by
  cases found with
  | clean => exact ⟨rfl, fun _ => rfl, by simp, by simp⟩
  | corrected => exact ⟨s.bump_rest _, by simp, fun _ => s.rd_bump_self _, by simp⟩
  | uncorrectable =>
    have hwrites : s.WritesIn (fun _ => True) (s.dramUe pa) :=
      (((State.WritesIn.refl _ s).bump Reg.DMC_UE_CNT trivial).wr Reg.DMC_UE_ADDR_LO _ trivial).wr Reg.DMC_UE_ADDR_HI _ trivial
    refine ⟨hwrites.rest, by simp, by simp, fun _ => ⟨?_, ?_⟩⟩
    · change (s.dramUe pa).rd _ = _
      rw [State.dramUe, State.rd_wr_ne _ _ _ _ (by decide), State.rd_wr_ne _ _ _ _ (by decide), State.rd_bump_self]
    · change (s.dramUe pa).rd _ = _
      rw [State.dramUe, State.rd_wr_ne _ _ _ _ (by decide), State.rd_wr_self]

/-! Refresh windows. -/

/-- The window is a channel's first of the frame (R351). -/
abbrev State.firstWindow (s : State) (c : Fin 12) : Prop := (s.channel c).frame ≠ some s.trd.now.frame

/-- The channel once a window has opened (R348 to R351). -/
def State.windowed (s : State) (c : Fin 12) (hot : Bool) (due : Nat) : Channel :=
  let ch := s.channel c
  let h := if s.firstWindow c then hot else ch.hot
  { ch with blockFrom := max ch.slot ch.blockUntil, blockUntil := max ch.slot ch.blockUntil + 10,
            opened := s.slotStart (max ch.slot ch.blockUntil), hot := h, frame := some s.trd.now.frame, next := due + s.refPeriod h }

/-- An opening window sets its channel's bit of DMC_HOT where it is the first of the frame. -/
def State.windowOpened (s : State) (c : Fin 12) (hot : Bool) (due : Nat) : State :=
  if s.firstWindow c then (s.setChannel c (s.windowed c hot due)).setHot c hot else s.setChannel c (s.windowed c hot due)

/-- Besides, a window may send the ZQ latch (R352). -/
theorem State.openWindow_eq (s : State) (c : Fin 12) (hot : Bool) (due : Nat) :
    ∃ out, s.openWindow c hot due = { s.windowOpened c hot due with out := out } := by
  unfold State.openWindow
  extract_lets ch first h start s1 s2 zq
  have hfirst : first = true ↔ s.firstWindow c := bne_iff_ne
  have hhot : h = if s.firstWindow c then hot else ch.hot := by
    change (if first = true then hot else ch.hot) = _
    simp only [hfirst]
  have h1 : s1 = s.setChannel c (s.windowed c hot due) := by
    unfold s1 State.windowed
    rw [hhot]
  have h2 : s2 = s.windowOpened c hot due := by
    unfold s2 State.windowOpened
    rw [h1, hhot]
    simp only [hfirst]
    split <;> rfl
  split
  · exact ⟨_, congrArg (fun u : State => u.emit 0 (.zqLatch c)) h2⟩
  · exact ⟨_, h2⟩

/-- From `s` to `t` a window of a channel has opened: it blocks ten slots, and the first one of a frame reads the die's temperature
(R348 to R351). -/
structure State.WindowOpens (s t : State) (c : Fin 12) (hot : Bool) (due : Nat) : Prop where
  channel : t.channel c = s.windowed c hot due
  die : s.firstWindow c → t.fld Reg.DMC_HOT ⟨c, 1⟩ = if hot then 1 else 0
  queue : t.mem.queue = s.mem.queue
  rest : t = { s with mem := t.mem, regs := t.regs, out := t.out }

theorem State.WindowOpens.bump {s t : State} {c : Fin 12} {hot : Bool} {due : Nat} (h : s.WindowOpens t c hot due) (o : Nat)
    (ho : Reg.DMC_HOT ≠ o) : s.WindowOpens (t.bump o) c hot due :=
  ⟨(t.channel_bump o c).trans h.channel, fun hf => (State.fld_bump_ne _ _ _ _ ho).trans (h.die hf), by rw [State.bump_rest]; exact h.queue,
    by rw [State.bump_rest, h.rest]⟩

theorem State.openWindow_opens (s : State) (c : Fin 12) (hot : Bool) (due : Nat) : s.WindowOpens (s.openWindow c hot due) c hot due := by
  obtain ⟨out, ht⟩ := s.openWindow_eq c hot due
  unfold State.windowOpened at ht
  by_cases hf : s.firstWindow c
  · rw [if_pos hf] at ht
    refine ⟨?_, fun _ => ?_, ?_, ?_⟩
    · rw [ht]
      exact State.channel_setChannel _ _ _
    · rw [ht]
      exact State.fld_setFld_ite _ Reg.DMC_HOT ⟨c, 1⟩ (hot = true) (by have := c.isLt; dsimp only; omega) Nat.one_pos
    · rw [ht]; rfl
    · rw [ht]; rfl
  · rw [if_neg hf] at ht
    refine ⟨?_, fun h => absurd h hf, ?_, ?_⟩
    · rw [ht]
      exact State.channel_setChannel _ _ _
    · rw [ht]; rfl
    · rw [ht]; rfl

/-- Of the registers a window writes DMC_HOT alone. -/
theorem State.openWindow_rd (s : State) (c : Fin 12) (hot : Bool) (due o : Nat) (ho : o ≠ Reg.DMC_HOT) :
    (s.openWindow c hot due).rd o = s.rd o := by
  obtain ⟨out, ht⟩ := s.openWindow_eq c hot due
  rw [ht]
  change (s.windowOpened c hot due).rd o = s.rd o
  unfold State.windowOpened
  split
  · exact State.rd_setFld_ne _ _ _ _ _ ho
  · rfl

/-! The commands. -/

theorem exec_refreshWindow_of (s : State) (c : Fin 12) (hot : Bool) (b : Nat) (h : s.mem.bound = some b) :
    exec (.refreshWindow c hot) s =
      if b < s.refDue c then .next s else .next ((State.elapse s.toTick s).openWindow c hot (s.refDue c)) := by
  change execRefreshWindow c hot s = _
  rw [execRefreshWindow, h]

theorem exec_forcedRefresh_of (s : State) (c : Fin 12) (hot : Bool) (b : Nat) (h : s.mem.bound = some b) :
    exec (.forcedRefresh c hot) s =
      if s.refreshOwed c then .next ((s.openWindow c hot b).bump Reg.DMC_FORCED_REF_CNT) else .next s := by
  change execForcedRefresh c hot s = _
  rw [execForcedRefresh, h]

/-- When a channel's next window is due (R350). -/
theorem State.refDue_eq (s : State) (c : Nat) : s.refDue c =
    if (s.channel c).frame = none then c * s.fld Reg.DMC_REF_CFG Reg.DMC_REF_CFG_STAGGER else (s.channel c).next := by
  unfold State.refDue
  simp only [Option.isNone_iff_eq_none]

/-- A pass that has taken too many frames is counted once (R333). -/
theorem exec_scrubStarve_of (s : State) (c : Fin 12) : exec (.scrubStarve c) s =
    if s.fld Reg.DMC_SCRUB_CFG Reg.DMC_SCRUB_CFG_TARGET ≠ 0 ∧ s.fld Reg.DMC_SCRUB_CFG Reg.DMC_SCRUB_CFG_TARGET ≤
        (s.trd.now.frame + 65536 - (s.channel c).passFrom) % 65536 ∧ (s.channel c).starved = false then
      .next ((s.setChannel c { s.channel c with starved := true }).bump Reg.DMC_SCRUB_STARVE_CNT)
    else .next s := rfl

/-- What the channel's schedule is once a window has opened, its slots and windows being those of the channel before. -/
theorem State.WindowOpens.schedule {s t : State} {c : Fin 12} {hot : Bool} {due : Nat} (h : s.WindowOpens t c hot due) (ch : Channel)
    (hch : s.channel c = ch) :
    (t.channel c).blockFrom = max ch.slot ch.blockUntil ∧ (t.channel c).blockUntil = max ch.slot ch.blockUntil + 10 ∧
      (t.channel c).next = due + s.refPeriod (t.channel c).hot ∧
      (ch.frame ≠ some s.trd.now.frame → (t.channel c).hot = hot ∧ t.fld Reg.DMC_HOT ⟨c, 1⟩ = (if hot then 1 else 0)) ∧
      (ch.frame = some s.trd.now.frame → (t.channel c).hot = ch.hot) ∧ (t.channel c).slot = ch.slot ∧ t.mem.queue = s.mem.queue ∧
      t = { s with mem := t.mem, regs := t.regs, out := t.out } := by
  subst hch
  rw [h.channel]
  exact ⟨rfl, rfl, rfl, fun hf => ⟨if_pos hf, h.die hf⟩, fun hf => if_neg (not_not_intro hf), rfl, h.queue, h.rest⟩

/-- Settles O36: each command does what its case of the claim order, of a grant, of a return or of the schedule says. -/
theorem dramSlotsAreGranted : Obligations.DramSlotsAreGranted := by
  intro s c e ch k
  refine ⟨exec_slotGrant_untrained s c e, fun ht => ?_, fun q _ late => ⟨fun hk => ?_, fun hk hack hl => ?_⟩,
    exec_dramReturn_none s c e, fun f hf => ⟨fun hk hp => ?_, fun hk m hm hpa => ?_⟩, fun hot b hb => ?_, ?_⟩
  · intro s0 mine first go live bulk
    refine ⟨fun hfrom huntil hmine => exec_slotGrant_blocked s c e ht ⟨hfrom, huntil⟩ hmine, fun hfree hmine => ?_, fun q hq hras => ?_⟩
    · have hr := (s.atSlot c).claimants_raster c k hmine
      refine ⟨fun hother hlive => ?_, fun hp hg hbulk => ?_, fun hp hg hblank => ?_, fun hlive hbulk => ?_⟩
      · obtain ⟨q, hfirst, hw⟩ := (s.atSlot c).winner_next c k .live [.bulk] (by decide) hr hlive
        rw [← (s.atSlot c).claims_other k fun hc => hother ⟨s0.rasSlots_le, hc⟩] at hw
        exact ⟨q, hfirst.1, hfirst, exec_slotGrant_won s c e ht hfree q hw⟩
      · obtain ⟨q, hfirst, hw⟩ := (s.atSlot c).winner_next c k .bulk [.live] (by decide) hr hbulk
        rw [← (s.atSlot c).claims_bulk k hp hg] at hw
        exact ⟨q, hfirst.1, hfirst, exec_slotGrant_won s c e ht hfree q hw⟩
      · refine exec_slotGrant_scrub s c e ht hfree ?_
        rw [(s.atSlot c).claims_scrub _ hp hg hblank, State.winner_cons_none _ _ _ _ _ (by decide) hr]
        rfl
      · exact exec_slotGrant_scrub s c e ht hfree ((s.atSlot c).winner_none c k hr hlive hbulk)
    · by_cases hblock : s.blocked c
      · rw [decide_eq_true (show ch.blockFrom ≤ k ∧ k < ch.blockUntil from hblock)]
        exact exec_slotGrant_late s c e ht hblock q hq
      · rw [decide_eq_false (show ¬(ch.blockFrom ≤ k ∧ k < ch.blockUntil) from hblock)]
        refine exec_slotGrant_won s c e ht hblock q ?_
        rw [(s.atSlot c).claims_assigned _ hras]
        refine State.winner_cons_some _ _ _ _ _ (by decide) q ?_
        rw [show (s.atSlot c).claimants c k .raster = [q] from hq]
        rfl
  · rw [s.grantReq_read q late hk]
    refine ⟨?_, rfl, fun a => rfl⟩
    change s.mem.flights ++ [s.flightOf q late] = _
    rw [State.flightOf, hk]
    rfl
  · exact s.grantReq_write_stores q late hk hack hl
  · exact exec_dramReturn_checkRead s c e f hf hk hp
  · intro found
    obtain ⟨hrest, hclean, hcorrected, hlost⟩ := ((s.elapseTo (f.grantAt + f.count)).returned f found).eccCounted_facts f.pa found
    have hexec := exec_dramReturn_read s c e f hf hk
    rw [State.eccOf_eq] at hexec
    have hmem := congrArg State.mem hrest
    refine ⟨_, hexec, (s.elapseTo (f.grantAt + f.count)).registered f found m, ?_, hpa, rfl, beq_iff_eq, rfl, ?_, ?_, hclean, hcorrected, hlost⟩
    · exact (congrArg (_ ∈ Mem.mshrs ·) hmem).mpr (List.mem_map.mpr ⟨m, hm, if_pos hpa⟩)
    · exact congrArg Mem.flights hmem
    · exact hrest.trans (by rw [hmem]; rfl)
  · have hch : (State.elapse (2 - s.trd.now.cyc) s).channel c = ch := State.channel_congr (s.mem_elapse _) c
    intro due opens
    have hdue : s.refDue c = due := s.refDue_eq c
    have hwindow := exec_refreshWindow_of s c hot b hb
    rw [hdue] at hwindow
    have hforced := exec_forcedRefresh_of s c hot b hb
    refine ⟨fun hlt => hwindow.trans (if_pos hlt), fun hle => ?_, fun howed => hforced.trans (if_neg (by simp [howed])), fun howed => ?_⟩
    · exact ⟨_, hwindow.trans (if_neg (Nat.not_lt.mpr hle)), (State.openWindow_opens _ c hot due).schedule ch hch⟩
    · exact ⟨_, hforced.trans (if_pos howed), ((s.openWindow_opens c hot b).bump _ (by decide)).schedule ch rfl,
        (State.rd_bump_self _ _).trans (congrArg counted (s.openWindow_rd c hot b _ (by decide)))⟩
  · intro target slow
    have hstarve := exec_scrubStarve_of s c
    refine ⟨fun h => hstarve.trans (if_neg fun hc => h ⟨hc.1, hc.2.2, hc.2.1⟩), fun ⟨hset, hfirst, hlong⟩ => ?_⟩
    refine ⟨_, hstarve.trans (if_pos ⟨hset, hlong, hfirst⟩), ?_, State.rd_bump_self _ _, ?_⟩
    · rw [State.channel_bump, State.channel_setChannel]
    · rw [State.bump_rest]; rfl

end Sys2Proof.Machine
end

section
/-! SUPPORT. Lines of the Spool: their ways, what reading one after a change of one gives, and what an allocation leaves (R294 to R300, R323). -/

namespace Sys2Proof.Machine

/-! Addresses of a line. -/

theorem lineOf_eq_iff (a b : Nat) : lineOf a = lineOf b ↔ a / 128 = b / 128 := by
  unfold lineOf
  omega

theorem lineOf_lineOf (a : Nat) : lineOf (lineOf a) = lineOf a := by
  unfold lineOf
  omega

/-- Where an address goes is a matter of its line (R294). -/
theorem spoolKey_congr (a b w : Nat) (h : lineOf a = lineOf b) : spoolKey a w = spoolKey b w := by
  have hline : a / 128 = b / 128 := (lineOf_eq_iff a b).mp h
  have hdiv (n : Nat) : a / (128 * n) = b / (128 * n) := by rw [← Nat.div_div_eq_div_mul, ← Nat.div_div_eq_div_mul, hline]
  have hquad : a / 512 = b / 512 := hdiv 4
  have hblock : a / 1536 = b / 1536 := hdiv 12
  have h15 : a / 2 ^ 15 = b / 2 ^ 15 := hdiv (2 ^ 8)
  have h23 : a / 2 ^ 23 = b / 2 ^ 23 := hdiv (2 ^ 16)
  have h31 : a / 2 ^ 31 = b / 2 ^ 31 := hdiv (2 ^ 24)
  unfold spoolKey setOf chanLine sliceOf
  rw [hline, hquad, hblock, h15, h23, h31]

@[simp] theorem spoolKey_lineOf (a w : Nat) : spoolKey (lineOf a) w = spoolKey a w := spoolKey_congr _ _ _ (lineOf_lineOf a)

theorem lineOf_inside (pa i : Nat) (h : pa % 128 + i < 128) : lineOf (pa + i) = lineOf pa := by
  rw [lineOf_eq_iff]
  omega

/-! Ways. -/

/-- A way holds a line. -/
def State.holdsAt (s : State) (pa w : Nat) : Bool := (tblFind s.mem.spool (spoolKey pa w)).any fun l => l.pa == lineOf pa

theorem State.wayOf_eq (s : State) (pa : Nat) : s.wayOf pa = (List.range 16).find? (s.holdsAt pa) := by
  unfold State.wayOf
  congr 1
  funext w
  unfold State.holdsAt
  cases tblFind s.mem.spool (spoolKey pa w) <;> rfl

/-- The way that holds a line holds it. -/
theorem State.wayOf_some {s : State} {pa w : Nat} (h : s.wayOf pa = some w) :
    w < 16 ∧ ∃ l, tblFind s.mem.spool (spoolKey pa w) = some l ∧ l.pa = lineOf pa := by
  have hp := List.find?_some h
  refine ⟨List.mem_range.mp (List.mem_of_find?_eq_some h), ?_⟩
  split at hp
  · next l hl => exact ⟨l, hl, beq_iff_eq.mp hp⟩
  · exact absurd hp (by decide)

theorem State.wayOf_none {s : State} {pa : Nat} (h : s.wayOf pa = none) (w : Nat) (hw : w < 16) (l : SLine)
    (hl : tblFind s.mem.spool (spoolKey pa w) = some l) : l.pa ≠ lineOf pa := by
  have hp := List.find?_eq_none.mp h w (List.mem_range.mpr hw)
  rw [hl] at hp
  simpa using hp

/-- Ways are found by the lines that the Spool holds. -/
theorem State.wayOf_congr {s t : State} (a b : Nat) (hab : lineOf a = lineOf b)
    (h : ∀ w, (tblFind t.mem.spool (spoolKey b w)).map SLine.pa = (tblFind s.mem.spool (spoolKey b w)).map SLine.pa) :
    t.wayOf a = s.wayOf b := by
  unfold State.wayOf
  congr 1
  funext w
  have hw := h w
  rw [spoolKey_congr a b w hab, hab]
  cases ht : tblFind t.mem.spool (spoolKey b w) with
  | none =>
    cases hs : tblFind s.mem.spool (spoolKey b w) with
    | none => rfl
    | some y => rw [ht, hs] at hw; exact absurd hw (by simp)
  | some x =>
    cases hs : tblFind s.mem.spool (spoolKey b w) with
    | none => rw [ht, hs] at hw; exact absurd hw (by simp)
    | some y =>
      rw [ht, hs] at hw
      exact congrArg (· == lineOf b) (Option.some.inj hw)

theorem State.wayOf_line (s : State) (a b : Nat) (h : lineOf a = lineOf b) : s.wayOf a = s.wayOf b :=
  State.wayOf_congr a b h fun _ => rfl

theorem State.line?_of_way {s : State} {pa w : Nat} (h : s.wayOf pa = some w) : s.line? pa = tblFind s.mem.spool (spoolKey pa w) := by
  rw [State.line?, h]

theorem State.line?_of_no_way {s : State} {pa : Nat} (h : s.wayOf pa = none) :
    s.line? pa = s.mem.leaving.find? fun l => l.pa == lineOf pa := by
  rw [State.line?, h]

theorem State.line?_line (s : State) (a b : Nat) (h : lineOf a = lineOf b) : s.line? a = s.line? b := by
  have hway := s.wayOf_line a b h
  cases hb : s.wayOf b with
  | none => rw [State.line?_of_no_way (hway.trans hb), State.line?_of_no_way hb, h]
  | some w => rw [State.line?_of_way (hway.trans hb), State.line?_of_way hb, spoolKey_congr a b w h]

/-- A line that is nowhere is in no way. -/
theorem State.wayOf_of_line?_none {s : State} {pa : Nat} (h : s.line? pa = none) : s.wayOf pa = none := by
  cases hw : s.wayOf pa with
  | none => rfl
  | some w =>
    obtain ⟨-, l, hl, -⟩ := State.wayOf_some hw
    rw [State.line?_of_way hw, hl] at h
    exact absurd h (by simp)

/-! A change of one line. -/

theorem find?_map_pa (l : List SLine) (f : SLine → SLine) (hf : ∀ x, (f x).pa = x.pa) (a b : Nat) :
    (l.map fun x => if x.pa == a then f x else x).find? (fun x => x.pa == b) =
      if b = a then (l.find? fun x => x.pa == b).map f else l.find? fun x => x.pa == b := by
  induction l with
  | nil => simp
  | cons x l ih =>
    have hpa : (if (x.pa == a) = true then f x else x).pa = x.pa := by split <;> simp [hf]
    rw [List.map_cons, List.find?_cons, List.find?_cons, hpa]
    by_cases hb : x.pa = b
    · rw [beq_iff_eq.mpr hb, ← hb]
      by_cases ha : x.pa = a <;> simp [ha]
    · rw [beq_false_of_ne hb]
      exact ih

/-- A change of the Spool's line in its way. -/
theorem State.onLine_way {s : State} {pa w : Nat} {l : SLine} (hw : s.wayOf pa = some w) (hl : tblFind s.mem.spool (spoolKey pa w) = some l)
    (hpa : l.pa = lineOf pa) (f : SLine → SLine) :
    s.onLine pa f = s.onMem fun m => { m with spool := tblPut m.spool (spoolKey pa w) { f l with pa := l.pa } } := by
  unfold State.onLine
  rw [hw]
  dsimp only
  rw [hl]
  dsimp only
  rw [State.putLine]
  dsimp only
  rw [hpa, spoolKey_lineOf]

theorem State.onLine_leaving {s : State} {pa : Nat} (hw : s.wayOf pa = none) (f : SLine → SLine) :
    s.onLine pa f = s.onMem fun m => { m with leaving := m.leaving.map fun l => if l.pa == lineOf pa then f l else l } := by
  unfold State.onLine
  rw [hw]

/-- A change of a line keeps every line in its way. -/
theorem State.wayOf_onLine (s : State) (pa b : Nat) (f : SLine → SLine) : (s.onLine pa f).wayOf b = s.wayOf b := by
  cases hw : s.wayOf pa with
  | none => rw [State.onLine_leaving hw]; rfl
  | some w =>
    obtain ⟨-, l, hl, hpa⟩ := State.wayOf_some hw
    rw [State.onLine_way hw hl hpa]
    refine State.wayOf_congr b b rfl fun v => ?_
    change (tblFind (tblPut s.mem.spool _ _) _).map _ = _
    rw [tblFind_tblPut]
    split
    · next hk => rw [hk, hl]; rfl
    · rfl

/-- What reading a line after a change of one gives: the changed one, and every other as before. -/
theorem State.line?_onLine (s : State) (pa b : Nat) (f : SLine → SLine) (hf : ∀ x, (f x).pa = x.pa) :
    (s.onLine pa f).line? b = if lineOf b = lineOf pa then (s.line? b).map f else s.line? b := by
  have hkeep := s.wayOf_onLine pa b f
  cases hw : s.wayOf pa with
  | none =>
    have hleave := State.onLine_leaving hw f
    cases hb : s.wayOf b with
    | none =>
      rw [State.line?_of_no_way (hkeep.trans hb), State.line?_of_no_way hb, hleave]
      exact find?_map_pa _ f hf _ _
    | some v =>
      have hne : lineOf b ≠ lineOf pa := fun h => by
        rw [s.wayOf_line b pa h, hw] at hb
        exact absurd hb (by simp)
      rw [if_neg hne, State.line?_of_way (hkeep.trans hb), State.line?_of_way hb, hleave]
      rfl
  | some w =>
    obtain ⟨-, l, hl, hpa⟩ := State.wayOf_some hw
    have hput := State.onLine_way hw hl hpa f
    have hline : { f l with pa := l.pa } = f l := by rw [← hf l]
    rw [hline] at hput
    cases hb : s.wayOf b with
    | none =>
      have hne : lineOf b ≠ lineOf pa := fun h => by
        rw [s.wayOf_line b pa h, hw] at hb
        exact absurd hb (by simp)
      rw [if_neg hne, State.line?_of_no_way (hkeep.trans hb), State.line?_of_no_way hb, hput]
      rfl
    | some v =>
      rw [State.line?_of_way (hkeep.trans hb), State.line?_of_way hb, hput]
      change tblFind (tblPut s.mem.spool _ _) _ = _
      rw [tblFind_tblPut]
      obtain ⟨-, x, hx, hxpa⟩ := State.wayOf_some hb
      by_cases hk : spoolKey b v = spoolKey pa w
      · rw [hk, hl] at hx
        have hsame : lineOf b = lineOf pa := by rw [← hxpa, ← hpa, Option.some.inj hx]
        rw [if_pos hk, if_pos hsame, hk, hl]
        rfl
      · have hne : lineOf b ≠ lineOf pa := fun h => by
          have hv : v = w := Option.some.inj (hb.symm.trans ((s.wayOf_line b pa h).trans hw))
          exact hk (by rw [hv, spoolKey_congr b pa w h])
        rw [if_neg hk, if_neg hne]

/-- From `s` to `t` nothing has changed but lines of the Spool, those on their way to DRAM, the L1s' copies and the order of use. -/
def State.LinesOnly (s t : State) : Prop :=
  t = { s with mem := { s.mem with spool := t.mem.spool, leaving := t.mem.leaving, use := t.mem.use, l1 := t.mem.l1 } }

namespace State.LinesOnly

variable {s t u : State}

theorem refl (s : State) : s.LinesOnly s := rfl

theorem trans (h : s.LinesOnly t) (h' : t.LinesOnly u) : s.LinesOnly u := by
  unfold State.LinesOnly at *
  rw [h', h]

theorem onLine (h : s.LinesOnly t) (pa : Nat) (f : SLine → SLine) : s.LinesOnly (t.onLine pa f) := by
  refine h.trans ?_
  unfold State.onLine
  split
  · split
    · rfl
    · rfl
  · rfl

theorem setL1 (h : s.LinesOnly t) (f : List L1Line → List L1Line) : s.LinesOnly (t.onMem fun m => { m with l1 := f m.l1 }) := h.trans rfl

theorem touch (h : s.LinesOnly t) (pa : Nat) : s.LinesOnly (t.touch pa) :=
  State.LinesOnly.onLine (h.trans (u := t.onMem fun m => { m with use := m.use + 1 }) rfl) pa _

theorem dramByte (h : s.LinesOnly t) (a : Nat) : t.dramByte a = s.dramByte a := by rw [h]; rfl

theorem dramTop (h : s.LinesOnly t) : t.dramTop = s.dramTop := by rw [h]; rfl

theorem arrived (h : s.LinesOnly t) : t.mem.arrived = s.mem.arrived := by rw [h]

theorem trd (h : s.LinesOnly t) : t.trd = s.trd := by rw [h]

end State.LinesOnly

/-- A use of a line changes its place in the order of use. -/
theorem State.line?_touch (s : State) (pa b : Nat) : (s.touch pa).line? b =
    if lineOf b = lineOf pa then (s.line? b).map fun l => { l with lru := s.mem.use + 1 } else s.line? b :=
  State.line?_onLine (s.onMem fun m => { m with use := m.use + 1 }) pa b _ fun _ => rfl

/-! The bytes of a line. -/

theorem State.memByte_congr {s t : State} (a : Nat) (htop : t.dramTop = s.dramTop)
    (hline : (t.line? a).map SLine.data = (s.line? a).map SLine.data) (hdram : t.dramByte a = s.dramByte a) : t.memByte a = s.memByte a := by
  unfold State.memByte
  rw [htop, hdram]
  cases ht : t.line? a with
  | none =>
    cases hs : s.line? a with
    | none => rfl
    | some y => rw [ht, hs] at hline; exact absurd hline (by simp)
  | some x =>
    cases hs : s.line? a with
    | none => rw [ht, hs] at hline; exact absurd hline (by simp)
    | some y =>
      rw [ht, hs] at hline
      have hdata : x.data = y.data := Option.some.inj hline
      dsimp only
      rw [hdata]

theorem State.memByte_touch (s : State) (pa a : Nat) : (s.touch pa).memByte a = s.memByte a := by
  have hkept := (State.LinesOnly.refl s).touch pa
  refine State.memByte_congr a hkept.dramTop ?_ (hkept.dramByte a)
  rw [State.line?_touch]
  split
  · rw [Option.map_map]; rfl
  · rfl

theorem State.memByte_line {s : State} {a : Nat} {l : SLine} (htop : a < s.dramTop) (h : s.line? a = some l) :
    s.memByte a = l.data.getD (a % 128) 0#8 := by
  rw [State.memByte, if_neg (Nat.not_le.mpr htop), h]

theorem patch_getD_inside (old new : List Byte) (off i : Nat) (hold : off ≤ old.length) (hoff : off + new.length ≤ 128) (hi : i < new.length) :
    (patch old off new).getD (off + i) 0#8 = new[i] := by
  unfold patch
  rw [List.getD_eq_getElem?_getD, List.getElem?_take_of_lt (by omega), List.append_assoc,
    List.getElem?_append_right (by rw [List.length_take]; omega), List.getElem?_append_left (by rw [List.length_take]; omega)]
  have hidx : off + i - (old.take off).length = i := by rw [List.length_take]; omega
  rw [hidx, List.getElem?_eq_getElem hi]
  rfl

theorem patch_getD_outside (old new : List Byte) (off j : Nat) (hold : old.length = 128) (hoff : off + new.length ≤ 128) (hj : j < 128)
    (hout : j < off ∨ off + new.length ≤ j) : (patch old off new).getD j 0#8 = old.getD j 0#8 := by
  unfold patch
  rw [List.getD_eq_getElem?_getD, List.getD_eq_getElem?_getD, List.getElem?_take_of_lt hj, List.append_assoc]
  rcases hout with h | h
  · rw [List.getElem?_append_left (by rw [List.length_take]; omega), List.getElem?_take_of_lt h]
  · rw [List.getElem?_append_right (by rw [List.length_take]; omega), List.getElem?_append_right (by rw [List.length_take]; omega),
      List.getElem?_drop]
    congr 2
    rw [List.length_take]
    omega

/-- The DRAM top lies at a line's end (R339). -/
theorem State.dramTop_line (s : State) : s.dramTop % 128 = 0 := by
  unfold State.dramTop
  split <;> rfl

theorem State.inside_dramTop {s : State} {pa i : Nat} (h : pa < s.dramTop) (hi : pa % 128 + i < 128) : pa + i < s.dramTop := by
  have := s.dramTop_line
  omega

/-! Allocation. -/

/-- From `s` to `t` nothing has arrived, DRAM is as it was, and every way that holds a line of `t` held that line before. -/
structure State.Vacates (s t : State) : Prop where
  arrived : t.mem.arrived = s.mem.arrived
  dram : t.mem.dram = s.mem.dram
  ways : ∀ k y, tblFind t.mem.spool k = some y → ∃ x, tblFind s.mem.spool k = some x ∧ x.pa = y.pa

namespace State.Vacates

variable {s t u : State}

theorem refl (s : State) : s.Vacates s := ⟨rfl, rfl, fun _ y h => ⟨y, h, rfl⟩⟩

theorem trans (h : s.Vacates t) (h' : t.Vacates u) : s.Vacates u := by
  refine ⟨h'.arrived.trans h.arrived, h'.dram.trans h.dram, fun k z hz => ?_⟩
  obtain ⟨y, hy, hyz⟩ := h'.ways k z hz
  obtain ⟨x, hx, hxy⟩ := h.ways k y hy
  exact ⟨x, hx, hxy.trans hyz⟩

/-- A change of memory that leaves lines, deliveries and DRAM. -/
theorem onMem (h : s.Vacates t) (f : Mem → Mem) (ha : (f t.mem).arrived = t.mem.arrived) (hd : (f t.mem).dram = t.mem.dram)
    (hs : (f t.mem).spool = t.mem.spool) : s.Vacates (t.onMem f) :=
  h.trans ⟨ha, hd, fun _ y hy => ⟨y, hs ▸ hy, rfl⟩⟩

theorem bump (h : s.Vacates t) (o : Nat) : s.Vacates (t.bump o) := by
  refine h.trans ?_
  rw [State.bump_rest]
  exact ⟨rfl, rfl, fun k y hy => ⟨y, hy, rfl⟩⟩

theorem nextFree (h : s.Vacates t) : s.Vacates t.nextFree.2 := h.trans ⟨rfl, rfl, fun _ y hy => ⟨y, hy, rfl⟩⟩

theorem foldl {α : Type} (f : State → α → State) (hf : ∀ (u : State) x, u.Vacates (f u x)) (l : List α) (h : s.Vacates t) :
    s.Vacates (l.foldl f t) :=
  List.foldlRecOn l f h fun u hu x _ => hu.trans (hf u x)

theorem onLine (h : s.Vacates t) (pa : Nat) (f : SLine → SLine) : s.Vacates (t.onLine pa f) := by
  refine h.trans ?_
  cases hw : t.wayOf pa with
  | none =>
    rw [State.onLine_leaving hw]
    exact (refl t).onMem _ rfl rfl rfl
  | some w =>
    obtain ⟨-, l, hl, hpa⟩ := State.wayOf_some hw
    rw [State.onLine_way hw hl hpa]
    refine ⟨rfl, rfl, fun k y hy => ?_⟩
    change tblFind (tblPut t.mem.spool _ _) k = some y at hy
    rw [tblFind_tblPut] at hy
    split at hy
    · next hk => exact ⟨l, hk ▸ hl, by rw [← Option.some.inj hy]⟩
    · exact ⟨y, hy, rfl⟩

theorem enqueueReq (h : s.Vacates t) (q : DramReq) : s.Vacates (t.enqueueReq q) := by
  unfold State.enqueueReq
  exact h.onMem _ rfl rfl rfl

theorem enqueueData (h : s.Vacates t) (kind : DramKind) (pa : Nat) (cls : MemClass) (req : Nat) (d : List Byte) (p : Bool) (a : Option Nat) :
    s.Vacates (t.enqueueData kind pa cls req d p a) := by
  unfold State.enqueueData
  extract_lets c base
  split
  · exact State.Vacates.enqueueReq (h.onMem _ rfl rfl rfl) _
  · split
    · exact h.enqueueReq _
    · exact (h.enqueueReq _).enqueueReq _

theorem writeBack (h : s.Vacates t) (l : SLine) : s.Vacates (t.writeBack l) := by
  unfold State.writeBack
  extract_lets t1 g q
  have h1 : s.Vacates t1 := h.onMem _ rfl rfl rfl
  split
  · exact h1.enqueueData _ _ _ _ _ _ _
  · split
    · exact h1.onMem _ rfl rfl rfl
    · exact (State.Vacates.foldl _ (fun u _ => (refl u).enqueueData _ _ _ _ _ _ _) _ (h1.onMem _ rfl rfl rfl)).bump _

theorem evictWay (h : s.Vacates t) (pa way : Nat) (r : Option (List Byte)) : s.Vacates (t.evictWay pa way r) := by
  unfold State.evictWay
  split
  · exact h
  · extract_lets l1 t1
    have h1 : s.Vacates t1 := by
      refine h.trans ⟨rfl, rfl, fun k y hy => ?_⟩
      change tblFind (tblDel t.mem.spool _) k = some y at hy
      rw [tblFind_tblDel] at hy
      split at hy
      · exact absurd hy (by simp)
      · exact ⟨y, hy, rfl⟩
    split
    · exact h1.writeBack _
    · exact h1

theorem takeBack (h : s.Vacates t) (pa : Nat) : s.Vacates (t.takeBack pa) := by
  unfold State.takeBack
  split
  · split
    · split
      · exact h.nextFree.onLine _ _
      · exact h.nextFree
    · split
      · exact h.nextFree.onLine _ _
      · exact h.nextFree
    · exact h
  · exact h

end State.Vacates

/-- The search for the least recently used way keeps one of those it has seen. -/
theorem foldl_some_mem (age : Nat → Nat) (l : List Nat) (b : Nat) (seen : List Nat) (hb : b ∈ seen) :
    ∃ w, l.foldl (fun best w => match best with
      | none => some w
      | some b => if age w < age b then some w else some b) (some b) = some w ∧ w ∈ seen ++ l := by
  induction l generalizing b seen with
  | nil => exact ⟨b, rfl, by simpa using hb⟩
  | cons x l ih =>
    rw [List.foldl_cons]
    dsimp only
    split
    · obtain ⟨w, hw, hmem⟩ := ih x (seen ++ [x]) (by simp)
      exact ⟨w, hw, by simpa using hmem⟩
    · obtain ⟨w, hw, hmem⟩ := ih b (seen ++ [x]) (List.mem_append_left _ hb)
      exact ⟨w, hw, by simpa using hmem⟩

theorem State.lruWay_mem (s : State) (pa : Nat) (ws : List Nat) (h : ws ≠ []) : ∃ w, s.lruWay pa ws = some w ∧ w ∈ ws := by
  cases ws with
  | nil => exact absurd rfl h
  | cons x l =>
    exact foldl_some_mem (fun x => match tblFind s.mem.spool (spoolKey pa x) with
      | some l => l.lru
      | none => 0) l x [x] (List.mem_singleton_self x)

theorem State.mem_of_lruWay {s : State} {pa w : Nat} {ws : List Nat} (h : s.lruWay pa ws = some w) : w ∈ ws := by
  by_cases hne : ws = []
  · subst hne
    exact absurd h (by simp [State.lruWay])
  · obtain ⟨v, hv, hmem⟩ := s.lruWay_mem pa ws hne
    rw [Option.some.inj (h.symm.trans hv)]
    exact hmem

/-- The victim is one of the ways that a fill may use (R297). -/
theorem State.victimWay_mem (s : State) (pa : Nat) (ws : List Nat) (h : ws ≠ []) : ∃ w, s.victimWay pa ws = some w ∧ w ∈ ws := by
  unfold State.victimWay
  split
  · next w hw => exact ⟨w, rfl, List.mem_of_find?_eq_some hw⟩
  · split
    · next w hw =>
      exact ⟨w, rfl, List.mem_of_mem_filter (State.mem_of_lruWay hw)⟩
    · exact s.lruWay_mem pa ws h

/-- An invalid way is the victim where there is one (R297). -/
theorem State.victimWay_invalid (s : State) (pa : Nat) (ws : List Nat) (h : ∃ w ∈ ws, tblFind s.mem.spool (spoolKey pa w) = none) :
    ∃ w ∈ ws, s.victimWay pa ws = some w ∧ tblFind s.mem.spool (spoolKey pa w) = none := by
  obtain ⟨v, hv, hnone⟩ := h
  unfold State.victimWay
  split
  · next w hw =>
    have hinvalid : (tblFind s.mem.spool (spoolKey pa w)).isNone = true := by simpa using List.find?_some hw
    exact ⟨w, List.mem_of_find?_eq_some hw, rfl, Option.isNone_iff_eq_none.mp hinvalid⟩
  · next hw => exact absurd (List.find?_eq_none.mp hw v hv) (by simp [hnone])

theorem waysFor_lt (cls : MemClass) (r w : Nat) (hr : r ≤ 12) (h : w ∈ waysFor cls r) : w < 16 := by
  unfold waysFor at h
  split at h
  · have := List.mem_range.mp h
    omega
  · exact List.mem_range.mp (List.mem_of_mem_drop h)

theorem waysFor_ne_nil (cls : MemClass) (r : Nat) (hr : r ≤ 12) (h : cls ≠ .raster ∨ r ≠ 0) : waysFor cls r ≠ [] := by
  unfold waysFor
  split
  · next hc => simpa using h.resolve_left (not_not_intro hc)
  · simp only [ne_eq, List.drop_eq_nil_iff, List.length_range]
    omega

theorem State.rasWays_le (s : State) : s.rasWays ≤ 12 := Nat.min_le_left _ _

/-- A line put in a way that the Spool does not hold it in yet is found there. -/
theorem State.line?_of_put {s t : State} {pa w : Nat} (l : SLine) (hpa : l.pa = lineOf pa) (hw : w < 16) (hno : s.wayOf pa = none)
    (hways : ∀ k y, tblFind t.mem.spool k = some y → k = spoolKey pa w ∧ y = l ∨ ∃ x, tblFind s.mem.spool k = some x ∧ x.pa = y.pa)
    (hput : tblFind t.mem.spool (spoolKey pa w) = some l) : t.line? pa = some l := by
  cases hv : t.wayOf pa with
  | none => exact absurd hpa (State.wayOf_none hv w hw l hput)
  | some v =>
    obtain ⟨hlt, y, hy, hypa⟩ := State.wayOf_some hv
    rw [State.line?_of_way hv, hy]
    rcases hways _ y hy with ⟨-, rfl⟩ | ⟨x, hx, hxy⟩
    · rfl
    · exact absurd (hxy.trans hypa) (State.wayOf_none hno v hlt x hx)

/-- A line allocated in its victim way is found, nothing has arrived and DRAM is as it was. -/
theorem State.allocate_line {s : State} (l : SLine) (ws : List Nat) (r : Option (List Byte)) (hne : ws ≠ []) (hlt : ∀ w ∈ ws, w < 16)
    (hno : s.wayOf l.pa = none) (hpa : lineOf l.pa = l.pa) :
    let t := s.allocate l ws r
    t.line? l.pa = some { l with lru := s.mem.use + 1 } ∧ t.mem.arrived = s.mem.arrived ∧ t.mem.dram = s.mem.dram := by
  intro t
  obtain ⟨w, hvictim, hmem⟩ := s.victimWay_mem l.pa ws hne
  have ht : t = ((s.evictWay l.pa w r).onMem fun m => { m with use := m.use + 1 }).putLine w { l with lru := s.mem.use + 1 } := by
    change s.allocate l ws r = _
    rw [State.allocate, hvictim]
  have hevict := (State.Vacates.refl s).evictWay l.pa w r
  refine ⟨?_, ?_, ?_⟩
  · have hspool : t.mem.spool = tblPut (s.evictWay l.pa w r).mem.spool (spoolKey l.pa w) { l with lru := s.mem.use + 1 } := by rw [ht]; rfl
    refine State.line?_of_put (s := s) (w := w) { l with lru := s.mem.use + 1 } hpa.symm (hlt w hmem) hno (fun k y hy => ?_) ?_
    · rw [hspool, tblFind_tblPut] at hy
      split at hy
      · next hk => exact .inl ⟨hk, (Option.some.inj hy).symm⟩
      · exact .inr (hevict.ways k y hy)
    · rw [hspool, tblFind_tblPut, if_pos rfl]
  · rw [ht]; exact hevict.arrived
  · rw [ht]; exact hevict.dram

/-- Outside a fill an allocation follows what the victim's holder gives back (Table 6.4). -/
theorem State.allocateNow_eq (s : State) (l : SLine) (cls : MemClass) :
    ∃ u, s.Vacates u ∧ s.allocateNow l cls = u.allocate l (waysFor cls s.rasWays) none := by
  unfold State.allocateNow
  extract_lets ws
  split
  · exact ⟨_, (State.Vacates.refl s).takeBack _, rfl⟩
  · exact ⟨s, .refl s, rfl⟩

theorem State.Vacates.wayOf_none {s t : State} (h : s.Vacates t) (pa : Nat) (hno : s.wayOf pa = none) : t.wayOf pa = none := by
  cases hw : t.wayOf pa with
  | none => rfl
  | some w =>
    obtain ⟨hlt, y, hy, hypa⟩ := State.wayOf_some hw
    obtain ⟨x, hx, hxy⟩ := h.ways _ y hy
    exact absurd (hxy.trans hypa) (State.wayOf_none hno w hlt x hx)

theorem State.allocateNow_line {s : State} (l : SLine) (cls : MemClass) (hways : cls ≠ .raster ∨ s.rasWays ≠ 0)
    (hno : s.wayOf l.pa = none) (hpa : lineOf l.pa = l.pa) :
    let t := s.allocateNow l cls
    (∃ n, t.line? l.pa = some { l with lru := n }) ∧ t.mem.arrived = s.mem.arrived ∧ t.mem.dram = s.mem.dram := by
  intro t
  obtain ⟨u, hu, ht⟩ := s.allocateNow_eq l cls
  obtain ⟨hline, harrived, hdram⟩ := State.allocate_line (s := u) l (waysFor cls s.rasWays) none
    (waysFor_ne_nil cls s.rasWays s.rasWays_le hways) (fun w => waysFor_lt cls s.rasWays w s.rasWays_le) (hu.wayOf_none l.pa hno) hpa
  have ht : t = u.allocate l (waysFor cls s.rasWays) none := ht
  rw [ht]
  exact ⟨⟨_, hline⟩, harrived.trans hu.arrived, hdram.trans hu.dram⟩

/-- Where a way is invalid an allocation empties none. -/
theorem State.allocateNow_invalid {s : State} (l : SLine) (cls : MemClass)
    (h : ∃ w ∈ waysFor cls s.rasWays, tblFind s.mem.spool (spoolKey l.pa w) = none) :
    ∃ w, tblFind s.mem.spool (spoolKey l.pa w) = none ∧
      s.allocateNow l cls = (s.onMem fun m => { m with use := m.use + 1 }).putLine w { l with lru := s.mem.use + 1 } := by
  obtain ⟨w, -, hvictim, hnone⟩ := s.victimWay_invalid l.pa _ h
  refine ⟨w, hnone, ?_⟩
  have hbind : ((s.victimWay l.pa (waysFor cls s.rasWays)).bind fun w => tblFind s.mem.spool (spoolKey l.pa w)) = none := by
    rw [hvictim]; exact hnone
  unfold State.allocateNow
  dsimp only
  rw [hbind]
  dsimp only
  rw [State.allocate, hvictim]
  dsimp only
  rw [State.evictWay, hnone]

/-- A line put in an invalid way leaves the lines of all other addresses. -/
theorem State.line?_putLine_ne {s t : State} {w b : Nat} {l : SLine} (hspool : t.mem.spool = tblPut s.mem.spool (spoolKey l.pa w) l)
    (hleave : t.mem.leaving = s.mem.leaving) (hnone : tblFind s.mem.spool (spoolKey l.pa w) = none) (hb : lineOf b ≠ l.pa) :
    t.line? b = s.line? b := by
  have hfind (v : Nat) : tblFind t.mem.spool (spoolKey b v) =
      if spoolKey b v = spoolKey l.pa w then some l else tblFind s.mem.spool (spoolKey b v) := by rw [hspool, tblFind_tblPut]
  have hway : t.wayOf b = s.wayOf b := by
    rw [State.wayOf_eq, State.wayOf_eq]
    congr 1
    funext v
    rw [State.holdsAt, State.holdsAt, hfind]
    split
    · next hk => rw [hk, hnone]; exact beq_false_of_ne hb.symm
    · rfl
  cases hs : s.wayOf b with
  | none => rw [State.line?_of_no_way (hway.trans hs), State.line?_of_no_way hs, hleave]
  | some v =>
    obtain ⟨-, x, hx, -⟩ := State.wayOf_some hs
    rw [State.line?_of_way (hway.trans hs), State.line?_of_way hs, hfind, if_neg]
    intro hk
    rw [hk, hnone] at hx
    exact absurd hx (by simp)

end Sys2Proof.Machine
end

section
/-! PROOF. Reads and writes at the Spool (R296 to R314, R321 to R327, R847, R849). -/

namespace Sys2Proof.Machine

/-! Deliveries from a slice. -/

theorem State.LinesOnly.deliver_arrived {s t : State} (h : s.LinesOnly t) (later req tag pa : Nat) (d : List Byte) (darn : Bool) :
    (t.deliver later req tag pa d darn).mem.arrived = s.mem.arrived ++ [s.delivery later req tag pa d darn] := by
  rw [State.deliver_mem]
  dsimp only
  rw [h.arrived, State.delivery, State.delivery, h.trd]

theorem State.LinesOnly.deliver_clean {s t : State} (h : s.LinesOnly t) (later req tag pa : Nat) (d : List Byte) :
    let v := t.deliver later req tag pa d false
    v = { s with mem := v.mem, sht := v.sht, looms := v.looms } := by
  intro v
  have hv : v = _ := t.deliver_clean later req tag pa d
  rw [hv, State.lineArrived, h]
  rfl

theorem State.LinesOnly.deliver_ack {s t : State} (h : s.LinesOnly t) (later req tag pa : Nat) :
    let v := t.deliver later req tag pa [] false
    v = { s with mem := v.mem, sht := v.sht } := by
  intro v
  have hv : v = _ := t.deliver_ack later req tag pa false
  rw [hv, State.lineArrived, h]
  rfl

/-- A delivery leaves the lines of the Spool. -/
@[simp] theorem State.line?_deliver (s : State) (later req tag pa b : Nat) (d : List Byte) (darn : Bool) :
    (s.deliver later req tag pa d darn).line? b = s.line? b :=
  ((State.SameBytes.refl s).deliver later req tag pa d darn).line? b

@[simp] theorem State.memByte_deliver (s : State) (later req tag pa a : Nat) (d : List Byte) (darn : Bool) :
    (s.deliver later req tag pa d darn).memByte a = s.memByte a :=
  ((State.SameBytes.refl s).deliver later req tag pa d darn).memByte a

/-! The turn at a slice (R306). -/

theorem State.takeAt_late (s : State) (pa req : Nat) (x : Nat × Nat) (hx : tblFind s.mem.taken (sliceOf pa) = some x) (hc : x.1 = s.trd.cclk)
    (hr : req < x.2) :
    s.takeAt pa req = { s.tick with mem := { s.tick.mem with taken := (s.takeAt pa req).mem.taken } } := by
  unfold State.takeAt
  simp only [hx, hc, hr, beq_self_eq_true, decide_true, Bool.and_self, if_true]
  rfl

theorem State.takeAt_now (s : State) (pa req : Nat)
    (h : ∀ x, tblFind s.mem.taken (sliceOf pa) = some x → ¬(x.1 = s.trd.cclk ∧ req < x.2)) :
    s.takeAt pa req = { s with mem := { s.mem with taken := (s.takeAt pa req).mem.taken } } := by
  unfold State.takeAt
  dsimp only
  cases hx : tblFind s.mem.taken (sliceOf pa) with
  | none => rfl
  | some x =>
    have hlate : (x.1 == s.trd.cclk && decide (req < x.2)) = false := by
      simpa [Bool.and_eq_false_iff, not_and] using h x hx
    simp only [hlate, Bool.false_eq_true, if_false]
    rfl

/-! Errors of a lookup (R326 to R328). -/

theorem State.lookupError_none (s : State) (pa : Nat) : s.lookupError pa .none = s := by
  unfold State.lookupError
  split
  · rfl
  · rfl
  all_goals contradiction

theorem State.lookupError_corrected {s : State} {pa : Nat} {l : SLine} (h : s.line? pa = some l) :
    s.lookupError pa .corrected = s.bump Reg.SPL_CE_CNT := by
  simp only [State.lookupError, h]

theorem State.lookupError_poisons {s : State} {pa : Nat} {l : SLine} (h : s.line? pa = some l) (e : SpoolError)
    (he : e = .uncorrectable ∨ (e = .tagParity ∧ l.dirty = true)) : s.lookupError pa e = s.poisonLine pa := by
  rcases he with rfl | ⟨rfl, hd⟩
  · simp only [State.lookupError, h]
  · simp only [State.lookupError, h, hd, if_true]

/-- A way of an address loses its line. -/
def State.wayLost (s : State) (pa w : Nat) : State := s.onMem fun m => { m with spool := tblDel m.spool (spoolKey pa w) }

theorem State.lookupError_loses {s : State} {pa w : Nat} {l : SLine} (h : s.line? pa = some l) (hw : s.wayOf pa = some w) (hd : l.dirty = false) :
    s.lookupError pa .tagParity = s.wayLost pa w := by
  simp only [State.lookupError, h, hd, Bool.false_eq_true, if_false, hw, State.wayLost]

/-! Reads. -/

theorem exec_spoolRequest_beyond (s : State) (req : Fin 38) (tag pa : Nat) (cls : MemClass) (e : SpoolError)
    (h : (s.takeAt pa req).dramTop ≤ pa) : exec (.spoolRequest req tag pa cls e) s = .next ((s.takeAt pa req).beyondTop req tag pa) := if_pos h

theorem exec_spoolRequest_inside (s : State) (req : Fin 38) (tag pa : Nat) (cls : MemClass) (e : SpoolError)
    (h : pa < (s.takeAt pa req).dramTop) :
    exec (.spoolRequest req tag pa cls e) s = .next (((s.takeAt pa req).lookupError pa e).spoolRead req tag pa cls) :=
  if_neg (Nat.not_le.mpr h)

section
variable {u : State} {pa : Nat} (htop : pa < u.dramTop)
include htop

/-- A hit that no L1 has modified gives the Spool's line (R301, R314). -/
theorem State.spoolRead_hit {l : SLine} (req tag : Nat) (cls : MemClass) (hl : u.line? pa = some l)
    (h : u.cohAccess req pa cls = false ∨ (u.dirBusy pa = false ∧ (l.dir = .inv ∨ l.dir = .shared))) :
    u.spoolRead req tag pa cls = (u.touch pa).deliver 42 req tag pa l.data l.poison := by
  unfold State.spoolRead
  rw [if_neg (Nat.not_le.mpr htop), hl]
  dsimp only
  by_cases hc : u.cohAccess req pa cls = false
  · rw [if_pos hc]
  · obtain ⟨hb, hd⟩ := h.resolve_left hc
    rw [if_neg hc, if_neg (by simp [hb]), if_neg]
    rcases hd with hd | hd <;> simp [hd]

/-- A coherent read of a busy line waits (R313). -/
theorem State.spoolRead_later {l : SLine} (req tag : Nat) (cls : MemClass) (hl : u.line? pa = some l) (hc : u.cohAccess req pa cls = true)
    (hb : u.dirBusy pa = true) : u.spoolRead req tag pa cls = u.askFor .later 0 pa (Waiter.reader req tag cls .no) := by
  unfold State.spoolRead
  rw [if_neg (Nat.not_le.mpr htop), hl]
  dsimp only
  rw [if_neg (by simp [hc]), if_pos hb]

/-- A coherent read recalls what the line's holder in E or M may have modified (R314). -/
theorem State.spoolRead_recall {l : SLine} (req tag b : Nat) (cls : MemClass) (hl : u.line? pa = some l) (hc : u.cohAccess req pa cls = true)
    (hb : u.dirBusy pa = false) (hd : l.dir = .excl ∨ l.dir = .modified) (hh : l.holders = [b]) :
    u.spoolRead req tag pa cls = u.askFor .recall b pa (Waiter.reader req tag cls .no) := by
  unfold State.spoolRead
  rw [if_neg (Nat.not_le.mpr htop), hl]
  dsimp only
  rw [if_neg (by simp [hc]), if_neg (by simp [hb]), if_pos (by simpa using hd), hh]
  rfl

/-- A line of an unwritten granule reads zeros (R321). -/
theorem State.spoolRead_zero (req tag : Nat) (cls : MemClass) (hl : u.line? pa = none) (hm : ∀ m ∈ u.mem.mshrs, m.pa ≠ lineOf pa)
    (hg : u.granuleSet pa = false) : u.spoolRead req tag pa cls = (u.deliver 42 req tag pa zeroLine false).bump Reg.DMC_WMAP_ZERO_CNT := by
  have hany : (u.mem.mshrs.any fun m => m.pa == lineOf pa) = false := by simpa using hm
  unfold State.spoolRead
  rw [if_neg (Nat.not_le.mpr htop), hl]
  dsimp only
  rw [if_neg (by simp [hg, hany])]

/-- Any other line that the Spool does not hold is a miss. -/
theorem State.spoolRead_miss (req tag : Nat) (cls : MemClass) (hl : u.line? pa = none)
    (h : u.granuleSet pa = true ∨ ∃ m ∈ u.mem.mshrs, m.pa = lineOf pa) :
    u.spoolRead req tag pa cls = u.miss pa (Waiter.reader req tag cls .no) := by
  unfold State.spoolRead
  rw [if_neg (Nat.not_le.mpr htop), hl]
  dsimp only
  rw [if_pos]
  rcases h with h | ⟨m, hm, hpa⟩
  · rw [h, Bool.true_or]
  · rw [Bool.or_eq_true]
    exact .inr (List.any_eq_true.mpr ⟨m, hm, beq_iff_eq.mpr hpa⟩)

end

/-! Misses. -/

theorem mem_insertWaiter (w : Waiter) (l : List Waiter) : w ∈ insertWaiter w l := by
  induction l with
  | nil => exact List.mem_singleton_self w
  | cons x xs ih =>
    unfold insertWaiter
    split
    · exact List.mem_cons_self
    · exact List.mem_cons_of_mem _ ih

/-- A miss of a line whose register is open joins it (R302). -/
theorem State.miss_joins (u : State) (pa : Nat) (w : Waiter) (m : Mshr) (hm : m ∈ u.mem.mshrs) (hpa : m.pa = lineOf pa) :
    let t := u.miss pa w
    t.mem.queue = u.mem.queue ∧ t.mem.mshrs.length = u.mem.mshrs.length ∧
      (∃ m ∈ t.mem.mshrs, m.pa = lineOf pa ∧ w ∈ m.waiters) ∧ t.rd Reg.SPL_MCAST_CNT = counted (u.rd Reg.SPL_MCAST_CNT) := by
  intro t
  have hany : (u.mem.mshrs.any fun m => m.pa == lineOf pa) = true := List.any_eq_true.mpr ⟨m, hm, beq_iff_eq.mpr hpa⟩
  have ht : t = (u.onMem fun m => { m with
      mshrs := m.mshrs.map fun x => if x.pa == lineOf pa then { x with waiters := insertWaiter w x.waiters } else x }).bump
        Reg.SPL_MCAST_CNT := if_pos hany
  refine ⟨?_, ?_, ⟨{ m with waiters := insertWaiter w m.waiters }, ?_, hpa, mem_insertWaiter w m.waiters⟩, ?_⟩
  · rw [ht, State.bump_rest]; rfl
  · rw [ht, State.bump_rest]; exact List.length_map _
  · rw [ht, State.bump_rest]
    exact List.mem_map.mpr ⟨m, hm, if_pos (beq_iff_eq.mpr hpa)⟩
  · rw [ht]; exact State.rd_bump_self _ _

/-- From `s` to `t` nothing has changed but what stands before DRAM: its queue, the check cache and the counts they go by. -/
def State.QueueOnly (s t : State) : Prop :=
  t = { s with mem := { s.mem with queue := t.mem.queue, age := t.mem.age, use := t.mem.use, check := t.mem.check } }

theorem State.QueueOnly.sameBytes {s t : State} (h : s.QueueOnly t) : s.SameBytes t := by
  refine ⟨?_, ?_, ?_, ?_, ?_⟩
  all_goals rw [h]
  rfl

theorem State.QueueOnly.enqueueReq {s t : State} (h : s.QueueOnly t) (q : DramReq) : s.QueueOnly (t.enqueueReq q) := by
  unfold State.QueueOnly State.enqueueReq at *
  rw [h]
  rfl

/-- A request at the end of its channel's queue (R340). -/
theorem State.enqueueReq_mem (s : State) (q : DramReq) :
    ∃ x ∈ (s.enqueueReq q).mem.queue, x.kind = q.kind ∧ x.pa = q.pa ∧ x.chan = q.chan ∧ x.cls = q.cls ∧ x.req = q.req ∧ x.data = q.data ∧
      x.cclk = s.trd.cclk :=
  ⟨_, List.mem_append_right _ (List.mem_singleton_self _), rfl, rfl, rfl, rfl, rfl, rfl, rfl⟩

/-- A data access stands in its channel's queue, behind a read of its check line where that is absent (R340). -/
theorem State.enqueueData_queues (s : State) (kind : DramKind) (pa : Nat) (cls : MemClass) (req : Nat) (d : List Byte) (p : Bool) (a : Option Nat) :
    let t := s.enqueueData kind pa cls req d p a
    s.QueueOnly t ∧ ∃ x ∈ t.mem.queue, x.kind = kind ∧ x.pa = lineOf pa ∧ x.chan = sliceOf pa ∧ x.cls = cls ∧ x.req = req ∧ x.data = d ∧
      x.cclk = s.trd.cclk := by
  intro t
  have ht : t = s.enqueueData kind pa cls req d p a := rfl
  unfold State.enqueueData at ht
  extract_lets c base at ht
  split at ht
  · have htouch : s.QueueOnly (s.touchCheck pa) := rfl
    obtain ⟨x, hx, hkind, hpa, hchan, hcls, hreq, hdata, hcclk⟩ := (s.touchCheck pa).enqueueReq_mem base
    exact ⟨ht ▸ htouch.enqueueReq base, x, ht ▸ hx, hkind, hpa, hchan, hcls, hreq, hdata, hcclk⟩
  · have hself : s.QueueOnly s := rfl
    split at ht
    · next q _ =>
      obtain ⟨x, hx, hkind, hpa, hchan, hcls, hreq, hdata, hcclk⟩ := s.enqueueReq_mem { base with waits := some q.age }
      exact ⟨ht ▸ hself.enqueueReq _, x, ht ▸ hx, hkind, hpa, hchan, hcls, hreq, hdata, hcclk⟩
    · obtain ⟨x, hx, hkind, hpa, hchan, hcls, hreq, hdata, hcclk⟩ :=
        (s.enqueueReq { base with kind := .checkRead, data := [], poison := false, ack := none }).enqueueReq_mem
          { base with waits := some s.mem.age }
      exact ⟨ht ▸ (hself.enqueueReq _).enqueueReq _, x, ht ▸ hx, hkind, hpa, hchan, hcls, hreq, hdata, hcclk⟩

/-- The register that a miss opens (R298, R301). -/
def State.opened (u : State) (pa : Nat) (w : Waiter) : Mshr :=
  { pa := lineOf pa, cls := w.cls, waiters := [w], rasWays := u.rasWays, data := none, poison := false, fillAt := 0 }

/-- A miss of another line opens a register, where one is free, and asks DRAM (R301). -/
theorem State.miss_opens (u : State) (pa : Nat) (w : Waiter) (hm : ∀ m ∈ u.mem.mshrs, m.pa ≠ lineOf pa)
    (hf : u.mshrFree (sliceOf pa) w.cls = true) :
    let t := u.miss pa w
    t.mem.mshrs = u.mem.mshrs ++ [u.opened pa w] ∧ u.SameBytes t ∧ t = { u with mem := t.mem } ∧
      ∃ x ∈ t.mem.queue, x.kind = .read ∧ x.pa = lineOf pa ∧ x.chan = sliceOf pa ∧ x.cls = w.cls ∧ x.req = w.req ∧ x.cclk = u.trd.cclk := by
  intro t
  have hany : ¬(u.mem.mshrs.any fun m => m.pa == lineOf pa) = true := by simpa using hm
  have ht : t = (u.onMem fun m => { m with mshrs := m.mshrs ++ [u.opened pa w] }).enqueueData .read pa w.cls w.req [] false none :=
    (if_neg hany).trans (if_pos hf)
  obtain ⟨hqueue, x, hx, hkind, hpa, hchan, hcls, hreq, -, hcclk⟩ :=
    (u.onMem fun m => { m with mshrs := m.mshrs ++ [u.opened pa w] }).enqueueData_queues .read pa w.cls w.req [] false none
  rw [← ht] at hqueue hx
  have hopen : u.SameBytes (u.onMem fun m => { m with mshrs := m.mshrs ++ [u.opened pa w] }) := ⟨rfl, rfl, rfl, rfl, rfl⟩
  refine ⟨?_, hopen.trans hqueue.sameBytes, ?_, x, hx, hkind, hpa, hchan, hcls, hreq, hcclk⟩
  · rw [hqueue]; rfl
  · rw [hqueue]; rfl

/-- A miss with no register free is held at the slice and counted (R305). -/
theorem State.miss_held (u : State) (pa : Nat) (w : Waiter) (hm : ∀ m ∈ u.mem.mshrs, m.pa ≠ lineOf pa)
    (hf : u.mshrFree (sliceOf pa) w.cls = false) :
    u.miss pa w = (u.onMem fun m => { m with heldMiss := m.heldMiss ++ [⟨lineOf pa, w⟩] }).bump Reg.SPL_MSHR_FULL_CNT := by
  have hany : ¬(u.mem.mshrs.any fun m => m.pa == lineOf pa) = true := by simpa using hm
  exact (if_neg hany).trans (if_neg (by simp [hf]))

/-! Counts of the Spool and poisoned lines. -/

/-- The Spool's and DRAM's counters lie before the windows' registers. -/
theorem State.regionHas_congr {s t : State} (h : ∀ o, 0x71000 ≤ o → o < 0x72000 → t.rd o = s.rd o) (w pa : Nat) (hw : w < 64) :
    t.regionHas w pa = s.regionHas w pa := by
  have hreg (i : Nat) (hi : i < 16) : t.rd (0x71000 + i + 16 * w) = s.rd (0x71000 + i + 16 * w) := h _ (by omega) (by omega)
  have hbase : t.rd (Reg.SPL_REGION_BASE_LO w) = s.rd (Reg.SPL_REGION_BASE_LO w) := hreg 0 (by decide)
  have hhigh : t.rd (Reg.SPL_REGION_BASE_HI w) = s.rd (Reg.SPL_REGION_BASE_HI w) := hreg 4 (by decide)
  have hlimit : t.rd (Reg.SPL_REGION_LIMIT_LO w) = s.rd (Reg.SPL_REGION_LIMIT_LO w) := hreg 8 (by decide)
  have hlimith : t.rd (Reg.SPL_REGION_LIMIT_HI w) = s.rd (Reg.SPL_REGION_LIMIT_HI w) := hreg 12 (by decide)
  unfold State.regionHas State.bit State.fld
  rw [hbase, hhigh, hlimit, hlimith]

theorem State.cohAccess_congr {s t : State} (h : ∀ o, 0x71000 ≤ o → o < 0x72000 → t.rd o = s.rd o) (req pa : Nat) (cls : MemClass) :
    t.cohAccess req pa cls = s.cohAccess req pa cls := by
  have hcoh : t.coherent pa = s.coherent pa := by
    have hfind : (List.range 64).find? (fun w => t.regionHas w pa) = (List.range 64).find? fun w => s.regionHas w pa := by
      refine List.find?_congr fun w hw => ?_
      exact State.regionHas_congr h w pa (List.mem_range.mp hw)
    unfold State.coherent
    rw [hfind]
    split
    · next w hw =>
      have hlt : w < 64 := List.mem_range.mp (List.mem_of_find?_eq_some hw)
      have hbase : t.rd (Reg.SPL_REGION_BASE_LO w) = s.rd (Reg.SPL_REGION_BASE_LO w) :=
        h _ (by rw [Reg.SPL_REGION_BASE_LO]; omega) (by rw [Reg.SPL_REGION_BASE_LO]; omega)
      rw [State.bit, State.bit, State.fld_of_rd hbase]
    · rfl
  rw [State.cohAccess, State.cohAccess, hcoh]

/-- A count at a slice. -/
theorem State.cohAccess_bump (s : State) (o req pa : Nat) (cls : MemClass) (ho : o < 0x71000) :
    (s.bump o).cohAccess req pa cls = s.cohAccess req pa cls :=
  State.cohAccess_congr (fun p hp _ => State.rd_bump_ne _ _ _ (by omega)) req pa cls

theorem State.poisonLine_eq {s : State} {pa : Nat} {l : SLine} (h : s.line? pa = some l) : s.poisonLine pa =
    if l.poison then s else (s.onLine pa fun l => { l with poison := true }).bump Reg.SPL_UE_CNT := by
  rw [State.poisonLine, h]

/-- A line poisoned at a lookup is marked, and the change is counted (R327). -/
theorem State.poisonLine_facts {s : State} {pa : Nat} {l : SLine} (h : s.line? pa = some l) :
    let v := s.poisonLine pa
    v.line? pa = some { l with poison := true } ∧ v.mem.arrived = s.mem.arrived ∧ v.mem.trans = s.mem.trans ∧ v.trd = s.trd ∧
      (∀ o, o ≠ Reg.SPL_UE_CNT → v.rd o = s.rd o) ∧
      v.rd Reg.SPL_UE_CNT = if l.poison = true then s.rd Reg.SPL_UE_CNT else counted (s.rd Reg.SPL_UE_CNT) := by
  intro v
  have hv : v = _ := State.poisonLine_eq h
  by_cases hp : l.poison = true
  · rw [if_pos hp] at hv
    rw [hv, if_pos hp]
    refine ⟨h.trans ?_, rfl, rfl, rfl, fun _ _ => rfl, rfl⟩
    rw [← hp]
  · rw [if_neg hp] at hv
    have hlines := (State.LinesOnly.refl s).onLine pa fun l => { l with poison := true }
    have hline := s.line?_onLine pa pa (fun l => { l with poison := true }) fun _ => rfl
    rw [if_pos rfl, h] at hline
    have hregs (o : Nat) : (s.onLine pa fun l => { l with poison := true }).rd o = s.rd o := by rw [hlines]; rfl
    have hsame := (State.SameBytes.refl (s.onLine pa fun l => { l with poison := true })).bump Reg.SPL_UE_CNT (by decide)
    rw [hv, if_neg hp]
    refine ⟨(hsame.line? pa).trans hline, ?_, ?_, ?_, fun o ho => (State.rd_bump_ne _ _ _ ho).trans (hregs o),
      (State.rd_bump_self _ _).trans (congrArg counted (hregs _))⟩
    · rw [State.bump_rest]; exact hlines.arrived
    · rw [State.bump_rest, hlines]
    · rw [State.bump_rest]; exact hlines.trd

/-! Writes. -/

theorem exec_spoolWrite (s : State) (req : Fin 38) (tag pa : Nat) (data : List Byte) (cls : MemClass) (d : Bool) :
    exec (.spoolWrite req tag pa data cls d) s = .next ((s.takeAt pa req).spoolWrite req tag pa data cls d) := rfl

/-- A write beyond the DRAM top is acknowledged and writes nothing (R847). -/
theorem State.spoolWrite_beyond (u : State) (req tag pa : Nat) (data : List Byte) (cls : MemClass) (d : Bool) (h : u.dramTop ≤ pa) :
    u.spoolWrite req tag pa data cls d = u.deliver 42 req tag pa [] false := if_pos h

/-- The waiter of a write. -/
def writeWaiter (req tag pa : Nat) (data : List Byte) (cls : MemClass) : Waiter :=
  { req := req, tag := tag, write := some (pa % 128, data), darned := false, cls := cls, want := .no }

section
variable {u : State} {pa : Nat} {data : List Byte} (htop : pa < u.dramTop) (hin : pa % 128 + data.length ≤ 128)
include htop hin

theorem State.spoolWrite_hit {l : SLine} (req tag : Nat) (cls : MemClass) (hl : u.line? pa = some l)
    (h : u.cohAccess req pa cls = false ∨ (u.dirBusy pa = false ∧ (l.dir = .inv ∨ l.dir = .shared ∨ data.length = 128))) :
    u.spoolWrite req tag pa data cls false = u.mergeWrite req tag pa data cls false l := by
  have htake : data.take (128 - pa % 128) = data := List.take_of_length_le (by omega)
  unfold State.spoolWrite
  rw [if_neg (Nat.not_le.mpr htop), hl]
  dsimp only
  rw [htake]
  rcases h with hc | ⟨hb, hd⟩
  · rw [if_neg (by simp [hc]), if_neg (by simp [hc])]
  · rw [if_neg (by simp [hb]), if_neg]
    rcases hd with hd | hd | hd <;> simp [hd]

theorem State.spoolWrite_recall {l : SLine} (req tag b : Nat) (cls : MemClass) (hl : u.line? pa = some l)
    (hc : u.cohAccess req pa cls = true) (hb : u.dirBusy pa = false) (hd : l.dir = .excl ∨ l.dir = .modified) (hpart : data.length < 128)
    (hh : l.holders = [b]) :
    u.spoolWrite req tag pa data cls false = u.askFor .recallWrite b pa (writeWaiter req tag pa data cls) := by
  have htake : data.take (128 - pa % 128) = data := List.take_of_length_le (by omega)
  unfold State.spoolWrite
  rw [if_neg (Nat.not_le.mpr htop), hl]
  dsimp only
  rw [htake, if_neg (by simp [hb]), if_pos (by simpa [hc, hpart] using hd), hh]
  rfl

/-- The line that a write allocates (R299, R322). -/
def freshLine (req pa : Nat) (data : List Byte) (cls : MemClass) : SLine :=
  { pa := lineOf pa, dirty := true, data := patch zeroLine (pa % 128) data, poison := false, cls := cls, writer := req, lru := 0, dir := .inv,
    holders := [] }

theorem State.spoolWrite_allocates (req tag : Nat) (cls : MemClass) (hl : u.line? pa = none) (hm : ∀ m ∈ u.mem.mshrs, m.pa ≠ lineOf pa)
    (hw : data.length = 128 ∨ u.granuleSet pa = false) (hc : cls ≠ .raster ∨ u.rasWays ≠ 0) :
    u.spoolWrite req tag pa data cls false =
      ((u.dropOwn req pa).allocateNow (freshLine req pa data cls) cls).deliver 42 req tag pa [] false := by
  have htake : data.take (128 - pa % 128) = data := List.take_of_length_le (by omega)
  have hany : ((u.dropOwn req pa).mem.mshrs.any fun m => m.pa == lineOf pa) = false :=
    show (u.mem.mshrs.any fun m => m.pa == lineOf pa) = false by simpa using hm
  unfold State.spoolWrite
  rw [if_neg (Nat.not_le.mpr htop), hl]
  dsimp only
  rw [htake, if_neg (by rw [hany]; decide), if_neg (by simpa [imp_iff_not_or] using hc), if_pos (by simpa using hw), if_neg (by decide)]
  rfl

theorem State.spoolWrite_misses (req tag : Nat) (cls : MemClass) (hl : u.line? pa = none) (hm : ∀ m ∈ u.mem.mshrs, m.pa ≠ lineOf pa)
    (hpart : data.length ≠ 128) (hg : u.granuleSet pa = true) :
    u.spoolWrite req tag pa data cls false = (u.dropOwn req pa).miss pa (writeWaiter req tag pa data cls) := by
  have htake : data.take (128 - pa % 128) = data := List.take_of_length_le (by omega)
  have hany : ((u.dropOwn req pa).mem.mshrs.any fun m => m.pa == lineOf pa) = false :=
    show (u.mem.mshrs.any fun m => m.pa == lineOf pa) = false by simpa using hm
  unfold State.spoolWrite
  rw [if_neg (Nat.not_le.mpr htop), hl]
  dsimp only
  rw [htake, if_neg (by rw [hany]; decide)]
  split
  · rfl
  · rw [if_neg (by simp [hpart, hg])]
    rfl

end

/-- What a write makes of the line it merges into: in coherent mode no L1 holds it any more (Table 6.4). -/
def SLine.written (x : SLine) (coh : Bool) (pa : Nat) (data : List Byte) (cls : MemClass) (req : Nat) : SLine :=
  if coh then { x.merge (pa % 128) data cls req false with dir := .inv, holders := [] } else x.merge (pa % 128) data cls req false

/-- The state once a write has merged into the Spool's line. -/
def State.merged (u : State) (req pa : Nat) (data : List Byte) (cls : MemClass) : State :=
  ((u.onMem fun m => { m with
    l1 := m.l1.filter fun x => !(x.pa == lineOf pa && (x.loom == req || u.cohAccess req pa cls && x.coh)) }).touch pa).onLine pa fun x =>
      x.written (u.cohAccess req pa cls) pa data cls req

theorem State.mergeWrite_eq (u : State) (req tag pa : Nat) (data : List Byte) (cls : MemClass) (l : SLine) :
    u.mergeWrite req tag pa data cls false l = (u.merged req pa data cls).deliver 42 req tag pa [] false := rfl

theorem SLine.written_pa (x : SLine) (coh : Bool) (pa : Nat) (data : List Byte) (cls : MemClass) (req : Nat) :
    (x.written coh pa data cls req).pa = x.pa := by
  unfold SLine.written
  split <;> rfl

theorem SLine.written_data (x : SLine) (coh : Bool) (pa : Nat) (data : List Byte) (cls : MemClass) (req : Nat) :
    (x.written coh pa data cls req).data = patch x.data (pa % 128) data := by
  unfold SLine.written
  split <;> rfl

theorem SLine.written_marks (x : SLine) (coh : Bool) (pa : Nat) (data : List Byte) (cls : MemClass) (req : Nat) :
    (x.written coh pa data cls req).dirty = true ∧ (x.written coh pa data cls req).cls = cls ∧ (x.written coh pa data cls req).writer = req := by
  unfold SLine.written
  split <;> exact ⟨rfl, rfl, rfl⟩

theorem State.merged_linesOnly (u : State) (req pa : Nat) (data : List Byte) (cls : MemClass) : u.LinesOnly (u.merged req pa data cls) :=
  (((State.LinesOnly.refl u).setL1 _).touch pa).onLine pa _

/-- The line once a write has merged into it. -/
theorem State.line?_merged (u : State) (req pa b : Nat) (data : List Byte) (cls : MemClass) : (u.merged req pa data cls).line? b =
    if lineOf b = lineOf pa then
      (u.line? b).map fun x => SLine.written { x with lru := u.mem.use + 1 } (u.cohAccess req pa cls) pa data cls req
    else u.line? b := by
  unfold State.merged
  rw [State.line?_onLine _ _ _ _ fun x => x.written_pa _ _ _ _ _, State.line?_touch]
  split
  · exact Option.map_map _ _ _
  · rfl

/-- A coherent write takes every L1's copy (Table 6.4). -/
theorem State.merged_l1 (u : State) (req pa : Nat) (data : List Byte) (cls : MemClass) (h : u.cohAccess req pa cls = true) :
    ∀ x ∈ (u.merged req pa data cls).mem.l1, x.coh = true → x.pa ≠ lineOf pa := by
  have hl1 (v : State) (f : SLine → SLine) : (v.onLine pa f).mem.l1 = v.mem.l1 := by
    unfold State.onLine
    split
    · split <;> rfl
    · rfl
  intro x hx hcoh hpa
  unfold State.merged State.touch at hx
  rw [hl1, hl1] at hx
  have hkept := (List.mem_filter.mp hx).2
  simp [h, hcoh, hpa] at hkept

/-- Inside the line the bytes are those of the write. -/
theorem State.memByte_merged_inside {u : State} {pa : Nat} {data : List Byte} {l : SLine} (req : Nat) (cls : MemClass) (htop : pa < u.dramTop)
    (hin : pa % 128 + data.length ≤ 128) (hl : u.line? pa = some l) (hlen : l.data.length = 128) (i : Nat) (h : i < data.length) :
    (u.merged req pa data cls).memByte (pa + i) = data[i] := by
  have hline : lineOf (pa + i) = lineOf pa := lineOf_inside pa i (by omega)
  have hread := u.line?_merged req pa (pa + i) data cls
  rw [if_pos hline, u.line?_line _ _ hline, hl] at hread
  have hmod : (pa + i) % 128 = pa % 128 + i := by omega
  rw [State.memByte_line (by rw [(u.merged_linesOnly req pa data cls).dramTop]; exact State.inside_dramTop htop (by omega)) hread,
    SLine.written_data, hmod]
  exact patch_getD_inside _ _ _ _ (by dsimp only; omega) hin h

/-- Every other byte is as it was. -/
theorem State.memByte_merged_outside {u : State} {pa : Nat} {data : List Byte} {l : SLine} (req : Nat) (cls : MemClass)
    (hin : pa % 128 + data.length ≤ 128) (hl : u.line? pa = some l) (hlen : l.data.length = 128) (a : Nat)
    (h : a < pa ∨ pa + data.length ≤ a) : (u.merged req pa data cls).memByte a = u.memByte a := by
  have hkept := u.merged_linesOnly req pa data cls
  have hread := u.line?_merged req pa a data cls
  by_cases hline : lineOf a = lineOf pa
  · rw [if_pos hline, u.line?_line _ _ hline, hl] at hread
    have hold : u.line? a = some l := (u.line?_line _ _ hline).trans hl
    unfold State.memByte
    rw [hkept.dramTop, hread, hold]
    dsimp only [Option.map_some]
    rw [SLine.written_data]
    have hsame := (lineOf_eq_iff a pa).mp hline
    rw [patch_getD_outside _ _ _ _ hlen hin (Nat.mod_lt _ (by decide)) (by omega)]
  · rw [if_neg hline] at hread
    exact State.memByte_congr a hkept.dramTop (congrArg _ hread) (hkept.dramByte a)

/-- The line that a write allocates. -/
def State.allocated (u : State) (req pa : Nat) (data : List Byte) (cls : MemClass) : State :=
  (u.dropOwn req pa).allocateNow (freshLine req pa data cls) cls

theorem State.allocated_line {u : State} {pa : Nat} (req : Nat) (data : List Byte) (cls : MemClass) (hl : u.line? pa = none)
    (hc : cls ≠ .raster ∨ u.rasWays ≠ 0) :
    let t := u.allocated req pa data cls
    (∃ n, t.line? pa = some { freshLine req pa data cls with lru := n }) ∧ t.mem.arrived = u.mem.arrived ∧ t.mem.dram = u.mem.dram := by
  have hno : (u.dropOwn req pa).wayOf (lineOf pa) = none :=
    (u.wayOf_line _ _ (lineOf_lineOf pa)).trans (State.wayOf_of_line?_none hl)
  obtain ⟨⟨n, hline⟩, harrived, hdram⟩ := State.allocateNow_line (s := u.dropOwn req pa) (freshLine req pa data cls) cls hc hno (lineOf_lineOf pa)
  exact ⟨⟨n, (State.line?_line _ _ _ (lineOf_lineOf pa).symm).trans hline⟩, harrived, hdram⟩

theorem zeroLine_length : zeroLine.length = 128 := List.length_replicate

theorem zeroLine_getD (i : Nat) : zeroLine.getD i 0#8 = 0#8 := by
  rw [zeroLine, List.getD_eq_getElem?_getD, List.getElem?_replicate]
  split <;> rfl

/-- A line allocated in an invalid way leaves every byte that the write does not write: those of its line read zero before (R321, R322). -/
theorem State.memByte_allocated {u : State} {pa : Nat} {data : List Byte} (req : Nat) (cls : MemClass) (hin : pa % 128 + data.length ≤ 128)
    (hl : u.line? pa = none) (hw : data.length = 128 ∨ u.granuleSet pa = false) (hc : cls ≠ .raster ∨ u.rasWays ≠ 0)
    (hfree : ∃ w ∈ waysFor cls u.rasWays, tblFind u.mem.spool (spoolKey pa w) = none) (a : Nat) (ha : a < pa ∨ pa + data.length ≤ a) :
    (u.allocated req pa data cls).memByte a = u.memByte a := by
  obtain ⟨⟨n, hline⟩, -⟩ := State.allocated_line req data cls hl hc
  obtain ⟨w, hnone, ht⟩ := State.allocateNow_invalid (s := u.dropOwn req pa) (freshLine req pa data cls) cls
    (by obtain ⟨w, hmem, hw⟩ := hfree; exact ⟨w, hmem, (congrArg _ (spoolKey_lineOf pa w)).trans hw⟩)
  have ht : u.allocated req pa data cls = _ := ht
  have htop : (u.allocated req pa data cls).dramTop = u.dramTop := by rw [ht]; rfl
  by_cases hsame : lineOf a = lineOf pa
  · have hnew : (u.allocated req pa data cls).line? a = some { freshLine req pa data cls with lru := n } :=
      (State.line?_line _ _ _ hsame).trans hline
    have hold : u.line? a = none := (u.line?_line _ _ hsame).trans hl
    have hdiv := (lineOf_eq_iff a pa).mp hsame
    have hunset : u.granuleSet pa = false := hw.resolve_left (by omega)
    have hzero : u.dramByte a = 0#8 := by
      have hgran : a / 4096 = pa / 4096 := by omega
      rw [State.dramByte, State.granuleSet, hgran]
      exact if_neg (by rw [← State.granuleSet, hunset]; decide)
    unfold State.memByte
    rw [htop, hnew, hold]
    dsimp only [freshLine]
    rw [patch_getD_outside _ _ _ _ zeroLine_length hin (Nat.mod_lt _ (by decide)) (by omega), zeroLine_getD, hzero]
  · have hother : (u.allocated req pa data cls).line? a = u.line? a := by
      rw [ht]
      exact State.line?_putLine_ne (s := u) (l := { freshLine req pa data cls with lru := _ }) rfl rfl hnone hsame
    refine State.memByte_congr a htop (congrArg _ hother) ?_
    rw [ht]
    rfl

/-! The requests. -/

/-- A read that hits: the line as it stands, one with a corrected error, and one that the lookup poisons (R301, R326, R327). -/
theorem State.spoolRead_hit_serves {u : State} {pa : Nat} {l : SLine} (req : Nat) (tag : Nat) (cls : MemClass) (htop : pa < u.dramTop)
    (hl : u.line? pa = some l) (hfree : u.cohAccess req pa cls = false ∨ (u.dirBusy pa = false ∧ (l.dir = .inv ∨ l.dir = .shared))) :
    let gives := fun (t : State) (d : List Byte) (darn : Bool) => t.mem.arrived = u.mem.arrived ++ [⟨u.trd.cclk + 42, req, tag, lineOf pa, d, darn⟩]
    (let t := u.spoolRead req tag pa cls
     gives t l.data l.poison ∧ (l.poison = false → t = { u with mem := t.mem, sht := t.sht, looms := t.looms }) ∧
        ∀ a, t.memByte a = u.memByte a) ∧
    (l.poison = false →
      let t := (u.lookupError pa .corrected).spoolRead req tag pa cls
      gives t l.data false ∧ t.rd Reg.SPL_CE_CNT = counted (u.rd Reg.SPL_CE_CNT) ∧
        t = { u with mem := t.mem, sht := t.sht, looms := t.looms, regs := t.regs }) ∧
    ∀ e, e = .uncorrectable ∨ (e = .tagParity ∧ l.dirty = true) →
      let t := (u.lookupError pa e).spoolRead req tag pa cls
      gives t l.data true ∧ (∃ l', t.line? pa = some l' ∧ l'.poison = true ∧ l'.data = l.data) ∧
        t.rd Reg.SPL_UE_CNT = if l.poison = true then u.rd Reg.SPL_UE_CNT else counted (u.rd Reg.SPL_UE_CNT) := by
  refine ⟨?_, fun hp => ?_, fun e he => ?_⟩
  · have htouch := (State.LinesOnly.refl u).touch pa
    rw [State.spoolRead_hit htop req tag cls hl hfree]
    refine ⟨htouch.deliver_arrived _ _ _ _ _ _, fun hp => ?_, fun a => ?_⟩
    · rw [hp]
      exact htouch.deliver_clean _ _ _ _ _
    · rw [State.memByte_deliver, State.memByte_touch]
  · have hsame := (State.SameBytes.refl u).bump Reg.SPL_CE_CNT (by decide)
    have hfree' : (u.bump Reg.SPL_CE_CNT).cohAccess req pa cls = false ∨
        ((u.bump Reg.SPL_CE_CNT).dirBusy pa = false ∧ (l.dir = .inv ∨ l.dir = .shared)) := by
      rw [State.cohAccess_bump _ _ _ _ _ (by decide), State.bump_rest]
      exact hfree
    have htouch := (State.LinesOnly.refl (u.bump Reg.SPL_CE_CNT)).touch pa
    rw [State.lookupError_corrected hl, State.spoolRead_hit (hsame.dramTop ▸ htop) req tag cls ((hsame.line? pa).trans hl) hfree', hp]
    have hclean := htouch.deliver_clean 42 req tag pa l.data
    refine ⟨?_, ?_, ?_⟩
    · have harrived := htouch.deliver_arrived 42 req tag pa l.data false
      have hmem : (u.bump Reg.SPL_CE_CNT).mem = u.mem := by rw [State.bump_rest]
      have htrd : (u.bump Reg.SPL_CE_CNT).trd = u.trd := by rw [State.bump_rest]
      rw [hmem, State.delivery, htrd] at harrived
      exact harrived
    · rw [hclean]
      exact State.rd_bump_self _ _
    · rw [hclean, State.bump_rest]
  · obtain ⟨hline, harr, htrans, htrd, hrd, hcount⟩ := State.poisonLine_facts hl
    have hdram : (u.poisonLine pa).dramTop = u.dramTop := by
      rw [State.dramTop, State.dramTop, State.bit, State.bit, State.fld_of_rd (hrd _ (by decide))]
    have hfree' : (u.poisonLine pa).cohAccess req pa cls = false ∨
        ((u.poisonLine pa).dirBusy pa = false ∧ (l.dir = .inv ∨ l.dir = .shared)) := by
      rw [State.cohAccess_congr (s := u) (fun o ho _ => hrd o (by rw [Reg.SPL_UE_CNT]; omega)), State.dirBusy, htrans]
      exact hfree
    have htouch := (State.LinesOnly.refl (u.poisonLine pa)).touch pa
    rw [State.lookupError_poisons hl e he, State.spoolRead_hit (hdram ▸ htop) req tag cls hline hfree']
    refine ⟨?_, ⟨{ l with poison := true, lru := (u.poisonLine pa).mem.use + 1 }, ?_, rfl, rfl⟩, ?_⟩
    · have harrived := htouch.deliver_arrived 42 req tag pa l.data true
      rw [harr, State.delivery, htrd] at harrived
      exact harrived
    · rw [State.line?_deliver, State.line?_touch, if_pos rfl, hline]
      rfl
    · rw [State.deliver_rd _ _ _ _ _ _ _ _ (by decide)]
      have hregs : ((u.poisonLine pa).touch pa).rd Reg.SPL_UE_CNT = (u.poisonLine pa).rd Reg.SPL_UE_CNT := by rw [htouch]; rfl
      exact hregs.trans hcount

/-- A read of an unwritten granule gives zeros, is counted, and allocates nothing (R321). -/
theorem State.spoolRead_zero_serves {u : State} {pa : Nat} (req tag : Nat) (cls : MemClass) (htop : pa < u.dramTop) (hl : u.line? pa = none)
    (hm : ∀ m ∈ u.mem.mshrs, m.pa ≠ lineOf pa) (hg : u.granuleSet pa = false) :
    let t := u.spoolRead req tag pa cls
    t.mem.arrived = u.mem.arrived ++ [u.delivery 42 req tag pa zeroLine false] ∧
      t.rd Reg.DMC_WMAP_ZERO_CNT = counted (u.rd Reg.DMC_WMAP_ZERO_CNT) ∧ t.mem.spool = u.mem.spool ∧ t.mem.queue = u.mem.queue ∧
      t = { u with mem := t.mem, sht := t.sht, looms := t.looms, regs := t.regs } ∧ ∀ o, o ≠ Reg.DMC_WMAP_ZERO_CNT → t.rd o = u.rd o := by
  intro t
  have ht : t = _ := State.spoolRead_zero htop req tag cls hl hm hg
  have hclean := (State.LinesOnly.refl u).deliver_clean 42 req tag pa zeroLine
  have hregs (o : Nat) : (u.deliver 42 req tag pa zeroLine false).rd o = u.rd o := by rw [hclean]; rfl
  have hmem : t.mem = { u.mem with arrived := u.mem.arrived ++ [u.delivery 42 req tag pa zeroLine false] } := by
    rw [ht, State.bump_rest]
    exact State.deliver_mem _ _ _ _ _ _ _
  refine ⟨by rw [hmem], ?_, by rw [hmem], by rw [hmem], ?_, fun o ho => ?_⟩
  · rw [ht, State.rd_bump_self, hregs]
  · rw [ht, State.bump_rest, hclean]
  · rw [ht, State.rd_bump_ne _ _ _ ho, hregs]

/-- A write that hits merges into the line: its bytes, the line's marks, and in coherent mode the directory entry and the L1s' copies change, and
nothing else (R299, R309, Table 6.4). -/
theorem State.spoolWrite_hit_serves {u : State} {pa : Nat} {data : List Byte} {l : SLine} (req tag : Nat) (cls : MemClass) (htop : pa < u.dramTop)
    (hin : pa % 128 + data.length ≤ 128) (hl : u.line? pa = some l) (hlen : l.data.length = 128)
    (hfree : u.cohAccess req pa cls = false ∨ (u.dirBusy pa = false ∧ (l.dir = .inv ∨ l.dir = .shared ∨ data.length = 128))) :
    let t := u.spoolWrite req tag pa data cls false
    t.mem.arrived = u.mem.arrived ++ [u.delivery 42 req tag pa [] false] ∧
      (∃ l', t.line? pa = some l' ∧ l'.dirty = true ∧ l'.cls = cls ∧ l'.writer = req ∧
        (u.cohAccess req pa cls = false → l'.dir = l.dir ∧ l'.holders = l.holders) ∧
        (u.cohAccess req pa cls = true → l'.dir = .inv ∧ l'.holders = [] ∧ ∀ x ∈ t.mem.l1, x.coh = true → x.pa ≠ lineOf pa)) ∧
      (∀ i (h : i < data.length), t.memByte (pa + i) = data[i]) ∧
      (∀ a, a < pa ∨ pa + data.length ≤ a → t.memByte a = u.memByte a) ∧ t = { u with mem := t.mem, sht := t.sht } := by
  have hkept := u.merged_linesOnly req pa data cls
  have hline := u.line?_merged req pa pa data cls
  rw [if_pos rfl, hl] at hline
  obtain ⟨hdirty, hcls, hwriter⟩ := SLine.written_marks { l with lru := u.mem.use + 1 } (u.cohAccess req pa cls) pa data cls req
  rw [State.spoolWrite_hit htop hin req tag cls hl hfree, State.mergeWrite_eq]
  refine ⟨hkept.deliver_arrived _ _ _ _ _ _, ⟨_, (State.line?_deliver _ _ _ _ _ _ _ _).trans hline, hdirty, hcls, hwriter, fun hc => ?_, fun hc => ?_⟩,
    fun i h => ?_, fun a ha => ?_, hkept.deliver_ack _ _ _ _⟩
  · rw [hc]; exact ⟨rfl, rfl⟩
  · rw [State.deliver_mem, hc]
    exact ⟨rfl, rfl, u.merged_l1 req pa data cls hc⟩
  · rw [State.memByte_deliver]
    exact State.memByte_merged_inside req cls htop hin hl hlen i h
  · rw [State.memByte_deliver]
    exact State.memByte_merged_outside req cls hin hl hlen a ha

/-- A write that allocates its line: the line holds what it writes amid zeros, and where a way is invalid every other byte stays (R299, R322). -/
theorem State.spoolWrite_allocates_serves {u : State} {pa : Nat} {data : List Byte} (req tag : Nat) (cls : MemClass) (htop : pa < u.dramTop)
    (hin : pa % 128 + data.length ≤ 128) (hl : u.line? pa = none) (hm : ∀ m ∈ u.mem.mshrs, m.pa ≠ lineOf pa)
    (hw : data.length = 128 ∨ u.granuleSet pa = false) (hc : cls ≠ .raster ∨ u.rasWays ≠ 0) :
    let t := u.spoolWrite req tag pa data cls false
    t.mem.arrived = u.mem.arrived ++ [u.delivery 42 req tag pa [] false] ∧
      (∃ l, t.line? pa = some l ∧ l.dirty = true ∧ l.data = patch zeroLine (pa % 128) data ∧ l.writer = req) ∧ t.mem.dram = u.mem.dram ∧
      ((∃ w ∈ waysFor cls u.rasWays, tblFind u.mem.spool (spoolKey pa w) = none) →
        ∀ a, a < pa ∨ pa + data.length ≤ a → t.memByte a = u.memByte a) := by
  obtain ⟨⟨n, hline⟩, harrived, hdram⟩ := State.allocated_line (u := u) req data cls hl hc
  have htrd : (u.allocated req pa data cls).trd = u.trd := by
    have hrest := (((State.MemOnly.refl u).dropOwn req pa).allocateNow (freshLine req pa data cls) cls).rest
    rw [State.allocated, hrest]
  rw [State.spoolWrite_allocates htop hin req tag cls hl hm hw hc]
  refine ⟨?_, ⟨_, (State.line?_deliver _ _ _ _ _ _ _ _).trans hline, rfl, rfl, rfl⟩, ?_, fun hfree a ha => ?_⟩
  · have hgiven := (State.LinesOnly.refl (u.allocated req pa data cls)).deliver_arrived 42 req tag pa [] false
    rw [harrived, State.delivery, htrd] at hgiven
    exact hgiven
  · rw [State.deliver_mem]
    exact hdram
  · rw [State.memByte_deliver]
    exact State.memByte_allocated req cls hin hl hw hc hfree a ha

/-- Settles O33: each request is served as its case of the lookup says, with the turn taken and the lookup's error noted before. -/
theorem theSpoolServesReadsAndWrites : Obligations.TheSpoolServesReadsAndWrites := by
  intro s req tag pa cls u read gives busy
  have hself := State.LinesOnly.refl u
  refine ⟨⟨fun x hx => s.takeAt_late pa req x hx, s.takeAt_now pa req⟩, fun htop => ?_, fun htop => ⟨fun l hl => ?_, fun hl hm => ?_,
    fun hl hjoin => ?_, fun data hin => ⟨fun l hl _ hlen => ?_, fun hl hm => ?_⟩⟩⟩
  · refine ⟨?_, fun data d => ?_⟩
    · intro darn
      refine ⟨_, exec_spoolRequest_beyond s req tag pa cls .none htop, hself.deliver_arrived _ _ _ _ _ _, fun hclean => ?_⟩
      rw [State.beyondTop, show (decide (req.val < 32 ∧ tag < 16) && (u.chan req tag).raster) = false from hclean]
      exact hself.deliver_clean _ _ _ _ _
    · refine ⟨_, (exec_spoolWrite s req tag pa data cls d).trans (congrArg _ (State.spoolWrite_beyond u req tag pa data cls d htop)),
        hself.deliver_arrived _ _ _ _ _ _, ?_, ?_, hself.deliver_ack _ _ _ _⟩
      · rw [State.deliver_mem]
      · rw [State.deliver_mem]
  · have hread (e : SpoolError) := exec_spoolRequest_inside s req tag pa cls e htop
    have hplain : read = .next (u.spoolRead req tag pa cls) := (hread .none).trans (by rw [State.lookupError_none])
    refine ⟨fun hfree => ?_, fun hc hb => ?_, fun hc hb hd b hh => ?_, fun w hdirty hw hgone hm hg hf => ?_⟩
    · obtain ⟨hhit, hcorrected, hpoisoned⟩ := State.spoolRead_hit_serves req tag cls htop hl hfree
      refine ⟨⟨_, hplain, hhit⟩, fun hp => ⟨_, hread _, hcorrected hp⟩, fun e he _ => ?_⟩
      obtain ⟨hgives, ⟨l', hline, hpoison, hdata⟩, hcount⟩ := hpoisoned e he
      exact ⟨_, l', hread e, hgives, hline, hpoison, hdata, hcount⟩
    · exact ⟨_, _, hplain.trans (congrArg _ (State.spoolRead_later htop req tag cls hl hc hb)), rfl, rfl, rfl, rfl, rfl, rfl⟩
    · exact ⟨_, _, hplain.trans (congrArg _ (State.spoolRead_recall htop req tag b cls hl hc hb hd hh)), rfl, rfl, rfl, rfl, rfl, rfl, rfl⟩
    · have hexec := hread .tagParity
      have hmiss := State.spoolRead_miss (u := u.wayLost pa w) htop req tag cls hgone (.inl hg)
      rw [State.lookupError_loses hl hw hdirty, hmiss] at hexec
      obtain ⟨hopen, hsame, hrest, -⟩ := (u.wayLost pa w).miss_opens pa (Waiter.reader req tag cls .no) hm hf
      refine ⟨_, _, hexec, (hsame.line? pa).trans hgone, hopen, rfl, ?_⟩
      rw [hrest]; rfl
  · have hplain : read = .next (u.spoolRead req tag pa cls) :=
      (exec_spoolRequest_inside s req tag pa cls .none htop).trans (by rw [State.lookupError_none])
    refine ⟨fun hg => ?_, fun hg hf => ?_, fun hg hf => ?_⟩
    · obtain ⟨harrived, hcount, hspool, hqueue, hrest, hregs⟩ := State.spoolRead_zero_serves req tag cls htop hl hm hg
      exact ⟨_, hplain, harrived, hcount, hspool, hqueue, hrest, hregs⟩
    · obtain ⟨hopen, hsame, hrest, x, hx, hkind, hpa, hchan, hcls, hreq, hcclk⟩ := u.miss_opens pa (Waiter.reader req tag cls .no) hm hf
      exact ⟨_, hplain.trans (congrArg _ (State.spoolRead_miss htop req tag cls hl (.inl hg))), ⟨_, hopen, rfl, rfl, rfl, rfl, rfl⟩,
        ⟨x, hx, hkind, hpa, hchan, hcls, hreq, hcclk⟩, hrest, hsame.memByte⟩
    · refine ⟨_, ⟨lineOf pa, Waiter.reader req tag cls .no⟩, hplain.trans (congrArg _ ((State.spoolRead_miss htop req tag cls hl (.inl hg)).trans
        (u.miss_held pa _ hm hf))), State.rd_bump_self _ _, ?_, rfl, rfl, rfl, ?_⟩
      · rw [State.bump_rest]; rfl
      · rw [State.bump_rest]; rfl
  · obtain ⟨m, hm, hpa⟩ := hjoin
    have hplain : read = .next (u.spoolRead req tag pa cls) :=
      (exec_spoolRequest_inside s req tag pa cls .none htop).trans (by rw [State.lookupError_none])
    obtain ⟨hqueue, hlen, ⟨m', hm', hpa', hw⟩, hcount⟩ := u.miss_joins pa (Waiter.reader req tag cls .no) m hm hpa
    exact ⟨_, hplain.trans (congrArg _ (State.spoolRead_miss htop req tag cls hl (.inr ⟨m, hm, hpa⟩))), hqueue, hlen,
      ⟨m', hm', hpa', _, hw, rfl, rfl⟩, hcount⟩
  · have hwrite := exec_spoolWrite s req tag pa data cls false
    refine ⟨fun hfree => ?_, fun hc hb hd hpart b hh => ?_⟩
    · exact ⟨_, hwrite, State.spoolWrite_hit_serves req tag cls htop hin hl hlen hfree⟩
    · exact ⟨_, _, hwrite.trans (congrArg _ (State.spoolWrite_recall htop hin req tag b cls hl hc hb hd hpart hh)), rfl, rfl, rfl, rfl, rfl⟩
  · have hwrite := exec_spoolWrite s req tag pa data cls false
    refine ⟨fun hw hc => ?_, fun hpart hg hf => ?_⟩
    · obtain ⟨harrived, ⟨l, hline, hdirty, hdata, hwriter⟩, hdram, hbytes⟩ :=
        State.spoolWrite_allocates_serves req tag cls htop hin hl hm hw hc
      exact ⟨_, l, hwrite, harrived, hline, hdirty, hdata, hwriter, hdram, hbytes⟩
    · obtain ⟨hopen, -, hrest, -⟩ := (u.dropOwn req pa).miss_opens pa (writeWaiter req tag pa data cls) hm hf
      refine ⟨_, _, hwrite.trans (congrArg _ (State.spoolWrite_misses htop hin req tag cls hl hm hpart hg)), hopen, rfl, rfl, ?_⟩
      rw [hrest]; rfl

end Sys2Proof.Machine
end

section
/-! PROOF. The data movement operators: codes moved unchanged, and a darned input of COPY (Table 5.4, R241, R371, R397, R400). -/

namespace Sys2Proof.Machine

/-! A darned input. -/

/-- A fault's end of a descriptor leaves memory, and its record carries the fault's status with DETAIL 0x02 (Table 7.3). -/
theorem State.endAtOnce_posts (s : State) (d : Desc) (status kind cause va : Nat) (hst : status ≠ 0) (hcoll : d.coll = false) :
    let t := s.endAtOnce d status kind cause va
    t.mem = s.mem ∧ ∃ r, t.ten.recs = s.ten.recs ++ [r] ∧ r.ring = d.ring ∧ r.seq = d.seq ∧ bytesAt r.data 8 1 = status % 256 ∧
      bytesAt r.data 9 1 = 2 := by
  intro t
  have ht : t = (s.faultLog d.tenant none kind cause va d.ring d.seq).completeDesc d status 0x02 := rfl
  have hlog := s.faultLog_writes d.tenant none kind cause va d.ring d.seq
  obtain ⟨⟨r, hrecs, hring, hseq, -, -, -, -, -, -, -, -, hstatus, hdetail, -⟩, -, -, hframe⟩ :=
    (s.faultLog d.tenant none kind cause va d.ring d.seq).completes_completeDesc d status 0x02 fun h => nomatch hcoll.symm.trans h
  rw [d.finalStatus_of_ne status hst] at hstatus
  refine ⟨?_, r, ?_, hring, hseq, hstatus, hdetail⟩
  · rw [ht, hframe, hlog.rest]
  · rw [ht, hrecs, hlog.rest]

/-- An operator with a darned input writes its outputs and marks its descriptor where DARN_OK lets it, and else ends on the data (R400). -/
theorem State.runOperator_darned (s : State) (d : Desc) (args : Nat) (legal : Bool) (ins : List (Nat × Nat × Nat)) (outs : List OutRun)
    (cycles : Nat → Nat) (hlegal : legal = true) (hargs : s.firstFault d.loom0 d.tenant false [(0, d.argPtr, args)] = none)
    (hins : s.firstFault d.loom0 d.tenant false ins = none)
    (houts : s.firstFault d.loom0 d.tenant true (outs.map fun r => (15, r.va, r.data.length)) = none) (hfed : s.fed d = true)
    (hdarn : ∃ x ∈ ins, s.vaPoison d.loom0 d.tenant x.2.1 x.2.2 = true) :
    ∃ va, s.runOperator d args legal ins outs cycles =
      if d.darnOk then (s.writeRuns d d.loom0 outs).workDone d cycles (outs.any fun r => r.darn) else s.endUncorr d va := by
  obtain ⟨y, hy⟩ := Option.isSome_iff_exists.mp (List.find?_isSome.mpr hdarn)
  refine ⟨y.2.1, ?_⟩
  simp only [State.runOperator, hargs, hins, houts, hy, hlegal, hfed, Bool.not_true, Bool.false_eq_true, if_false]

/-- Outputs that are written mark the descriptor as they are darned, its looms have done their work, and no record is made. -/
theorem State.writeRuns_workDone (s : State) (d : Desc) (outs : List OutRun) (cycles : Nat → Nat) (darned : Bool)
    (hd : s.desc? d.ring d.seq = some d) :
    let t := (s.writeRuns d d.loom0 outs).workDone d cycles darned
    t.mem = (s.writeRuns d d.loom0 outs).mem ∧ ∃ e, t.desc? d.ring d.seq = some e ∧ e.darned = (d.darned || darned) ∧
      (∀ w ∈ e.work, w.ended = true) ∧ t.ten.recs = s.ten.recs := by
  intro t
  have hwritten : s.MemOnly (s.writeRuns d d.loom0 outs) := (State.MemOnly.refl s).writeRuns _ _ _
  have hdw := (hwritten.desc? d.ring d.seq).trans hd
  rw [show t = _ from State.workDone_eq _ d d _ _ hdw]
  refine ⟨rfl, _, State.desc?_setDesc hdw, rfl, fun w hw => ?_, ?_⟩
  · obtain ⟨x, -, rfl⟩ := List.mem_map.mp hw
    rfl
  · rw [State.setDesc, State.onTen_ten, hwritten.ten]

/-! Rows that a list names. -/

theorem rowIndex_of_inside {i : Int} {extent : Nat} (h : 0 ≤ i ∧ i < extent) : rowIndex i extent = some i.toNat := if_pos h

/-- Rows that indices name inside an extent, each once. -/
theorem filterMap_rowIndex {α β : Type} (l : List α) (index : α → Int) (extent : Nat) (f : α → Nat → β)
    (h : ∀ x ∈ l, 0 ≤ index x ∧ index x < extent) :
    (l.filterMap fun x => (rowIndex (index x) extent).map (f x)) = l.map fun x => f x (index x).toNat := by
  induction l with
  | nil => rfl
  | cons x l ih =>
    obtain ⟨hx, hl⟩ := List.forall_mem_cons.mp h
    rw [List.filterMap_cons, rowIndex_of_inside hx, ih hl]
    rfl

/-- Output runs depend on the elements of the reference's rows alone. -/
theorem TRef.outRuns_congr (z : TRef) {f g : Nat → Nat → Nat → Nat × Bool} (h : ∀ x ∈ z.rows, ∀ i, f i x.1 x.2 = g i x.1 x.2) :
    z.outRuns f = z.outRuns g := by
  unfold TRef.outRuns
  refine List.flatMap_congr fun x hx => ?_
  simp only [h x hx]

/-- Settles O29: each row runs its operator, whose lists of rows are those that the indices name, and a darned input of COPY is as R400 says. -/
theorem dataMovementOperatorsRun : Obligations.DataMovementOperatorsRun := by
  intro s₀ g q code d s hready run r legal elem darn rowOf
  obtain ⟨hdesc, hcoll⟩ := State.opReady_some hready
  have hall {n : Nat} (h : legal n) : ((s.opRefs d n).all fun x => x.legal false) = true := List.all_eq_true.mpr h
  refine ⟨?_, ?_, ?_, ?_⟩
  · rintro rfl hlegal hfmt hshape hop
    have hexec : exec (.copy g q) s₀ = execCopy g q s₀ := rfl
    rw [execCopy, hready] at hexec
    have hok : (((s.opRefs d 2).all fun x => x.legal false) && (r 2 0).fmt == (r 2 1).fmt && (r 2 0).sameShape (r 2 1) &&
        d.inl 0 2 == 0) = true := by
      simp only [hall hlegal, Bool.true_and, Bool.and_eq_true, beq_iff_eq]
      exact ⟨⟨hfmt, hshape⟩, hop⟩
    refine ⟨State.runs_of_exec hexec hdesc hok, fun x hargs hins houts hfed hx hbad => ?_⟩
    obtain ⟨va, hrun⟩ := s.runOperator_darned d 64 _ _ _ (fun _ => 0) hok hargs hins houts hfed ⟨x, hx, hbad⟩
    have hexec := hexec.trans (congrArg Host.Outcome.next hrun)
    refine ⟨fun hdarn => ?_, fun hdarn => ?_⟩
    · rw [if_neg (ne_true_of_eq_false hdarn)] at hexec
      obtain ⟨hmem, p, hp⟩ :=
        s.nextFree.2.endAtOnce_posts d 0x12 (Config.uncorrKind s.free) (Config.uncorrCause s.free) va (by decide) hcoll
      exact ⟨_, p, hexec, hmem, hp⟩
    · rw [if_pos hdarn] at hexec
      obtain ⟨hmem, e, he⟩ := s.writeRuns_workDone d _ (fun _ => 0) _ hdesc
      exact ⟨_, e, hexec, hmem, he⟩
  · rintro rfl hlegal hop hops
    have hexec : exec (.fill g q) s₀ = execFill g q s₀ := rfl
    rw [execFill, hready] at hexec
    refine State.runs_of_exec hexec hdesc ?_ hops
    simp only [Bool.and_eq_true, beq_iff_eq]
    exact ⟨hlegal _ List.mem_cons_self, hop⟩
  · rintro rfl hlegal hfmt hint h1 h0 h2 hop hinside hops
    have hexec : exec (.gather g q) s₀ = execGather g q s₀ := rfl
    rw [execGather, hready] at hexec
    have hrows := filterMap_rowIndex (r 3 2).rows (fun x => s.listIndex d (r 3 1) x.1 x.2) (r 3 0).dim1
      (fun x y => (0, (r 3 0).rowVa y x.2, (r 3 0).rowLen)) hinside
    refine State.runs_of_exec (hexec.trans (congrArg₂ (fun a b => Host.Outcome.next (s.runOperator d 96 _ (_ ++ a) b _)) hrows
      (TRef.outRuns_congr _ fun x hx i => ?_))) hdesc ?_ hops
    · rw [rowIndex_of_inside (hinside x hx)]
    · simp only [hall hlegal, Bool.true_and, Bool.and_eq_true, beq_iff_eq]
      exact ⟨⟨⟨⟨⟨hfmt, hint⟩, h1⟩, h0⟩, h2⟩, hop⟩
  · rintro rfl hlegal hfmt hint h1 h0 h2 hop hinside hops
    have hexec : exec (.scatter g q) s₀ = execScatter g q s₀ := rfl
    rw [execScatter, hready] at hexec
    refine State.runs_of_exec (hexec.trans (congrArg (fun b => Host.Outcome.next (s.runOperator d 96 _ _ b _))
      (List.flatMap_congr fun x hx => ?_))) hdesc ?_ hops
    · rw [rowIndex_of_inside (hinside x hx)]
    · simp only [hall hlegal, Bool.true_and, Bool.and_eq_true, beq_iff_eq]
      exact ⟨⟨⟨⟨⟨hfmt, hint⟩, h1⟩, h0⟩, h2⟩, hop⟩

end Sys2Proof.Machine
end

section
/-! SUPPORT. The regulator's buckets: what a bucket holds after a change of another, and after a charge or a refill of several (R372 to R376). -/

namespace Sys2Proof.Machine

/-! One bucket. -/

theorem State.bucketRate_congr {s t : State} (hregs : t.regs = s.regs) (b : Bucket) : t.bucketRate b = s.bucketRate b := by
  rw [State.bucketRate, State.fld, State.rd, hregs]
  rfl

theorem State.bucketCap_congr {s t : State} (hregs : t.regs = s.regs) (b : Bucket) : t.bucketCap b = s.bucketCap b := by
  rw [State.bucketCap, State.fld, State.rd, hregs]
  rfl

/-- A bucket's level is read from the regulator's levels and registers alone. -/
theorem State.bucketLevel_congr {s t : State} (hregs : t.regs = s.regs) (hloom : t.sht.loomLvl = s.sht.loomLvl)
    (hten : t.sht.tenLvl = s.sht.tenLvl) (hras : t.sht.rasLvl = s.sht.rasLvl) (b : Bucket) : t.bucketLevel b = s.bucketLevel b := by
  cases b <;> simp only [State.bucketLevel, State.bucketCap_congr hregs, hloom, hten, hras]

theorem State.bucketRate_setBucket (s : State) (b c : Bucket) (x : Nat) : (s.setBucket b x).bucketRate c = s.bucketRate c := rfl

@[simp] theorem State.bucketCap_onSht (s : State) (f : Sht → Sht) (b : Bucket) : (s.onSht f).bucketCap b = s.bucketCap b := rfl

theorem State.bucketLevel_setBucket (s : State) (b c : Bucket) (x : Nat) :
    (s.setBucket b x).bucketLevel c = if c = b then x else s.bucketLevel c := by
  by_cases h : c = b
  · subst h
    rw [if_pos rfl]
    cases c <;> simp [State.bucketLevel, State.setBucket, tblFind_tblPut]
  · rw [if_neg h]
    cases b <;> cases c <;> simp_all [State.bucketLevel, State.setBucket, tblFind_tblPut]

/-! Several buckets. -/

/-- The regulated buckets of some each take what a function gives of their level. -/
def State.adjust (s : State) (f : Bucket → Nat → Nat) (l : List Bucket) : State :=
  l.foldl (fun t b => if t.bucketRate b = 0 then t else t.setBucket b (f b (t.bucketLevel b))) s

theorem State.chargeBuckets_eq (s : State) (bs : List Bucket) : s.chargeBuckets bs = s.adjust (fun _ x => x - 128) bs := rfl

/-- Of the state the levels alone change. -/
theorem State.adjust_rest (s : State) (f : Bucket → Nat → Nat) (l : List Bucket) : s.adjust f l = { s with sht := { s.sht with
    loomLvl := (s.adjust f l).sht.loomLvl
    tenLvl := (s.adjust f l).sht.tenLvl
    rasLvl := (s.adjust f l).sht.rasLvl } } := by
  refine List.foldlRecOn l _ (motive := fun t : State => t = { s with sht := { s.sht with
    loomLvl := t.sht.loomLvl, tenLvl := t.sht.tenLvl, rasLvl := t.sht.rasLvl } }) rfl fun t ht b _ => ?_
  split
  · exact ht
  · rw [ht]
    cases b <;> rfl

/-- Each regulated bucket among those adjusted takes its new level once, and every other bucket keeps its own. -/
theorem State.bucketLevel_adjust (s : State) (f : Bucket → Nat → Nat) (l : List Bucket) (hl : l.Nodup) (c : Bucket) :
    (s.adjust f l).bucketLevel c = if c ∈ l ∧ s.bucketRate c ≠ 0 then f c (s.bucketLevel c) else s.bucketLevel c := by
  induction l generalizing s with
  | nil => simp [State.adjust]
  | cons b l ih =>
    obtain ⟨hb, hl⟩ := List.nodup_cons.mp hl
    by_cases hrate : s.bucketRate b = 0
    · have hstep : s.adjust f (b :: l) = s.adjust f l := congrArg (fun t : State => t.adjust f l) (if_pos hrate)
      rw [hstep, ih s hl]
      by_cases hc : c = b
      · simp [hc, hb, hrate]
      · simp [hc]
    · have hstep : s.adjust f (b :: l) = (s.setBucket b (f b (s.bucketLevel b))).adjust f l :=
        congrArg (fun t : State => t.adjust f l) (if_neg hrate)
      rw [hstep, ih _ hl, State.bucketRate_setBucket, State.bucketLevel_setBucket]
      by_cases hc : c = b
      · simp [hc, hb, hrate]
      · simp [hc]

/-! A refill. -/

/-- What a refill leaves in a bucket of some level (R373). -/
def State.refillOf (s : State) (b : Bucket) (x : Nat) : Nat := min (x + s.bucketRate b) (s.bucketCap b)

theorem State.foldl_refillBucket (s u : State) (h : u.regs = s.regs) (l : List Bucket) :
    l.foldl State.refillBucket u = u.adjust s.refillOf l := by
  induction l generalizing u with
  | nil => rfl
  | cons b l ih =>
    have hstep : u.refillBucket b = if u.bucketRate b = 0 then u else u.setBucket b (s.refillOf b (u.bucketLevel b)) := by
      rw [State.refillBucket, State.refillOf, ← State.bucketRate_congr h, ← State.bucketCap_congr h]
    rw [List.foldl_cons, ih _ (by rw [hstep]; split <;> exact h), hstep]
    rfl

/-- The buckets that something has been charged to. -/
def State.charged (s : State) : List Bucket :=
  (s.sht.loomLvl.map fun e => Bucket.loom e.1) ++ (s.sht.tenLvl.map fun e => Bucket.tenant e.1) ++
    (if s.sht.rasLvl.isSome then [.raster] else [])

theorem State.charged_nodup (s : State) (hloom : (s.sht.loomLvl.map fun e => e.1).Nodup) (hten : (s.sht.tenLvl.map fun e => e.1).Nodup) :
    s.charged.Nodup := by
  have hl : (s.sht.loomLvl.map fun e => Bucket.loom e.1).Nodup := by
    have := hloom.map (f := Bucket.loom) fun a b h => Bucket.loom.inj h
    rwa [List.map_map] at this
  have ht : (s.sht.tenLvl.map fun e => Bucket.tenant e.1).Nodup := by
    have := hten.map (f := Bucket.tenant) fun a b h => Bucket.tenant.inj h
    rwa [List.map_map] at this
  have hras : (if s.sht.rasLvl.isSome then [Bucket.raster] else []).Nodup := by split <;> simp
  refine (hl.append ht fun b hb hb' => ?_).append hras fun b hb hb' => ?_
  · obtain ⟨e, -, rfl⟩ := List.mem_map.mp hb
    obtain ⟨x, -, hx⟩ := List.mem_map.mp hb'
    cases hx
  · obtain ⟨-, hraster⟩ := List.mem_ite_nil_right.mp hb'
    rw [List.mem_singleton.mp hraster] at hb
    simp at hb

theorem tblFind_eq_none {α : Type} (t : Tbl α) (k : Nat) (h : ∀ e ∈ t, e.1 ≠ k) : tblFind t k = none := by
  induction t with
  | nil => rfl
  | cons e t ih =>
    obtain ⟨he, ht⟩ := List.forall_mem_cons.mp h
    rw [tblFind, if_neg he, ih ht]

/-- A bucket that nothing has been charged to is full (R373). -/
theorem State.bucketLevel_of_not_charged (s : State) (b : Bucket) (h : b ∉ s.charged) : s.bucketLevel b = s.bucketCap b := by
  simp only [State.charged, List.mem_append, List.mem_map, not_or, not_exists, not_and] at h
  obtain ⟨⟨hloom, hten⟩, hras⟩ := h
  cases b with
  | loom l => exact congrArg (Option.getD · _) (tblFind_eq_none _ _ fun e he hl => hloom e he (congrArg _ hl))
  | tenant n => exact congrArg (Option.getD · _) (tblFind_eq_none _ _ fun e he hn => hten e he (congrArg _ hn))
  | raster =>
    have hnone : s.sht.rasLvl = none := by
      by_contra hsome
      rw [if_pos (Option.isSome_iff_ne_none.mpr hsome)] at hras
      exact hras List.mem_cons_self
    rw [State.bucketLevel, hnone, Option.getD_none]

/-- A refill of the buckets charged refills every regulated bucket, since the others are full (R373). -/
theorem State.bucketLevel_refill (s : State) (hloom : (s.sht.loomLvl.map fun e => e.1).Nodup)
    (hten : (s.sht.tenLvl.map fun e => e.1).Nodup) (b : Bucket) : (s.adjust s.refillOf s.charged).bucketLevel b =
      if s.bucketRate b = 0 then s.bucketLevel b else min (s.bucketLevel b + s.bucketRate b) (s.bucketCap b) := by
  rw [s.bucketLevel_adjust _ _ (s.charged_nodup hloom hten)]
  by_cases hrate : s.bucketRate b = 0
  · rw [if_neg fun h => h.2 hrate, if_pos hrate]
  · rw [if_neg hrate]
    by_cases hb : b ∈ s.charged
    · rw [if_pos ⟨hb, hrate⟩, State.refillOf]
    · rw [if_neg fun h => hb h.1, s.bucketLevel_of_not_charged b hb]
      omega

end Sys2Proof.Machine
end

section
/-! PROOF. Line issue and the refill of the buckets (R36, R367 to R377). -/

namespace Sys2Proof.Machine

/-! The turn, and what the other side of a channel has moved. -/

/-- A loom that comes late in its CCLK takes its turn in the next (R368, R377). -/
theorem State.issueTurn_late (s : State) (loom : Nat) (h : ∃ x, s.sht.issuer = some x ∧ x.1 = s.trd.cclk ∧ loom ≤ x.2) :
    s.issueTurn loom = { s.tick with sht := { s.tick.sht with issuer := (s.issueTurn loom).sht.issuer } } := by
  obtain ⟨x, hx, hlate⟩ := h
  have hturn : s.issueTurn loom = s.tick.onSht fun t => { t with issuer := some (s.tick.trd.cclk, loom) } := by
    simp only [State.issueTurn, hx, if_pos hlate]
  rw [hturn]
  rfl

theorem State.issueTurn_now (s : State) (loom : Nat) (h : ¬∃ x, s.sht.issuer = some x ∧ x.1 = s.trd.cclk ∧ loom ≤ x.2) :
    s.issueTurn loom = { s with sht := { s.sht with issuer := (s.issueTurn loom).sht.issuer } } := by
  have hturn : s.issueTurn loom = s.onSht fun t => { t with issuer := some (s.trd.cclk, loom) } := by
    unfold State.issueTurn
    split
    · rename_i x hx
      rw [if_neg fun hlate => h ⟨x, hx, hlate⟩]
    · rfl
  rw [hturn]
  rfl

/-- What the other side of a channel moves is whole lines: those released were in the buffer, and those written fit in it and in the walk
(R370, R371). -/
theorem Chan.moved_lines (c : Chan) (k : Nat) : ∃ n, (c.dir = 0 → 128 * n ≤ c.fill) ∧
    (c.dir ≠ 0 → 0 < n → c.fill + 128 * n ≤ c.bufLen ∧ c.got + 128 * n ≤ c.total) ∧ c.moved k = { c with
      fill := if c.dir = 0 then c.fill - 128 * n else c.fill + 128 * n
      got := if c.dir = 0 then c.got else c.got + 128 * n } := by
  unfold Chan.moved
  split
  case isTrue hin =>
    have hn : k % (c.fill / 128 + 1) < c.fill / 128 + 1 := Nat.mod_lt k (Nat.succ_pos _)
    exact ⟨k % (c.fill / 128 + 1), fun _ => by omega, fun h => absurd hin h, rfl⟩
  case isFalse hout =>
    split
    · extract_lets room
      have hn : k % (room + 1) < room + 1 := Nat.mod_lt k (Nat.succ_pos room)
      have hroom : room = min (c.bufLen - c.fill) (c.total - c.got) / 128 := rfl
      exact ⟨k % (room + 1), fun h => absurd h hout, fun _ hpos => by omega, rfl⟩
    · exact ⟨0, fun h => absurd h hout, fun _ h => absurd h (Nat.lt_irrefl 0), rfl⟩

/-- Each channel's other side has moved whole lines, or none. -/
theorem State.moveLines_chans (s : State) (loom : Nat) (e : Nat × Chan) (he : e ∈ s.sht.chans) : ∃ n, (e.2.dir = 0 → 128 * n ≤ e.2.fill) ∧
    (e.2.dir ≠ 0 → 0 < n → e.2.fill + 128 * n ≤ e.2.bufLen ∧ e.2.got + 128 * n ≤ e.2.total) ∧ (e.1, { e.2 with
      fill := if e.2.dir = 0 then e.2.fill - 128 * n else e.2.fill + 128 * n
      got := if e.2.dir = 0 then e.2.got else e.2.got + 128 * n }) ∈ (s.moveLines loom).sht.chans := by
  have hmem := List.mem_map_of_mem (f := fun e : Nat × Chan =>
    if e.1 / 16 = loom ∧ (e.2.state = .run ∨ e.2.state = .held ∨ e.2.state = .done) then
      (e.1, e.2.moved (Config.linesMoved s.free (e.1 % 16))) else e) he
  by_cases hmoves : e.1 / 16 = loom ∧ (e.2.state = .run ∨ e.2.state = .held ∨ e.2.state = .done)
  · obtain ⟨n, hin, hout, heq⟩ := e.2.moved_lines (Config.linesMoved s.free (e.1 % 16))
    rw [if_pos hmoves, heq] at hmem
    exact ⟨n, hin, hout, hmem⟩
  · rw [if_neg hmoves] at hmem
    refine ⟨0, fun _ => Nat.zero_le _, fun _ h => absurd h (Nat.lt_irrefl 0), ?_⟩
    rw [Nat.mul_zero, Nat.sub_zero, Nat.add_zero, Nat.add_zero, ite_self, ite_self]
    exact hmem

/-! The issue of a line. -/

theorem State.mayIssue_iff (s : State) (loom c : Nat) : s.mayIssue loom c = true ↔
    (s.chan loom c).state = .run ∧ (s.chan loom c).xlated.isSome = true ∧ ((s.chan loom c).chain && (s.chan loom c).rank != 0) = false ∧
    (if (s.chan loom c).writes then 128 + s.inFlight loom c ≤ (s.chan loom c).fill
      else (s.chan loom c).fill + s.inFlight loom c + 128 ≤ (s.chan loom c).bufLen) ∧
    ∀ b ∈ (s.chan loom c).buckets loom, s.bucketRate b = 0 ∨ 128 ≤ s.bucketLevel b := by
  simp only [State.mayIssue, State.bucketsHold, Bool.and_eq_true, beq_iff_eq, Bool.not_eq_true', List.all_eq_true, Bool.or_eq_true,
    decide_eq_true_eq, and_assoc]
  split <;> simp only [decide_eq_true_eq]

theorem Chan.buckets_nodup (c : Chan) (loom : Nat) : (c.buckets loom).Nodup := by
  unfold Chan.buckets
  split
  · exact .nil
  · split <;> simp

/-- The state once a channel has issued its line: the buckets are charged, POSITION moves past the line, and it is on its way. -/
def State.issuedLine (u : State) (loom c pa : Nat) : State :=
  ((u.chargeBuckets ((u.chan loom c).buckets loom)).setChan loom c { u.chan loom c with pos := (u.chan loom c).pos + 128, xlated := none }).onSht
    fun t => { t with
      last := tblSet (fun _ => 15) t.last loom c
      issued := t.issued ++ [⟨loom, c, lineOf pa, (u.chan loom c).writes⟩] }

theorem exec_lineIssue_none (s : State) (loom : Fin 32) (h : ((s.issueTurn loom).moveLines loom).turn loom = none) :
    exec (.lineIssue loom) s = .next ((s.issueTurn loom).moveLines loom) := by
  change execLineIssue loom s = _
  rw [execLineIssue, h]

theorem exec_lineIssue_turn (s : State) (loom : Fin 32) (c pa : Nat) (h : ((s.issueTurn loom).moveLines loom).turn loom = some c)
    (hpa : (((s.issueTurn loom).moveLines loom).chan loom c).xlated = some pa) :
    exec (.lineIssue loom) s = .next (((s.issueTurn loom).moveLines loom).issuedLine loom c pa) := by
  change execLineIssue loom s = _
  rw [execLineIssue, h]
  dsimp only
  rw [hpa]
  rfl

theorem State.issuedLine_rest (u : State) (loom c pa : Nat) : u.issuedLine loom c pa = { u with sht := (u.issuedLine loom c pa).sht } := by
  unfold State.issuedLine
  rw [State.chargeBuckets_eq, State.adjust_rest]
  rfl

theorem State.issuedLine_issued (u : State) (loom c pa : Nat) :
    (u.issuedLine loom c pa).sht.issued = u.sht.issued ++ [⟨loom, c, lineOf pa, (u.chan loom c).writes⟩] := by
  unfold State.issuedLine
  rw [State.chargeBuckets_eq, State.adjust_rest]
  rfl

theorem State.chan_issuedLine (u : State) (loom c pa l' c' : Nat) : (u.issuedLine loom c pa).chan l' c' =
    if chanKey l' c' = chanKey loom c then { u.chan loom c with pos := (u.chan loom c).pos + 128, xlated := none } else u.chan l' c' := by
  unfold State.issuedLine
  rw [State.chargeBuckets_eq, State.adjust_rest]
  exact tblGet_tblSet _ u.sht.chans _ _ _

theorem State.bucketLevel_issuedLine (u : State) (loom c pa : Nat) (b : Bucket) : (u.issuedLine loom c pa).bucketLevel b =
    if b ∈ (u.chan loom c).buckets loom ∧ u.bucketRate b ≠ 0 then u.bucketLevel b - 128 else u.bucketLevel b := by
  have hcharged : (u.issuedLine loom c pa).bucketLevel b = (u.chargeBuckets ((u.chan loom c).buckets loom)).bucketLevel b :=
    State.bucketLevel_congr rfl rfl rfl rfl b
  rw [hcharged, State.chargeBuckets_eq, u.bucketLevel_adjust _ _ ((u.chan loom c).buckets_nodup loom)]

/-! The refill. -/

/-- The refill of a pick boundary is noted before it is made. -/
def State.refillNoted (s : State) : State := s.onSht fun t => { t with refilled := s.ten.picks }

theorem exec_bucketRefill_due (s : State) (h : s.sht.refilled ≠ s.ten.picks) :
    let u := (State.elapse (2 - s.trd.now.cyc) s).refillNoted
    exec .bucketRefill s = .next (u.adjust u.refillOf u.charged) := by
  intro u
  rw [← u.foldl_refillBucket u rfl]
  have hras : u.sht.rasLvl = (State.elapse s.toTick s).sht.rasLvl := rfl
  change execBucketRefill s = _
  simp only [execBucketRefill, if_neg h, State.charged, List.foldl_append, List.foldl_map, hras]
  split <;> rfl

/-- Settles O38: the turn and the lines moved come first; what is issued charges its buckets once, and a refill leaves every bucket as R373 says. -/
theorem theRegulatorGatesLines : Obligations.TheRegulatorGatesLines := by
  intro s
  refine ⟨fun loom => ?_, fun h => if_pos h, fun h => ?_⟩
  · intro late v u
    refine ⟨fun hlate => ?_, fun hnow => ?_, rfl, rfl, v.moveLines_chans loom, exec_lineIssue_none s loom, fun c hc pa hpa => ?_⟩
    · exact s.issueTurn_late loom hlate
    · exact s.issueTurn_now loom hnow
    · obtain ⟨-, -, -, hroom, hhold⟩ := (u.mayIssue_iff loom c).mp (List.find?_some hc)
      refine ⟨hhold, hroom, _, exec_lineIssue_turn s loom c pa hc hpa, ?_, u.issuedLine_issued _ _ _, fun b hb => ?_, fun b hb => ?_,
        u.issuedLine_rest _ _ _, fun l' c' hne => ?_⟩
      · rw [State.chan_issuedLine, if_pos rfl]
      · rw [State.bucketLevel_issuedLine]
        by_cases hrate : u.bucketRate b = 0
        · rw [if_neg fun h => h.2 hrate, if_pos hrate]
        · rw [if_pos ⟨hb, hrate⟩, if_neg hrate]
      · rw [State.bucketLevel_issuedLine, if_neg fun h => hb h.1]
      · rw [State.chan_issuedLine, if_neg hne]
  · intro s0 hloom hten
    refine ⟨_, exec_bucketRefill_due s h, ?_, ?_, fun b => ?_⟩
    · rw [State.adjust_rest]; rfl
    · rw [State.adjust_rest]; rfl
    · exact (State.elapse (2 - s.trd.now.cyc) s).refillNoted.bucketLevel_refill hloom hten b

end Sys2Proof.Machine
end

section
/-! PROOF. O39: the fault record of a tenant number that is out of range, whose TEN_MSG would lie in the PF's fault log (R382, R386). -/

namespace Sys2Proof.Machine

/-- A fault of an unmapped page at 0x10000, met in CCLK 0. -/
def strayFault : Fault7 := { kind := 0, cause := 1, write := false, va := 0x10000, cclk := 0, stamp := Stamp.frameStart 0 }

/-- Eight CCLK after its halt, channel 0 of loom 0 has its record still to be written. Its tenant number, 0x6300, is none of the 256 tenants: what
TEN_MSG would be for that number is the offset of SHT_FLOG1 of entry 0. -/
def strayHalt : State :=
  { State.reset with
    trd := { Trd.reset with cclk := 8 }
    ten := { Ten.reset with descs := [waitingOf 0x6300] }
    sht := { Sht.reset with chans := [(0, { Chan.idle with state := .halted, tenant := 0x6300, fault := some strayFault })] } }

theorem strayHalt_waits :
    (strayHalt.chan (0 : Fin 32).val (0 : Fin 16).val).fault = some strayFault ∧ strayHalt.desc? 0 0 = some (waitingOf 0x6300) ∧
    (strayHalt.elapseTo (strayFault.cclk + 8)).freeSlot 0x6300 = some 0 := by
  decide +kernel

/-- The log entry's address is then read as the tenant's fault vector, and the event is counted on vector 1, not on vector 0. -/
theorem strayHalt_counts_elsewhere :
    (match exec (.faultRecordWrite 0 0) strayHalt with
      | .next t => (t.vector (vecIndex 0x6300 0)).count
      | _ => 1) = 0 := by
  decide +kernel

/-- Before the log entry is written the fault vector reads 0, where the event is to be counted (R386). -/
theorem strayHalt_names_vector :
    let s0 := strayHalt.elapseTo (strayFault.cclk + 8)
    let t := (s0.event (vecIndex 0x6300 (s0.fld (Reg.TEN_MSG 0x6300) Reg.TEN_MSG_FAULT_VEC))).event
      (vecIndex 0 (s0.fld (Reg.TEN_MSG 0) Reg.TEN_MSG_FAULT_VEC))
    (t.vector (vecIndex 0x6300 0)).count = 1 := by
  decide +kernel

/-- Refutes O39: a halted channel's tenant number is out of range, and the log entry of its fault is written at the offset which is TEN_MSG for that
number, so that the fault event is raised on a vector other than the one TEN_MSG named. -/
theorem not_faultsHaltAndResume : ¬ Obligations.FaultsHaltAndResume := by
  intro h
  obtain ⟨hfault, hdesc, hslot⟩ := strayHalt_waits
  obtain ⟨hchannels, -⟩ := h strayHalt
  obtain ⟨-, hmet⟩ := hchannels 0 0
  obtain ⟨-, hwrites⟩ := hmet strayFault hfault
  obtain ⟨-, -, hrecord⟩ := hwrites (waitingOf 0x6300) hdesc rfl
  obtain ⟨hfree, -⟩ := hrecord rfl rfl
  obtain ⟨t, -, hexec, -, -, -, -, -, -, -, -, -, -, -, -, hraised, -⟩ := hfree 0 hslot
  have hcount := strayHalt_counts_elsewhere
  rw [hexec] at hcount
  have hnamed := strayHalt_names_vector
  have hsame : t.vector (vecIndex 0x6300 0) = _ := State.vector_congr (congrArg Ten.vectors hraised) (vecIndex 0x6300 0)
  exact absurd (hcount.symm.trans ((congrArg Vector.count hsame).trans hnamed)) (by decide)

end Sys2Proof.Machine
end

section
/-! PROOF. O40: the end of a far-tier read whose ring number is out of range, whose QRG_CFG would be the error counter (R378, R409). -/

namespace Sys2Proof.Machine

/-- The descriptor of ring 0x2401, which is none of the 1,024 rings: what QRG_CFG would be for that number is the offset of SHT_FAR_ERR_CNT. -/
def strayReader : Desc := { waitingOf 0 with ring := 0x2401 }

/-- Its far-tier read stands under tag 0, and the counter is one below the value in which what would be QRG_CFG's DRAINING is set and EN clear. -/
def strayRead : State :=
  { State.reset with
    regs := tblPut State.reset.regs Reg.SHT_FAR_ERR_CNT 0x1FFFFF#32
    ten := { Ten.reset with descs := [strayReader] }
    sht := { Sht.reset with far := [⟨0, 0, 0, 0, 0, 0x2401, 0, false⟩] } }

theorem strayRead_stands :
    (strayRead.sht.far.find? fun f => f.tag == (0 : Fin 256).val) = some ⟨0, 0, 0, 0, 0, 0x2401, 0, false⟩ ∧
    strayRead.desc? 0x2401 0 = some strayReader ∧ counted (strayRead.rd Reg.SHT_FAR_ERR_CNT) = 0x200000#32 := by
  decide +kernel

/-- The error is counted, and then DRAINING ends with the ring's last descriptor (R180), which clears the counter. -/
theorem strayRead_clears_counter :
    (match exec (.farTierCompletion 0 false []) strayRead with
      | .next t => t.rd Reg.SHT_FAR_ERR_CNT
      | _ => 0x200000#32) = 0#32 := by
  decide +kernel

/-- Refutes O40: a far-tier read's ring number is out of range, and the end of its descriptor on an error writes QRG_CFG for that number, which is the
error counter: it does not read one more than before. -/
theorem not_chainsAndTheFarTierMoveLines : ¬ Obligations.ChainsAndTheFarTierMoveLines := by
  intro h
  obtain ⟨hfar, hdesc, hone⟩ := strayRead_stands
  obtain ⟨-, -, hcompletion⟩ := h strayRead
  obtain ⟨-, hread⟩ := hcompletion 0 false []
  obtain ⟨-, -, hended⟩ := hread _ hfar
  obtain ⟨-, t, -, hexec, hcount, -⟩ := hended rfl strayReader hdesc
  have hcleared := strayRead_clears_counter
  rw [hexec] at hcleared
  exact absurd (hcleared.symm.trans (hcount.trans hone)) (by decide)

end Sys2Proof.Machine
end

section
/-! PROOF. O41: a refused frame record completes at once, and a descriptor that has waited for it becomes ready (R193, R196, R259, R419). -/

namespace Sys2Proof.Machine

/-- A descriptor of ring 1 that waits for SEQ 0 of ring 0. -/
def awaitsRecord : Desc := { waitingOf 0 with ring := 1, bytes := leBytes 2 0 ++ leBytes 2 16 }

/-- Ring 0 is the intake, and its first record is being read. -/
def firstRecord : State :=
  (({ State.reset with ten := { Ten.reset with descs := [awaitsRecord] } } : State).setRing 0 { Ring.idle with reads := 1 }).setFld
    Reg.PIC_INTAKE Reg.PIC_INTAKE_EN 1

theorem firstRecord_stands : 0 < (firstRecord.ring (0 : Fin 1024)).reads ∧ firstRecord.isIntake (0 : Fin 1024) = true ∧
    (firstRecord.ring (0 : Fin 1024)).err = false ∧ firstRecord.ten.descs = [awaitsRecord] := by
  decide +kernel

/-- A record that names no known version is refused, which completes its SEQ, and the descriptor is to be dispatched 16 CCLK on. -/
theorem firstRecord_readies :
    (match exec (.frameRecord 0 true []) firstRecord with
      | .next t => t.ten.descs.map Desc.dispAt
      | _ => []) = [some 16] := by
  decide +kernel

/-- Refutes O41: the completion of a record that fails Table 8.4 meets the dependency of a waiting descriptor, and the scoreboard's entries do not
stay as they were. -/
theorem not_recordsAreTakenAndLevelsAdmitted : ¬ Obligations.RecordsAreTakenAndLevelsAdmitted := by
  intro h
  obtain ⟨hreads, hintake, herr, hwaits⟩ := firstRecord_stands
  obtain ⟨htake, -⟩ := h firstRecord
  obtain ⟨-, htaken⟩ := htake 0 true []
  obtain ⟨-, hread⟩ := htaken hreads hintake
  obtain ⟨-, -, hrefused⟩ := hread herr
  obtain ⟨t, hexec, ⟨-, -, -, -, hdescs⟩, -, -⟩ := hrefused (true, 0x31, 1) rfl
  have hready := firstRecord_readies
  rw [hexec] at hready
  have hstill : t.ten.descs.map Desc.dispAt = [none] := by rw [hdescs, hwaits]; rfl
  exact absurd (hstill.symm.trans hready) (by decide)

end Sys2Proof.Machine
end

section
/-! PROOF. O42: a record that leaves with SHAPE completes its SEQ, which can be what the fence of a later record waits for (R193, R420, R433). -/

namespace Sys2Proof.Machine

/-- An 8-bit 4:2:0 record of ring 0, with a SEQ, flags, the line of its PSTAMP and a size; what its fence waits for, if it has one, is SEQ 0 of ring 0. -/
def recordOf (seq flags line width height : Nat) : FrameRec :=
  { ring := 0, seq := seq, tenant := 0, uses := 0, first := none, darned := false, passed := false, status := 0
    bytes := leBytes 2 1 ++ leBytes 2 flags ++ leBytes 4 0 ++ leBytes 6 (Stamp.bits ⟨0, line, 0, 0⟩) ++ leBytes 1 1 ++ leBytes 1 0 ++
      leBytes 2 width ++ leBytes 2 height ++ leBytes 12 0 ++ leBytes 8 0x10000 ++ leBytes 8 0x2000000 ++ leBytes 4 3840 ++ leBytes 4 3840 ++
      leBytes 8 0 }

/-- At the selection stamp of frame 1 the FIFO holds a record that is too small for the raster, and one behind its fence. -/
def fencedBehind : State :=
  ({ State.reset with
    trd := { Trd.reset with now := ⟨0, 2202, 0, 0⟩ }
    pic := { Pic.reset with fifo := [recordOf 0 0 0 64 64, recordOf 1 1 1 3840 2160] } } : State).wr (Reg.QRG_FETCH_SEQ 0) 2#32

/-- The choice from the records that a state `t` still holds, with all else as it stood at the selection. -/
def State.choiceFrom (s t : State) : Option (Nat × Nat) :=
  let s0 := (State.elapse (s.toAction (s.launchStamp s.nextFrame 0)) s).adopt
  let u : State := { s0 with pic := { s0.pic with fifo := s0.pic.fifo.filter fun x => t.pic.fifo.any fun y => y.key == x.key } }
  (u.choose s.nextFrame).1.recA

theorem fencedBehind_selects :
    let s := fencedBehind
    let e := State.elapse (s.toAction (s.launchStamp s.nextFrame 0)) s
    s.atLine (s.launchStamp s.nextFrame 0) = true ∧ s.darkFrame s.nextFrame = false ∧
    (e.pic.selected && e.pic.sel.frame == s.nextFrame) = false ∧ (e.adopt.pic.fifo.map fun r => r.key).Nodup ∧
    e.adopt.pic.fifo.length ≤ 8 ∧ e.adopt.pic.sel.phase < 64 := by
  decide +kernel

/-- The second record is chosen: its fence was met when the first one left. With DONE_SEQ as it stood none is. -/
theorem fencedBehind_chooses :
    (match exec .selection fencedBehind with
      | .next t => (t.pic.sel.recA, fencedBehind.choiceFrom t)
      | _ => (none, none)) = (some (0, 1), none) := by
  decide +kernel

/-- Refutes O42: the release of a record that is not usable moves DONE_SEQ, which makes the record behind its fence eligible, and the selection is
not what the records left would give with DONE_SEQ as it stood. -/
theorem not_framesSelectTheirRecords : ¬ Obligations.FramesSelectTheirRecords := by
  intro h
  obtain ⟨hline, hlight, hunselected, hnodup, hlen, hphase⟩ := fencedBehind_selects
  obtain ⟨-, -, hselects, -⟩ := h fencedBehind
  obtain ⟨⟨t, hexec, -, -, hchoice, -⟩, -⟩ := hselects hline hlight hunselected hnodup hlen hphase
  have hchosen := fencedBehind_chooses
  rw [hexec] at hchosen
  obtain ⟨hrec, hnone⟩ := Prod.mk.inj hchosen
  exact absurd (hrec.symm.trans (hchoice.trans hnone)) (by decide)

end Sys2Proof.Machine
end

section
/-! SUPPORT. What a selection leaves of the Treadle: the reservation, the ladder and the release of records do not touch it (R423, R433, R449, R452). -/

namespace Sys2Proof.Machine

theorem State.foldl_trd {α : Type} (f : State → α → State) (hf : ∀ (u : State) x, (f u x).trd = u.trd) (l : List α) (s : State) :
    (l.foldl f s).trd = s.trd :=
  List.foldlRecOn l f (motive := fun u => u.trd = s.trd) rfl fun u hu x _ => (hf u x).trans hu

/-! The reservation. -/

@[simp] theorem State.switchOn_trd (s : State) (ps : List Nat) : (s.switchOn ps).trd = s.trd := by rw [(s.switchOn_moved ps).rest]

@[simp] theorem State.clearLoom_trd (s : State) (p : Nat) (o : Owner) : (s.clearLoom p o).trd = s.trd := by rw [(s.clearLoom_moved p o).rest]

@[simp] theorem State.completeDesc_trd (s : State) (d : Desc) (status detail : Nat) : (s.completeDesc d status detail).trd = s.trd := by
  obtain ⟨-, -, -, -, hrest⟩ := s.completeDesc_keeps d status detail
  rw [hrest]

@[simp] theorem State.stopDesc_trd (s : State) (d : Desc) : (s.stopDesc d).trd = s.trd := by
  unfold State.stopDesc
  split
  · exact s.completeDesc_trd d _ _
  · rw [State.setDesc, State.onTen_trd, State.dropColl_eq]
    rfl

theorem State.stopAtTile_reruns_trd (s : State) (d : Desc) : (s.stopAtTile d .reruns).trd = s.trd := by
  unfold State.stopAtTile
  split
  · split
    · rfl
    · rw [if_neg (by decide)]
  · exact s.stopDesc_trd d

@[simp] theorem State.clearReserved_trd (s : State) (looms : List Nat) : (s.clearReserved looms).trd = s.trd := by
  refine State.foldl_trd _ (fun u l => ?_) looms s
  split
  · split
    · exact u.clearLoom_trd _ _
    · rfl
  · rfl

@[simp] theorem State.joinReserve_trd (s : State) (logical : Nat) : (s.joinReserve logical).trd = s.trd := by
  unfold State.joinReserve
  split
  · rfl
  · rename_i p _
    split
    · rfl
    · extract_lets s1 s2
      have h1 : s1.trd = s.trd := s.switchOn_trd [p]
      have h2 : s2.trd = s.trd := by
        unfold s2
        split
        · split
          · exact (s1.stopAtTile_reruns_trd _).trans h1
          · exact h1
        · exact h1
      exact (s2.clearReserved_trd _).trans h2

@[simp] theorem State.reserve_trd (s : State) (n : Nat) : (s.reserve n).trd = s.trd :=
  State.foldl_trd _ State.joinReserve_trd _ _

/-! The result of an admission. -/

@[simp] theorem State.reportNets_trd (s : State) (factor : Nat) : (s.reportNets factor).trd = s.trd := by rw [(s.reportNets_writes factor).rest]

@[simp] theorem State.engage_trd (s : State) : s.engage.trd = s.trd := by
  unfold State.engage
  split
  · rfl
  · rw [State.bump_trd, State.setFld_trd]

theorem State.applyLadder_soft_trd (s : State) : (s.applyLadder false).trd = s.trd := by
  unfold State.applyLadder
  extract_lets keep back s1 s2 s3
  have h3 : s3.trd = s.trd := (s.onLooms (Loom.throttle keep)).switchOn_trd back
  change (if s3.stretchHeld = true then s3.engage else s3).trd = s.trd
  split
  · exact s3.engage_trd.trans h3
  · exact h3

@[simp] theorem State.refreshLadder_trd (s : State) : s.refreshLadder.trd = s.trd := State.applyLadder_soft_trd _

@[simp] theorem State.adopt_trd (s : State) : s.adopt.trd = s.trd := by
  unfold State.adopt
  split
  · rfl
  · extract_lets a v w s1 s2
    have h1 : s1.trd = s.trd := State.foldl_trd w (fun _ _ => rfl) _ _
    rw [State.refreshLadder_trd, State.reportNets_trd, State.reserve_trd]
    exact h1

/-! Records that leave, and box lists. -/

@[simp] theorem State.releaseFrame_trd (s : State) (f : FrameRec) (status : Nat) : (s.releaseFrame f status).trd = s.trd := by
  unfold State.releaseFrame
  extract_lets s1 start s2
  have h2 : s2.trd = s.trd := by
    unfold s2
    split
    · exact s1.bump_trd _
    · rfl
  obtain ⟨-, hrest⟩ := s2.postRecord_eq f.ring f.seq f.tenant status
    (recordBytes (f.num 4 4) f.seq status 0 (f.seq / s2.ringSize f.ring % 2 == 0) false false (min 255 f.uses) f.ring start s2.trd.now.bits)
    (f.flag 7) (f.flag 3) true
  rw [State.postFrame, hrest]
  exact h2

@[simp] theorem State.chooseUsable_trd (s : State) (f fuel : Nat) : (s.chooseUsable f fuel).1.trd = s.trd := by
  induction fuel generalizing s with
  | zero => rfl
  | succ fuel ih =>
    unfold State.chooseUsable
    extract_lets c bad
    split
    · rw [ih, State.releaseFrame_trd]
    · rw [ih, State.releaseFrame_trd]
    · rfl

@[simp] theorem State.takeBoxes_trd (s : State) (old new : Option (Nat × Nat)) : (s.takeBoxes old new).trd = s.trd := by
  unfold State.takeBoxes
  split
  · rfl
  · split
    · rfl
    · extract_lets s1
      split
      · rfl
      · exact s1.bump_trd _

/-- A selection leaves the Treadle as it is (R423). -/
@[simp] theorem State.select_trd (s : State) (f : Nat) : (s.select f).trd = s.trd := by
  unfold State.select
  split
  · rfl
  · extract_lets s0 old r c s1 changed miss s2 s3 s4 seq
    have h1 : s1.trd = s.trd := by rw [State.takeBoxes_trd, State.chooseUsable_trd, State.adopt_trd]
    have h3 : s3.trd = s.trd := by
      unfold s3
      split <;> exact h1
    have h4 : s4.trd = s.trd := by
      rw [State.bumps_trd]
      split
      · rw [State.bump_trd, h3]
      · exact h3
    exact h4

/-! The clock. -/

/-- The timing in use is not changed by a CCLK inside a pick (R29). -/
theorem State.tick_timing (s : State) : s.tick.trd.timing = s.trd.timing := by
  by_cases ht : s.boot.tripped = true
  · rw [State.tick, if_pos ht]
  · have hcount : s.cycCounted.trd.timing = s.trd.timing := by
      have hstretch : s.countStretch.trd.timing = s.trd.timing := by rw [s.countStretch_kept.trd]
      unfold State.cycCounted
      extract_lets now u
      split <;> exact hstretch
    have hcompare : s.cycCounted.compareSlots.trd.timing = s.cycCounted.trd.timing := by
      unfold State.compareSlots
      rw [State.onTrd_trd]
      split <;> rfl
    rw [s.tick_of_running (Bool.eq_false_iff.mpr ht)]
    exact hcompare.trans hcount

@[simp] theorem State.elapse_timing (n : Nat) (s : State) : (State.elapse n s).trd.timing = s.trd.timing := by
  induction n generalizing s with
  | zero => rfl
  | succ n ih => exact (ih s.tick).trans s.tick_timing

@[simp] theorem State.elapse_pic (n : Nat) (s : State) : (State.elapse n s).pic = s.pic := by rw [s.clockOnly_elapse n]

end Sys2Proof.Machine
end

section
/-! SUPPORT. The lines of a shed: their length, their pixels outside the destination, and the darn mark of a group of eight (R411, R412, R448, R463 to R467). -/

namespace Sys2Proof.Machine

/-! Groups of eight. -/

theorem spreadDarn_length (l : List Pixel) : (spreadDarn l).length = l.length := by
  rw [spreadDarn, List.length_map, List.length_zipIdx]

/-- The darn mark of the group of eight that a column lies in. -/
def groupDarn (l : List Pixel) (c : Nat) : Bool := ((l.drop (c / 8 * 8)).take 8).any fun p => p.darn

theorem spreadDarn_getElem? (l : List Pixel) (c : Nat) : (spreadDarn l)[c]? = l[c]?.map fun p => { p with darn := groupDarn l c } := by
  rw [spreadDarn, List.getElem?_map, List.getElem?_zipIdx, Option.map_map, Nat.zero_add]
  rfl

/-- The eight columns of a group, among the pixels of a row. -/
theorem groupDarn_map_range (n : Nat) (pixel : Nat → Pixel) (c : Nat) :
    groupDarn ((List.range n).map pixel) c = (List.range n).any fun e => e / 8 == c / 8 && (pixel e).darn := by
  rw [Bool.eq_iff_iff, groupDarn, List.any_eq_true, List.any_eq_true]
  constructor
  · rintro ⟨p, hp, hdarn⟩
    obtain ⟨k, hk⟩ := List.mem_iff_getElem?.mp hp
    rw [List.getElem?_take] at hk
    split at hk
    · rw [List.getElem?_drop, List.getElem?_map, Option.map_eq_some_iff] at hk
      obtain ⟨e, he, rfl⟩ := hk
      obtain ⟨hlt, rfl⟩ := List.getElem?_eq_some_iff.mp he
      rw [List.getElem_range] at hdarn
      refine ⟨_, List.mem_range.mpr (List.length_range (n := n) ▸ hlt), Bool.and_eq_true_iff.mpr ⟨beq_iff_eq.mpr ?_, hdarn⟩⟩
      omega
    · exact nomatch hk
  · rintro ⟨e, he, hat⟩
    obtain ⟨hgroup, hdarn⟩ := Bool.and_eq_true_iff.mp hat
    have hgroup := beq_iff_eq.mp hgroup
    refine ⟨pixel e, List.mem_iff_getElem?.mpr ⟨e - c / 8 * 8, ?_⟩, hdarn⟩
    rw [List.getElem?_take, if_pos (by omega), List.getElem?_drop, show c / 8 * 8 + (e - c / 8 * 8) = e by omega, List.getElem?_map,
      List.getElem?_range (List.mem_range.mp he)]
    rfl

/-- A row of a shed: each pixel is its own but for the darn mark, which is its group's. -/
theorem pixel_of_row {n : Nat} {pixel : Nat → Pixel} {c : Nat} {p : Pixel}
    (h : (spreadDarn ((List.range n).map pixel))[c]? = some p) :
    p = { pixel c with darn := groupDarn ((List.range n).map pixel) c } := by
  rw [spreadDarn_getElem?, List.getElem?_map, Option.map_map, Option.map_eq_some_iff] at h
  obtain ⟨e, he, rfl⟩ := h
  obtain ⟨hlt, rfl⟩ := List.getElem?_eq_some_iff.mp he
  rw [List.getElem_range]
  rfl

theorem groupDarn_congr (l : List Pixel) {c e : Nat} (h : e / 8 = c / 8) : groupDarn l e = groupDarn l c := by
  rw [groupDarn, groupDarn, h]

/-- Row `r` of lines that are given for each active line of a shed. -/
theorem row_of_line {lines : List Nat} {r y : Nat} (row : Nat → List Pixel) (h : lines[r]? = some y) : (lines.map row)[r]? = some (row y) := by
  rw [List.getElem?_map, h]
  rfl

theorem spreadDarn_map_range_length (n : Nat) (pixel : Nat → Pixel) : (spreadDarn ((List.range n).map pixel)).length = n := by
  rw [spreadDarn_length, List.length_map, List.length_range]

/-! The networks' lines. -/

/-- The halo rows that the shed before has kept (R444, R448). -/
def State.keptRows (s : State) (x : Shed) : List HaloRow :=
  match s.pic.sheds.find? fun y => y.isAt x.frame (x.index - 1) with
  | some y => if x.index = 0 ∨ y.late then [] else y.halo
  | none => []

/-- What the last network of a shed gives, if one runs, and the halo rows that all of them leave. -/
def State.netsDone (s : State) (x : Shed) (darned : List (Nat × Nat)) : Option (Nat → Nat → Cell) × List HaloRow :=
  s.shedNets.foldl (fun (acc : Option (Nat → Nat → Cell) × List HaloRow) n =>
    let r := s.runStage n x (s.keptRows x) (s.stageInput n x.index darned acc.1)
    (some r.1, acc.2 ++ r.2)) (none, [])

/-- A pixel of a shed's network lines before its group's darn mark is spread. -/
def State.netPixel (s : State) (x : Shed) (darned : List (Nat × Nat)) (y c : Nat) : Pixel :=
  match s.inDst c y, (s.netsDone x darned).1 with
  | some (u, v), some f =>
    let p := s.pastedCell (if s.regionOn then s.shedBoxes x.index else []) u v (f u v)
    { y := p.1 % 1024, cb := p.1 / 1024 % 1024, cr := p.1 / 1048576 % 1024, darn := p.2 }
  | _, _ => s.blackPixel

theorem State.runNets_lines (s : State) (x : Shed) (darned : List (Nat × Nat)) :
    (s.runNets x darned).1 = (s.shedLines x.index).map fun y => spreadDarn ((List.range s.trd.timing.hActive).map (s.netPixel x darned y)) :=
  rfl

/-- A shed on which a network runs has that network's output. -/
theorem State.netsDone_of_nets (s : State) (x : Shed) (darned : List (Nat × Nat)) (h : s.shedNets ≠ []) :
    (s.netsDone x darned).1.isSome = true := by
  unfold State.netsDone
  obtain ⟨l, n, hl⟩ := s.shedNets.eq_nil_or_concat.resolve_left h
  rw [hl, List.concat_eq_append, List.foldl_append]
  rfl

/-- Outside the destination a pixel is PIC_BLACK (R412). -/
theorem State.netPixel_outside (s : State) (x : Shed) (darned : List (Nat × Nat)) (y c : Nat) (h : s.inDst c y = none) :
    s.netPixel x darned y c = s.blackPixel := by
  rw [State.netPixel, h]

/-- Where a network gives a pixel, its samples are of 10 bits. -/
theorem State.netPixel_inside (s : State) (x : Shed) (darned : List (Nat × Nat)) (y c : Nat) (h : s.inDst c y ≠ none) (hn : s.shedNets ≠ []) :
    (s.netPixel x darned y c).y < 1024 ∧ (s.netPixel x darned y c).cb < 1024 ∧ (s.netPixel x darned y c).cr < 1024 := by
  obtain ⟨at_, hat⟩ := Option.ne_none_iff_exists'.mp h
  obtain ⟨f, hf⟩ := Option.isSome_iff_exists.mp (s.netsDone_of_nets x darned hn)
  rw [State.netPixel, hat, hf]
  exact ⟨Nat.mod_lt _ (by decide), Nat.mod_lt _ (by decide), Nat.mod_lt _ (by decide)⟩

/-- The lines the networks make of a shed (R411, R412, R448). -/
theorem State.runNets_spec (s : State) (x : Shed) (darned : List (Nat × Nat)) :
    let lines := (s.runNets x darned).1
    lines.length = (s.shedLines x.index).length ∧
    ∀ (r y : Nat), (s.shedLines x.index)[r]? = some y → ∃ row, lines[r]? = some row ∧ row.length = s.trd.timing.hActive ∧
      ∀ (c : Nat) p, row[c]? = some p → (s.inDst c y = none → p = { s.blackPixel with darn := p.darn }) ∧
        (s.inDst c y ≠ none → s.shedNets ≠ [] → p.y < 1024 ∧ p.cb < 1024 ∧ p.cr < 1024) ∧
        ∀ (e : Nat) o, e / 8 = c / 8 → row[e]? = some o → o.darn = p.darn := by
  intro lines
  rw [show lines = _ from s.runNets_lines x darned]
  refine ⟨List.length_map _, fun r y hy => ⟨_, row_of_line _ hy, spreadDarn_map_range_length _ _, fun c p hp => ?_⟩⟩
  rw [pixel_of_row hp]
  refine ⟨fun hout => ?_, fun hin hn => s.netPixel_inside x darned y c hin hn, fun e o he ho => ?_⟩
  · rw [s.netPixel_outside x darned y c hout]
  · rw [pixel_of_row ho]
    exact groupDarn_congr _ he

/-! The Tack scaler's lines. -/

/-- A pixel of the Tack output before its group's darn mark is spread. -/
def State.tackPixel (s : State) (f : FrameRec) (y x : Nat) : Pixel :=
  match s.inDst x y with
  | none => s.blackPixel
  | some (u, v) =>
    let a := s.tackSample f 0 s.dstSize u v
    let b := s.tackSample f 1 s.dstSize u v
    let c := s.tackSample f 2 s.dstSize u v
    { y := a.1, cb := b.1, cr := c.1, darn := a.2 || b.2 || c.2 }

theorem State.tackLine_eq (s : State) (f : FrameRec) (y : Nat) :
    s.tackLine f y = spreadDarn ((List.range s.trd.timing.hActive).map (s.tackPixel f y)) := rfl

theorem State.tackLines_of_record (s : State) (x : Shed) (f : FrameRec) (h : s.frame? x.recA = some f) :
    s.tackLines x = (s.shedLines x.index).map (s.tackLine f) := by
  rw [State.tackLines, h]

theorem State.tackLines_of_none (s : State) (x : Shed) (h : s.frame? x.recA = none) :
    s.tackLines x = (s.shedLines x.index).map fun _ => List.replicate s.trd.timing.hActive s.blackPixel := by
  rw [State.tackLines, h]

/-- A tap of one of the three samples of a position is darned (R466). -/
def State.tackDarn (s : State) (f : FrameRec) (y e : Nat) : Bool :=
  match s.inDst e y with
  | some (u, v) => (List.range 3).any fun k => (s.tackSample f k s.dstSize u v).2
  | none => false

theorem State.tackPixel_darn (s : State) (f : FrameRec) (y e : Nat) : (s.tackPixel f y e).darn = s.tackDarn f y e := by
  rcases h : s.inDst e y with _ | ⟨u, v⟩
  · rw [State.tackPixel, State.tackDarn, h]
    rfl
  · simp only [State.tackPixel, State.tackDarn, h, show List.range 3 = [0, 1, 2] from rfl, List.any_cons, List.any_nil, Bool.or_false,
      Bool.or_assoc]

theorem clampInt_le (top : Nat) (x : Int) : clampInt top x ≤ top := by
  unfold clampInt
  omega

/-- The Tack output of a shed (R412, R431, R463 to R466). -/
theorem State.tackLines_spec (s : State) (x : Shed) :
    (s.tackLines x).length = (s.shedLines x.index).length ∧
    ∀ (r y : Nat), (s.shedLines x.index)[r]? = some y → ∃ row, (s.tackLines x)[r]? = some row ∧ row.length = s.trd.timing.hActive ∧
      ∀ (c : Nat) p, row[c]? = some p →
        (s.inDst c y = none ∨ s.frame? x.recA = none → p = { s.blackPixel with darn := p.darn }) ∧
        (∀ a, s.frame? x.recA = some a → ∀ u v, s.inDst c y = some (u, v) → p.y = (s.tackSample a 0 s.dstSize u v).1 ∧
          p.cb = (s.tackSample a 1 s.dstSize u v).1 ∧ p.cr = (s.tackSample a 2 s.dstSize u v).1 ∧ p.y ≤ 1023) ∧
        ∀ a, s.frame? x.recA = some a →
          p.darn = (List.range s.trd.timing.hActive).any fun e => e / 8 == c / 8 && s.tackDarn a y e := by
  cases hrec : s.frame? x.recA with
  | none =>
    rw [s.tackLines_of_none x hrec]
    refine ⟨List.length_map _, fun r y hy => ⟨_, row_of_line _ hy, List.length_replicate, fun c p hp => ⟨fun _ => ?_, nofun, nofun⟩⟩⟩
    rw [List.eq_of_mem_replicate (List.mem_of_getElem? hp)]
  | some f =>
    rw [s.tackLines_of_record x f hrec]
    refine ⟨List.length_map _, fun r y hy => ⟨_, row_of_line _ hy, ?_, fun c p hp => ?_⟩⟩
    · rw [State.tackLine_eq, spreadDarn_map_range_length]
    · rw [State.tackLine_eq] at hp
      rw [pixel_of_row hp]
      refine ⟨fun hout => ?_, fun a ha u v hin => ?_, fun a ha => ?_⟩
      · rw [State.tackPixel, hout.resolve_right nofun]
      · rw [← Option.some.inj ha, State.tackPixel, hin]
        exact ⟨rfl, rfl, rfl, clampInt_le 1023 _⟩
      · rw [← Option.some.inj ha]
        simp only [groupDarn_map_range, State.tackPixel_darn]

end Sys2Proof.Machine
end

section
/-! SUPPORT. The start of a shed on the reserved looms: what it changes, and what of the picture path it depends on (R310, R402, R440). -/

namespace Sys2Proof.Machine

/-- From `s` to `t` only lines of memory, channels, and how many free values are read have changed. -/
def State.ChainStarts (s t : State) : Prop := t = { s with sht := t.sht, mem := t.mem, free := t.free }

namespace State.ChainStarts

variable {s t u : State}

theorem refl (s : State) : s.ChainStarts s := rfl

theorem trans (h : s.ChainStarts t) (h' : t.ChainStarts u) : s.ChainStarts u := by
  unfold State.ChainStarts at *
  rw [h', h]

theorem foldl {α : Type} (f : State → α → State) (hf : ∀ (u : State) x, u.ChainStarts (f u x)) (l : List α) (h : s.ChainStarts t) :
    s.ChainStarts (l.foldl f t) :=
  List.foldlRecOn l f h fun u hu x _ => hu.trans (hf u x)

theorem pic (h : s.ChainStarts t) : t.pic = s.pic := by rw [h]
theorem regs (h : s.ChainStarts t) : t.regs = s.regs := by rw [h]
theorem slv (h : s.ChainStarts t) : t.slv = s.slv := by rw [h]

end State.ChainStarts

theorem State.openWeights_starts (s : State) (rank logical : Nat) : s.ChainStarts (s.openWeights rank logical) := by
  unfold State.openWeights
  refine State.ChainStarts.foldl _ (fun u x => ?_) _ (.refl s)
  exact State.ChainStarts.refl _

theorem State.dropL1_starts (s : State) (loom : Nat) (all : Bool) : s.ChainStarts (s.dropL1 loom all) := by
  unfold State.ChainStarts
  rw [(s.dropL1_moved loom all).rest]

theorem State.startLooms_starts (s : State) : s.ChainStarts s.startLooms := by
  unfold State.startLooms
  refine State.ChainStarts.foldl _ (fun u x => ?_) _ (.refl s)
  exact (u.dropL1_starts x.1 false).trans (State.openWeights_starts _ x.2 x.1)

/-! Of the picture path the start depends on the admission in effect alone. -/

/-- The state with another picture path. -/
def State.withPic (s : State) (p : Pic) : State := { s with pic := p }

theorem State.onLine_withPic (s : State) (p : Pic) (pa : Nat) (f : SLine → SLine) : (s.withPic p).onLine pa f = (s.onLine pa f).withPic p := by
  have hway : (s.withPic p).wayOf pa = s.wayOf pa := rfl
  unfold State.onLine
  rw [hway]
  split
  · rw [show (s.withPic p).mem = s.mem from rfl]
    split <;> rfl
  · rfl

theorem State.dropL1_withPic (s : State) (p : Pic) (loom : Nat) (all : Bool) : (s.withPic p).dropL1 loom all = (s.dropL1 loom all).withPic p := by
  unfold State.dropL1
  extract_lets gone s1 gone' s1'
  refine List.foldl_hom (init := s1') (fun u : State => u.withPic p) fun u x => ?_
  split
  · rfl
  · exact u.onLine_withPic p _ _

theorem State.openWeights_withPic (s : State) (p : Pic) (rank logical : Nat) (h : p.admitNow = s.pic.admitNow) :
    (s.withPic p).openWeights rank logical = (s.openWeights rank logical).withPic p := by
  have hnets : (s.withPic p).shedNets = s.shedNets := by
    unfold State.shedNets
    rw [show (s.withPic p).pic.admitNow = s.pic.admitNow from h]
    rfl
  unfold State.openWeights
  rw [hnets]
  refine List.foldl_hom (init := s) (fun u : State => u.withPic p) fun u x => ?_
  rfl

/-- The looms start as they would with any picture path of the same admission. -/
theorem State.startLooms_withPic (s : State) (p : Pic) (h : p.admitNow = s.pic.admitNow) :
    (s.withPic p).startLooms = s.startLooms.withPic p := by
  have hfold (l : List (Nat × Nat)) (u : State) (hu : p.admitNow = u.pic.admitNow) :
      l.foldl (fun t x => (t.dropL1 x.1 false).openWeights x.2 x.1) (u.withPic p) =
        (l.foldl (fun t x => (t.dropL1 x.1 false).openWeights x.2 x.1) u).withPic p := by
    induction l generalizing u with
    | nil => rfl
    | cons x l ih =>
      have hstarts : u.ChainStarts ((u.dropL1 x.1 false).openWeights x.2 x.1) :=
        (u.dropL1_starts x.1 false).trans (State.openWeights_starts _ x.2 x.1)
      rw [List.foldl_cons, List.foldl_cons, u.dropL1_withPic p x.1 false,
        State.openWeights_withPic _ p _ _ (by rw [(u.dropL1_starts x.1 false).pic]; exact hu)]
      exact ih _ (by rw [hstarts.pic]; exact hu)
  exact hfold s.reserved.zipIdx s h

end Sys2Proof.Machine
end

section
/-! SUPPORT. The sheds on their way: one that is looked up by frame and number, one that ends, and the next that begins (R438 to R442). -/

namespace Sys2Proof.Machine

/-! Looking a shed up. -/

theorem Shed.isAt_iff (x : Shed) (f i : Nat) : x.isAt f i = true ↔ x.frame = f ∧ x.index = i := by
  rw [Shed.isAt, Bool.and_eq_true, beq_iff_eq, beq_iff_eq]

theorem Shed.isAt_self (x : Shed) : x.isAt x.frame x.index = true := (x.isAt_iff _ _).mpr ⟨rfl, rfl⟩

/-- A frame and number by which every shed of a list is told from the others. -/
abbrev Shed.key (x : Shed) : Nat × Nat := (x.frame, x.index)

theorem Shed.frame_of_key {x y : Shed} (h : x.key = y.key) : x.frame = y.frame := congrArg Prod.fst h

theorem Shed.index_of_key {x y : Shed} (h : x.key = y.key) : x.index = y.index := congrArg Prod.snd h

/-- Change the sheds of a list that have a frame and number. -/
def Shed.changeAt (f i : Nat) (g : Shed → Shed) (y : Shed) : Shed := if y.isAt f i then g y else y

theorem Shed.changeAt_self {x : Shed} (g : Shed → Shed) : Shed.changeAt x.frame x.index g x = g x := if_pos x.isAt_self

theorem State.onShed_sheds (s : State) (f i : Nat) (g : Shed → Shed) : (s.onShed f i g).pic.sheds = s.pic.sheds.map (Shed.changeAt f i g) := rfl

theorem Shed.key_changeAt {g : Shed → Shed} (hg : ∀ y, (g y).key = y.key) (f i : Nat) (y : Shed) : (Shed.changeAt f i g y).key = y.key := by
  unfold Shed.changeAt
  split
  · exact hg y
  · rfl

/-- The first shed that satisfies a property, after a change that keeps the property. -/
theorem find?_map_shed (l : List Shed) (g : Shed → Shed) (p : Shed → Bool) (h : ∀ y, p (g y) = p y) : (l.map g).find? p = (l.find? p).map g := by
  rw [List.find?_map]
  exact congrArg _ (congrArg (fun q => l.find? q) (funext h))

/-- Where frame and number tell sheds apart, the look-up finds the one it is made for. -/
theorem State.shed?_of_mem {s : State} {x : Shed} (h : (s.pic.sheds.map Shed.key).Nodup) (hx : x ∈ s.pic.sheds) :
    s.shed? x.frame x.index = some x := by
  cases hfind : s.shed? x.frame x.index with
  | none => exact absurd x.isAt_self (List.find?_eq_none.mp hfind x hx)
  | some y =>
    obtain ⟨hframe, hindex⟩ := (y.isAt_iff _ _).mp (List.find?_some (p := fun z : Shed => z.isAt x.frame x.index) hfind)
    rw [List.inj_on_of_nodup_map h (List.mem_of_find?_eq_some hfind) hx (Prod.ext hframe hindex)]

theorem State.shed?_congr {s t : State} (h : t.pic.sheds = s.pic.sheds) (f i : Nat) : t.shed? f i = s.shed? f i := by
  rw [State.shed?, State.shed?, h]

/-- A shed that is changed is found as it is now. -/
theorem State.shed?_onShed {s : State} {x : Shed} (g : Shed → Shed) (h : (s.pic.sheds.map Shed.key).Nodup) (hx : x ∈ s.pic.sheds)
    (hkey : ∀ y, (g y).key = y.key) : (s.onShed x.frame x.index g).shed? x.frame x.index = some (g x) := by
  have hfind := find?_map_shed s.pic.sheds (Shed.changeAt x.frame x.index g) (fun y => y.isAt x.frame x.index) fun y => by
    have hy := Shed.key_changeAt hkey x.frame x.index y
    rw [Shed.isAt, Shed.isAt, Shed.frame_of_key hy, Shed.index_of_key hy]
  have hfound : s.pic.sheds.find? (fun y => y.isAt x.frame x.index) = some x := State.shed?_of_mem h hx
  exact hfind.trans (by rw [hfound, Option.map_some, Shed.changeAt_self])

/-- The oldest shed that has not ended (R440). -/
abbrev State.nextShed (s : State) : Option Shed := s.pic.sheds.find? fun x => !x.ended

theorem State.nextShed_mem {s : State} {x : Shed} (h : s.nextShed = some x) : x ∈ s.pic.sheds ∧ x.ended = false :=
  ⟨List.mem_of_find?_eq_some h, by simpa using List.find?_some h⟩

/-! The next shed begins. -/

/-- A shed after the next one has begun in a CCLK. -/
def Shed.afterBegin (next : Option Shed) (c : Nat) (y : Shed) : Shed :=
  match next with
  | some z => if z.begun.isSome then y else Shed.changeAt z.frame z.index (fun y => { y with begun := some c }) y
  | none => y

/-- Where none is left to begin, nothing happens (R440). -/
theorem State.beginNext_of_begun (s : State) (c : Nat) (h : ∀ z, s.nextShed = some z → z.begun.isSome = true) : s.beginNext c = s := by
  unfold State.beginNext
  split
  · rename_i z hz
    rw [if_pos (h z hz)]
  · rfl

/-- The oldest shed that has not ended begins, and with networks the reserved looms start (R440). -/
theorem State.beginNext_of_waiting (s : State) (c : Nat) {z : Shed} (h : s.nextShed = some z) (hb : z.begun = none) :
    s.beginNext c = if z.nets then (s.onShed z.frame z.index fun y => { y with begun := some c }).startLooms
      else s.onShed z.frame z.index fun y => { y with begun := some c } := by
  unfold State.beginNext
  rw [show (s.pic.sheds.find? fun x => !x.ended) = some z from h]
  exact if_neg (by simp [hb])

/-- No shed waits to begin, or the oldest that has not ended does. -/
theorem State.nextShed_cases (s : State) :
    (∀ z, s.nextShed = some z → z.begun.isSome = true) ∨ ∃ z, s.nextShed = some z ∧ z.begun = none := by
  cases h : s.nextShed with
  | none => exact .inl nofun
  | some z =>
    cases hb : z.begun with
    | none => exact .inr ⟨z, rfl, hb⟩
    | some b => exact .inl fun y hy => by rw [← Option.some.inj hy, hb]; rfl

theorem Shed.afterBegin_of_begun {next : Option Shed} (c : Nat) (h : ∀ z, next = some z → z.begun.isSome = true) (y : Shed) :
    Shed.afterBegin next c y = y := by
  cases next with
  | none => rfl
  | some z => exact if_pos (h z rfl)

theorem Shed.afterBegin_of_waiting {z : Shed} (c : Nat) (hb : z.begun = none) (y : Shed) :
    Shed.afterBegin (some z) c y = Shed.changeAt z.frame z.index (fun y => { y with begun := some c }) y :=
  if_neg (by simp [hb])

/-- A shed that begins changes in that alone. -/
theorem Shed.afterBegin_eq (next : Option Shed) (c : Nat) (y : Shed) :
    Shed.afterBegin next c y = y ∨ Shed.afterBegin next c y = { y with begun := some c } := by
  unfold Shed.afterBegin Shed.changeAt
  split
  · split
    · exact .inl rfl
    · split
      · exact .inr rfl
      · exact .inl rfl
  · exact .inl rfl

theorem Shed.afterBegin_kept (next : Option Shed) (c : Nat) (y : Shed) :
    (Shed.afterBegin next c y).key = y.key ∧ (Shed.afterBegin next c y).ended = y.ended := by
  rcases Shed.afterBegin_eq next c y with h | h <;> rw [h] <;> exact ⟨rfl, rfl⟩

/-- What the beginning of the next shed changes: its own entry, and what the start of the looms does. -/
theorem State.beginNext_eq (s : State) (c : Nat) :
    (s.withPic { s.pic with sheds := s.pic.sheds.map (Shed.afterBegin s.nextShed c) }).ChainStarts (s.beginNext c) := by
  rcases s.nextShed_cases with hbegun | ⟨z, hz, hb⟩
  · have hmap : s.pic.sheds.map (Shed.afterBegin s.nextShed c) = s.pic.sheds :=
      (List.map_congr_left fun y _ => Shed.afterBegin_of_begun c hbegun y).trans (List.map_id' _)
    rw [hmap, s.beginNext_of_begun c hbegun]
    exact .refl s
  · have hmap : s.pic.sheds.map (Shed.afterBegin s.nextShed c) =
        s.pic.sheds.map (Shed.changeAt z.frame z.index fun y => { y with begun := some c }) :=
      List.map_congr_left fun y _ => by rw [hz, Shed.afterBegin_of_waiting c hb]
    rw [hmap, s.beginNext_of_waiting c hz hb]
    split
    · exact State.startLooms_starts _
    · exact .refl _

theorem State.beginNext_pic (s : State) (c : Nat) :
    (s.beginNext c).pic = { s.pic with sheds := s.pic.sheds.map (Shed.afterBegin s.nextShed c) } := (s.beginNext_eq c).pic

/-- A shed that has ended is found as it was after the next one has begun. -/
theorem State.shed?_beginNext {s : State} {c : Nat} {y : Shed} (h : (s.pic.sheds.map Shed.key).Nodup) (hy : y ∈ s.pic.sheds)
    (hended : y.ended = true) : (s.beginNext c).shed? y.frame y.index = some y := by
  have hstill : Shed.afterBegin s.nextShed c y = y := by
    rcases s.nextShed_cases with hbegun | ⟨z, hz, hb⟩
    · exact Shed.afterBegin_of_begun c hbegun y
    · obtain ⟨hmem, hrunning⟩ := State.nextShed_mem hz
      rw [hz, Shed.afterBegin_of_waiting c hb, Shed.changeAt, if_neg]
      intro hat
      obtain ⟨hframe, hindex⟩ := (y.isAt_iff _ _).mp hat
      have hsame := List.inj_on_of_nodup_map h hy hmem (Prod.ext hframe hindex)
      rw [hsame, hrunning] at hended
      exact nomatch hended
  have hfind := find?_map_shed s.pic.sheds (Shed.afterBegin s.nextShed c) (fun x => x.isAt y.frame y.index) fun x => by
    have hkey := (Shed.afterBegin_kept s.nextShed c x).1
    rw [Shed.isAt, Shed.isAt, Shed.frame_of_key hkey, Shed.index_of_key hkey]
  have hfound : s.pic.sheds.find? (fun x => x.isAt y.frame y.index) = some y := State.shed?_of_mem h hy
  rw [State.shed?, State.beginNext_pic]
  exact hfind.trans (by rw [hfound, Option.map_some, hstill])

/-- The oldest shed that has not ended runs from now on, or has begun before (R440). -/
theorem State.nextShed_beginNext {s : State} {c : Nat} {z : Shed} (h : (s.beginNext c).nextShed = some z) :
    z.begun = some c ∨ s.nextShed = some z ∧ z.begun.isSome = true := by
  have hfind := find?_map_shed s.pic.sheds (Shed.afterBegin s.nextShed c) (fun x => !x.ended) fun x => by
    rw [(Shed.afterBegin_kept s.nextShed c x).2]
  rw [State.nextShed, State.beginNext_pic, hfind] at h
  obtain ⟨y, hy, rfl⟩ := Option.map_eq_some_iff.mp h
  rcases s.nextShed_cases with hbegun | ⟨z, hz, hb⟩
  · rw [Shed.afterBegin_of_begun c hbegun y]
    exact .inr ⟨hy, hbegun y hy⟩
  · obtain rfl : z = y := Option.some.inj (hz.symm.trans hy)
    rw [hz, Shed.afterBegin_of_waiting c hb, Shed.changeAt_self]
    exact .inl rfl

/-! A shed ends. -/

/-- A shed `x` of a state `s` that has ended in `u`, after which the next begins: it is found as it ended, and the next one runs (R440, R441). -/
theorem State.endShed_spec {s u : State} {x : Shed} {g : Shed → Shed} {c : Nat}
    (hu : u.pic.sheds = s.pic.sheds.map (Shed.changeAt x.frame x.index g)) (h : (s.pic.sheds.map Shed.key).Nodup) (hx : x ∈ s.pic.sheds)
    (hkey : ∀ y, (g y).key = y.key) (hended : ∀ y, (g y).ended = true) :
    (u.beginNext c).shed? x.frame x.index = some (g x) ∧
    ∀ z, (u.beginNext c).nextShed = some z → z.begun = some c ∨ s.shed? z.frame z.index = some z ∧ z.begun.isSome = true := by
  refine ⟨?_, fun z hz => ?_⟩
  · have hkeys : u.pic.sheds.map Shed.key = s.pic.sheds.map Shed.key := by
      rw [hu, List.map_map]
      exact List.map_congr_left fun y _ => Shed.key_changeAt hkey _ _ y
    have hmem : g x ∈ u.pic.sheds := by
      rw [hu]
      exact List.mem_map.mpr ⟨x, hx, Shed.changeAt_self g⟩
    have hfound := State.shed?_beginNext (c := c) (hkeys ▸ h) hmem (hended x)
    rwa [Shed.frame_of_key (hkey x), Shed.index_of_key (hkey x)] at hfound
  · rcases State.nextShed_beginNext hz with hbegun | ⟨hnext, hbegun⟩
    · exact .inl hbegun
    · obtain ⟨hmem, hrunning⟩ := State.nextShed_mem hnext
      rw [hu] at hmem
      obtain ⟨y, hy, rfl⟩ := List.mem_map.mp hmem
      have hother : Shed.changeAt x.frame x.index g y = y := by
        unfold Shed.changeAt at hrunning ⊢
        split at hrunning
        · exact nomatch hrunning.symm.trans (hended y)
        · exact if_neg ‹_›
      rw [hother] at hbegun ⊢
      exact .inr ⟨State.shed?_of_mem h hy, hbegun⟩

end Sys2Proof.Machine
end

section
/-! PROOF. Sheds launch, end or miss their deadline, and the Tack scaler and the detector complete theirs (R412, R434, R438 to R443, R463). -/

namespace Sys2Proof.Machine

/-! What sheds change. -/

/-- From `s` to `t` sheds and records have changed, and what their start, their end and their counts change. -/
def State.ShedMoved (s t : State) : Prop :=
  t = { s with regs := t.regs, pic := t.pic, slv := t.slv, sht := t.sht, mem := t.mem, free := t.free } ∧
  t.pic = { s.pic with sheds := t.pic.sheds, fifo := t.pic.fifo }

namespace State.ShedMoved

variable {s t u : State}

theorem refl (s : State) : s.ShedMoved s := ⟨rfl, rfl⟩

theorem trans (h : s.ShedMoved t) (h' : t.ShedMoved u) : s.ShedMoved u := by
  obtain ⟨hrest, hpic⟩ := h
  obtain ⟨hrest', hpic'⟩ := h'
  exact ⟨by rw [hrest', hrest], by rw [hpic', hpic]⟩

theorem onShed (h : s.ShedMoved t) (f i : Nat) (g : Shed → Shed) : s.ShedMoved (t.onShed f i g) := h.trans ⟨rfl, rfl⟩

theorem dropWaits (h : s.ShedMoved t) (x : Shed) : s.ShedMoved (t.dropWaits x) := h.trans ⟨rfl, rfl⟩

theorem bump (h : s.ShedMoved t) (o : Nat) : s.ShedMoved (t.bump o) := by
  refine h.trans ?_
  unfold State.bump
  split <;> exact ⟨rfl, rfl⟩

theorem wr (h : s.ShedMoved t) (o : Nat) (v : Word) : s.ShedMoved (t.wr o v) := h.trans ⟨rfl, rfl⟩

theorem wrStamp (h : s.ShedMoved t) (lo hi : Nat) (a : Stamp) : s.ShedMoved (t.wrStamp lo hi a) := (h.wr lo _).wr hi _

theorem beginNext (h : s.ShedMoved t) (c : Nat) : s.ShedMoved (t.beginNext c) :=
  h.trans ⟨by rw [t.beginNext_eq c]; rfl, by rw [t.beginNext_pic c]⟩

end State.ShedMoved

theorem State.rd_congr {s t : State} (h : t.regs = s.regs) (o : Nat) : t.rd o = s.rd o := by rw [State.rd, State.rd, h]

theorem State.beginNext_regs (s : State) (c : Nat) : (s.beginNext c).regs = s.regs := (s.beginNext_eq c).regs

theorem State.beginNext_slv (s : State) (c : Nat) : (s.beginNext c).slv = s.slv := (s.beginNext_eq c).slv

theorem State.lineStamp_congr {s t : State} (h : t.trd.timing = s.trd.timing) (f : Nat) (l : Int) : t.lineStamp f l = s.lineStamp f l := by
  rw [State.lineStamp, State.lineStamp, h]

@[simp] theorem State.wrStamp_pic (s : State) (lo hi : Nat) (a : Stamp) : (s.wrStamp lo hi a).pic = s.pic := by
  rw [State.wrStamp, State.setFld_pic, State.wr_pic]

@[simp] theorem State.wrStamp_slv (s : State) (lo hi : Nat) (a : Stamp) : (s.wrStamp lo hi a).slv = s.slv := by
  rw [State.wrStamp, State.setFld_slv, State.wr_slv]

/-! The launch. -/

/-- A shed as it is launched, before it begins. -/
def State.newShed (s : State) (f i : Nat) : Shed :=
  { frame := f, index := i, launch := s.launchStamp f i, deadline := s.deadlineStamp f i, recA := s.pic.sel.recA,
    recB := if s.runsNets then s.pic.sel.recB else none, phase := s.pic.sel.phase, nets := s.runsNets, begun := none, ended := false,
    late := false, net := none, tack := none, halo := [], mat := match s.frame? s.pic.sel.recA with
      | some r => r.mat
      | none => Config.blackMatrix % 2 }

/-- The new shed has joined the others, of which the last three are kept (R447). -/
def State.launching (s : State) (f i : Nat) : State :=
  (s.onPic fun p => { p with sheds := (p.sheds ++ [s.newShed f i]).drop (p.sheds.length - 3), last := some (f, i) }).noteReads (s.newShed f i)

theorem State.launchShed_eq (s : State) (f i : Nat) : s.launchShed f i =
    if s.runsNets && s.rd Reg.IMG_T_NET == 0#32
    then ((s.launching f i).beginNext s.trd.cclk).wr Reg.IMG_T_NET (BitVec.ofNat 32 (s.trd.time / usTime))
    else (s.launching f i).beginNext s.trd.cclk := rfl

/-- The sheds before it that are kept beside a new one. -/
abbrev State.lastThree (s : State) : List Shed := s.pic.sheds.drop (s.pic.sheds.length - 3)

theorem State.noteReads_eq (s : State) (x : Shed) : s.noteReads x = s.withPic { s.pic with fifo := (s.noteReads x).pic.fifo } := by
  unfold State.noteReads
  extract_lets mark s1
  split
  · rfl
  · rfl

theorem State.launching_eq (s : State) (f i : Nat) : s.launching f i = s.withPic { s.pic with
    sheds := s.lastThree ++ [s.newShed f i], last := some (f, i), fifo := (s.launching f i).pic.fifo } := by
  have hlist : (s.pic.sheds ++ [s.newShed f i]).drop (s.pic.sheds.length - 3) = s.lastThree ++ [s.newShed f i] :=
    List.drop_append_of_le_length (Nat.sub_le _ _)
  have hnote := (s.onPic fun p => { p with sheds := (p.sheds ++ [s.newShed f i]).drop (p.sheds.length - 3), last := some (f, i) }).noteReads_eq
    (s.newShed f i)
  rw [State.onPic_pic, hlist] at hnote
  exact hnote

theorem State.launching_nextShed (s : State) (f i : Nat) :
    (s.launching f i).nextShed = ((s.lastThree.find? fun y => !y.ended).or (some (s.newShed f i))) := by
  rw [State.nextShed, State.launching_eq]
  exact List.find?_append

/-- With no other shed under way the new one begins at once (R440). -/
theorem State.launching_nextShed_of_ended (s : State) (f i : Nat) (h : ∀ y ∈ s.pic.sheds, y.ended = true) :
    (s.launching f i).nextShed = some (s.newShed f i) := by
  rw [State.launching_nextShed, List.find?_eq_none.mpr fun y hy => by simp [h y (List.mem_of_mem_drop hy)]]
  rfl

/-- The new shed among those launched, as the next one begins. -/
def State.launched (s : State) (f i : Nat) : Shed := Shed.afterBegin (s.launching f i).nextShed s.trd.cclk (s.newShed f i)

theorem State.launched_eq (s : State) (f i : Nat) : ∃ b, s.launched f i = { s.newShed f i with begun := b } := by
  rcases Shed.afterBegin_eq (s.launching f i).nextShed s.trd.cclk (s.newShed f i) with h | h
  · exact ⟨none, h⟩
  · exact ⟨_, h⟩

/-- The beginning of a new shed that waits for no other, with the start of the looms (R402, R440). -/
theorem State.launched_first (s : State) (f i : Nat) (h : ∀ y ∈ s.pic.sheds, y.ended = true) :
    (s.launched f i).begun = some s.trd.cclk ∧ (s.runsNets = true →
      ((s.launching f i).beginNext s.trd.cclk).sht = s.startLooms.sht ∧ ((s.launching f i).beginNext s.trd.cclk).mem = s.startLooms.mem) := by
  have hnext := s.launching_nextShed_of_ended f i h
  refine ⟨?_, fun hnets => ?_⟩
  · rw [State.launched, hnext, Shed.afterBegin_of_waiting _ rfl, Shed.changeAt_self]
  · obtain ⟨p, hp, hadmit⟩ : ∃ p, (s.launching f i).onShed (s.newShed f i).frame (s.newShed f i).index
        (fun y => { y with begun := some s.trd.cclk }) = s.withPic p ∧ p.admitNow = s.pic.admitNow := by
      rw [State.launching_eq]
      exact ⟨_, rfl, rfl⟩
    rw [State.beginNext_of_waiting _ _ hnext rfl, if_pos (show (s.newShed f i).nets = true from hnets), hp, s.startLooms_withPic p hadmit]
    exact ⟨rfl, rfl⟩

/-- A new shed behind one that has not ended waits (R440). -/
theorem State.launched_behind (s : State) (f i : Nat) (h : ∀ y ∈ s.pic.sheds, y.isAt f i = false) (hy : ∃ y ∈ s.lastThree, y.ended = false) :
    (s.launched f i).begun = none := by
  obtain ⟨y, hmem, hrunning⟩ := hy
  obtain ⟨z, hz⟩ := Option.isSome_iff_exists.mp (List.find?_isSome.mpr ⟨y, hmem, by simp [hrunning]⟩ :
    (s.lastThree.find? fun y => !y.ended).isSome = true)
  have hnext : (s.launching f i).nextShed = some z := by rw [State.launching_nextShed, hz, Option.some_or]
  have hother : (s.newShed f i).isAt z.frame z.index = false := by
    refine Bool.eq_false_iff.mpr fun hat => ?_
    obtain ⟨hframe, hindex⟩ := (Shed.isAt_iff _ _ _).mp hat
    exact nomatch (h z (List.mem_of_mem_drop (List.mem_of_find?_eq_some hz))).symm.trans ((z.isAt_iff f i).mpr ⟨hframe.symm, hindex.symm⟩)
  rw [State.launched, hnext, Shed.afterBegin]
  split
  · rfl
  · rw [Shed.changeAt, if_neg (by simp [hother])]
    rfl

/-- What a launch changes beside the new shed (R439, R440). -/
theorem State.launchShed_spec (s : State) (f i : Nat) :
    let t := s.launchShed f i
    t.pic.sheds.getLast? = some (s.launched f i) ∧ t.pic.sheds.length ≤ 4 ∧ t.pic.last = some (f, i) ∧ t.pic.sel = s.pic.sel ∧
    t.sht = ((s.launching f i).beginNext s.trd.cclk).sht ∧ t.mem = ((s.launching f i).beginNext s.trd.cclk).mem ∧
    t.rd Reg.IMG_T_NET = (if s.runsNets = true ∧ s.rd Reg.IMG_T_NET = 0#32 then BitVec.ofNat 32 (s.trd.time / usTime)
      else s.rd Reg.IMG_T_NET) ∧
    t = { s with regs := t.regs, pic := t.pic, sht := t.sht, mem := t.mem, free := t.free } ∧ ∀ o, o ≠ Reg.IMG_T_NET → t.rd o = s.rd o := by
  intro t
  obtain ⟨u, hu⟩ : ∃ u, u = (s.launching f i).beginNext s.trd.cclk := ⟨_, rfl⟩
  have ht : t = if s.runsNets && s.rd Reg.IMG_T_NET == 0#32 then u.wr Reg.IMG_T_NET (BitVec.ofNat 32 (s.trd.time / usTime)) else u := by
    rw [hu]
    exact s.launchShed_eq f i
  have hrd (o : Nat) : u.rd o = s.rd o := by
    rw [hu, State.rd_congr (State.beginNext_regs _ _), State.launching_eq]
    rfl
  have hsheds : u.pic.sheds = s.lastThree.map (Shed.afterBegin (s.launching f i).nextShed s.trd.cclk) ++ [s.launched f i] := by
    have hall : (s.launching f i).pic.sheds = s.lastThree ++ [s.newShed f i] := by rw [State.launching_eq]; rfl
    rw [hu, State.beginNext_pic, hall, List.map_append]
    rfl
  have hpic : u.pic.last = some (f, i) ∧ u.pic.sel = s.pic.sel := by
    rw [hu, State.beginNext_pic, State.launching_eq]
    exact ⟨rfl, rfl⟩
  have hrest : u = { s with regs := u.regs, pic := u.pic, sht := u.sht, mem := u.mem, free := u.free } := by
    rw [hu, State.beginNext_eq, State.launching_eq]
    rfl
  have hkept : t.pic = u.pic ∧ t.sht = u.sht ∧ t.mem = u.mem ∧ t = { u with regs := t.regs } := by
    rw [ht]
    split <;> exact ⟨rfl, rfl, rfl, rfl⟩
  obtain ⟨hpict, hsht, hmem, hregs⟩ := hkept
  have hlen : t.pic.sheds.length ≤ 4 := by
    rw [hpict, hsheds, List.length_append, List.length_map, List.length_drop, List.length_singleton]
    omega
  refine ⟨by rw [hpict, hsheds, List.getLast?_concat], hlen, by rw [hpict, hpic.1], by rw [hpict, hpic.2], hu ▸ hsht, hu ▸ hmem, ?_,
    by rw [hregs, hrest], fun o ho => ?_⟩
  · by_cases hnet : s.runsNets = true ∧ s.rd Reg.IMG_T_NET = 0#32
    · rw [ht, if_pos (by simpa using hnet), if_pos hnet, State.rd_wr_self]
    · rw [ht, if_neg (by simpa using hnet), if_neg hnet, hrd]
  · rw [ht]
    split
    · rw [State.rd_wr_ne _ _ _ _ ho, hrd]
    · exact hrd o

/-- The state in which a shed is launched: its action CCLK has come, and shed 0 has made its frame's selection (R36, R423). -/
def State.launchReached (s : State) (f i : Nat) : State :=
  let s0 := State.elapse (s.toAction (s.launchStamp f i)) s
  if i = 0 then s0.select f else s0

theorem State.launchReached_timing (s : State) (f i : Nat) : (s.launchReached f i).trd.timing = s.trd.timing := by
  unfold State.launchReached
  extract_lets s0
  split
  · rw [State.select_trd, State.elapse_timing]
  · exact State.elapse_timing _ _

theorem exec_shedLaunch_none (s : State) (h : s.shedNow = none) : exec .shedLaunch s = .next s := by
  change execShedLaunch s = _
  rw [execShedLaunch, h]

theorem exec_shedLaunch_skipped (s : State) {f i : Nat} (h : s.shedNow = some (f, i)) (hs : s.darkFrame f = true ∨ s.pic.last = some (f, i)) :
    exec .shedLaunch s = .next s := by
  change execShedLaunch s = _
  rw [execShedLaunch, h]
  exact if_pos (by simpa using hs)

theorem exec_shedLaunch_due (s : State) {f i : Nat} (h : s.shedNow = some (f, i)) (hd : s.darkFrame f = false) (hl : s.pic.last ≠ some (f, i)) :
    exec .shedLaunch s = .next (if (s.launchReached f i).pic.selected && (s.launchReached f i).pic.sel.frame == f
      then (s.launchReached f i).launchShed f i else State.elapse (s.toAction (s.launchStamp f i)) s) := by
  change execShedLaunch s = _
  rw [execShedLaunch, h]
  exact if_neg (by simp [hd, hl])

/-! The end of a shed. -/

/-- Whether a shed's input of some darned groups darns a record: A, and where the networks read B's planes darned, B (R422; log 146). -/
def State.darnsRecord (s : State) (x : Shed) (darned : List (Nat × Nat)) (y : FrameRec) : Bool :=
  !darned.isEmpty && (decide (some y.key = x.recA) || x.recB.isSome && Config.darnB s.free && decide (some y.key = x.recB))

/-- A record of a key, marked as darned. -/
def FrameRec.markedAt (k : Option (Nat × Nat)) (y : FrameRec) : FrameRec := if some y.key = k then { y with darned := true } else y

theorem FrameRec.markedAt_of_eq {k : Option (Nat × Nat)} {y : FrameRec} (h : some y.key = k) : y.markedAt k = { y with darned := true } :=
  if_pos h

theorem FrameRec.markedAt_of_ne {k : Option (Nat × Nat)} {y : FrameRec} (h : some y.key ≠ k) : y.markedAt k = y := if_neg h

theorem State.noteDarned_eq (s : State) (x : Shed) (darned : List (Nat × Nat)) : s.noteDarned x darned = s.withPic { s.pic with
    fifo := s.pic.fifo.map fun y => if s.darnsRecord x darned y then { y with darned := true } else y } := by
  have hfifo {l : List FrameRec} {mark : FrameRec → FrameRec} (hl : l = s.pic.fifo.map mark)
      (hmark : ∀ y, mark y = if s.darnsRecord x darned y then { y with darned := true } else y) : s.withPic { s.pic with fifo := l } =
      s.withPic { s.pic with fifo := s.pic.fifo.map fun y => if s.darnsRecord x darned y then { y with darned := true } else y } := by
    rw [hl, List.map_congr_left fun y _ => hmark y]
  unfold State.noteDarned
  split
  · rename_i hempty
    exact hfifo (List.map_id _).symm fun y => by simp [State.darnsRecord, hempty]
  · rename_i hsome
    split
    · rename_i hb
      refine hfifo (mark := fun y => (y.markedAt x.recA).markedAt x.recB) (List.map_map (g := FrameRec.markedAt x.recB)) fun y => ?_
      by_cases ha : some y.key = x.recA
      · rw [FrameRec.markedAt_of_eq ha, if_pos (by simp [State.darnsRecord, hsome, ha])]
        unfold FrameRec.markedAt
        split <;> rfl
      · rw [FrameRec.markedAt_of_ne ha]
        by_cases hb' : some y.key = x.recB
        · rw [FrameRec.markedAt_of_eq hb', if_pos (by simp [State.darnsRecord, hsome, hb, hb'])]
        · rw [FrameRec.markedAt_of_ne hb', if_neg (by simp [State.darnsRecord, ha, hb'])]
    · rename_i hb
      refine hfifo (mark := FrameRec.markedAt x.recA) rfl fun y => ?_
      by_cases ha : some y.key = x.recA
      · rw [FrameRec.markedAt_of_eq ha, if_pos (by simp [State.darnsRecord, hsome, ha])]
      · rw [FrameRec.markedAt_of_ne ha, if_neg (by simp [State.darnsRecord, hb, ha])]

theorem State.shedMoved_noteDarned (s : State) (x : Shed) (darned : List (Nat × Nat)) : s.ShedMoved (s.noteDarned x darned) := by
  rw [State.noteDarned_eq]
  exact ⟨rfl, rfl⟩

/-- A shed on which networks ran has ended, with the records it read marked (R422, R441, R444). -/
def State.netEnded (s : State) (x : Shed) (darned : List (Nat × Nat)) : State :=
  (s.nextFree.2.noteDarned x darned).onShed x.frame x.index fun y =>
    { y with ended := true, net := some (s.runNets x darned).1, halo := (s.runNets x darned).2 }

/-- A shed on which none ran has ended with its Tack output (R441). -/
def State.tackEnded (s : State) (x : Shed) : State := s.onShed x.frame x.index fun y => { y with ended := true }

/-- A shed has been stopped at its deadline, and is counted (R441, R442). -/
def State.lateEnded (s : State) (x : Shed) : State :=
  (((s.dropWaits x).onShed x.frame x.index fun y => { y with ended := true, late := true, net := none }).bump Reg.PIC_LATE_SHED_CNT).wrStamp
    Reg.PIC_LATE_LO Reg.PIC_LATE_HI x.deadline

/-- What holds a shed up: it has not begun, its deadline has come, or it lacks weights, a strip or its Tack output (R371, R441, R755). -/
def State.shedStalls (s : State) (x : Shed) : Bool :=
  x.begun.isNone || s.pastDeadline x || (if x.nets then !s.weightsHere || s.stripWaits x else x.tack.isNone)

theorem exec_shedEnd (s : State) {x : Shed} (h : s.nextShed = some x) (darned : List (Nat × Nat)) : exec (.shedEnd darned) s =
    .next (if s.shedStalls x then s else (if x.nets then s.netEnded x darned else s.tackEnded x).beginNext (s.trd.cclk + 1)) := by
  change execShedEnd darned s = _
  rw [execShedEnd, show (s.pic.sheds.find? fun x => !x.ended) = some x from h]
  by_cases hstalls : s.shedStalls x = true
  · rw [if_pos hstalls]
    exact if_pos hstalls
  · rw [if_neg hstalls]
    exact if_neg hstalls

theorem exec_shedDeadline (s : State) {x : Shed} (h : s.nextShed = some x) : exec .shedDeadline s =
    .next (if s.trd.now.atOrAfter x.deadline then
      ((State.elapse (s.toAction x.deadline) s).lateEnded x).beginNext (State.elapse (s.toAction x.deadline) s).trd.cclk else s) := by
  change execShedDeadline s = _
  rw [execShedDeadline, show (s.pic.sheds.find? fun x => !x.ended) = some x from h]
  by_cases hdue : s.trd.now.atOrAfter x.deadline = true
  · rw [if_pos hdue]
    exact if_pos hdue
  · rw [if_neg hdue]
    exact if_neg hdue

/-- No shed is under way. -/
theorem exec_shedEnd_none (s : State) (h : s.nextShed = none) :
    exec .shedDeadline s = .next s ∧ ∀ darned, exec (.shedEnd darned) s = .next s := by
  refine ⟨?_, fun darned => ?_⟩
  · change execShedDeadline s = _
    rw [execShedDeadline, show (s.pic.sheds.find? fun x => !x.ended) = none from h]
  · change execShedEnd darned s = _
    rw [execShedEnd, show (s.pic.sheds.find? fun x => !x.ended) = none from h]

theorem State.shedStalls_iff (s : State) (x : Shed) : s.shedStalls x = true ↔ s.pastDeadline x = true ∨ x.begun = none ∨
    x.nets = true ∧ (s.weightsHere = false ∨ s.stripWaits x = true) ∨ x.nets = false ∧ x.tack = none := by
  unfold State.shedStalls
  cases x.nets <;> simp [or_comm, or_assoc, or_left_comm]

/-- Records that a shed's input darns, and those it leaves (R422). -/
theorem State.netEnded_fifo (s : State) (x : Shed) (darned : List (Nat × Nat)) :
    (∀ y ∈ s.pic.fifo, some y.key ≠ x.recA → some y.key ≠ x.recB → y ∈ (s.netEnded x darned).pic.fifo) ∧
    ∀ y ∈ s.pic.fifo, some y.key = x.recA → (if darned = [] then y else { y with darned := true }) ∈ (s.netEnded x darned).pic.fifo := by
  have hfifo : (s.netEnded x darned).pic.fifo =
      s.pic.fifo.map fun y => if s.nextFree.2.darnsRecord x darned y then { y with darned := true } else y := by
    change (s.nextFree.2.noteDarned x darned).pic.fifo = _
    rw [State.noteDarned_eq]
    rfl
  rw [hfifo]
  refine ⟨fun y hy ha hb => List.mem_map.mpr ⟨y, hy, if_neg ?_⟩, fun y hy ha => List.mem_map.mpr ⟨y, hy, ?_⟩⟩
  · simp [State.darnsRecord, ha, hb]
  · cases darned <;> simp [State.darnsRecord, ha]

theorem State.shedMoved_netEnded (s : State) (x : Shed) (darned : List (Nat × Nat)) : s.ShedMoved (s.netEnded x darned) :=
  (State.ShedMoved.trans (t := s.nextFree.2) ⟨rfl, rfl⟩ (State.shedMoved_noteDarned _ x darned)).onShed _ _ _

theorem State.netEnded_kept (s : State) (x : Shed) (darned : List (Nat × Nat)) :
    (s.netEnded x darned).regs = s.regs ∧ (s.netEnded x darned).slv = s.slv ∧
    (s.netEnded x darned).pic.sheds = s.pic.sheds.map (Shed.changeAt x.frame x.index fun y =>
      { y with ended := true, net := some (s.runNets x darned).1, halo := (s.runNets x darned).2 }) := by
  unfold State.netEnded
  rw [State.noteDarned_eq]
  exact ⟨rfl, rfl, rfl⟩

/-- What a deadline leaves of the registers, and what is waited for no more (R442, R755). -/
theorem State.lateEnded_spec (s : State) (x : Shed) :
    let u := s.lateEnded x
    s.ShedMoved u ∧ u.rd Reg.PIC_LATE_SHED_CNT = counted (s.rd Reg.PIC_LATE_SHED_CNT) ∧
    u.holdsStamp Reg.PIC_LATE_LO Reg.PIC_LATE_HI x.deadline ∧ u.pic.fifo = s.pic.fifo ∧
    u.pic.sheds = s.pic.sheds.map (Shed.changeAt x.frame x.index fun y => { y with ended := true, late := true, net := none }) ∧
    u.slv = (s.dropWaits x).slv ∧ ∀ o, o ∉ [Reg.PIC_LATE_SHED_CNT, Reg.PIC_LATE_LO, Reg.PIC_LATE_HI] → u.rd o = s.rd o := by
  intro u
  obtain ⟨v, hv⟩ : ∃ v, v = (s.dropWaits x).onShed x.frame x.index fun y => { y with ended := true, late := true, net := none } := ⟨_, rfl⟩
  have hu : u = (v.bump Reg.PIC_LATE_SHED_CNT).wrStamp Reg.PIC_LATE_LO Reg.PIC_LATE_HI x.deadline := by rw [hv]; rfl
  have hpic : u.pic = v.pic := by rw [hu, State.wrStamp_pic, State.bump_pic]
  have hrd (o : Nat) : v.rd o = s.rd o := by rw [hv]; rfl
  refine ⟨?_, ?_, ?_, ?_, ?_, ?_, fun o ho => ?_⟩
  · rw [hu, hv]
    exact ((((State.ShedMoved.refl s).dropWaits x).onShed _ _ _).bump _).wrStamp _ _ _
  · rw [hu, State.rd_wrStamp_ne _ _ _ _ _ (by decide) (by decide), State.rd_bump_self, hrd]
  · rw [hu]
    exact State.holdsStamp_wrStamp _ _ _ _ (by decide)
  · rw [hpic, hv]
    rfl
  · rw [hpic, hv]
    rfl
  · have hslv : u.slv = v.slv := by rw [hu, State.wrStamp_slv, State.bump_slv]
    rw [hslv, hv]
    rfl
  · simp only [List.mem_cons, List.not_mem_nil, or_false, not_or] at ho
    obtain ⟨hcnt, hlo, hhi⟩ := ho
    rw [hu, State.rd_wrStamp_ne _ _ _ _ _ hlo hhi, State.rd_bump_ne _ _ _ hcnt, hrd]

theorem State.stripWaits_of_dropped {s t : State} {x : Shed} (h : t.slv = (s.dropWaits x).slv) : t.stripWaits x = false := by
  rw [State.stripWaits, h, List.any_eq_false]
  intro m hm
  have hother := (List.mem_filter.mp hm).2
  rw [Bool.not_eq_true'] at hother
  rw [hother]
  decide

/-! The Tack output and the box list. -/

theorem exec_tackShedComplete_none (s : State) (h : (s.pic.sheds.find? fun x => x.tack.isNone && !s.pastDeadline x) = none) :
    exec .tackShedComplete s = .next s := by
  change execTackShedComplete s = _
  rw [execTackShedComplete, h]

/-- A shed has its Tack output; a darned tap darns its record (R463, R466). -/
def State.tackDone (s : State) (x : Shed) : State :=
  let s1 := s.onShed x.frame x.index fun y => { y with tack := some (s.tackLines x) }
  if (s.tackLines x).any fun l => l.any fun p => p.darn then s1.onFrame x.recA fun f => { f with darned := true } else s1

theorem exec_tackShedComplete (s : State) {x : Shed} (h : (s.pic.sheds.find? fun x => x.tack.isNone && !s.pastDeadline x) = some x) :
    exec .tackShedComplete s = .next (s.tackDone x) := by
  change execTackShedComplete s = _
  rw [execTackShedComplete, h]
  rfl

theorem State.tackDone_spec (s : State) (x : Shed) :
    let t := s.tackDone x
    t.pic.sheds = (s.onShed x.frame x.index fun y => { y with tack := some (s.tackLines x) }).pic.sheds ∧
    t.pic.fifo = (if (s.tackLines x).any fun l => l.any fun p => p.darn
      then s.pic.fifo.map fun y => if some y.key = x.recA then { y with darned := true } else y else s.pic.fifo) ∧
    t = { s with pic := t.pic } ∧ t.pic = { s.pic with sheds := t.pic.sheds, fifo := t.pic.fifo } := by
  intro t
  by_cases hdarn : ((s.tackLines x).any fun l => l.any fun p => p.darn) = true
  · rw [show t = _ from if_pos hdarn, if_pos hdarn]
    exact ⟨rfl, rfl, rfl, rfl⟩
  · rw [show t = _ from if_neg hdarn, if_neg hdarn]
    exact ⟨rfl, rfl, rfl, rfl⟩

theorem exec_boxListBuild_none (s : State) (h : s.pic.detect = none) : exec .boxListBuild s = .next s := by
  change execBoxListBuild s = _
  rw [execBoxListBuild, h]

theorem exec_boxListBuild_waits (s : State) {f : Nat} {k : Nat × Nat} (h : s.pic.detect = some (f, k))
    (hw : ∀ x ∈ s.pic.sheds, x.isAt f (s.shedCount - 1) = true → x.ended = false) : exec .boxListBuild s = .next s := by
  change execBoxListBuild s = _
  rw [execBoxListBuild, h]
  refine if_neg fun hany => ?_
  obtain ⟨x, hx, hat⟩ := List.any_eq_true.mp hany
  obtain ⟨hlast, hended⟩ := Bool.and_eq_true_iff.mp hat
  exact nomatch (hw x hx hlast).symm.trans hended

/-- The box list of a record, whose number and bytes are free (R434; log 61). -/
def State.builtBoxes (s : State) (k : Nat × Nat) : BoxList :=
  { rec_ := k
    boxes := (List.range (Config.boxCount s.free % (s.fld Reg.PIC_RGN_CFG Reg.PIC_RGN_CFG_MAX_BOXES + 1))).map fun i =>
      leBytes 16 (Config.boxBytes s.free i) }

theorem exec_boxListBuild_done (s : State) {f : Nat} {k : Nat × Nat} (h : s.pic.detect = some (f, k))
    (hd : ∃ x ∈ s.pic.sheds, x.isAt f (s.shedCount - 1) = true ∧ x.ended = true) :
    exec .boxListBuild s = .next (s.nextFree.2.onPic fun p => { p with detect := none, boxNext := some (s.builtBoxes k) }) := by
  change execBoxListBuild s = _
  rw [execBoxListBuild, h]
  obtain ⟨x, hx, hlast, hended⟩ := hd
  exact if_pos (List.any_eq_true.mpr ⟨x, hx, Bool.and_eq_true_iff.mpr ⟨hlast, hended⟩⟩)

theorem State.builtBoxes_spec (s : State) (k : Nat × Nat) : (∀ x ∈ (s.builtBoxes k).boxes, x.length = 16) ∧
    (s.builtBoxes k).boxes.length ≤ s.fld Reg.PIC_RGN_CFG Reg.PIC_RGN_CFG_MAX_BOXES := by
  refine ⟨fun x hx => ?_, ?_⟩
  · obtain ⟨i, -, rfl⟩ := List.mem_map.mp hx
    exact length_leBytes 16 _
  · rw [State.builtBoxes, List.length_map, List.length_range]
    exact Nat.lt_succ_iff.mp (Nat.mod_lt _ (Nat.succ_pos _))

/-! The obligation. -/

/-- What the state of a SHED_END or SHED_DEADLINE takes over when the next shed begins. -/
theorem State.ended_begins {s u : State} (h : s.ShedMoved u) (c : Nat) : s.ShedMoved (u.beginNext c) ∧ (u.beginNext c).regs = u.regs ∧
    (u.beginNext c).slv = u.slv ∧ (u.beginNext c).pic.fifo = u.pic.fifo :=
  ⟨h.beginNext c, u.beginNext_regs c, u.beginNext_slv c, by rw [State.beginNext_pic]⟩

/-- Settles O43: the launch by the sheds before it, the end of a shed and its deadline by the look-up of sheds and the next one's beginning, and the
lines pixel by pixel. -/
theorem shedsRunAndEnd : Obligations.ShedsRunAndEnd := by
  intro s
  refine ⟨exec_shedLaunch_none s, fun f i h => ?_, exec_shedEnd_none s, fun hkeys x hx => ?_, exec_tackShedComplete_none s, fun hkeys x hx => ?_,
    exec_boxListBuild_none s, fun f k h => ⟨exec_boxListBuild_waits s h, fun hd => ?_⟩⟩
  · intro s0 s1
    have hs1 : s1 = s.launchReached f i := rfl
    refine ⟨exec_shedLaunch_skipped s h, fun hd hl => ⟨fun hsel => ?_, fun hsel => ?_⟩⟩
    · rw [exec_shedLaunch_due s h hd hl, ← hs1, hsel]
      rfl
    · obtain ⟨hlast, hlen, hat, hkept, hsht, hmem, hnet, hrest, hrd⟩ := s1.launchShed_spec f i
      obtain ⟨b, hb⟩ := s1.launched_eq f i
      have htiming : s1.trd.timing = s.trd.timing := s.launchReached_timing f i
      refine ⟨s1.launchShed f i, s1.launched f i, by rw [exec_shedLaunch_due s h hd hl, ← hs1, if_pos hsel], hlast, hlen, ?_⟩
      have hfirst := s1.launched_first f i
      have hbehind := s1.launched_behind f i
      rw [hb] at hfirst hbehind ⊢
      refine ⟨rfl, rfl, State.lineStamp_congr htiming f _, State.lineStamp_congr htiming f _, rfl, rfl, rfl, rfl, rfl, rfl, rfl, rfl, hat, hkept,
        fun hended => ?_, hbehind, hnet, hrest, hrd⟩
      obtain ⟨hbegun, hstart⟩ := hfirst hended
      exact ⟨hbegun, fun hnets => ⟨hsht.trans (hstart hnets).1, hmem.trans (hstart hnets).2⟩⟩
  · intro next rest quiet
    obtain ⟨hmem, -⟩ := State.nextShed_mem hx
    refine ⟨fun darned => ⟨fun hstalls => ?_, fun hp hb hn hw hs => ?_, fun hp hb hn ht => ?_⟩, s.runNets_spec x, fun hdue => ?_, fun hdue => ?_⟩
    · rw [exec_shedEnd s hx, if_pos ((s.shedStalls_iff x).mpr hstalls)]
    · have hruns : s.shedStalls x = false := Bool.eq_false_iff.mpr fun hc => by
        simpa [hp, hb, hn, hw, hs] using (s.shedStalls_iff x).mp hc
      obtain ⟨hregs, hslv, hsheds⟩ := s.netEnded_kept x darned
      obtain ⟨hmoved, hregs', hslv', hfifo'⟩ := State.ended_begins (s.shedMoved_netEnded x darned) (s.trd.cclk + 1)
      obtain ⟨hstays, hdarns⟩ := s.netEnded_fifo x darned
      obtain ⟨hfound, hnext⟩ := State.endShed_spec (c := s.trd.cclk + 1) hsheds hkeys hmem (fun _ => rfl) fun _ => rfl
      refine ⟨_, by rw [exec_shedEnd s hx, hruns, hn]; rfl, hfound, hnext, hmoved, ⟨hregs'.trans hregs, hslv'.trans hslv, ?_⟩, ?_⟩
      · rw [hfifo']
        exact hstays
      · rw [hfifo']
        exact hdarns
    · have hruns : s.shedStalls x = false := Bool.eq_false_iff.mpr fun hc => by
        simpa [hp, hb, hn, ht] using (s.shedStalls_iff x).mp hc
      obtain ⟨hmoved, hregs', hslv', hfifo'⟩ := State.ended_begins ((State.ShedMoved.refl s).onShed x.frame x.index _) (s.trd.cclk + 1)
      obtain ⟨hfound, hnext⟩ := State.endShed_spec (u := s.tackEnded x) (c := s.trd.cclk + 1) rfl hkeys hmem (fun _ => rfl) fun _ => rfl
      refine ⟨_, by rw [exec_shedEnd s hx, hruns, hn]; rfl, hfound, hnext, hmoved, ⟨hregs', hslv', fun y hy _ _ => ?_⟩, hfifo'⟩
      rw [State.tackEnded, hfifo']
      exact hy
    · intro s0
      obtain ⟨hmoved, hcnt, hstamp, hfifo, hsheds, hslv, hrd⟩ := s0.lateEnded_spec x
      obtain ⟨hmoved', hregs', hslv', hfifo'⟩ := State.ended_begins hmoved s0.trd.cclk
      have hrd' (o : Nat) := State.rd_congr hregs' o
      rw [show s0.pic = s.pic from s.elapse_pic _] at hsheds
      obtain ⟨hfound, hnext⟩ := State.endShed_spec (c := s0.trd.cclk) hsheds hkeys hmem (fun _ => rfl) fun _ => rfl
      have hwaits : ((s0.lateEnded x).beginNext s0.trd.cclk).slv = (s0.dropWaits x).slv := hslv'.trans hslv
      refine ⟨_, by rw [exec_shedDeadline s hx, if_pos hdue], hfound, hnext, (hrd' _).trans hcnt,
        State.holdsStamp_congr (hrd' _) (hrd' _) hstamp, hmoved', hfifo'.trans hfifo, ?_, State.stripWaits_of_dropped hwaits,
        fun o ho => (hrd' o).trans (hrd o ho)⟩
      rw [hwaits]
      rfl
    · rw [exec_shedDeadline s hx, hdue]
      rfl
  · obtain ⟨hsheds, hfifo, hrest, hpic⟩ := s.tackDone_spec x
    obtain ⟨hlen, hrows⟩ := s.tackLines_spec x
    have hfound := State.shed?_onShed (fun y => { y with tack := some (s.tackLines x) }) hkeys (List.mem_of_find?_eq_some hx) fun _ => rfl
    exact ⟨_, exec_tackShedComplete s hx, (State.shed?_congr hsheds _ _).trans hfound, hlen, hrows,
      hfifo, hrest, hpic⟩
  · obtain ⟨hbytes, hmax⟩ := s.builtBoxes_spec k
    exact ⟨_, s.builtBoxes k, exec_boxListBuild_done s h hd, rfl, rfl, hbytes, hmax, rfl⟩

end Sys2Proof.Machine
end

section
/-! PROOF. The convolutions (R314, R475 to R482, R485 to R488, R498, R526). -/

namespace Sys2Proof.Machine

/-! Sums, and sums modulo 2^32. -/

theorem sum_flatMap_eq {α : Type} (l : List α) (f : α → List Int) : (l.flatMap f).sum = (l.map fun a => (f a).sum).sum := by
  rw [List.flatMap, List.sum_flatten, List.map_map]
  rfl

theorem wrap32_emod (a : Int) : wrap32 a % 2 ^ 32 = a % 2 ^ 32 := by
  unfold wrap32 signedOf
  split <;> omega

/-- What the accumulator wraps does not show once more is added and wrapped (R234). -/
theorem wrap32_wrap32_add (a b : Int) : wrap32 (wrap32 a + b) = wrap32 (a + b) := by
  rw [wrap32, Int.add_emod, wrap32_emod, ← Int.add_emod, ← wrap32]

theorem intDot_zero (l : List (Int × Int)) : intDot l 0 = wrap32 (l.map fun x => x.1 * x.2).sum := by
  rw [intDot, foldl_addProducts, add_zero]

/-! The kernel of one sweep. -/

/-- The taps of a kernel in the order of its rows. -/
def kernelTaps (kh kw : Nat) : List (Nat × Nat) := (List.range kh).flatMap fun y => (List.range kw).map fun x => (y, x)

theorem length_kernelTaps (kh kw : Nat) : (kernelTaps kh kw).length = kh * kw := by
  simp [kernelTaps, List.length_flatMap]

theorem sum_map_kernelTaps (kh kw : Nat) (f : Nat × Nat → Int) : ((kernelTaps kh kw).map f).sum =
    ((List.range kh).map fun y => ((List.range kw).map fun x => f (y, x)).sum).sum := by
  simp [kernelTaps, List.map_flatMap, sum_flatMap_eq, Function.comp_def]

theorem ceilDiv_five {n : Nat} (h : 1 ≤ n) (h' : n ≤ 5) : ceilDiv n 5 = 1 := by
  unfold ceilDiv
  omega

/-- A kernel of at most five rows and columns is one block (R483). -/
theorem kernelBlocks_range {kh kw : Nat} (h : 1 ≤ kh) (h' : kh ≤ 5) (w : 1 ≤ kw) (w' : kw ≤ 5) :
    kernelBlocks (List.range kh) (List.range kw) = [kernelTaps kh kw] := by
  simp [kernelBlocks, kernelTaps, ceilDiv_five h h', ceilDiv_five w w', List.take_of_length_le, h', w']

/-- A dense convolution of one kernel block whose channels need no split (R479 to R485). -/
structure ConvProblem.OneSweep (c : ConvProblem) : Prop where
  conv   : c.trans = false
  kh_pos : 1 ≤ c.args.kh
  kh_le  : c.args.kh ≤ 5
  kw_pos : 1 ≤ c.args.kw
  kw_le  : c.args.kw ≤ 5
  groups : c.args.groups = 1
  dense  : 4 ≤ c.x.dim2
  fits   : c.x.dim2 * (c.args.kh * c.args.kw) ≤ 1024

/-- The sweep that takes every tap and every input channel. -/
def ConvProblem.wholeSweep (c : ConvProblem) : Sweep :=
  { group := 0, taps := kernelTaps c.args.kh c.args.kw, first := 0, count := c.x.dim2, diag := false }

theorem ConvProblem.rowEntries_wholeSweep (c : ConvProblem) : c.wholeSweep.rowEntries = c.x.dim2 * (c.args.kh * c.args.kw) := by
  rw [← length_kernelTaps c.args.kh]
  rfl

theorem ConvProblem.source_conv {c : ConvProblem} (h : c.trans = false) (x y ky kx : Nat) :
    c.source x y ky kx = some ((x : Int) * c.args.sw - c.args.padL + kx * c.args.dw, (y : Int) * c.args.sh - c.args.padT + ky * c.args.dh) := by
  rw [ConvProblem.source, h]
  rfl

section

variable {c : ConvProblem} (h : c.OneSweep)
include h

theorem ConvProblem.OneSweep.gin_eq : c.gin = c.x.dim2 := by rw [ConvProblem.gin, h.groups, Nat.div_one]

theorem ConvProblem.OneSweep.gout_eq : c.gout = c.z.dim2 := by rw [ConvProblem.gout, h.groups, Nat.div_one]

theorem ConvProblem.OneSweep.sweeps_eq : c.sweeps = [[c.wholeSweep]] := by
  have hdense : ¬(c.x.dim2 = 1 ∨ c.x.dim2 = 2) := by have := h.dense; omega
  have hsplit : channelSplits c.x.dim2 (kernelTaps c.args.kh c.args.kw).length = [(0, c.x.dim2)] := by
    rw [length_kernelTaps, channelSplits, if_pos (.inl h.fits)]
  rw [ConvProblem.sweeps, ConvArgs.sweeps, h.conv, h.gin_eq, h.groups, sweepsOf,
    kernelBlocks_range h.kh_pos h.kh_le h.kw_pos h.kw_le]
  simp [hdense, hsplit, ConvProblem.wholeSweep]

theorem ConvProblem.OneSweep.sweepsAt_eq (x y : Nat) : c.sweepsAt x y = [c.wholeSweep] := by
  rw [ConvProblem.sweepsAt, h.conv, h.sweeps_eq]
  rfl

/-- The expansion and the run of the one sweep (R480, R481, R487). -/
theorem ConvProblem.OneSweep.timed_eq {p : Nat × Nat} (hp : convPair c.x.elem c.w.elem = some p) (rows : Nat × Nat) :
    c.timed rows =
      let m := (rows.2 - rows.1) * c.z.dim0
      let k := c.x.dim2 * (c.args.kh * c.args.kw)
      [(ceilDiv (4 * ceilDiv m 4 * (ceilDiv (c.x.elem.rowBytes k) 32 * 32)) 128,
        ceilDiv (ceilDiv c.z.dim2 4 * ceilDiv (ceilDiv k p.1) 16) 4 * max (ceilDiv m 4) 4 * p.2)] := by
  have hpos : c.positions rows 0 = (rows.2 - rows.1) * c.z.dim0 := by
    rw [ConvProblem.positions, h.conv]
    rfl
  have hexpand (e : Elem) (m : Nat) : c.wholeSweep.expand e m =
      ceilDiv (4 * ceilDiv m 4 * (ceilDiv (e.rowBytes (c.x.dim2 * (c.args.kh * c.args.kw))) 32 * 32)) 128 := by
    rw [Sweep.expand, Sweep.rb, c.rowEntries_wholeSweep, if_neg (by exact Bool.false_ne_true), Nat.mul_one]
  have hrun (gout m : Nat) : c.wholeSweep.run p gout m =
      ceilDiv (ceilDiv gout 4 * ceilDiv (ceilDiv (c.x.dim2 * (c.args.kh * c.args.kw)) p.1) 16) 4 * max (ceilDiv m 4) 4 * p.2 := by
    rw [← c.rowEntries_wholeSweep]
    rfl
  simp [ConvProblem.timed, h.sweeps_eq, h.gout_eq, hp, hpos, hexpand, hrun]

/-- A rank takes its one sweep's expansion, its run and 5 CCLK (R488). -/
theorem ConvProblem.OneSweep.cycles_eq (hx : c.x.layout = 0) {p : Nat × Nat} (hp : convPair c.x.elem c.w.elem = some p) (r : Nat) :
    let rows := rankRows c.z.dim1 c.looms r
    let m := (rows.2 - rows.1) * c.z.dim0
    let k := c.x.dim2 * (c.args.kh * c.args.kw)
    rows.1 < rows.2 → c.cycles r = ceilDiv (4 * ceilDiv m 4 * (ceilDiv (c.x.elem.rowBytes k) 32 * 32)) 128 +
      ceilDiv (ceilDiv c.z.dim2 4 * ceilDiv (ceilDiv k p.1) 16) 4 * max (ceilDiv m 4) 4 * p.2 + 5 := by
  intro rows m k hrows
  rw [ConvProblem.cycles, if_neg (Nat.not_le.mpr hrows), h.timed_eq hp]
  simp [hx, sweepSum, rows, m, k]

/-! The integer output. -/

/-- The products of an output's one sweep: each input channel's taps in order (R475, R479). -/
theorem ConvProblem.OneSweep.sweepEntries_eq (s : State) (d : Desc) (x y : Nat) {co : Nat} (hco : co < c.z.dim2) :
    s.sweepEntries d c c.wholeSweep x y co = (List.range c.x.dim2).flatMap fun ch => (kernelTaps c.args.kh c.args.kw).map fun t =>
      let i := s.convInput d c (c.source x y t.1 t.2) ch
      let v := s.elemIn d c.w co ((ch * c.args.kh + t.1) * c.args.kw + t.2) 0
      (i.1, v.1, i.2 || v.2) := by
  have hgroup : co / max 1 c.gout = 0 := Nat.div_eq_of_lt (by rw [h.gout_eq]; omega)
  simp [State.sweepEntries, ConvProblem.wholeSweep, hgroup]

/-- The sum of an output's products, channel by channel, row by row and column by column of the kernel (R475). -/
theorem ConvProblem.OneSweep.sum_products (s : State) (d : Desc) (x y : Nat) {co : Nat} (hco : co < c.z.dim2) :
    ((s.sweepEntries d c c.wholeSweep x y co).map fun e => c.x.elem.intOf e.1 * c.w.elem.intOf e.2.1).sum =
      ((List.range c.x.dim2).map fun ch => ((List.range c.args.kh).map fun ky => ((List.range c.args.kw).map fun kx =>
        c.x.elem.intOf (s.convInput d c (c.source x y ky kx) ch).1 *
          c.w.elem.intOf (s.elemIn d c.w co ((ch * c.args.kh + ky) * c.args.kw + kx) 0).1).sum).sum).sum := by
  rw [h.sweepEntries_eq s d x y hco, List.map_flatMap, sum_flatMap_eq]
  simp only [List.map_map, sum_map_kernelTaps, Function.comp_apply]

/-- An integer output of the one sweep is its products and its bias, modulo 2^32, after ACT, SHIFT and narrowing (R475, R478, R482). -/
theorem ConvProblem.OneSweep.convElem_int (hfloat : c.x.elem.float = none) (huint : c.x.elem ≠ .uint16) (s : State) (d : Desc)
    (x y co : Nat) :
    let v := wrap32 (((s.sweepEntries d c c.wholeSweep x y co).map fun e => c.x.elem.intOf e.1 * c.w.elem.intOf e.2.1).sum +
      (if c.bias.base = 0 then 0 else Elem.int32.intOf (s.elemIn d c.bias co 0 0).1))
    s.convElem d c x y co = c.z.elem.narrow d.profile.sat ((if c.args.act = 1 then max 0 v else v) / 2 ^ c.args.shift) := by
  have hint : ¬(c.x.elem.float.isSome || c.x.elem == .uint16) = true := by simp [hfloat, huint]
  have hacc : [s.sweepEntries d c c.wholeSweep x y co].foldl
      (fun acc l => intDot (l.map fun e => (c.x.elem.intOf e.1, c.w.elem.intOf e.2.1)) acc) 0 =
      wrap32 ((s.sweepEntries d c c.wholeSweep x y co).map fun e => c.x.elem.intOf e.1 * c.w.elem.intOf e.2.1).sum := by
    rw [List.foldl_cons, List.foldl_nil, intDot_zero, List.map_map]
    rfl
  have hbias : (if c.bias.base = 0 then 0 else Elem.int32.intOf (if c.bias.base = 0 then 0 else (s.elemIn d c.bias co 0 0).1)) =
      if c.bias.base = 0 then 0 else Elem.int32.intOf (s.elemIn d c.bias co 0 0).1 := by
    split <;> rfl
  rw [State.convElem]
  simp only [if_neg hint, h.sweepsAt_eq, List.map_cons, List.map_nil, hacc, hbias, wrap32_wrap32_add]

end

/-! The padding. -/

theorem State.convInput_inside (s : State) (d : Desc) (c : ConvProblem) {x y : Int} (h : 0 ≤ x ∧ x < c.x.dim0 ∧ 0 ≤ y ∧ y < c.x.dim1) (ch : Nat) :
    s.convInput d c (some (x, y)) ch = s.elemIn d c.x x.toNat y.toNat ch := by
  simp [State.convInput, h]

theorem State.convInput_outside (s : State) (d : Desc) (c : ConvProblem) {x y : Int} (h : ¬(0 ≤ x ∧ x < c.x.dim0 ∧ 0 ≤ y ∧ y < c.x.dim1))
    (hnear : c.args.near = false) (ch : Nat) : s.convInput d c (some (x, y)) ch = (0, false) := by
  simp [State.convInput, h, hnear]

/-! The obligation. -/

/-- CONV and CONV_T run the operator of their problem. -/
theorem exec_convolution {s₀ s : State} {g : Fin 1024} {q : Nat} {tr : Bool} {d : Desc}
    (h : s₀.opReady g q (if tr then 0x0201 else 0x0200) = some (d, s)) :
    let refs := s.opRefs d 4
    let c : ConvProblem := ⟨d.convArgs, tr, refAt refs 0, refAt refs 1, refAt refs 2, refAt refs 3, d.work.length⟩
    exec (if tr then .convT g q else .conv g q) s₀ = .next (s.runOperator d 128 (c.legal d.l1q)
      (c.x.runsIn 0 ++ c.w.runs 1 ++ (if c.bias.base = 0 then [] else c.bias.runs 2))
      (c.z.outRunsIn fun i j k => (s.convElem d c i j k, s.convDarn d c i j k)) c.cycles) := by
  cases tr
  · have hexec : exec (.conv g q) s₀ = .next (s₀.convolve g q 0x0200 false) := rfl
    rwa [State.convolve, show s₀.opReady g q 0x0200 = some (d, s) from h] at hexec
  · have hexec : exec (.convT g q) s₀ = .next (s₀.convolve g q 0x0201 true) := rfl
    rwa [State.convolve, show s₀.opReady g q 0x0201 = some (d, s) from h] at hexec

/-- Settles O44: both rows run their operator; a dense kernel of one block is one sweep, whose CCLK and whose integer sum follow. -/
theorem convolutionsRun : Obligations.ConvolutionsRun := by
  intro s₀ g q tr d s hready refs c i inputs outs
  obtain ⟨hdesc, hcoll⟩ := State.opReady_some hready
  have hexec := exec_convolution hready
  refine ⟨fun hlegal hops => State.runs_of_exec hexec hdesc hlegal hops,
    fun hill hargs => ⟨_, hexec, s.runOperator_illegal d 128 _ inputs outs _ hcoll hill hargs⟩, fun r => rfl,
    fun htr h1 h2 h3 h4 h5 h6 h7 => ?_, fun x y ch => ⟨fun hin => s.convInput_inside d c hin ch, fun hout hnear => ?_⟩⟩
  · have hone : c.OneSweep := ⟨htr, h1, h2, h3, h4, h5, h6, h7⟩
    refine ⟨fun hlayout p hp r => hone.cycles_eq hlayout hp r, fun hfloat huint x y co hco => ?_⟩
    have helem := hone.convElem_int hfloat huint s d x y co
    simp only [hone.sum_products s d x y hco, ConvProblem.source_conv hone.conv] at helem
    exact helem
  · rw [s.convInput_outside d c hout hnear]

end Sys2Proof.Machine
end

section
/-! SUPPORT. The free values that a write of memory reads: one for each line it takes back from an E or M holder, and none else (R309, Table 6.4). -/

namespace Sys2Proof.Machine

/-! What reads none. -/

@[simp] theorem State.onLine_free (s : State) (pa : Nat) (f : SLine → SLine) : (s.onLine pa f).free = s.free := by
  unfold State.onLine
  split
  · split <;> rfl
  · rfl

@[simp] theorem State.touch_free (s : State) (pa : Nat) : (s.touch pa).free = s.free := State.onLine_free _ pa _

@[simp] theorem State.dropOwn_free (s : State) (req pa : Nat) : (s.dropOwn req pa).free = s.free := rfl

@[simp] theorem State.enqueueReq_free (s : State) (q : DramReq) : (s.enqueueReq q).free = s.free := rfl

@[simp] theorem State.dramStore_free (s : State) (pa : Nat) (d : List Byte) : (s.dramStore pa d).free = s.free := by
  induction d generalizing s pa with
  | nil => rfl
  | cons b d ih => exact ih _ _

@[simp] theorem State.enqueueData_free (s : State) (kind : DramKind) (pa : Nat) (cls : MemClass) (req : Nat) (d : List Byte) (p : Bool)
    (a : Option Nat) : (s.enqueueData kind pa cls req d p a).free = s.free := by
  unfold State.enqueueData
  extract_lets c base
  split
  · rfl
  · split <;> rfl

@[simp] theorem State.zeroOthers_free (s : State) (l : SLine) : (s.zeroOthers l).free = s.free :=
  List.foldlRecOn _ _ (motive := fun t : State => t.free = s.free) rfl fun _ h _ _ => (State.enqueueData_free ..).trans h

@[simp] theorem State.writeBack_free (s : State) (l : SLine) : (s.writeBack l).free = s.free := by
  unfold State.writeBack
  extract_lets s1 g q
  split
  · exact State.enqueueData_free ..
  · split
    · rfl
    · exact (State.bump_free ..).trans (State.zeroOthers_free ..)

@[simp] theorem State.evictWay_free (s : State) (pa way : Nat) (r : Option (List Byte)) : (s.evictWay pa way r).free = s.free := by
  unfold State.evictWay
  split
  · rfl
  · extract_lets l1 s1
    split
    · exact State.writeBack_free ..
    · rfl

@[simp] theorem State.allocate_free (s : State) (l : SLine) (ws : List Nat) (r : Option (List Byte)) : (s.allocate l ws r).free = s.free := by
  unfold State.allocate
  split
  · rfl
  · exact State.evictWay_free ..

/-! What reads one. -/

/-- Whether an E holder has written its line, and what it has written, is a free value (log 139). -/
theorem State.takeBack_free_of_excl {s : State} {pa b : Nat} {bs : List Nat} {l : SLine} (hl : s.line? pa = some l) (hdir : l.dir = .excl)
    (hheld : l.holders = b :: bs) : (s.takeBack pa).free = s.free + 1 := by
  simp only [State.takeBack, hl, hdir, hheld]
  split
  · exact State.onLine_free ..
  · rfl

theorem State.free_le_takeBack (s : State) (pa : Nat) : s.free ≤ (s.takeBack pa).free := by
  have hnext : s.free ≤ s.nextFree.2.free := Nat.le_succ _
  unfold State.takeBack
  split
  · split
    · split
      · exact hnext.trans (State.onLine_free ..).ge
      · exact hnext
    · split
      · exact hnext.trans (State.onLine_free ..).ge
      · exact hnext
    · exact le_rfl
  · exact le_rfl

theorem State.free_le_allocateNow (s : State) (l : SLine) (cls : MemClass) : s.free ≤ (s.allocateNow l cls).free := by
  unfold State.allocateNow
  extract_lets ws
  split
  · exact (s.free_le_takeBack _).trans (State.allocate_free ..).ge
  · exact (State.allocate_free ..).ge

/-! Writes. -/

theorem State.free_le_memWriteIn (s : State) (pa : Nat) (d : List Byte) (cls : MemClass) (req : Nat) :
    s.free ≤ (s.memWriteIn pa d cls req).free := by
  unfold State.memWriteIn
  extract_lets recalled own whole stored
  have hrecalled : s.free ≤ recalled.free := by
    unfold recalled
    split
    · exact s.free_le_takeBack pa
    · exact le_rfl
  have hstored : stored.free = s.free := State.dramStore_free own pa d
  split
  · exact le_rfl
  · split
    · split
      · simpa using hrecalled
      · simp
    · split
      · split
        · exact hstored.ge
        · exact hstored.ge
      · exact own.free_le_allocateNow _ _

/-- A write to part of a line that a loom's L1 holds in E takes the line back. -/
theorem State.free_lt_memWriteIn {s : State} {pa req b : Nat} {bs : List Nat} {l : SLine} {d : List Byte} {cls : MemClass}
    (hpa : pa < s.dramTop) (hcoh : s.cohAccess req pa cls = true) (hl : s.line? pa = some l) (hdir : l.dir = .excl)
    (hheld : l.holders = b :: bs) (hpart : d.length < 128) : s.free < (s.memWriteIn pa d cls req).free := by
  have htaken : s.free < (s.takeBack pa).free := by rw [State.takeBack_free_of_excl hl hdir hheld]; exact Nat.lt_succ_self _
  simpa [State.memWriteIn, Nat.not_le.mpr hpa, hl, hcoh, hpart] using htaken

theorem State.free_le_memWriteFuel (n : Nat) (s : State) (pa : Nat) (d : List Byte) (cls : MemClass) (req : Nat) :
    s.free ≤ (State.memWriteFuel n s pa d cls req).free := by
  induction n generalizing s pa d with
  | zero => exact le_rfl
  | succ n ih =>
    unfold State.memWriteFuel
    split
    · exact le_rfl
    · exact (s.free_le_memWriteIn _ _ _ _).trans (ih _ _ _)

theorem State.free_le_memWrite (s : State) (pa : Nat) (d : List Byte) (cls : MemClass) (req : Nat) : s.free ≤ (s.memWrite pa d cls req).free :=
  State.free_le_memWriteFuel _ s pa d cls req

/-- A byte is written to part of its line. -/
theorem State.free_lt_memWrite_byte {s : State} {pa req b : Nat} {bs : List Nat} {l : SLine} {x : Byte} {cls : MemClass}
    (hpa : pa < s.dramTop) (hcoh : s.cohAccess req pa cls = true) (hl : s.line? pa = some l) (hdir : l.dir = .excl)
    (hheld : l.holders = b :: bs) : s.free < (s.memWrite pa [x] cls req).free := by
  have hpart : ([x].take (128 - pa % 128)).length < 128 := (List.length_take_le' _ _).trans_lt (by rw [List.length_singleton]; decide)
  rw [State.memWrite, State.memWriteFuel, if_neg (by simp)]
  exact (State.free_lt_memWriteIn hpa hcoh hl hdir hheld hpart).trans_le (State.free_le_memWriteFuel ..)

end Sys2Proof.Machine
end

section
/-! PROOF. O46: the end of a stop takes back a record's line that a loom still holds, which reads a free value (R309, R591, Table 6.4). -/

namespace Sys2Proof.Machine

/-! The tables' clearing and the free values. -/

theorem State.free_le_foldl {α : Type} (f : State → α → State) (hf : ∀ t a, t.free ≤ (f t a).free) (l : List α) (s : State) :
    s.free ≤ (l.foldl f s).free :=
  List.foldlRecOn l f (motive := fun t => s.free ≤ t.free) le_rfl fun t h a _ => h.trans (hf t a)

/-- The clearing of the tables takes back the first record's line where a loom's L1 holds it in E. -/
theorem State.free_lt_clearTables {s : State} {b : Nat} {bs : List Nat} {l : SLine} (stop : Bool) (hpa : s.seqAddr 0 < s.dramTop)
    (hcoh : s.cohAccess kvWalker (s.seqAddr 0) .bulk = true) (hl : s.line? (s.seqAddr 0) = some l) (hdir : l.dir = .excl)
    (hheld : l.holders = b :: bs) : s.free < (s.clearTables stop).free := by
  rw [State.clearTables, List.range_succ_eq_map, List.foldl_cons]
  refine (State.free_lt_memWrite_byte hpa hcoh hl hdir hheld).trans_le
    ((State.free_le_foldl _ (fun t h => t.free_le_memWrite _ _ _ _) _ _).trans (State.free_le_foldl _ (fun t e => ?_) _ _))
  extract_lets t1
  have hstate : t.free ≤ t1.free := t.free_le_memWrite _ _ _ _
  split
  · exact hstate
  · exact hstate.trans (t1.free_le_memWrite _ _ _ _)

theorem State.foldl_setFld_free (s : State) (l : List Nat) (o : Nat → Nat) (f : Field) (x : State → Nat → Nat) :
    (l.foldl (fun t n => t.setFld (o n) f (x t n)) s).free = s.free :=
  List.foldlRecOn l _ (motive := fun t : State => t.free = s.free) rfl fun t h n _ => (t.setFld_free (o n) f (x t n)).trans h

/-! The refutation. -/

/-- The engine's stop has only its invalidation left; loom 0 holds the line of record 0, which lies in a coherent window, in E. -/
def stopWithHeldRecord : State :=
  { State.reset with
    regs := tblPut State.reset.regs (Reg.SPL_REGION_BASE_LO 0) 3#32
    mem := { Mem.reset with spool := [(0, ⟨0, false, [], false, .bulk, 0, 0, .excl, [0]⟩)] }
    kv := { Kv.reset with init := some true } }

theorem stopWithHeldRecord_stands :
    stopWithHeldRecord.kv.init = some true ∧ stopWithHeldRecord.kv.moves = [] ∧
    stopWithHeldRecord.seqAddr 0 < stopWithHeldRecord.dramTop ∧
    stopWithHeldRecord.cohAccess kvWalker (stopWithHeldRecord.seqAddr 0) .bulk = true ∧
    stopWithHeldRecord.line? (stopWithHeldRecord.seqAddr 0) = some ⟨0, false, [], false, .bulk, 0, 0, .excl, [0]⟩ := by
  decide +kernel

/-- An initialisation that clears the tables reads the free values that their clearing reads (R590, R591). -/
theorem exec_seqInitDone_free (s : State) (stop : Bool) (hinit : s.kv.init = some stop) (hidle : s.kv.moves = []) (hclears : (stop || s.kvOn) = true) :
    ∃ t, exec .seqInitDone s = .next t ∧ t.free = (s.clearTables stop).free := by
  have hexec : exec .seqInitDone s = execSeqInitDone s := rfl
  rw [hexec, execSeqInitDone, hinit]
  dsimp only
  rw [if_neg fun h => h.2 hidle, if_pos hclears]
  refine ⟨_, rfl, ?_⟩
  rw [State.setFld_free, State.setFld_free, State.foldl_setFld_free, State.foldl_setFld_free, State.onKv_free]

/-- Refutes O46: as the engine's stop ends, the clearing of record 0 takes its line back from loom 0, which holds it in E. What the loom has written
is a free value, so more has changed than memory, registers and the engine's own state. -/
theorem not_sequencesOpenAndClose : ¬ Obligations.SequencesOpenAndClose := by
  intro h
  obtain ⟨hinit, hidle, hpa, hcoh, hline⟩ := stopWithHeldRecord_stands
  obtain ⟨-, hengine⟩ := h
  obtain ⟨-, -, hends⟩ := hengine stopWithHeldRecord
  obtain ⟨t, hexec, -, -, -, -, -, -, -, -, hrest⟩ := hends true hinit fun _ => hidle
  obtain ⟨u, hu, hfree⟩ := exec_seqInitDone_free stopWithHeldRecord true hinit hidle rfl
  obtain rfl : t = u := Host.Outcome.next.inj (hexec.symm.trans hu)
  have hread := State.free_lt_clearTables true hpa hcoh hline rfl rfl
  have hsame : t.free = stopWithHeldRecord.free := by rw [hrest]
  exact absurd (hfree.symm.trans hsame) hread.ne'

end Sys2Proof.Machine
end

section
/-! SUPPORT. Ports and Panel Replay: fields that are cleared, registers in use, and what an exit from Panel Replay changes (R613, R639, R640, R658, R713). -/

namespace Sys2Proof.Machine

/-! Fields that are cleared. -/

/-- Clearing a field sets no bit. -/
theorem Field.get_put_zero (f g : Field) (v : Word) (h : g = f ∨ g.get v = 0) : g.get (f.put v 0) = 0 := by
  apply Nat.eq_of_testBit_eq
  intro i
  rw [Field.testBit_get, Field.getLsbD_put, Nat.zero_testBit, Nat.zero_testBit]
  rcases h with rfl | h
  · by_cases hi : i < g.w <;> simp [hi]
  · have hbit : (decide (i < g.w) && v.getLsbD (g.lo + i)) = false := by rw [← Field.testBit_get, h, Nat.zero_testBit]
    split <;> simp_all

theorem State.fld_setFld_zero (s : State) (o : Nat) (f g : Field) (h : g = f ∨ s.fld o g = 0) : (s.setFld o f 0).fld o g = 0 := by
  rw [State.fld, State.rd_setFld_self]
  exact Field.get_put_zero f g _ h

/-- The fields of a register after several of them have been cleared. -/
theorem State.fld_clearFields (o : Nat) (l : List Field) (s : State) (g : Field) (h : g ∈ l ∨ s.fld o g = 0) :
    (l.foldl (fun t f => t.setFld o f 0) s).fld o g = 0 := by
  induction l generalizing s with
  | nil => exact h.resolve_left List.not_mem_nil
  | cons f l ih =>
    refine ih _ ?_
    rcases h with h | h
    · rcases List.mem_cons.mp h with rfl | h
      · exact .inr (s.fld_setFld_zero o g g (.inl rfl))
      · exact .inl h
    · exact .inr (s.fld_setFld_zero o f g (.inr h))

theorem State.clearFields_writes (s : State) (o : Nat) (l : List Field) : s.WritesIn (· = o) (l.foldl (fun t f => t.setFld o f 0) s) :=
  .foldl _ _ (fun u _ _ => .setFld (.refl _ u) _ _ _ rfl) (.refl _ s)

theorem State.WritesIn.weaken {P Q : Nat → Prop} {s t : State} (h : s.WritesIn P t) (hPQ : ∀ o, P o → Q o) : s.WritesIn Q t :=
  ⟨h.rest, fun o ho => h.rd o fun hp => ho (hPQ o hp)⟩

/-! Registers in use. -/

theorem State.inUse_setInUse (s : State) (o p : Nat) (v : Word) : (s.setInUse o v).inUse p = if p = o then v else s.inUse p :=
  tblGet_tblSet regDef s.scn.inUse o p v

theorem State.inUse_setInUse_self (s : State) (o : Nat) (v : Word) : (s.setInUse o v).inUse o = v := by rw [State.inUse_setInUse, if_pos rfl]

theorem State.inUse_setInUse_ne (s : State) (o p : Nat) (v : Word) (h : p ≠ o) : (s.setInUse o v).inUse p = s.inUse p := by
  rw [State.inUse_setInUse, if_neg h]

@[simp] theorem State.rd_setInUse (s : State) (o p : Nat) (v : Word) : (s.setInUse o v).rd p = s.rd p := rfl

@[simp] theorem State.rd_dropRows (s : State) (p : LayerRow → Bool) (o : Nat) : (s.dropRows p).rd o = s.rd o := rfl

/-- What the composer uses of a register that is not written. -/
theorem State.WritesIn.cmp {P : Nat → Prop} {s t : State} (h : s.WritesIn P t) (o : Nat) (ho : ¬ P o) : t.cmp o = s.cmp o := by
  have hscn : t.scn = s.scn := by rw [h.rest]
  rw [State.cmp, State.cmp, State.inUse, State.inUse, hscn, h.rd o ho]

/-! Panel Replay is left. -/

theorem State.prState_lt (s : State) : s.prState < 4 := Field.get_lt _ _

theorem State.prState_cases (s : State) : (s.prState = 0 ∨ s.prState = 3) ∨ s.prState = 1 ∨ s.prState = 2 := by
  have := s.prState_lt
  omega

/-- From `s` to `t` Panel Replay goes to EXITING, and the reserved looms are to wake. -/
structure State.LeavesReplay (s t : State) : Prop where
  state : t.prState = 3
  scn : t.scn = { s.scn with prWaking := true }
  rest : t = { s with regs := t.regs, scn := t.scn, pwr := t.pwr, looms := t.looms }
  rd : ∀ o, o ∉ [Reg.SCN_PR_STATUS, Reg.PWR_STATUS] → t.rd o = s.rd o

theorem State.switchOn_rest (s : State) (ps : List Nat) : s.switchOn ps = { s with looms := (s.switchOn ps).looms, pwr := (s.switchOn ps).pwr } := by
  unfold State.switchOn
  extract_lets off start us s1
  have hlooms : s1 = { s with looms := s1.looms } :=
    List.foldlRecOn off.zipIdx _ (motive := fun u : State => u = { s with looms := u.looms }) rfl fun u hu x _ => by rw [hu]; rfl
  split
  · rfl
  · rw [hlooms]

theorem State.wakeReserved_rest (s : State) : s.wakeReserved = { s with looms := s.wakeReserved.looms, pwr := s.wakeReserved.pwr } := by
  unfold State.wakeReserved
  split
  · exact s.switchOn_rest _
  · rfl

theorem State.rd_retarget (s : State) (o : Nat) (h : o ≠ Reg.PWR_STATUS) : s.retarget.rd o = s.rd o := State.rd_setFld_ne _ _ _ _ _ h

/-- In OFF and EXITING an exit cause has no effect. -/
theorem State.prExit_of_out (s : State) (h : s.prState = 0 ∨ s.prState = 3) : s.prExit = s := if_neg (by omega)

/-- In CAPTURE and ACTIVE an exit cause ends Panel Replay. -/
theorem State.prExit_of_in (s : State) (h : s.prState = 1 ∨ s.prState = 2) : s.LeavesReplay s.prExit := by
  have hexit : s.prExit = ((s.setFld Reg.SCN_PR_STATUS Reg.SCN_PR_STATUS_STATE 3).onScn fun c => { c with prWaking := true }).retarget.wakeReserved :=
    if_pos h
  have hwake := State.wakeReserved_rest ((s.setFld Reg.SCN_PR_STATUS Reg.SCN_PR_STATUS_STATE 3).onScn fun c => { c with prWaking := true }).retarget
  rw [← hexit] at hwake
  have hrd (o : Nat) (ho : o ≠ Reg.PWR_STATUS) : s.prExit.rd o = (s.setFld Reg.SCN_PR_STATUS Reg.SCN_PR_STATUS_STATE 3).rd o := by
    rw [hwake]
    exact State.rd_retarget _ o ho
  refine ⟨?_, by rw [hwake]; rfl, ?_, fun o ho => ?_⟩
  · rw [State.prState, State.fld_of_rd (hrd _ (by decide))]
    exact State.fld_setFld_self _ _ _ _ (by decide)
  · rw [hwake]
    rfl
  · obtain ⟨hreplay, hpwr⟩ : o ≠ Reg.SCN_PR_STATUS ∧ o ≠ Reg.PWR_STATUS := by simpa using ho
    exact (hrd o hpwr).trans (State.rd_setFld_ne _ _ _ _ _ hreplay)

/-- What an exit cause leaves alone, in whatever state. -/
theorem State.prExit_kept (s : State) : s.prExit = { s with regs := s.prExit.regs, scn := s.prExit.scn, pwr := s.prExit.pwr, looms := s.prExit.looms } ∧
    s.prExit.scn = { s.scn with prWaking := s.prExit.scn.prWaking } ∧ ∀ o, o ∉ [Reg.SCN_PR_STATUS, Reg.PWR_STATUS] → s.prExit.rd o = s.rd o := by
  rcases s.prState_cases with h | h
  · rw [s.prExit_of_out h]
    exact ⟨rfl, rfl, fun _ _ => rfl⟩
  · obtain ⟨-, hscn, hrest, hrd⟩ := s.prExit_of_in h
    exact ⟨hrest, by rw [hscn], hrd⟩

end Sys2Proof.Machine
end

section
/-! PROOF. Hot plug, training, the UNDERRUN modes and AUX (R635 to R643, R654, R658). -/

namespace Sys2Proof.Machine

/-! Training. -/

/-- The fields of SCN_PORT_STATUS that a training clears. -/
def trainFields : List Field :=
  [Reg.SCN_PORT_STATUS_TRAINED, Reg.SCN_PORT_STATUS_CODING, Reg.SCN_PORT_STATUS_RATE, Reg.SCN_PORT_STATUS_LANES, Reg.SCN_PORT_STATUS_VIDEO]

/-- From `s` to `t` port `p` has begun to train (R635, R639). -/
def State.TrainsPort (p : Nat) (s t : State) : Prop :=
  (∀ f ∈ trainFields, t.port p f = 0) ∧
  t.rd (Reg.SCN_TRAIN_CNT p) = counted (s.rd (Reg.SCN_TRAIN_CNT p)) ∧ (∀ q, q ∈ t.scn.training ↔ q ∈ s.scn.training ∨ q = p) ∧
  t.out = s.out ++ [⟨s.trd.cclk, .linkTrain p⟩] ∧
  t = { s with regs := t.regs, out := t.out, scn := { s.scn with training := t.scn.training } }

/-- What a port writes while it trains: its status and the count of its trainings. -/
abbrev trainWrites (p o : Nat) : Prop := o = Reg.SCN_PORT_STATUS p ∨ o = Reg.SCN_TRAIN_CNT p

theorem Reg.SCN_TRAIN_CNT_ne_SCN_PORT_STATUS (p q : Nat) : Reg.SCN_TRAIN_CNT p ≠ Reg.SCN_PORT_STATUS q := by
  simp only [Reg.SCN_TRAIN_CNT, Reg.SCN_PORT_STATUS]; omega

theorem Reg.SCN_HPD_IRQ_CNT_ne_SCN_PORT_STATUS (p q : Nat) : Reg.SCN_HPD_IRQ_CNT p ≠ Reg.SCN_PORT_STATUS q := by
  simp only [Reg.SCN_HPD_IRQ_CNT, Reg.SCN_PORT_STATUS]; omega

theorem Reg.SCN_HPD_IRQ_CNT_ne_SCN_TRAIN_CNT (p q : Nat) : Reg.SCN_HPD_IRQ_CNT p ≠ Reg.SCN_TRAIN_CNT q := by
  simp only [Reg.SCN_HPD_IRQ_CNT, Reg.SCN_TRAIN_CNT]; omega

theorem Reg.SCN_PR_STATUS_ne_SCN_PORT_STATUS (p : Nat) : Reg.SCN_PR_STATUS ≠ Reg.SCN_PORT_STATUS p := by
  simp only [Reg.SCN_PR_STATUS, Reg.SCN_PORT_STATUS]; omega

theorem Reg.CMP_DITHER_ne_SCN_PORT_STATUS (p : Nat) : Reg.CMP_DITHER ≠ Reg.SCN_PORT_STATUS p := by
  simp only [Reg.CMP_DITHER, Reg.SCN_PORT_STATUS]; omega

theorem Reg.SCN_PORT_STATUS_notMem_replay (p : Nat) (h : p < 2) : Reg.SCN_PORT_STATUS p ∉ [Reg.SCN_PR_STATUS, Reg.PWR_STATUS] := by
  interval_cases p <;> decide

/-- The registers as a port begins to train. -/
def State.trainRegs (s : State) (p : Nat) : State :=
  (trainFields.foldl (fun t f => t.setFld (Reg.SCN_PORT_STATUS p) f 0) s).bump (Reg.SCN_TRAIN_CNT p)

theorem State.trainRegs_writes (s : State) (p : Nat) : s.WritesIn (trainWrites p) (s.trainRegs p) :=
  .bump ((s.clearFields_writes _ _).weaken fun _ h => .inl h) _ (.inr rfl)

theorem State.trainRegs_port (s : State) (p : Nat) (g : Field) : (s.trainRegs p).port p g =
    (trainFields.foldl (fun t f => t.setFld (Reg.SCN_PORT_STATUS p) f 0) s).fld (Reg.SCN_PORT_STATUS p) g :=
  State.fld_bump_ne _ _ _ _ (Reg.SCN_TRAIN_CNT_ne_SCN_PORT_STATUS p p).symm

theorem State.startTraining_of_hpd (s : State) (p : Nat) (h : s.port p Reg.SCN_PORT_STATUS_HPD = 1) : s.startTraining p =
    ((s.trainRegs p).onScn fun c => { c with training := insertNat p c.training }).emit 0 (.linkTrain p) :=
  if_neg (by omega)

theorem State.startTraining_of_noHpd (s : State) (p : Nat) (h : s.port p Reg.SCN_PORT_STATUS_HPD = 0) : s.startTraining p = s := if_pos h

theorem State.startTraining_port (s : State) (p : Nat) (g : Field) (h : s.port p Reg.SCN_PORT_STATUS_HPD = 1) :
    (s.startTraining p).port p g = (s.trainRegs p).port p g := by
  simp only [s.startTraining_of_hpd p h, State.port, State.emit_fld, State.onScn_fld]

theorem State.fld_zero_or_one (s : State) (o : Nat) (f : Field) (h : f.w = 1) : s.fld o f = 0 ∨ s.fld o f = 1 := by
  have hlt : s.fld o f < 2 ^ f.w := Field.get_lt _ _
  rw [h] at hlt
  omega

theorem State.rd_startTraining (s : State) (p o : Nat) (h : ¬ trainWrites p o) : (s.startTraining p).rd o = s.rd o := by
  rcases s.fld_zero_or_one (Reg.SCN_PORT_STATUS p) Reg.SCN_PORT_STATUS_HPD rfl with hhpd | hhpd
  · rw [s.startTraining_of_noHpd p hhpd]
  · rw [s.startTraining_of_hpd p hhpd, State.emit_rd, State.onScn_rd, (s.trainRegs_writes p).rd o h]

theorem State.rd_trainRegs_cnt (s : State) (p : Nat) : (s.trainRegs p).rd (Reg.SCN_TRAIN_CNT p) = counted (s.rd (Reg.SCN_TRAIN_CNT p)) := by
  have hclear := (s.clearFields_writes (Reg.SCN_PORT_STATUS p) trainFields).rd _ (Reg.SCN_TRAIN_CNT_ne_SCN_PORT_STATUS p p)
  rw [State.trainRegs, State.rd_bump_self, hclear]

/-- A port with a sink begins to train. -/
theorem State.startTraining_trains (s : State) (p : Nat) (h : s.port p Reg.SCN_PORT_STATUS_HPD = 1) : s.TrainsPort p (s.startTraining p) := by
  have hfields (f : Field) (hf : f ∈ trainFields) : (s.trainRegs p).port p f = 0 :=
    (s.trainRegs_port p f).trans (State.fld_clearFields _ _ _ _ (.inl hf))
  have hcnt := s.rd_trainRegs_cnt p
  have hrest := (s.trainRegs_writes p).rest
  rw [s.startTraining_of_hpd p h]
  generalize s.trainRegs p = u at *
  refine ⟨hfields, hcnt, fun q => ?_, ?_, ?_⟩
  · rw [hrest, or_comm]
    exact mem_insertNat p q s.scn.training
  · rw [hrest]
    rfl
  · rw [hrest]
    rfl

/-- Registers written before a training that neither it nor its count reads. -/
theorem State.TrainsPort.after {P : Nat → Prop} {p : Nat} {s u t : State} (h : u.TrainsPort p t) (hw : s.WritesIn P u)
    (hP : ¬ P (Reg.SCN_TRAIN_CNT p)) : s.TrainsPort p t := by
  obtain ⟨hfields, hcount, htraining, hout, hrest⟩ := h
  have hu := hw.rest
  exact ⟨hfields, by rw [hcount, hw.rd _ hP], by rw [hu] at htraining; exact htraining, by rw [hout, hu], by rw [hu] at hrest; exact hrest⟩

/-! Hot plug. -/

theorem exec_hpdRise_spec (s : State) (p : Fin 2) : ∃ t, exec (.hpdRise p) s = .next t ∧ t.port p Reg.SCN_PORT_STATUS_HPD = 1 ∧ s.TrainsPort p t ∧
    ∀ o, o ∉ [Reg.SCN_PORT_STATUS p, Reg.SCN_TRAIN_CNT p] → t.rd o = s.rd o := by
  have hset : s.WritesIn (· = Reg.SCN_PORT_STATUS p) (s.setPort p Reg.SCN_PORT_STATUS_HPD 1) := .setFld (.refl _ s) _ _ _ rfl
  have hhpd : (s.setPort p Reg.SCN_PORT_STATUS_HPD 1).port p Reg.SCN_PORT_STATUS_HPD = 1 := State.fld_setFld_self _ _ _ _ (by decide)
  refine ⟨_, rfl, ?_, (State.startTraining_trains _ p hhpd).after hset (Reg.SCN_TRAIN_CNT_ne_SCN_PORT_STATUS p p), fun o ho => ?_⟩
  · rw [State.startTraining_port _ _ _ hhpd, State.trainRegs_port]
    simp (disch := decide) only [trainFields, List.foldl, State.fld_setFld_other]
    exact hhpd
  · obtain ⟨hstatus, hcnt⟩ : o ≠ Reg.SCN_PORT_STATUS p ∧ o ≠ Reg.SCN_TRAIN_CNT p := by simpa using ho
    exact (State.rd_startTraining _ _ _ (by simp [hstatus, hcnt])).trans (hset.rd o hstatus)

/-- The fields of SCN_PORT_STATUS that the loss of the sink clears. -/
def lostFields : List Field :=
  [Reg.SCN_PORT_STATUS_HPD, Reg.SCN_PORT_STATUS_TRAINED, Reg.SCN_PORT_STATUS_CODING, Reg.SCN_PORT_STATUS_RATE, Reg.SCN_PORT_STATUS_LANES,
    Reg.SCN_PORT_STATUS_VIDEO]

/-- A port whose sink has gone: its status is clear, it no longer trains, and its lanes are idle (R639). -/
def State.unplugged (s : State) (p : Nat) : State :=
  ((lostFields.foldl (fun t f => t.setFld (Reg.SCN_PORT_STATUS p) f 0) s).onScn fun c =>
    { c with training := c.training.filter (· ≠ p) }).emit 0 (.lanesIdle p)

theorem exec_hpdFall (s : State) (p : Fin 2) :
    exec (.hpdFall p) s = .next (if s.portActive p then (s.unplugged p).prExit else s.unplugged p) := rfl

theorem State.unplugged_spec (s : State) (p : Nat) :
    let t := s.unplugged p
    (∀ f ∈ lostFields, t.port p f = 0) ∧ t.scn = { s.scn with training := s.scn.training.filter (· ≠ p) } ∧
    t.out = s.out ++ [⟨s.trd.cclk, .lanesIdle p⟩] ∧ t = { s with regs := t.regs, out := t.out, scn := t.scn } ∧
    ∀ o, o ≠ Reg.SCN_PORT_STATUS p → t.rd o = s.rd o := by
  have hclear := s.clearFields_writes (Reg.SCN_PORT_STATUS p) lostFields
  have hfields (f : Field) (hf : f ∈ lostFields) := State.fld_clearFields (Reg.SCN_PORT_STATUS p) lostFields s f (.inl hf)
  obtain ⟨hrest, hrd⟩ := hclear
  unfold State.unplugged
  generalize lostFields.foldl (fun t f => t.setFld (Reg.SCN_PORT_STATUS p) f 0) s = u at *
  refine ⟨fun f hf => ?_, ?_, ?_, ?_, fun o ho => ?_⟩
  · rw [State.port, State.emit_fld, State.onScn_fld, hfields f hf]
  · rw [hrest]
    rfl
  · rw [hrest]
    rfl
  · rw [hrest]
    rfl
  · rw [State.emit_rd, State.onScn_rd, hrd o ho]

theorem exec_hpdFall_spec (s : State) (p : Fin 2) : ∃ t, exec (.hpdFall p) s = .next t ∧
    (∀ f ∈ lostFields, t.port p f = 0) ∧ t.scn.training = s.scn.training.filter (· ≠ p.val) ∧
    t.out = s.out ++ [⟨s.trd.cclk, .lanesIdle p⟩] ∧
    t = { s with regs := t.regs, out := t.out, scn := t.scn, pwr := t.pwr, looms := t.looms } ∧
    (s.portActive p = true → s.prState = 1 ∨ s.prState = 2 → t.prState = 3 ∧
      t.scn = { s.scn with training := t.scn.training, prWaking := true } ∧
      ∀ o, o ∉ [Reg.SCN_PORT_STATUS p, Reg.SCN_PR_STATUS, Reg.PWR_STATUS] → t.rd o = s.rd o) ∧
    (s.portActive p = false ∨ s.prState = 0 ∨ s.prState = 3 →
      t = { s with regs := t.regs, out := t.out, scn := { s.scn with training := t.scn.training } } ∧
      ∀ o, o ≠ Reg.SCN_PORT_STATUS p → t.rd o = s.rd o) := by
  obtain ⟨hfields, hscn, hout, hrest, hrd⟩ := s.unplugged_spec p
  have hreplay : (s.unplugged p).prState = s.prState := State.fld_of_rd (hrd _ (Reg.SCN_PR_STATUS_ne_SCN_PORT_STATUS p)) _
  rw [exec_hpdFall]
  generalize s.unplugged p = u at *
  by_cases hin : s.portActive p = true ∧ (s.prState = 1 ∨ s.prState = 2)
  · obtain ⟨hactive, hstate⟩ := hin
    obtain ⟨hleft, hscn', hrest', hrd'⟩ := u.prExit_of_in (by rw [hreplay]; exact hstate)
    rw [if_pos hactive]
    generalize u.prExit = t at *
    refine ⟨t, rfl, fun f hf => ?_, by rw [hscn', hscn], by rw [hrest', ← hout], by rw [hrest', hrest], fun _ _ => ⟨hleft, ?_, fun o ho => ?_⟩,
      fun hstays => ?_⟩
    · exact (State.fld_of_rd (hrd' _ (Reg.SCN_PORT_STATUS_notMem_replay p p.isLt)) f).trans (hfields f hf)
    · rw [hscn', hscn]
    · obtain ⟨hstatus, hothers⟩ : o ≠ Reg.SCN_PORT_STATUS p ∧ o ∉ [Reg.SCN_PR_STATUS, Reg.PWR_STATUS] := by simpa using ho
      exact (hrd' o hothers).trans (hrd o hstatus)
    · exact absurd (hstays.resolve_left (by simp [hactive])) (by omega)
  · have hsame : (if s.portActive p then u.prExit else u) = u := by
      split
      · next hactive => exact u.prExit_of_out (by rw [hreplay]; have := s.prState_cases; tauto)
      · rfl
    rw [hsame]
    exact ⟨u, rfl, hfields, by rw [hscn], hout, by rw [hrest], fun hactive hstate => absurd ⟨hactive, hstate⟩ hin,
      fun _ => ⟨by rw [hscn] at hrest; rw [hscn]; exact hrest, hrd⟩⟩

/-! Pulses and training again. -/

theorem exec_hpdIrq_spec (s : State) (p : Fin 2) : ∃ t, exec (.hpdIrq p false) s = .next t ∧
    t.rd (Reg.SCN_HPD_IRQ_CNT p) = counted (s.rd (Reg.SCN_HPD_IRQ_CNT p)) ∧ t = { s with regs := t.regs } ∧
    ∀ o, o ≠ Reg.SCN_HPD_IRQ_CNT p → t.rd o = s.rd o := by
  have hbump : s.WritesIn (· = Reg.SCN_HPD_IRQ_CNT p) (s.bump (Reg.SCN_HPD_IRQ_CNT p)) := .bump (.refl _ s) _ rfl
  exact ⟨_, rfl, s.rd_bump_self _, hbump.rest, hbump.rd⟩

theorem exec_retrain_noHpd (s : State) (p : Fin 2) (h : s.port p Reg.SCN_PORT_STATUS_HPD = 0) : exec (.retrain p) s = .next s :=
  congrArg Host.Outcome.next (s.startTraining_of_noHpd p h)

theorem exec_retrain_spec (s : State) (p : Fin 2) (h : s.port p Reg.SCN_PORT_STATUS_HPD = 1) : ∃ t, exec (.retrain p) s = .next t ∧
    s.TrainsPort p t ∧ ∀ o, o ∉ [Reg.SCN_PORT_STATUS p, Reg.SCN_TRAIN_CNT p] → t.rd o = s.rd o :=
  ⟨_, rfl, s.startTraining_trains p h, fun o ho => s.rd_startTraining p o fun hw => ho (by simpa using hw)⟩

/-- A pulse that finds lock lost trains the link again (R638). -/
theorem exec_hpdIrq_lost (s : State) (p : Fin 2) (h : s.port p Reg.SCN_PORT_STATUS_HPD = 1) : ∃ t, exec (.hpdIrq p true) s = .next t ∧
    s.TrainsPort p t ∧ t.rd (Reg.SCN_HPD_IRQ_CNT p) = counted (s.rd (Reg.SCN_HPD_IRQ_CNT p)) := by
  have hbump : s.WritesIn (· = Reg.SCN_HPD_IRQ_CNT p) (s.bump (Reg.SCN_HPD_IRQ_CNT p)) := .bump (.refl _ s) _ rfl
  have hhpd : (s.bump (Reg.SCN_HPD_IRQ_CNT p)).port p Reg.SCN_PORT_STATUS_HPD = 1 :=
    (hbump.fld _ _ (Reg.SCN_HPD_IRQ_CNT_ne_SCN_PORT_STATUS p p).symm).trans h
  refine ⟨(s.bump (Reg.SCN_HPD_IRQ_CNT p)).startTraining p, rfl,
    (State.startTraining_trains _ p hhpd).after hbump (Reg.SCN_HPD_IRQ_CNT_ne_SCN_TRAIN_CNT p p).symm, ?_⟩
  rw [State.rd_startTraining _ _ _ (by simp [Reg.SCN_HPD_IRQ_CNT_ne_SCN_PORT_STATUS, Reg.SCN_HPD_IRQ_CNT_ne_SCN_TRAIN_CNT]), State.rd_bump_self]

/-! The end of a training. -/

/-- Port `p` no longer trains, and its sink has declared Panel Replay support or not (R654). -/
def State.trainEnds (s : State) (p : Nat) (pr : Bool) : State :=
  (s.onScn fun c => { c with training := c.training.filter (· ≠ p) }).setPort p Reg.SCN_PORT_STATUS_PR_CAP (if pr then 1 else 0)

/-- A link trained at a rate and number of lanes (R636). -/
def State.linkTaken (s : State) (p rate lanes : Nat) : State :=
  (((s.setPort p Reg.SCN_PORT_STATUS_TRAINED 1).setPort p Reg.SCN_PORT_STATUS_CODING (if 5 ≤ rate then 1 else 0)).setPort
    p Reg.SCN_PORT_STATUS_RATE rate).setPort p Reg.SCN_PORT_STATUS_LANES lanes

/-- The trained link, with whether the timing in use fits it (R637). -/
def State.linkFound (s : State) (p rate lanes : Nat) : State :=
  (s.linkTaken p rate lanes).setPort p Reg.SCN_PORT_STATUS_BW_ERR (if (s.linkTaken p rate lanes).portFits p then 0 else 1)

theorem exec_linkTrained_idle (s : State) (p : Fin 2) (link : Option (Nat × Nat)) (pr : Bool) (h : p.val ∉ s.scn.training) :
    exec (.linkTrained p link pr) s = .next s := by
  change execLinkTrained p link pr s = _
  rw [execLinkTrained, if_pos (by simpa using h)]

theorem exec_linkTrained_up (s : State) (p : Fin 2) (rate lanes : Nat) (pr : Bool) (h : p.val ∈ s.scn.training)
    (hl : s.linkAllowed p rate lanes = true) : exec (.linkTrained p (some (rate, lanes)) pr) s = .next ((s.trainEnds p pr).linkFound p rate lanes) := by
  change execLinkTrained p (some (rate, lanes)) pr s = _
  rw [execLinkTrained, if_neg (by simpa using h)]
  exact congrArg Host.Outcome.next (if_pos hl)

theorem exec_linkTrained_fails (s : State) (p : Fin 2) (link : Option (Nat × Nat)) (pr : Bool) (h : p.val ∈ s.scn.training)
    (hl : ∀ rate lanes, link = some (rate, lanes) → s.linkAllowed p rate lanes = false) :
    exec (.linkTrained p link pr) s = .next ((s.trainEnds p pr).setPort p Reg.SCN_PORT_STATUS_TRAIN_FAIL 1) := by
  change execLinkTrained p link pr s = _
  rw [execLinkTrained, if_neg (by simpa using h)]
  cases link with
  | none => rfl
  | some l => exact congrArg Host.Outcome.next (if_neg (by rw [hl l.1 l.2 rfl]; exact Bool.false_ne_true))

theorem State.setPort_writes (s : State) (p : Nat) (f : Field) (x : Nat) : s.WritesIn (· = Reg.SCN_PORT_STATUS p) (s.setPort p f x) :=
  .setFld (.refl _ s) _ _ _ rfl

theorem State.linkTaken_writes (s : State) (p rate lanes : Nat) : s.WritesIn (· = Reg.SCN_PORT_STATUS p) (s.linkTaken p rate lanes) :=
  (((s.setPort_writes ..).trans (State.setPort_writes ..)).trans (State.setPort_writes ..)).trans (State.setPort_writes ..)

theorem State.linkFound_writes (s : State) (p rate lanes : Nat) : s.WritesIn (· = Reg.SCN_PORT_STATUS p) (s.linkFound p rate lanes) :=
  (s.linkTaken_writes ..).trans (State.setPort_writes ..)

theorem State.linkTaken_fields (s : State) (p rate lanes : Nat) (hr : rate < 8) (hn : lanes < 8) :
    let t := s.linkTaken p rate lanes
    t.port p Reg.SCN_PORT_STATUS_TRAINED = 1 ∧ t.port p Reg.SCN_PORT_STATUS_RATE = rate ∧ t.port p Reg.SCN_PORT_STATUS_LANES = lanes ∧
    t.port p Reg.SCN_PORT_STATUS_CODING = (if 5 ≤ rate then 1 else 0) := by
  have hcoding : (if 5 ≤ rate then 1 else 0) % 2 = if 5 ≤ rate then 1 else 0 := by split <;> rfl
  simp (disch := decide) only [State.port, State.linkTaken, State.setPort, State.fld_setFld_other, State.fld_setFld_self]
  exact ⟨rfl, Nat.mod_eq_of_lt hr, Nat.mod_eq_of_lt hn, hcoding⟩

/-- The timing in use fits a link or not, whatever a port's status holds beside its rate and lanes. -/
theorem State.linkTaken_fits (s : State) (p rate lanes : Nat) (hr : rate < 8) (hn : lanes < 8) :
    (s.linkTaken p rate lanes).portFits p = streamFits s.trd.timing s.portMode s.depth rate lanes := by
  obtain ⟨-, hrate, hlanes, -⟩ := s.linkTaken_fields p rate lanes hr hn
  have hw := s.linkTaken_writes p rate lanes
  have hdepth : (s.linkTaken p rate lanes).depth = s.depth := by
    rw [State.depth, State.depth, hw.cmp _ (Reg.CMP_DITHER_ne_SCN_PORT_STATUS p)]
  have hrest := hw.rest
  generalize s.linkTaken p rate lanes = u at *
  rw [State.portFits, hrate, hlanes, hdepth, hrest]
  rfl

theorem State.linkFound_fields (s : State) (p rate lanes : Nat) (hr : rate < 8) (hn : lanes < 8) :
    let t := s.linkFound p rate lanes
    t.port p Reg.SCN_PORT_STATUS_TRAINED = 1 ∧ t.port p Reg.SCN_PORT_STATUS_RATE = rate ∧ t.port p Reg.SCN_PORT_STATUS_LANES = lanes ∧
    t.port p Reg.SCN_PORT_STATUS_CODING = (if 5 ≤ rate then 1 else 0) ∧
    t.port p Reg.SCN_PORT_STATUS_BW_ERR = (if streamFits s.trd.timing s.portMode s.depth rate lanes = true then 0 else 1) := by
  obtain ⟨htrained, hrate, hlanes, hcoding⟩ := s.linkTaken_fields p rate lanes hr hn
  have hfits := s.linkTaken_fits p rate lanes hr hn
  unfold State.linkFound
  generalize s.linkTaken p rate lanes = u at *
  simp (disch := decide) only [State.port, State.setPort, State.fld_setFld_other] at htrained hrate hlanes hcoding ⊢
  refine ⟨htrained, hrate, hlanes, hcoding, ?_⟩
  rw [hfits, State.fld_setFld_self _ _ _ _ (by decide)]
  split <;> rfl

theorem State.linkFound_cap (s : State) (p rate lanes : Nat) :
    (s.linkFound p rate lanes).port p Reg.SCN_PORT_STATUS_PR_CAP = s.port p Reg.SCN_PORT_STATUS_PR_CAP := by
  simp (disch := decide) only [State.port, State.linkFound, State.linkTaken, State.setPort, State.fld_setFld_other]

theorem State.linkAllowed_of_permitted (s : State) (p rate lanes : Nat) (hrate : 1 ≤ rate) (hlanes : lanes ∈ [1, 2, 4])
    (hmax : rate ≤ Reg.SCN_PORT_CTL_MAX_RATE.get (s.inUse (Reg.SCN_PORT_CTL p)))
    (htop : Reg.SCN_PORT_CTL_MAX_LANES.get (s.inUse (Reg.SCN_PORT_CTL p)) ∈ [1, 2] →
      lanes ≤ Reg.SCN_PORT_CTL_MAX_LANES.get (s.inUse (Reg.SCN_PORT_CTL p))) : s.linkAllowed p rate lanes = true := by
  unfold State.linkAllowed
  extract_lets v m top
  have hle : lanes ≤ top := by
    unfold top
    split
    · next h => exact htop (by simpa using h)
    · simp only [List.mem_cons, List.not_mem_nil, or_false] at hlanes
      omega
  simp only [List.mem_cons, List.not_mem_nil, or_false] at hlanes
  simp [hrate, hmax, hle, or_assoc, hlanes, v]

theorem State.linkAllowed_lt (s : State) (p rate lanes : Nat) (h : s.linkAllowed p rate lanes = true) : rate < 8 ∧ lanes < 8 := by
  have hmax : Reg.SCN_PORT_CTL_MAX_RATE.get (s.inUse (Reg.SCN_PORT_CTL p)) < 8 := Field.get_lt _ _
  unfold State.linkAllowed at h
  simp only [Bool.and_eq_true, Bool.or_eq_true, decide_eq_true_eq, beq_iff_eq] at h
  obtain ⟨⟨hrate, hlanes⟩, -⟩ := h
  omega

theorem State.trainEnds_rest (s : State) (p : Nat) (pr : Bool) : s.trainEnds p pr =
    { s with regs := (s.trainEnds p pr).regs, scn := { s.scn with training := s.scn.training.filter (· ≠ p) } } := rfl

theorem State.rd_trainEnds (s : State) (p o : Nat) (pr : Bool) (h : o ≠ Reg.SCN_PORT_STATUS p) : (s.trainEnds p pr).rd o = s.rd o :=
  State.rd_setFld_ne _ _ _ _ _ h

theorem State.trainEnds_port (s : State) (p : Nat) (pr : Bool) :
    (s.trainEnds p pr).port p Reg.SCN_PORT_STATUS_PR_CAP = (if pr then 1 else 0) ∧
    (s.trainEnds p pr).port p Reg.SCN_PORT_STATUS_TRAINED = s.port p Reg.SCN_PORT_STATUS_TRAINED := by
  refine ⟨State.fld_setFld_ite _ _ _ _ (by decide) (by decide), ?_⟩
  rw [State.port, State.trainEnds, State.setPort, State.fld_setFld_other _ _ _ _ _ (by decide), State.onScn_fld]
  rfl

theorem State.depth_trainEnds (s : State) (p : Nat) (pr : Bool) : (s.trainEnds p pr).depth = s.depth := by
  have hcmp := (State.setPort_writes (s.onScn fun c => { c with training := c.training.filter (· ≠ p) }) p Reg.SCN_PORT_STATUS_PR_CAP
    (if pr then 1 else 0)).cmp _ (Reg.CMP_DITHER_ne_SCN_PORT_STATUS p)
  rw [State.depth, State.trainEnds, hcmp]
  rfl

/-- Whatever a training's outcome writes to the port's status, nothing else is written. -/
theorem State.trainEnds_frame {s t : State} {p : Nat} {pr : Bool} (h : (s.trainEnds p pr).WritesIn (· = Reg.SCN_PORT_STATUS p) t) :
    p ∉ t.scn.training ∧ t = { s with regs := t.regs, scn := { s.scn with training := t.scn.training } } ∧
    ∀ o, o ≠ Reg.SCN_PORT_STATUS p → t.rd o = s.rd o := by
  have hrest := h.rest
  rw [s.trainEnds_rest p pr] at hrest
  refine ⟨?_, ?_, fun o ho => (h.rd o ho).trans (s.rd_trainEnds p o pr ho)⟩
  · rw [hrest]
    simp
  · rw [hrest]

/-- The training of a port ends at a link it is permitted, or fails. -/
theorem exec_linkTrained_spec (s : State) (p : Fin 2) (link : Option (Nat × Nat)) (pr : Bool) (h : p.val ∈ s.scn.training) :
    ∃ t, exec (.linkTrained p link pr) s = .next t ∧ p.val ∉ t.scn.training ∧
      t.port p Reg.SCN_PORT_STATUS_PR_CAP = (if pr then 1 else 0) ∧
      t = { s with regs := t.regs, scn := { s.scn with training := t.scn.training } } ∧
      (∀ o, o ≠ Reg.SCN_PORT_STATUS p → t.rd o = s.rd o) ∧
      (∀ rate lanes, link = some (rate, lanes) → 1 ≤ rate → lanes ∈ [1, 2, 4] →
        rate ≤ Reg.SCN_PORT_CTL_MAX_RATE.get (s.inUse (Reg.SCN_PORT_CTL p)) →
        (Reg.SCN_PORT_CTL_MAX_LANES.get (s.inUse (Reg.SCN_PORT_CTL p)) ∈ [1, 2] →
          lanes ≤ Reg.SCN_PORT_CTL_MAX_LANES.get (s.inUse (Reg.SCN_PORT_CTL p))) →
        t.port p Reg.SCN_PORT_STATUS_TRAINED = 1 ∧ t.port p Reg.SCN_PORT_STATUS_RATE = rate ∧
        t.port p Reg.SCN_PORT_STATUS_LANES = lanes ∧ t.port p Reg.SCN_PORT_STATUS_CODING = (if 5 ≤ rate then 1 else 0) ∧
        t.port p Reg.SCN_PORT_STATUS_BW_ERR =
          (if streamFits s.trd.timing s.portMode s.depth rate lanes = true then 0 else 1)) ∧
      (link = none ∨ (∃ rate lanes, link = some (rate, lanes) ∧ s.linkAllowed p rate lanes = false) →
        t.port p Reg.SCN_PORT_STATUS_TRAIN_FAIL = 1 ∧
        t.port p Reg.SCN_PORT_STATUS_TRAINED = s.port p Reg.SCN_PORT_STATUS_TRAINED) := by
  obtain ⟨hcap, htrained⟩ := s.trainEnds_port p pr
  by_cases hup : ∃ rate lanes, link = some (rate, lanes) ∧ s.linkAllowed p rate lanes = true
  · obtain ⟨rate, lanes, rfl, hl⟩ := hup
    obtain ⟨hrate, hlanes⟩ := s.linkAllowed_lt p rate lanes hl
    have hfields := (s.trainEnds p pr).linkFound_fields p rate lanes hrate hlanes
    rw [s.depth_trainEnds p pr] at hfields
    obtain ⟨hgone, hrest, hrd⟩ := State.trainEnds_frame ((s.trainEnds p pr).linkFound_writes p rate lanes)
    refine ⟨_, exec_linkTrained_up s p rate lanes pr h hl, hgone, ?_, hrest, hrd, fun rate' lanes' hlink _ _ _ _ => ?_, fun hfail => ?_⟩
    · exact ((s.trainEnds p pr).linkFound_cap p rate lanes).trans hcap
    · cases hlink
      exact hfields
    · rcases hfail with hfail | ⟨rate', lanes', hlink, hfail⟩
      · exact nomatch hfail
      · cases hlink
        exact absurd hl (by rw [hfail]; exact Bool.false_ne_true)
  · have hno (rate lanes : Nat) (hlink : link = some (rate, lanes)) : s.linkAllowed p rate lanes = false :=
      Bool.eq_false_iff.mpr fun hl => hup ⟨rate, lanes, hlink, hl⟩
    have hw := (s.trainEnds p pr).setPort_writes p Reg.SCN_PORT_STATUS_TRAIN_FAIL 1
    obtain ⟨hgone, hrest, hrd⟩ := State.trainEnds_frame hw
    refine ⟨_, exec_linkTrained_fails s p link pr h hno, hgone, ?_, hrest, hrd, fun rate lanes hlink hr hn hmax htop => ?_, fun _ => ⟨?_, ?_⟩⟩
    · exact (State.fld_setFld_other _ _ _ _ _ (by decide)).trans hcap
    · exact absurd (s.linkAllowed_of_permitted p rate lanes hr hn hmax htop) (by rw [hno rate lanes hlink]; exact Bool.false_ne_true)
    · exact State.fld_setFld_self _ _ _ _ (by decide)
    · exact (State.fld_setFld_other _ _ _ _ _ (by decide)).trans htrained

/-! The UNDERRUN modes. -/

theorem exec_underrunModeChange_none (s : State) (h : s.scn.urNext = none) : exec .underrunModeChange s = .next s := by
  change execUnderrunModeChange s = _
  rw [execUnderrunModeChange, h]

theorem exec_underrunModeChange_waits (s : State) {f : Nat} (h : s.scn.urNext = some f) (hne : s.trd.now.frame ≠ f)
    (hafter : frameAfter s.trd.now.frame f = false) : exec .underrunModeChange s = .next s := by
  change execUnderrunModeChange s = _
  rw [execUnderrunModeChange, h]
  exact if_neg (by simp [hne, hafter])

/-- A port's settings with the UNDERRUN mode of another value. -/
def withUnderrun (v w : Word) : Word := Reg.SCN_PORT_CTL_UNDERRUN.put v (Reg.SCN_PORT_CTL_UNDERRUN.get w)

theorem underrun_withUnderrun (v w : Word) : Reg.SCN_PORT_CTL_UNDERRUN.get (withUnderrun v w) = Reg.SCN_PORT_CTL_UNDERRUN.get w := by
  rw [withUnderrun, Field.get_put _ _ _ (by decide)]
  exact Nat.mod_eq_of_lt (Field.get_lt _ _)

theorem portSettings_withUnderrun (v w : Word) : portSettings (withUnderrun v w) = portSettings v := by
  simp (disch := decide) only [portSettings, withUnderrun, Field.get_put_ne]

/-- Both ports' UNDERRUN modes are in use (R641). -/
def State.underrunTaken (s : State) : State :=
  (List.range 2).foldl (fun t p => t.setInUse (Reg.SCN_PORT_CTL p) (withUnderrun (t.inUse (Reg.SCN_PORT_CTL p)) (t.rd (Reg.SCN_PORT_CTL p))))
    (s.onScn fun c => { c with urNext := none })

theorem exec_underrunModeChange (s : State) {f : Nat} (h : s.scn.urNext = some f)
    (hdue : s.trd.now.frame = f ∨ frameAfter s.trd.now.frame f = true) : exec .underrunModeChange s = .next s.underrunTaken := by
  change execUnderrunModeChange s = _
  rw [execUnderrunModeChange, h]
  exact if_pos hdue

theorem State.underrunTaken_inUse (s : State) (p : Nat) (hp : p < 2) :
    s.underrunTaken.inUse (Reg.SCN_PORT_CTL p) = withUnderrun (s.inUse (Reg.SCN_PORT_CTL p)) (s.rd (Reg.SCN_PORT_CTL p)) := by
  have hother : Reg.SCN_PORT_CTL 1 ≠ Reg.SCN_PORT_CTL 0 := by decide
  change ((State.setInUse _ (Reg.SCN_PORT_CTL 0) _).setInUse (Reg.SCN_PORT_CTL 1) _).inUse _ = _
  obtain rfl | rfl : p = 0 ∨ p = 1 := by omega
  · rw [State.inUse_setInUse_ne _ _ _ _ hother.symm, State.inUse_setInUse_self]
    rfl
  · rw [State.inUse_setInUse_self, State.inUse_setInUse_ne _ _ _ _ hother]
    rfl

/-! AUX. -/

/-- From `s` to `t` the AUX transaction in progress has ended (R642, R643). -/
def State.ClosesAux (s t : State) (reply count : Nat) : Prop :=
  t.scn = { s.scn with aux := none } ∧ t = { s with regs := t.regs, scn := t.scn } ∧
  t.fld Reg.SCN_AUX_STATUS Reg.SCN_AUX_STATUS_BUSY = 0 ∧ t.fld Reg.SCN_AUX_STATUS Reg.SCN_AUX_STATUS_REPLY = reply ∧
  t.fld Reg.SCN_AUX_STATUS Reg.SCN_AUX_STATUS_COUNT = count

/-- What SCN_AUX_STATUS holds of an ended transaction. -/
theorem auxStatus_fields (reply count : Nat) (hr : reply < 4) (hc : count < 32) :
    let v := BitVec.ofNat 32 (reply % 4 * 2 + count % 32 * 256)
    Reg.SCN_AUX_STATUS_BUSY.get v = 0 ∧ Reg.SCN_AUX_STATUS_REPLY.get v = reply ∧ Reg.SCN_AUX_STATUS_COUNT.get v = count := by
  simp only [Field.get, Reg.SCN_AUX_STATUS_BUSY, Reg.SCN_AUX_STATUS_REPLY, Reg.SCN_AUX_STATUS_COUNT, BitVec.toNat_ofNat,
    Nat.shiftRight_eq_div_pow]
  omega

theorem State.auxEnd_closes {s u : State} (hu : u = { s with regs := u.regs }) (reply count : Nat) (hr : reply < 4) (hc : count < 32) :
    s.ClosesAux (u.auxEnd reply count) reply count := by
  obtain ⟨hbusy, hreply, hcount⟩ := auxStatus_fields reply count hr hc
  have hrd : (u.auxEnd reply count).rd Reg.SCN_AUX_STATUS = BitVec.ofNat 32 (reply % 4 * 2 + count % 32 * 256) := State.rd_wr_self _ _ _
  refine ⟨?_, ?_, ?_, ?_, ?_⟩
  · rw [hu]
    rfl
  · rw [hu]
    rfl
  · rw [State.fld, hrd, hbusy]
  · rw [State.fld, hrd, hreply]
  · rw [State.fld, hrd, hcount]

theorem State.rd_auxEnd (s : State) (reply count o : Nat) (h : o ≠ Reg.SCN_AUX_STATUS) : (s.auxEnd reply count).rd o = s.rd o :=
  State.rd_wr_ne _ _ _ _ h

theorem Reg.SCN_AUX_DATA_ne_SCN_AUX_STATUS (k : Nat) : Reg.SCN_AUX_DATA k ≠ Reg.SCN_AUX_STATUS := by
  simp only [Reg.SCN_AUX_DATA, Reg.SCN_AUX_STATUS]; omega

/-- AUX data where its registers read alike. -/
theorem State.auxData_congr {s t : State} (h : ∀ k, t.rd (Reg.SCN_AUX_DATA k) = s.rd (Reg.SCN_AUX_DATA k)) : t.auxData = s.auxData := by
  simp only [State.auxData, h]

theorem State.auxData_auxEnd (s : State) (reply count : Nat) : (s.auxEnd reply count).auxData = s.auxData :=
  State.auxData_congr fun k => s.rd_auxEnd reply count _ (Reg.SCN_AUX_DATA_ne_SCN_AUX_STATUS k)

theorem State.length_auxData (s : State) : s.auxData.length = 16 := by
  simp [State.auxData, List.range_succ, length_leBytes]

theorem leNat_lt (l : List Byte) : leNat l < 256 ^ l.length := by
  induction l with
  | nil => exact Nat.one_pos
  | cons b l ih =>
    have hb := b.isLt
    rw [leNat, List.length_cons, pow_succ]
    omega

theorem leBytes_leNat (l : List Byte) : leBytes l.length (leNat l) = l := by
  induction l with
  | nil => rfl
  | cons b l ih =>
    have hb := b.isLt
    have hlow : BitVec.ofNat 8 (b.toNat + 256 * leNat l) = b := by
      apply BitVec.eq_of_toNat_eq
      rw [BitVec.toNat_ofNat]
      omega
    rw [List.length_cons, leBytes, leNat, hlow, show (b.toNat + 256 * leNat l) / 256 = leNat l by omega, ih]

/-- A word of bytes, read back as bytes. -/
theorem leBytes_word (d : List Byte) (i : Nat) (h : i + 4 ≤ d.length) :
    leBytes 4 (BitVec.ofNat 32 (bytesAt d i 4)).toNat = (d.drop i).take 4 := by
  have hlen : ((d.drop i).take 4).length = 4 := by rw [List.length_take, List.length_drop]; omega
  have hlt := leNat_lt ((d.drop i).take 4)
  rw [hlen] at hlt
  rw [bytesAt, BitVec.toNat_ofNat, show 2 ^ 32 = 256 ^ 4 from rfl, Nat.mod_eq_of_lt hlt]
  have hbytes := leBytes_leNat ((d.drop i).take 4)
  rwa [hlen] at hbytes

/-- The data registers take 16 bytes. -/
def State.putAuxData (s : State) (d : List Byte) : State :=
  (List.range 4).foldl (fun t k => t.wr (Reg.SCN_AUX_DATA k) (BitVec.ofNat 32 (bytesAt d (4 * k) 4))) s

theorem State.rd_putAuxData (s : State) (d : List Byte) (k : Nat) (h : k < 4) :
    (s.putAuxData d).rd (Reg.SCN_AUX_DATA k) = BitVec.ofNat 32 (bytesAt d (4 * k) 4) := by
  interval_cases k <;> simp [State.putAuxData, List.range_succ, State.rd_wr, Reg.SCN_AUX_DATA]

theorem State.auxData_putAuxData (s : State) (d : List Byte) (h : d.length = 16) : (s.putAuxData d).auxData = d := by
  have hword (k : Nat) (hk : k < 4) : leBytes 4 ((s.putAuxData d).rd (Reg.SCN_AUX_DATA k)).toNat = (d.drop (4 * k)).take 4 := by
    rw [s.rd_putAuxData d k hk, leBytes_word d (4 * k) (by omega)]
  have hlast : d.drop 16 = [] := List.drop_of_length_le h.le
  calc (s.putAuxData d).auxData
    _ = d.take 4 ++ ((d.drop 4).take 4 ++ ((d.drop 8).take 4 ++ (d.drop 12).take 4)) := by
        simp [State.auxData, List.range_succ, hword]
    _ = d := by
        have hsplit (i : Nat) : (d.drop i).take 4 ++ d.drop (i + 4) = d.drop i := by rw [← List.drop_drop, List.take_append_drop]
        have h12 := hsplit 12
        rw [hlast, List.append_nil] at h12
        rw [h12, hsplit 8, hsplit 4]
        exact hsplit 0

theorem State.putAuxData_writes (s : State) (d : List Byte) : s.WritesIn (fun o => ∃ k, o = Reg.SCN_AUX_DATA k) (s.putAuxData d) :=
  .foldl _ _ (fun u k _ => .wr (.refl _ u) _ _ ⟨k, rfl⟩) (.refl _ s)

theorem exec_auxTransaction_busy (s : State) (h : s.scn.aux ≠ none) : exec .auxTransaction s = .next s :=
  congrArg Host.Outcome.next (if_pos (Option.isSome_iff_ne_none.mpr h))

/-- The transaction that SCN_AUX_CTL, SCN_AUX_ADDR and SCN_AUX_DATA describe. -/
def State.auxAsked (s : State) : AuxTx :=
  { port := s.fld Reg.SCN_AUX_CTL Reg.SCN_AUX_CTL_PORT, cmd := s.fld Reg.SCN_AUX_CTL Reg.SCN_AUX_CTL_CMD,
    addr := s.fld Reg.SCN_AUX_ADDR Reg.SCN_AUX_ADDR_ADDR, data := s.auxData.take (s.fld Reg.SCN_AUX_CTL Reg.SCN_AUX_CTL_LEN + 1),
    len := s.fld Reg.SCN_AUX_CTL Reg.SCN_AUX_CTL_LEN + 1, defers := 0, sent := s.trd.time }

theorem exec_auxTransaction_idle (s : State) (h : s.scn.aux = none) : exec .auxTransaction s =
    .next (((s.onScn fun c => { c with aux := some s.auxAsked }).setFld Reg.SCN_AUX_STATUS Reg.SCN_AUX_STATUS_BUSY 1).emit 0
      (.auxRequest s.auxAsked.port s.auxAsked.cmd s.auxAsked.addr s.auxAsked.len s.auxAsked.data)) :=
  congrArg Host.Outcome.next (if_neg (by simp [h]))

theorem exec_auxReply_none (s : State) (r : AuxReply) (h : s.scn.aux = none) : exec (.auxReply r) s = .next s := by
  change execAuxReply r s = _
  rw [execAuxReply, h]

theorem exec_auxTimeout_none (s : State) (h : s.scn.aux = none) : exec .auxTimeout s = .next s := by
  change execAuxTimeout s = _
  rw [execAuxTimeout, h]

/-- The 16 bytes of data after an ACK of `n` bytes. -/
def State.auxTaken (s : State) (n : Nat) (data : List Byte) : List Byte := (data.take n ++ s.auxData.drop (data.take n).length).take 16

theorem exec_auxReply_ack (s : State) {x : AuxTx} (h : s.scn.aux = some x) (n : Nat) (data : List Byte) :
    exec (.auxReply (.ack n data)) s =
      .next ((if x.cmd % 2 = 1 then s.putAuxData (s.auxTaken (min n x.len) data) else s).auxEnd 0 (min n x.len)) := by
  change execAuxReply (.ack n data) s = _
  rw [execAuxReply, h]
  rfl

theorem exec_auxReply_nack (s : State) {x : AuxTx} (h : s.scn.aux = some x) : exec (.auxReply .nack) s = .next (s.auxEnd 1 0) := by
  change execAuxReply .nack s = _
  rw [execAuxReply, h]

theorem exec_auxReply_defer (s : State) {x : AuxTx} (h : s.scn.aux = some x) : exec (.auxReply .defer) s =
    .next (if 7 ≤ x.defers then s.auxEnd 2 0
      else (s.onScn fun c => { c with aux := some { x with defers := x.defers + 1, sent := s.trd.time } }).emit 0
        (.auxRequest x.port x.cmd x.addr x.len x.data)) := by
  change execAuxReply .defer s = _
  rw [execAuxReply, h]

theorem exec_auxTimeout_some (s : State) {x : AuxTx} (h : s.scn.aux = some x) :
    exec .auxTimeout s = .next (if x.sent + 400 * usTime ≤ s.trd.time then s.auxEnd 3 0 else s) := by
  change execAuxTimeout s = _
  rw [execAuxTimeout, h]

/-- The data of an ACK comes before what the registers hold beyond it. -/
theorem State.auxTaken_eq (s : State) (n len : Nat) (data : List Byte) (hlen : len ≤ 16) (hdata : data.length = n) (hn : n ≤ len) :
    s.auxTaken (min n len) data = data ++ s.auxData.drop n ∧ (data ++ s.auxData.drop n).length = 16 := by
  have hall : (data ++ s.auxData.drop n).length = 16 := by
    rw [List.length_append, List.length_drop, s.length_auxData]
    omega
  refine ⟨?_, hall⟩
  rw [State.auxTaken, Nat.min_eq_left hn, List.take_of_length_le hdata.le, hdata, List.take_of_length_le hall.le]

theorem exec_auxReply_ack_spec (s : State) {x : AuxTx} (h : s.scn.aux = some x) (n : Nat) (data : List Byte) (hlen : x.len ≤ 16) :
    ∃ t, exec (.auxReply (.ack n data)) s = .next t ∧ s.ClosesAux t 0 (min n x.len) ∧
      (x.cmd % 2 = 0 → ∀ o, o ≠ Reg.SCN_AUX_STATUS → t.rd o = s.rd o) ∧
      (x.cmd % 2 = 1 → data.length = n → n ≤ x.len → t.auxData = data ++ s.auxData.drop n) := by
  refine ⟨_, exec_auxReply_ack s h n data, State.auxEnd_closes ?_ _ _ (by decide) (by omega), fun hwrite o ho => ?_, fun hread hdata hn => ?_⟩
  · split
    · exact (s.putAuxData_writes _).rest
    · rfl
  · rw [State.rd_auxEnd _ _ _ _ ho, if_neg (by omega)]
  · obtain ⟨htaken, hall⟩ := s.auxTaken_eq n x.len data hlen hdata hn
    rw [State.auxData_auxEnd, if_pos hread, htaken, State.auxData_putAuxData _ _ hall]

/-! The obligation. -/

theorem exec_auxTransaction_spec (s : State) (h : s.scn.aux = none) : ∃ t x, exec .auxTransaction s = .next t ∧ t.scn = { s.scn with aux := some x } ∧
    x.port = s.fld Reg.SCN_AUX_CTL Reg.SCN_AUX_CTL_PORT ∧ x.cmd = s.fld Reg.SCN_AUX_CTL Reg.SCN_AUX_CTL_CMD ∧
    x.addr = s.fld Reg.SCN_AUX_ADDR Reg.SCN_AUX_ADDR_ADDR ∧ x.len = s.fld Reg.SCN_AUX_CTL Reg.SCN_AUX_CTL_LEN + 1 ∧
    x.data = s.auxData.take x.len ∧ x.defers = 0 ∧ x.sent = s.trd.time ∧ t.fld Reg.SCN_AUX_STATUS Reg.SCN_AUX_STATUS_BUSY = 1 ∧
    t.out = s.out ++ [⟨s.trd.cclk, .auxRequest x.port x.cmd x.addr x.len x.data⟩] ∧
    t = { s with regs := t.regs, out := t.out, scn := t.scn } ∧ ∀ o, o ≠ Reg.SCN_AUX_STATUS → t.rd o = s.rd o := by
  refine ⟨_, s.auxAsked, exec_auxTransaction_idle s h, rfl, rfl, rfl, rfl, rfl, rfl, rfl, rfl, ?_, rfl, rfl, fun o ho => ?_⟩
  · rw [State.emit_fld]
    exact State.fld_setFld_self _ _ _ _ (by decide)
  · rw [State.emit_rd, State.rd_setFld_ne _ _ _ _ _ ho, State.onScn_rd]

/-- Settles O50: a training by its registers, the loss of a sink by the exit from Panel Replay, and AUX by the word that ends a transaction. -/
theorem portsTrainAndTalk : Obligations.PortsTrainAndTalk := by
  intro s
  refine ⟨fun p => ?_, exec_underrunModeChange_none s, fun f h => ⟨exec_underrunModeChange_waits s h, fun hdue => ?_⟩, exec_auxTransaction_busy s,
    exec_auxTransaction_spec s, fun r h => ⟨exec_auxReply_none s r h, exec_auxTimeout_none s h⟩, fun x h => ?_⟩
  · intro trains
    exact ⟨exec_hpdRise_spec s p, exec_hpdFall_spec s p, exec_hpdIrq_spec s p, exec_retrain_noHpd s p,
      fun hhpd => ⟨exec_retrain_spec s p hhpd, exec_hpdIrq_lost s p hhpd⟩,
      fun link pr => ⟨exec_linkTrained_idle s p link pr, exec_linkTrained_spec s p link pr⟩⟩
  · refine ⟨_, exec_underrunModeChange s h hdue, rfl, rfl, fun p hp => ?_⟩
    rw [s.underrunTaken_inUse p hp]
    exact ⟨underrun_withUnderrun _ _, portSettings_withUnderrun _ _⟩
  · intro closes
    refine ⟨fun n data => exec_auxReply_ack_spec s h n data, ⟨_, exec_auxReply_nack s h, ?_, s.auxData_auxEnd 1 0⟩, fun hlast => ?_, fun hagain => ?_,
      fun hearly => ?_, fun hlate => ?_⟩
    · exact State.auxEnd_closes rfl 1 0 (by decide) (by decide)
    · refine ⟨_, (exec_auxReply_defer s h).trans (congrArg _ (if_pos hlast)), State.auxEnd_closes rfl 2 0 (by decide) (by decide)⟩
    · exact ⟨_, (exec_auxReply_defer s h).trans (congrArg _ (if_neg (by omega))), rfl, rfl, rfl⟩
    · rw [exec_auxTimeout_some s h, if_neg (by omega)]
    · exact ⟨_, (exec_auxTimeout_some s h).trans (congrArg _ (if_pos hlate)), State.auxEnd_closes rfl 3 0 (by decide) (by decide)⟩

end Sys2Proof.Machine
end

section
/-! PROOF. Scan-out: timings, the lines sent and read back, the freeze detector and Panel Replay (R626 to R632, R640, R644, R654 to R666). -/

namespace Sys2Proof.Machine

/-! APPLY. -/

/-- A write of APPLY before it leaves Panel Replay (R628, R629). -/
def State.applied (s : State) : State :=
  if legalTiming s.timingRegs (Reg.SCN_CFG_MODE.get (s.rd Reg.SCN_CFG) % 3) && s.applyFits s.timingRegs then
    (s.setFld Reg.SCN_STATUS Reg.SCN_STATUS_TIM_PEND 1).onScn fun c => { c with
      timNext := some (s.timingRegs, s.nextFrame)
      blank := if c.blank.contains s.nextFrame then c.blank else c.blank ++ [s.nextFrame] }
  else s.setFld Reg.SCN_STATUS Reg.SCN_STATUS_TIM_ERR 1

theorem exec_apply (s : State) : exec .apply s = .next s.applied.prExit := by
  change Host.Outcome.next s.landApply = _
  unfold State.landApply State.applied
  extract_lets t f
  split <;> rfl

theorem State.applied_accepts (s : State) (h : legalTiming s.timingRegs (Reg.SCN_CFG_MODE.get (s.rd Reg.SCN_CFG) % 3) = true ∧
    s.applyFits s.timingRegs = true) : s.applied.fld Reg.SCN_STATUS Reg.SCN_STATUS_TIM_PEND = 1 ∧
    s.applied.scn.timNext = some (s.timingRegs, s.nextFrame) ∧ s.nextFrame ∈ s.applied.scn.blank ∧
    s.applied.fld Reg.SCN_STATUS Reg.SCN_STATUS_TIM_ERR = s.fld Reg.SCN_STATUS Reg.SCN_STATUS_TIM_ERR := by
  rw [State.applied, if_pos (by simpa using h)]
  refine ⟨?_, rfl, ?_, ?_⟩
  · rw [State.onScn_fld]
    exact State.fld_setFld_self _ _ _ _ (by decide)
  · rw [State.onScn_scn]
    dsimp only
    split
    · next hin => exact List.contains_iff_mem.mp hin
    · simp
  · rw [State.onScn_fld, State.fld_setFld_other _ _ _ _ _ (by decide)]

theorem State.applied_refuses (s : State) (h : ¬(legalTiming s.timingRegs (Reg.SCN_CFG_MODE.get (s.rd Reg.SCN_CFG) % 3) = true ∧
    s.applyFits s.timingRegs = true)) : s.applied = s.setFld Reg.SCN_STATUS Reg.SCN_STATUS_TIM_ERR 1 := if_neg (by simpa using h)

theorem State.applied_frame (s : State) : s.applied = { s with regs := s.applied.regs, scn := s.applied.scn } ∧
    s.applied.scn = { s.scn with timNext := s.applied.scn.timNext, blank := s.applied.scn.blank } ∧
    ∀ o, o ≠ Reg.SCN_STATUS → s.applied.rd o = s.rd o := by
  unfold State.applied
  split
  · exact ⟨rfl, rfl, fun o ho => by rw [State.onScn_rd, State.rd_setFld_ne _ _ _ _ _ ho]⟩
  · exact ⟨rfl, rfl, fun o ho => State.rd_setFld_ne _ _ _ _ _ ho⟩

theorem exec_apply_spec (s : State) :
    let ok := legalTiming s.timingRegs (Reg.SCN_CFG_MODE.get (s.rd Reg.SCN_CFG) % 3) = true ∧ s.applyFits s.timingRegs = true
    ∃ t, exec .apply s = .next t ∧
      (ok → t.fld Reg.SCN_STATUS Reg.SCN_STATUS_TIM_PEND = 1 ∧ t.scn.timNext = some (s.timingRegs, s.nextFrame) ∧ s.nextFrame ∈ t.scn.blank ∧
        t.fld Reg.SCN_STATUS Reg.SCN_STATUS_TIM_ERR = s.fld Reg.SCN_STATUS Reg.SCN_STATUS_TIM_ERR) ∧
      (¬ok → t.fld Reg.SCN_STATUS Reg.SCN_STATUS_TIM_ERR = 1 ∧ t.scn.timNext = s.scn.timNext ∧ t.scn.blank = s.scn.blank) ∧
      t.scn = { s.scn with timNext := t.scn.timNext, blank := t.scn.blank, prWaking := t.scn.prWaking } ∧
      t = { s with regs := t.regs, scn := t.scn, pwr := t.pwr, looms := t.looms } ∧
      (∀ o, o ∉ [Reg.SCN_STATUS, Reg.SCN_PR_STATUS, Reg.PWR_STATUS] → t.rd o = s.rd o) ∧
      (s.prState = 1 ∨ s.prState = 2 → t.prState = 3 ∧ t.scn.prWaking = true) ∧
      (s.prState = 0 ∨ s.prState = 3 → t = { s with regs := t.regs, scn := t.scn } ∧ ∀ o, o ≠ Reg.SCN_STATUS → t.rd o = s.rd o) := by
  intro ok
  have haccepts := s.applied_accepts
  have hrefuses (h : ¬ok) : s.applied.fld Reg.SCN_STATUS Reg.SCN_STATUS_TIM_ERR = 1 ∧ s.applied.scn.timNext = s.scn.timNext ∧
      s.applied.scn.blank = s.scn.blank := by
    rw [s.applied_refuses h]
    exact ⟨State.fld_setFld_self _ _ _ _ (by decide), rfl, rfl⟩
  obtain ⟨hrest, hscn, hrd⟩ := s.applied_frame
  have hreplay : s.applied.prState = s.prState := State.fld_of_rd (hrd _ (by decide)) _
  obtain ⟨hrest', hscn', hrd'⟩ := s.applied.prExit_kept
  have hin := s.applied.prExit_of_in
  have hout := s.applied.prExit_of_out
  rw [hreplay] at hin hout
  rw [exec_apply]
  generalize s.applied = u at *
  generalize u.prExit = t at *
  have hstatus (g : Field) : t.fld Reg.SCN_STATUS g = u.fld Reg.SCN_STATUS g := State.fld_of_rd (hrd' _ (by decide)) g
  have htim : t.scn.timNext = u.scn.timNext := by rw [hscn']
  have hblank : t.scn.blank = u.scn.blank := by rw [hscn']
  refine ⟨t, rfl, ?_, ?_, by rw [hscn', hscn], by rw [hrest', hrest], fun o ho => ?_, fun h => ⟨(hin h).state, by rw [(hin h).scn]⟩, fun h => ?_⟩
  · rw [hstatus, hstatus, htim, hblank]
    exact haccepts
  · rw [hstatus, htim, hblank]
    exact hrefuses
  · obtain ⟨hne, hothers⟩ : o ≠ Reg.SCN_STATUS ∧ o ∉ [Reg.SCN_PR_STATUS, Reg.PWR_STATUS] := by simpa using ho
    exact (hrd' o hothers).trans (hrd o hne)
  · rw [hout h]
    exact ⟨hrest, hrd⟩

/-! A timing and the ports' settings come into use. -/

/-- A port's pending settings are in use, with its UNDERRUN mode as it was (R640, R641). -/
def State.takePortSettings (s : State) (p : Nat) : State :=
  s.setInUse (Reg.SCN_PORT_CTL p) (withUnderrun (s.rd (Reg.SCN_PORT_CTL p)) (s.inUse (Reg.SCN_PORT_CTL p)))

theorem State.inUse_takePortSettings_self (s : State) (p : Nat) :
    (s.takePortSettings p).inUse (Reg.SCN_PORT_CTL p) = withUnderrun (s.rd (Reg.SCN_PORT_CTL p)) (s.inUse (Reg.SCN_PORT_CTL p)) :=
  s.inUse_setInUse_self _ _

theorem State.inUse_takePortSettings_ne (s : State) (p o : Nat) (h : o ≠ Reg.SCN_PORT_CTL p) : (s.takePortSettings p).inUse o = s.inUse o :=
  s.inUse_setInUse_ne _ _ _ h

@[simp] theorem State.rd_takePortSettings (s : State) (p o : Nat) : (s.takePortSettings p).rd o = s.rd o := rfl

theorem State.takePorts_eq (s : State) : s.takePorts = ((s.setInUse Reg.SCN_CFG (s.rd Reg.SCN_CFG)).takePortSettings 0).takePortSettings 1 := rfl

theorem State.takePorts_spec (s : State) : s.takePorts = { s with scn := { s.scn with inUse := s.takePorts.scn.inUse } } ∧
    s.takePorts.inUse Reg.SCN_CFG = s.rd Reg.SCN_CFG ∧
    ∀ p, p < 2 → s.takePorts.inUse (Reg.SCN_PORT_CTL p) = withUnderrun (s.rd (Reg.SCN_PORT_CTL p)) (s.inUse (Reg.SCN_PORT_CTL p)) := by
  rw [s.takePorts_eq]
  refine ⟨rfl, ?_, fun p hp => ?_⟩
  · rw [State.inUse_takePortSettings_ne _ _ _ (by decide), State.inUse_takePortSettings_ne _ _ _ (by decide), State.inUse_setInUse_self]
  · obtain rfl | rfl : p = 0 ∨ p = 1 := by omega
    · rw [State.inUse_takePortSettings_ne _ _ _ (by decide), State.inUse_takePortSettings_self, State.inUse_setInUse_ne _ _ _ _ (by decide), State.rd_setInUse]
    · rw [State.inUse_takePortSettings_self, State.inUse_takePortSettings_ne _ _ _ (by decide), State.inUse_setInUse_ne _ _ _ _ (by decide), State.rd_takePortSettings,
        State.rd_setInUse]

/-- From `s` to `t` some of the ports may have begun to train. -/
structure State.PortsTrain (s t : State) : Prop where
  rest : t = { s with regs := t.regs, out := t.out, scn := { s.scn with training := t.scn.training } }
  rd : ∀ o, (∀ p, p < 2 → ¬ trainWrites p o) → t.rd o = s.rd o
  hpd : ∀ p, t.port p Reg.SCN_PORT_STATUS_HPD = s.port p Reg.SCN_PORT_STATUS_HPD
  training : ∀ q ∈ s.scn.training, q ∈ t.scn.training

theorem State.PortsTrain.refl (s : State) : s.PortsTrain s := ⟨rfl, fun _ _ => rfl, fun _ => rfl, fun _ h => h⟩

theorem State.PortsTrain.trans {s t u : State} (h : s.PortsTrain t) (h' : t.PortsTrain u) : s.PortsTrain u :=
  ⟨by rw [h'.rest, h.rest], fun o ho => (h'.rd o ho).trans (h.rd o ho), fun p => (h'.hpd p).trans (h.hpd p),
    fun q hq => h'.training q (h.training q hq)⟩

theorem State.portActive_congr {s t : State} (h : t.scn.inUse = s.scn.inUse) (p : Nat) : t.portActive p = s.portActive p := by
  simp only [State.portActive, State.portMode, State.inUse, h]

theorem Reg.SCN_PORT_STATUS_inj {p q : Nat} : Reg.SCN_PORT_STATUS p = Reg.SCN_PORT_STATUS q ↔ p = q := by
  simp only [Reg.SCN_PORT_STATUS]; omega

theorem State.startTraining_hpd (s : State) (p q : Nat) :
    (s.startTraining p).port q Reg.SCN_PORT_STATUS_HPD = s.port q Reg.SCN_PORT_STATUS_HPD := by
  by_cases hq : q = p
  · subst hq
    rcases s.fld_zero_or_one (Reg.SCN_PORT_STATUS q) Reg.SCN_PORT_STATUS_HPD rfl with hhpd | hhpd
    · rw [s.startTraining_of_noHpd q hhpd]
    · rw [s.startTraining_port q _ hhpd, s.trainRegs_port]
      simp (disch := decide) only [trainFields, List.foldl, State.fld_setFld_other, State.port]
  · refine State.fld_of_rd (s.rd_startTraining p _ ?_) _
    rintro (h | h)
    · exact hq (Reg.SCN_PORT_STATUS_inj.mp h)
    · exact (Reg.SCN_TRAIN_CNT_ne_SCN_PORT_STATUS p q) h.symm

theorem State.portsTrain_startTraining (s : State) (p : Nat) (hp : p < 2) : s.PortsTrain (s.startTraining p) := by
  refine ⟨?_, fun o ho => s.rd_startTraining p o (ho p hp), s.startTraining_hpd p, ?_⟩
  all_goals
    rcases s.fld_zero_or_one (Reg.SCN_PORT_STATUS p) Reg.SCN_PORT_STATUS_HPD rfl with hhpd | hhpd
  · rw [s.startTraining_of_noHpd p hhpd]
  · obtain ⟨-, -, -, -, hrest⟩ := s.startTraining_trains p hhpd
    exact hrest
  · rw [s.startTraining_of_noHpd p hhpd]
    exact fun _ h => h
  · obtain ⟨-, -, htraining, -⟩ := s.startTraining_trains p hhpd
    exact fun q hq => (htraining q).mpr (.inl hq)

/-- Of the ports that changed, those that are active and have a sink train again (R640). -/
theorem State.retrainPorts_spec (ps : List Nat) (hps : ∀ p ∈ ps, p < 2) (s : State) : s.PortsTrain (s.retrainPorts ps) ∧
    ∀ p ∈ ps, s.portActive p = true → s.port p Reg.SCN_PORT_STATUS_HPD = 1 → p ∈ (s.retrainPorts ps).scn.training := by
  induction ps generalizing s with
  | nil => exact ⟨.refl s, fun p hp => absurd hp List.not_mem_nil⟩
  | cons p ps ih =>
    have hfirst : s.PortsTrain (if s.portActive p then s.startTraining p else s) := by
      split
      · exact s.portsTrain_startTraining p (hps p List.mem_cons_self)
      · exact .refl s
    obtain ⟨hlater, hall⟩ := ih (fun q hq => hps q (List.mem_cons_of_mem _ hq)) (if s.portActive p then s.startTraining p else s)
    refine ⟨hfirst.trans hlater, fun q hq hactive hhpd => ?_⟩
    rcases List.mem_cons.mp hq with rfl | hq
    · refine hlater.training q ?_
      obtain ⟨-, -, htraining, -⟩ := s.startTraining_trains q hhpd
      rw [if_pos hactive]
      exact (htraining q).mpr (.inr rfl)
    · refine hall q hq ?_ ((hfirst.hpd q).trans hhpd)
      rw [State.portActive_congr (s := s) (by rw [hfirst.rest])]
      exact hactive

theorem State.portsFrameStart_writes (s : State) :
    s.WritesIn (fun o => o ∈ [Reg.SCN_PORT_STATUS 0, Reg.SCN_PORT_STATUS 1]) s.portsFrameStart := by
  refine .foldl _ _ (fun u p hp => ?_) (.refl _ s)
  have hport : Reg.SCN_PORT_STATUS p ∈ [Reg.SCN_PORT_STATUS 0, Reg.SCN_PORT_STATUS 1] := by
    obtain rfl | rfl : p = 0 ∨ p = 1 := by have := List.mem_range.mp hp; omega
    · exact List.mem_cons_self
    · exact List.mem_cons_of_mem _ List.mem_cons_self
  exact .setFld (.setFld (.refl _ u) _ _ _ hport) _ _ _ hport

theorem exec_timingChange_none (s : State) (h : s.scn.timNext = none) : exec .timingChange s = .next s := by
  change execTimingChange s = _
  rw [execTimingChange, h]

/-- The timing `tm` and the ports' settings are in use. -/
def State.timingInUse (s : State) (tm : Timing) : State :=
  (((s.takeTiming tm).onTrd fun x => { x with restart := true }).onScn fun c => { c with timNext := none }).takePorts

/-- The refresh periods follow, and an admission starts (R356, R451). -/
def State.timingFollowed (s : State) : State := (s.setRefresh.setFld Reg.SCN_STATUS Reg.SCN_STATUS_TIM_PEND 0).startAdmission

theorem exec_timingChange_due (s : State) {tm : Timing} {f : Nat} (h : s.scn.timNext = some (tm, f))
    (hf : s.trd.now.frame = f ∨ frameAfter s.trd.now.frame f = true) (hl : s.trd.now.line = 0) (hp : s.trd.now.pick = 0) :
    exec .timingChange s =
      .next (((s.timingInUse tm).timingFollowed.retrainPorts ((List.range 2).filter s.portChanges)).portsFrameStart) := by
  change execTimingChange s = _
  rw [execTimingChange, h]
  exact if_pos ⟨hf, hl, hp⟩

theorem State.timingFollowed_writes (s : State) :
    s.WritesIn (fun o => o ∈ [Reg.SCN_STATUS, Reg.DMC_REF_CFG, Reg.PIC_STATUS]) s.timingFollowed :=
  .setFld (.setFld (.setFld (.setFld (.refl _ s) _ _ _ (by decide)) _ _ _ (by decide)) _ _ _ (by decide)) _ _ _ (by decide)

theorem State.timingFollowed_fields (s : State) : s.timingFollowed.fld Reg.SCN_STATUS Reg.SCN_STATUS_TIM_PEND = 0 ∧
    s.timingFollowed.bit Reg.PIC_STATUS Reg.PIC_STATUS_ADMIT_BUSY = true := by
  refine ⟨?_, ?_⟩
  · rw [State.timingFollowed, State.startAdmission, State.fld_setFld_ne _ _ _ _ _ _ (by decide)]
    exact State.fld_setFld_self _ _ _ _ (by decide)
  · rw [State.bit, State.timingFollowed, State.startAdmission, State.fld_setFld_self _ _ _ _ (by decide)]
    rfl

theorem State.timingInUse_spec (s : State) (tm : Timing) : let t := s.timingInUse tm
    t = { s with trd := { (s.takeTiming tm).trd with restart := true }, scn := { s.scn with timNext := none, inUse := t.scn.inUse } } ∧
    (∀ o, t.rd o = s.rd o) ∧ t.portMode = Reg.SCN_CFG_MODE.get (s.rd Reg.SCN_CFG) % 3 ∧
    ∀ p, p < 2 → t.inUse (Reg.SCN_PORT_CTL p) = withUnderrun (s.rd (Reg.SCN_PORT_CTL p)) (s.inUse (Reg.SCN_PORT_CTL p)) := by
  obtain ⟨hrest, hmode, hports⟩ :=
    (((s.takeTiming tm).onTrd fun x => { x with restart := true }).onScn fun c => { c with timNext := none }).takePorts_spec
  refine ⟨hrest, fun o => ?_, ?_, hports⟩
  · exact State.rd_congr (by rw [State.timingInUse, hrest]; rfl) o
  · rw [State.portMode, State.timingInUse, hmode]
    rfl

/-- The registers of both ports that a training and a frame start write. -/
def portWrites : List Nat := [Reg.SCN_PORT_STATUS 0, Reg.SCN_PORT_STATUS 1, Reg.SCN_TRAIN_CNT 0, Reg.SCN_TRAIN_CNT 1]

theorem mem_portWrites {p o : Nat} (hp : p < 2) (h : trainWrites p o) : o ∈ portWrites := by
  rcases h with rfl | rfl <;> interval_cases p <;> decide

theorem portStatus_notMem_follows (p : Nat) (hp : p < 2) :
    Reg.SCN_PORT_STATUS p ∉ [Reg.SCN_STATUS, Reg.DMC_REF_CFG, Reg.PIC_STATUS] := by
  interval_cases p <;> decide

theorem exec_timingChange_spec (s : State) (tm : Timing) (f : Nat) (h : s.scn.timNext = some (tm, f))
    (hf : s.trd.now.frame = f ∨ frameAfter s.trd.now.frame f = true) (hl : s.trd.now.line = 0) (hp : s.trd.now.pick = 0) :
    ∃ t, exec .timingChange s = .next t ∧ t.trd.timing = tm ∧ t.trd = { (s.takeTiming tm).trd with restart := true } ∧
      (∀ o, o ∉ [Reg.SCN_STATUS, Reg.DMC_REF_CFG, Reg.PIC_STATUS, Reg.SCN_PORT_STATUS 0, Reg.SCN_PORT_STATUS 1, Reg.SCN_TRAIN_CNT 0,
        Reg.SCN_TRAIN_CNT 1] → t.rd o = s.rd o) ∧ t.scn.timNext = none ∧
      t.fld Reg.SCN_STATUS Reg.SCN_STATUS_TIM_PEND = 0 ∧ t.bit Reg.PIC_STATUS Reg.PIC_STATUS_ADMIT_BUSY = true ∧
      t.portMode = Reg.SCN_CFG_MODE.get (s.rd Reg.SCN_CFG) % 3 ∧
      (∀ p, p < 2 → portSettings (t.inUse (Reg.SCN_PORT_CTL p)) = portSettings (s.rd (Reg.SCN_PORT_CTL p)) ∧
        Reg.SCN_PORT_CTL_UNDERRUN.get (t.inUse (Reg.SCN_PORT_CTL p)) = Reg.SCN_PORT_CTL_UNDERRUN.get (s.inUse (Reg.SCN_PORT_CTL p)) ∧
        (s.portChanges p = true → t.portActive p = true → s.port p Reg.SCN_PORT_STATUS_HPD = 1 → p ∈ t.scn.training)) ∧
      t = { s with regs := t.regs, out := t.out, trd := t.trd, scn := t.scn } := by
  obtain ⟨huse, hrd, hmode, hports⟩ := s.timingInUse_spec tm
  have hexec := exec_timingChange_due s h hf hl hp
  generalize s.timingInUse tm = u at *
  have hfollow := u.timingFollowed_writes
  obtain ⟨hpend, hbusy⟩ := u.timingFollowed_fields
  generalize u.timingFollowed = v at *
  obtain ⟨htrain, hall⟩ := v.retrainPorts_spec ((List.range 2).filter s.portChanges) fun p hp => List.mem_range.mp (List.mem_filter.mp hp).1
  generalize v.retrainPorts _ = w at *
  have hlast := w.portsFrameStart_writes
  generalize w.portsFrameStart = t at *
  have hin : t.scn.inUse = u.scn.inUse := by rw [hlast.rest, htrain.rest, hfollow.rest]
  have hactive (p : Nat) : t.portActive p = v.portActive p := State.portActive_congr (by rw [hin, hfollow.rest]) p
  have hkept (o : Nat) (ho : o ∉ portWrites) : t.rd o = v.rd o :=
    (hlast.rd o fun hm => ho (by simp only [portWrites, List.mem_cons] at hm ⊢; tauto)).trans
      (htrain.rd o fun p hp hw => ho (mem_portWrites hp hw))
  refine ⟨t, hexec, ?_, ?_, fun o ho => ?_, ?_, ?_, ?_, ?_, fun p hp => ⟨?_, ?_, fun hc ha hh => ?_⟩, ?_⟩
  · rw [hlast.rest, htrain.rest, hfollow.rest, huse]
    rfl
  · rw [hlast.rest, htrain.rest, hfollow.rest, huse]
  · have happend : o ∉ [Reg.SCN_STATUS, Reg.DMC_REF_CFG, Reg.PIC_STATUS] ++ portWrites := ho
    obtain ⟨hfollows, hothers⟩ := not_or.mp (List.mem_append.not.mp happend)
    exact (hkept o hothers).trans ((hfollow.rd o hfollows).trans (hrd o))
  · rw [hlast.rest, htrain.rest, hfollow.rest, huse]
  · rw [State.fld_of_rd (hkept _ (by decide)), hpend]
  · rw [State.bit, State.fld_of_rd (hkept _ (by decide)), ← State.bit, hbusy]
  · rw [← hmode, State.portMode, State.portMode, State.inUse, State.inUse, hin]
  · rw [State.inUse, hin, ← State.inUse, hports p hp, portSettings_withUnderrun]
  · rw [State.inUse, hin, ← State.inUse, hports p hp, underrun_withUnderrun]
  · have htrained := hall p (List.mem_filter.mpr ⟨List.mem_range.mpr hp, hc⟩) ((hactive p).symm.trans ha) ?_
    · rw [hlast.rest]
      exact htrained
    · have hstatus : v.rd (Reg.SCN_PORT_STATUS p) = s.rd (Reg.SCN_PORT_STATUS p) := (hfollow.rd _ (portStatus_notMem_follows p hp)).trans (hrd _)
      exact (State.fld_of_rd hstatus _).trans hh
  · rw [hlast.rest, htrain.rest, hfollow.rest, huse]

/-! Lines sent and read back. -/

/-- The read-back registers of a port. -/
abbrev readBackWrites (p o : Nat) : Prop :=
  o ∈ [Reg.SCN_RB_ERR_CNT p, Reg.SCN_RB_LO p, Reg.SCN_RB_HI p] ∨ ∃ i : Fin 4, o = Reg.SCN_RB_LANE_CNT p i

theorem Reg.SCN_RB_LANE_CNT_notMem_readBack (p i : Nat) : Reg.SCN_RB_LANE_CNT p i ∉ [Reg.SCN_RB_ERR_CNT p, Reg.SCN_RB_LO p, Reg.SCN_RB_HI p] := by
  simp only [Reg.SCN_RB_LANE_CNT, Reg.SCN_RB_ERR_CNT, Reg.SCN_RB_LO, Reg.SCN_RB_HI, List.mem_cons, List.not_mem_nil, or_false]
  omega

/-- A port's read-back registers lie in the port's 256 bytes of the SCN block. -/
theorem readBackWrites_block {p o : Nat} (h : readBackWrites p o) : o / 256 = 0xE01 + p := by
  simp only [readBackWrites, Reg.SCN_RB_LANE_CNT, Reg.SCN_RB_ERR_CNT, Reg.SCN_RB_LO, Reg.SCN_RB_HI, List.mem_cons, List.not_mem_nil, or_false] at h
  rcases h with h | ⟨i, h⟩ <;> omega

theorem readBackWrites_disjoint {p q o : Nat} (hne : p ≠ q) (hp : readBackWrites p o) : ¬ readBackWrites q o := fun hq =>
  hne (by have := readBackWrites_block hp; have := readBackWrites_block hq; omega)

/-- The counts of lanes whose symbols do not decode, once each. -/
def State.laneErrors (s : State) (p : Nat) (bad : List Nat) : State := bad.foldl (fun t l => t.bump (Reg.SCN_RB_LANE_CNT p l)) s

theorem State.laneErrors_writes (s : State) (p : Nat) (bad : List Nat) (h : ∀ l ∈ bad, l < 4) :
    s.WritesIn (fun o => ∃ i : Fin 4, o = Reg.SCN_RB_LANE_CNT p i) (s.laneErrors p bad) :=
  .foldl _ _ (fun u l hl => .bump (.refl _ u) _ ⟨⟨l, h l hl⟩, rfl⟩) (.refl _ s)

theorem State.rd_laneErrors (s : State) (p l : Nat) (bad : List Nat) (h : bad.Nodup) : (s.laneErrors p bad).rd (Reg.SCN_RB_LANE_CNT p l) =
    if l ∈ bad then counted (s.rd (Reg.SCN_RB_LANE_CNT p l)) else s.rd (Reg.SCN_RB_LANE_CNT p l) := by
  induction bad generalizing s with
  | nil => rfl
  | cons b bad ih =>
    obtain ⟨hb, hbad⟩ := List.nodup_cons.mp h
    have hrest := ih (s.bump (Reg.SCN_RB_LANE_CNT p b)) hbad
    by_cases hl : l = b
    · subst hl
      rw [if_neg hb, State.rd_bump_self] at hrest
      rw [if_pos List.mem_cons_self]
      exact hrest
    · rw [State.rd_bump_ne _ _ _ (by simp only [Reg.SCN_RB_LANE_CNT]; omega)] at hrest
      simp only [List.mem_cons, hl, false_or]
      exact hrest

theorem State.readBack_writes (s : State) (p line : Nat) (mismatch : Bool) (bad : List Nat) (h : ∀ l ∈ bad, l < 4) :
    s.WritesIn (readBackWrites p) (s.readBack p line mismatch bad) := by
  have hlanes : s.WritesIn (readBackWrites p) (s.laneErrors p bad) := (s.laneErrors_writes p bad h).weaken fun _ => .inr
  unfold State.readBack
  split
  · exact ((hlanes.bump _ (.inl (by simp))).wr _ _ (.inl (by simp))).setFld _ _ _ (.inl (by simp))
  · exact hlanes

/-- What reading back a line on port `p` leaves in the port's registers (R660 to R662). -/
structure State.ReadsBack (p line : Nat) (mismatch : Bool) (bad : List Nat) (s t : State) : Prop where
  differs : mismatch = true → t.rd (Reg.SCN_RB_ERR_CNT p) = counted (s.rd (Reg.SCN_RB_ERR_CNT p)) ∧
    t.holdsStamp (Reg.SCN_RB_LO p) (Reg.SCN_RB_HI p) ⟨s.trd.now.frame, line, 0, 0⟩
  agrees : mismatch = false → ∀ o ∈ [Reg.SCN_RB_ERR_CNT p, Reg.SCN_RB_LO p, Reg.SCN_RB_HI p], t.rd o = s.rd o
  lanes : ∀ l : Fin 4, t.rd (Reg.SCN_RB_LANE_CNT p l) =
    if l.val ∈ bad then counted (s.rd (Reg.SCN_RB_LANE_CNT p l)) else s.rd (Reg.SCN_RB_LANE_CNT p l)

theorem State.readBack_spec (s : State) (p line : Nat) (mismatch : Bool) (bad : List Nat) (h : ∀ l ∈ bad, l < 4) (hnodup : bad.Nodup) :
    s.ReadsBack p line mismatch bad (s.readBack p line mismatch bad) := by
  have hw := s.laneErrors_writes p bad h
  have hlanes := fun l => s.rd_laneErrors p l bad hnodup
  have hkept (o : Nat) (ho : o ∈ [Reg.SCN_RB_ERR_CNT p, Reg.SCN_RB_LO p, Reg.SCN_RB_HI p]) : (s.laneErrors p bad).rd o = s.rd o :=
    hw.rd o fun ⟨i, hi⟩ => Reg.SCN_RB_LANE_CNT_notMem_readBack p i (hi ▸ ho)
  have hback : s.readBack p line mismatch bad = if mismatch then
    ((s.laneErrors p bad).bump (Reg.SCN_RB_ERR_CNT p)).wrStamp (Reg.SCN_RB_LO p) (Reg.SCN_RB_HI p) ⟨s.trd.now.frame, line, 0, 0⟩
    else s.laneErrors p bad := rfl
  rw [hback]
  generalize s.laneErrors p bad = u at *
  have hlohi : Reg.SCN_RB_LO p ≠ Reg.SCN_RB_HI p := by simp only [Reg.SCN_RB_LO, Reg.SCN_RB_HI]; omega
  have herr : Reg.SCN_RB_ERR_CNT p ≠ Reg.SCN_RB_LO p ∧ Reg.SCN_RB_ERR_CNT p ≠ Reg.SCN_RB_HI p := by
    simp only [Reg.SCN_RB_ERR_CNT, Reg.SCN_RB_LO, Reg.SCN_RB_HI]; omega
  refine ⟨fun hm => ?_, fun hm => ?_, fun l => ?_⟩
  · rw [if_pos hm]
    refine ⟨?_, State.holdsStamp_wrStamp _ _ _ _ hlohi⟩
    rw [State.rd_wrStamp_ne _ _ _ _ _ herr.1 herr.2, State.rd_bump_self, hkept _ (by simp)]
  · rw [if_neg (by simp [hm])]
    exact hkept
  · obtain ⟨hne1, hne2, hne3⟩ : Reg.SCN_RB_LANE_CNT p l ≠ Reg.SCN_RB_ERR_CNT p ∧ Reg.SCN_RB_LANE_CNT p l ≠ Reg.SCN_RB_LO p ∧
        Reg.SCN_RB_LANE_CNT p l ≠ Reg.SCN_RB_HI p := by simpa using Reg.SCN_RB_LANE_CNT_notMem_readBack p l
    rw [← hlanes l]
    split
    · rw [State.rd_wrStamp_ne _ _ _ _ _ hne2 hne3, State.rd_bump_ne _ _ _ hne1]
    · rfl

/-- Port `p` sends its part of the present line of `s`, and the samplers at its pads read it back. -/
def State.sendPort (s : State) (decoded : List (Fin 2 × List (Nat × Nat × Nat))) (lanes : List (Fin 2 × Fin 4)) (out : List (Nat × Nat × Nat))
    (t : State) (p : Nat) : State :=
  (t.emit 0 (.videoLine p s.trd.now.frame s.trd.now.line (s.prState == 1) (s.portPart p out))).readBack p s.trd.now.line
    (crcDiffers decoded p (s.portPart p out)) ((lanes.filter fun q => q.1.val == p).map fun q => q.2.val)

theorem badLanes_lt (lanes : List (Fin 2 × Fin 4)) (p : Nat) : ∀ l ∈ (lanes.filter fun q => q.1.val == p).map fun q => q.2.val, l < 4 := by
  intro l hl
  obtain ⟨q, -, rfl⟩ := List.mem_map.mp hl
  exact q.2.isLt

theorem badLanes_nodup {lanes : List (Fin 2 × Fin 4)} (h : lanes.Nodup) (p : Nat) :
    ((lanes.filter fun q => q.1.val == p).map fun q => q.2.val).Nodup := by
  refine (List.nodup_map_iff_inj_on (h.filter _)).mpr fun x hx y hy hxy => ?_
  have hx1 : x.1.val = p := by simpa using (List.mem_filter.mp hx).2
  have hy1 : y.1.val = p := by simpa using (List.mem_filter.mp hy).2
  exact Prod.ext (Fin.ext (hx1.trans hy1.symm)) (Fin.ext hxy)

theorem mem_badLanes (lanes : List (Fin 2 × Fin 4)) (p : Fin 2) (i : Fin 4) :
    i.val ∈ ((lanes.filter fun q => q.1.val == p.val).map fun q => q.2.val) ↔ (p, i) ∈ lanes := by
  simp only [List.mem_map, List.mem_filter, beq_iff_eq]
  constructor
  · rintro ⟨⟨a, b⟩, ⟨hq, ha⟩, hb⟩
    obtain rfl := Fin.ext ha
    obtain rfl := Fin.ext hb
    exact hq
  · exact fun h => ⟨(p, i), ⟨h, rfl⟩, rfl⟩

/-- The port's part is sent, and nothing else changes but its read-back registers. -/
theorem State.sendPort_frame (s : State) (decoded : List (Fin 2 × List (Nat × Nat × Nat))) (lanes : List (Fin 2 × Fin 4))
    (out : List (Nat × Nat × Nat)) (t : State) (p : Nat) : let u := s.sendPort decoded lanes out t p
    u = { t with regs := u.regs, out := t.out ++ [⟨t.trd.cclk, .videoLine p s.trd.now.frame s.trd.now.line (s.prState == 1) (s.portPart p out)⟩] } ∧
    ∀ o, ¬ readBackWrites p o → u.rd o = t.rd o := by
  have hw := (t.emit 0 (.videoLine p s.trd.now.frame s.trd.now.line (s.prState == 1) (s.portPart p out))).readBack_writes p s.trd.now.line
    (crcDiffers decoded p (s.portPart p out)) _ (badLanes_lt lanes p)
  exact ⟨hw.rest, hw.rd⟩

theorem State.sendPort_reads (s : State) (decoded : List (Fin 2 × List (Nat × Nat × Nat))) {lanes : List (Fin 2 × Fin 4)} (h : lanes.Nodup)
    (out : List (Nat × Nat × Nat)) (t : State) (p : Nat) : t.ReadsBack p s.trd.now.line (crcDiffers decoded p (s.portPart p out))
      ((lanes.filter fun q => q.1.val == p).map fun q => q.2.val) (s.sendPort decoded lanes out t p) := by
  obtain ⟨hdiffers, hagrees, hlanes⟩ := (t.emit 0 (.videoLine p s.trd.now.frame s.trd.now.line (s.prState == 1) (s.portPart p out))).readBack_spec p
    s.trd.now.line (crcDiffers decoded p (s.portPart p out)) _ (badLanes_lt lanes p) (badLanes_nodup h p)
  exact ⟨hdiffers, hagrees, hlanes⟩

/-- What one port reads back depends on its own registers and the present stamp alone. -/
theorem State.ReadsBack.congr {p line : Nat} {mismatch : Bool} {bad : List Nat} {s t s' t' : State} (h : s.ReadsBack p line mismatch bad t)
    (hnow : s'.trd.now = s.trd.now) (hs : ∀ o, readBackWrites p o → s'.rd o = s.rd o)
    (ht : ∀ o, readBackWrites p o → t'.rd o = t.rd o) : s'.ReadsBack p line mismatch bad t' := by
  obtain ⟨hdiffers, hagrees, hlanes⟩ := h
  refine ⟨fun hm => ?_, fun hm o ho => ?_, fun l => ?_⟩
  · obtain ⟨hcnt, hstamp⟩ := hdiffers hm
    refine ⟨by rw [ht _ (.inl (by simp)), hs _ (.inl (by simp)), hcnt], ?_⟩
    rw [hnow]
    exact State.holdsStamp_congr (ht _ (.inl (by simp))) (ht _ (.inl (by simp))) hstamp
  · rw [ht o (.inl ho), hs o (.inl ho), hagrees hm o ho]
  · rw [ht _ (.inr ⟨l, rfl⟩), hs _ (.inr ⟨l, rfl⟩), hlanes l]

/-- The ports that send, in turn: each sends and reads back in its own registers. -/
theorem State.sendPorts_spec (s : State) (decoded : List (Fin 2 × List (Nat × Nat × Nat))) {lanes : List (Fin 2 × Fin 4)} (h : lanes.Nodup)
    (out : List (Nat × Nat × Nat)) (ports : List Nat) (hports : ports.Nodup) (t : State) :
    let u := ports.foldl (s.sendPort decoded lanes out) t
    u = { t with regs := u.regs, out := u.out } ∧
    u.out = t.out ++ ports.map (fun p => ⟨t.trd.cclk, .videoLine p s.trd.now.frame s.trd.now.line (s.prState == 1) (s.portPart p out)⟩) ∧
    (∀ o, (∀ p ∈ ports, ¬ readBackWrites p o) → u.rd o = t.rd o) ∧
    ∀ p ∈ ports, t.ReadsBack p s.trd.now.line (crcDiffers decoded p (s.portPart p out))
      ((lanes.filter fun q => q.1.val == p).map fun q => q.2.val) u := by
  induction ports generalizing t with
  | nil => exact ⟨rfl, (List.append_nil _).symm, fun _ _ => rfl, fun p hp => absurd hp List.not_mem_nil⟩
  | cons q ports ih =>
    obtain ⟨hq, hnodup⟩ := List.nodup_cons.mp hports
    obtain ⟨hrest, hrd⟩ := s.sendPort_frame decoded lanes out t q
    have hreads := s.sendPort_reads decoded h out t q
    obtain ⟨hrest', hout', hrd', hreads'⟩ := ih hnodup (s.sendPort decoded lanes out t q)
    rw [List.foldl_cons]
    generalize s.sendPort decoded lanes out t q = v at *
    generalize ports.foldl (s.sendPort decoded lanes out) v = u at *
    have htrd : v.trd = t.trd := by rw [hrest]
    refine ⟨by rw [hrest', hrest], ?_, fun o ho => ?_, fun p hp => ?_⟩
    · rw [hout', htrd, hrest, List.map_cons, List.append_assoc]
      rfl
    · exact (hrd' o fun p hp => ho p (List.mem_cons_of_mem _ hp)).trans (hrd o (ho q List.mem_cons_self))
    · rcases List.mem_cons.mp hp with rfl | hp
      · exact hreads.congr rfl (fun _ _ => rfl) fun o ho => hrd' o fun r hr => readBackWrites_disjoint (fun hpr => hq (by rw [hpr]; exact hr)) ho
      · exact (hreads' p hp).congr (by rw [htrd]) (fun o ho => (hrd o (readBackWrites_disjoint (fun hpq => hq (by rw [← hpq]; exact hp)) ho)).symm) fun _ _ => rfl

/-- The CRCs of the lines last sent, by port. -/
theorem tblGet_foldl_tblSet (ports : List Nat) (v : Nat → Nat) (t : Tbl Nat) (p : Nat) (h : p ∈ ports ∨ tblGet 0 t p = v p) :
    tblGet 0 (ports.foldl (fun t p => tblSet 0 t p (v p)) t) p = v p := by
  induction ports generalizing t with
  | nil => exact h.resolve_left List.not_mem_nil
  | cons q ports ih =>
    refine ih _ ?_
    by_cases hp : p = q
    · exact .inr (by rw [tblGet_tblSet, if_pos hp, hp])
    · rw [tblGet_tblSet, if_neg hp]
      exact h.imp_left fun h => (List.mem_cons.mp h).resolve_left hp

theorem crcDiffers_of_found {decoded : List (Fin 2 × List (Nat × Nat × Nat))} {p : Fin 2} {v sent : List (Nat × Nat × Nat)}
    (h : (decoded.find? fun x => x.1.val == p.val) = some (p, v)) : crcDiffers decoded p sent = (lineCrc v != lineCrc sent) := by
  rw [crcDiffers, h]

theorem crcDiffers_of_none {decoded : List (Fin 2 × List (Nat × Nat × Nat))} {p : Nat} {sent : List (Nat × Nat × Nat)}
    (h : (decoded.find? fun x => x.1.val == p) = none) : crcDiffers decoded p sent = false := by
  rw [crcDiffers, h]

/-- The line of the present stamp that scan-out holds. -/
def State.lineNow (s : State) : Option RasterLine := s.scn.lines.find? fun l => l.frame == s.trd.now.frame && l.line == s.trd.now.line

/-- The ports that send video. -/
def State.videoPorts (s : State) : List Nat := (List.range 2).filter fun p => s.port p Reg.SCN_PORT_STATUS_VIDEO == 1

/-- The pixels of a line at the panel's depth. -/
def State.ditheredLine (s : State) (l : RasterLine) : List (Nat × Nat × Nat) :=
  l.pixels.zipIdx.map fun x => x.1.dithered (s.cmp Reg.CMP_DITHER) s.trd.now.frame x.2 s.trd.now.line

/-- Scan-out after a line is sent: the line is gone, and its CRCs and the frame's signature are taken. -/
def State.lineDone (s : State) (l : RasterLine) (c : Scn) : Scn :=
  { c with
    lines := c.lines.filter fun x => !(x.frame == s.trd.now.frame && x.line == s.trd.now.line)
    lineCrc := s.videoPorts.foldl (fun t p => tblSet 0 t p (lineCrc (s.portPart p (s.ditheredLine l)))) c.lineCrc
    sigState := crc32On (if s.trd.now.line = 0 then 0xFFFFFFFF else s.scn.sigState) (lineBytes l.pixels)
    sigFrame := some s.trd.now.frame }

theorem exec_lineSend_none (s : State) (decoded : List (Fin 2 × List (Nat × Nat × Nat))) (lanes : List (Fin 2 × Fin 4))
    (h : s.lineNow = none ∨ s.darkFrame s.trd.now.frame = true ∨ s.scn.sending = false) : exec (.lineSend decoded lanes) s = .next s := by
  change execLineSend decoded lanes s = _
  unfold execLineSend
  extract_lets n
  split
  · rfl
  · next l hl => exact if_pos (by simpa using h.resolve_left (by rw [State.lineNow, hl]; exact Option.some_ne_none l))

theorem exec_lineSend_some (s : State) (decoded : List (Fin 2 × List (Nat × Nat × Nat))) (lanes : List (Fin 2 × Fin 4)) {l : RasterLine}
    (h : s.lineNow = some l) (hdark : s.darkFrame s.trd.now.frame = false) (hsending : s.scn.sending = true) :
    exec (.lineSend decoded lanes) s =
      .next ((s.videoPorts.foldl (s.sendPort decoded lanes (s.ditheredLine l)) s).onScn (s.lineDone l)) := by
  change execLineSend decoded lanes s = _
  unfold execLineSend
  extract_lets n
  rw [show (s.scn.lines.find? fun l => l.frame == n.frame && l.line == n.line) = some l from h]
  exact if_neg (by simp [n, hdark, hsending])

theorem exec_lineSend_spec (s : State) (l : RasterLine) (decoded : List (Fin 2 × List (Nat × Nat × Nat))) (lanes : List (Fin 2 × Fin 4))
    (h : s.lineNow = some l) (hdark : s.darkFrame s.trd.now.frame = false) (hsending : s.scn.sending = true) (hlanes : lanes.Nodup) :
    let n := s.trd.now
    let video := fun p => s.port p Reg.SCN_PORT_STATUS_VIDEO = 1
    let out := s.ditheredLine l
    ∃ t, exec (.lineSend decoded lanes) s = .next t ∧
      t.out = s.out ++ ((List.range 2).filter fun p => decide (video p)).map (fun p =>
        ⟨s.trd.cclk, .videoLine p n.frame n.line (s.prState == 1) (s.portPart p out)⟩) ∧
      (∀ p : Fin 2, video p →
        tblGet 0 t.scn.lineCrc p = lineCrc (s.portPart p out) ∧
        (∀ v, (decoded.find? fun x => x.1.val == p.val) = some (p, v) → lineCrc v ≠ lineCrc (s.portPart p out) →
          t.rd (Reg.SCN_RB_ERR_CNT p) = counted (s.rd (Reg.SCN_RB_ERR_CNT p)) ∧
          t.holdsStamp (Reg.SCN_RB_LO p) (Reg.SCN_RB_HI p) ⟨n.frame, n.line, 0, 0⟩) ∧
        ((decoded.find? fun x => x.1.val == p.val) = none ∨
          (∃ v, (decoded.find? fun x => x.1.val == p.val) = some (p, v) ∧ lineCrc v = lineCrc (s.portPart p out)) →
          ∀ o ∈ [Reg.SCN_RB_ERR_CNT p, Reg.SCN_RB_LO p, Reg.SCN_RB_HI p], t.rd o = s.rd o) ∧
        ∀ i : Fin 4, t.rd (Reg.SCN_RB_LANE_CNT p i) =
          if (p, i) ∈ lanes then counted (s.rd (Reg.SCN_RB_LANE_CNT p i)) else s.rd (Reg.SCN_RB_LANE_CNT p i)) ∧
      (∀ o, (∀ p : Fin 2, video p → o ∉ [Reg.SCN_RB_ERR_CNT p, Reg.SCN_RB_LO p, Reg.SCN_RB_HI p] ∧
        ∀ i : Fin 4, o ≠ Reg.SCN_RB_LANE_CNT p i) → t.rd o = s.rd o) ∧
      (∀ x, x ∈ t.scn.lines ↔ x ∈ s.scn.lines ∧ ¬(x.frame = n.frame ∧ x.line = n.line)) ∧
      t.scn.sigFrame = some n.frame ∧
      t.scn.sigState = crc32On (if n.line = 0 then 0xFFFFFFFF else s.scn.sigState) (lineBytes l.pixels) ∧
      t = { s with regs := t.regs, out := t.out, scn := { s.scn with
        lines := t.scn.lines, lineCrc := t.scn.lineCrc, sigState := t.scn.sigState, sigFrame := t.scn.sigFrame } } := by
  intro n video out
  have hvideo : (List.range 2).filter (fun p => decide (video p)) = s.videoPorts := rfl
  have hmem (p : Fin 2) (hp : video p) : p.val ∈ s.videoPorts :=
    List.mem_filter.mpr ⟨List.mem_range.mpr p.isLt, beq_iff_eq.mpr hp⟩
  obtain ⟨hrest, hout, hrd, hreads⟩ := s.sendPorts_spec decoded hlanes out s.videoPorts (List.nodup_range.filter _) s
  have hexec := exec_lineSend_some s decoded lanes h hdark hsending
  change _ = Host.Outcome.next ((s.videoPorts.foldl (s.sendPort decoded lanes out) s).onScn (s.lineDone l)) at hexec
  generalize s.videoPorts.foldl (s.sendPort decoded lanes out) s = u at *
  have hscn : u.scn = s.scn := by rw [hrest]
  refine ⟨_, hexec, ?_, fun p hp => ?_, fun o ho => ?_, fun x => ?_, rfl, rfl, ?_⟩
  · rw [State.onScn_out, hvideo, hout]
  · obtain ⟨hdiffers, hagrees, hlane⟩ := hreads p (hmem p hp)
    refine ⟨tblGet_foldl_tblSet _ _ _ _ (.inl (hmem p hp)), fun v hv hne => hdiffers ?_, fun hsame => hagrees ?_, fun i => ?_⟩
    · rw [crcDiffers_of_found hv]
      exact bne_iff_ne.mpr hne
    · rcases hsame with hnone | ⟨v, hv, heq⟩
      · exact crcDiffers_of_none hnone
      · rw [crcDiffers_of_found hv, heq, bne_self_eq_false]
    · have hlane := hlane i
      simp only [mem_badLanes] at hlane
      exact hlane
  · refine hrd o fun p hp => ?_
    obtain ⟨hlt, hp1⟩ := List.mem_filter.mp hp
    obtain ⟨hnot, hne⟩ := ho ⟨p, List.mem_range.mp hlt⟩ (beq_iff_eq.mp hp1)
    rintro (hin | ⟨i, hi⟩)
    · exact hnot hin
    · exact hne i hi
  · rw [State.onScn_scn, hscn]
    simp [State.lineDone, n, imp_iff_not_or]
  · rw [hrest]
    rfl

/-! The freeze detector. -/

theorem exec_freezeCheck_none (s : State) (h : s.scn.sigFrame = none) : exec .freezeCheck s = .next s := by
  change execFreezeCheck s = _
  rw [execFreezeCheck, h]

theorem exec_freezeCheck_waits (s : State) {f : Nat} (h : s.scn.sigFrame = some f) (hf : s.trd.now.frame = f)
    (hl : s.trd.now.line + 1 < s.trd.timing.vActive) : exec .freezeCheck s = .next s := by
  change execFreezeCheck s = _
  rw [execFreezeCheck, h]
  exact if_pos ⟨hf, hl⟩

/-- The signature of the frame sent. -/
def State.outSig (s : State) : Nat := s.scn.sigState ^^^ 0xFFFFFFFF

/-- The signature of a frame's inputs. -/
def State.inSig (s : State) (f : Nat) : Nat := ((s.pic.sigs.find? fun x => x.1 == f).map fun x => x.2).getD 0

/-- The signatures of frame `f` are in their registers, and stand for the next comparison. -/
def State.signed (s : State) (f : Nat) : State :=
  ((s.wr Reg.CMP_OUT_SIG (BitVec.ofNat 32 s.outSig)).wr Reg.CMP_IN_SIG (BitVec.ofNat 32 (s.inSig f))).onScn fun c =>
    { c with sigFrame := none, sigState := 0xFFFFFFFF, prevOut := some s.outSig, prevIn := some (s.inSig f) }

/-- One more frame of the run is the same while its inputs differ; the run of CMP_FRZ_CFG.N frames is a freeze (R665). -/
def State.frozenRun (s : State) (limit run : Nat) : State :=
  let u := s.setFld Reg.CMP_FRZ_RUN Reg.CMP_FRZ_RUN_RUN (min 255 (run + 1))
  if run < 255 ∧ run + 1 = limit then (u.setFld Reg.CMP_STATUS Reg.CMP_STATUS_FROZEN 1).bump Reg.CMP_FROZEN_CNT else u

/-- The comparison of a frame's signatures with those of the frame before. -/
def State.compared (s : State) (f : Nat) : State :=
  let limit := Reg.CMP_FRZ_CFG_N.get (s.cmp Reg.CMP_FRZ_CFG)
  match s.scn.prevOut, s.scn.prevIn with
  | some po, some pi =>
    if limit = 0 then s.signed f
    else if po ≠ s.outSig then (s.signed f).setFld Reg.CMP_FRZ_RUN Reg.CMP_FRZ_RUN_RUN 0
    else if pi = s.inSig f then s.signed f
    else (s.signed f).frozenRun limit (s.fld Reg.CMP_FRZ_RUN Reg.CMP_FRZ_RUN_RUN)
  | _, _ => s.signed f

theorem exec_freezeCheck_done (s : State) {f : Nat} (h : s.scn.sigFrame = some f)
    (hdone : ¬(s.trd.now.frame = f ∧ s.trd.now.line + 1 < s.trd.timing.vActive)) : exec .freezeCheck s = .next (s.compared f) := by
  change execFreezeCheck s = _
  rw [execFreezeCheck, h]
  dsimp only
  rw [if_neg hdone]
  unfold State.compared
  rcases s.scn.prevOut with _ | po <;> rcases s.scn.prevIn with _ | pi <;> rfl

/-- The registers a comparison may write beside the signatures. -/
abbrev freezeWrites (o : Nat) : Prop := o ∈ [Reg.CMP_FRZ_RUN, Reg.CMP_STATUS, Reg.CMP_FROZEN_CNT]

theorem State.frozenRun_writes (s : State) (limit run : Nat) : s.WritesIn freezeWrites (s.frozenRun limit run) := by
  have hrun : s.WritesIn freezeWrites (s.setFld Reg.CMP_FRZ_RUN Reg.CMP_FRZ_RUN_RUN (min 255 (run + 1))) := .setFld (.refl _ s) _ _ _ (by decide)
  unfold State.frozenRun
  extract_lets u
  split
  · exact (hrun.setFld _ _ _ (by decide)).bump _ (by decide)
  · exact hrun

theorem State.compared_writes (s : State) (f : Nat) : (s.signed f).WritesIn freezeWrites (s.compared f) := by
  unfold State.compared
  extract_lets limit
  split
  · split
    · exact .refl _ _
    · split
      · exact .setFld (.refl _ _) _ _ _ (by decide)
      · split
        · exact .refl _ _
        · exact State.frozenRun_writes _ _ _
  · exact .refl _ _

theorem State.signed_spec (s : State) (f : Nat) : let t := s.signed f
    t.rd Reg.CMP_OUT_SIG = BitVec.ofNat 32 s.outSig ∧ t.rd Reg.CMP_IN_SIG = BitVec.ofNat 32 (s.inSig f) ∧
    t = { s with regs := t.regs, scn := { s.scn with
      sigFrame := none, sigState := 0xFFFFFFFF, prevOut := some s.outSig, prevIn := some (s.inSig f) } } ∧
    ∀ o, o ≠ Reg.CMP_OUT_SIG → o ≠ Reg.CMP_IN_SIG → t.rd o = s.rd o := by
  refine ⟨?_, ?_, rfl, fun o hout hin => ?_⟩
  · rw [State.signed, State.onScn_rd, State.rd_wr_ne _ _ _ _ (by decide), State.rd_wr_self]
  · rw [State.signed, State.onScn_rd, State.rd_wr_self]
  · rw [State.signed, State.onScn_rd, State.rd_wr_ne _ _ _ _ hin, State.rd_wr_ne _ _ _ _ hout]

/-- Without a comparison, or with a frame whose signatures both repeat, the run stands. -/
theorem State.compared_of_same (s : State) (f : Nat) (h : Reg.CMP_FRZ_CFG_N.get (s.cmp Reg.CMP_FRZ_CFG) = 0 ∨ s.scn.prevOut = none ∨
    (s.scn.prevOut = some s.outSig ∧ s.scn.prevIn = some (s.inSig f))) : s.compared f = s.signed f := by
  unfold State.compared
  extract_lets limit
  split
  · next po pi hpo hpi =>
    by_cases hlimit : limit = 0
    · rw [if_pos hlimit]
    · obtain ⟨hout, hin⟩ := (h.resolve_left hlimit).resolve_left (by simp [hpo])
      obtain rfl := Option.some.inj (hpo.symm.trans hout)
      obtain rfl := Option.some.inj (hpi.symm.trans hin)
      rw [if_neg hlimit, if_neg (not_not.mpr rfl), if_pos rfl]
  · rfl

theorem State.compared_of_some (s : State) (f : Nat) {po pi : Nat} (hpo : s.scn.prevOut = some po) (hpi : s.scn.prevIn = some pi)
    (hlimit : Reg.CMP_FRZ_CFG_N.get (s.cmp Reg.CMP_FRZ_CFG) ≠ 0) : s.compared f =
    if po ≠ s.outSig then (s.signed f).setFld Reg.CMP_FRZ_RUN Reg.CMP_FRZ_RUN_RUN 0
    else if pi = s.inSig f then s.signed f
    else (s.signed f).frozenRun (Reg.CMP_FRZ_CFG_N.get (s.cmp Reg.CMP_FRZ_CFG)) (s.fld Reg.CMP_FRZ_RUN Reg.CMP_FRZ_RUN_RUN) := by
  unfold State.compared
  rw [hpo, hpi]
  exact if_neg hlimit

theorem State.frozenRun_run (s : State) (limit run : Nat) : (s.frozenRun limit run).fld Reg.CMP_FRZ_RUN Reg.CMP_FRZ_RUN_RUN = min 255 (run + 1) := by
  have hrun : (s.setFld Reg.CMP_FRZ_RUN Reg.CMP_FRZ_RUN_RUN (min 255 (run + 1))).fld Reg.CMP_FRZ_RUN Reg.CMP_FRZ_RUN_RUN = min 255 (run + 1) :=
    State.fld_setFld_of_lt _ _ _ _ (by decide) (by change _ < 256; omega)
  unfold State.frozenRun
  extract_lets u
  split
  · rw [State.fld_bump_ne _ _ _ _ (by decide), State.fld_setFld_ne _ _ _ _ _ _ (by decide), hrun]
  · exact hrun

/-- The frame that completes the run sets FROZEN and is counted. -/
theorem State.frozenRun_limit (s : State) {limit run : Nat} (h : run + 1 = limit) (hlt : limit < 256) :
    (s.frozenRun limit run).fld Reg.CMP_STATUS Reg.CMP_STATUS_FROZEN = 1 ∧
    (s.frozenRun limit run).rd Reg.CMP_FROZEN_CNT = counted (s.rd Reg.CMP_FROZEN_CNT) := by
  rw [State.frozenRun, if_pos ⟨by omega, h⟩]
  refine ⟨?_, ?_⟩
  · rw [State.fld_bump_ne _ _ _ _ (by decide)]
    exact State.fld_setFld_self _ _ _ _ (by decide)
  · rw [State.rd_bump_self, State.rd_setFld_ne _ _ _ _ _ (by decide), State.rd_setFld_ne _ _ _ _ _ (by decide)]

theorem State.frozenRun_other (s : State) {limit run : Nat} (h : run + 1 ≠ limit) (o : Nat) (ho : o ≠ Reg.CMP_FRZ_RUN) :
    (s.frozenRun limit run).rd o = s.rd o := by
  rw [State.frozenRun, if_neg fun hl => h hl.2, State.rd_setFld_ne _ _ _ _ _ ho]

theorem exec_freezeCheck_spec (s : State) (f : Nat) (h : s.scn.sigFrame = some f)
    (hdone : ¬(s.trd.now.frame = f ∧ s.trd.now.line + 1 < s.trd.timing.vActive)) :
    let run := s.fld Reg.CMP_FRZ_RUN Reg.CMP_FRZ_RUN_RUN
    let limit := Reg.CMP_FRZ_CFG_N.get (s.cmp Reg.CMP_FRZ_CFG)
    ∃ t, exec .freezeCheck s = .next t ∧ t.rd Reg.CMP_OUT_SIG = BitVec.ofNat 32 s.outSig ∧ t.rd Reg.CMP_IN_SIG = BitVec.ofNat 32 (s.inSig f) ∧
      t.scn = { s.scn with sigFrame := none, sigState := 0xFFFFFFFF, prevOut := some s.outSig, prevIn := some (s.inSig f) } ∧
      t = { s with regs := t.regs, scn := t.scn } ∧
      (∀ o, o ∉ [Reg.CMP_OUT_SIG, Reg.CMP_IN_SIG, Reg.CMP_FRZ_RUN, Reg.CMP_STATUS, Reg.CMP_FROZEN_CNT] → t.rd o = s.rd o) ∧
      (limit = 0 ∨ s.scn.prevOut = none ∨ (s.scn.prevOut = some s.outSig ∧ s.scn.prevIn = some (s.inSig f)) →
        t.rd Reg.CMP_FRZ_RUN = s.rd Reg.CMP_FRZ_RUN ∧ t.rd Reg.CMP_STATUS = s.rd Reg.CMP_STATUS) ∧
      ∀ po pi, s.scn.prevOut = some po → s.scn.prevIn = some pi → limit ≠ 0 →
        (po ≠ s.outSig → t.fld Reg.CMP_FRZ_RUN Reg.CMP_FRZ_RUN_RUN = 0) ∧
        (po = s.outSig → pi ≠ s.inSig f → t.fld Reg.CMP_FRZ_RUN Reg.CMP_FRZ_RUN_RUN = min 255 (run + 1) ∧
          (run + 1 = limit → t.fld Reg.CMP_STATUS Reg.CMP_STATUS_FROZEN = 1 ∧
            t.rd Reg.CMP_FROZEN_CNT = counted (s.rd Reg.CMP_FROZEN_CNT)) ∧
          (run + 1 ≠ limit → t.rd Reg.CMP_FROZEN_CNT = s.rd Reg.CMP_FROZEN_CNT ∧ t.rd Reg.CMP_STATUS = s.rd Reg.CMP_STATUS)) := by
  intro run limit
  have hlimit : limit < 256 := Field.get_lt _ _
  obtain ⟨hout, hin, hrest, hrd⟩ := s.signed_spec f
  obtain ⟨hrest', hrd'⟩ := s.compared_writes f
  refine ⟨_, exec_freezeCheck_done s h hdone, ?_, ?_, ?_, ?_, fun o ho => ?_, fun hsame => ?_, fun po pi hpo hpi hl => ⟨fun hne => ?_, fun heq hne => ?_⟩⟩
  · rw [hrd' _ (by decide), hout]
  · rw [hrd' _ (by decide), hin]
  · rw [hrest', hrest]
  · rw [hrest', hrest]
  · have happend : o ∉ [Reg.CMP_OUT_SIG, Reg.CMP_IN_SIG] ++ [Reg.CMP_FRZ_RUN, Reg.CMP_STATUS, Reg.CMP_FROZEN_CNT] := ho
    obtain ⟨hsigs, hfreeze⟩ := not_or.mp (List.mem_append.not.mp happend)
    exact (hrd' o hfreeze).trans (hrd o (fun e => hsigs (by simp [e])) fun e => hsigs (by simp [e]))
  · rw [s.compared_of_same f hsame]
    exact ⟨hrd _ (by decide) (by decide), hrd _ (by decide) (by decide)⟩
  · rw [s.compared_of_some f hpo hpi hl, if_pos hne]
    exact State.fld_setFld_self _ _ _ _ (by decide)
  · rw [s.compared_of_some f hpo hpi hl, if_neg (not_not.mpr heq), if_neg hne]
    refine ⟨State.frozenRun_run _ _ _, fun hfreeze => ?_, fun hgoes => ?_⟩
    · obtain ⟨hfrozen, hcnt⟩ := (s.signed f).frozenRun_limit hfreeze hlimit
      exact ⟨hfrozen, by rw [hcnt, hrd _ (by decide) (by decide)]⟩
    · exact ⟨((s.signed f).frozenRun_other hgoes _ (by decide)).trans (hrd _ (by decide) (by decide)),
        ((s.signed f).frozenRun_other hgoes _ (by decide)).trans (hrd _ (by decide) (by decide))⟩

/-! Panel Replay. -/

theorem State.prEnter_of_capable (s : State) (hoff : s.prState = 0) (hnone : s.scn.prCapture = none) (hactive : ∃ p, p < 2 ∧ s.portActive p = true)
    (hcap : ∀ p, p < 2 → s.portActive p = true → s.port p Reg.SCN_PORT_STATUS_PR_CAP = 1) :
    s.prEnter = s.onScn fun c => { c with prCapture := some s.nextFrame, prFrom := none, prWaking := false } := by
  obtain ⟨p, hp, ha⟩ := hactive
  have hmem (q : Nat) : q ∈ (List.range 2).filter s.portActive ↔ q < 2 ∧ s.portActive q = true := by simp
  refine if_neg ?_
  rintro (h | h | h | h)
  · exact h hoff
  · simp [hnone] at h
  · exact absurd ((hmem p).mpr ⟨hp, ha⟩) (by rw [h]; exact List.not_mem_nil)
  · obtain ⟨q, hq, hq0⟩ := List.any_eq_true.mp h
    obtain ⟨hq, ha⟩ := (hmem q).mp hq
    simp [hcap q hq ha] at hq0

theorem State.prEnter_of_incapable (s : State)
    (h : ∃ p, p < 2 ∧ s.portActive p = true ∧ s.port p Reg.SCN_PORT_STATUS_PR_CAP = 0) : s.prEnter = s := by
  obtain ⟨p, hp, ha, hcap⟩ := h
  refine if_pos (.inr (.inr (.inr (List.any_eq_true.mpr ⟨p, by simp [hp, ha], by simp [hcap]⟩))))

theorem State.gateReserved_gated (s : State) : ∀ l ∈ s.gateReserved.looms, l.raster = true → l.gated = true := by
  intro l hl hr
  obtain ⟨k, -, rfl⟩ := List.mem_map.mp hl
  by_cases hk : k.raster = true
  · rw [if_pos hk]
  · rw [if_neg hk] at hr
    exact absurd hr hk

/-- Panel Replay is ACTIVE: the reserved looms are gated, and what was fetched or composed is dropped (R656, R657, R712). -/
def State.replayActive (s : State) : State :=
  ((((s.setFld Reg.SCN_PR_STATUS Reg.SCN_PR_STATUS_STATE 2).bump Reg.SCN_PR_CNT).gateReserved.onScn fun c => { c with lines := [] }).dropRows
    fun _ => true).retarget

theorem exec_prActive_waits (s : State) {f : Nat} (h : s.scn.prCapture = some f) (hafter : frameAfter s.trd.now.frame f = false) :
    exec .prActive s = .next s := by
  change execPrActive s = _
  rw [execPrActive, h]
  exact if_neg (by simp [hafter])

theorem exec_prActive_due (s : State) {f : Nat} (h : s.scn.prCapture = some f) (hstate : s.prState = 1)
    (hafter : frameAfter s.trd.now.frame f = true) : exec .prActive s = .next s.replayActive := by
  change execPrActive s = _
  rw [execPrActive, h]
  exact if_pos ⟨hstate, hafter⟩

theorem State.replayActive_spec (s : State) : let t := s.replayActive
    t.prState = 2 ∧ t.rd Reg.SCN_PR_CNT = counted (s.rd Reg.SCN_PR_CNT) ∧ (∀ l ∈ t.looms, l.raster = true → l.gated = true) ∧
    t.scn = { s.scn with lines := [], rows := [] } ∧
    t = { s with regs := t.regs, scn := t.scn, looms := t.looms, pwr := t.pwr, mem := { s.mem with arrived := t.mem.arrived } } ∧
    ∀ o, o ∉ [Reg.SCN_PR_STATUS, Reg.SCN_PR_CNT, Reg.PWR_STATUS] → t.rd o = s.rd o := by
  have hcounts : s.WritesIn (fun o => o ∈ [Reg.SCN_PR_STATUS, Reg.SCN_PR_CNT])
      ((s.setFld Reg.SCN_PR_STATUS Reg.SCN_PR_STATUS_STATE 2).bump Reg.SCN_PR_CNT) :=
    ((State.WritesIn.refl _ s).setFld _ _ _ (by decide)).bump _ (by decide)
  have hstate : ((s.setFld Reg.SCN_PR_STATUS Reg.SCN_PR_STATUS_STATE 2).bump Reg.SCN_PR_CNT).fld Reg.SCN_PR_STATUS Reg.SCN_PR_STATUS_STATE = 2 := by
    rw [State.fld_bump_ne _ _ _ _ (by decide)]
    exact State.fld_setFld_self _ _ _ _ (by decide)
  have hcnt : ((s.setFld Reg.SCN_PR_STATUS Reg.SCN_PR_STATUS_STATE 2).bump Reg.SCN_PR_CNT).rd Reg.SCN_PR_CNT = counted (s.rd Reg.SCN_PR_CNT) := by
    rw [State.rd_bump_self, State.rd_setFld_ne _ _ _ _ _ (by decide)]
  unfold State.replayActive
  generalize (s.setFld Reg.SCN_PR_STATUS Reg.SCN_PR_STATUS_STATE 2).bump Reg.SCN_PR_CNT = u at *
  have hrd (o : Nat) (ho : o ≠ Reg.PWR_STATUS) :
      ((u.gateReserved.onScn fun c => { c with lines := [] }).dropRows fun _ => true).retarget.rd o = u.rd o := by
    rw [State.rd_retarget _ o ho, State.rd_dropRows, State.onScn_rd, State.gateReserved, State.onLooms_rd]
  intro t
  refine ⟨?_, ?_, u.gateReserved_gated, ?_, ?_, fun o ho => ?_⟩
  · rw [State.prState, State.fld_of_rd (hrd _ (by decide)), hstate]
  · rw [hrd _ (by decide), hcnt]
  · have hrows : t.scn = { u.scn with lines := [], rows := u.scn.rows.filter fun _ => !true } := rfl
    rw [hrows, hcounts.rest]
    simp
  · have hrest : t = { u with regs := t.regs, scn := t.scn, looms := t.looms, pwr := t.pwr, mem := { u.mem with arrived := t.mem.arrived } } := rfl
    rw [hrest, hcounts.rest]
  · have happend : o ∉ [Reg.SCN_PR_STATUS, Reg.SCN_PR_CNT] ++ [Reg.PWR_STATUS] := ho
    obtain ⟨hcount, hpwr⟩ := not_or.mp (List.mem_append.not.mp happend)
    exact (hrd o (by simpa using hpwr)).trans (hcounts.rd o hcount)

theorem exec_exit_asked (s : State) : exec (.exit false) s = .next s.prExit := rfl

theorem exec_exit_intake (s : State) : exec (.exit true) s =
    if s.bit Reg.SCN_PR_CTL Reg.SCN_PR_CTL_EXIT_ON_INTAKE && s.pic.fifo.any s.frameEligible then .next s.prExit else .next s := by
  change execExit true s = _
  rw [execExit, Bool.true_and]
  cases s.bit Reg.SCN_PR_CTL Reg.SCN_PR_CTL_EXIT_ON_INTAKE && s.pic.fifo.any s.frameEligible <;> rfl

theorem exec_exit_of_out (s : State) (i : Bool) (h : s.prState = 0 ∨ s.prState = 3) : exec (.exit i) s = .next s := by
  cases i with
  | false => rw [exec_exit_asked, s.prExit_of_out h]
  | true => rw [exec_exit_intake, s.prExit_of_out h, ite_self]

/-- The first frame after an exit is sent (R659). -/
def State.replayOver (s : State) : State :=
  (s.setFld Reg.SCN_PR_STATUS Reg.SCN_PR_STATUS_STATE 0).onScn fun c => { c with prCapture := none, prFrom := none }

theorem exec_prExitFrame_due (s : State) {g : Nat} (h : s.scn.prFrom = some g) (hstate : s.prState = 3)
    (hg : s.trd.now.frame = g ∨ frameAfter s.trd.now.frame g = true) : exec .prExitFrame s = .next s.replayOver.portsFrameStart := by
  change execPrExitFrame s = _
  rw [execPrExitFrame, h]
  exact if_pos ⟨hstate, hg⟩

theorem exec_prExitFrame_spec (s : State) (g : Nat) (h : s.scn.prFrom = some g) (hstate : s.prState = 3)
    (hg : s.trd.now.frame = g ∨ frameAfter s.trd.now.frame g = true) : ∃ t, exec .prExitFrame s = .next t ∧ t.prState = 0 ∧
      t.scn = { s.scn with prCapture := none, prFrom := none } ∧ t = { s with regs := t.regs, scn := t.scn } ∧
      ∀ o, o ∉ [Reg.SCN_PR_STATUS, Reg.SCN_PORT_STATUS 0, Reg.SCN_PORT_STATUS 1] → t.rd o = s.rd o := by
  have hover (o : Nat) (ho : o ≠ Reg.SCN_PR_STATUS) : s.replayOver.rd o = s.rd o := by
    rw [State.replayOver, State.onScn_rd, State.rd_setFld_ne _ _ _ _ _ ho]
  have hoff : s.replayOver.fld Reg.SCN_PR_STATUS Reg.SCN_PR_STATUS_STATE = 0 := by
    rw [State.replayOver, State.onScn_fld]
    exact State.fld_setFld_self _ _ _ _ (by decide)
  obtain ⟨hrest, hrd⟩ := s.replayOver.portsFrameStart_writes
  refine ⟨_, exec_prExitFrame_due s h hstate hg, ?_, by rw [hrest]; rfl, by rw [hrest]; rfl, fun o ho => ?_⟩
  · rw [State.prState, State.fld_of_rd (hrd _ (by decide)), hoff]
  · obtain ⟨hreplay, hports⟩ := not_or.mp (List.mem_cons.not.mp ho)
    exact (hrd o hports).trans (hover o hreplay)

/-! The obligation. -/

/-- Settles O51: APPLY and EXIT by the exit from Panel Replay, a timing by what comes into use and the ports that train, a line by the ports' own
read-back registers, and the freeze detector by its comparison. -/
theorem scanOutSendsFrames : Obligations.ScanOutSendsFrames := by
  intro s
  refine ⟨?_, exec_timingChange_none s, ?_, ?_, ?_, exec_freezeCheck_none s,
    fun f h => ⟨exec_freezeCheck_waits s h, ?_⟩, fun hoff hnone => ⟨fun hactive hcap => ?_, fun hincapable => ?_⟩,
    fun f h hstate => ⟨exec_prActive_waits s h, fun hafter => ⟨_, exec_prActive_due s h hstate hafter, s.replayActive_spec⟩⟩,
    exec_exit_of_out s, fun hin => ?_, ?_⟩
  · exact exec_apply_spec s
  · exact exec_timingChange_spec s
  · exact exec_lineSend_none s
  · exact exec_lineSend_spec s
  · exact exec_freezeCheck_spec s f h
  · exact ⟨_, congrArg Host.Outcome.next (s.prEnter_of_capable hoff hnone hactive hcap), rfl⟩
  · exact congrArg Host.Outcome.next (s.prEnter_of_incapable hincapable)
  · intro left
    obtain ⟨hstate, hscn, hrest, hrd⟩ := s.prExit_of_in hin
    have hleft : left s.prExit := ⟨hstate, hscn, hrest, hrd⟩
    refine ⟨⟨_, exec_exit_asked s, hleft⟩, fun hbit => ?_, fun hbit heligible => ⟨_, ?_, hleft⟩⟩
    · rw [exec_exit_intake, hbit]
      rfl
    · rw [exec_exit_intake, if_pos (by simpa [hbit] using heligible)]
  · exact exec_prExitFrame_spec s

end Sys2Proof.Machine
end

section
/-! SUPPORT. The composer's lines: the drawing order, what is composed where only L0 or nothing is drawn, underruns and what
they record (R604, R619 to R622, R645 to R649). -/

namespace Sys2Proof.Machine

/-! Layers drawn. -/

/-- A layer that was off in a frame is not drawn in it (R649). -/
theorem State.drawn_of_off {s : State} {f k : Nat} (hk : k ≠ 0) (h : (k, f) ∈ s.scn.off) : s.drawn f k = false := by
  simp [State.drawn, hk, h]

/-- A layer that R610 refuses is not drawn. -/
theorem State.drawn_of_undrawn {s : State} {k : Nat} (f : Nat) (hk : k ≠ 0) (h : k ∈ s.scn.undrawn) : s.drawn f k = false := by
  simp [State.drawn, hk, h]

theorem State.mem_drawOrder_lt (s : State) (k : Nat) (h : k ∈ s.drawOrder) : k < 8 := by
  unfold State.drawOrder at h
  split at h
  · exact List.mem_range.mp h
  · obtain ⟨v, -, hv⟩ := List.mem_flatMap.mp h
    exact List.mem_range.mp (List.mem_filter.mp hv).1

/-- Of the layers 0 to 7 a test takes layer 0 or none. -/
theorem filter_range_zero (q : Nat → Bool) (h : ∀ k, k < 8 → k ≠ 0 → q k = false) : (List.range 8).filter q = if q 0 then [0] else [] := by
  have hothers : ((List.range 7).map Nat.succ).filter q = [] := by
    refine List.filter_eq_nil_iff.mpr fun k hk => ?_
    obtain ⟨j, hj, rfl⟩ := List.mem_map.mp hk
    rw [h j.succ (by have := List.mem_range.mp hj; omega) (Nat.succ_ne_zero j)]
    exact Bool.false_ne_true
  rw [List.range_succ_eq_map, List.filter_cons, hothers]

/-- Each layer stands once in the drawing order, which one layer alone shows of itself. -/
theorem State.drawOrder_filter_zero (s : State) (p : Nat → Bool) (h : ∀ k, k < 8 → (p k = true ↔ k = 0)) : s.drawOrder.filter p = [0] := by
  have h0 : p 0 = true := (h 0 (by decide)).mpr rfl
  have hothers (k : Nat) (hk : k < 8) (hne : k ≠ 0) : p k = false := Bool.eq_false_iff.mpr fun hp => hne ((h k hk).mp hp)
  unfold State.drawOrder
  split
  · rw [filter_range_zero p hothers, if_pos h0]
  · extract_lets z
    have hz : z 0 < 8 := Nat.mod_lt _ (by decide)
    have hclass (v : Nat) : ((List.range 8).filter fun k => z k == v).filter p = if z 0 = v then [0] else [] := by
      rw [List.filter_filter, filter_range_zero _ fun k hk hne => by rw [hothers k hk hne, Bool.false_and]]
      simp [h0]
    rw [List.filter_flatMap]
    simp only [hclass]
    generalize z 0 = w at hz
    interval_cases w <;> rfl

/-! Composed lines. -/

/-- An opaque pixel under ALPHA 255 hides what is below it (R621). -/
theorem blend_opaque (c dst : Nat) : blend false c 255 255 dst = c := by
  simp only [blend, Bool.false_eq_true, if_false]
  omega

theorem State.composed_of_none (s : State) (f y : Nat) (h : ∀ k, k < 8 → s.drawn f k = false) :
    s.composed f y [] = List.replicate s.trd.timing.hActive s.background := by
  have horder : (s.drawOrder.filter fun k => s.drawn f k) = [] :=
    List.filter_eq_nil_iff.mpr fun k hk => by simp [h k (s.mem_drawOrder_lt k hk)]
  rw [State.composed, horder]
  simp

theorem State.composed_of_l0 (s : State) (f y : Nat) (h : ∀ k, k < 8 → (s.drawn f k = true ↔ k = 0)) (halpha : (s.layer 0).alpha = 255) :
    s.composed f y [] = (List.range s.trd.timing.hActive).map (s.l0Pixel (s.shedOf f y) y) := by
  rw [State.composed, s.drawOrder_filter_zero _ h]
  refine List.map_congr_left fun x _ => ?_
  simp [Layer.covers, Rgb.blend, blend_opaque, halpha]

/-! Underruns. -/

theorem State.abortsAt_congr {s t : State} (hin : t.scn.inUse = s.scn.inUse) (htiming : t.trd.timing = s.trd.timing) (x : Nat) :
    t.abortsAt x = s.abortsAt x := by
  simp only [State.abortsAt, State.portsOf, State.portMode, State.inUse, hin, htiming]

theorem State.underrunGroup_of_noRow (s : State) (f y k : Nat) (late : List (Nat × Nat)) (hk : 0 < k) (hdrawn : s.drawn f k = true)
    (hcols : 0 < s.shownCols (s.layer k)) (hy : (s.layer k).y ≤ y) (hh : y < (s.layer k).y + (s.layer k).h) (hrow : s.rowFor f y k = none) :
    s.underrunGroup f y k late = some ((s.layer k).x / 8) := by
  unfold State.underrunGroup
  extract_lets l n
  rw [if_neg (by simp [hdrawn, l, n, hy, hh]; omega), hrow]

theorem State.underrunGroup_of_here (s : State) (f y k : Nat) (r : LayerRow) (hk : 0 < k) (hdrawn : s.drawn f k = true)
    (hcols : 0 < s.shownCols (s.layer k)) (hy : (s.layer k).y ≤ y) (hh : y < (s.layer k).y + (s.layer k).h) (hrow : s.rowFor f y k = some r)
    (hhere : ∀ g, (s.layer k).x / 8 ≤ g → 8 * g < (s.layer k).x + s.shownCols (s.layer k) → s.groupHere (s.layer k) r g = true) :
    s.underrunGroup f y k [] = none := by
  unfold State.underrunGroup
  extract_lets l n
  rw [if_neg (by simp [hdrawn, l, n, hy, hh]; omega), hrow]
  refine List.find?_eq_none.mpr fun g hg => ?_
  have hlt : g < (l.x + n + 7) / 8 := List.mem_range.mp hg
  by_cases hlow : l.x / 8 ≤ g
  · have hgroup : s.groupHere l r g = true := hhere g hlow (by change 8 * g < l.x + n; omega)
    simp [hgroup]
  · simp [hlow]

/-- The layer of an underrun is one of 1 to 7. -/
theorem State.mem_underruns (s : State) {f y g k : Nat} {late : List (Nat × Nat)} (h : (g, k) ∈ s.underruns f y late) : 0 < k ∧ k < 8 := by
  unfold State.underruns at h
  extract_lets all stop kept at h
  obtain ⟨v, -, hv⟩ := List.mem_flatMap.mp h
  have hall : (g, k) ∈ all := (List.mem_filter.mp (List.mem_filter.mp hv).1).1
  obtain ⟨j, hj, hgroup⟩ := List.mem_filterMap.mp hall
  obtain ⟨g', hg', heq⟩ := Option.map_eq_some_iff.mp hgroup
  obtain ⟨rfl, rfl⟩ := Prod.mk.inj heq
  refine ⟨Nat.pos_of_ne_zero fun h0 => ?_, List.mem_range.mp hj⟩
  subst h0
  simp [State.underrunGroup] at hg'

/-- From `s` to `t` underruns have been recorded: layers may be off, and a frame-abort may be asked for. -/
structure State.Underran (s t : State) : Prop where
  rest : t = { s with
    regs := t.regs
    trd := { s.trd with abortWant := t.trd.abortWant, abortAt := t.trd.abortAt }
    scn := { s.scn with off := t.scn.off } }
  asked : .underrun ∈ s.trd.abortWant → .underrun ∈ t.trd.abortWant

theorem State.Underran.refl (s : State) : s.Underran s := ⟨rfl, id⟩

theorem State.Underran.trans {s t u : State} (h : s.Underran t) (h' : t.Underran u) : s.Underran u :=
  ⟨by rw [h'.rest, h.rest], h'.asked ∘ h.asked⟩

theorem State.Underran.abortsAt {s t : State} (h : s.Underran t) (x : Nat) : t.abortsAt x = s.abortsAt x :=
  State.abortsAt_congr (by rw [h.rest]) (by rw [h.rest]) x

/-- What an underrun writes to CMP_UR_HI. -/
def State.underrunWord (s : State) (u : Nat × Nat) : Nat :=
  s.trd.now.frame + u.2 % 8 * 2 ^ 16 + ((s.portsOf (8 * u.1)).head?).getD 0 * 2 ^ 20 + (if s.abortsAt (8 * u.1) then 2 ^ 21 else 0)

/-- An underrun in its registers (R651). -/
def State.underrunNoted (s : State) (u : Nat × Nat) : State :=
  ((s.wr Reg.CMP_UR_LO s.trd.now.low).wr Reg.CMP_UR_HI (BitVec.ofNat 32 (s.underrunWord u))).bump (Reg.CMP_UR_CNT u.2)

theorem State.underrunNoted_writes (s : State) (u : Nat × Nat) :
    s.WritesIn (fun o => o ∈ [Reg.CMP_UR_LO, Reg.CMP_UR_HI, Reg.CMP_UR_CNT u.2]) (s.underrunNoted u) :=
  .bump (.wr (.wr (.refl _ s) _ _ (by simp)) _ _ (by simp)) _ (by simp)

theorem State.underrun_of_aborts (s : State) (f : Nat) (u : Nat × Nat) (h : s.abortsAt (8 * u.1) = true) : s.underrun f u =
    (s.underrunNoted u).onTrd fun t =>
      if t.abortWant.contains .underrun then t else { t with abortWant := t.abortWant ++ [.underrun], abortAt := t.cclk + 2 } := if_pos h

theorem State.underrun_of_off (s : State) (f : Nat) (u : Nat × Nat) (h : s.abortsAt (8 * u.1) = false) : s.underrun f u =
    ((s.underrunNoted u).onScn fun c => { c with off := c.off ++ [(u.2, f)] }).setFld Reg.CMP_STATUS ⟨8 + u.2, 1⟩ 1 :=
  if_neg (by rw [h]; exact Bool.false_ne_true)

theorem State.underran_ask {s v : State} (hrest : v = { s with regs := v.regs }) :
    let t := v.onTrd fun t =>
      if t.abortWant.contains .underrun then t else { t with abortWant := t.abortWant ++ [.underrun], abortAt := t.cclk + 2 }
    s.Underran t ∧ .underrun ∈ t.trd.abortWant ∧ t.scn = s.scn := by
  have htrd : v.trd = s.trd := by rw [hrest]
  have hasked : .underrun ∈ (v.onTrd fun t =>
      if t.abortWant.contains .underrun then t else { t with abortWant := t.abortWant ++ [.underrun], abortAt := t.cclk + 2 }).trd.abortWant := by
    rw [State.onTrd_trd]
    split
    · next hin => exact List.contains_iff_mem.mp hin
    · simp
  refine ⟨⟨?_, fun _ => hasked⟩, hasked, by rw [State.onTrd_scn, hrest]⟩
  rw [State.onTrd, htrd]
  split
  · rw [hrest]
  · rw [hrest]

theorem State.underran_layerOff {s v : State} (hrest : v = { s with regs := v.regs }) (f k : Nat) :
    let t := (v.onScn fun c => { c with off := c.off ++ [(k, f)] }).setFld Reg.CMP_STATUS ⟨8 + k, 1⟩ 1
    s.Underran t ∧ t.trd = s.trd ∧ t.scn.off = s.scn.off ++ [(k, f)] := by
  have htrd : ((v.onScn fun c => { c with off := c.off ++ [(k, f)] }).setFld Reg.CMP_STATUS ⟨8 + k, 1⟩ 1).trd = s.trd := by
    rw [State.setFld_trd, State.onScn_trd, hrest]
  refine ⟨⟨?_, by rw [htrd]; exact id⟩, htrd, by rw [State.setFld_scn, State.onScn_scn, hrest]⟩
  rw [hrest]
  rfl

/-- An underrun handled as a frame-abort asks for one (R646). -/
theorem State.underrun_aborts (s : State) (f : Nat) (u : Nat × Nat) (h : s.abortsAt (8 * u.1) = true) : s.Underran (s.underrun f u) ∧
    .underrun ∈ (s.underrun f u).trd.abortWant ∧ (s.underrun f u).scn = s.scn := by
  rw [s.underrun_of_aborts f u h]
  exact State.underran_ask (s.underrunNoted_writes u).rest

/-- An underrun that turns its layer off for the frame (R649). -/
theorem State.underrun_off (s : State) (f : Nat) (u : Nat × Nat) (h : s.abortsAt (8 * u.1) = false) : s.Underran (s.underrun f u) ∧
    (s.underrun f u).trd = s.trd ∧ (s.underrun f u).scn.off = s.scn.off ++ [(u.2, f)] := by
  rw [s.underrun_of_off f u h]
  exact State.underran_layerOff (s.underrunNoted_writes u).rest f u.2

/-- The underruns of a line in turn. -/
theorem State.underrunAll_spec (f : Nat) (ur : List (Nat × Nat)) (s : State) : let t := ur.foldl (fun x u => x.underrun f u) s
    s.Underran t ∧ ((∃ u ∈ ur, s.abortsAt (8 * u.1) = true) → .underrun ∈ t.trd.abortWant) ∧
    ((∀ u ∈ ur, s.abortsAt (8 * u.1) = false) → t.trd = s.trd ∧ t.scn.off = s.scn.off ++ ur.map fun u => (u.2, f)) := by
  induction ur generalizing s with
  | nil => exact ⟨.refl s, fun ⟨u, hu, _⟩ => absurd hu List.not_mem_nil, fun _ => ⟨rfl, (List.append_nil _).symm⟩⟩
  | cons u ur ih =>
    obtain ⟨hlater, hasks, hoffs⟩ := ih (s.underrun f u)
    rw [List.foldl_cons]
    generalize ur.foldl (fun x u => x.underrun f u) (s.underrun f u) = t at *
    rcases Bool.eq_false_or_eq_true (s.abortsAt (8 * u.1)) with ha | ha
    · obtain ⟨hfirst, hasked, -⟩ := s.underrun_aborts f u ha
      exact ⟨hfirst.trans hlater, fun _ => hlater.asked hasked, fun hno => absurd ha (by rw [hno u List.mem_cons_self]; exact Bool.false_ne_true)⟩
    · obtain ⟨hfirst, htrd, hoff⟩ := s.underrun_off f u ha
      simp only [hfirst.abortsAt] at hasks hoffs
      refine ⟨hfirst.trans hlater, fun ⟨v, hv, hva⟩ => ?_, fun hno => ?_⟩
      · rcases List.mem_cons.mp hv with rfl | hv
        · exact absurd hva (by rw [ha]; exact Bool.false_ne_true)
        · exact hasks ⟨v, hv, hva⟩
      · obtain ⟨htrd', hoff'⟩ := hoffs fun v hv => hno v (List.mem_cons_of_mem _ hv)
        refine ⟨htrd'.trans htrd, ?_⟩
        rw [hoff', hoff, List.append_assoc]
        rfl

/-! What one underrun records. -/

theorem State.portsOf_head_le (s : State) (x : Nat) : ((s.portsOf x).head?).getD 0 ≤ 1 := by
  unfold State.portsOf
  split
  · split <;> decide
  · decide
  · decide

theorem State.underrunWord_fields (s : State) (g k : Nat) (hk : k < 8) (hf : s.trd.now.frame < 65536) :
    let v := BitVec.ofNat 32 (s.underrunWord (g, k))
    Reg.CMP_UR_HI_FRAME.get v = s.trd.now.frame ∧ Reg.CMP_UR_HI_LAYER.get v = k ∧
    Reg.CMP_UR_HI_ABORT.get v = if s.abortsAt (8 * g) then 1 else 0 := by
  have hport := s.portsOf_head_le (8 * g)
  simp only [State.underrunWord]
  generalize ((s.portsOf (8 * g)).head?).getD 0 = port at hport
  generalize s.trd.now.frame = frame at hf
  cases s.abortsAt (8 * g)
  · simp only [Field.get, Reg.CMP_UR_HI_FRAME, Reg.CMP_UR_HI_LAYER, Reg.CMP_UR_HI_ABORT, BitVec.toNat_ofNat, Nat.shiftRight_eq_div_pow,
      Bool.false_eq_true, if_false]
    omega
  · simp only [Field.get, Reg.CMP_UR_HI_FRAME, Reg.CMP_UR_HI_LAYER, Reg.CMP_UR_HI_ABORT, BitVec.toNat_ofNat, Nat.shiftRight_eq_div_pow,
      if_true]
    omega

/-- What the registers of an underrun read after it (R651). -/
theorem State.underrun_rd (s : State) (f : Nat) (u : Nat × Nat) : (s.underrun f u).rd Reg.CMP_UR_LO = s.trd.now.low ∧
    (s.underrun f u).rd Reg.CMP_UR_HI = BitVec.ofNat 32 (s.underrunWord u) ∧
    (s.underrun f u).rd (Reg.CMP_UR_CNT u.2) = counted (s.rd (Reg.CMP_UR_CNT u.2)) := by
  have hlo : Reg.CMP_UR_CNT u.2 ≠ Reg.CMP_UR_LO := by simp only [Reg.CMP_UR_CNT, Reg.CMP_UR_LO]; omega
  have hhi : Reg.CMP_UR_CNT u.2 ≠ Reg.CMP_UR_HI := by simp only [Reg.CMP_UR_CNT, Reg.CMP_UR_HI]; omega
  have hstatus : Reg.CMP_UR_CNT u.2 ≠ Reg.CMP_STATUS := by simp only [Reg.CMP_UR_CNT, Reg.CMP_STATUS]; omega
  have hkept (o : Nat) (ho : o ≠ Reg.CMP_STATUS) : (s.underrun f u).rd o = (s.underrunNoted u).rd o := by
    rcases Bool.eq_false_or_eq_true (s.abortsAt (8 * u.1)) with ha | ha
    · rw [s.underrun_of_aborts f u ha, State.onTrd_rd]
    · rw [s.underrun_of_off f u ha, State.rd_setFld_ne _ _ _ _ _ ho, State.onScn_rd]
  refine ⟨?_, ?_, ?_⟩
  · rw [hkept _ (by decide), State.underrunNoted, State.rd_bump_ne _ _ _ hlo.symm, State.rd_wr_ne _ _ _ _ (by decide), State.rd_wr_self]
  · rw [hkept _ (by decide), State.underrunNoted, State.rd_bump_ne _ _ _ hhi.symm, State.rd_wr_self]
  · rw [hkept _ hstatus, State.underrunNoted, State.rd_bump_self, State.rd_wr_ne _ _ _ _ hhi, State.rd_wr_ne _ _ _ _ hlo]

theorem State.underrun_layerOff (s : State) (f : Nat) (u : Nat × Nat) (hk : u.2 < 8) (h : s.abortsAt (8 * u.1) = false) :
    (s.underrun f u).fld Reg.CMP_STATUS ⟨8 + u.2, 1⟩ = 1 := by
  rw [s.underrun_of_off f u h]
  exact State.fld_setFld_self _ _ _ _ (by dsimp only; omega)

/-! Darned groups. -/

theorem State.WritesIn.bumps {P : Nat → Prop} {s t : State} (h : s.WritesIn P t) (o n : Nat) (ho : P o) : s.WritesIn P (t.bumps o n) := by
  induction n generalizing t with
  | zero => exact h
  | succ n ih => exact ih (h.bump o ho)

theorem State.countDarned_writes (s : State) (shed : Option Shed) (y : Nat) :
    s.WritesIn (fun o => o ∈ [Reg.PIC_DARN_GRP_CNT, Reg.PIC_DARN_BOTH_CNT]) (s.countDarned shed y) := by
  unfold State.countDarned
  split
  · exact .refl _ s
  · exact .bumps (.bumps (.refl _ s) _ _ (by decide)) _ _ (by decide)

end Sys2Proof.Machine
end

section
/-! PROOF. Layers are fetched, composed and committed (R605, R610, R612 to R614, R619, R644 to R650). -/

namespace Sys2Proof.Machine

/-! Fetches. -/

theorem State.fetchLines_first (s : State) (h0 : s.trd.now.line = 0) (hv : 4 < s.trd.timing.vTotal) :
    s.fetchLines = [(s.trd.now.frame, 3), (s.trd.now.frame, 4)] := by
  rw [State.fetchLines, h0, if_pos hv, if_pos rfl]
  rfl

theorem State.fetchLines_within (s : State) (h0 : 0 < s.trd.now.line) (hv : s.trd.now.line + 4 < s.trd.timing.vTotal) :
    s.fetchLines = [(s.trd.now.frame, s.trd.now.line + 4)] := by
  rw [State.fetchLines, if_pos hv, if_neg h0.ne', List.nil_append]

theorem State.fetchLines_last (s : State) (hv : s.trd.timing.vTotal ≤ s.trd.now.line + 4) (hl : s.trd.now.line < s.trd.timing.vTotal) :
    s.fetchLines = [(s.nextFrame, s.trd.now.line + 4 - s.trd.timing.vTotal)] := by
  rw [State.fetchLines, if_neg (by omega), if_pos hl]

theorem exec_layerFetch_none (s : State) (k : Fin 8) (h : s.fetchLines.filter (s.fetches k) = [] ∨ s.trd.now.pick ≠ 0) :
    exec (.layerFetch k) s = .next s := by
  refine if_pos ?_
  rcases h with h | h
  · rw [h]
    rfl
  · simp [h]

theorem exec_layerFetch_due (s : State) (k : Fin 8) (h : s.fetchLines.filter (s.fetches k) ≠ []) (hp : s.trd.now.pick = 0) :
    let s0 := State.elapse (s.toAction ⟨s.trd.now.frame, s.trd.now.line, 0, 0⟩) s
    exec (.layerFetch k) s = .next (((s.fetchLines.filter (s.fetches k)).map (s0.layerRow k)).foldl State.fetchRow s0) :=
  if_neg (by simpa [hp] using h)

theorem State.layerRow_packed (s : State) (k : Nat) (x : Nat × Nat) {n : Nat} (h : packedSize (s.layer k).fmt = some n) :
    (s.layerRow k x).len0 = n * s.shownCols (s.layer k) ∧ (s.layerRow k x).len1 = 0 := by
  simp [State.layerRow, Layer.rowBytes, h]

/-- The rows of a layer in the first planar format, whose second plane has a row for each two lines (R607). -/
theorem State.layerRow_planar (s : State) (k : Nat) (x : Nat × Nat) (h : (s.layer k).fmt = 1) :
    (s.layerRow k x).len0 = s.shownCols (s.layer k) ∧ (s.layerRow k x).len1 = 2 * ((s.shownCols (s.layer k) + 1) / 2) ∧
    (0 < s.shownCols (s.layer k) → (s.layerRow k x).pa1 = (s.layer k).base1 + (x.2 - (s.layer k).y) / 2 * (s.layer k).s1) := by
  have hbytes : (s.layer k).rowBytes (s.shownCols (s.layer k)) = (s.shownCols (s.layer k), 2 * ((s.shownCols (s.layer k) + 1) / 2)) := by
    simp [Layer.rowBytes, h, packedSize, fmtBytes]
  simp only [State.layerRow, hbytes, h]
  refine ⟨trivial, trivial, fun hcols => ?_⟩
  rw [if_neg (by omega)]
  rfl

/-! A line composed. -/

theorem exec_lineCompose_none (s : State) (late : List (Nat × Nat)) (h : s.darkFrame s.composeLine.1 = true ∨ s.trd.timing.vActive ≤ s.composeLine.2 ∨
    (∃ l ∈ s.scn.lines, l.frame = s.composeLine.1 ∧ l.line = s.composeLine.2) ∨
    (s.scn.sending = false ∧ s.boot.switchAt ≠ some s.composeLine.1)) : exec (.lineCompose late) s = .next s := by
  refine if_pos ?_
  simpa [or_assoc] using h

/-- The line's underruns are recorded; where none of them aborts the frame, its darned groups are counted and it is composed. -/
def State.lineComposed (s : State) (ur : List (Nat × Nat)) : State :=
  let u := ur.foldl (fun x v => x.underrun s.composeLine.1 v) s
  if ur.any fun v => s.abortsAt (8 * v.1) then u
  else (u.countDarned (s.shedOf s.composeLine.1 s.composeLine.2) s.composeLine.2).onScn fun c => { c with
    lines := c.lines ++ [{ frame := s.composeLine.1, line := s.composeLine.2, pixels := s.composed s.composeLine.1 s.composeLine.2 ur }] }

theorem exec_lineCompose_due (s : State) (late : List (Nat × Nat)) (hdark : s.darkFrame s.composeLine.1 = false)
    (hactive : s.composeLine.2 < s.trd.timing.vActive) (hnew : ∀ l ∈ s.scn.lines, ¬(l.frame = s.composeLine.1 ∧ l.line = s.composeLine.2))
    (hsends : s.scn.sending = true ∨ s.boot.switchAt = some s.composeLine.1) : exec (.lineCompose late) s =
    .next ((s.lineComposed (s.underruns s.composeLine.1 s.composeLine.2 late)).dropRows fun r =>
      r.frame == s.composeLine.1 && r.line == s.composeLine.2) := by
  refine if_neg ?_
  have hnone : (s.scn.lines.any fun l => l.frame == s.composeLine.1 && l.line == s.composeLine.2) = false :=
    List.any_eq_false.mpr fun l hl => by simpa using hnew l hl
  have hgoes : (s.scn.sending || s.boot.switchAt == some s.composeLine.1) = true := by simpa using hsends
  rw [hdark, hnone, hgoes]
  simpa using hactive

theorem State.mem_dropRows (s : State) (p : LayerRow → Bool) (r : LayerRow) : r ∈ (s.dropRows p).scn.rows ↔ r ∈ s.scn.rows ∧ p r = false := by
  change r ∈ s.scn.rows.filter (fun r => !p r) ↔ _
  rw [List.mem_filter, Bool.not_eq_true']

theorem State.dropRows_rest (s : State) (p : LayerRow → Bool) : s.dropRows p =
    { s with mem := { s.mem with arrived := (s.dropRows p).mem.arrived }, scn := { s.scn with rows := (s.dropRows p).scn.rows } } := rfl

@[simp] theorem State.dropRows_trd (s : State) (p : LayerRow → Bool) : (s.dropRows p).trd = s.trd := rfl
@[simp] theorem State.dropRows_lines (s : State) (p : LayerRow → Bool) : (s.dropRows p).scn.lines = s.scn.lines := rfl
@[simp] theorem State.dropRows_off (s : State) (p : LayerRow → Bool) : (s.dropRows p).scn.off = s.scn.off := rfl

/-- What the composition of a line changes. -/
theorem State.lineComposed_spec (s : State) (ur : List (Nat × Nat)) : let t := s.lineComposed ur
    t = { s with regs := t.regs, scn := t.scn, trd := t.trd } ∧ t.scn.rows = s.scn.rows ∧
    ((∃ u ∈ ur, s.abortsAt (8 * u.1) = true) → .underrun ∈ t.trd.abortWant ∧ t.scn.lines = s.scn.lines) ∧
    ((∀ u ∈ ur, s.abortsAt (8 * u.1) = false) → t.trd = s.trd ∧ t.scn.off = s.scn.off ++ ur.map (fun u => (u.2, s.composeLine.1)) ∧
      t.scn.lines = s.scn.lines ++
        [{ frame := s.composeLine.1, line := s.composeLine.2, pixels := s.composed s.composeLine.1 s.composeLine.2 ur }]) ∧
    ∀ o, o ∉ [Reg.PIC_DARN_GRP_CNT, Reg.PIC_DARN_BOTH_CNT] → t.rd o = (ur.foldl (fun x v => x.underrun s.composeLine.1 v) s).rd o := by
  obtain ⟨⟨hrest, -⟩, hasks, hoffs⟩ := State.underrunAll_spec s.composeLine.1 ur s
  unfold State.lineComposed
  generalize ur.foldl (fun x v => x.underrun s.composeLine.1 v) s = u at *
  dsimp only
  split
  · next hany =>
    obtain ⟨v, hv, hva⟩ := List.any_eq_true.mp hany
    refine ⟨by rw [hrest], by rw [hrest], fun _ => ⟨hasks ⟨v, hv, hva⟩, by rw [hrest]⟩, fun hno => ?_, fun _ _ => rfl⟩
    exact absurd hva (by rw [hno v hv]; exact Bool.false_ne_true)
  · next hany =>
    have hno (v : Nat × Nat) (hv : v ∈ ur) : s.abortsAt (8 * v.1) = false :=
      Bool.eq_false_iff.mpr fun hva => hany (List.any_eq_true.mpr ⟨v, hv, hva⟩)
    obtain ⟨htrd, hoff⟩ := hoffs hno
    obtain ⟨hcount, hrd⟩ := u.countDarned_writes (s.shedOf s.composeLine.1 s.composeLine.2) s.composeLine.2
    generalize u.countDarned (s.shedOf s.composeLine.1 s.composeLine.2) s.composeLine.2 = w at *
    refine ⟨?_, ?_, fun ⟨v, hv, hva⟩ => ?_, fun _ => ⟨?_, ?_, ?_⟩, fun o ho => ?_⟩
    · rw [hcount, hrest]
      rfl
    · rw [State.onScn_scn, hcount, hrest]
    · exact absurd hva (by rw [hno v hv]; exact Bool.false_ne_true)
    · rw [State.onScn_trd, hcount, htrd]
    · rw [State.onScn_scn, hcount, hoff]
    · rw [State.onScn_scn, hcount, hrest]
    · rw [State.onScn_rd, hrd o ho]

/-- The only underrun of a line, in its registers and its layer. -/
theorem State.lineComposed_one (s : State) (g k : Nat) (hk : k < 8) (hf : s.trd.now.frame < 65536) : let t := s.lineComposed [(g, k)]
    t.rd Reg.CMP_UR_LO = s.trd.now.low ∧ t.fld Reg.CMP_UR_HI Reg.CMP_UR_HI_FRAME = s.trd.now.frame ∧
    t.fld Reg.CMP_UR_HI Reg.CMP_UR_HI_LAYER = k ∧ t.fld Reg.CMP_UR_HI Reg.CMP_UR_HI_ABORT = (if s.abortsAt (8 * g) then 1 else 0) ∧
    t.rd (Reg.CMP_UR_CNT k) = counted (s.rd (Reg.CMP_UR_CNT k)) ∧ (s.abortsAt (8 * g) = true → t.scn.off = s.scn.off) ∧
    (s.abortsAt (8 * g) = false → (k, s.composeLine.1) ∈ t.scn.off ∧ t.fld Reg.CMP_STATUS ⟨8 + k, 1⟩ = 1) := by
  obtain ⟨-, -, -, hoffs, hrd⟩ := s.lineComposed_spec [(g, k)]
  rw [List.foldl_cons, List.foldl_nil] at hrd
  obtain ⟨hlo, hhi, hcnt⟩ := s.underrun_rd s.composeLine.1 (g, k)
  obtain ⟨hframe, hlayer, habort⟩ := s.underrunWord_fields g k hk hf
  have hword : (s.lineComposed [(g, k)]).rd Reg.CMP_UR_HI = BitVec.ofNat 32 (s.underrunWord (g, k)) := (hrd _ (by decide)).trans hhi
  have hcounts : Reg.CMP_UR_CNT k ∉ [Reg.PIC_DARN_GRP_CNT, Reg.PIC_DARN_BOTH_CNT] := by
    simp only [Reg.CMP_UR_CNT, Reg.PIC_DARN_GRP_CNT, Reg.PIC_DARN_BOTH_CNT, List.mem_cons, List.not_mem_nil, or_false]
    omega
  refine ⟨?_, ?_, ?_, ?_, ?_, fun ha => ?_, fun ha => ⟨?_, ?_⟩⟩
  · rw [hrd _ (by decide), hlo]
  · rw [State.fld, hword, hframe]
  · rw [State.fld, hword, hlayer]
  · rw [State.fld, hword, habort]
  · rw [hrd _ hcounts, hcnt]
  · have hany : ([(g, k)].any fun v => s.abortsAt (8 * v.1)) = true := List.any_eq_true.mpr ⟨(g, k), List.mem_cons_self, ha⟩
    rw [State.lineComposed, if_pos hany, List.foldl_cons, List.foldl_nil, (s.underrun_aborts _ _ ha).2.2]
  · obtain ⟨-, hoff, -⟩ := hoffs (by simpa using ha)
    rw [hoff]
    simp
  · rw [State.fld_of_rd (hrd _ (by decide))]
    exact s.underrun_layerOff s.composeLine.1 (g, k) hk ha

theorem exec_lineCompose_spec (s : State) (late : List (Nat × Nat)) (hdark : s.darkFrame s.composeLine.1 = false)
    (hactive : s.composeLine.2 < s.trd.timing.vActive) (hnew : ∀ l ∈ s.scn.lines, ¬(l.frame = s.composeLine.1 ∧ l.line = s.composeLine.2))
    (hsends : s.scn.sending = true ∨ s.boot.switchAt = some s.composeLine.1) :
    let c := s.composeLine
    let ur := s.underruns c.1 c.2 late
    ∃ t, exec (.lineCompose late) s = .next t ∧
      t = { s with regs := t.regs, scn := t.scn, trd := t.trd, mem := { s.mem with arrived := t.mem.arrived } } ∧
      (∀ r, r ∈ t.scn.rows ↔ r ∈ s.scn.rows ∧ ¬(r.frame = c.1 ∧ r.line = c.2)) ∧
      ((∃ u ∈ ur, s.abortsAt (8 * u.1) = true) → .underrun ∈ t.trd.abortWant ∧ t.scn.lines = s.scn.lines) ∧
      ((∀ u ∈ ur, s.abortsAt (8 * u.1) = false) → t.trd = s.trd ∧ t.scn.off = s.scn.off ++ ur.map (fun u => (u.2, c.1)) ∧
        t.scn.lines = s.scn.lines ++ [{ frame := c.1, line := c.2, pixels := s.composed c.1 c.2 ur }]) ∧
      (ur = [] → (∀ o, o ∉ [Reg.PIC_DARN_GRP_CNT, Reg.PIC_DARN_BOTH_CNT] → t.rd o = s.rd o) ∧
        ((∀ k, k < 8 → s.drawn c.1 k = false) → s.composed c.1 c.2 [] = List.replicate s.trd.timing.hActive s.background) ∧
        ((∀ k, k < 8 → (s.drawn c.1 k = true ↔ k = 0)) → (s.layer 0).alpha = 255 →
          s.composed c.1 c.2 [] = (List.range s.trd.timing.hActive).map (s.l0Pixel (s.shedOf c.1 c.2) c.2))) ∧
      (∀ g k, ur = [(g, k)] → s.trd.now.frame < 65536 →
        t.rd Reg.CMP_UR_LO = s.trd.now.low ∧ t.fld Reg.CMP_UR_HI Reg.CMP_UR_HI_FRAME = s.trd.now.frame ∧
        t.fld Reg.CMP_UR_HI Reg.CMP_UR_HI_LAYER = k ∧
        t.fld Reg.CMP_UR_HI Reg.CMP_UR_HI_ABORT = (if s.abortsAt (8 * g) then 1 else 0) ∧
        t.rd (Reg.CMP_UR_CNT k) = counted (s.rd (Reg.CMP_UR_CNT k)) ∧
        (s.abortsAt (8 * g) = true → t.scn.off = s.scn.off) ∧
        (s.abortsAt (8 * g) = false → t.drawn c.1 k = false ∧ t.fld Reg.CMP_STATUS ⟨8 + k, 1⟩ = 1)) := by
  intro c ur
  obtain ⟨hrest, hrows, haborts, hoffs, hrd⟩ := s.lineComposed_spec ur
  refine ⟨_, exec_lineCompose_due s late hdark hactive hnew hsends, ?_, fun r => ?_, ?_, ?_, fun hur => ⟨fun o ho => ?_, ?_, ?_⟩, fun g k hur hf => ?_⟩
  · rw [State.dropRows_rest, hrest]
  · rw [State.mem_dropRows, hrows]
    simp [c]
  · rw [State.dropRows_trd, State.dropRows_lines]
    exact haborts
  · rw [State.dropRows_trd, State.dropRows_lines, State.dropRows_off]
    exact hoffs
  · rw [State.rd_dropRows, hrd o ho, hur, List.foldl_nil]
  · exact s.composed_of_none _ _
  · exact s.composed_of_l0 _ _
  · obtain ⟨hpos, hk⟩ := s.mem_underruns (f := c.1) (y := c.2) (late := late) (by change (g, k) ∈ ur; rw [hur]; exact List.mem_cons_self)
    have hone := s.lineComposed_one g k hk hf
    rw [← hur] at hone
    obtain ⟨hlo, hframe, hlayer, habort, hcnt, hasks, hoff⟩ := hone
    generalize s.lineComposed ur = t at *
    refine ⟨hlo, hframe, hlayer, habort, hcnt, hasks, fun ha => ?_⟩
    obtain ⟨hoff, hstatus⟩ := hoff ha
    exact ⟨State.drawn_of_off hpos.ne' hoff, hstatus⟩

/-! Layers drawn again. -/

/-- The layers that were off in a frame before the present one alone. -/
def State.layersBack (s : State) : List (Nat × Nat) :=
  (s.scn.off.filter fun x => frameAfter s.trd.now.frame x.2).filter fun x =>
    !(s.scn.off.filter fun x => !frameAfter s.trd.now.frame x.2).any fun y => y.1 == x.1

theorem exec_layerOffClear (s : State) : exec .layerOffClear s =
    .next ((s.layersBack.map fun x => (⟨8 + x.1, 1⟩ : Field)).foldl (fun t f => t.setFld Reg.CMP_STATUS f 0)
      (s.onScn fun c => { c with off := c.off.filter fun x => !frameAfter s.trd.now.frame x.2 })) := by
  rw [List.foldl_map, State.layersBack, List.foldl_filter]
  refine congrArg Host.Outcome.next (List.foldl_ext _ _ _ fun t x _ => ?_)
  cases (s.scn.off.filter fun x => !frameAfter s.trd.now.frame x.2).any fun y => y.1 == x.1 <;> rfl

theorem State.mem_layersBack (s : State) (k f : Nat) (h : (k, f) ∈ s.scn.off)
    (hall : ∀ f, (k, f) ∈ s.scn.off → frameAfter s.trd.now.frame f = true) : (k, f) ∈ s.layersBack := by
  refine List.mem_filter.mpr ⟨List.mem_filter.mpr ⟨h, hall f h⟩, ?_⟩
  rw [Bool.not_eq_true', List.any_eq_false]
  intro y hy hyk
  obtain ⟨hoff, hleft⟩ := List.mem_filter.mp hy
  obtain rfl : y.1 = k := by simpa using hyk
  simp [hall y.2 hoff] at hleft

theorem exec_layerOffClear_spec (s : State) : ∃ t, exec .layerOffClear s = .next t ∧
    t = { s with regs := t.regs, scn := { s.scn with off := t.scn.off } } ∧
    (∀ x, x ∈ t.scn.off ↔ x ∈ s.scn.off ∧ frameAfter s.trd.now.frame x.2 = false) ∧
    (∀ k, k < 8 → (∃ f, (k, f) ∈ s.scn.off) → (∀ f, (k, f) ∈ s.scn.off → frameAfter s.trd.now.frame f = true) →
      t.fld Reg.CMP_STATUS ⟨8 + k, 1⟩ = 0) ∧ ∀ o, o ≠ Reg.CMP_STATUS → t.rd o = s.rd o := by
  have hclear := State.clearFields_writes (s.onScn fun c => { c with off := c.off.filter fun x => !frameAfter s.trd.now.frame x.2 }) Reg.CMP_STATUS
    (s.layersBack.map fun x => ⟨8 + x.1, 1⟩)
  have hfields (g : Field) (hg : g ∈ s.layersBack.map fun x => (⟨8 + x.1, 1⟩ : Field)) := State.fld_clearFields Reg.CMP_STATUS
    (s.layersBack.map fun x => ⟨8 + x.1, 1⟩) (s.onScn fun c => { c with off := c.off.filter fun x => !frameAfter s.trd.now.frame x.2 }) g (.inl hg)
  refine ⟨_, exec_layerOffClear s, ?_, fun x => ?_, fun k _ ⟨f, hf⟩ hall => ?_, fun o ho => ?_⟩
  · rw [hclear.rest]
    rfl
  · rw [hclear.rest]
    simp
  · exact hfields _ (List.mem_map.mpr ⟨(k, f), s.mem_layersBack k f hf hall, rfl⟩)
  · rw [hclear.rd o ho, State.onScn_rd]

/-! Commits. -/

/-- The commit that a write of GO asks for, before it leaves Panel Replay (R614). -/
def State.commitAsked (s : State) : State :=
  (s.setFld Reg.CMP_COMMIT Reg.CMP_COMMIT_PENDING 1).onScn fun c => { c with
    commitAt := c.commitAt.or (some (if s.trd.now.atOrAfter (s.commitStamp s.trd.now.frame) then s.nextFrame else s.trd.now.frame)) }

theorem exec_cmpCommit (s : State) : exec .cmpCommit s = .next s.commitAsked.prExit := rfl

theorem State.commitAsked_spec (s : State) : s.commitAsked.fld Reg.CMP_COMMIT Reg.CMP_COMMIT_PENDING = 1 ∧
    (s.scn.commitAt = none → s.commitAsked.scn.commitAt =
      some (if s.trd.now.atOrAfter ⟨s.trd.now.frame % 65536, s.trd.timing.vTotal - 4, 0, 0⟩ = true then s.nextFrame else s.trd.now.frame)) ∧
    s.commitAsked = { s with regs := s.commitAsked.regs, scn := s.commitAsked.scn } ∧
    s.commitAsked.scn = { s.scn with commitAt := s.commitAsked.scn.commitAt } ∧
    ∀ o, o ≠ Reg.CMP_COMMIT → s.commitAsked.rd o = s.rd o := by
  refine ⟨?_, fun hnone => ?_, rfl, rfl, fun o ho => ?_⟩
  · rw [State.commitAsked, State.onScn_fld]
    exact State.fld_setFld_self _ _ _ _ (by decide)
  · rw [State.commitAsked, State.onScn_scn, State.setFld_scn, hnone]
    rfl
  · rw [State.commitAsked, State.onScn_rd, State.rd_setFld_ne _ _ _ _ _ ho]

theorem exec_cmpCommit_spec (s : State) : ∃ t, exec .cmpCommit s = .next t ∧ t.fld Reg.CMP_COMMIT Reg.CMP_COMMIT_PENDING = 1 ∧
    (s.scn.commitAt = none → t.scn.commitAt =
      some (if s.trd.now.atOrAfter ⟨s.trd.now.frame % 65536, s.trd.timing.vTotal - 4, 0, 0⟩ = true then s.nextFrame else s.trd.now.frame)) ∧
    (s.prState = 0 ∨ s.prState = 3 → t = { s with regs := t.regs, scn := { s.scn with commitAt := t.scn.commitAt } } ∧
      ∀ o, o ≠ Reg.CMP_COMMIT → t.rd o = s.rd o) ∧
    (s.prState = 1 ∨ s.prState = 2 → t.prState = 3 ∧ t.scn = { s.scn with commitAt := t.scn.commitAt, prWaking := true } ∧
      (∀ o, o ∉ [Reg.CMP_COMMIT, Reg.SCN_PR_STATUS, Reg.PWR_STATUS] → t.rd o = s.rd o) ∧
      t = { s with regs := t.regs, scn := t.scn, pwr := t.pwr, looms := t.looms }) := by
  obtain ⟨hpending, hat, hrest, hscn, hrd⟩ := s.commitAsked_spec
  have hreplay : s.commitAsked.prState = s.prState := State.fld_of_rd (hrd _ (by decide)) _
  obtain ⟨-, hscn', hrd'⟩ := s.commitAsked.prExit_kept
  have hin := s.commitAsked.prExit_of_in
  have hout := s.commitAsked.prExit_of_out
  rw [hreplay] at hin hout
  rw [exec_cmpCommit]
  generalize s.commitAsked = u at *
  have hcommit : u.prExit.scn.commitAt = u.scn.commitAt := by rw [hscn']
  refine ⟨_, rfl, ?_, fun hnone => ?_, fun h => ?_, fun h => ?_⟩
  · rw [State.fld_of_rd (hrd' _ (by decide)), hpending]
  · rw [hcommit, hat hnone]
  · rw [hout h]
    exact ⟨by rw [← hscn]; exact hrest, hrd⟩
  · obtain ⟨hstate, hwaking, hleft, hkept⟩ := hin h
    refine ⟨hstate, by rw [hwaking, hscn], fun o ho => ?_, by rw [hleft, hrest]⟩
    obtain ⟨hne, hothers⟩ := not_or.mp (List.mem_cons.not.mp ho)
    exact (hkept o hothers).trans (hrd o hne)

/-- Shadows taken into use, one after another. -/
theorem State.takeShadows_spec (l : List Nat) (s : State) : let t := l.foldl (fun t o => t.setInUse o (t.rd o)) s
    t = { s with scn := { s.scn with inUse := t.scn.inUse } } ∧ ∀ o, t.inUse o = if o ∈ l then s.rd o else s.inUse o := by
  induction l generalizing s with
  | nil => exact ⟨rfl, fun o => (if_neg List.not_mem_nil).symm⟩
  | cons p l ih =>
    obtain ⟨hrest, hin⟩ := ih (s.setInUse p (s.rd p))
    refine ⟨hrest, fun o => (hin o).trans ?_⟩
    rw [State.rd_setInUse, State.inUse_setInUse]
    by_cases hp : o = p
    · simp [hp]
    · simp [hp]

theorem mem_badLayers (rd : Nat → Word) (k : Nat) : k ∈ badLayers rd ↔ 0 < k ∧ k < 8 ∧ (layerOf rd k).bad = true := by
  simp only [badLayers, List.mem_filter, List.mem_range, Bool.and_eq_true, decide_eq_true_eq]
  tauto

/-- Every shadow is in use, with the layers that R610 refuses; no register has changed yet. -/
def State.shadowsTaken (s : State) : State :=
  (cmpShadows.foldl (fun t o => t.setInUse o (t.rd o)) s).onScn fun c => { c with undrawn := badLayers s.rd, commitAt := none }

theorem State.shadowsTaken_spec (s : State) : s.shadowsTaken = { s with scn := { s.scn with
      inUse := s.shadowsTaken.scn.inUse, undrawn := badLayers s.rd, commitAt := none } } ∧
    ∀ o, s.shadowsTaken.inUse o = if o ∈ cmpShadows then s.rd o else s.inUse o := by
  obtain ⟨htaken, hin⟩ := State.takeShadows_spec cmpShadows s
  unfold State.shadowsTaken
  generalize cmpShadows.foldl (fun t o => t.setInUse o (t.rd o)) s = u at *
  refine ⟨?_, hin⟩
  rw [htaken]
  rfl

/-- What the copy of the shadows writes: CFG_ERR where a layer is refused, and PENDING. -/
def State.copyNoted (s : State) (bad : List Nat) : State :=
  (if bad.isEmpty then s else s.setFld Reg.CMP_STATUS Reg.CMP_STATUS_CFG_ERR 1).setFld Reg.CMP_COMMIT Reg.CMP_COMMIT_PENDING 0

theorem State.copyShadows_commit (s : State) : s.copyShadows true = s.shadowsTaken.copyNoted (badLayers s.rd) := by
  unfold State.copyShadows State.copyNoted State.shadowsTaken
  generalize cmpShadows.foldl (fun t o => t.setInUse o (t.rd o)) s = u
  dsimp only
  rw [if_pos rfl]
  split <;> rfl

theorem State.copyNoted_spec (s : State) (bad : List Nat) : s.WritesIn (fun o => o ∈ [Reg.CMP_COMMIT, Reg.CMP_STATUS]) (s.copyNoted bad) ∧
    (s.copyNoted bad).fld Reg.CMP_COMMIT Reg.CMP_COMMIT_PENDING = 0 ∧
    (bad ≠ [] → (s.copyNoted bad).fld Reg.CMP_STATUS Reg.CMP_STATUS_CFG_ERR = 1) := by
  refine ⟨.setFld ?_ _ _ _ (by decide), State.fld_setFld_self _ _ _ _ (by decide), fun hbad => ?_⟩
  · split
    · exact .refl _ s
    · exact .setFld (.refl _ s) _ _ _ (by decide)
  · rw [State.copyNoted, State.fld_setFld_ne _ _ _ _ _ _ (by decide), if_neg (by simpa using hbad)]
    exact State.fld_setFld_self _ _ _ _ (by decide)

theorem exec_commitCopy_none (s : State) (h : s.scn.commitAt = none) : exec .commitCopy s = .next s := by
  change execCommitCopy s = _
  rw [execCommitCopy, h]

theorem exec_commitCopy_waits (s : State) {f : Nat} (h : s.scn.commitAt = some f) (hearly : s.trd.now.atOrAfter (s.commitStamp f) = false) :
    exec .commitCopy s = .next s := by
  change execCommitCopy s = _
  rw [execCommitCopy, h]
  exact if_neg (by simp [hearly])

theorem exec_commitCopy_due (s : State) {f : Nat} (h : s.scn.commitAt = some f) (hdue : s.trd.now.atOrAfter (s.commitStamp f) = true) :
    exec .commitCopy s = .next ((State.elapse (s.toAction (s.commitStamp f)) s).copyShadows true) := by
  change execCommitCopy s = _
  rw [execCommitCopy, h]
  exact if_pos hdue

/-- What a commit takes into use, from the state of its action CCLK. -/
theorem State.copyShadows_spec (s : State) : let t := s.copyShadows true
    t = { s with regs := t.regs, scn := t.scn } ∧
    (∀ o ∈ cmpShadows, t.inUse o = s.rd o) ∧ (∀ o, o ∉ cmpShadows → t.inUse o = s.inUse o) ∧ t.scn.commitAt = none ∧
    t.fld Reg.CMP_COMMIT Reg.CMP_COMMIT_PENDING = 0 ∧
    (∀ k, k ∈ t.scn.undrawn ↔ 0 < k ∧ k < 8 ∧ (layerOf s.rd k).bad = true) ∧
    (∀ k, 0 < k → k < 8 → (layerOf s.rd k).bad = true → t.fld Reg.CMP_STATUS Reg.CMP_STATUS_CFG_ERR = 1 ∧ ∀ g, t.drawn g k = false) ∧
    ∀ o, o ∉ [Reg.CMP_COMMIT, Reg.CMP_STATUS] → t.rd o = s.rd o := by
  obtain ⟨hrest, hinUse⟩ := s.shadowsTaken_spec
  rw [s.copyShadows_commit]
  generalize s.shadowsTaken = u at *
  obtain ⟨⟨hnoted, hrd⟩, hpending, hcfg⟩ := u.copyNoted_spec (badLayers s.rd)
  generalize u.copyNoted (badLayers s.rd) = t at *
  have hsame (o : Nat) : t.inUse o = u.inUse o := by rw [State.inUse, hnoted, State.inUse]
  have hundrawn : t.scn.undrawn = badLayers s.rd := by rw [hnoted, hrest]
  refine ⟨by rw [hnoted, hrest], fun o ho => ?_, fun o ho => ?_, by rw [hnoted, hrest], hpending, fun k => ?_, fun k h0 hk hbad => ?_, fun o ho => ?_⟩
  · rw [hsame, hinUse, if_pos ho]
  · rw [hsame, hinUse, if_neg ho]
  · rw [hundrawn, mem_badLayers]
  · have hmem : k ∈ badLayers s.rd := (mem_badLayers s.rd k).mpr ⟨h0, hk, hbad⟩
    exact ⟨hcfg (List.ne_nil_of_mem hmem), fun g => State.drawn_of_undrawn g h0.ne' (by rw [hundrawn]; exact hmem)⟩
  · rw [hrd o ho, hrest]
    rfl

/-! The obligation. -/

/-- Settles O49: a line by its underruns taken in turn, a layer's return by the status bits that are cleared, and a commit by the shadows copied
one after another. -/
theorem layersAreFetchedComposedAndCommitted : Obligations.LayersAreFetchedComposedAndCommitted := by
  intro s
  refine ⟨fun k => ?_, fun late => ?_, exec_layerOffClear_spec s, exec_cmpCommit_spec s, exec_commitCopy_none s, fun f h => ?_⟩
  · intro due s0
    refine ⟨exec_layerFetch_none s k, exec_layerFetch_due s k, fun _ _ => rfl, s.fetchLines_first, s.fetchLines_within, s.fetchLines_last, fun x => ?_⟩
    exact ⟨rfl, rfl, rfl, rfl, fun n hn => s0.layerRow_packed k x hn, s0.layerRow_planar k x⟩
  · intro c ur
    refine ⟨exec_lineCompose_none s late, fun k h0 _ hd hw hy hh => ⟨s.underrunGroup_of_noRow _ _ k late h0 hd hw hy hh, fun r hr hl hhere => ?_⟩,
      exec_lineCompose_spec s late⟩
    rw [hl]
    exact s.underrunGroup_of_here _ _ k r h0 hd hw hy hh hr hhere
  · intro s0
    exact ⟨exec_commitCopy_waits s h, fun hdue => ⟨_, exec_commitCopy_due s h hdue, s0.copyShadows_spec⟩⟩

end Sys2Proof.Machine
end
